-- ==== Sys2Proof/Word.lean ====
section
/-! DEFINITION. Plain word types, tables by number, the ports of Table 18.1 and the records that arrive from outside. -/

namespace Sys2Proof

/-- A byte. -/
abbrev Byte := BitVec 8

/-- A table from numbers to values: keys rising, a missing key standing for the reader's default. -/
abbrev Tab (α : Type) := List (Nat × α)

/-- The ports of Table 18.1 (R368). -/
inductive Port where
  | pf
  | vf (n : Nat)
  | mgmt
  | i3c
  | jtag
  deriving DecidableEq, Repr

/-- What the decoder finds in one sector (Table 7.5, R176 to R179). -/
inductive Dec where
  | clean
  | corrected
  | uncorrectable
  deriving DecidableEq, Repr

/-- A transport packet (Table 15.4, R326). -/
structure FabPkt where
  /-- DST_ID -/
  dst : BitVec 16 := 0
  /-- SRC_ID -/
  src : BitVec 16 := 0
  /-- SEQ -/
  seq : BitVec 32 := 0
  /-- DST_INC -/
  dstInc : BitVec 32 := 0
  /-- SRC_INC -/
  srcInc : BitVec 32 := 0
  /-- OPCODE -/
  op : BitVec 8 := 0
  /-- FLAGS -/
  flags : BitVec 8 := 0
  /-- HOPS -/
  hops : Nat := 0
  /-- GRANT, or the status of a response -/
  grant : BitVec 16 := 0
  /-- LEN -/
  len : Nat := 0
  /-- OFFSET -/
  off : BitVec 64 := 0
  /-- extensions of POST, CONTRIB and BATCH (Table 15.5) -/
  ext : List (BitVec 128) := []
  /-- poison extension -/
  pois : BitVec 128 := 0
  /-- payload -/
  data : List Byte := []
  /-- mesh priority at the egress engine (R324) -/
  prio : Nat := 0
  /-- time waited at the link, in microseconds (R324) -/
  waited : Nat := 0
  /-- ingress port (R323) -/
  port : Nat := 0
  /-- whether its CRC-32C trailer checks over header, extension and payload (R326) -/
  crcOk : Bool := true
  deriving DecidableEq, Repr

/-- The operation of an AMO instruction (RV64A, R53). -/
inductive AmoOp where
  | swap
  | add
  | xor
  | and
  | or
  | min
  | max
  | minu
  | maxu
  deriving DecidableEq, Repr

/-- What a store of a control processor is: a plain store, an SC or an AMO, the last two with their destination register (R53, R55). -/
inductive StoreKind where
  | plain
  | sc (rd : Nat)
  | amo (op : AmoOp) (rd : Nat)
  deriving DecidableEq, Repr

/-- A unit with a wait (R71). -/
inductive Waiting where
  /-- the oldest waiting command of queue `q` of a core -/
  | queue (die core q : Nat)
  /-- a core's COR_WAIT store -/
  | corWait (die core : Nat)
  /-- the oldest waiting descriptor of a submission ring -/
  | ring (fn k : Nat)
  /-- the head command of an SSU queue -/
  | ssu (ls fn k : Nat)
  deriving DecidableEq, Repr

/-- An adjacency report (R320). -/
structure AdjReport where
  /-- fabric identifier -/
  id : BitVec 16 := 0
  /-- identity digest -/
  digest : BitVec 128 := 0
  /-- protocol version -/
  version : BitVec 16 := 0
  /-- report sequence -/
  seq : BitVec 32 := 0
  /-- UP ports: local port, neighbour identifier, neighbour port -/
  ports : List (Nat × BitVec 16 × Nat) := []
  deriving DecidableEq, Repr

/-- What a chiplet sends through its gate: device messages of a streaming chiplet and CXL.cache requests (Table 8.6, R348). -/
inductive ChipOp where
  /-- RD_NC, RdCurr -/
  | rdNc
  /-- WR_NC, ItoMWr, WrCur, WrInv, WOWrInv, WOWrInvF -/
  | wrNc
  /-- a token post -/
  | post
  /-- RdShared, RdAny -/
  | rdShared
  /-- RdOwn -/
  | rdOwn
  /-- RdOwnNoData -/
  | rdOwnNoData
  /-- CleanEvict, CleanEvictNoData -/
  | cleanEvict
  /-- DirtyEvict -/
  | dirtyEvict
  | clFlush
  | cacheFlushed
  /-- a CXL.io request, which needs no slot (Table 16.1) -/
  | io
  /-- an opcode that no protocol allows, or a malformed header -/
  | other
  deriving DecidableEq, Repr

/-- A packet from a chiplet (R345, R347). -/
structure ChipPkt where
  /-- message -/
  op : ChipOp := .other
  /-- it arrived on a graft–tile link -/
  tile : Bool := false
  /-- service class of its slot -/
  cls : Nat := 0
  /-- chiplet address, 48 bits -/
  addr : Nat := 0
  /-- bytes of the line it concerns -/
  mask : BitVec 128 := 0
  /-- data, in line positions -/
  data : BitVec 1024 := 0
  /-- poisoned sectors -/
  pois : BitVec 4 := 0
  /-- post word -/
  word : BitVec 32 := 0
  deriving DecidableEq, Repr

/-- What a chiplet answers during accession (Table 16.2). -/
structure ChipInfo where
  /-- the chiplet answers over the sideband -/
  present : Bool := false
  /-- protocols offered: [0] streaming, [1] CXL.io, [2] CXL.cache, [3] CXL.mem -/
  proto : BitVec 4 := 0
  /-- highest rate in common: 1 16, 2 24, 3 32 GT/s -/
  rate : Nat := 0
  /-- modules that train on the hub link -/
  hub : Nat := 0
  /-- modules that train on each graft–tile link, by tile die -/
  tiles : List (Nat × Nat) := []
  /-- VENDOR -/
  vendor : BitVec 16 := 0
  /-- PRODUCT -/
  product : BitVec 16 := 0
  /-- revision -/
  rev : BitVec 16 := 0
  /-- power request in W -/
  power : BitVec 16 := 0
  /-- both signatures over the transcript verify -/
  sigOk : Bool := false
  /-- measurements -/
  meas : List Byte := []
  /-- certificate chain -/
  certs : List Byte := []
  deriving DecidableEq, Repr

/-- JTAG instructions by what they reach (Table 18.5). -/
inductive JtagOp where
  | idcode
  | bypass
  | sample
  | extest
  /-- LC status -/
  | lcStatus
  | bist
  /-- reading the DeviceID public keys -/
  | readKeys
  /-- writing their certificates -/
  | writeCerts
  /-- scan chains and memory access -/
  | scan
  /-- fuse programming -/
  | fuse
  /-- a debug instruction of a bit of SCOPE (R381) -/
  | debug (scope : Nat)
  deriving DecidableEq, Repr

/-- What a drive identifies of one namespace (R304). -/
structure NsInfo where
  /-- NSID -/
  nsid : Nat := 0
  /-- LBA size in bytes -/
  lba : Nat := 512
  /-- end-to-end protection enabled -/
  prot : Bool := false
  /-- capacity in LBAs -/
  cap : Nat := 0
  deriving DecidableEq, Repr

end Sys2Proof
end

