-- ==== Sys2Proof/Syntax.lean ====
section
/-! DEFINITION. The commands: one constructor for each row of spec/opcode_table.json, with what the sender or the surroundings supply as operands. -/

namespace Sys2Proof

/-- The commands of the device. A unit is named by its die, core, queue, compartment (function) and ring numbers; a command word, descriptor or message that the device already holds comes from the state. -/
inductive Instr where
  /-- REGISTER_WRITE (R9): A write to a register that has no row of its own stores, sets or clears bits, or is ignored, according to its access code and port authority. -/
  | registerWrite (port : Port) (bar0 : Bool) (die off : Nat) (val : BitVec 64)
  /-- COR_TKN_WRITE (R63): A control-processor write to COR_TKN sets a core token counter, taking effect before same-cycle posts, and pending waits on it are re-evaluated. -/
  | corTknWrite (die core idx : Nat) (val : BitVec 64) (posts : List Nat)
  /-- COR_TKN_POST (R63): A write to COR_TKN_POST adds an increment modulo 2^16 to a core counter. -/
  | corTknPost (die core idx : Nat) (val : BitVec 64)
  /-- COR_WAIT (R64): A store to COR_WAIT does not retire until the named counter meets the awaited value. -/
  | corWait (die core : Nat) (val : BitVec 64)
  /-- COR_QSTAT_CLEAR (R59): Writing 1 to bit 31 of COR_QSTAT clears that queue's status register. -/
  | corQstatClear (die core q : Nat) (val : BitVec 64)
  /-- COR_RPT_WRITE (R68): A write to a remote post table entry is stored, with VALID forced to 0 when no peer segment of the compartment names its fabric identifier. -/
  | corRptWrite (die core j : Nat) (val : BitVec 64)
  /-- CMD_PORT_STORE (R60): A store into a command port updates the staging register, and a store that writes byte 31 enters the whole register as a command, waiting while the queue is full. -/
  | cmdPortStore (die core q off : Nat) (bytes : List Byte)
  /-- KERNEL_EXIT (R57): ECALL with a7 = 0x5D ends the kernel with its exit value in a0. -/
  | kernelExit (die core : Nat) (a7 a0 : BitVec 64)
  /-- CP_TRAP (R56): An exception or interrupt of the control processor enters the launch stub, which ends the kernel with CP_TRAP and drains the core. -/
  | cpTrap (die core : Nat) (cause : BitVec 8) (tval : BitVec 64)
  /-- FENCE_I (R449): FENCE.I makes code the kernel wrote into scratch visible to instruction fetch. -/
  | fenceI (die core : Nat)
  /-- CP_LOAD (R194): A control-processor load hits its data cache or issues RD_SHARED, and faults on a poisoned sector or a failed segment check. -/
  | cpLoad (die core : Nat) (addr : BitVec 64) (size rd : Nat) (lr : Bool := false)
  /-- CP_STORE (R194): A control-processor store is performed on a dirty sector or obtains ownership and a DIRTY_ACK before it is performed. -/
  | cpStore (die core : Nat) (addr : BitVec 64) (bytes : List Byte) (kind : StoreKind := .plain)
  /-- LINE_EVICTION (R194): An agent evicts a line silently from S, with EVICT_CLEAN from E, or with WR_BACK of its dirty sectors from M. -/
  | lineEviction (agent line : Nat)
  /-- TOKEN_POST (R69): A post reaches its counter unit, is dropped when the sender's high-water mark already covers it and otherwise is added, and every wait on the counter is re-evaluated. -/
  | tokenPost (n : Nat)
  /-- TOKEN_STALL (R71): When the age of a unit's oldest wait exceeds HUB_TKN_STALL_LIMIT, the unit reports TOKEN_STALL once for that wait. -/
  | tokenStall (unit : Waiting) (age : Nat)
  /-- HUB_TKN_STALL_LIMIT_WRITE (R71): A write to HUB_TKN_STALL_LIMIT applies the new limit at once to every wait not yet reported, and 0 stops reports. -/
  | hubTknStallLimitWrite (port : Port) (val : BitVec 64)
  /-- SQ_DOORBELL (R73): A write of a new tail to a submission ring's doorbell publishes descriptors, or is ignored with RING_INDEX when the value is invalid. -/
  | sqDoorbell (fn k : Nat) (val : BitVec 64)
  /-- RING_CTRL_WRITE (R73): A write to a ring's BASE or CTRL is ignored while ENABLE is 1 except to clear ENABLE; setting ENABLE zeroes head and tail, or posts RING_CONFIG when LOG2_SIZE is out of range. -/
  | ringCtrlWrite (fn ring : Nat) (ctrl : Bool) (val : BitVec 64)
  /-- CMP_CQ_HEAD_DOORBELL (R75): A write to the completion ring's head doorbell frees entries, writes held completions in order and lets fetching resume. -/
  | cmpCqHeadDoorbell (fn : Nat) (val : BitVec 64)
  /-- CMP_EQ_HEAD_DOORBELL (R75): A write to the event ring's head doorbell frees event entries or is ignored with RING_INDEX. -/
  | cmpEqHeadDoorbell (fn : Nat) (val : BitVec 64)
  /-- CMP_TKN_POST (R67): A VF write to CMP_TKN_POST adds to one of its compartment's eight dispatcher counters. -/
  | cmpTknPost (fn j : Nat) (val : BitVec 64)
  /-- DESCRIPTOR_ENQUEUE (R77): A descriptor fetched from a submission ring is checked and translated in the order of R77, and a refused one keeps its place to complete with its code. -/
  | descriptorEnqueue (fn k : Nat)
  /-- DESCRIPTOR_START (R74): The dispatcher starts a queued descriptor once its waits hold, its FENCE is satisfied and its cores or SSU queue entries are free. -/
  | descriptorStart (fn k : Nat)
  /-- DESCRIPTOR_COMPLETE (R81): A descriptor whose effects are performed delivers its posts, writes its completion entry unless NO_CQE applies, and raises its MSI-X vector when IRQ is set. -/
  | descriptorComplete (fn k index : Nat)
  /-- RANK_START (R79): A rank starts when its core is free: the launch stub clears COR_QSTAT, optionally zeroes counters, copies image and arguments, invalidates the instruction cache and enters user mode. -/
  | rankStart (fn k index : Nat)
  /-- RANK_FINISH (R79): A rank finishes when its kernel has exited and its six queues are empty, and the launch completes when every rank has finished. -/
  | rankFinish (die core : Nat)
  /-- MOV_COPY (R62): The mover copies LEN bytes between mover addresses, or makes a contribution when the destination segment is reduce-only. -/
  | movCopy (die core : Nat)
  /-- MOV_COPY2D (R62): The mover copies ROWS rows of ROW_BYTES with the given source and destination strides. -/
  | movCopy2d (die core : Nat)
  /-- MOV_CONVERT (R62): The mover converts COUNT elements between non-MX formats under the rounding, saturation and FTZ fields. -/
  | movConvert (die core : Nat)
  /-- MOV_FILL (R62): The mover fills LEN bytes with a repeating 64-bit pattern. -/
  | movFill (die core : Nat)
  /-- MOVER_CMD_COMPLETE (R62): A mover command whose transfers have all been performed completes, records its outcome in COR_QSTAT and makes its post. -/
  | moverCmdComplete (die core : Nat)
  /-- WAIT (R88): The WAIT command has no effect beyond holding its queue until its counter condition is met. -/
  | wait (die core q : Nat) (fault : Bool := false)
  /-- POST (R88): The POST command makes its post in queue order and has no other effect. -/
  | post (die core q : Nat) (fault : Bool := false)
  /-- FENCE (R88): FENCE holds every later command of its queue until every earlier command has completed. -/
  | fence (die core q : Nat) (fault : Bool := false)
  /-- RNG_SEED (R89): RNG_SEED seeds the issuing unit's or the mover's stochastic-rounding generators from SEED or from the true random number generator. -/
  | rngSeed (die core q : Nat) (fault : Bool := false)
  /-- LOAD_A (R90): LOAD_A sets an A operand slot's offset, pitch, format, MX flag and scale slot. -/
  | loadA (die core q : Nat) (fault : Bool := false)
  /-- LOAD_B (R90): LOAD_B sets a B operand slot's offset, pitch, format, MX flag and scale slot. -/
  | loadB (die core q : Nat) (fault : Bool := false)
  /-- SCALE_SET (R95): SCALE_SET loads NBLK × 64 E8M0 scale bytes into a scale slot and marks entries read from poisoned sectors as poisoned. -/
  | scaleSet (die core q : Nat) (fault : Bool)
  /-- MMA (R92): MMA accumulates the product of the A and B slots over K into an accumulator bank under the grouped dot-product rules. -/
  | mma (die core q : Nat) (fault : Bool)
  /-- MMA_SPLIT (R96): MMA_SPLIT runs the passes of a pair, triple, INT16 or INT24 split product into one bank in the fixed order. -/
  | mmaSplit (die core q : Nat) (fault : Bool)
  /-- ACC_CLEAR (R91): ACC_CLEAR sets the kind of the masked banks, zeroes them and clears their poison flags. -/
  | accClear (die core q : Nat) (fault : Bool)
  /-- ACC_READ (R98): ACC_READ copies raw FP32 or INT32 vectors of a bank to the core store. -/
  | accRead (die core q : Nat) (fault : Bool)
  /-- STORE_C (R99): STORE_C scales and converts every element of a bank into OUT_FMT, optionally as MX blocks, writes all 64 vectors and optionally clears the bank. -/
  | storeC (die core q : Nat) (fault : Bool)
  /-- ENGINE_CMD_COMPLETE (R87): An engine or shaping command completes, ORs its sticky byte into COR_QSTAT and makes its post in queue order. -/
  | engineCmdComplete (die core q : Nat)
  /-- ELTWISE (R109): ELTWISE applies OP to COUNT elements from A, B and C operands or immediates. -/
  | eltwise (die core : Nat)
  /-- SHP_REDUCE (R110): The shaping REDUCE writes one SUM, MAX, MIN, SUMSQ, ARGMAX or ARGMIN value per row. -/
  | shpReduce (die core : Nat)
  /-- SOFTMAX (R110): SOFTMAX writes the scaled, optionally masked softmax of each row. -/
  | softmax (die core : Nat)
  /-- NORM (R110): NORM writes the layer or RMS normalisation of each row with optional gamma and beta. -/
  | norm (die core : Nat)
  /-- NORM_L2 (R110): NORM_L2 writes each row's L2 norm, or the row divided or clipped by it. -/
  | normL2 (die core : Nat)
  /-- CONVERT (R111): CONVERT converts COUNT elements plainly, by splitting into pieces, or with a 64 × 64 transpose. -/
  | convert (die core : Nat)
  /-- SHP_GATHER (R112): The shaping GATHER copies table rows named by an INT32 index vector, writing zeros for out-of-range indices. -/
  | shpGather (die core : Nat)
  /-- SSU_CMD_START (R118): An SSU starts the head command of a queue once its SSU_WAIT is met and any resources it needs are free, checking it and refusing it when a check fails. -/
  | ssuCmdStart (ls fn k : Nat)
  /-- WIN_OPEN (R122): WIN_OPEN checks and opens a reduction window, optionally zeroing its destination. -/
  | winOpen (ls fn k : Nat)
  /-- WIN_CLOSE (R123): WIN_CLOSE from the owner closes a window after every earlier contribution is applied and makes CLOSE_POST. -/
  | winClose (ls fn k : Nat)
  /-- WIN_FREE (R124): WIN_FREE releases a closed or lost window's record and ledger. -/
  | winFree (ls fn k : Nat)
  /-- SSU_REDUCE (R128): The SSU REDUCE reads COUNT elements from SRC and applies them to a window as an explicit tagged contribution. -/
  | ssuReduce (ls fn k : Nat)
  /-- CLIP_NOISE (R131): CLIP_NOISE opens an aggregation window that clips each contribution and adds noise to the sum at close. -/
  | clipNoise (ls fn k : Nat)
  /-- CONTRIBUTION (R125): A tagged contribution reaches the SSU intake and is dropped as a duplicate, refused for a closed window, or applied group by group and counted. -/
  | contribution (ls n upTo : Nat)
  /-- OPT_STEP (R134): OPT_STEP updates FP32 master weights and moments by SGD, AdamW or LAMB and optionally writes a shadow copy. -/
  | optStep (ls fn k : Nat)
  /-- SSU_GATHER (R135): The SSU GATHER produces indexed table rows or their bag sums from the stack. -/
  | ssuGather (ls fn k : Nat)
  /-- SCATTER (R136): SCATTER writes or adds source rows into the indexed table rows. -/
  | scatter (ls fn k : Nat)
  /-- PARITY (R137): PARITY recomputes, verifies or rebuilds guarded-segment parity over a range. -/
  | parity (ls fn k : Nat)
  /-- WIPE (R138): WIPE overwrites a range with zeros, after an LFSR pattern with PATTERN 1. -/
  | wipe (ls fn k : Nat)
  /-- MIGRATE (R139): MIGRATE hands a logical stack over to a reserve tile and copies it there. -/
  | migrate (ls fn k : Nat)
  /-- MIGRATE_COPY_DONE (R139): When a migration copy ends, the old tile is fenced or returned to reserve and the inventory changes. -/
  | migrateCopyDone (ls : Nat)
  /-- NOISE_REKEY (R132): After 2^32 noise samples the Curator rekeys the ChaCha20 keystream from the true random number generator. -/
  | noiseRekey (ls : Nat)
  /-- ATTEND (R156): ATTEND streams a sequence's pages on one stack and writes running triples or final rows for up to 16 query rows. -/
  | attend (ls fn k : Nat)
  /-- MERGE (R160): MERGE combines N blocks of triple records row by row into triples or final rows. -/
  | merge (ls fn k : Nat)
  /-- MEM_READ (R179): A read of stack sectors is decoded as clean, corrected, uncorrectable or poison, and uncorrectable sectors are rebuilt or poisoned. -/
  | memRead (ls off : Nat) (mask : BitVec 4) (decs : List Dec) (cls prio : Nat)
  /-- MEM_WRITE (R171): A write of stack sectors is performed, whole sectors directly and partial sectors by read, merge and write, clearing or keeping poison. -/
  | memWrite (ls off : Nat) (bytes : List Byte) (pois : BitVec 4) (dec : Dec) (cls prio : Nat)
  /-- CONTROLLER_ISSUE (R173): In each controller cycle each pseudo-channel issues the first request chosen by the priority list of R173. -/
  | controllerIssue (die pc : Nat)
  /-- FLOOR_WINDOW (R174): At each 1,024-cycle floor window boundary the per-class sector counts restart. -/
  | floorWindow (die : Nat)
  /-- QUEUE_LEVEL_BROADCAST (R175): Every 64 mesh cycles each stack broadcasts its queue level to the regulators. -/
  | queueLevelBroadcast (die : Nat)
  /-- REFRESH (R184): The per-bank refresh interval elapses and a refresh is queued, taking first place at its postponement limit. -/
  | refresh (die pc bank : Nat)
  /-- PATROL_SCRUB (R185): Patrol scrub reads the next sector of the stack in ascending order within its period. -/
  | patrolScrub (ls : Nat) (dec : Dec)
  /-- CE_WINDOW_END (R186): A corrected-error window ends, its count clears and its report re-arms. -/
  | ceWindowEnd (die : Nat)
  /-- MEM_CE_WINDOW_WRITE (R186): A write to MEM_CE_WINDOW ends the running window and starts a new one of the new length in the next cycle. -/
  | memCeWindowWrite (port : Port) (die : Nat) (val : BitVec 64)
  /-- PARITY_DELTA (R182): A parity member's SSU XORs an arriving write delta into the parity sector, or holds it during a rebuild. -/
  | parityDelta (ls n : Nat) (dec : Dec := .clean)
  /-- REBUILD (R182): A REBUILD request at the parity member sends stripe reads to the other data members. -/
  | rebuild (n : Nat)
  /-- STRIPE_READ (R182): A member answers a stripe read with its data sector in order behind its earlier deltas. -/
  | stripeRead (n : Nat) (dec : Dec)
  /-- STRIPE_REPLY (R182): A stripe reply arrives at the parity member, and when all are in the sector is formed, returned and held deltas applied. -/
  | stripeReply (n : Nat) (dec : Dec)
  /-- RD_SHARED (R195): The home grants a copy of a line, snooping an owner first when there is one. -/
  | rdShared (n : Nat)
  /-- RD_UNIQUE (R195): The home grants ownership of a line in E after invalidating other holders. -/
  | rdUnique (n : Nat)
  /-- UPGRADE (R195): The home grants ownership without data to a sharer, or treats it as RD_UNIQUE when the sender lost the line. -/
  | upgrade (n : Nat)
  /-- MARK_DIRTY (R192): The home ORs the sector mask into the entry's dirty mask and answers DIRTY_ACK, or DIRTY_STALE when the sender no longer owns the line. -/
  | markDirty (n : Nat)
  /-- WR_BACK (R195): The home writes dirty sectors to memory and answers WB_ACK. -/
  | wrBack (n : Nat)
  /-- EVICT_CLEAN (R195): The home frees an E entry when its owner drops a clean line. -/
  | evictClean (n : Nat)
  /-- RD_NC (R195): The home serves a non-coherent read after snooping any owner for dirty sectors. -/
  | rdNc (n : Nat)
  /-- WR_NC (R195): The home invalidates holders, merges the write into memory and pushes a clean copy when hinted. -/
  | wrNc (n : Nat)
  /-- SNP_SHARED (R194): An agent keeps a clean copy and returns dirty sectors in ACK_DATA, or answers ACK. -/
  | snpShared (n : Nat)
  /-- SNP_INV (R194): An agent drops the line and answers ACK or ACK_DATA, abandoning any pending store. -/
  | snpInv (n : Nat)
  /-- PUSH (R200): A target cache accepts a clean pushed line into an allotted free way or declines it. -/
  | push (n : Nat)
  /-- GRANT_S (R194): An agent receiving GRANT_S takes the line in S with the carried sectors and poison bits. -/
  | grantS (n : Nat)
  /-- GRANT_E (R194): An agent receiving GRANT_E takes the line in E and continues a pending store with MARK_DIRTY. -/
  | grantE (n : Nat)
  /-- ACK (R195): The home records a snoop answered without data and continues the transaction. -/
  | ack (n : Nat)
  /-- ACK_DATA (R195): The home writes returned dirty sectors to memory and to the requester and continues the transaction. -/
  | ackData (n : Nat)
  /-- DIRTY_ACK (R192): An agent receiving DIRTY_ACK performs the pending store. -/
  | dirtyAck (n : Nat)
  /-- DIRTY_STALE (R195): An agent receiving DIRTY_STALE learns it no longer owns the line and restarts the store. -/
  | dirtyStale (n : Nat)
  /-- WB_ACK (R194): An agent receiving WB_ACK releases the sectors held in its write-back buffer. -/
  | wbAck (n : Nat)
  /-- PUSH_ACK (R195): The home records the push target as owner in E. -/
  | pushAck (n : Nat)
  /-- PUSH_DECLINE (R200): The home leaves a declined pushed line in I with the write complete. -/
  | pushDecline (n : Nat)
  /-- RECOVER_DONE (R207): A new home records that a live die's recovery write-backs are finished and answers RECOVER_ACK, releasing coherent requests once every die has sent one. -/
  | recoverDone (n : Nat)
  /-- RECOVER_ACK (R207): A die receives acknowledgement that its RECOVER_DONE was recorded. -/
  | recoverAck (n : Nat)
  /-- SNOOP_LIMIT_MISS (R198): An agent that misses its snoop limit is reported as a die fault, or its graft site is fenced, and it is reclaimed. -/
  | snoopLimitMiss (die : Nat)
  /-- AGENT_DEATH (R206): The Curator's death broadcast makes each home complete snoops of the dead die, discard its requests and walk the directory poisoning its dirty lines. -/
  | agentDeath (die : Nat)
  /-- TIL_RLC_FLUSH (R205): A write to TIL_RLC_FLUSH writes back and invalidates every line of the remote-line cache, ignored while a vitrine is active. -/
  | tilRlcFlush (port : Port) (die : Nat) (val : BitVec 64)
  /-- HUB_SC_FLUSH (R205): A write to HUB_SC_FLUSH writes back and invalidates every line of the system cache, ignored while a vitrine is active. -/
  | hubScFlush (port : Port) (val : BitVec 64)
  /-- PAGE_IN (R216): PAGE_IN starts copying a host page into a landing slot, or is refused with PAGE_CMD_INVALID. -/
  | pageIn (fn : Nat) (val : BitVec 64)
  /-- PAGE_IN_DONE (R216): When a page-in copy completes the page becomes resident and clean and every waiting access of its fault record is released. -/
  | pageInDone (fn slot : Nat)
  /-- PAGE_OUT (R216): PAGE_OUT blocks new accesses, waits for accesses in progress, snoops out the slot's lines and writes it back when dirty or forced. -/
  | pageOut (fn : Nat) (val : BitVec 64)
  /-- PAGE_OUT_DONE (R216): When a page-out ends the slot is free and PAGE_OUT_DONE is posted. -/
  | pageOutDone (fn slot : Nat)
  /-- PAGE_FAIL (R216): PAGE_FAIL completes every access of a page's fault record with PAGE_FAILED and frees the record. -/
  | pageFail (fn : Nat) (val : BitVec 64)
  /-- FAULT_TIMEOUT (R218): A fault record pending for CMP_FAULT_LIMIT completes its accesses with FAULT_TIMEOUT and frees itself. -/
  | faultTimeout (fn index age : Nat)
  /-- HUB_UNMAP_REQ (R221): A PF or management write to HUB_UNMAP_REQ starts the withdrawal of a compartment's segment entry. -/
  | hubUnmapReq (port : Port) (val : BitVec 64)
  /-- WITHDRAWN (R221): When every transfer through a withdrawn entry is performed, caches and ranges of a vitrine are cleaned and the withdrawal completes with WITHDRAWN. -/
  | withdrawn (fn seg : Nat)
  /-- ROUTER_ARRIVAL (R228): A packet arrives at a router input, its header check is corrected or the packet dropped, and misaddressed packets go to the Curator. -/
  | routerArrival (n flips : Nat)
  /-- OUTPUT_ARBITRATION (R229): Each router output grants one packet per mesh cycle by age, priority and round-robin, on adaptive or escape channels. -/
  | outputArbitration (die out : Nat)
  /-- AGE_TICK (R229): A packet's AGE rises by one for every 64 mesh cycles it waits at one router input. -/
  | ageTick (die vc index : Nat)
  /-- PACKET_DELIVERY (R227): The destination verifies each payload sector's end-to-end check, repeating failed reads once and taking other failed sectors as poisoned. -/
  | packetDelivery (die n : Nat) (bad : List Bool)
  /-- SWITCH (R232): A router receiving a SWITCH control packet installs the named detour set or returns to the base set. -/
  | switch (die set : Nat)
  /-- FLIT_CRC_FAIL (R235): A flit that fails its CRC is replayed from the transmitter and counted in the link's window. -/
  | flitCrcFail (die link : Nat)
  /-- CRC_WINDOW (R235): A link's 1 ms CRC window ends and its failure count restarts. -/
  | crcWindow (die link : Nat)
  /-- LINK_RESET_EXIT (R239): When either end of a DOWN link leaves reset, both directions train and lanes are repaired. -/
  | linkResetExit (die link : Nat)
  /-- LINK_TRAINING_END (R239): A training or retrain attempt ends and the link goes UP, DEGRADED, QUARANTINED for another retrain, or FENCED per Table 10.5. -/
  | linkTrainingEnd (die link offered peer : Nat) (spares : BitVec 32) (rate : Nat)
  /-- MSH_LINK_RETRAIN (R239): A write to MSH_LINK_RETRAIN quarantines and retrains an UP or DEGRADED link. -/
  | mshLinkRetrain (port : Port) (die link : Nat) (val : BitVec 64)
  /-- REGULATOR_ISSUE (R247): In each cycle a master's regulator chooses one waiting transaction that may issue under its class allowances, budgets and pool cap. -/
  | regulatorIssue (die m : Nat)
  /-- REGULATOR_WINDOW (R250): At a regulator window boundary every budget is replenished to its full value before arbitration. -/
  | regulatorWindow (die m : Nat)
  /-- BED_LOAD_CMD (R268): A PF write to BED_LOAD_CMD starts the check of the image staged in BED_STAGE. -/
  | bedLoadCmd (port : Port) (val : BitVec 64)
  /-- BED_LOAD (R268): The management BED_LOAD frame places an image in the staging buffer and starts its check. -/
  | bedLoad (session : Nat) (persist : Bool) (image : List Byte)
  /-- BED_CHECK_COMPLETE (R270): The check of a bed plan image ends, refusing it at the first failing step or accepting it to take effect. -/
  | bedCheckComplete
  /-- BED_ACCEPTED (R275): Once every fallow wipe of a run-time full plan ends, the new values are installed in every LCK register and BED_ACCEPTED is posted. -/
  | bedAccepted
  /-- EPOCH_QUIESCE (R276): When no descriptor or command of any affected compartment runs, the epoch withdraws changed segments and fallows deleted compartments. -/
  | epochQuiesce
  /-- BED_EPOCH_TIMEOUT (R276): When affected compartments do not quiesce within BED_EPOCH_LIMIT, the amendment is abandoned with nothing changed. -/
  | bedEpochTimeout
  /-- EPOCH (R276): A unit receiving an EPOCH control packet installs its new table values and answers. -/
  | epoch (die : Nat)
  /-- EPOCH_DONE (R276): When every unit has answered, affected compartments resume, BED_EPOCH rises, BED_HASH is chained and EPOCH_DONE is posted. -/
  | epochDone
  /-- CMP_FALLOW_REQ (R282): A PF write to CMP_FALLOW_REQ puts the named compartment fallow. -/
  | cmpFallowReq (port : Port) (val : BitVec 64)
  /-- FALLOW (R282): The management FALLOW frame puts the named compartment fallow. -/
  | fallow (session fn : Nat)
  /-- FALLOW_DRAINED (R283): When the cancelled compartment's issued transfers are performed, its cache lines are written back and invalidated. -/
  | fallowDrained (fn : Nat)
  /-- FALLOW_CACHES_CLEAN (R283): When the compartment's lines are invalidated, the class 0 wipe of its ranges and SRAMs starts. -/
  | fallowCachesClean (fn : Nat)
  /-- FALLOW_DONE (R283): When the wipe ends, every resource returns to empty, cores are reset, FALLOW_DONE is posted and the state becomes READY or UNDEFINED. -/
  | fallowDone (fn : Nat)
  /-- FLR (R282): A function-level reset of VF n puts compartment n fallow. -/
  | flr (fn : Nat)
  /-- PF_FLR (R280): A function-level reset of the PF resets the PF's rings and RW BAR0 registers only. -/
  | pfFlr
  /-- VF_ENABLE_CLEAR (R292): Clearing VF Enable in the SR-IOV capability puts every READY compartment fallow. -/
  | vfEnableClear
  /-- MSIX_UNMASK (R281): Unmasking a vector, lifting Function Mask or setting MSI-X Enable sends the messages whose pending bits are set. -/
  | msixUnmask (fn kind vector : Nat)
  /-- HOST_MEM_READ (R295): A host read TLP into BAR2 is translated through its window and served, or refused with Unsupported Request. -/
  | hostMemRead (fn off len : Nat) (t : Bool) (late : Nat)
  /-- HOST_MEM_WRITE (R295): A host write TLP into BAR2 is translated through its window and performed, or dropped when refused. -/
  | hostMemWrite (fn off : Nat) (bytes : List Byte) (ep t : Bool) (late : Nat)
  /-- BAR2_WINDOW_WRITE (R294): A write to a VF or PF BAR2 window entry changes the mapping for TLPs arriving after it completes. -/
  | bar2WindowWrite (fn w : Nat) (val : BitVec 64)
  /-- HOST_COMPLETION (R301): A completion for a device-issued host read delivers its data, poisoned when EP = 1, or reports UR or CA. -/
  | hostCompletion (fn tag status : Nat) (data : List Byte) (ep : Bool)
  /-- COMPLETION_TIMEOUT (R300): A device-issued host read with no completion within the timeout ends its PAGE_IN or disables its ring and is logged. -/
  | completionTimeout (tag age : Nat)
  /-- SURPRISE_DOWN (R427): A host link down not signalled as Hot Reset or Disable Link is reported as Surprise Down and the endpoint retrains. -/
  | surpriseDown
  /-- IDE_CHECK_FAILED (R359): A TLP failing its IDE check is discarded, its stream becomes Insecure and every bound TDI enters ERROR. -/
  | ideCheckFailed (stream : Nat)
  /-- DRIVE_INSERTION (R304): After a reset or a hot insertion the Curator trains, identifies and initialises a drive and posts DRIVE_READY. -/
  | driveInsertion (d rate width : Nat) (good : Bool) (ns : List NsInfo)
  /-- DRIVE_DMA_REQUEST (R305): A drive's bus-master request is served in its staging or queue memory, or refused and the drive fenced with DRIVE_LOST. -/
  | driveDmaRequest (d : Nat) (write : Bool) (addr : Nat) (bytes : List Byte) (len : Nat)
  /-- DRIVE_REMOVAL (R312): A removed drive ends its running descriptors with DRIVE_DOWN and DRIVE_LOST is posted. -/
  | driveRemoval (d : Nat)
  /-- STO_NS_WRITE (R306): A write to STO_NS grants a compartment a namespace handle, stored invalid when it would duplicate a handle. -/
  | stoNsWrite (port : Port) (k : Nat) (val : BitVec 64)
  /-- STORAGE_READ (R311): A STORAGE READ fetches tag records and sealed blocks, decrypts and verifies each and writes verified plaintext in ascending order. -/
  | storageRead (fn k index : Nat)
  /-- STORAGE_WRITE (R311): A STORAGE WRITE encrypts plaintext from HBM and writes data blocks and tag records to the drive. -/
  | storageWrite (fn k index : Nat)
  /-- STORAGE_FLUSH (R309): A STORAGE FLUSH issues an NVMe Flush to the namespace. -/
  | storageFlush (fn k index : Nat)
  /-- NVME_COMPLETION (R312): An NVMe completion advances its STORAGE descriptor, or ends it with DRIVE_ERROR on error status. -/
  | nvmeCompletion (n status : Nat) (data tags : List Byte) (late : Nat)
  /-- NVME_TIMEOUT (R312): An NVMe command not completed within STO_CMD_TIMEOUT is aborted and its descriptor ends with DRIVE_TIMEOUT. -/
  | nvmeTimeout (n age : Nat)
  /-- PORT_ENABLE (R319): A fabric port enabled under R314 starts training. -/
  | portEnable (p : Nat)
  /-- PORT_DISABLE (R319): A port no longer enabled under R314 drops its link and goes DISABLED. -/
  | portDisable (p : Nat)
  /-- LANES_LOCKED (R319): When a port's lanes lock, the ends exchange versions and evidence and attest. -/
  | lanesLocked (p rate : Nat) (nbr : BitVec 16) (nbrPort version : Nat)
  /-- TRAINING_LOCK_TIMEOUT (R319): A port with no lock within 500 ms restarts training after 1 s. -/
  | trainingLockTimeout (p : Nat)
  /-- ATTEST_RESULT (R318): Attestation of a neighbour ends in keying the link and UP, or REFUSED with FAB_VERSION or FAB_ATTEST_FAILED. -/
  | attestResult (p : Nat) (ok : Bool) (version : Nat)
  /-- REFUSED_RETRY (R319): A REFUSED port trains again after 10 s. -/
  | refusedRetry (p : Nat)
  /-- FAB_PORT_RETRAIN (R319): A write to FAB_PORT_RETRAIN restarts training of a port not DISABLED. -/
  | fabPortRetrain (port : Port) (p : Nat) (val : BitVec 64)
  /-- PORT_LINK_LOSS (R337): A port losing lock, reaching the tag threshold or replaying one flit 8 times goes DOWN, reroutes and floods a report. -/
  | portLinkLoss (p : Nat)
  /-- LINK_FLIT (R316): A received link flit is accepted in sequence, or discarded with NAK so the sender replays. -/
  | linkFlit (p : Nat) (seq : BitVec 24) (ok tag : Bool) (ack : BitVec 24) (nak : Bool)
  /-- LINK_KEY_ROLLOVER (R317): After 2^32 flits or 1 hour the link keys are replaced by a fresh exchange marked by KEY_PHASE. -/
  | linkKeyRollover (p : Nat)
  /-- TAG_WINDOW (R317): A link's 1 ms tag-failure window ends and its count restarts. -/
  | tagWindow (p : Nat)
  /-- ADJ (R320): An arriving adjacency report newer than the one held is stored and forwarded on every other UP port. -/
  | adj (p : Nat) (report : AdjReport)
  /-- ADJ_FLOOD_TIMER (R320): Once per second a device floods its adjacency report on every UP port. -/
  | adjFloodTimer
  /-- ADJ_REPORT_EXPIRY (R320): A report not refreshed within 3.5 s is dropped from the domain. -/
  | adjReportExpiry (id : BitVec 16)
  /-- ROUTE_RECOMPUTE (R322): After a change in reports a device recomputes adaptive and escape routes and the domain floor. -/
  | routeRecompute
  /-- ROUTE_TRANSITION_END (R323): A route transition ends 1 ms after every member's routes are recomputed. -/
  | routeTransitionEnd
  /-- FABRIC_TRANSIT (R323): A packet crossing a device is carried from ingress to egress port after a buffer is reserved, or dropped at 24 hops. -/
  | fabricTransit (p : Nat) (pkt : FabPkt)
  /-- TRANSIT_WAIT_EXPIRY (R323): A packet that waits 10 µs at one device during a route transition is dropped. -/
  | transitWaitExpiry (p n : Nat)
  /-- GET (R328): A remote GET is checked against its grant and its data read and returned. -/
  | get (p : Nat) (pkt : FabPkt) (late : Nat)
  /-- PUT (R328): A remote PUT is checked against its grant and written, poisoning marked sectors. -/
  | put (p : Nat) (pkt : FabPkt) (late : Nat)
  /-- REMOTE_POST (R330): A remote POST is checked as a post of the grant's compartment and applied exactly once after earlier operations of its connection. -/
  | remotePost (p : Nat) (pkt : FabPkt)
  /-- CONTRIB (R331): The packets of a remote CONTRIB are gathered and handed to the SSU as one tagged contribution. -/
  | contrib (p : Nat) (pkt : FabPkt)
  /-- BATCH (R327): A BATCH performs up to eight remote posts to one destination. -/
  | batch (p : Nat) (pkt : FabPkt)
  /-- TACK (R325): A transport acknowledgement releases acknowledged packets from retransmission. -/
  | tack (peer : Nat) (cum seq : BitVec 32)
  /-- REMOTE_RESPONSE (R329): A response reports a remote operation performed, and the issuing command completes once it has every response. -/
  | remoteResponse (peer : Nat) (pkt : FabPkt)
  /-- TRANSPORT_RETRANSMIT (R325): An unacknowledged packet is retransmitted after its interval, which doubles up to 1 ms. -/
  | transportRetransmit (peer : Nat) (seq : BitVec 32) (age : Nat)
  /-- DELIVERY_TIMEOUT (R325): An operation with no response within FAB_DELIVERY_LIMIT completes with FABRIC_UNREACHABLE, and a stalled remote contribution is abandoned. -/
  | deliveryTimeout (peer : Nat) (seq : BitVec 32) (age : Nat)
  /-- REMOTE_MARK_EXPIRY (R330): Post marks of a remote sender are discarded 1 s after its latest post. -/
  | remoteMarkExpiry (peer rank : Nat)
  /-- VERSION_DOWNGRADE (R335): A device whose fabric version falls floods the lower version and serves the higher one for 2 × FAB_DELIVERY_LIMIT before switching. -/
  | versionDowngrade (version : BitVec 16)
  /-- ACCESSION (R340): Accession discovers, negotiates, identifies and attests a graft chiplet against its GRAFT record and admits it or fences the site. -/
  | accession (site step : Nat) (info : ChipInfo)
  /-- ACCESSION_TIMEOUT (R341): A site not admitted within 600 ms of reset release is fenced with TIMEOUT. -/
  | accessionTimeout (site : Nat)
  /-- GATE_OFFER (R344): A sampled GATE_VALID offer is accepted when the class is admitted and the regulator may issue, opening a grant of G slots. -/
  | gateOffer (site cls urg gap : Nat)
  /-- SLOT_RETURN (R345): A grant slot unused 512 gate cycles after its grant is returned. -/
  | slotReturn (site n : Nat)
  /-- GATE_PACKET (R347): A packet from a chiplet uses a grant slot and is translated through its site window, or is refused, dropped or fences the site. -/
  | gatePacket (site : Nat) (pkt : ChipPkt) (late : Nat)
  /-- SITE_WINDOW_REQUEST (R350): A request to a site window is queued at the gate, or completes at once with GRAFT_BUSY or GRAFT_FENCED. -/
  | siteWindowRequest (site : Nat) (write : Bool) (addr len : Nat) (data : List Byte) (host : Bool)
  /-- CHIPLET_ANSWER (R350): A chiplet's answer to a site-window request completes it, or is discarded after a timeout. -/
  | chipletAnswer (site id : Nat) (data : List Byte) (ok : Bool)
  /-- GRAFT_TIMEOUT (R350): A site-window request unanswered within GFT_TGT_TIMEOUT completes with GRAFT_TIMEOUT and poisoned read data. -/
  | graftTimeout (site id age : Nat)
  /-- SINK_LIMIT_MISS (R351): A chiplet that fails to return credit within SINK_LIMIT is fenced. -/
  | sinkLimitMiss (site : Nat)
  /-- GFT_SITE_RESET (R352): A write to GFT_SITE_RESET flushes, drains, reclaims, resets the chiplet and reruns accession. -/
  | gftSiteReset (port : Port) (site : Nat) (val : BitVec 64)
  /-- SITE_RESET_TIMER (R352): The 100 µs evict and drain allowances of a site reset expire and the reset proceeds. -/
  | siteResetTimer (site : Nat)
  /-- GFT_WIN_WRITE (R349): A write to a site window entry changes it for later grants, stored invalid when it names a vitrine. -/
  | gftWinWrite (port : Port) (site w : Nat) (hi : Bool) (val : BitVec 64)
  /-- GRAFT_POWER_WINDOW (R353): At the end of each 1 ms window a site over POWER is throttled and ten such windows fence it. -/
  | graftPowerWindow (site power : Nat)
  /-- GRAFT_THERMAL (R353): A site sensor reading above 105 °C fences the site with THERMAL. -/
  | graftThermal (site temp : Nat)
  /-- GET_VERSION (R357): The SPDM responder answers GET_VERSION. -/
  | getVersion (mgmt : Bool)
  /-- GET_CAPABILITIES (R357): The SPDM responder answers GET_CAPABILITIES. -/
  | getCapabilities (mgmt : Bool)
  /-- NEGOTIATE_ALGORITHMS (R357): The SPDM responder negotiates the Ed25519, ML-DSA-65 and hybrid algorithms or refuses. -/
  | negotiateAlgorithms (mgmt : Bool) (algs : BitVec 32)
  /-- GET_DIGESTS (R357): The SPDM responder returns the digest of certificate slot 0. -/
  | getDigests (mgmt : Bool)
  /-- GET_CERTIFICATE (R357): The SPDM responder returns both issues of the Alias chain. -/
  | getCertificate (mgmt : Bool) (slot off len : Nat)
  /-- CHALLENGE (R357): The SPDM responder signs a challenge with the Alias pair. -/
  | challenge (mgmt : Bool) (slot : Nat) (nonce : List Byte)
  /-- GET_MEASUREMENTS (R358): The SPDM responder returns the requested measurement digests, signed over the nonce. -/
  | getMeasurements (mgmt : Bool) (index : Nat) (nonce : List Byte)
  /-- KEY_EXCHANGE (R357): The SPDM responder starts a secured session by hybrid key exchange. -/
  | keyExchange (mgmt : Bool) (req : List Byte)
  /-- FINISH (R357): The SPDM responder completes a secured session handshake. -/
  | finish (mgmt : Bool) (session : Nat) (ok : Bool)
  /-- HEARTBEAT (R357): The SPDM responder answers a session heartbeat. -/
  | heartbeat (session : Nat)
  /-- KEY_UPDATE (R357): The SPDM responder updates a session's keys. -/
  | keyUpdate (session : Nat)
  /-- END_SESSION (R357): The SPDM responder ends a secured session. -/
  | endSession (session : Nat)
  /-- CHUNK_SEND (R357): The SPDM responder accepts one chunk of a large request. -/
  | chunkSend (mgmt last : Bool) (data : List Byte)
  /-- CHUNK_GET (R357): The SPDM responder returns one chunk of a large response. -/
  | chunkGet (mgmt : Bool) (len : Nat)
  /-- IDE_KM (R359): IDE_KM messages over an SPDM session program the keys of an IDE stream. -/
  | ideKm (session stream : Nat)
  /-- KEY_RELEASE (R363): A signed KEY_RELEASE is checked and loads a key and salt into an empty vault slot, activating a vitrine on its first event. -/
  | keyRelease (session : Nat) (msg : List Byte)
  /-- KEY_ERASE (R363): A signed KEY_ERASE empties a slot that the same releaser loaded. -/
  | keyErase (session : Nat) (msg : List Byte)
  /-- APPROVE (R365): A party's signed APPROVE records its recipient for the round, and a completed quorum loads a release key into the joint's slot 7. -/
  | approve (session : Nat) (msg : List Byte)
  /-- APPROVE_WITHDRAW (R365): A party's signed APPROVE_WITHDRAW deletes its approval of the round. -/
  | approveWithdraw (session : Nat) (msg : List Byte)
  /-- RELEASE_FETCH (R366): RELEASE_FETCH returns the latest release key wrapped to the round's recipient. -/
  | releaseFetch (session : Nat) (msg : List Byte)
  /-- GET_TDISP_VERSION (R360): A TDI answers GET_TDISP_VERSION. -/
  | getTdispVersion (session fn : Nat)
  /-- GET_TDISP_CAPABILITIES (R360): A TDI answers GET_TDISP_CAPABILITIES. -/
  | getTdispCapabilities (session fn : Nat)
  /-- LOCK_INTERFACE_REQUEST (R360): LOCK_INTERFACE_REQUEST freezes the locked registers, binds the stream and activates the vitrine, entering CONFIG_LOCKED. -/
  | lockInterfaceRequest (session fn stream : Nat)
  /-- START_INTERFACE_REQUEST (R361): START_INTERFACE_REQUEST with the nonce puts the TDI in RUN, accepting T = 1 traffic. -/
  | startInterfaceRequest (session fn : Nat) (nonce : BitVec 256)
  /-- STOP_INTERFACE_REQUEST (R360): STOP_INTERFACE_REQUEST puts the compartment fallow and returns the TDI to CONFIG_UNLOCKED. -/
  | stopInterfaceRequest (session fn : Nat)
  /-- LOCKED_REGISTER_WRITE (R360): A write to a locked register of a locked TDI other than with T = 1 in RUN puts the compartment fallow and the TDI in ERROR. -/
  | lockedRegisterWrite (fn off : Nat) (val : BitVec 64) (t : Bool)
  /-- TLS_HANDSHAKE (R372): A TLS 1.3 handshake on the management port is refused while unclaimed and otherwise authenticated against the owner anchor. -/
  | tlsHandshake (ok : Bool) (root : BitVec 384)
  /-- BIND (R372): A BIND frame's signature over the exporter value is verified before any other frame is accepted. -/
  | bind (session : Nat) (ok : Bool)
  /-- SESSION_IDLE_TIMEOUT (R372): A management session with no frame for 600 s is closed. -/
  | sessionIdleTimeout (session : Nat)
  /-- REG_READ (R373): REG_READ returns 1–512 words of registers reachable from the management port. -/
  | regRead (session die off count : Nat)
  /-- REG_WRITE (R373): REG_WRITE writes one register reachable from the management port under its access code. -/
  | regWrite (session die off : Nat) (val : BitVec 64)
  /-- OWNER_CLAIM (R371): A PF write of GO to CUR_OWNER_CLAIM_GO installs the offered owner anchor, or posts OWNER_CLAIMED when one is installed. -/
  | ownerClaim (port : Port) (val : BitVec 64)
  /-- OWNER_SET_ANCHOR (R374): OWNER_SET item 1 replaces the owner anchor and ends sessions under the old one. -/
  | ownerSetAnchor (session : Nat) (anchor : BitVec 384)
  /-- OWNER_SET_OPERATOR_KEY (R374): OWNER_SET item 2 installs or erases an operator verification key pair. -/
  | ownerSetOperatorKey (session slot : Nat) (keys : List Byte)
  /-- OWNER_SET_UPDATE_LOCK (R374): OWNER_SET item 3 sets or clears the owner update lock. -/
  | ownerSetUpdateLock (session val : Nat)
  /-- OWNER_SET_EH1608_PATH (R374): OWNER_SET item 4 sets or clears EH1608_PATH. -/
  | ownerSetEh1608Path (session val : Nat)
  /-- LC_REQUEST (R377): A life-cycle request is checked and, when accepted, answers DONE and starts the transition. -/
  | lcRequest (port : Port) (session : Nat) (val : BitVec 32) (supply : Bool)
  /-- LC_STEP_DONE (R378): A step of a life-cycle transition finishes its fuse programming, wipe or erase and the next step starts, ending in a boot in the new state. -/
  | lcStepDone
  /-- DEBUG_CHALLENGE (R381): DEBUG_CHALLENGE returns a challenge record with a fresh nonce. -/
  | debugChallenge (session : Nat) (scope : BitVec 8)
  /-- DEBUG_NONCE_EXPIRY (R381): A debug challenge nonce expires 600 s after issue. -/
  | debugNonceExpiry
  /-- DEBUG_GRANT (R381): DEBUG_GRANT is verified against the current nonce and the debug authority keys and, when accepted, fallows every compartment. -/
  | debugGrant (session : Nat) (grant : List Byte)
  /-- DEBUG_GRANTED (R382): When every fallow of an accepted grant has ended, the scoped JTAG instructions open and DEBUG_GRANTED is posted. -/
  | debugGranted
  /-- JTAG_INSTRUCTION (R380): A JTAG instruction is performed when the life-cycle state or a grant allows it and refused with DEBUG_CLOSED otherwise. -/
  | jtagInstruction (op : JtagOp) (data : List Byte)
  /-- EH1608_UNLOCK (R384): EH1608_UNLOCK erases owner data and the key vault after fallowing every compartment and opens full debug. -/
  | eh1608Unlock
  /-- BEGIN (R390): UPDATE BEGIN runs the state checks, erases the inactive slot and starts staging. -/
  | updBegin (session total : Nat) (supply : Bool)
  /-- DATA (R389): UPDATE DATA appends bundle bytes and checks each completed block against the manifest. -/
  | updData (session off : Nat) (data : List Byte)
  /-- END (R389): UPDATE END checks the whole bundle and marks the slot STAGED. -/
  | updEnd (session : Nat)
  /-- ACTIVATE (R393): UPDATE ACTIVATE rechecks state and boots the standby Curator from the staged slot. -/
  | activate (session : Nat) (supply : Bool)
  /-- STANDBY_BOOT_DONE (R393): When the standby has booted the staged image, state is handed over, roles swap and the trial begins with UPD_ACTIVATED. -/
  | standbyBootDone
  /-- HEALTH_OK (R395): When every unit reports its new versions and self-checks pass, HEALTH_OK is set. -/
  | healthOk
  /-- HEALTH_CHECK_FAIL (R396): A failed health check during a trial falls back to the previous image. -/
  | healthCheckFail
  /-- CONFIRM (R395): UPDATE CONFIRM with HEALTH_OK makes the trial slot CONFIRMED and raises UPD_ROLLBACK. -/
  | confirm (session : Nat)
  /-- ABORT (R396): UPDATE ABORT discards a staged slot or falls back from a trial. -/
  | abort (session : Nat)
  /-- STATUS (R388): UPDATE STATUS returns UPD_STATUS and both slot registers. -/
  | status (session : Nat)
  /-- CONFIRM_WINDOW_EXPIRY (R396): When UPD_CONFIRM_WINDOW elapses in a trial, the device falls back with cause 1. -/
  | confirmWindowExpiry
  /-- UPD_MBOX_CMD (R398): In ROM recovery a write to UPD_MBOX_CMD accepts a bundle chunk and, on the last, checks and writes it to slot 0. -/
  | updMboxCmd (port : Port) (val : BitVec 64)
  /-- CORE_ERROR (R404): A detected core error stops and resets the core and replays the rank's launch on it, or becomes a tile fault on a repeat. -/
  | coreError (die core unit : Nat) (again : Bool)
  /-- TILE_FAULT (R405): A tile fault fences the tile and promotes the nearest usable reserve, or runs degraded when none is usable. -/
  | tileFault (die : Nat) (reason : BitVec 8) (bad : List Nat)
  /-- HANDOVER_DONE (R142): When the reserve SSU has loaded the state store, it serves the stack, resumes interrupted commands and launches are replayed. -/
  | handoverDone (ls : Nat)
  /-- RECOVERY_DONE (R407): When the promotion copy or rebuild ends, the old island is powered off, EXPOSED clears and RECOVERY_DONE is posted. -/
  | recoveryDone (ls : Nat)
  /-- TXN_TIMEOUT (R410): A transaction toward a lost island with no response for CUR_TXN_TIMEOUT completes with TXN_LOST. -/
  | txnTimeout (die : Nat)
  /-- HEARTBEAT_MISS (R411): After three missed heartbeats the standby Curator takes over and posts CURATOR_TAKEOVER. -/
  | heartbeatMiss
  /-- LOCKSTEP_ERROR (R411): A lockstep error of the active Curator makes the standby take over at once. -/
  | lockstepError
  /-- STANDBY_RESTORED (R411): A failed Curator that passes its test returns as standby and STANDBY_LOST clears. -/
  | standbyRestored
  /-- CUR_REPLACE_CLEAR (R413): A W1C write to CUR_REPLACE clears cause bits whose causes no longer hold. -/
  | curReplaceClear (port : Port) (val : BitVec 64)
  /-- CUR_BIST_CMD (R416): A write to CUR_BIST_CMD starts logic or memory BIST on one testable die, or is refused. -/
  | curBistCmd (port : Port) (val : BitVec 64)
  /-- BIST_DONE (R417): When BIST ends its pass bits and results are set, failing tiles are fenced and BIST_DONE is posted. -/
  | bistDone (results : List Nat)
  /-- CUR_ROTATE (R419): A write to CUR_ROTATE moves an active tile's stack and ranks to a reserve, tests the tile and moves them back if it passes. -/
  | curRotate (port : Port) (val : BitVec 64)
  /-- PWR_OK_RISE (R429): PWR_OK rising starts a cold reset and the boot sequence. -/
  | pwrOkRise (a b : Bool) (strap : BitVec 2)
  /-- PERST_N (R427): PERST_N held low for at least 100 µs causes a warm reset. -/
  | perstN (a b : Bool)
  /-- HOT_RESET (R427): A Hot Reset or Disable Link received on the host link causes a warm reset. -/
  | hotReset (a b : Bool)
  /-- BOOT_STEP_DONE (R429): A boot step ends and the next starts, until the inventory is final and Retry Status ends. -/
  | bootStepDone (ms : Nat)
  /-- POWER_LOSS (R421): Loss of rails ends all volatile state, to be completed or wiped at the next power-up. -/
  | powerLoss
  /-- REFCLK_LOSS (R424): Loss of the selected reference switches to the other, writes REFCLK_LOST and posts REFCLK_SWITCHED. -/
  | refclkLoss (b : Bool)
  /-- REFCLK_GOOD_TIMER (R424): A lost reference good for 1 s ends the REFCLK_SINGLE cause. -/
  | refclkGoodTimer (b : Bool)
  /-- REST_ENTRY (R430): A tile with no activity for 100 µs enters rest with its cores clock-gated. -/
  | restEntry (die : Nat)
  /-- REST_EXIT (R430): A launch, command or contribution arriving at a resting tile brings it back to active. -/
  | restExit (die : Nat)
  /-- PWR_STATE_REQ_ENTER (R431): PWR_STATE_REQ ENTER puts the device in deep rest when its conditions hold, recording the reason otherwise. -/
  | pwrStateReqEnter (port : Port) (val : BitVec 64)
  /-- PWR_STATE_REQ_EXIT (R430): PWR_STATE_REQ EXIT starts the exit from deep rest. -/
  | pwrStateReqExit (port : Port) (val : BitVec 64)
  /-- PMCSR_WRITE (R430): A PF PMCSR write to D3hot enters deep rest or rest, and to D0 exits it. -/
  | pmcsrWrite (d3 : Bool)
  /-- DEEP_REST_EXIT_DONE (R430): The exit from deep rest completes and waiting requests are served. -/
  | deepRestExitDone
  /-- THROTTLE_WINDOW (R433): In each 1 ms window each tile steps its clock down or up by temperature and power limit, going below floor when still too hot. -/
  | throttleWindow (power hot : Nat) (temps drams : List Nat)
  /-- THERMAL_TRIP (R435): A junction at 115 °C or DRAM at 105 °C asserts THERM_N, stops every clock but always-on and records the trip. -/
  | thermalTrip
  /-- PWR_OK_FALL (R420): PWR_OK driven low by the board makes the device hold every output except THERM_N inactive and keep GFT_RESET_N asserted. -/
  | pwrOkFall
  /-- PERST_N_RISE (R440): PERST_N rising lets the ROM train the host link, within 20 ms, and marks the start of the warm boot timeline. -/
  | perstNRise
  /-- FABRIC_LINK_SEND (R324): A fabric link picks the next packet to send, responses first, then priority 2 and 3, then arrival order, with packets that have waited 64 µs going first, and sends it in a numbered flit kept in the retry buffer. -/
  | fabricLinkSend (p : Nat) (waits : List Nat)
  /-- DEEP_REST_ENTERED (R430): The entry into deep rest completes: tiles are gated to their memory islands, stacks are in self-refresh, fabric ports are in low power and the host link is in L1, and PWR_STATE moves from ENTERING to DEEP_REST. -/
  | deepRestEntered
  /-- MEM_CE_THRESH_WRITE (R186): A write to MEM_CE_THRESH applies at once to the count of the running window, reporting a crossing when the count already reaches the new threshold and the window has not yet reported. -/
  | memCeThreshWrite (port : Port) (die : Nat) (val : BitVec 64)
  deriving DecidableEq, Repr

end Sys2Proof
end

