-- ==== Sys2Proof/Config.lean ====
section
/-! DEFINITION. Values the spec leaves open, as constants without a body, and the published cryptographic functions the spec names, left uninterpreted. -/

namespace Sys2Proof.Config

/-- A fresh value the spec leaves open, by the draw's number (log 4): a true-random number, or an unstated value. -/
opaque free : Nat → Nat

/-- The state to which the true random number generator seeds a rounding lane, by the event, the unit and the lane (R41, log 4). -/
opaque rng : Nat → Nat → Nat → BitVec 64

/-- SHA-384 (log 6). -/
opaque sha384 : List Byte → BitVec 384

/-- Verification of a signature by a key pair named by its identity (R362; both issues must verify) (log 6). -/
opaque verify : BitVec 384 → List Byte → List Byte → Bool

/-- A signature by the device's key pair of the given layer (log 6). -/
opaque sign : BitVec 384 → List Byte → List Byte

/-- AES-256-GCM-SIV or AES-256-GCM sealing under key, nonce and associated data: ciphertext and tag (log 6). -/
opaque gcmSeal : BitVec 256 → List Byte → List Byte → List Byte → List Byte × List Byte

/-- Opening of a sealed message: the plaintext, or none when the tag does not verify (log 6). -/
opaque gcmOpen : BitVec 256 → List Byte → List Byte → List Byte → List Byte → Option (List Byte)

/-- The opening of a message sealed to the device's key-encapsulation key (log 6). -/
opaque unwrap : BitVec 384 → List Byte → Option (List Byte)

/-- Wrapping of a message to a public key (log 6). -/
opaque wrap : BitVec 384 → List Byte → List Byte

/-- The SEC-DED check of a mesh header over its bits [119:0]; the spec names no polynomial (R225, log 4). -/
opaque headerCheck : BitVec 120 → BitVec 8

/-- HKDF-SHA-384 of a key and a context (R356, log 6). -/
opaque hkdf : BitVec 384 → List Byte → BitVec 384

/-- Both issues of the Alias certificate, which the DeviceID pair of an identity seed signs for an Alias pair (R356, log 6). -/
opaque aliasCert : BitVec 384 → BitVec 384 → List Byte

/-- The built-in logic self-test signature the firmware holds, by die revision, block and pattern count (R417). -/
opaque bistSignature : Nat → Nat → Nat → BitVec 64

/-- The transcript hash of an SPDM session (R362). -/
opaque transcript : Nat → BitVec 384

/-- The identity public keys that follow from the identity seed (R320, R356, log 6). -/
opaque identityKeys : BitVec 384 → List Byte

/-- The identities of the Wortitex debug authority and firmware key pairs in the boot ROM (R381, R387, log 6). -/
opaque debugAuthority : BitVec 384
opaque firmwareKeys : BitVec 384

/-- The product key, in the key vault and readable from no port (R387, log 6). -/
opaque productKey : BitVec 256

/-- The compatibility matrix of the Curator firmware: for a hub revision and a die's type and revision, the errata settings, or none when the die is absent from it (R241, log 4). -/
opaque compat : Nat → Nat → Option (BitVec 64)

/-- The route set that the Curator derives for a pair of fenced elements from the plan's route record, which is its first operand: the base entries of each router; none when it derives none. The spec does not say how it is derived (R233, log 34). -/
opaque pairSet : List (Nat × List (Nat × BitVec 16)) → Nat → Nat → Option (List (Nat × Nat × BitVec 16))

/-- The digest of the boot ROM (Table 17.4). -/
opaque romDigest : BitVec 384

end Sys2Proof.Config
end

