-- ==== Sys2Proof/Machine/State.lean ====
section
/-! DEFINITION. The device's state as plain data: every register, queue, buffer and mode the spec names, the queue of waiting commands, and the outcomes that stop a command. -/

namespace Sys2Proof.Machine

/-- The faults that stop the machine. The spec gives the device no such stop: every failure it describes is a status code, an event or a refusal form with an effect on the state, so the type has no value. Safe: no run ends in a fault. -/
inductive Fault where
  deriving DecidableEq, Repr

/-- The refusals. -/
inductive Refusal where
  /-- Raised by `exec` for a command that has no meaning yet. Safe: the run stops. -/
  | notModelled (mnemonic : String)
  deriving DecidableEq, Repr

/-- Progress of a queued piece of work. -/
inductive Phase where
  | waiting
  | running
  | done
  deriving DecidableEq, Repr

/-- Compartment states (Table 13.2). -/
inductive CState where
  | undef
  | ready
  | fallow
  deriving DecidableEq, Repr

/-- TDI states (Table 17.5). -/
inductive Tdi where
  | unlocked
  | locked
  | run
  | error
  deriving DecidableEq, Repr

/-- Errors logged in AER and signalled to the host (R302). -/
inductive AerErr where
  | completionTimeout
  | unsupportedRequest
  | completerAbort
  | poisonedTlp
  | unexpectedCompletion
  | surpriseDown
  | ideCheckFailed
  | malformed
  | internal
  deriving DecidableEq, Repr

/-- The work that waits for the outcome of a contribution or of a remote operation. -/
inductive Origin where
  | none
  /-- entry `id` of queue `q` of a core -/
  | queue (die core q id : Nat)
  /-- the descriptor with serial number `id` of ring `k` of compartment `c` -/
  | desc (c k id : Nat)
  /-- the copies of rank `rank` of that descriptor's launch -/
  | rank (c k id rank : Nat)
  /-- command `id` in an SSU queue -/
  | ssu (ls id : Nat)
  /-- the remote operation `seq` of fabric peer `peer` -/
  | remote (peer seq : Nat)
  deriving DecidableEq, Repr

/-- Directory entry states (Table 8.3). -/
inductive DirSt where
  | i
  | s
  | e
  | m
  deriving DecidableEq, Repr

/-- Line states in a coherent agent (Table 8.4). -/
inductive LineSt where
  | i
  | s
  | e
  | m
  deriving DecidableEq, Repr

/-- Coherence messages (Table 8.2). -/
inductive CohKind where
  | rdShared | rdUnique | upgrade | markDirty | wrBack | evictClean | rdNc | wrNc
  | snpShared | snpInv | pushLine
  | grantS | grantE | ack | ackData | dirtyAck | dirtyStale | wbAck | pushAck | pushDecline
  | recoverDone | recoverAck
  deriving DecidableEq, Repr

/-- Die-to-die link states (Table 10.5). -/
inductive LinkSt where
  | down | training | up | degraded | quarantined | fenced
  deriving DecidableEq, Repr

/-- Fabric port states (Table 15.3). -/
inductive FabSt where
  | disabled | training | attesting | up | down | refused
  deriving DecidableEq, Repr

/-- Graft site states (Table 16.6). -/
inductive SiteSt where
  | empty | reset | accession | admitted | fenced
  deriving DecidableEq, Repr

/-- Drive states (Table 14.11). -/
inductive DriveSt where
  | absent | training | unsupported | init | ready | fenced
  deriving DecidableEq, Repr

/-- How far a bed plan image has come (R270, R275, R276). -/
inductive LoadStage where
  | checking | fallowing | quiescing | withdrawing | installing
  deriving DecidableEq, Repr

/-- UPD_STATUS.PHASE (Table 19.6). -/
inductive UpdPhase where
  | idle | staging | staged | swapping | trial | recovery
  deriving DecidableEq, Repr

/-- Firmware slot states (Table 19.6). -/
inductive SlotSt where
  | empty | staged | trial | confirmed | failed
  deriving DecidableEq, Repr

/-- PWR_STATE (Table 21.7). -/
inductive PwrState where
  | active | entering | deepRest | exiting
  deriving DecidableEq, Repr

/-- A unit that holds token counters (R63). -/
inductive CtrUnit where
  | core (die core : Nat)
  | ssu (ls : Nat)
  | disp
  deriving DecidableEq, Repr

/-- A message or write held during a load, an epoch or a trial (R354, R367, R392). -/
inductive Held where
  /-- an LC, KEY_RELEASE or LOCK message by the command that brings it -/
  | cmd (i : Instr)
  deriving DecidableEq, Repr

/-- What leaves the device (the model's own record of its outputs, log 8). -/
inductive Out where
  /-- a completion or event entry written to host memory at I/O virtual address `addr` for function `fn` -/
  | ringEntry (fn addr : Nat) (entry : BitVec 256) (t : Bool)
  /-- an MSI-X message; `t` is the T bit of the request (R361) -/
  | msix (fn vector : Nat) (addr : BitVec 64) (data : BitVec 32) (t : Bool)
  /-- a device-issued host read -/
  | hostRead (tag fn addr len : Nat) (t : Bool)
  /-- a device-issued host write; `ep` marks poisoned data and `ro` Relaxed Ordering -/
  | hostWrite (fn addr : Nat) (data : List Byte) (ep t ro : Bool)
  /-- a completion of a host read: `ok` is Successful Completion, otherwise Unsupported Request -/
  | completion (fn : Nat) (ok : Bool) (data : List Byte) (ep : Bool)
  /-- a management response or ALERT frame -/
  | frame (session op : Nat) (code : BitVec 16) (data : List Byte)
  /-- an SPDM response, on the management port or through DOE -/
  | spdm (mgmt : Bool) (ok : Bool) (data : List Byte)
  /-- data shifted out of the TAP and its status -/
  | jtag (status : BitVec 16) (data : List Byte)
  /-- the value a register read returns -/
  | read (p : Port) (off : Nat) (value : BitVec 64)
  /-- a data or control flit on a fabric link: HEADER, PAYLOAD and TAG (Table 15.2) -/
  | flit (port : Nat) (header : BitVec 64) (payload tag : List Byte)
  /-- the last accepted sequence returned in a header on a fabric link: 0 ACK, 1 NAK -/
  | linkCtl (port kind : Nat) (value : Nat)
  /-- an adjacency report on a fabric link -/
  | adj (port : Nat) (report : AdjReport)
  /-- a control packet on the mesh to a die: 0 EPOCH, 1 SWITCH, 2 death broadcast, 3 queue level -/
  | control (die kind value : Nat)
  /-- an answer or a request from a graft site's gate: 0 grant, 1 refusal, 2 data, 3 dropped, 4 request to the chiplet, 7 SnpData, 8 SnpInv, 9 Unsupported Request -/
  | gate (site kind value : Nat) (data : List Byte)
  /-- a line from a graft site's gate with the poison bits of its sectors: 1 refused read, 2 data, 5 GO-S, 6 GO-E -/
  | gateLine (site kind value : Nat) (data : List Byte) (pois : BitVec 4)
  /-- a command or an answer to a drive -/
  | drive (d kind lba len : Nat) (data : List Byte)
  /-- the completion of a request at a stack's memory controller (R168, R177, R179) -/
  | memEnd (ls off : Nat) (code : BitVec 16)
  /-- an error message to the host (R302) -/
  | error (fn : Nat) (e : AerErr)
  deriving DecidableEq, Repr


/-- A counter unit's high-water mark for one sender (R69). -/
structure Mark where
  /-- recorded launch number (03 R69) -/
  launch : Nat := 0
  /-- highest post index applied of that launch (03 R69) -/
  idx : Nat := 0
  deriving DecidableEq, Repr

/-- A bank of stochastic-rounding generators (R41): the seeding source and the lanes stepped since. -/
structure GenBank where
  /-- the RNG_SEED seed, or none when every lane was seeded from the true random number generator (02 R41) -/
  seeded : Option (BitVec 64) := none
  /-- the number of the event at which the true random number generator seeded the lanes, none for the last device reset (log 4) (02 R41) -/
  draw : Option Nat := none
  /-- the unit whose lanes these are, as the last use of the bank named it (the model's own, log 4) (02 R41) -/
  unit : Nat := 0
  /-- lanes stepped since the seeding, 64 bits each (02 R41) -/
  lanes : Tab (BitVec 64) := []
  deriving DecidableEq, Repr

/-- A segment entry, words 0 to 2 (Tables 9.1, 9.2). -/
structure Seg where
  /-- VALID, GEN, PERM, TYPE, LIMIT (09 R208) -/
  w0 : BitVec 64 := 0
  /-- word 1 (09 R208) -/
  w1 : BitVec 64 := 0
  /-- word 2 (09 R208) -/
  w2 : BitVec 64 := 0
  deriving DecidableEq, Repr

/-- A translated address field a descriptor keeps (R212). -/
structure XLat where
  /-- segment (09 R212) -/
  seg : Nat := 0
  /-- generation of the entry when translated (09 R212) -/
  gen : BitVec 8 := 0
  /-- offset in the segment (09 R212) -/
  off : Nat := 0
  /-- the entry translated through (09 R208) -/
  entry : Seg := {}
  deriving DecidableEq, Repr

/-- One command in a command queue of a core (R60, R88). -/
structure QEntry where
  /-- the four command words (03 R61) -/
  word : BitVec 256 := 0
  /-- waiting, running (issued) or done (04 R88) -/
  st : Phase := .waiting
  /-- outcome code (04 R87) -/
  code : BitVec 16 := 0
  /-- sticky status byte (02 R45) -/
  sticky : BitVec 8 := 0
  /-- the command makes its post when it leaves the queue (no post after a refusal at step 2) (04 R86) -/
  post : Bool := true
  /-- measured age of its wait, in microseconds (03 R71) -/
  age : Nat := 0
  /-- TOKEN_STALL already reported for its wait (03 R71) -/
  reported : Bool := false
  /-- serial number by which outcomes find the command (model's own, log 13) (model) -/
  id : Nat := 0
  /-- its wait was met by a value the counter has held since the command came first (03 R64) -/
  met : Bool := false
  /-- the mover has begun it: its checks have passed (04 R89) -/
  started : Bool := false
  /-- translations of the mover's operands at its start (09 R213) -/
  xlats : List XLat := []
  /-- contributions and remote operations whose outcome it awaits (05 R127) -/
  pend : Nat := 0
  /-- bytes or groups already performed, when the command stalled at a chunk (09 R215) -/
  prog : Nat := 0
  /-- its remote post has left (03 R68) -/
  posted : Bool := false
  deriving DecidableEq, Repr

/-- An engine operand slot (Table 4.1). -/
structure OpSlot where
  /-- core-store offset, in 32-byte units (04 Table 4.1) -/
  off : BitVec 18 := 0
  /-- vector pitch, in 32-byte units (04 Table 4.1) -/
  pitch : BitVec 18 := 0
  /-- format code, BF16 at reset (04 Table 4.1) -/
  fmt : BitVec 4 := 1#4
  /-- MX-scaled (04 Table 4.1) -/
  mx : Bool := false
  /-- scale slot named (04 Table 4.1) -/
  sslot : Nat := 0
  deriving DecidableEq, Repr

/-- An engine scale slot, 64 blocks of 64 E8M0 codes (Table 4.1). -/
structure ScaleSlot where
  /-- codes by 64 * block + position, 0x7F where none was loaded (04 R95) -/
  codes : Tab (BitVec 8) := []
  /-- block entries marked poisoned (04 R95) -/
  pois : List Nat := []
  deriving DecidableEq, Repr

/-- An accumulator bank of 64 x 64 elements (Table 4.1). -/
structure Bank where
  /-- kind: float or integer (04 R91) -/
  isInt : Bool := false
  /-- elements by 64 * row + column, 0 where none was written (04 Table 4.1) -/
  elems : Tab (BitVec 32) := []
  /-- poison flag (04 R105) -/
  poisoned : Bool := false
  deriving DecidableEq, Repr

/-- One matrix engine (Table 4.1). -/
structure Engine where
  /-- SA0 and SA1 (04 Table 4.1) -/
  slotA : Tab OpSlot := []
  /-- SB0 and SB1 (04 Table 4.1) -/
  slotB : Tab OpSlot := []
  /-- CA0 and CA1 (04 Table 4.1) -/
  scaleA : Tab ScaleSlot := []
  /-- CB0 and CB1 (04 Table 4.1) -/
  scaleB : Tab ScaleSlot := []
  /-- accumulator banks 0 to 3 (04 Table 4.1) -/
  banks : Tab Bank := []
  /-- 64 store-path generators (02 R41) -/
  gens : GenBank := {}
  deriving DecidableEq, Repr

/-- A launch's rank on a core (R79). -/
structure RankRun where
  /-- compartment (03 R79) -/
  cmpt : Nat := 0
  /-- submission ring of its KERNEL_LAUNCH (03 R79) -/
  ring : Nat := 0
  /-- serial number of its KERNEL_LAUNCH (03 R81) -/
  index : Nat := 0
  /-- service class of its KERNEL_LAUNCH (11 R244) -/
  cls : BitVec 3 := 0
  /-- placement rank (03 R79) -/
  rank : Nat := 0
  /-- launch number (03 R69) -/
  launch : Nat := 0
  /-- posts that have left the core in this launch (03 R69) -/
  postIdx : Nat := 0
  /-- non-empty contributions made in this launch (05 R127) -/
  seq : Nat := 0
  /-- the kernel has ended (03 R57) -/
  exited : Bool := false
  /-- CP_TRAP or KERNEL_ERROR when the kernel failed (03 R79) -/
  code : BitVec 16 := 0
  /-- DETAIL of that failure (03 Table 3.11) -/
  detail : BitVec 64 := 0
  /-- OR of every command's sticky byte in this launch (04 R87) -/
  sticky : BitVec 8 := 0
  deriving DecidableEq, Repr

/-- A control-processor load that has not retired (R194, R215). -/
structure PendLoad where
  /-- virtual address (08 R194) -/
  va : Nat := 0
  /-- bytes (08 R194) -/
  size : Nat := 0
  /-- destination register (08 R194) -/
  rd : Nat := 0
  /-- it is in progress: its pages were resident and a request for its line has left (09 R216) -/
  began : Bool := false
  deriving DecidableEq, Repr

/-- A control-processor store that has not retired (R194, R215). -/
structure PendStore where
  /-- virtual address of the first byte not yet stored (08 R194) -/
  va : Nat := 0
  /-- bytes not yet stored (08 R194) -/
  data : List (BitVec 8) := []
  /-- it is in progress: its pages were resident and a request for its line has left (09 R216) -/
  began : Bool := false
  deriving DecidableEq, Repr

/-- One core of a tile (Table 1.2). -/
structure Core where
  /-- 64 token counters (03 R63) -/
  cnt : Tab (BitVec 16) := []
  /-- six 32-byte staging registers, by queue (03 R60) -/
  stage : Tab (BitVec 256) := []
  /-- six command queues of 32 entries (03 R60) -/
  queues : Tab (List QEntry) := []
  /-- COR_QSTAT (03 R59) -/
  qstat : Tab (BitVec 32) := []
  /-- COR_RPT, 16 remote post table entries (03 R68) -/
  rpt : Tab (BitVec 64) := []
  /-- four matrix engines (01 R18) -/
  eng : Tab Engine := []
  /-- 512 shaping-unit generators (02 R41) -/
  shpGens : GenBank := {}
  /-- 64 mover generators (02 R41) -/
  movGens : GenBank := {}
  /-- a mover seed waiting for the running mover command to end (04 R89) -/
  movSeed : Option (BitVec 64) := none
  /-- control processor's integer registers, x0 reading zero (03 R53) -/
  x : Tab (BitVec 64) := []
  /-- control processor's floating-point registers (03 R53) -/
  f : Tab (BitVec 64) := []
  /-- control processor's vector registers (03 R53) -/
  v : Tab (BitVec 1024) := []
  /-- control processor's program counter (03 R79) -/
  pc : BitVec 64 := 0
  /-- user mode (a kernel runs) rather than the launch stub's machine mode (03 R53) -/
  user : Bool := false
  /-- mstatus.TW, 1 for every kernel (03 R56) -/
  tw : Bool := true
  /-- cycle counter (03 R56) -/
  cycle : BitVec 64 := 0
  /-- instret counter (03 R56) -/
  instret : BitVec 64 := 0
  /-- scratch bytes rewritten since the last FENCE.I or launch, by offset, with the earlier contents that a fetch may still see (03 R449) -/
  icStale : Tab (List Byte) := []
  /-- a COR_WAIT store that has not retired (03 R64) -/
  corWait : Option (BitVec 32) := none
  /-- measured age of that wait, microseconds (03 R71) -/
  waitAge : Nat := 0
  /-- TOKEN_STALL already reported for it (03 R71) -/
  waitReported : Bool := false
  /-- a command-port store that waits for a free entry: its queue and the staged word (03 R60) -/
  portWait : Option (Nat × BitVec 256) := none
  /-- the part of that store beyond the port's byte 31, performed when it retires: page offset and bytes (03 R60) -/
  portRest : Option (Nat × List Byte) := none
  /-- the reservation of an LR: physical address and the bytes loaded (03 R55) -/
  resv : Option (Nat × List Byte) := none
  /-- fcsr, vstart, vcsr, vl, vtype and the machine-mode registers of the control processor, by CSR number (03 R53) -/
  csr : Tab (BitVec 64) := []
  /-- a load that waits for its data (08 R194) -/
  pload : Option PendLoad := none
  /-- a store that waits for ownership, DIRTY_ACK or its page (08 R194) -/
  pstore : Option PendStore := none
  /-- the launch running on the core (03 R79) -/
  run : Option RankRun := none
  /-- detected errors of each unit in the last 24 hours (20 R404) -/
  errs : Tab Nat := []
  deriving DecidableEq, Repr

/-- A token post on the mesh (R65, R66). -/
structure PostMsg where
  /-- posting compartment (03 R66) -/
  cmpt : Nat := 0
  /-- post word (03 Table 3.6) -/
  word : BitVec 32 := 0
  /-- sending rank, when it left a core (03 R69) -/
  rank : Option Nat := none
  /-- launch number carried (03 R69) -/
  launch : Nat := 0
  /-- post index carried (03 R69) -/
  idx : Nat := 0
  /-- fabric identifier of a remote sender (15 R330) -/
  fabric : Option Nat := none
  /-- source on the mesh: 0 the dispatcher, 64 + n the SSU of logical stack n, 256 + 8 * die + core a core, 1024 + n the remote peer n (03 R65) -/
  src : Nat := 0
  deriving DecidableEq, Repr

/-- A descriptor fetched from a submission ring (R74). -/
structure Desc where
  /-- the 128 bytes (03 R76) -/
  bytes : BitVec 1024 := 0
  /-- ring index (03 Table 3.11) -/
  index : Nat := 0
  /-- serial number by which ranks, commands and outcomes find the descriptor (model's own, log 13) (model) -/
  id : Nat := 0
  /-- WAIT0 was met by a value its counter has held since the descriptor came first (03 R64) -/
  met0 : Bool := false
  /-- the same of WAIT1 (03 R64) -/
  met1 : Bool := false
  /-- status: refusal or completion code (03 R78) -/
  code : BitVec 16 := 0
  /-- step of R77 at which it was refused, 0 when accepted (03 R77) -/
  step : Nat := 0
  /-- waiting, running or done (effects performed) (03 R74) -/
  st : Phase := .waiting
  /-- translations kept, in ascending byte order (09 R212) -/
  xlats : List XLat := []
  /-- OR of the sticky bytes (03 Table 3.11) -/
  sticky : BitVec 8 := 0
  /-- DETAIL (03 Table 3.11) -/
  detail : BitVec 64 := 0
  /-- launch number of a KERNEL_LAUNCH (03 R69) -/
  launch : Nat := 0
  /-- ranks among them that run again from their start (20 R408) -/
  replay : List Nat := []
  /-- ranks that have not started (03 R79) -/
  left : List Nat := []
  /-- ranks running (03 R79) -/
  going : List Nat := []
  /-- ranks that failed (03 Table 3.11) -/
  failed : List Nat := []
  /-- measured age of its waits, microseconds (03 R71) -/
  age : Nat := 0
  /-- TOKEN_STALL already reported (03 R71) -/
  reported : Bool := false
  /-- contributions, remote operations and drive commands whose outcome it awaits (05 R127) -/
  pend : Nat := 0
  /-- chunks or blocks already performed (09 R215) -/
  prog : Nat := 0
  /-- STO_NS entry in force when a STORAGE descriptor started (14 R306) -/
  grant : BitVec 64 := 0
  deriving DecidableEq, Repr

/-- A submission ring (Table 3.8). -/
structure SubRing where
  /-- CMP_SQk_BASE (03 Table 3.8) -/
  base : BitVec 64 := 0
  /-- CMP_SQk_CTRL: [8] ENABLE, [4:0] LOG2_SIZE (03 Table 3.8) -/
  ctrl : BitVec 64 := 0
  /-- head index (03 R72) -/
  head : Nat := 0
  /-- tail index published (03 R73) -/
  tail : Nat := 0
  /-- descriptors fetched and not yet checked, by ring index (03 R74) -/
  fetched : Tab (BitVec 1024) := []
  /-- next index to fetch (03 R74) -/
  asked : Nat := 0
  /-- indices whose descriptor arrived with EP = 1 (14 R301) -/
  bad : List Nat := []
  /-- descriptors fetched before the ring was disabled and not yet checked (03 R73) -/
  old : List (Nat × BitVec 1024) := []
  /-- how many of those, the last ones, belong to the ring's latest enabling, so that consuming them advances its head (03 R74) -/
  oldLive : Nat := 0
  /-- descriptors fetched and not completed, in ring order (03 R74) -/
  descs : List Desc := []
  deriving DecidableEq, Repr

/-- A completion held for a full or disabled completion ring (R75). -/
structure CEnt where
  /-- the entry but for its phase (03 Table 3.11) -/
  bytes : BitVec 256 := 0
  /-- vector to raise after it (03 R81) -/
  vector : Option Nat := none
  deriving DecidableEq, Repr

/-- The completion ring or the event ring (Table 3.8). -/
structure DevRing where
  /-- BASE (03 Table 3.8) -/
  base : BitVec 64 := 0
  /-- CTRL (03 Table 3.8) -/
  ctrl : BitVec 64 := 0
  /-- entries before this index are free (03 R75) -/
  head : Nat := 0
  /-- next entry the device writes (03 R75) -/
  tail : Nat := 0
  /-- PHASE of the current pass (03 R75) -/
  phase : Bool := true
  /-- completions held, in order (completion ring only) (03 R75) -/
  held : List CEnt := []
  deriving DecidableEq, Repr

/-- An access waiting in a fault record (R215). -/
structure Waiter where
  /-- the mover command, descriptor or SSU command that waits (09 R215) -/
  origin : Origin := .none
  /-- die and core, when a control-processor access waits (09 R215) -/
  cp : Option (Nat × Nat) := none
  /-- the access writes (09 R214) -/
  write : Bool := false
  /-- virtual address (09 R215) -/
  va : Nat := 0
  deriving DecidableEq, Repr

/-- A page-fault record (R215). -/
structure FaultRec where
  /-- segment (09 R215) -/
  seg : Nat := 0
  /-- page (09 R215) -/
  page : Nat := 0
  /-- accesses waiting, in arrival order (09 R215) -/
  waiters : List Waiter := []
  deriving DecidableEq, Repr

/-- A page command in progress (R216). -/
structure PageCmd where
  /-- 1 PAGE_IN, 2 PAGE_OUT (09 R216) -/
  op : Nat := 0
  /-- segment (09 R216) -/
  seg : Nat := 0
  /-- page (09 R216) -/
  page : Nat := 0
  /-- landing slot (09 R216) -/
  slot : Nat := 0
  /-- FORCE of a PAGE_OUT (09 R216) -/
  force : Bool := false
  /-- bytes of a PAGE_IN received from the host (14 R298) -/
  got : Nat := 0
  /-- a page-out run by a withdrawal, which posts no event of its own (09 R221) -/
  withdraw : Bool := false
  /-- a host completion of it carried EP = 1 (14 R301) -/
  pois : Bool := false
  /-- its segment was withdrawn: it ends with STALE_MAP when its read in flight has returned (09 R221) -/
  stale : Bool := false
  deriving DecidableEq, Repr

/-- A key-vault slot (R308). -/
structure KeySlot where
  /-- slot holds a key (14 R308) -/
  loaded : Bool := false
  /-- key (14 R308) -/
  key : BitVec 256 := 0
  /-- salt (14 R307) -/
  salt : BitVec 32 := 0
  /-- counter (14 R307) -/
  ctr : BitVec 64 := 0
  /-- identity of its releaser (17 R363) -/
  relBy : BitVec 384 := 0
  deriving DecidableEq, Repr

/-- An MSI-X table entry (PCIe; R281). -/
structure Msix where
  /-- message address (14 Table 14.5) -/
  addr : BitVec 64 := 0
  /-- message data (14 Table 14.5) -/
  data : BitVec 32 := 0
  /-- vector masked (PCIe: masked after reset) (13 R281) -/
  mask : Bool := true
  deriving DecidableEq, Repr

/-- A COMPARTMENT record's value (Table 12.4). -/
structure CmptRec where
  /-- MODE: [0] VITRINE, [3:2] ROLE, [4] NO_UPDATE (12 Table 12.4) -/
  mode : BitVec 8 := 0
  /-- VECTORS (12 Table 12.4) -/
  vectors : Nat := 0
  /-- CLASSES (12 Table 12.4) -/
  classes : BitVec 8 := 0
  /-- LANDING, CMP_LANDING (12 Table 12.4) -/
  landing : BitVec 64 := 0
  /-- CTR_GRANT (12 Table 12.4) -/
  ctrGrant : BitVec 64 := 0
  /-- WIN_GRANT (12 Table 12.4) -/
  winGrant : BitVec 64 := 0
  /-- RLC_WAYS, TIL_RLC_WAYS (12 Table 12.4) -/
  rlcWays : BitVec 16 := 0
  /-- SC_WAYS, HUB_SC_WAYS (12 Table 12.4) -/
  scWays : BitVec 32 := 0
  /-- SSU_ALLOT, SSU_QALLOT, by logical stack (12 Table 12.4) -/
  allot : Tab (BitVec 32) := []
  /-- RANK, one byte per rank: [7:3] die, [2:0] core (12 Table 12.4) -/
  ranks : List (BitVec 8) := []
  /-- the record's value bytes, which its digest covers (17 R358) -/
  value : List (BitVec 8) := []
  deriving DecidableEq, Repr

/-- A compartment and its function: key 0 is the PF and compartment 0 (R278, R280). -/
structure Cmpt where
  /-- SQ0 to SQ3 (03 R72) -/
  sq : Tab SubRing := []
  /-- completion ring (03 R75) -/
  cq : DevRing := {}
  /-- event ring (03 R75) -/
  eq : DevRing := {}
  /-- CQ_FULL posted for the present filling (03 R75) -/
  cqFull : Bool := false
  /-- ring the round-robin serves next (03 R74) -/
  next : Nat := 0
  /-- CMP_TKN_STALL_COUNT (03 Table 3.8) -/
  stalls : BitVec 32 := 0
  /-- CMP_EQ_LOST (03 Table 3.8) -/
  eqLost : BitVec 32 := 0
  /-- CMP_EQ_VECTOR (13 Table 13.4) -/
  eqVector : BitVec 64 := 0
  /-- CMP_WHINT_RANK (08 Table 8.10) -/
  whint : Tab (BitVec 64) := []
  /-- CMP_BAR2_WIN (a VF) or PCI_PF_WIN (the PF) (14 Table 14.8) -/
  win : Tab (BitVec 64) := []
  /-- MSI-X table (14 Table 14.5) -/
  msix : Tab Msix := []
  /-- vectors with the pending bit set (13 R281) -/
  pba : List Nat := []
  /-- MSI-X Enable (PCIe: 0 after reset) (13 R281) -/
  msixEn : Bool := false
  /-- Function Mask (PCIe: 0 after reset) (13 R281) -/
  fmask : Bool := false
  /-- UNDEFINED, READY or FALLOW (13 R279) -/
  state : CState := .undef
  /-- CAUSE of the last fallow (13 Table 13.5) -/
  cause : Nat := 0
  /-- step of R283 reached (13 R283) -/
  step : Nat := 0
  /-- CMP_WIPE_LEFT (13 Table 13.5) -/
  wipeLeft : Nat := 0
  /-- CMP_FALLOW_COUNT (13 Table 13.5) -/
  fallows : BitVec 32 := 0
  /-- COMPARTMENT record in force (12 Table 12.4) -/
  plan : Option CmptRec := none
  /-- segment table (09 R208) -/
  segs : Tab Seg := []
  /-- CMP_RES_MAP, residency map (09 Table 9.6) -/
  resmap : Tab (BitVec 64) := []
  /-- fault records by index (09 R215) -/
  frecs : Tab FaultRec := []
  /-- page commands in progress (09 R216) -/
  pcmds : List PageCmd := []
  /-- segments withdrawn through HUB_UNMAP_REQ that no amendment has reinstated: their ranges stay the compartment's under the plan (09 R221) -/
  lifted : List Nat := []
  /-- code of the last page command to end (09 Table 9.6) -/
  pageCode : BitVec 16 := 0
  /-- CMP_FAULT_COUNT (09 Table 9.6) -/
  faultCount : BitVec 32 := 0
  /-- CMP_FAULT_LIMIT (09 Table 9.7) -/
  faultLimit : BitVec 32 := 1000000#32
  /-- vitrine active (17 R354) -/
  active : Bool := false
  /-- TDI state (17 R360) -/
  tdi : Tdi := .unlocked
  /-- IDE stream bound to the TDI (17 R360) -/
  stream : Nat := 0
  /-- a stream is bound (17 R360) -/
  bound : Bool := false
  /-- start nonce of the TDI (17 R360) -/
  nonce : BitVec 256 := 0
  /-- STOP_INTERFACE_REQUEST waits for the fallow to end (17 R360) -/
  stopReq : Bool := false
  /-- eight key slots (14 R308) -/
  keys : Tab KeySlot := []
  /-- BAR0 writes held during a load or epoch, in order (17 R354) -/
  heldWr : List (Nat × BitVec 64) := []
  /-- AER errors logged (14 R302) -/
  aer : List AerErr := []
  /-- launch numbers given out (03 R69) -/
  launches : Nat := 0
  deriving DecidableEq, Repr

/-- A ledger entry of one contributor number (Chapter 5, The ledger). -/
structure Ledger where
  /-- HIGH (05 R125) -/
  high : Nat := 0
  /-- SEEN map (05 R125) -/
  seen : BitVec 64 := 0
  /-- launch number of the latest mover contribution (05 R125) -/
  launch : Nat := 0
  /-- PART_SEQ (05 R125) -/
  partSeq : Nat := 0
  /-- PART_GROUPS (05 R125) -/
  partGroups : Nat := 0
  deriving DecidableEq, Repr

/-- A window record (R121 to R124). -/
structure Window where
  /-- owning compartment (05 R120) -/
  owner : Nat := 0
  /-- DST, as an offset in the logical stack (05 Table 5.4) -/
  dst : Nat := 0
  /-- DST, as a virtual address of the owner (05 Table 5.4) -/
  va : Nat := 0
  /-- DST lies in a host-backed segment, whose pages are looked up at every write (09 R214) -/
  paged : Bool := false
  /-- COUNT (05 Table 5.4) -/
  count : Nat := 0
  /-- SRC_FMT (05 Table 5.4) -/
  srcFmt : BitVec 4 := 0
  /-- DST_FMT (05 Table 5.4) -/
  dstFmt : BitVec 4 := 0
  /-- OP: 0 ADD, 1 MAX, 2 MIN (05 Table 5.4) -/
  op : Nat := 0
  /-- SAT (05 Table 5.4) -/
  sat : BitVec 2 := 0
  /-- EXPLICIT_CLOSE (05 Table 5.4) -/
  explicit : Bool := false
  /-- opened by CLIP_NOISE (05 R131) -/
  clip : Bool := false
  /-- SIGMA (05 Table 5.4) -/
  sigma : BitVec 32 := 0
  /-- BOUND (05 Table 5.4) -/
  bound : BitVec 32 := 0
  /-- MIN_PARTS (05 Table 5.4) -/
  minParts : Nat := 0
  /-- EXPECTED (05 Table 5.4) -/
  expected : Nat := 0
  /-- SCALE (05 Table 5.4) -/
  scale : BitVec 32 := 0
  /-- CLOSE_POST (05 Table 5.4) -/
  closePost : BitVec 32 := 0
  /-- participant slots (05 Table 5.5) -/
  slots : List (BitVec 24) := []
  /-- open, otherwise closed (05 R122) -/
  isOpen : Bool := false
  /-- marked lost (05 R143) -/
  lost : Bool := false
  /-- accepted contributions (05 R125) -/
  accepted : Nat := 0
  /-- slots with an accepted contribution (05 R132) -/
  contributed : BitVec 16 := 0
  /-- duplicates dropped (05 R123) -/
  dups : Nat := 0
  /-- ledger, by contributor number (05 R125) -/
  ledger : Tab Ledger := []
  deriving DecidableEq, Repr

/-- A contribution in the mesh or at an SSU's intake (R125). -/
structure Contrib where
  /-- window number, none when the destination address finds it (05 R127) -/
  win : Option Nat := none
  /-- made by a core's mover or a remote mover (the launch number counts) (05 R125) -/
  mover : Bool := false
  /-- sending compartment (05 R127) -/
  cmpt : Nat := 0
  /-- contributor number, when the command carries it (05 R120) -/
  contributor : Nat := 0
  /-- sender's placement rank (05 R127) -/
  rank : Nat := 0
  /-- fabric identifier of a remote sender (15 R331) -/
  peer : Option Nat := none
  /-- sequence (05 R125) -/
  seq : Nat := 0
  /-- launch number (05 R125) -/
  launch : Nat := 0
  /-- first destination byte, as an offset in the logical stack, or element index OFF of a REDUCE (05 R127) -/
  off : Nat := 0
  /-- element bytes (05 R125) -/
  data : List (BitVec 8) := []
  /-- bytes (by index from the first) that lay in a poisoned source sector (05 R129) -/
  pois : List Nat := []
  /-- the command that waits for its outcome (05 R127) -/
  origin : Origin := .none
  /-- the segment through which the sender reaches the window (09 R221) -/
  seg : Option Nat := none
  deriving DecidableEq, Repr

/-- A command in an SSU queue (R118). -/
structure SsuCmd where
  /-- ring of its descriptor (05 R118) -/
  ring : Nat := 0
  /-- serial number of its descriptor (05 R119) -/
  index : Nat := 0
  /-- the descriptor (05 R117) -/
  bytes : BitVec 1024 := 0
  /-- its SSU_WAIT was met by a value the counter has held since the command came first (03 R64) -/
  met : Bool := false
  /-- translations kept (09 R212) -/
  xlats : List XLat := []
  /-- waiting, started or done (05 R118) -/
  st : Phase := .waiting
  /-- first group whose progress record is not accepted (05 R140) -/
  group : Nat := 0
  /-- LAMB: the first pass has ended (05 R140) -/
  second : Bool := false
  /-- LAMB: kept partial sum of squares of w (05 R140) -/
  normW : BitVec 32 := 0
  /-- LAMB: kept partial sum of squares of u (05 R140) -/
  normU : BitVec 32 := 0
  /-- LAMB: kept trust ratio r (05 R140) -/
  trust : BitVec 32 := 0
  /-- query-state SRAM reserved, in 4 KiB units (06 R161) -/
  sram : Nat := 0
  /-- catalogue header read at the start of ATTEND (06 R148) -/
  head : List (BitVec 8) := []
  /-- measured age of its wait, microseconds (03 R71) -/
  age : Nat := 0
  /-- TOKEN_STALL already reported (03 R71) -/
  reported : Bool := false
  deriving DecidableEq, Repr

/-- A stack copy in progress (R139, R183, R407). -/
structure Migration where
  /-- tile copied from (05 R139) -/
  src : Nat := 0
  /-- tile copied to (05 R139) -/
  dst : Nat := 0
  /-- SSU_MIG_CURSOR (05 Table 5.10) -/
  cursor : Nat := 0
  /-- a planned move, otherwise a promotion (20 R409) -/
  planned : Bool := false
  /-- the planned move retires or rotates the source tile (20 R414) -/
  retire : Bool := false
  /-- the island is lost: sectors are rebuilt, not copied (07 R183) -/
  rebuild : Bool := false
  /-- the reserve SSU has loaded the state store (05 R142) -/
  handed : Bool := false
  deriving DecidableEq, Repr

/-- A directory entry (R190). -/
structure DirEnt where
  /-- I, S, E or M (08 R190) -/
  st : DirSt := .i
  /-- sharer vector, one bit per die (08 R190) -/
  sharers : BitVec 33 := 0
  /-- dirty mask (08 R190) -/
  dirty : BitVec 4 := 0
  /-- recency stamp for the least-recently-used recall (08 R191) -/
  used : Nat := 0
  deriving DecidableEq, Repr

/-- A coherence message (Table 8.2). -/
structure CohMsg where
  /-- message (08 Table 8.2) -/
  kind : CohKind := .rdShared
  /-- source die (08 Table 8.2) -/
  src : Nat := 0
  /-- unit within the agent's die (10 Table 10.3) -/
  unit : Nat := 0
  /-- destination die (08 Table 8.2) -/
  dst : Nat := 0
  /-- logical stack of the home, 32 for the hub (08 R188) -/
  home : Nat := 0
  /-- line number, the physical address divided by 128 (08 R187) -/
  line : Nat := 0
  /-- sector mask (08 Table 8.2) -/
  mask : BitVec 4 := 0
  /-- line data (08 Table 8.2) -/
  data : BitVec 1024 := 0
  /-- poison bits (08 R196) -/
  pois : BitVec 4 := 0
  /-- write hint (08 R200) -/
  hint : BitVec 4 := 0
  /-- compartment of the request (08 R187) -/
  cmpt : Nat := 0
  /-- byte mask of a WR_NC (07 R171) -/
  bytes : BitVec 128 := 0
  /-- sent by a home to an agent (08 Table 8.2) -/
  toAgent : Bool := false
  /-- service class of the request that caused it (11 R244) -/
  cls : BitVec 3 := 0
  /-- a hinted write whose data memory already holds (08 R200) -/
  done : Bool := false
  /-- its sender has died while its transaction was active (08 R206) -/
  dead : Bool := false
  deriving DecidableEq, Repr

/-- A line's active transaction at its home (R197). -/
structure HomeTxn where
  /-- the request served; none for a recall (08 R197) -/
  req : Option CohMsg := none
  /-- dies whose snoop answer is awaited (08 R195) -/
  await : BitVec 33 := 0
  /-- the transaction is a recall (08 R191) -/
  isRecall : Bool := false
  /-- line whose request caused the recall (08 R191) -/
  victimOf : Option Nat := none
  /-- a PUSH awaits its answer (08 R200) -/
  pushing : Bool := false
  deriving DecidableEq, Repr

/-- A line in a coherent agent (R187). -/
structure CacheLine where
  /-- I, S, E or M (08 R187) -/
  st : LineSt := .i
  /-- valid sectors (08 R187) -/
  valid : BitVec 4 := 0
  /-- dirty sectors (08 R187) -/
  dirty : BitVec 4 := 0
  /-- poisoned sectors (08 R187) -/
  pois : BitVec 4 := 0
  /-- compartment of the allocating request (08 R187) -/
  cmpt : Nat := 0
  /-- line data (08 R187) -/
  data : BitVec 1024 := 0
  /-- way that holds the line (08 R204) -/
  way : Nat := 0
  /-- sectors kept in the write-back buffer until WB_ACK (08 R194) -/
  wb : BitVec 4 := 0
  /-- MARK_DIRTY outstanding (08 R194) -/
  marking : Bool := false
  deriving DecidableEq, Repr

/-- A parity delta on the mesh (R182). -/
structure Delta where
  /-- data member's logical stack (07 R182) -/
  src : Nat := 0
  /-- parity member's logical stack (07 R182) -/
  pls : Nat := 0
  /-- member offset (07 R182) -/
  off : Nat := 0
  /-- old XOR new (07 R182) -/
  data : BitVec 256 := 0
  /-- compartment whose write sent it (07 R182) -/
  cmpt : Nat := 0
  deriving DecidableEq, Repr

/-- A rebuild at a parity member (R182). -/
structure RebuildTxn where
  /-- guarded area (07 R182) -/
  area : Nat := 0
  /-- member offset of the stripe (07 R182) -/
  off : Nat := 0
  /-- logical stack whose sector is rebuilt; none when the parity sector is recomputed (07 R182) -/
  target : Option Nat := none
  /-- members whose reply is awaited (07 R182) -/
  await : List Nat := []
  /-- XOR of the replies so far (07 R182) -/
  acc : BitVec 256 := 0
  /-- members whose reply was uncorrectable or poisoned (07 R182) -/
  bad : List Nat := []
  /-- deltas held until the rebuild ends (07 R182) -/
  held : List Delta := []
  deriving DecidableEq, Repr

/-- A REBUILD request, stripe read or stripe reply on the mesh (R182). -/
structure StripeMsg where
  /-- 0 REBUILD, 1 stripe read, 2 stripe reply (07 R182) -/
  kind : Nat := 0
  /-- sending logical stack (07 R182) -/
  src : Nat := 0
  /-- receiving logical stack (07 R182) -/
  dst : Nat := 0
  /-- member offset (07 R182) -/
  off : Nat := 0
  /-- sector of a reply (07 R182) -/
  data : BitVec 256 := 0
  /-- the replied sector was uncorrectable or poisoned (07 R182) -/
  bad : Bool := false
  deriving DecidableEq, Repr

/-- A request at a memory controller that waits, for room in a queue or for a rebuild (R172, R179). -/
structure MemHold where
  /-- write, otherwise read (07 R172) -/
  write : Bool := false
  /-- stack offset (07 R170) -/
  off : Nat := 0
  /-- sector mask of a read (07 R171) -/
  mask : BitVec 4 := 0
  /-- bytes of a write (07 R171) -/
  bytes : List (BitVec 8) := []
  /-- poisoned sectors of a write (07 R177) -/
  pois : BitVec 4 := 0
  /-- decoder outcomes of the sectors (07 R176) -/
  decs : List Dec := []
  /-- decoder outcome of the sector that a write reads (07 R176) -/
  dec : Dec := .clean
  /-- service class (07 R174) -/
  cls : Nat := 0
  /-- packet priority (07 R173) -/
  prio : Nat := 0
  /-- it started a rebuild, and is served from its result (07 R179) -/
  recon : Bool := false
  deriving DecidableEq, Repr

/-- A logical stack and its SSU's state store (R114, R115). -/
structure Stack where
  /-- tile that serves the stack, 0 when none does (05 R114) -/
  die : Nat := 0
  /-- SSU_TKN, 256 token counters (05 Table 5.10) -/
  cnt : Tab (BitVec 16) := []
  /-- SSU_QALLOT, by compartment (05 Table 5.10) -/
  allot : Tab (BitVec 32) := []
  /-- command queues, by 4 * compartment + queue (05 R118) -/
  queues : Tab (List SsuCmd) := []
  /-- held windows, by window number (05 R122) -/
  wins : Tab Window := []
  /-- contributions at the intake, in arrival order (05 R125) -/
  intake : List Contrib := []
  /-- staging in use, in 64 KiB units (05 Table 5.10) -/
  staging : Nat := 0
  /-- SSU_APPLIED (05 Table 5.10) -/
  applied : BitVec 32 := 0
  /-- SSU_DUPLICATES (05 Table 5.10) -/
  dups : BitVec 32 := 0
  /-- SSU_REFUSED (05 Table 5.10) -/
  refused : BitVec 32 := 0
  /-- requests that wait at the controller, in arrival order (07 R172) -/
  held : List MemHold := []
  /-- copy in progress; SSU_MIG_CURSOR reads all ones without one (05 R139) -/
  mig : Option Migration := none
  /-- 2,048 generators (02 R41) -/
  gens : GenBank := {}
  /-- draw that keyed the noise generator (free values, log 4) (05 R132) -/
  noiseKey : Nat := 0
  /-- noise samples made under the key (05 R132) -/
  noise : Nat := 0
  /-- SSU_ATT_PAGES (06 Table 6.9) -/
  attPages : BitVec 48 := 0
  /-- SSU_ATT_STOPS (06 Table 6.9) -/
  attStops : BitVec 32 := 0
  /-- listed poisoned guarded sectors, by sector number in the stack (07 R450) -/
  pois : List Nat := []
  /-- microcode bank in use (19 R394) -/
  bank : Bool := false
  /-- microcode version running (19 R394) -/
  ucode : Nat := 0
  /-- microcode version in the other bank (19 R394) -/
  ucodeOld : Nat := 0
  /-- rebuilds running as parity member (07 R182) -/
  rebuilds : List RebuildTxn := []
  /-- deltas on their way from this member (07 R182) -/
  deltas : List Delta := []
  /-- TIL_DIR_RECALLS (08 Table 8.8) -/
  recallCount : BitVec 32 := 0
  /-- TIL_COH_LOST (08 Table 8.8) -/
  cohLost : BitVec 32 := 0
  /-- directory, by line number (08 R190) -/
  dir : Tab DirEnt := []
  /-- active transactions, by line number (08 R197) -/
  txns : Tab HomeTxn := []
  /-- home queue, in order of arrival (08 R197) -/
  hq : List CohMsg := []
  /-- recency stamp given out last (08 R191) -/
  clock : Nat := 0
  /-- RECLAIM_ACTIVE (08 Table 8.8) -/
  reclaim : Bool := false
  /-- live dies whose RECOVER_DONE is awaited; RECOVERY_ACTIVE while not empty (08 R207) -/
  recover : List Nat := []
  deriving DecidableEq, Repr

/-- A request in a pseudo-channel queue (R172). -/
structure PcReq where
  /-- write, otherwise read (07 R172) -/
  write : Bool := false
  /-- sector number in the stack (07 R170) -/
  sector : Nat := 0
  /-- service class (07 R173) -/
  cls : Nat := 0
  /-- packet priority (07 R173) -/
  prio : Nat := 0
  /-- controller cycles waited (07 R173) -/
  waited : Nat := 0
  deriving DecidableEq, Repr

/-- A pseudo-channel of a stack's controller (R172 to R174). -/
structure PseudoCh where
  /-- read queue, 48 entries (07 R172) -/
  rq : List PcReq := []
  /-- write queue, 32 entries (07 R172) -/
  wq : List PcReq := []
  /-- sectors served for each class in the floor window (07 R174) -/
  served : Tab Nat := []
  /-- open row of each bank (07 R173) -/
  openRow : Tab (Option Nat) := []
  /-- refreshes postponed, by bank (07 R184) -/
  postponed : Tab Nat := []
  /-- writes go first (07 R173) -/
  draining : Bool := false
  /-- the halved issue rate skips the next cycle (21 R434) -/
  half : Bool := false
  deriving DecidableEq, Repr

/-- A tile's memory controller (Table 7.7). -/
structure MemCtl where
  /-- MEM_STATUS bits [1] SELF_REFRESH and [0] TRAINED (07 Table 7.7) -/
  status : BitVec 64 := 0
  /-- MEM_TEMP (07 Table 7.7) -/
  temp : BitVec 64 := 0
  /-- MEM_QLEVEL (07 Table 7.7) -/
  qlevel : BitVec 64 := 0
  /-- MEM_AGE_LIMIT (07 Table 7.7) -/
  ageLimit : BitVec 64 := 2400#64
  /-- MEM_CE_COUNT (07 Table 7.7) -/
  ceCount : BitVec 32 := 0
  /-- MEM_CE_TOTAL (07 Table 7.7) -/
  ceTotal : BitVec 32 := 0
  /-- MEM_UE_COUNT (07 Table 7.7) -/
  ueCount : BitVec 32 := 0
  /-- MEM_RECON_COUNT (07 Table 7.7) -/
  recon : BitVec 32 := 0
  /-- MEM_CE_WINDOW (07 Table 7.7) -/
  ceWindow : BitVec 64 := 3600000#64
  /-- MEM_CE_THRESH (07 Table 7.7) -/
  ceThresh : BitVec 64 := 10000#64
  /-- MEM_ERR_LOG (07 Table 7.7) -/
  errLog : BitVec 64 := 0
  /-- MEM_SCRUB_PERIOD (07 Table 7.7) -/
  scrubPeriod : BitVec 64 := 24#64
  /-- MEM_SCRUB_CURSOR (07 Table 7.7) -/
  scrub : BitVec 64 := 0
  /-- MEM_ODECC_COUNT (07 Table 7.7) -/
  odecc : BitVec 32 := 0
  /-- MEM_FLOOR, by class (07 Table 7.7) -/
  floor : Tab (BitVec 64) := []
  /-- the CE window has reported its crossing (07 R186) -/
  reported : Bool := false
  /-- 32 pseudo-channels (07 R172) -/
  pcs : Tab PseudoCh := []
  deriving DecidableEq, Repr

/-- One end of a die-to-die link (Table 10.6). -/
structure Link where
  /-- state (10 R239) -/
  st : LinkSt := .down
  /-- trained width (10 R236) -/
  width : Nat := 0
  /-- peer's last offered width (10 Table 10.6) -/
  offered : Nat := 0
  /-- rate code (10 Table 10.6) -/
  rate : Nat := 0
  /-- retry count (10 R239) -/
  retry : Nat := 0
  /-- MSH_LINK_REPAIR (10 Table 10.6) -/
  repair : BitVec 64 := 0
  /-- MSH_LINK_CRC (10 Table 10.6) -/
  crc : BitVec 32 := 0
  /-- CRC failures in the 1 ms window (10 R235) -/
  crcWin : Nat := 0
  /-- MIN_WIDTH of the plan's route record (12 R264) -/
  minWidth : Nat := 1
  /-- width negotiated at accession for a graft link, 0 for none (10 R236) -/
  nego : Nat := 0
  /-- number of the last flit that this end sent (10 R237) -/
  sent : Nat := 0
  /-- number of the last flit that this end accepted (10 R237) -/
  got : Nat := 0
  deriving DecidableEq, Repr

/-- A mesh packet (R225, R226). -/
structure Packet where
  /-- header (10 R225) -/
  header : BitVec 128 := 0
  /-- sectors and their end-to-end checks (10 R226) -/
  payload : List (BitVec 256 × BitVec 16) := []
  /-- mesh cycles waited at this input since its AGE last rose (10 R229) -/
  wait : Nat := 0
  /-- order of arrival at its router (10 R229) -/
  stamp : Nat := 0
  /-- number of the flit that carries it over a link (10 R237) -/
  seq : Nat := 0
  deriving DecidableEq, Repr

/-- A die's router and mesh registers (Tables 10.2, 10.6); key 0 is the hub's eight routers. -/
structure Router where
  /-- virtual channels, by 10 * port + 2 * class + escape, oldest first (10 R224) -/
  vcs : Tab (List Packet) := []
  /-- credits in use downstream, by 10 * output + 2 * class + escape (10 R224) -/
  credits : Tab Nat := []
  /-- round-robin pointer of each output (10 R229) -/
  rr : Tab Nat := []
  /-- MSH_ID_TYPE (fused) (10 Table 10.6) -/
  idType : BitVec 64 := 0
  /-- MSH_ID_FEAT (fused) (10 Table 10.6) -/
  feat : BitVec 64 := 3#64
  /-- MSH_ID_LOT (fused) (10 Table 10.6) -/
  lot : BitVec 64 := 0
  /-- MSH_ERRATA (10 Table 10.6) -/
  errata : BitVec 64 := 0
  /-- MSH_REV_FLOOR (hub) (10 Table 10.6) -/
  revFloor : BitVec 64 := 0
  /-- active route set: 0 base, n detour set n (10 R232) -/
  set : Nat := 0
  /-- mesh distance (10 R238) -/
  dist : Nat := 0
  /-- MSH_CRC_THRESH (10 Table 10.6) -/
  crcThresh : BitVec 64 := 64#64
  /-- MSH_E2E_ERR (10 Table 10.6) -/
  e2e : BitVec 32 := 0
  /-- MSH_HDR_CE (10 Table 10.6) -/
  hdrCe : BitVec 32 := 0
  /-- links by link number (10 R239) -/
  links : Tab Link := []
  /-- packets of the die's units that wait for room in a channel of the local port, with the channel (10 R224) -/
  outq : List (Nat × Packet) := []
  /-- tags of reads repeated once, by 4096 * source die + tag (10 R227) -/
  retries : List Nat := []
  /-- packets delivered to the die's units, with the sectors that were taken as poisoned (10 R227) -/
  inbox : List (Packet × List Bool) := []
  deriving DecidableEq, Repr

/-- A transaction waiting at a regulator (R245). -/
structure Txn where
  /-- logical stack it draws toward (11 R248) -/
  target : Option Nat := none
  /-- priority it carries when issued (11 R249) -/
  urg : Nat := 0
  /-- compartment it acts for (10 R225) -/
  cmpt : Nat := 0
  /-- device physical address of its line (10 R225) -/
  addr : Nat := 0
  /-- sectors it concerns (10 R225) -/
  mask : BitVec 4 := 0
  /-- a write (10 R230) -/
  write : Bool := false
  deriving DecidableEq, Repr

/-- A regulator's settings and state for one class (Table 11.10). -/
structure RegClass where
  /-- QOS_CLS (11 Table 11.10) -/
  cls : BitVec 64 := 0
  /-- transactions outstanding (11 R245) -/
  out : Nat := 0
  /-- budget left in the window (11 R247) -/
  budget : Nat := 0
  /-- transactions waiting, in arrival order (11 R247) -/
  q : List Txn := []
  /-- settings that apply at the next window boundary (12 R276) -/
  newCls : Option (BitVec 64) := none
  deriving DecidableEq, Repr

/-- A master's regulator (Table 11.3). -/
structure Master where
  /-- QOS_MCFG (11 Table 11.10) -/
  cfg : BitVec 64 := 0
  /-- classes 0 to 7 (11 R247) -/
  classes : Tab RegClass := []
  /-- last queue level of each logical stack (11 R248) -/
  levels : Tab Nat := []
  /-- QOS_URG of a real-time master (11 R249) -/
  urg : Nat := 0
  /-- outstanding packets carrying raised priority (11 R249) -/
  urgOut : Nat := 0
  /-- tag of its next transaction (10 R225) -/
  tag : Nat := 0
  deriving DecidableEq, Repr

/-- A boundary's deadline registers for one class (Table 11.10). -/
structure Deadline where
  /-- QOS_DL_TIME (11 Table 11.10) -/
  time : BitVec 64 := 0
  /-- QOS_DL_REQ (11 Table 11.10) -/
  req : BitVec 64 := 0
  /-- QOS_DL_MISS (11 Table 11.10) -/
  miss : BitVec 32 := 0
  /-- QOS_DL_NONCONF (11 Table 11.10) -/
  nonconf : BitVec 32 := 0
  deriving DecidableEq, Repr

/-- A coherent agent (Table 8.1). -/
structure Cache where
  /-- lines by line number (08 R187) -/
  lines : Tab CacheLine := []
  /-- FLUSH_BUSY (08 Table 8.8) -/
  flushBusy : Bool := false
  deriving DecidableEq, Repr

/-- A link flit kept in the retry buffer (R316). -/
structure Flit where
  /-- sequence (15 R316) -/
  seq : BitVec 24 := 0
  /-- HEADER as sent (15 Table 15.2) -/
  header : BitVec 64 := 0
  /-- PAYLOAD as sent (15 Table 15.2) -/
  body : List Byte := []
  /-- TAG as sent (15 Table 15.2) -/
  tag : List Byte := []
  deriving DecidableEq, Repr

/-- A fabric port (Table 15.8). -/
structure FabPort where
  /-- state (15 R319) -/
  st : FabSt := .disabled
  /-- rate code (15 Table 15.8) -/
  rate : Nat := 0
  /-- neighbour identifier (15 Table 15.8) -/
  nbr : BitVec 16 := 0
  /-- neighbour port (15 Table 15.8) -/
  nbrPort : BitVec 8 := 0
  /-- link version (15 Table 15.8) -/
  version : BitVec 16 := 0
  /-- KEY_PHASE (15 Table 15.8) -/
  keyPhase : Bool := false
  /-- link keys established (15 R317) -/
  keyed : Bool := false
  /-- exchange that made the keys (free values, log 4) (15 R317) -/
  keyDraw : Nat := 0
  /-- flits sent under the present keys (15 R317) -/
  flits : Nat := 0
  /-- sequence of the next flit (15 R316) -/
  sendSeq : BitVec 24 := 0
  /-- last sequence accepted from the other end (15 R316) -/
  lastAcc : BitVec 24 := 0xFFFFFF#24
  /-- retry buffer, 512 flits (15 R316) -/
  retry : List Flit := []
  /-- replays of the oldest flit (15 R319) -/
  replays : Nat := 0
  /-- tag failures in the 1 ms window (15 R317) -/
  tagFails : Nat := 0
  /-- uncorrectable codewords (15 Table 15.8) -/
  fecU : BitVec 32 := 0
  /-- corrected codewords (15 Table 15.8) -/
  fecC : BitVec 32 := 0
  /-- flits replayed (15 Table 15.8) -/
  replayCt : BitVec 16 := 0
  /-- tag failures (15 Table 15.8) -/
  tagCt : BitVec 16 := 0
  /-- flits sent (15 Table 15.8) -/
  sent : Nat := 0
  /-- flits received (15 Table 15.8) -/
  recv : Nat := 0
  /-- packets waiting at the egress engine, in arrival order (15 R324) -/
  egress : List FabPkt := []
  /-- egress buffers reserved (15 R323) -/
  bufs : Nat := 0
  /-- transit packets that wait here for a route or a buffer (15 R323) -/
  ingress : List FabPkt := []
  deriving DecidableEq, Repr

/-- A remote operation outstanding on a connection (R325). -/
structure OutOp where
  /-- the packet (15 R325) -/
  pkt : FabPkt := {}
  /-- acknowledged by the receiver's transport (15 R325) -/
  acked : Bool := false
  /-- retransmission interval in microseconds (15 R325) -/
  interval : Nat := 20
  /-- response status (15 R329) -/
  done : Option (BitVec 16) := none
  /-- command that issued it (15 R329) -/
  issuer : Origin := .none
  /-- physical ranges a GET's data is written to (15 R329) -/
  land : List (Nat × Nat) := []
  /-- compartment whose command issued it (09 R221) -/
  cmpt : Nat := 0
  /-- peer segment it goes through (09 R221) -/
  seg : Option Nat := none
  /-- write hint of its destination (08 R200) -/
  hint : Nat := 0
  deriving DecidableEq, Repr

/-- A transport connection with one peer (R325). -/
structure Conn where
  /-- peer's incarnation (15 R325) -/
  theirInc : BitVec 32 := 0
  /-- next sequence sent (15 R325) -/
  nextSeq : BitVec 32 := 0
  /-- operations with no response yet (15 R325) -/
  outstanding : List OutOp := []
  /-- lowest sequence not yet received (15 R325) -/
  recvLow : BitVec 32 := 0
  /-- sequences received above it (15 R325) -/
  recvd : List (BitVec 32) := []
  /-- packets of CONTRIBs being gathered, by contribution sequence (15 R331) -/
  contribs : List (Nat × List FabPkt) := []
  /-- post marks of the peer's ranks, by counter unit and rank (15 R330) -/
  marks : List (Nat × Mark) := []
  /-- requests accepted that wait for earlier operations or a page (15 R329) -/
  wait : List FabPkt := []
  deriving DecidableEq, Repr

/-- An adjacency report held (R320). -/
structure Report where
  /-- fabric identifier (15 R320) -/
  id : BitVec 16 := 0
  /-- identity digest (15 R320) -/
  digest : BitVec 128 := 0
  /-- protocol version (15 R320) -/
  version : BitVec 16 := 0
  /-- report sequence (15 R320) -/
  seq : BitVec 32 := 0
  /-- UP ports: local port, neighbour identifier, neighbour port (15 R320) -/
  ports : List (Nat × BitVec 16 × Nat) := []
  deriving DecidableEq, Repr

/-- The fabric engines and registers (Table 15.7). -/
structure Fabric where
  /-- FAB_ID (15 Table 15.7) -/
  id : BitVec 16 := 0xFFFF#16
  /-- FAB_VERSION [15:0], version implemented (15 Table 15.7) -/
  version : BitVec 16 := 2#16
  /-- FABRIC_FLOOR of the plan in force (12 Table 12.1) -/
  planFloor : BitVec 16 := 0
  /-- enabled-port mask of the FABRIC record (12 R265) -/
  enabled : BitVec 28 := 0
  /-- ports 0 to 27 (15 R314) -/
  ports : Tab FabPort := []
  /-- domain floor (15 R334) -/
  floor : BitVec 16 := 0
  /-- domain ceiling (15 R334) -/
  ceiling : BitVec 16 := 0
  /-- FAB_MEMBER: identifier, hops, version (15 Table 15.7) -/
  members : List (BitVec 16 × Nat × BitVec 16) := []
  /-- TRANSITION (15 R323) -/
  transition : Bool := false
  /-- CONVERGED (15 Table 15.7) -/
  converged : Bool := false
  /-- FAB_UPG_CTRL (15 Table 15.7) -/
  upg : BitVec 64 := 0
  /-- FAB_DELIVERY_LIMIT (15 Table 15.7) -/
  limit : BitVec 64 := 2000#64
  /-- root identifier (15 Table 15.7) -/
  root : BitVec 16 := 0
  /-- own level (15 Table 15.7) -/
  level : Nat := 0
  /-- FAB_DROPS (15 Table 15.7) -/
  drops : BitVec 32 := 0
  /-- FAB_RETRANSMITS (15 Table 15.7) -/
  retrans : BitVec 32 := 0
  /-- FAB_GRANT (15 Table 15.7) -/
  grants : Tab (BitVec 128) := []
  /-- reports held (15 R320) -/
  reports : List Report := []
  /-- identifiers ignored for duplication (15 R321) -/
  ignored : List (BitVec 16) := []
  /-- own report sequence (15 R320) -/
  mySeq : BitVec 32 := 0
  /-- own incarnation (a free value drawn at boot, log 4) (15 R325) -/
  inc : BitVec 32 := 0
  /-- connections by peer identifier (15 R325) -/
  conns : Tab Conn := []
  /-- adaptive next hops by destination (15 R322) -/
  adaptive : List (BitVec 16 × List Nat) := []
  /-- escape next hop by destination (15 R322) -/
  escape : List (BitVec 16 × Nat) := []
  /-- escape next hop by destination for a packet that has taken a down hop (15 R322) -/
  escapeDown : List (BitVec 16 × Nat) := []
  /-- higher version still served after a downgrade was flooded (15 R335) -/
  oldServe : Option (BitVec 16) := none
  deriving DecidableEq, Repr

/-- An open slot of a grant (R345). -/
structure GateSlot where
  /-- class (16 R345) -/
  cls : Nat := 0
  /-- site windows in force when the grant was opened (16 R349) -/
  wins : Tab (BitVec 128) := []
  /-- the class had budget in the accepting cycle (11 R253) -/
  conf : Bool := false
  deriving DecidableEq, Repr

/-- A request queued for a site window (R350). -/
structure SiteReq where
  /-- tag (16 R350) -/
  id : Nat := 0
  /-- write, otherwise read (16 R350) -/
  write : Bool := false
  /-- offset in the site window (16 R350) -/
  addr : Nat := 0
  /-- bytes written (16 R350) -/
  data : List (BitVec 8) := []
  /-- bytes (16 R350) -/
  size : Nat := 0
  /-- from the host through a PF BAR2 window, otherwise from the Curator (16 R349) -/
  host : Bool := false
  deriving DecidableEq, Repr

/-- A snoop of a device line at a graft site: one CXL snoop for each half (R202). -/
structure SiteSnoop where
  /-- tag of the snoop of half 0; that of half 1 follows it (08 R202) -/
  id : Nat := 0
  /-- the home's snoop (08 R202) -/
  msg : CohMsg := {}
  /-- SNP_INV, otherwise SNP_SHARED (08 Table 8.6) -/
  inv : Bool := false
  /-- halves not yet answered (08 R202) -/
  left : BitVec 2 := 3#2
  /-- sectors that the answers returned (08 R202) -/
  dirty : BitVec 4 := 0
  /-- their data (08 R202) -/
  data : BitVec 1024 := 0
  deriving DecidableEq, Repr

/-- A GRAFT record (Table 12.6). -/
structure GraftRec where
  /-- PROTOCOLS (12 Table 12.6) -/
  protocols : BitVec 8 := 0
  /-- MODULES (12 Table 12.6) -/
  modules : Nat := 0
  /-- ATTEST (12 Table 12.6) -/
  attest : Bool := false
  /-- CLASSES (12 Table 12.6) -/
  classes : BitVec 8 := 0
  /-- MAX_OT (12 Table 12.6) -/
  maxOt : Nat := 0
  /-- POWER (12 Table 12.6) -/
  power : Nat := 0
  /-- SNOOP_LIMIT (12 Table 12.6) -/
  snoopLimit : Nat := 0
  /-- SINK_LIMIT (12 Table 12.6) -/
  sinkLimit : Nat := 0
  /-- VENDOR (12 Table 12.6) -/
  vendor : BitVec 16 := 0
  /-- PRODUCT (12 Table 12.6) -/
  product : BitVec 16 := 0
  /-- REV_MIN (12 Table 12.6) -/
  revMin : Nat := 0
  /-- REV_MAX (12 Table 12.6) -/
  revMax : Nat := 0
  /-- MEASUREMENT (12 Table 12.6) -/
  meas : BitVec 384 := 0
  deriving DecidableEq, Repr

/-- A graft site (Table 16.6). -/
structure Site where
  /-- STATE (16 Table 16.6) -/
  st : SiteSt := .empty
  /-- gate transactions translated before the last write to GFT_WIN and not yet performed (WIN_BUSY) (16 R349) -/
  winBusy : List (Nat × Nat) := []
  /-- protocols in use: [0] streaming, [1] CXL.io, [2] CXL.cache, [3] CXL.mem (16 Table 16.6) -/
  proto : BitVec 4 := 0
  /-- modules in use (16 Table 16.6) -/
  modules : Nat := 0
  /-- rate code (16 Table 16.6) -/
  rate : Nat := 0
  /-- accession step reached (16 Table 16.2) -/
  step : Nat := 0
  /-- reason of the last refusal or fence (16 Table 16.6) -/
  reason : BitVec 8 := 0
  /-- GFT_ID (16 Table 16.6) -/
  id : BitVec 64 := 0
  /-- last 1 ms average in W (16 R353) -/
  power : Nat := 0
  /-- consecutive windows over POWER (16 R353) -/
  overs : Nat := 0
  /-- the last window was over POWER (16 R353) -/
  throttled : Bool := false
  /-- the evict and drain allowances of a site reset are running (16 R352) -/
  drain : Bool := false
  /-- site sensor, degrees C (16 R353) -/
  temp : Nat := 0
  /-- GFT_DENIED (16 R348) -/
  denied : BitVec 32 := 0
  /-- GFT_TGT_TIMEOUT (16 Table 16.6) -/
  timeout : BitVec 64 := 10000#64
  /-- GFT_WIN (16 Table 16.7) -/
  wins : Tab (BitVec 128) := []
  /-- open slots, in grant order (16 R345) -/
  slots : List GateSlot := []
  /-- gate transactions outstanding, line and class (16 Table 16.6) -/
  txns : List (Nat × Nat) := []
  /-- requests queued for the site window (16 R350) -/
  reqs : List SiteReq := []
  /-- snoops of device lines that the chiplet has not wholly answered (08 R202) -/
  snps : List SiteSnoop := []
  /-- GATE_ACCEPT enabled (16 R343) -/
  accept : Bool := false
  /-- GFT_RESET_N released (16 R352) -/
  resetN : Bool := false
  /-- SHA-384 of the chiplet's certificate chain (17 Table 17.4) -/
  certs : BitVec 384 := 0
  /-- the chiplet's measurement (17 Table 17.4) -/
  meas : BitVec 384 := 0
  /-- GRAFT record of the plan in force (12 R266) -/
  grec : Option GraftRec := none
  deriving DecidableEq, Repr

/-- A namespace of a drive (R304). -/
structure NameSpace where
  /-- usable (14 R304) -/
  usable : Bool := false
  /-- LBA size 4,096 bytes, otherwise 512 (14 Table 14.11) -/
  lba4k : Bool := false
  /-- capacity in LBAs (14 Table 14.11) -/
  cap : Nat := 0
  deriving DecidableEq, Repr

/-- A drive on a root port (Table 14.11). -/
structure Drive where
  /-- STATE (14 Table 14.11) -/
  st : DriveSt := .absent
  /-- rate code (14 Table 14.11) -/
  rate : Nat := 0
  /-- width code (14 Table 14.11) -/
  width : Nat := 0
  /-- namespaces recorded, by NSID (14 R304) -/
  ns : Tab NameSpace := []
  /-- Bus Master enabled (14 R305) -/
  busMaster : Bool := false
  /-- queue memory of its own queues (14 R305) -/
  queueMem : Tab (BitVec 8) := []
  deriving DecidableEq, Repr

/-- An NVMe command in progress for a STORAGE descriptor (R311). -/
structure NvmeCmd where
  /-- drive (14 R311) -/
  drive : Nat := 0
  /-- compartment (14 R311) -/
  cmpt : Nat := 0
  /-- ring of its descriptor (14 R311) -/
  ring : Nat := 0
  /-- serial number of its descriptor (14 R311) -/
  index : Nat := 0
  /-- 1 READ, 2 WRITE, 3 FLUSH (14 Table 14.12) -/
  op : Nat := 0
  /-- first LBA (14 R311) -/
  lba : Nat := 0
  /-- first block of the object it carries (14 R311) -/
  blocks : Nat := 0
  /-- bytes (14 R311) -/
  len : Nat := 0
  /-- carries tag records (14 R311) -/
  tag : Bool := false
  /-- inline engine that runs the descriptor (14 R313) -/
  engine : Nat := 0
  /-- completed by the drive, its data in the staging buffer (14 R311) -/
  back : Bool := false
  /-- NVMe status of that completion (14 R312) -/
  status : Nat := 0
  /-- data in the staging buffer (14 R311) -/
  data : List (BitVec 8) := []
  /-- tag records in the staging buffer (14 R311) -/
  tags : List (BitVec 8) := []
  deriving DecidableEq, Repr

/-- The storage root port (Table 14.11). -/
structure Storage where
  /-- STO_BIF at cold reset (14 R303) -/
  bifur : BitVec 2 := 0
  /-- SP0 to SP3 (14 R304) -/
  drives : Tab Drive := []
  /-- STO_NS (14 Table 14.11) -/
  grants : Tab (BitVec 64) := []
  /-- STO_CMD_TIMEOUT (14 Table 14.11) -/
  cmdTimeout : BitVec 64 := 30000#64
  /-- STO_DMA_DENIED (14 Table 14.11) -/
  dmaDenied : BitVec 32 := 0
  /-- STO_CRYPTO tag failures by engine (14 Table 14.11) -/
  tagFails : Tab (BitVec 32) := []
  /-- bytes processed by each engine (14 Table 14.11) -/
  gib : Tab Nat := []
  /-- bytes queued at each inline engine (14 R313) -/
  queued : Tab Nat := []
  /-- 32 MiB storage staging buffer (14 R305) -/
  staging : Tab (BitVec 8) := []
  /-- NVMe commands in progress (14 R311) -/
  cmds : List NvmeCmd := []
  deriving DecidableEq, Repr

/-- A device-issued host read outstanding (R298). -/
structure HostRead where
  /-- tag (14 R298) -/
  tag : Nat := 0
  /-- function that requests (14 R298) -/
  fn : Nat := 0
  /-- 0 ring fetch, 1 PAGE_IN (14 R298) -/
  kind : Nat := 0
  /-- ring of a fetch (14 R300) -/
  ring : Nat := 0
  /-- landing slot of a PAGE_IN (14 R300) -/
  slot : Nat := 0
  /-- I/O virtual address (14 R298) -/
  addr : Nat := 0
  /-- bytes (14 R298) -/
  len : Nat := 0
  deriving DecidableEq, Repr

/-- The endpoint (Table 14.11). -/
structure Pci where
  /-- PCI_LINK_STATUS (14 Table 14.11) -/
  link : BitVec 64 := 0
  /-- link trained (14 R289) -/
  up : Bool := false
  /-- Configuration Request Retry Status (21 R429) -/
  retry : Bool := true
  /-- PCI_CPL_TIMEOUTS (14 Table 14.11) -/
  timeouts : BitVec 32 := 0
  /-- PCI_PF_DENIED (14 Table 14.11) -/
  denied : BitVec 32 := 0
  /-- device-issued reads outstanding (14 R298) -/
  reads : List HostRead := []
  /-- tags whose completion will be discarded (14 R300) -/
  dead : List Nat := []
  /-- host requests that wait for the rebuild of a sector, in order (07 R179) -/
  held : List Instr := []
  /-- tag given out next (14 R298) -/
  nextTag : Nat := 0
  /-- Max_Payload_Size code of Device Control (14 R298) -/
  mps : BitVec 3 := 0
  /-- Max_Read_Request_Size code of Device Control (14 R298) -/
  mrrs : BitVec 3 := 2#3
  /-- completion timeout value of Device Control 2 (14 R299) -/
  toCode : BitVec 4 := 0
  /-- VF Enable (14 R292) -/
  vfEnable : Bool := false
  /-- NumVFs (14 R292) -/
  numVfs : Nat := 0
  /-- PF in D3hot (21 R430) -/
  d3hot : Bool := false
  /-- link IDE stream Secure (17 Table 17.10) -/
  ideLink : Bool := false
  /-- selective streams Secure (17 Table 17.10) -/
  ideSel : BitVec 16 := 0
  /-- session that programmed each stream's keys, plus one (17 Table 17.6) -/
  ideBy : Tab Nat := []
  deriving DecidableEq, Repr

/-- A bed plan image under check or taking effect (R268 to R276). -/
structure LoadJob where
  /-- image bytes (12 R259) -/
  image : List (BitVec 8) := []
  /-- PERSIST (12 R268) -/
  persist : Bool := false
  /-- read from flash at boot (12 R268) -/
  atBoot : Bool := false
  /-- loaded from the management port (12 R274) -/
  mgmt : Bool := false
  /-- management session that loads it (12 R274) -/
  session : Nat := 0
  /-- checking, fallow wipes running, quiescing, withdrawing, installing (12 R275) -/
  stage : LoadStage := .checking
  /-- affected compartments (12 R276) -/
  affected : List Nat := []
  /-- compartments whose record the amendment deletes (12 R276) -/
  deleted : List Nat := []
  /-- units that have not answered EPOCH, by die (12 R276) -/
  await : List Nat := []
  deriving DecidableEq, Repr

/-- The bed plan registers (Table 12.9) and the plan in force. -/
structure Bed where
  /-- BED_STAGE, 4 MiB (12 Table 12.9) -/
  staged : Tab (BitVec 8) := []
  /-- records in force: type, key, value (12 R260) -/
  plan : List (Nat × Nat × List (BitVec 8)) := []
  /-- IN_FORCE (12 Table 12.9) -/
  inForce : Bool := false
  /-- code of the last load (12 Table 12.9) -/
  code : BitVec 16 := 0
  /-- step of Table 12.7 reached (12 Table 12.9) -/
  stepNo : Nat := 0
  /-- BED_DETAIL (12 Table 12.9) -/
  detail : BitVec 64 := 0
  /-- BED_SEQ (flash) (12 Table 12.9) -/
  seq : BitVec 64 := 0
  /-- BED_EPOCH (12 Table 12.9) -/
  epochs : BitVec 32 := 0
  /-- BED_EPOCH_LIMIT (12 Table 12.9) -/
  limit : BitVec 64 := 1000000#64
  /-- BED_HASH (12 R277) -/
  hash : BitVec 384 := 0
  /-- persisted plan (flash) (12 R268) -/
  flashPlan : Option (List (BitVec 8)) := none
  /-- persisted amendments (flash) (12 R268) -/
  flashAmends : List (List (BitVec 8)) := []
  /-- substitution list (flash): die replaced, replacement (12 R262) -/
  subst : List (Nat × Nat) := []
  /-- image being checked or switched in (12 R270) -/
  job : Option LoadJob := none
  deriving DecidableEq, Repr

/-- A withdrawal running (R221). -/
structure Unmap where
  /-- compartment (09 R221) -/
  cmpt : Nat := 0
  /-- segment (09 R221) -/
  seg : Nat := 0
  /-- entry withdrawn (09 R221) -/
  old : Seg := {}
  /-- step of R221 reached (09 Table 9.7) -/
  step : Nat := 0
  /-- started by HUB_UNMAP_REQ (09 Table 9.7) -/
  byReg : Bool := false
  /-- WITHDRAWN also goes to the compartment (13 R287) -/
  toCmpt : Bool := true
  deriving DecidableEq, Repr

/-- An SPDM session (R357). -/
structure Session where
  /-- session (17 R357) -/
  id : Nat := 0
  /-- on the management port, otherwise DOE (17 R357) -/
  mgmt : Bool := false
  /-- FINISH completed (17 R357) -/
  live : Bool := false
  deriving DecidableEq, Repr

/-- A party's approval of the round (R365). -/
structure Approval where
  /-- party entry (17 R365) -/
  party : Nat := 0
  /-- RECIPIENT (17 R365) -/
  recipient : BitVec 384 := 0
  deriving DecidableEq, Repr

/-- Confidential operation (Table 17.10). -/
structure Conf where
  /-- ROUND (17 R365) -/
  round : BitVec 32 := 0
  /-- RELEASED (17 R365) -/
  released : Bool := false
  /-- approvals of the round (17 R365) -/
  approvals : List Approval := []
  /-- RECIPIENT of the latest released round (17 R365) -/
  recipient : BitVec 384 := 0
  /-- latest release key (17 R365) -/
  relKey : BitVec 256 := 0
  /-- its salt (17 R365) -/
  relSalt : BitVec 32 := 0
  /-- SPDM sessions (17 R357) -/
  sessions : List Session := []
  /-- session number given out next (17 R357) -/
  nextSession : Nat := 0
  /-- GET_VERSION answered, by transport: [0] DOE, [1] management port (17 R357) -/
  versioned : BitVec 2 := 0
  /-- GET_CAPABILITIES answered (17 R357) -/
  caps : BitVec 2 := 0
  /-- NEGOTIATE_ALGORITHMS completed (17 R357) -/
  algs : BitVec 2 := 0
  /-- bytes of a large request gathered, by transport: 0 DOE, 1 the management port (17 R357) -/
  chunkIn : Tab (List (BitVec 8)) := []
  /-- bytes of a large response not yet returned, by transport (17 R357) -/
  chunkOut : Tab (List (BitVec 8)) := []
  /-- messages held during a load, epoch or trial (17 R354) -/
  held : List Held := []
  deriving DecidableEq, Repr

/-- A management session (R372). -/
structure MgmtSession where
  /-- session (18 R372) -/
  id : Nat := 0
  /-- the client's BIND has verified (18 R372) -/
  clientBound : Bool := false
  deriving DecidableEq, Repr

/-- Port authority, life cycle and debug (Table 18.8). -/
structure Auth where
  /-- three fuse copies of the codeword (18 R375) -/
  lcCopies : List (BitVec 32) := [0x00FFFF00#32, 0x00FFFF00#32, 0x00FFFF00#32]
  /-- majority codeword that the boot ROM read at the last power-up (18 R375) -/
  lcRead : BitVec 32 := 0x00FFFF00#32
  /-- VOTE_SPLIT of that reading (18 Table 18.8) -/
  lcSplit : Bool := false
  /-- the trim fuses have been overwritten with ones (18 R376) -/
  trimOnes : Bool := false
  /-- LC_JOURNAL (fuses) (18 R378) -/
  journal : BitVec 8 := 0x0F#8
  /-- step of R378 reached, 0 when none (18 Table 18.8) -/
  lcStep : Nat := 0
  /-- target of the transition in progress (18 R378) -/
  lcTarget : Nat := 0
  /-- code of the last request (18 Table 18.8) -/
  lcCode : BitVec 16 := 0
  /-- the transition is completed at power-up (18 R379) -/
  lcAtBoot : Bool := false
  /-- events that the boot posts to the PF when it ends, code and detail (18 R378) -/
  notes : List (Nat × Nat) := []
  /-- CUR_PORT_DENIED (18 Table 18.8) -/
  denied : Tab (BitVec 32) := []
  /-- owner anchor (flash) (18 R371) -/
  anchor : Option (BitVec 384) := none
  /-- CUR_OWNER_CLAIM (18 Table 18.8) -/
  claim : BitVec 384 := 0
  /-- operator verification key pairs (flash) (18 R374) -/
  opKeys : Tab (Option (List (BitVec 8))) := []
  /-- owner update lock (flash) (18 R374) -/
  updLock : Bool := false
  /-- EH1608_PATH (flash), default 1 (18 R384) -/
  eh1608 : Bool := true
  /-- management sessions (18 R372) -/
  sessions : List MgmtSession := []
  /-- session number given out next (18 R372) -/
  nextSession : Nat := 0
  /-- current challenge nonce and its SCOPE (18 R381) -/
  dbgNonce : Option (BitVec 256 × BitVec 8) := none
  /-- challenge record sent with that nonce (18 R381) -/
  dbgRec : List (BitVec 8) := []
  /-- SCOPE in force (18 Table 18.8) -/
  dbgScope : BitVec 8 := 0
  /-- SCOPE of the grant whose fallows run (18 R382) -/
  dbgAsk : BitVec 8 := 0
  /-- GRANT_IN_FORCE (18 R382) -/
  dbgOn : Bool := false
  /-- GRANT_PENDING (18 R382) -/
  dbgPend : Bool := false
  /-- EH1608 (18 R384) -/
  dbgEh : Bool := false
  /-- erase-intent record in the owner flash partition (18 R384) -/
  eraseIntent : Bool := false
  /-- TAP status register (18 R369) -/
  jtagStatus : BitVec 16 := 0
  /-- identity seed (fuses) (17 R356) -/
  seed : BitVec 384 := 0
  /-- certificate chain of slot 0 (17 R357) -/
  certs : List (BitVec 8) := []
  deriving DecidableEq, Repr

/-- A firmware slot in board flash (R386). -/
structure Slot where
  /-- state (19 Table 19.6) -/
  st : SlotSt := .empty
  /-- SEC_VERSION (19 Table 19.6) -/
  sec : Nat := 0
  /-- fabric version (19 Table 19.6) -/
  fab : BitVec 16 := 0
  /-- component versions (19 Table 19.3) -/
  versions : Tab Nat := []
  /-- digest of each component's manifest entry (17 Table 17.4) -/
  manifest : Tab (BitVec 384) := []
  /-- bundle as received (19 R387) -/
  image : List (BitVec 8) := []
  deriving DecidableEq, Repr

/-- Firmware and update (Table 19.6). -/
structure Upd where
  /-- PHASE (19 Table 19.6) -/
  phase : UpdPhase := .idle
  /-- HEALTH_OK (19 Table 19.6) -/
  health : Bool := false
  /-- active slot (flash) (19 Table 19.6) -/
  active : Nat := 0
  /-- code of the last operation (19 Table 19.6) -/
  code : BitVec 16 := 0
  /-- UPD_SLOT (flash) (19 Table 19.6) -/
  slots : Tab Slot := [(0, { st := .confirmed, fab := 2 })]
  /-- UPD_CONFIRM_WINDOW (19 Table 19.6) -/
  confirmWin : BitVec 64 := 600#64
  /-- UPD_TRIAL_LEFT (19 Table 19.6) -/
  left : Nat := 0
  /-- UPD_ROLLBACK (fuses) (19 Table 19.6) -/
  rollback : Nat := 0
  /-- TOTAL_LEN of BEGIN (19 R388) -/
  total : Nat := 0
  /-- bundle bytes received (19 R388) -/
  got : List (BitVec 8) := []
  /-- UPD_MBOX_BUF (19 Table 19.7) -/
  mbox : Tab (BitVec 8) := []
  /-- bundle gathered by the recovery mailbox (19 R398) -/
  mboxGot : List (BitVec 8) := []
  /-- BUSY (19 Table 19.7) -/
  mboxBusy : Bool := false
  /-- mailbox code (19 Table 19.7) -/
  mboxCode : BitVec 16 := 0
  /-- versions running, by component type (19 Table 19.1) -/
  versions : Tab Nat := []
  /-- versions kept until the trial ends (19 R394) -/
  oldVersions : Tab Nat := []
  deriving DecidableEq, Repr

/-- Self-test (Table 20.7). -/
structure Bist where
  /-- BUSY (20 R416) -/
  busy : Bool := false
  /-- ROTATING (20 R419) -/
  rotating : Bool := false
  /-- ABORTED (20 Table 20.7) -/
  aborted : Bool := false
  /-- KIND, 1 memory (20 Table 20.7) -/
  kind : Bool := false
  /-- die (20 Table 20.7) -/
  die : Nat := 0
  /-- block mask (20 Table 20.7) -/
  mask : BitVec 16 := 0
  /-- logic patterns, in units of 1,024 (20 Table 20.7) -/
  patterns : Nat := 0
  /-- code of the last command (20 Table 20.7) -/
  code : BitVec 16 := 0
  /-- done bits (20 Table 20.7) -/
  done : BitVec 16 := 0
  /-- pass bits (20 Table 20.7) -/
  pass : BitVec 16 := 0
  /-- CUR_BIST_RESULT (20 Table 20.7) -/
  result : Tab (BitVec 64) := []
  /-- step of a rotation reached (20 R419) -/
  rotPhase : Nat := 0
  deriving DecidableEq, Repr

/-- Faults and condition reports (Table 20.7). -/
structure Flt where
  /-- STANDBY_OK: a standby Curator is in service (20 Table 20.7) -/
  standby : Bool := false
  /-- die in recovery (20 Table 20.7) -/
  die : Nat := 0
  /-- step of R407 reached (20 Table 20.7) -/
  step : Nat := 0
  /-- CUR_REPLACE (flash) (20 R413) -/
  replace : BitVec 64 := 0
  /-- the die whose CE_THRESHOLD cause holds, 0 for none (20 R413) -/
  ceHolds : Nat := 0
  /-- the REFCLK_SINGLE cause holds (20 R413) -/
  refHolds : Bool := false
  /-- dies fenced as incompatible at this boot (10 R241) -/
  incompat : List Nat := []
  /-- fenced route elements (10 R233) -/
  routeFenced : List Nat := []
  /-- dies that stand in for others, oldest first: the entries of BED_SUBST and the moves of this boot (12 R262) -/
  place : List (Nat × Nat) := []
  /-- logical stacks that no tile serves after a fault (20 R415) -/
  unserved : List Nat := []
  /-- packets lost with the router of a die, until CUR_TXN_TIMEOUT (20 R410) -/
  gone : List (Nat × Packet) := []
  /-- condition-report ring of 4,096 records (flash), newest first (20 R412) -/
  reports : List (Nat × BitVec 512) := []
  /-- CUR_COND_HEAD (flash) (20 Table 20.7) -/
  head : BitVec 32 := 0
  /-- CUR_COND_LOST (flash) (20 Table 20.7) -/
  lost : BitVec 32 := 0
  /-- CUR_COND_SEL (20 Table 20.7) -/
  sel : BitVec 64 := 0
  /-- CUR_TXN_TIMEOUT (20 Table 20.7) -/
  txnTimeout : BitVec 64 := 100#64
  /-- CUR_AUTO_RETIRE (20 Table 20.7) -/
  autoRetire : BitVec 64 := 1#64
  /-- cold and warm resets since manufacture (flash) (20 Table 20.3) -/
  boots : BitVec 32 := 0
  /-- self-test (20 R416) -/
  bist : Bist := {}
  deriving DecidableEq, Repr

/-- Power, clocks and start-up (Table 21.7). -/
structure Pwr where
  /-- PWR_OK (21 R420) -/
  ok : Bool := true
  /-- PERST_N (21 R427) -/
  perstN : Bool := false
  /-- every clock but always-on stopped (21 R435) -/
  tripped : Bool := false
  /-- boot step running, 0 when start-up has ended (21 R429) -/
  bootStep : Nat := 1
  /-- the boot in progress is cold (21 R429) -/
  cold : Bool := true
  /-- ROM recovery (19 R398) -/
  recovery : Bool := false
  /-- PWR_STATE (21 Table 21.7) -/
  state : PwrState := .active
  /-- last refusal (21 Table 21.7) -/
  refusal : Nat := 0
  /-- switches since cold reset (21 Table 21.7) -/
  switches : BitVec 8 := 0
  /-- A_OK (21 Table 21.7) -/
  refA : Bool := true
  /-- B_OK (21 Table 21.7) -/
  refB : Bool := true
  /-- SELECTED (21 Table 21.7) -/
  selB : Bool := false
  /-- PWR_RESET_CAUSE (flash) (21 Table 21.7) -/
  cause : BitVec 64 := 0
  /-- PWR_BOOT_MS (21 Table 21.7) -/
  bootMs : BitVec 64 := 0
  /-- PWR_PKG_POWER (21 Table 21.7) -/
  pkgPower : BitVec 64 := 0
  /-- PWR_PKG_TEMP (21 Table 21.7) -/
  pkgTemp : BitVec 64 := 0
  /-- PWR_LIMIT (21 Table 21.7) -/
  limit : BitVec 64 := 0
  /-- UNMET (21 Table 21.7) -/
  unmet : Bool := false
  /-- highest clock allowed by the limit, MHz (21 Table 21.7) -/
  allowed : Nat := 0
  /-- PWR_TJ_THROTTLE (21 Table 21.7) -/
  tj : BitVec 64 := 100#64
  /-- BELOW_FLOOR (21 Table 21.7) -/
  below : Bool := false
  /-- THERM_N asserted (21 R435) -/
  therm : Bool := false
  /-- ALERT_N asserted (21 R434) -/
  alert : Bool := false
  /-- host requests that wait for the exit from deep rest, in order (21 R431) -/
  waiting : List Instr := []
  /-- thermal trip recorded since the last boot (flash) (21 R435) -/
  tripLog : Bool := false
  /-- hub mesh clock, MHz (21 Table 21.2) -/
  hubMesh : Nat := 0
  /-- consecutive windows in which neither throttling condition held at the hub (21 R433) -/
  hubCool : Nat := 0
  /-- sum of the windows' package power while a vitrine is active (21 R436) -/
  powerSum : Nat := 0
  /-- sum of the windows' hottest junctions while a vitrine is active (21 R436) -/
  tempSum : Nat := 0
  /-- windows summed (21 R436) -/
  windows : Nat := 0
  deriving DecidableEq, Repr

/-- A tile (Table 1.2, R19). -/
structure Tile where
  /-- eight cores (01 R19) -/
  cores : Tab Core := []
  /-- memory controller (07 Table 7.7) -/
  mem : MemCtl := {}
  /-- remote-line cache (08 Table 8.1) -/
  rlc : Cache := {}
  /-- control-processor data caches, by core (08 Table 8.1) -/
  cpc : Tab Cache := []
  /-- FAULTED (20 Table 20.8) -/
  faulted : Bool := false
  /-- ISLAND_UP (20 Table 20.8) -/
  islandUp : Bool := true
  /-- unit errors in the last 24 h (20 Table 20.8) -/
  unitErrs : Nat := 0
  /-- reason of Table 20.2 (20 Table 20.8) -/
  reason : BitVec 8 := 0
  /-- tile arithmetic clock, MHz (21 Table 21.8) -/
  arith : Nat := 0
  /-- tile mesh clock, MHz (21 Table 21.8) -/
  mesh : Nat := 0
  /-- VDD_Tn, mV (21 Table 21.8) -/
  vdd : Nat := 0
  /-- hottest junction (21 Table 21.8) -/
  hotJ : Nat := 0
  /-- hottest DRAM die (21 Table 21.8) -/
  hotD : Nat := 0
  /-- consecutive windows in which neither throttling condition held (21 R433) -/
  coolWin : Nat := 0
  /-- consecutive windows above 108 degrees C at floor (21 R434) -/
  hotWin : Nat := 0
  /-- tile or its controller below floor (21 R434) -/
  belowFloor : Bool := false
  /-- in rest (21 R430) -/
  rest : Bool := false
  /-- tile agent bank in use (19 R394) -/
  agentBank : Bool := false
  /-- QOS_URG_THRESH (11 Table 11.10) -/
  urgThresh : BitVec 64 := 0x00E6C080#64
  deriving DecidableEq, Repr

/-- The inventory registers (Table 0.2). -/
structure Inv where
  /-- INV_PRODUCT (fused) (00 Table 0.2) -/
  product : BitVec 64 := 0x01#64
  /-- INV_UNITS (fused) (00 Table 0.2) -/
  units : BitVec 64 := 0xF#64
  /-- INV_TILE_ACTIVE (fused) (00 Table 0.2) -/
  active : BitVec 64 := 0xFFFFFBD#64
  /-- INV_TILE_RESERVE (fused) (00 Table 0.2) -/
  reserve : BitVec 64 := 0x42#64
  /-- INV_TILE_FENCED (00 Table 0.2) -/
  fenced : BitVec 64 := 0
  /-- active tiles as fused (00 Table 0.2) -/
  fusedActive : BitVec 64 := 0xFFFFFBD#64
  /-- reserve tiles as fused (00 Table 0.2) -/
  fusedReserve : BitVec 64 := 0x42#64
  /-- INV_FABRIC_PORTS (fused) (00 Table 0.2) -/
  ports : BitVec 64 := 0xFFFFFFF#64
  /-- INV_GRAFT (00 Table 0.2) -/
  graft : BitVec 64 := 0
  /-- INV_HBM_BIN (fused) (00 Table 0.2) -/
  bin : BitVec 64 := 0x60#64
  /-- INV_GEN (00 Table 0.2) -/
  gen : BitVec 32 := 0
  deriving DecidableEq, Repr

/-- A post mark with the counter unit and the sender it belongs to (R69). -/
structure MarkEnt where
  /-- counter unit (03 R69) -/
  unit : CtrUnit := .disp
  /-- sending compartment (03 R69) -/
  cmpt : Nat := 0
  /-- sending rank (03 R69) -/
  rank : Nat := 0
  /-- mark (03 R69) -/
  mark : Mark := {}
  deriving DecidableEq, Repr

/-- The dispatcher's records of a placed core (R70). -/
structure Snap where
  /-- snapshot of the 64 counters (03 R70) -/
  snap : Tab (BitVec 16) := []
  /-- posts from outside since (03 R70) -/
  tally : Tab (BitVec 16) := []
  deriving DecidableEq, Repr

/-- The device (every unit the spec names), the queue of waiting commands and the model's own fields. -/
structure State where
  /-- the commands that wait, first in, first out (model's own) (model) -/
  pending : List Instr := []
  /-- serial number given out last (model's own, log 13) (model) -/
  serial : Nat := 0
  /-- counter of the free values drawn (model's own, log 4) (model) -/
  tick : Nat := 0
  /-- the seeding event of the last device reset (model's own, log 4) (02 R41) -/
  bootDraw : Nat := 0
  /-- what has left the device: entries, events, messages, frames, oldest first (model's own, log 8) (model) -/
  out : List Out := []
  /-- inventory registers (00 R5) -/
  inv : Inv := {}
  /-- stacks, core stores and core scratch by physical address (07 R168) -/
  mem : List Host.Cell := []
  /-- poisoned sectors (stack sectors and core-store sectors) by physical address / 32, rising (07 R177) -/
  poison : List Nat := []
  /-- tiles, dies 1 to 28 (00 R13) -/
  tiles : Tab Tile := []
  /-- logical stacks 0 to 31 (05 R114) -/
  stk : Tab Stack := []
  /-- compartments 0 to 63 with their functions (13 R278) -/
  cmpts : Tab Cmpt := []
  /-- 512 dispatcher counters (03 R67) -/
  dispCnt : Tab (BitVec 16) := []
  /-- post marks of every counter unit (03 R69) -/
  marks : List MarkEnt := []
  /-- snapshots and tallies, by 8 * die + core (03 R70) -/
  snaps : Tab Snap := []
  /-- HUB_TKN_STALL_LIMIT (03 Table 3.7) -/
  stallLimit : BitVec 64 := 1000000#64
  /-- posts on the mesh, in the order issued (03 R65) -/
  posts : List PostMsg := []
  /-- withdrawals running (09 R221) -/
  unmaps : List Unmap := []
  /-- coherence messages on the mesh (08 Table 8.2) -/
  coh : List CohMsg := []
  /-- hub system cache (08 Table 8.1) -/
  sc : Cache := {}
  /-- lines the gate holds for G0 to G3, by site (08 R202) -/
  graftCaches : Tab Cache := []
  /-- the hub as home of host-backed lines (08 R188) -/
  hubHome : Stack := {}
  /-- REBUILD requests, stripe reads and replies on the mesh (07 R182) -/
  stripes : List StripeMsg := []
  /-- guarded areas: members, base B, length L (12 R263) -/
  guarded : Tab (List Nat × Nat × Nat) := []
  /-- routers of dies 0 to 28 (10 R223) -/
  routers : Tab Router := []
  /-- packets sent and not yet accepted: the receiving die, its port, the packet; those of one link are its sender's flits kept until the receiver accepts them (10 R224) -/
  wires : List (Nat × Nat × Packet) := []
  /-- packets sent to the Curator as a fault of their source (10 R225) -/
  lost : List Packet := []
  /-- base route entries by router, then destination (12 R264) -/
  base : Tab (Tab (BitVec 16)) := []
  /-- detour sets: element, then entries by router and destination (12 R264) -/
  detours : Tab (Nat × List (Nat × Nat × BitVec 16)) := []
  /-- regulators, by 32 * die + master index (11 R245) -/
  masters : Tab Master := []
  /-- deadline registers, by 8 * boundary code + class (11 R251) -/
  deadlines : Tab Deadline := []
  /-- QOS_URG_THRESH of the hub (11 Table 11.10) -/
  urgHub : BitVec 64 := 0x00E6C080#64
  /-- CMPTS of each class (12 Table 12.5) -/
  clsCmpts : Tab (BitVec 64) := []
  /-- KIND of each class (12 Table 12.5) -/
  clsKind : Tab Nat := []
  /-- endpoint (14 R289) -/
  pci : Pci := {}
  /-- storage root port (14 R303) -/
  sto : Storage := {}
  /-- bed plan (12 Table 12.9) -/
  bed : Bed := {}
  /-- fabric (15 R314) -/
  fab : Fabric := {}
  /-- graft sites G0 to G3 (16 R338) -/
  sites : Tab Site := []
  /-- confidential operation (17 R365) -/
  conf : Conf := {}
  /-- authority, life cycle, debug (18 R368) -/
  auth : Auth := {}
  /-- firmware update (19 R388) -/
  upd : Upd := {}
  /-- faults (20 R400) -/
  flt : Flt := {}
  /-- power (21 R429) -/
  pwr : Pwr := {}
  deriving DecidableEq, Repr

/-- The device right after a cold reset has begun: PWR_OK has risen and boot step 1 runs (R427, R429). Fused values are those of an EH3326-F of revision A0 with reserves at dies 2 and 7 (log 3). -/
def State.reset : State := { routers := (List.range 29).map (fun d => (d, { idType := if d = 0 then 1 else 2 })) }

end Sys2Proof.Machine
end

