-- ==== Sys2Proof/Machine/Ops.lean ====
section
/-! DEFINITION. The shared operations: tables, bits and bytes, memory and poison, access to the units, gates, free values, events, interrupts, condition reports, token counters and posts. -/

namespace Sys2Proof

/-- The entry of a table, or `d` where it holds none. -/
def Tab.look {α : Type} : Tab α → Nat → α → α
  | [], _, d => d
  | (k', v) :: t, k, d => if k' = k then v else if k < k' then d else Tab.look t k d

/-- A table with entry `k` set. -/
def Tab.put {α : Type} : Tab α → Nat → α → Tab α
  | [], k, v => [(k, v)]
  | (k', v') :: t, k, v =>
    if k < k' then (k, v) :: (k', v') :: t
    else if k = k' then (k, v) :: t
    else (k', v') :: Tab.put t k v

/-- A table without entry `k`. -/
def Tab.del {α : Type} (t : Tab α) (k : Nat) : Tab α := t.filter (fun e => e.1 != k)

/-- Whether a table holds an entry. -/
def Tab.has {α : Type} (t : Tab α) (k : Nat) : Bool := t.any (fun e => e.1 == k)

/-- The keys of a table. -/
def Tab.keys {α : Type} (t : Tab α) : List Nat := t.map (·.1)

/-- Every entry changed by `f`. -/
def Tab.each {α : Type} (t : Tab α) (f : Nat → α → α) : Tab α := t.map (fun e => (e.1, f e.1 e.2))

/-- The list with element `n` replaced by `f` of it. -/
def modNth {α : Type} : List α → Nat → (α → α) → List α
  | [], _, _ => []
  | x :: t, 0, f => f x :: t
  | x :: t, n + 1, f => x :: modNth t n f

/-- The position of the first element that meets `p`. -/
def findPos {α : Type} (p : α → Bool) : List α → Option Nat
  | [] => none
  | x :: t => if p x then some 0 else (findPos p t).map (· + 1)

namespace Machine

/-! ### Bits and bytes (R7) -/

/-- Field [hi:lo] as a number. -/
def bits {n : Nat} (x : BitVec n) (hi lo : Nat) : Nat := (x.toNat >>> lo) % 2 ^ (hi + 1 - lo)

/-- Bit `i`. -/
def bit {n : Nat} (x : BitVec n) (i : Nat) : Bool := x.getLsbD i

/-- Field [hi:lo] of a number. -/
def nbits (x hi lo : Nat) : Nat := (x >>> lo) % 2 ^ (hi + 1 - lo)

/-- A truth value as a number. -/
def b2n (b : Bool) : Nat := if b then 1 else 0

/-- `n` bytes of a number, little-endian. -/
def leBytes : Nat → Nat → List Byte
  | 0, _ => []
  | n + 1, v => BitVec.ofNat 8 v :: leBytes n (v / 256)

/-- The number that bytes spell, little-endian. -/
def ofLe : List Byte → Nat
  | [] => 0
  | b :: t => b.toNat + 256 * ofLe t

/-- Bytes `lo` to `lo + n - 1` of a list as a number; bytes beyond its end are zero. -/
def fieldAt (l : List Byte) (lo n : Nat) : Nat := ofLe ((l.drop lo).take n)

/-- The bytes of a bit vector. -/
def bvBytes {w : Nat} (x : BitVec w) : List Byte := leBytes (w / 8) x.toNat

/-- A list cut or padded with zeros to `n` bytes. -/
def padTo (n : Nat) (l : List Byte) : List Byte := (l ++ List.replicate (n - l.length) 0).take n

/-- A counter that saturates at 2^w - 1. -/
def satAdd {w : Nat} (x : BitVec w) (n : Nat) : BitVec w := BitVec.ofNat w (min (x.toNat + n) (2 ^ w - 1))

/-- `n` rounded up to a multiple of `m`. -/
def roundUp (n m : Nat) : Nat := (n + m - 1) / m * m

/-- The first element that meets `p` changed by `f`. -/
def modFirst {α : Type} (p : α → Bool) (f : α → α) : List α → List α
  | [] => []
  | x :: t => if p x then f x :: t else x :: modFirst p f t

/-- Set bit `i` of a 64-bit register to `b`. -/
def setBit {n : Nat} (x : BitVec n) (i : Nat) (b : Bool) : BitVec n :=
  if b then x ||| BitVec.ofNat n (2 ^ i) else x &&& ~~~ BitVec.ofNat n (2 ^ i)

/-- Whether two byte ranges meet. -/
def meets (a n b m : Nat) : Bool := n != 0 && m != 0 && decide (a < b + m) && decide (b < a + n)

/-- Whether a list of bytes is all zero. -/
def allZero (l : List Byte) : Bool := l.all (· == 0)

/-! ### Memory (R168): rising addresses, a byte that is not listed reads zero (R427) -/

/-- A byte of memory. -/
def memGet : List Host.Cell → Nat → Byte
  | [], _ => 0
  | (k, v) :: t, a => if k = a then v else if a < k then 0 else memGet t a

/-- Memory with one byte written; zero is not listed. -/
def memPut : List Host.Cell → Nat → Byte → List Host.Cell
  | [], a, b => if b = 0 then [] else [(a, b)]
  | (k, v) :: t, a, b =>
    if a < k then (if b = 0 then (k, v) :: t else (a, b) :: (k, v) :: t)
    else if a = k then (if b = 0 then t else (a, b) :: t)
    else (k, v) :: memPut t a b

/-- Whether every address of a list lies above `a` and rises. -/
def risingFrom : Nat → List Host.Cell → Bool
  | _, [] => true
  | a, (k, v) :: t => decide (a ≤ k) && (v != 0) && risingFrom (k + 1) t

/-- The canonical form of memory: addresses strictly rising and no zero listed. -/
def memWf (m : List Host.Cell) : Bool := risingFrom 0 m

/-- Bytes written from address `a` upwards. -/
def memPuts : List Host.Cell → Nat → List Byte → List Host.Cell
  | m, _, [] => m
  | m, a, b :: t => memPuts (memPut m a b) (a + 1) t

/-- `n` bytes read from address `a` upwards. -/
def memGets (m : List Host.Cell) : Nat → Nat → List Byte
  | _, 0 => []
  | a, n + 1 => memGet m a :: memGets m (a + 1) n

/-- A number inserted in a rising list. -/
def insNat : List Nat → Nat → List Nat
  | [], a => [a]
  | k :: t, a => if a < k then a :: k :: t else if a = k then k :: t else k :: insNat t a

/-- A sector marked poisoned or clean (R177). -/
def setPois (p : List Nat) (sec : Nat) (b : Bool) : List Nat := if b then insNat p sec else p.filter (· != sec)

/-- `n` bytes of physical memory. -/
def State.rd (s : State) (a n : Nat) : List Byte := memGets s.mem a n

/-- Whether a sector is poisoned. -/
def State.secPois (s : State) (sec : Nat) : Bool := s.poison.contains sec

/-- The sector numbers that `n` bytes from `a` touch. -/
def sectors (a n : Nat) : List Nat := if n = 0 then [] else (List.range ((a + n - 1) / 32 - a / 32 + 1)).map (· + a / 32)

/-- Whether any sector of a range is poisoned. -/
def State.pois (s : State) (a n : Nat) : Bool := (sectors a n).any s.secPois

/-- One sector written poisoned: zero data with the poison mark (R177). -/
def State.poisonSec (s : State) (sec : Nat) : State :=
  { s with mem := memPuts s.mem (32 * sec) (List.replicate 32 0), poison := setPois s.poison sec true }

/-- Bytes written within one sector: a whole sector clears poison, a part of a poisoned sector leaves it poisoned (R177). -/
def State.wrSec (s : State) (a : Nat) (l : List Byte) : State :=
  if l.length = 32 then { s with mem := memPuts s.mem a l, poison := setPois s.poison (a / 32) false }
  else if s.secPois (a / 32) then s
  else { s with mem := memPuts s.mem a l }

/-- Bytes written from `a`, sector by sector. -/
def State.wrGo : Nat → State → Nat → List Byte → State
  | 0, s, _, _ => s
  | fuel + 1, s, a, l =>
    if l.isEmpty then s
    else
      let n := min l.length (32 - a % 32)
      State.wrGo fuel (s.wrSec a (l.take n)) (a + n) (l.drop n)

/-- Bytes written to physical memory with the sector rules of R171 and R177. -/
def State.wr (s : State) (a : Nat) (l : List Byte) : State := State.wrGo (l.length + 1) s a l

/-- Whether writing `n` bytes at `a` meets a poisoned sector only in part (R177). -/
def State.partPois (s : State) (a n : Nat) : Bool :=
  (sectors a n).any (fun sec => s.secPois sec && !(decide (a ≤ 32 * sec) && decide (32 * sec + 32 ≤ a + n)))

/-- The sectors of a range marked poisoned. -/
def State.poisonRange (s : State) (a n : Nat) : State := (sectors a n).foldl State.poisonSec s

/-- Physical base of a logical stack (Table 7.3). -/
def lsBase (ls : Nat) : Nat := ls * 0x8_0000_0000

/-- Physical base of a core's store (Table 7.3). -/
def storeBase (die core : Nat) : Nat := 0x0200_0000_0000 + die * 0x0800_0000 + core * 0x0100_0000

/-- Physical base of a core's scratch (Table 7.3). -/
def scratchBase (die core : Nat) : Nat := storeBase die core + 0x0080_0000

/-! ### Units -/

/-- The dies that can be tiles. -/
def isTileDie (d : Nat) : Bool := decide (1 ≤ d) && decide (d ≤ 28)

def State.tile (s : State) (d : Nat) : Tile := s.tiles.look d {}

def State.modTile (s : State) (d : Nat) (f : Tile → Tile) : State :=
  if isTileDie d then { s with tiles := s.tiles.put d (f (s.tile d)) } else s

def State.core (s : State) (d i : Nat) : Core := (s.tile d).cores.look i {}

def State.modCore (s : State) (d i : Nat) (f : Core → Core) : State :=
  if i < 8 then s.modTile d (fun t => { t with cores := t.cores.put i (f (t.cores.look i {})) }) else s

def State.modMem (s : State) (d : Nat) (f : MemCtl → MemCtl) : State := s.modTile d (fun t => { t with mem := f t.mem })

def State.stack (s : State) (l : Nat) : Stack := s.stk.look l {}

def State.modStack (s : State) (l : Nat) (f : Stack → Stack) : State :=
  if l < 32 then { s with stk := s.stk.put l (f (s.stack l)) } else s

def State.cmpt (s : State) (c : Nat) : Cmpt := s.cmpts.look c {}

def State.modCmpt (s : State) (c : Nat) (f : Cmpt → Cmpt) : State :=
  if c < 64 then { s with cmpts := s.cmpts.put c (f (s.cmpt c)) } else s

def State.router (s : State) (d : Nat) : Router := s.routers.look d {}

def State.modRouter (s : State) (d : Nat) (f : Router → Router) : State :=
  if d ≤ 28 then { s with routers := s.routers.put d (f (s.router d)) } else s

def State.site (s : State) (k : Nat) : Site := s.sites.look k {}

/-- A master's regulator. -/
def State.master (s : State) (die m : Nat) : Master := s.masters.look (32 * die + m) {}

def State.modMaster (s : State) (die m : Nat) (f : Master → Master) : State :=
  if die ≤ 28 ∧ m < 17 + 1 then { s with masters := s.masters.put (32 * die + m) (f (s.master die m)) } else s

def State.modSite (s : State) (k : Nat) (f : Site → Site) : State :=
  if k < 4 then { s with sites := s.sites.put k (f (s.site k)) } else s

def State.fport (s : State) (p : Nat) : FabPort := s.fab.ports.look p {}

def State.modFport (s : State) (p : Nat) (f : FabPort → FabPort) : State :=
  if p < 28 then { s with fab := { s.fab with ports := s.fab.ports.put p (f (s.fport p)) } } else s

def State.drive (s : State) (d : Nat) : Drive := s.sto.drives.look d {}

def State.modDrive (s : State) (d : Nat) (f : Drive → Drive) : State :=
  if d < 4 then { s with sto := { s.sto with drives := s.sto.drives.put d (f (s.drive d)) } } else s

def Core.queue (c : Core) (q : Nat) : List QEntry := c.queues.look q []

def Core.setQueue (c : Core) (q : Nat) (l : List QEntry) : Core := { c with queues := c.queues.put q l }

def Stack.queue (t : Stack) (c k : Nat) : List SsuCmd := t.queues.look (4 * c + k) []

def Stack.setQueue (t : Stack) (c k : Nat) (l : List SsuCmd) : Stack := { t with queues := t.queues.put (4 * c + k) l }

def Cmpt.ring (c : Cmpt) (k : Nat) : SubRing := c.sq.look k {}

def State.modRing (s : State) (c k : Nat) (f : SubRing → SubRing) : State :=
  if k < 4 then s.modCmpt c (fun x => { x with sq := x.sq.put k (f (x.ring k)) }) else s

/-- A transaction of a graft site's gate has had its answer: the gate's regulator (master 4 + k of the hub) has one less outstanding (R245, R345). -/
def State.gateEnd (s : State) (die line : Nat) : State :=
  if die < 29 then s
  else
    let k := die - 29
    match (s.site k).txns.find? (fun t => t.1 == line) with
    | some t =>
      let m : Master := s.masters.look (4 + k) {}
      let c : RegClass := m.classes.look t.2 {}
      { s.modSite k (fun x => { x with txns := x.txns.erase t, winBusy := x.winBusy.erase t }) with masters := s.masters.put (4 + k) { m with classes := m.classes.put t.2 { c with out := c.out - 1 } } }
    | none => s

/-- Something that leaves the device. -/
def State.emit (s : State) (o : Out) : State := { s with out := s.out ++ [o] }

/-- The next serial number. -/
def State.nextSerial (s : State) : Nat × State := (s.serial, { s with serial := s.serial + 1 })

/-- A fresh value the spec leaves open (log 4). -/
def State.draw (s : State) : Nat × State := (Config.free s.tick, { s with tick := s.tick + 1 })

/-! ### Gates -/

/-- What a command answers. -/
abbrev Res := Host.Outcome State Fault Refusal

/-- The device is powered and its clocks run (R420, R435). -/
def State.isOn (s : State) : Bool := s.pwr.ok && !s.pwr.tripped

/-- The device has finished start-up (R429) and no life-cycle transition stops it (R378). -/
def State.isUp (s : State) : Bool := s.isOn && s.pwr.bootStep == 0 && s.auth.lcStep == 0 && !s.pwr.recovery

/-- A command that the device takes only while it is up. -/
def upDo (s : State) (f : State → State) : Res := .next (if s.isUp then f s else s)

/-- A command that the device takes while it is powered. -/
def onDo (s : State) (f : State → State) : Res := .next (if s.isOn then f s else s)

/-! ### Compartments -/

/-- The state of a compartment; the PF reads READY at all times (Table 13.4). -/
def State.cstate (s : State) (c : Nat) : CState := if c = 0 then .ready else (s.cmpt c).state

/-- Whether a compartment is a vitrine (MODE[0], Table 12.4). -/
def Cmpt.vitrine (c : Cmpt) : Bool := match c.plan with | some r => bit r.mode 0 | none => false

/-- ROLE of a compartment: 1 joint, 2 party (MODE[3:2], Table 12.4). -/
def Cmpt.role (c : Cmpt) : Nat := match c.plan with | some r => bits r.mode 3 2 | none => 0

/-- A joint or party compartment, whose DETAIL is written as zero (Table 17.8). -/
def State.sealedDetail (s : State) (c : Nat) : Bool := (s.cmpt c).vitrine && ((s.cmpt c).role == 1 || (s.cmpt c).role == 2)

/-- Whether any vitrine is active (R354). -/
def State.anyActive (s : State) : Bool := s.cmpts.any (fun e => e.2.active)

/-- MSI-X vectors of a function (R280, Table 13.1). -/
def State.nvec (s : State) (fn : Nat) : Nat := if fn = 0 then 64 else match (s.cmpt fn).plan with | some r => min r.vectors 32 | none => 0

/-- Placement ranks of a compartment. -/
def State.nranks (s : State) (c : Nat) : Nat := match (s.cmpt c).plan with | some r => r.ranks.length | none => 0

/-- The die that serves in the place of a die the plan names: each promotion and move so far has put one die in another's place (R262, R407, R409). -/
def State.substDie (s : State) (d : Nat) : Nat := s.flt.place.foldl (fun d e => if d = e.1 then e.2 else d) d

/-- The die and core of a placement rank (Table 12.4: RANK bytes [7:3] die, [2:0] core). -/
def State.rankCore (s : State) (c r : Nat) : Option (Nat × Nat) :=
  match (s.cmpt c).plan with
  | some p => p.ranks[r]?.map (fun b => (s.substDie (b.toNat / 8), b.toNat % 8))
  | none => none

/-- The compartment and rank placed on a core. -/
def State.placed (s : State) (d i : Nat) : Option (Nat × Nat) :=
  s.cmpts.findSome? (fun e =>
    match (List.range (s.nranks e.1)).find? (fun r => s.rankCore e.1 r == some (d, i)) with
    | some r => some (e.1, r)
    | none => none)

/-- The compartment a core works for. -/
def State.coreCmpt (s : State) (d i : Nat) : Nat := match (s.core d i).run with | some r => r.cmpt | none => match s.placed d i with | some p => p.1 | none => 0

/-- Site-window entries that name a compartment cleared, those that open slots still use among them (R349). -/
def State.clearWins (s : State) (c : Nat) : State :=
  let keep (w : Tab (BitVec 128)) : Tab (BitVec 128) := w.filter (fun e => bits e.2 60 55 != c)
  { s with sites := s.sites.each (fun _ x => { x with wins := keep x.wins, slots := x.slots.map (fun g => { g with wins := keep g.wins }) }) }

/-! ### Interrupts, events and condition reports -/

/-- Whether the requests that the device issues for a function carry T = 1: its TDI is in RUN (R361). -/
def State.tBit (s : State) (fn : Nat) : Bool := (s.cmpt fn).tdi == .run

/-- A vector raised: a message, or its pending bit while a mask or a cleared enable holds it (R281). -/
def State.raise (s : State) (fn v : Nat) : State :=
  let c := s.cmpt fn
  if s.cstate fn = .fallow ∨ ¬ v < s.nvec fn then s
  else
    let e := c.msix.look v {}
    if e.mask || !c.msixEn || c.fmask then s.modCmpt fn (fun x => { x with pba := insNat x.pba v })
    else s.emit (.msix fn v e.addr e.data (s.tBit fn))

/-- Ring size, from LOG2_SIZE. -/
def ringSize (ctrl : BitVec 64) : Nat := 2 ^ bits ctrl 4 0

/-- ENABLE. -/
def ringOn (ctrl : BitVec 64) : Bool := bit ctrl 8

/-- Entries between head and tail. -/
def ringUsed (ctrl : BitVec 64) (head tail : Nat) : Nat := (tail + ringSize ctrl - head) % ringSize ctrl

/-- Free entries of the completion or event ring; none while it is not enabled (R72, R75). -/
def DevRing.free (r : DevRing) : Nat := if ringOn r.ctrl then ringSize r.ctrl - 1 - ringUsed r.ctrl r.head r.tail else 0

/-- The ring after the device has written one entry: the phase inverts at each wrap (R75). -/
def DevRing.advance (r : DevRing) : DevRing :=
  let t := (r.tail + 1) % ringSize r.ctrl
  { r with tail := t, phase := if t = 0 then !r.phase else r.phase }

/-- An event entry (Table 3.11, R180). -/
def eventEntry (code : Nat) (phase : Bool) (src : Nat) (detail : BitVec 64) (extra : Nat) : BitVec 256 :=
  BitVec.ofNat 256 (code % 65536 + 2 ^ 16 * b2n phase + 2 ^ 32 * (src % 2 ^ 32) + 2 ^ 64 * detail.toNat + 2 ^ 128 * (extra % 2 ^ 32))

/-- An event written to a compartment's event ring (the PF's for 0), or dropped and counted (R75, R281). -/
def State.eventX (s : State) (fn code src : Nat) (detail : BitVec 64) (extra : Nat) : State :=
  let c := s.cmpt fn
  if s.cstate fn = .fallow then s
  else if c.eq.free = 0 then s.modCmpt fn (fun x => { x with eqLost := satAdd x.eqLost 1 })
  else
    let d := if s.sealedDetail fn then 0 else detail
    let s := s.emit (.ringEntry fn (bits c.eq.base 63 12 * 4096 + 32 * c.eq.tail) (eventEntry code c.eq.phase src d extra) (s.tBit fn))
    let s := s.modCmpt fn (fun x => { x with eq := x.eq.advance })
    if bit c.eqVector 8 then s.raise fn (bits c.eqVector 5 0) else s

/-- An event with no bytes beyond its detail. -/
def State.event (s : State) (fn code src : Nat) (detail : BitVec 64) : State := s.eventX fn code src detail 0

/-- A condition report (Table 20.3): CODE, REASON, DIE, UNIT, LSTACK, COUNT, OFFSET, LENGTH, DETAIL. TIME is an open value (log 4); the CRC is added where the record is read (condRecord). -/
def State.report (s : State) (code reason die unit lstack count off len : Nat) (detail : BitVec 64) : State :=
  let (t, s) := s.draw
  let n := (s.flt.head.toNat + 1) % 2 ^ 32
  let w := n + 2 ^ 32 * (code % 65536) + 2 ^ 48 * (reason % 256) + 2 ^ 64 * s.flt.boots.toNat + 2 ^ 128 * (t % 2 ^ 64)
    + 2 ^ 192 * (die % 256) + 2 ^ 200 * (unit % 256) + 2 ^ 208 * (lstack % 256) + 2 ^ 224 * (count % 2 ^ 32)
    + 2 ^ 256 * (off % 2 ^ 64) + 2 ^ 320 * (len % 2 ^ 64) + 2 ^ 384 * detail.toNat
  { s with flt := { s.flt with
      head := BitVec.ofNat 32 n
      lost := if s.flt.reports.length < 4096 then s.flt.lost else satAdd s.flt.lost 1
      reports := ((n, BitVec.ofNat 512 w) :: s.flt.reports).take 4096 } }

/-- A replacement cause (R413): its bit, an ALERT frame on every open management session and an event to the PF. -/
def State.replaceCause (s : State) (b : Nat) : State :=
  let r := setBit s.flt.replace b true
  let s := { s with flt := { s.flt with replace := r } }
  let s := s.auth.sessions.foldl (fun s m => s.emit (.frame m.id 0x0080 0 (leBytes 8 r.toNat))) s
  s.event 0 0x00C1 0 r

/-- The inventory as its registers read: a tile bit is set in at most one of the three bitmaps, so a fenced tile leaves the active and reserve ones (Table 0.2). -/
def Inv.seen (i : Inv) : Inv := { i with active := i.active &&& ~~~i.fenced, reserve := i.reserve &&& ~~~i.fenced, gen := 0 }

/-- The inventory changed: INV_GEN rises by one when a register other than it reads differently (R6). -/
def State.setInv (s : State) (i : Inv) : State :=
  { s with inv := { i with gen := if i.seen = s.inv.seen then s.inv.gen else s.inv.gen + 1 } }

/-- Bit `die - 1` of an inventory mask. -/
def invBit (m : BitVec 64) (die : Nat) : Bool := decide (1 ≤ die) && bit m (die - 1)

/-- INV_TILE_ACTIVE as it reads: a tile bit is set in at most one of the three bitmaps, so a fenced tile leaves it (Table 0.2). -/
def State.invActive (s : State) : BitVec 64 := s.inv.active &&& ~~~s.inv.fenced

/-- INV_TILE_RESERVE as it reads: a fenced reserve leaves it (Table 0.2). -/
def State.invReserve (s : State) : BitVec 64 := s.inv.reserve &&& ~~~s.inv.fenced

/-- An error signalled to the host and logged in the function's AER (R302). -/
def State.aerLog (s : State) (fn : Nat) (e : AerErr) : State :=
  (s.modCmpt fn (fun c => { c with aer := c.aer ++ [e] })).emit (.error fn e)

/-- A refusal by port authority: counted (CUR_PORT_DENIED) and reported in the port's form (R369). -/
def State.portDenied (s : State) (p : Port) (off : Nat) : State :=
  let i := match p with | .pf => 0 | .vf _ => 1 | .mgmt => 2 | .i3c => 3 | .jtag => 4
  let s := { s with auth := { s.auth with denied := s.auth.denied.put i (satAdd (s.auth.denied.look i 0) 1) } }
  match p with
  | .pf => s.event 0 0x7001 0 (BitVec.ofNat 64 off)
  | .vf n => s.event n 0x7001 0 (BitVec.ofNat 64 off)
  | .mgmt => s.emit (.frame 0 0x0011 0x7001 [])
  | .i3c => s.emit (.read .i3c off 0x7001)
  | .jtag => { s with auth := { s.auth with jtagStatus := 0x7001 } }

/-! ### Token counters (R63 to R71) -/

/-- A wait for `v` on a counter holding `c` is met (R64). -/
def waitMet (c v : BitVec 16) : Bool := decide ((c - v).toNat < 32768)

/-- A counter of a counter unit. -/
def State.counter (s : State) (u : CtrUnit) (i : Nat) : BitVec 16 :=
  match u with
  | .core d c => (s.core d c).cnt.look i 0
  | .ssu l => (s.stack l).cnt.look i 0
  | .disp => s.dispCnt.look i 0

/-- Number of counters of a unit. -/
def ctrCount : CtrUnit → Nat
  | .core _ _ => 64
  | .ssu _ => 256
  | .disp => 512

/-- A COR_WAIT store of the core whose condition now holds retires (R64). -/
def Core.recheck (c : Core) : Core :=
  match c.corWait with
  | some w => if waitMet (c.cnt.look (bits w 5 0) 0) (BitVec.ofNat 16 (bits w 31 16)) then { c with corWait := none, waitAge := 0, waitReported := false } else c
  | none => c

/-! Descriptor fields that waits read (Tables 3.9 and 5.2) -/

/-- Bytes `lo` to `lo + n - 1` of a 128-byte descriptor as a number. -/
def dfield (b : BitVec 1024) (lo n : Nat) : Nat := bits b (8 * (lo + n) - 1) (8 * lo)

/-- The two wait words. -/
def dwait (b : BitVec 1024) (k : Nat) : BitVec 32 := BitVec.ofNat 32 (dfield b (8 + 4 * k) 4)

/-- The two post fields. -/
def dpost (b : BitVec 1024) (k : Nat) : BitVec 64 := BitVec.ofNat 64 (dfield b (16 + 8 * k) 8)

/-- SSU_WAIT. -/
def dssuWait (b : BitVec 1024) : BitVec 32 := BitVec.ofNat 32 (dfield b 36 4)

/-- Whether a wait of a value on counter `n` is met by the value `old` that counter `i` held or the value `new` it takes (R64). -/
def latches (i n : Nat) (value : Nat) (old new : BitVec 16) : Bool :=
  i == n && (waitMet old (BitVec.ofNat 16 value) || waitMet new (BitVec.ofNat 16 value))

/-- The waits of the first unissued commands of a core's queues, at a change of counter `i` (R64). -/
def Core.latch (x : Core) (i : Nat) (old new : BitVec 16) : Core :=
  { x with queues := x.queues.each (fun _ l => modFirst (fun e => e.st == .waiting)
      (fun e => if latches i (bits e.word 15 10) (bits e.word 31 16) old new then { e with met := true } else e) l) }

/-- The waits of the head commands of a stack's queues, at a change of SSU counter `i` (R64). -/
def Stack.latch (x : Stack) (i : Nat) (old new : BitVec 16) : Stack :=
  { x with queues := x.queues.each (fun _ l => modNth l 0
      (fun e => if latches i (bits (dssuWait e.bytes) 7 0) (bits (dssuWait e.bytes) 31 16) old new then { e with met := true } else e)) }

/-- The waits of the first waiting descriptor of a ring, at a change of dispatcher counter `i` (R64). -/
def SubRing.latch (r : SubRing) (i : Nat) (old new : BitVec 16) : SubRing :=
  let on (d : Desc) (k : Nat) : Bool := latches i (bits (dwait d.bytes k) 8 0) (bits (dwait d.bytes k) 31 16) old new
  { r with descs := modFirst (fun d => d.st == .waiting) (fun d => { d with met0 := d.met0 || on d 0, met1 := d.met1 || on d 1 }) r.descs }

/-- A counter set to a value. Every wait pending on it is re-evaluated: those of the commands and descriptors that come first in their queues and rings are marked met when the old or the new value meets them, so that they proceed whatever the counter does next (R64, log 46). -/
def State.setCounter (s : State) (u : CtrUnit) (i : Nat) (v : BitVec 16) : State :=
  if i < ctrCount u then
    match u with
    | .core d c => s.modCore d c (fun x => Core.recheck { x.latch i (x.cnt.look i 0) v with cnt := x.cnt.put i v })
    | .ssu l => s.modStack l (fun x => { x.latch i (x.cnt.look i 0) v with cnt := x.cnt.put i v })
    | .disp =>
      { s with
        dispCnt := s.dispCnt.put i v
        cmpts := s.cmpts.each (fun _ m => { m with sq := m.sq.each (fun _ r => r.latch i (s.dispCnt.look i 0) v) }) }
  else s

/-- A post's increment added modulo 2^16 (R63). -/
def State.addCounter (s : State) (u : CtrUnit) (i inc : Nat) : State := s.setCounter u i (s.counter u i + BitVec.ofNat 16 inc)

/-- Fields of a post word (Table 3.6). -/
def pwKind (w : BitVec 32) : Nat := bits w 31 30
def pwTarget (w : BitVec 32) : Nat := bits w 29 22
def pwInc (w : BitVec 32) : Nat := bits w 21 14
def pwCounter (w : BitVec 32) : Nat := bits w 8 0

/-- The reserved bits of a post word are zero (R67). -/
def pwFormat (w : BitVec 32) : Bool := bits w 13 9 == 0 && (pwKind w != 2 || pwTarget w == 0)

/-- Whether SSU counter `i` of a stack is allotted to compartment `m` (SSU_QALLOT). -/
def State.ssuAllotted (s : State) (l m i : Nat) : Bool :=
  let a := (s.stack l).allot.look m 0
  decide (bits a 23 16 ≤ i) && decide (i < bits a 23 16 + bits a 31 24)

/-- The compartments whose counters compartment `n` may post to: its own and those CTR_GRANT sets (R67). -/
def State.granted (s : State) (n m : Nat) : Bool :=
  n == m || match (s.cmpt n).plan with | some r => decide (m < 64) && bit r.ctrGrant m | none => false

/-- The owner of an SSU counter. -/
def State.ssuOwner (s : State) (l i : Nat) : Option Nat := (List.range 64).find? (fun m => s.ssuAllotted l m i)

/-- A logical stack a tile serves or the plan populates. -/
def State.served (s : State) (l : Nat) : Bool := decide (l < 32) && (s.stack l).die != 0

/-- A post word of KIND 0b00, 0b01 or 0b10 names a counter that compartment `n` may post to (R67, R280). -/
def State.postOk (s : State) (n : Nat) (w : BitVec 32) : Bool :=
  match pwKind w with
  | 0 => decide (pwTarget w < s.nranks n) && decide (pwCounter w < 64)
  | 1 => s.served (pwTarget w) && decide (pwCounter w < 256) &&
      (if n = 0 then (s.ssuOwner (pwTarget w) (pwCounter w)).isNone
       else match s.ssuOwner (pwTarget w) (pwCounter w) with | some m => s.granted n m | none => false)
  | 2 => decide (pwCounter w < 512) && s.granted n (pwCounter w / 8)
  | _ => false

/-- A post of a core's command is allowed, a COR_RPT entry included (R67, R68, R364). -/
def State.corePostOk (s : State) (d i n : Nat) (w : BitVec 32) : Bool :=
  if pwKind w = 3 then
    let e := (s.core d i).rpt.look (pwTarget w) 0
    decide (pwTarget w < 16) && bit e 63 && pwKind (BitVec.ofNat 32 (bits e 47 16)) != 3
      && !((s.cmpt n).vitrine && ((s.cmpt n).role == 1 || (s.cmpt n).role == 2))
  else s.postOk n w

/-- The compartment whose counter a post word of compartment `n` names. -/
def State.postOwner (s : State) (n : Nat) (w : BitVec 32) : Nat :=
  match pwKind w with
  | 0 => n
  | 1 => (s.ssuOwner (pwTarget w) (pwCounter w)).getD 0
  | _ => pwCounter w / 8

/-- COMPARTMENT_FALLOW or CMPT_UNDEFINED when a granted post finds its compartment fallow or undefined (R286). -/
def State.postFate (s : State) (n : Nat) (w : BitVec 32) : BitVec 16 :=
  if s.postOwner n w = n then 0
  else match s.cstate (s.postOwner n w) with
    | .ready => 0
    | .fallow => 0x9001
    | .undef => 0x9002

/-- The counter unit a post word of compartment `n` names. -/
def State.postUnit (s : State) (n : Nat) (w : BitVec 32) : Option CtrUnit :=
  match pwKind w with
  | 0 => (s.rankCore n (pwTarget w)).map (fun p => .core p.1 p.2)
  | 1 => some (.ssu (pwTarget w))
  | 2 => some .disp
  | _ => none

/-- The compartment that holds a unit's counter `i`. -/
def State.ctrOwner (s : State) (u : CtrUnit) (i : Nat) : Nat :=
  match u with
  | .core d c => match s.placed d c with | some p => p.1 | none => 0
  | .ssu l => (s.ssuOwner l i).getD 0
  | .disp => i / 8

/-- The tally of a post that reached a core's counter from outside the core (R70). -/
def State.tally (s : State) (d c i inc : Nat) : State :=
  let n := s.snaps.look (8 * d + c) {}
  { s with snaps := s.snaps.put (8 * d + c) { n with tally := n.tally.put i (n.tally.look i 0 + BitVec.ofNat 16 inc) } }

/-- The high-water mark of a sender at a counter unit. -/
def State.mark (s : State) (u : CtrUnit) (c r : Nat) : Option Mark :=
  (s.marks.find? (fun m => m.unit == u && m.cmpt == c && m.rank == r)).map (·.mark)

/-- A sender's mark set. -/
def State.setMark (s : State) (u : CtrUnit) (c r : Nat) (m : Mark) : State :=
  { s with marks := s.marks.filter (fun x => !(x.unit == u && x.cmpt == c && x.rank == r)) ++ [{ unit := u, cmpt := c, rank := r, mark := m }] }

/-- Whether a numbered post is applied, and the mark it leaves (R69). -/
def markStep (m : Option Mark) (launch idx : Nat) : Bool × Mark :=
  match m with
  | none => (true, { launch := launch, idx := idx })
  | some k =>
    if launch = k.launch then (if idx ≤ k.idx then (false, k) else (true, { k with idx := idx }))
    else if launch < k.launch then (true, k)
    else (true, { launch := launch, idx := idx })

/-- A post applied at its counter unit: dropped when the mark covers it or its compartment is fallow, otherwise added (R69, R70, R286). -/
def State.applyPost (s : State) (p : PostMsg) : State :=
  match s.postUnit p.cmpt p.word with
  | none => s
  | some u =>
    let (ok, s) := match p.rank with
      | none => (true, s)
      | some r => let (ok, m) := markStep (s.mark u p.cmpt r) p.launch p.idx; (ok, s.setMark u p.cmpt r m)
    if !ok || s.postFate p.cmpt p.word != 0 then s
    else
      let s := match u with | .core d c => s.tally d c (pwCounter p.word) (pwInc p.word) | _ => s
      s.addCounter u (pwCounter p.word) (pwInc p.word)

/-- A post that leaves its maker for the mesh (R65). -/
def State.sendPost (s : State) (p : PostMsg) : State := { s with posts := s.posts ++ [p] }

/-- A post made by a core's command or control processor: one to its own counters is made at once, any other leaves numbered (R69). -/
def State.coreSend (s : State) (d i n : Nat) (w : BitVec 32) : State :=
  if s.postUnit n w = some (.core d i) then s.addCounter (.core d i) (pwCounter w) (pwInc w)
  else
    match (s.core d i).run with
    | none => s.sendPost { cmpt := n, word := w, src := 256 + 8 * d + i }
    | some r =>
      (s.modCore d i (fun c => { c with run := c.run.map (fun r => { r with postIdx := r.postIdx + 1 }) })).sendPost
        { cmpt := n, word := w, rank := some r.rank, launch := r.launch, idx := r.postIdx + 1, src := 256 + 8 * d + i }

end Machine
end Sys2Proof
end

