-- ==== Sys2Proof/Machine/Flags.lean ====
section
/-! DEFINITION. The sticky status byte of a command (Table 2.6) and the status registers it enters. -/

namespace Sys2Proof.Machine

/-- A sticky status byte (Table 2.6). -/
abbrev Sticky := BitVec 8

def stInvalid : Sticky := 0x01
def stDivZero : Sticky := 0x02
def stOverflow : Sticky := 0x04
def stUnderflow : Sticky := 0x08
def stInexact : Sticky := 0x10
def stNanIn : Sticky := 0x20
def stFlushed : Sticky := 0x40
def stSplitRange : Sticky := 0x80

/-- A sticky bit that is set when `b` holds. -/
def stIf (b : Bool) (f : Sticky) : Sticky := if b then f else 0

/-- A failure code: group 0x0 means that the operation took effect (R10). -/
def isFailure (code : BitVec 16) : Bool := bits code 15 12 != 0

/-- A failing status code that the spec leaves open, drawn from the groups 0x1 to 0x9 in which the device returns failures (R10, R11, log 4). -/
def failCode (t : Nat) : BitVec 16 := BitVec.ofNat 16 (0x1000 + t % 0x9000)

/-- COR_QSTAT after a command with the given code and sticky byte: the byte is ORed in, and a failing code is recorded with VALID while VALID is 0 (R59, R87). -/
def qstatAfter (q : BitVec 32) (code : BitVec 16) (st : Sticky) : BitVec 32 :=
  let q := q ||| (BitVec.ofNat 32 (st.toNat * 65536))
  if isFailure code && !bit q 31 then q ||| 0x80000000#32 ||| BitVec.ofNat 32 code.toNat else q

/-- The first of two codes that is a failure, else a success code other than DONE, else DONE. -/
def firstCode (a b : BitVec 16) : BitVec 16 := if isFailure a then a else if isFailure b then b else if a != 0 then a else b

end Sys2Proof.Machine
end

