-- ==== Sys2Proof/Machine/Num.lean ====
section
/-! DEFINITION. The number formats of Table 2.1 and their arithmetic: exact values, rounding, saturation, the engine's grouped adder, conversions, MX blocks, splitting and the functions whose error the spec bounds in units of the last place. -/

namespace Sys2Proof.Machine

/-- A value: NaN, an infinity, or a finite value of magnitude `m` times 2^`e` (zero has `m = 0`). -/
inductive FP where
  | nan
  | inf (neg : Bool)
  | fin (neg : Bool) (m : Nat) (e : Int)
  deriving DecidableEq, Repr

/-- Positive zero. -/
def FP.zero : FP := .fin false 0 0

/-- Whether a format is an integer format. -/
def isIntFmt (f : Nat) : Bool := f == 8 || f == 9 || f == 10 || f == 11 || f == 13 || f == 14

/-- Bits of an element of a format (Table 2.1); INT24 lies in a 32-bit container. -/
def fmtBits (f : Nat) : Nat :=
  match f with
  | 0 | 11 | 14 => 32
  | 1 | 2 | 13 => 16
  | 5 | 6 => 6
  | 7 | 10 => 4
  | _ => 8

/-- Exponent bits, mantissa bits and bias of a floating format (Table 2.1). -/
def fmtShape (f : Nat) : Nat × Nat × Nat :=
  match f with
  | 0 => (8, 23, 127)
  | 1 => (8, 7, 127)
  | 2 => (5, 10, 15)
  | 3 => (4, 3, 7)
  | 4 => (5, 2, 15)
  | 5 => (3, 2, 3)
  | 6 => (2, 3, 1)
  | _ => (2, 1, 1)

/-- The largest finite encoding of a floating format (Table 2.2). -/
def fmtMax (f : Nat) : Nat :=
  match f with
  | 0 => 0x7F7FFFFF
  | 1 => 0x7F7F
  | 2 => 0x7BFF
  | 3 => 0x7E
  | 4 => 0x7B
  | 5 | 6 => 0x1F
  | _ => 0x7

/-- Infinity of a format, where it has one. -/
def fmtInf (f : Nat) : Option Nat :=
  match f with
  | 0 => some 0x7F800000
  | 1 => some 0x7F80
  | 2 => some 0x7C00
  | 4 => some 0x7C
  | _ => none

/-- The canonical NaN of a format, where it has one (Table 2.2). -/
def fmtNan (f : Nat) : Option Nat :=
  match f with
  | 0 => some 0x7FC00000
  | 1 => some 0x7FC0
  | 2 => some 0x7E00
  | 3 => some 0x7F
  | 4 => some 0x7E
  | _ => none

/-- emax of R33. -/
def fmtEmax (f : Nat) : Int :=
  match f with
  | 3 => 8
  | 4 => 15
  | 5 => 4
  | _ => 2

/-- The value of a floating encoding (R28, Table 2.2). -/
def decodeFP (f w : Nat) : FP :=
  let (eb, mb, bias) := fmtShape f
  let neg := (w / 2 ^ (eb + mb)) % 2 == 1
  let ex := (w / 2 ^ mb) % 2 ^ eb
  let m := w % 2 ^ mb
  let mag := w % 2 ^ (eb + mb)
  let special := match fmtInf f with
    | some i => if mag = i then some (FP.inf neg) else if mag > i then some FP.nan else none
    | none => if f = 3 ∧ mag = 0x7F then some FP.nan else none
  match special with
  | some v => v
  | none => if ex = 0 then .fin neg m (1 - bias - mb) else .fin neg (m + 2 ^ mb) ((ex : Int) - bias - mb)

/-- The value of an integer encoding (R30). -/
def decodeInt (f w : Nat) : Int :=
  let n := if f = 14 then 24 else fmtBits f
  let v := w % 2 ^ n
  if f = 9 then v else if v < 2 ^ (n - 1) then v else (v : Int) - 2 ^ n

/-- An integer as a value. -/
def FP.ofInt (i : Int) : FP := .fin (decide (i < 0)) i.natAbs 0

/-- A finite value as a signed multiple of 2^`q`, for `q` not above its exponent. -/
def FP.scaled (x : FP) (q : Int) : Int :=
  match x with
  | .fin neg m e => let v : Int := (m * 2 ^ (e - q).toNat : Nat); if neg then -v else v
  | _ => 0

/-- Position of the leading bit of a finite non-zero value. -/
def leadExp (m : Nat) (e : Int) : Int := Nat.log2 m + e

/-- Fields of a rounding: mode (Table 2.4), saturation mode (Table 2.5), FTZ. -/
structure Rnd where
  mode : Nat := 0
  sat : Nat := 0
  ftz : Bool := false

/-- A magnitude m * 2^e rounded to a multiple of 2^q under a mode, with the 16-bit draw `u` for SR (R39, R40): the multiple and whether bits were discarded. -/
def roundAt (mode u m : Nat) (e q : Int) : Nat × Bool :=
  if q ≤ e then (m * 2 ^ (e - q).toNat, false)
  else
    let sh := (q - e).toNat
    let k := m / 2 ^ sh
    let r := m % 2 ^ sh
    let up := match mode with
      | 0 => decide (2 * r > 2 ^ sh) || (decide (2 * r = 2 ^ sh) && k % 2 == 1)
      | 2 => decide (r * 65536 / 2 ^ sh + u % 65536 ≥ 65536)
      | _ => false
    (if up then k + 1 else k, r != 0)

/-- The exponent of the unit in the last place at which a magnitude is rounded in a format. -/
def ulpExp (f m : Nat) (e : Int) : Int :=
  let (_, mb, bias) := fmtShape f
  let lo : Int := 1 - (bias : Int) - mb
  if m = 0 then lo else max (leadExp m e - mb) lo

/-- The encoding of k units of 2^q, where k is at most one binade above the mantissa. -/
def encodeMag (f k : Nat) (q : Int) : Nat :=
  let (_, mb, bias) := fmtShape f
  let lo : Int := 1 - (bias : Int) - mb
  if k < 2 ^ mb then k
  else if k < 2 ^ (mb + 1) then ((q - lo).toNat + 1) * 2 ^ mb + (k - 2 ^ mb)
  else ((q - lo).toNat + 2) * 2 ^ mb + (k / 2 - 2 ^ mb)

/-- The sign bit of a format. -/
def signBit (f : Nat) (neg : Bool) : Nat := if neg then 2 ^ (fmtBits f - 1) else 0

/-- A value rounded into a floating format: the encoding and the sticky bits. `arith` marks the arithmetic class of Table 2.5, in which an infinite input stays infinite; otherwise the conversion class. A NaN gives the canonical NaN and sets nothing: NAN_IN belongs to the read of a NaN input (R29, R45). -/
def roundFP (f : Nat) (r : Rnd) (u : Nat) (arith : Bool) (x : FP) : Nat × Sticky :=
  match x with
  | .nan => ((fmtNan f).getD 0, 0)
  | .inf neg =>
    if arith then match fmtInf f with | some i => (i + signBit f neg, 0) | none => (fmtMax f + signBit f neg, stOverflow)
    else if r.sat = 0 then (fmtMax f + signBit f neg, stOverflow)
    else match fmtInf f with
      | some i => (i + signBit f neg, 0)
      | none => match fmtNan f with | some n => (n, 0) | none => (fmtMax f + signBit f neg, stOverflow)
  | .fin neg m e =>
    if m = 0 then (signBit f neg, 0)
    else
      let q := ulpExp f m e
      let (k, ix) := roundAt r.mode u m e q
      let mag := encodeMag f k q
      let (_, mb, _) := fmtShape f
      if mag > fmtMax f then
        let st := stOverflow ||| stInexact
        if r.sat = 0 || r.mode = 1 then (fmtMax f + signBit f neg, st)
        else match fmtInf f with
          | some i => (i + signBit f neg, st)
          | none => match fmtNan f with | some n => (n, st) | none => (fmtMax f + signBit f neg, st)
      else if mag < 2 ^ mb then
        if r.ftz && (f == 1 || f == 2) && mag != 0 then (signBit f neg, stFlushed ||| stIf ix (stInexact ||| stUnderflow))
        else (mag + signBit f neg, stIf ix (stInexact ||| stUnderflow))
      else (mag + signBit f neg, stIf ix stInexact)

/-- A value rounded into an integer format (Table 2.5, R44). -/
def roundToInt (f : Nat) (r : Rnd) (u : Nat) (x : FP) : Nat × Sticky :=
  let n := if f = 14 then 24 else fmtBits f
  let lo : Int := if f = 9 then 0 else -(2 ^ (n - 1) : Nat)
  let hi : Int := if f = 9 then (2 ^ n - 1 : Nat) else (2 ^ (n - 1) - 1 : Nat)
  let enc (v : Int) : Nat :=
    let w := (v % (2 ^ n : Nat)).toNat
    if f = 14 ∧ w ≥ 2 ^ 23 then w + 0xFF000000 else w
  match x with
  | .nan => (0, stInvalid)
  | .inf neg => if r.sat = 2 then (0, stOverflow) else (enc (if neg then lo else hi), stOverflow)
  | .fin neg m e =>
    let (k, ix) := roundAt r.mode u m e 0
    let v : Int := if neg then -(k : Int) else k
    if lo ≤ v ∧ v ≤ hi then (enc v, stIf ix stInexact)
    else (enc (if r.sat = 2 then v else if v < lo then lo else hi), stOverflow ||| stIf ix stInexact)

/-- The value of a stored element of any format; a BF16 or FP16 subnormal is flushed when `ftz` is set (R42), and a NaN read sets NAN_IN (R29). -/
def readElem (f w : Nat) (ftz : Bool) : FP × Sticky :=
  if isIntFmt f then (FP.ofInt (decodeInt f w), 0)
  else
    match decodeFP f w with
    | .nan => (.nan, stNanIn)
    | .fin neg m e =>
      let (_, mb, _) := fmtShape f
      if ftz && (f == 1 || f == 2) && m != 0 && decide (m < 2 ^ mb) then (.fin neg 0 0, stFlushed) else (.fin neg m e, 0)
    | x => (x, 0)

/-- A value converted into any storage format (R39 to R44); `arith` marks an FP32 result that is stored as it was computed. -/
def writeElem (f : Nat) (r : Rnd) (u : Nat) (x : FP) (arith : Bool := false) : Nat × Sticky :=
  if isIntFmt f then roundToInt f r u x else roundFP f r u arith x

/-! ### FP32 arithmetic -/

/-- The exact sum of two values; ∞ − ∞ is invalid (R44), and a zero sum follows R38. -/
def FP.add (a b : FP) : FP × Sticky :=
  match a, b with
  | .nan, _ => (.nan, 0)
  | _, .nan => (.nan, 0)
  | .inf x, .inf y => if x = y then (.inf x, 0) else (.nan, stInvalid)
  | .inf x, _ => (.inf x, 0)
  | _, .inf y => (.inf y, 0)
  | .fin na ma ea, .fin nb mb eb =>
    let q := min ea eb
    let v := (FP.fin na ma ea).scaled q + (FP.fin nb mb eb).scaled q
    if v = 0 then (.fin (decide (ma = 0) && decide (mb = 0) && na && nb) 0 0, 0)
    else (.fin (decide (v < 0)) v.natAbs q, 0)

/-- The exact negation. -/
def FP.neg : FP → FP
  | .nan => .nan
  | .inf x => .inf (!x)
  | .fin n m e => .fin (!n) m e

/-- The magnitude. -/
def FP.abs : FP → FP
  | .nan => .nan
  | .inf _ => .inf false
  | .fin _ m e => .fin false m e

/-- Whether a value is a zero. -/
def FP.isZero : FP → Bool
  | .fin _ m _ => m == 0
  | _ => false

/-- Whether a value carries a negative sign. -/
def FP.isNeg : FP → Bool
  | .nan => false
  | .inf n => n
  | .fin n _ _ => n

/-- The exact product; 0 × ∞ is invalid, or +0 with no status in a split pass (R44, R48). -/
def FP.mul (a b : FP) (split : Bool := false) : FP × Sticky :=
  match a, b with
  | .nan, _ => (.nan, 0)
  | _, .nan => (.nan, 0)
  | .inf x, y => if y.isZero then (if split then (FP.zero, 0) else (.nan, stInvalid)) else (.inf (x != y.isNeg), 0)
  | x, .inf y => if x.isZero then (if split then (FP.zero, 0) else (.nan, stInvalid)) else (.inf (y != x.isNeg), 0)
  | .fin na ma ea, .fin nb mb eb => (.fin (na != nb) (ma * mb) (ea + eb), 0)

/-- An FP32 encoding as a value. -/
def f32 (w : Nat) : FP := decodeFP 0 w

/-- A value rounded to FP32 as an arithmetic result: SR rounds to nearest even (R39). -/
def toF32 (r : Rnd) (x : FP) : Nat × Sticky :=
  roundFP 0 { r with mode := if r.mode = 2 then 0 else r.mode } 0 true x

/-- FP32 addition. -/
def addF (r : Rnd) (a b : FP) : FP × Sticky :=
  let (x, s1) := a.add b
  let (w, s2) := toF32 r x
  (f32 w, s1 ||| s2)

/-- FP32 multiplication. -/
def mulF (r : Rnd) (a b : FP) : FP × Sticky :=
  let (x, s1) := a.mul b
  let (w, s2) := toF32 r x
  (f32 w, s1 ||| s2)

/-- FP32 fused multiply-add, one rounding. -/
def fmaF (r : Rnd) (a b c : FP) : FP × Sticky :=
  let (p, s1) := a.mul b
  let (x, s2) := p.add c
  let (w, s3) := toF32 r x
  (f32 w, s1 ||| s2 ||| s3)

/-- Order of values other than NaN, with −0 below +0 (R448). -/
def FP.lt (a b : FP) : Bool :=
  match a, b with
  | .inf x, .inf y => x && !y
  | .inf x, _ => x
  | _, .inf y => !y
  | .fin na ma ea, .fin nb mb eb =>
    if ma = 0 ∧ mb = 0 then na && !nb
    else let q := min ea eb; decide ((FP.fin na ma ea).scaled q < (FP.fin nb mb eb).scaled q)
  | _, _ => false

/-- Larger of two values; NaN when either is NaN (R448). -/
def FP.max (a b : FP) : FP :=
  match a, b with
  | .nan, _ => .nan
  | _, .nan => .nan
  | _, _ => if a.lt b then b else a

/-- Smaller of two values; NaN when either is NaN (R448). -/
def FP.min (a b : FP) : FP :=
  match a, b with
  | .nan, _ => .nan
  | _, .nan => .nan
  | _, _ => if b.lt a then b else a

/-! ### Functions whose error is bounded in units of the last place (R51 item 9) -/

/-- A positive magnitude known in truncated form: it lies from m * 2^e up to (m + 1) * 2^e, and equals m * 2^e when `exact`. -/
structure Approx where
  m : Nat
  e : Int
  exact : Bool := false

/-- A number from −n + 1 to n, or from −n to n when the truncated value is exact, by a free value. -/
def ulpOffset (n : Nat) (exact : Bool) (f : Nat) : Int :=
  if exact then ((f % (2 * n + 1) : Nat) : Int) - n else ((f % (2 * n) : Nat) : Int) - n + 1

/-- An FP32 value within `n` units in the last place of a magnitude, chosen by the free value `f` (log 7), with overflow under the saturation mode. -/
def withinUlps (r : Rnd) (n f : Nat) (neg : Bool) (a : Approx) : FP × Sticky :=
  if a.m = 0 then (.fin neg 0 0, 0)
  else
    let q := ulpExp 0 a.m a.e
    let (k, cut) := roundAt 1 0 a.m a.e q
    let v := ((k : Int) + ulpOffset n (a.exact && !cut) f).toNat
    let (w, st) := toF32 r (.fin neg v q)
    (f32 w, st ||| stIf (cut || !a.exact) (stInexact ||| stIf (decide (w % 2 ^ 31 < 2 ^ 23)) stUnderflow))

/-- Fixed-point precision of the approximations. -/
def fxBits : Nat := 192

/-- ln 2 in units of 2^-192, truncated, by Σ 1 / (k 2^k). -/
def ln2fx : Nat := (List.range 200).foldl (fun acc i => acc + 2 ^ (fxBits + 16) / ((i + 1) * 2 ^ (i + 1))) 0 / 2 ^ 16

/-- e^t for t in [0, 1) in units of 2^-192, by its series. -/
def expSeries (t : Nat) : Nat :=
  ((List.range 48).foldl (fun (p : Nat × Nat) i => let term := p.2 * t / 2 ^ fxBits / (i + 1); (p.1 + term, term)) (2 ^ fxBits, 2 ^ fxBits)).1

/-- e^x of a finite value as a truncated magnitude; far outside the FP32 range it is a value beyond it. -/
def expApprox (neg : Bool) (m : Nat) (e : Int) : Approx :=
  if m = 0 then { m := 1, e := 0, exact := true }
  else if leadExp m e ≥ 8 then (if neg then { m := 1, e := -400 } else { m := 1, e := 400 })
  else
    let fx : Nat := if 0 ≤ e + fxBits then m * 2 ^ (e + fxBits).toNat else m / 2 ^ (-(e + fxBits)).toNat
    let k := fx / ln2fx
    let t := fx % ln2fx
    if neg then
      if t = 0 ∧ k = 0 then { m := 2 ^ fxBits - 1, e := -fxBits }
      else { m := expSeries (ln2fx - t), e := -(fxBits : Int) - k - 1 }
    else { m := expSeries t, e := (k : Int) - fxBits }

/-- |ln x| of a finite positive value and whether it is negative. -/
def lnApprox (m : Nat) (e : Int) : Bool × Approx :=
  let l := Nat.log2 m
  -- m / 2^l lies in [1, 2); brought to [2/3, 4/3]
  let up := decide (3 * m > 4 * 2 ^ l)
  let d := if up then 2 ^ (l + 1) else 2 ^ l
  let ex : Int := (l : Int) + e + (if up then 1 else 0)
  let negY := decide (m < d)
  let y := (if negY then d - m else m - d) * 2 ^ fxBits / (m + d)
  let y2 := y * y / 2 ^ fxBits
  let s := ((List.range 70).foldl (fun (p : Nat × Nat) i => (p.1 + p.2 / (2 * i + 1), p.2 * y2 / 2 ^ fxBits)) (0, y)).1 * 2
  let v : Int := ex * ln2fx + (if negY then -(s : Int) else s)
  (decide (v < 0), { m := v.natAbs, e := -fxBits, exact := decide (v = 0) })

/-- The quotient of two positive magnitudes, truncated. -/
def divApprox (ma : Nat) (ea : Int) (mb : Nat) (eb : Int) : Approx :=
  let n := ma * 2 ^ fxBits
  { m := n / mb, e := ea - eb - fxBits, exact := n % mb == 0 }

/-- The square root of a magnitude, truncated. -/
def sqrtApprox (m : Nat) (e : Int) : Approx :=
  let (m, e) := if e % 2 = 0 then (m, e) else (2 * m, e - 1)
  let r := Nat.sqrt (m * 2 ^ (2 * 96))
  { m := r, e := e / 2 - 96, exact := decide (r * r = m * 2 ^ (2 * 96)) }

/-- x / (1 + e^(-x)) and its kin need 1 / (1 + e^(-x)) of a finite value. -/
def sigmoidApprox (neg : Bool) (m : Nat) (e : Int) : Approx :=
  let ex := expApprox true m e
  -- e^(-|x|) in fixed point
  let t := if 0 ≤ ex.e + 2 * fxBits then ex.m * 2 ^ (ex.e + 2 * fxBits).toNat else ex.m / 2 ^ (-(ex.e + 2 * fxBits)).toNat
  let one := 2 ^ (2 * fxBits)
  if neg then divApprox t 0 (one + t) 0 else divApprox one 0 (one + t) 0

/-- |tanh x| of a finite value. -/
def tanhApprox (m : Nat) (e : Int) : Approx :=
  if m = 0 then { m := 0, e := 0, exact := true }
  else if leadExp m e < -12 then
    -- x (1 - x²/3 + 2x⁴/15 - 17x⁶/315)
    let x2 := m * m * 2 ^ fxBits
    let q := (2 * e).toNat
    let s := if 2 * e ≥ 0 then x2 * 2 ^ q else x2 / 2 ^ (-(2 * e)).toNat
    let f := 2 ^ fxBits - s / 3 + 2 * (s * s / 2 ^ fxBits) / 15 - 17 * (s * s / 2 ^ fxBits * s / 2 ^ fxBits) / 315
    { m := m * f, e := e - fxBits }
  else
    let ex := expApprox true m (e + 1)
    let t := if 0 ≤ ex.e + 2 * fxBits then ex.m * 2 ^ (ex.e + 2 * fxBits).toNat else ex.m / 2 ^ (-(ex.e + 2 * fxBits)).toNat
    let one := 2 ^ (2 * fxBits)
    divApprox (one - t) 0 (one + t) 0

/-- An exactly infinite result of finite operands (R43). -/
def infResult (r : Rnd) (neg : Bool) : FP × Sticky :=
  if r.sat = 0 then (f32 (fmtMax 0 + signBit 0 neg), stDivZero ||| stOverflow) else (.inf neg, stDivZero)

/-- FP32 division, within 1 unit in the last place. -/
def divF (r : Rnd) (f : Nat) (a b : FP) : FP × Sticky :=
  match a, b with
  | .nan, _ => (.nan, 0)
  | _, .nan => (.nan, 0)
  | .inf _, .inf _ => (.nan, stInvalid)
  | .inf x, y => (.inf (x != y.isNeg), 0)
  | x, .inf y => (.fin (x.isNeg != y) 0 0, 0)
  | .fin na ma ea, .fin nb mb eb =>
    if mb = 0 then (if ma = 0 then (.nan, stInvalid) else infResult r (na != nb))
    else if ma = 0 then (.fin (na != nb) 0 0, 0)
    else withinUlps r 1 f (na != nb) (divApprox ma ea mb eb)

/-- FP32 square root, within 1 unit in the last place. -/
def sqrtF (r : Rnd) (f : Nat) (a : FP) : FP × Sticky :=
  match a with
  | .nan => (.nan, 0)
  | .inf n => if n then (.nan, stInvalid) else (.inf false, 0)
  | .fin n m e => if m = 0 then (.fin n 0 0, 0) else if n then (.nan, stInvalid) else withinUlps r 1 f false (sqrtApprox m e)

/-- Reciprocal square root, within 2 units in the last place. -/
def rsqrtF (r : Rnd) (f : Nat) (a : FP) : FP × Sticky :=
  match a with
  | .nan => (.nan, 0)
  | .inf n => if n then (.nan, stInvalid) else (FP.zero, 0)
  | .fin n m e =>
    if m = 0 then infResult r n else if n then (.nan, stInvalid)
    else
      let s := sqrtApprox m e
      withinUlps r 2 f false { divApprox 1 0 s.m s.e with exact := false }

/-- e^A, within 2 units in the last place. -/
def expF (r : Rnd) (f : Nat) (a : FP) : FP × Sticky :=
  match a with
  | .nan => (.nan, 0)
  | .inf n => if n then (FP.zero, 0) else (.inf false, 0)
  | .fin n m e => withinUlps r 2 f false (expApprox n m e)

/-- ln A, within 2 units in the last place. -/
def logF (r : Rnd) (f : Nat) (a : FP) : FP × Sticky :=
  match a with
  | .nan => (.nan, 0)
  | .inf n => if n then (.nan, stInvalid) else (.inf false, 0)
  | .fin n m e =>
    if m = 0 then infResult r true
    else if n then (.nan, stInvalid)
    else let (neg, v) := lnApprox m e; withinUlps r 2 f neg v

/-- tanh A, within 2 units in the last place. -/
def tanhF (r : Rnd) (f : Nat) (a : FP) : FP × Sticky :=
  match a with
  | .nan => (.nan, 0)
  | .inf n => (.fin n 1 0, 0)
  | .fin n m e => if m = 0 then (.fin n 0 0, 0) else withinUlps r 2 f n (tanhApprox m e)

/-- 1 / (1 + e^-A), within 4 units in the last place. -/
def sigmoidF (r : Rnd) (f : Nat) (a : FP) : FP × Sticky :=
  match a with
  | .nan => (.nan, 0)
  | .inf n => if n then (FP.zero, 0) else (.fin false 1 0, 0)
  | .fin n m e => withinUlps r 4 f false (sigmoidApprox n m e)

/-- A × sigmoid(B), within 4 units in the last place; −∞ × 0 is invalid (R44). -/
def timesSigmoid (r : Rnd) (f : Nat) (a b : FP) : FP × Sticky :=
  match a, b with
  | .nan, _ => (.nan, 0)
  | _, .nan => (.nan, 0)
  | .inf n, _ => if n then (.nan, stInvalid) else (.inf false, 0)
  | .fin n m e, .fin nb mb eb =>
    if m = 0 then (.fin n 0 0, 0)
    else let s := sigmoidApprox nb mb eb; withinUlps r 4 f n { m := m * s.m, e := e + s.e }
  | .fin n m e, .inf nb => if nb then (.fin n 0 0, 0) else (.fin n m e, 0)

/-- A × sigmoid(A). -/
def siluF (r : Rnd) (f : Nat) (a : FP) : FP × Sticky := timesSigmoid r f a a

/-- 0.5 A (1 + tanh(0.7978846 (A + 0.044715 A³))), that is A × sigmoid(2u) (Table 4.7). -/
def geluF (r : Rnd) (f : Nat) (a : FP) : FP × Sticky :=
  match a with
  | .fin n m e =>
    -- 2u = 2 × 0.7978846 × (A + 0.044715 A³), as a multiple of 10^-13
    let a3 := (FP.fin n (m * m * m * 44715) (3 * e)).add (.fin n (m * 1000000) e)
    match a3.1 with
    | .fin n3 m3 e3 =>
      let q := divApprox (m3 * 2 * 7978846) e3 (10 ^ 13) 0
      timesSigmoid r f a (.fin n3 q.m q.e)
    | x => (x, 0)
  | x => timesSigmoid r f x x

/-- x^n of a positive magnitude by repeated multiplication, truncated to 160 bits at each step. -/
def powApprox : Nat → Nat → Int → Approx
  | 0, _, _ => { m := 1, e := 0, exact := true }
  | n + 1, m, e =>
    let p := powApprox n m e
    let v := p.m * m
    let cut := (Nat.log2 v) - 160
    { m := v / 2 ^ cut, e := p.e + e + cut, exact := p.exact && v % 2 ^ cut == 0 }

/-! ### The grouped adder (R36, R37, R38) -/

/-- The addends and the accumulator added in one aligned adder that keeps 96 bits below the largest addend's leading bit, with a signed sticky bit for the rest, rounded once to nearest even (R36). When the kept parts cancel and the sticky quantity does not, the total is a quantity of unstated size below one unit of the last kept bit: the model takes a zero of its sign and sets INEXACT alone (DESIGN CHOICE, log 46). -/
def alignedAdd (sat : Nat) (l : List FP) : FP × Sticky :=
  let anyNan := l.any (fun x => x == .nan)
  let pinf := l.any (fun x => x == .inf false)
  let ninf := l.any (fun x => x == .inf true)
  if anyNan then (.nan, 0)
  else if pinf && ninf then (.nan, stInvalid)
  else if pinf then (.inf false, 0)
  else if ninf then (.inf true, 0)
  else
    let nz := l.filterMap (fun x => match x with | .fin n m e => if m = 0 then none else some (n, m, e) | _ => none)
    match nz with
    | [] => (.fin (l.all FP.isNeg) 0 0, 0)
    | (_, m0, e0) :: t =>
      let top := t.foldl (fun a x => max a (leadExp x.2.1 x.2.2)) (leadExp m0 e0)
      let unit := top - 96
      let low := nz.foldl (fun a x => min a x.2.2) unit
      let kept := nz.foldl (fun (a : Int) x =>
        let k : Int := (roundAt 1 0 x.2.1 x.2.2 unit).1
        if x.1 then a - k else a + k) 0
      let total := nz.foldl (fun (a : Int) x => a + (FP.fin x.1 x.2.1 x.2.2).scaled low) 0
      let rest := total - kept * (2 ^ (unit - low).toNat : Nat)
      let v := kept * (2 ^ 64 : Nat) + (if rest = 0 then 0 else if rest < 0 then -1 else 1)
      if kept = 0 then (.fin (decide (rest < 0)) 0 0, stIf (decide (rest ≠ 0)) stInexact)
      else
        let (w, st) := toF32 { mode := 0, sat := sat } (.fin (decide (v < 0)) v.natAbs (unit - 64))
        (f32 w, st)

/-- An integer group sum added to the INT32 accumulator under SAT or WRAP (R37). -/
def intAdd (sat : Nat) (acc sum : Int) : Int × Sticky :=
  let v := acc + sum
  if -2147483648 ≤ v ∧ v ≤ 2147483647 then (v, 0)
  else if sat = 2 then (decodeInt 11 (v % 4294967296).toNat, stOverflow)
  else (if v < 0 then -2147483648 else 2147483647, stOverflow)

/-! ### Packing (R31) and elements of a byte list -/

/-- Element `i` of packed data of a format. -/
def elemOf (f : Nat) (l : List Byte) (i : Nat) : Nat :=
  match fmtBits f with
  | 4 => nbits (fieldAt l (i / 2) 1) (4 * (i % 2) + 3) (4 * (i % 2))
  | 6 => nbits (fieldAt l (3 * (i / 4)) 3) (6 * (i % 4) + 5) (6 * (i % 4))
  | b => fieldAt l (i * (b / 8)) (b / 8)

/-- Bytes that `n` elements of a format take. -/
def packLen (f n : Nat) : Nat := (n * fmtBits f + 7) / 8

/-- Elements packed into bytes; a last byte that is not filled is padded with zeros. -/
def pack (f : Nat) (l : List Nat) : List Byte :=
  let v := (l.foldr (fun x (acc : Nat) => x % 2 ^ fmtBits f + 2 ^ fmtBits f * acc) 0)
  leBytes (packLen f l.length) v

/-! ### Stochastic-rounding generators (R41) -/

/-- A bank as the generators of one unit: lanes that no event has seeded since the last device reset were seeded by that reset (R41). -/
def GenBank.ofUnit (g : GenBank) (boot unit : Nat) : GenBank := { g with draw := some (g.draw.getD boot), unit := unit }

/-- The bank that a unit keeps after a command: as it was when no lane has drawn. -/
def GenBank.after (g g' : GenBank) : GenBank := if g'.lanes = g.lanes then g else g'

/-- Numbers of the units that round: the engines 0 to 3, the shaping unit 4 and the mover 5 of a core, and a stack's SSU. -/
def unitOfCore (d i q : Nat) : Nat := 8 * (8 * d + i) + q
def unitOfSsu (ls : Nat) : Nat := 4096 + ls

/-- The state of a lane. -/
def GenBank.lane (g : GenBank) (i : Nat) : BitVec 64 :=
  let s0 : BitVec 64 := match g.seeded with
    | some s => s ^^^ BitVec.ofNat 64 (i * 0x9E3779B97F4A7C15)
    | none => Config.rng (g.draw.getD 0) g.unit i
  g.lanes.look i (if s0 = 0 then 1 else s0)

/-- One step of a generator. -/
def genStep (s : BitVec 64) : BitVec 64 :=
  let s := s ^^^ (s <<< 13)
  let s := s ^^^ (s >>> 7)
  s ^^^ (s <<< 17)

/-- A draw of lane `i`: u and the bank after it. -/
def GenBank.next (g : GenBank) (i : Nat) : Nat × GenBank :=
  let s := genStep (g.lane i)
  (bits s 63 48, { g with lanes := g.lanes.put i s })

/-- A bank seeded with S, or from the true random number generator at event `t` when S is zero. -/
def GenBank.seed (S : BitVec 64) (t : Nat) : GenBank := if S = 0 then { draw := some t } else { seeded := some S }

/-- Numbers that a seeding event takes. -/
def genDraws : Nat := 1

/-- A list of values converted with lane `lane i` for element `i`: encodings, sticky bits and generators after; a generator advances once for each value rounded under SR (R40). `arith` is as in `writeElem`. -/
def convertAll (f : Nat) (r : Rnd) (arith : Bool) (lane : Nat → Nat) : Nat → List FP → GenBank → List Nat × Sticky × GenBank
  | _, [], g => ([], 0, g)
  | i, x :: t, g =>
    let (u, g) := if r.mode = 2 then g.next (lane i) else (0, g)
    let (w, s1) := writeElem f r u x arith
    let (ws, s2, g) := convertAll f r arith lane (i + 1) t g
    (w :: ws, s1 ||| s2, g)

/-! ### MX blocks (R32, R33) -/

/-- A value times 2^n. -/
def FP.shift (x : FP) (n : Int) : FP := match x with | .fin s m e => .fin s m (e + n) | y => y

/-- An element of an MX block with scale code `s`; 0xFF makes it NaN. -/
def mxElem (s : Nat) (x : FP) : FP := if s = 0xFF then .nan else x.shift ((s : Int) - 127)

/-- The largest magnitude of a block. -/
def blockMax : List FP → FP
  | [] => FP.zero
  | x :: t => FP.max x.abs (blockMax t)

/-- The scale code chosen for a block, the block's values to be rounded and the sticky bits (R33); in IEEE an infinity or an overflow at e = 127 makes a NaN block. -/
def mxScale (f sat : Nat) (l : List FP) : Nat × List FP × Sticky :=
  let infs := l.any (fun x => match x with | .inf _ => true | _ => false)
  let l' := if sat = 0 then l.map (fun x => match x with | .inf n => f32 (fmtMax 0 + signBit 0 n) | y => y) else l
  let st0 := stIf (infs && sat == 0) stOverflow
  match (if sat = 1 && infs then FP.nan else blockMax l') with
  | .nan => (0xFF, l.map (fun _ => FP.zero), stNanIn ||| st0)
  | .inf _ => (0xFF, l.map (fun _ => FP.zero), stNanIn ||| st0)
  | .fin _ m e =>
    if m = 0 then (0x7F, l.map (fun _ => FP.zero), st0)
    else
      let x := leadExp m e - fmtEmax f
      if x > 127 then
        (if sat = 1 then (0xFF, l.map (fun _ => FP.zero), stNanIn ||| stOverflow ||| st0)
         else (254, l'.map (·.shift (-127)), stOverflow ||| st0))
      else
        let x := max x (-127)
        ((x + 127).toNat, l'.map (·.shift (-x)), st0)

/-- An element of an MX block rounded: above the largest finite it takes the largest finite of its sign in every saturation mode (R33). -/
def mxRound (f mode u : Nat) (x : FP) : Nat × Sticky := roundFP f { mode := mode, sat := 0 } u false x

/-! ### Splitting (R46, R49) -/

/-- x rounded toward zero to BF16. -/
def bf16Rz (x : FP) : Nat := (roundFP 1 { mode := 1, sat := 1 } 0 true x).1

/-- The BF16 pieces of an FP32 value (R46). -/
def splitF32 (x : FP) : List Nat :=
  match x with
  | .fin _ _ _ =>
    let x0 := bf16Rz x
    let r1 := (x.add (decodeFP 1 x0).neg).1
    let x1 := bf16Rz r1
    let x2 := bf16Rz (r1.add (decodeFP 1 x1).neg).1
    [x0, x1, x2]
  | .inf n => [0x7F80 + signBit 1 n, 0, 0]
  | .nan => [0x7FC0, 0, 0]

/-- The INT8 digits of an INT16 (two) or INT24 (three) value, and whether it was clamped to the covered range (R49). -/
def splitInt (three : Bool) (v : Int) : List Nat × Bool :=
  let top : Int := if three then 8355711 else 32639
  let w := min v top
  let d0 := (w + 128) % 256 - 128
  let v1 := (w - d0) / 256
  let enc (x : Int) : Nat := (x % 256).toNat
  if three then
    let d1 := (v1 + 128) % 256 - 128
    ([enc d0, enc d1, enc ((v1 - d1) / 256)], decide (v > top))
  else ([enc d0, enc v1], decide (v > top))

/-- A list in an order the spec leaves open: sorted by free keys, so always a permutation of it (log 5). -/
def freeOrder {α : Type} (t : Nat) (l : List α) : List α :=
  let keyed := l.zipIdx.map (fun p => (Config.free (t + p.2), p.1))
  (keyed.foldr (fun p acc => (acc.takeWhile (fun x => decide (x.1 < p.1))) ++ p :: acc.dropWhile (fun x => decide (x.1 < p.1))) []).map (·.2)

end Sys2Proof.Machine
end

