-- ==== Sys2Proof/Machine/Operands.lean ====
section
/-! DEFINITION. The operand forms: segments and their translation, guarded placement and its parity, host-backed pages and fault records, physical addresses and mover addresses. -/

namespace Sys2Proof.Machine

/-! ### Segment entries (Tables 9.1 and 9.2) -/

def Seg.valid (e : Seg) : Bool := bit e.w0 63
def Seg.gen (e : Seg) : Nat := bits e.w0 62 55
def Seg.perm (e : Seg) : Nat := bits e.w0 54 51
def Seg.typ (e : Seg) : Nat := bits e.w0 50 48
def Seg.limit (e : Seg) : Nat := bits e.w0 43 0
def Seg.nls (e : Seg) : Nat := bits e.w1 49 45 + 1
def Seg.firstLs (e : Seg) : Nat := bits e.w1 44 40
def Seg.off (e : Seg) : Nat := bits e.w1 34 0
def Seg.per (e : Seg) : Nat := bits e.w2 34 0
def Seg.area (e : Seg) : Nat := bits e.w1 3 0
def Seg.iova (e : Seg) : Nat := e.w1.toNat
def Seg.grant (e : Seg) : Nat := bits e.w1 41 32
def Seg.fabric (e : Seg) : BitVec 16 := BitVec.ofNat 16 (bits e.w1 15 0)

/-- The entry with its generation raised by one (R221 step 1). -/
def Seg.raised (e : Seg) : Seg :=
  { e with w0 := BitVec.ofNat 64 (e.w0.toNat - bits e.w0 62 55 * 2 ^ 55 + (bits e.w0 62 55 + 1) % 256 * 2 ^ 55) }

/-- Permissions of Table 9.3, as predicates on PERM ([0] R, [1] W, [2] RED, [3] ATT). -/
def needR (p : Nat) : Bool := p % 2 == 1
def needW (p : Nat) : Bool := p / 2 % 2 == 1
def needRW (p : Nat) : Bool := needR p && needW p
def needRed (p : Nat) : Bool := p / 4 % 2 == 1
def needWorRed (p : Nat) : Bool := needW p || needRed p
def needRorAtt (p : Nat) : Bool := needR p || p / 8 % 2 == 1

/-- A segment entry of a compartment; every placed core's segment copy holds the same (R55, R213). -/
def State.seg (s : State) (c i : Nat) : Seg := (s.cmpt c).segs.look i {}

/-- Segment and offset of a virtual address. -/
def vaSeg (va : Nat) : Nat := nbits va 47 44
def vaOff (va : Nat) : Nat := nbits va 43 0

/-- The checks of R212 on one address: SEG_INVALID, SEG_PERM, SEG_RANGE, in this order; zero when they pass. -/
def State.xlatCode (s : State) (c va : Nat) (need : Nat → Bool) (len : Nat) : BitVec 16 :=
  let e := s.seg c (vaSeg va)
  if !e.valid then 0x2001
  else if !need e.perm then 0x2002
  else if vaOff va < e.limit ∨ (len = 0 ∧ vaOff va = e.limit) then 0
  else 0x2004

/-- The length check of R77 step 7 and R80. -/
def State.lenCode (s : State) (c va len : Nat) : BitVec 16 :=
  if vaOff va + len ≤ (s.seg c (vaSeg va)).limit then 0 else 0x1002

/-- Translation and length check of one operand of a command. -/
def State.operandCode (s : State) (c va : Nat) (need : Nat → Bool) (len : Nat) : BitVec 16 :=
  let x := s.xlatCode c va need len
  if x != 0 then x else s.lenCode c va len

/-! ### Guarded areas (R181, R182) -/

/-- A guarded area: members, base B, length L. -/
def State.area (s : State) (i : Nat) : List Nat × Nat × Nat := s.guarded.look i ([], 0, 0)

/-- Member and member offset of segment offset `x` of a guarded area (R181). -/
def guardPlace (ar : List Nat × Nat × Nat) (x : Nat) : Nat × Nat :=
  let c := x / 2048
  let k := c / 7
  let p := k % 8
  let j := c % 7
  ((ar.1[if j < p then j else j + 1]?).getD 0, ar.2.1 + 2048 * k + x % 2048)

/-- What a stack offset is to the guarded areas: none, or the stripe's parity stack and its members. -/
def State.stripeOf (s : State) (ls off : Nat) : Option (Nat × List Nat) :=
  s.guarded.findSome? (fun e =>
    let (ms, b, l) := e.2
    if ms.contains ls ∧ b ≤ off ∧ off < b + l then
      some ((ms[((off - b) / 2048) % 8]?).getD 0, ms)
    else none)

/-- Whether a stack offset lies in a guarded area. -/
def State.isGuarded (s : State) (ls off : Nat) : Bool := (s.stripeOf ls off).isSome

/-- Whether a stack offset holds a parity sector. -/
def State.isParity (s : State) (ls off : Nat) : Bool := match s.stripeOf ls off with | some (p, _) => p == ls | none => false

/-- Whether `n` bytes from a stack offset meet a parity sector: which member holds parity changes at each 2 KiB (R181, R182). -/
def State.meetsParity (s : State) (ls off n : Nat) : Bool :=
  n != 0 && (List.range ((off + n - 1) / 2048 - off / 2048 + 1)).any (fun k => s.isParity ls (max off ((off / 2048 + k) * 2048)))

/-- Segment offset `y` of a guarded area that a member offset holds, inverse to `guardPlace`. -/
def guardInv (ar : List Nat × Nat × Nat) (ls off : Nat) : Option Nat :=
  let (ms, b, l) := ar
  if ms.contains ls ∧ b ≤ off ∧ off < b + l then
    let k := (off - b) / 2048
    let p := k % 8
    match ms.findIdx? (· == ls) with
    | some i => if i = p then none else some ((7 * k + (if i < p then i else i - 1)) * 2048 + (off - b) % 2048)
    | none => none
  else none

/-! ### Physical addresses (R168) -/

/-- Stack and offset of a physical address in the stacks' range. -/
def paLs (a : Nat) : Nat := a / 0x8_0000_0000
def paOff (a : Nat) : Nat := a % 0x8_0000_0000

/-- Whether an address lies in the stacks' range. -/
def inStacks (a : Nat) : Bool := decide (a < 0x0100_0000_0000)

/-- The transactions of at most a line each that pieces of the stacks' range need (Chapter 11, Regulators). -/
def txnsOf (cmpt : Nat) (write : Bool) (ps : List (Nat × Nat)) : List Txn :=
  ps.flatMap (fun p => if inStacks p.1 && p.2 != 0 then
      (List.range ((p.1 + p.2 - 1) / 128 - p.1 / 128 + 1)).map (fun j =>
        let ln := p.1 / 128 + j
        let m := (List.range 4).foldl (fun m k => if 128 * ln + 32 * k < p.1 + p.2 ∧ p.1 < 128 * ln + 32 * k + 32 then m + 2 ^ k else m) 0
        { target := some (paLs (128 * ln)), cmpt := cmpt, addr := 128 * ln, mask := BitVec.ofNat 4 m, write := write })
    else [])

/-- The lines that a master's access concerns wait at its regulator as transactions of a class, in order; nothing waits for what lies outside the stacks. The access itself takes effect in its command, and the packets follow as traffic (R244, R245, log 49). -/
def State.offer (s : State) (die m cls cmpt : Nat) (write : Bool) (ps : List (Nat × Nat)) : State :=
  match txnsOf cmpt write ps with
  | [] => s
  | l => s.modMaster die m (fun x => { x with classes := x.classes.put cls { x.classes.look cls {} with q := (x.classes.look cls {}).q ++ l } })

/-- Whether an address lies in a core store or scratch: tile die, core and an assigned part (Table 7.3). -/
def inCores (a : Nat) : Bool :=
  decide (0x0200_0000_0000 ≤ a) && decide (a < 0x0201_0000_0000) &&
    isTileDie ((a - 0x0200_0000_0000) / 0x0800_0000) && decide ((a - 0x0200_0000_0000) % 0x0100_0000 < 0x0084_0000)

/-- Bytes of a core's scratch about to be rewritten: an instruction fetch may see their earlier contents until FENCE.I or a launch (R449). -/
def State.icMark (s : State) (a n : Nat) : State :=
  if inCores a && decide (0x0080_0000 ≤ a % 0x0100_0000) && n != 0 then
    let o := a % 0x0100_0000 - 0x0080_0000
    let old := (s.rd a n).zip (List.range n)
    s.modCore ((a - 0x0200_0000_0000) / 0x0800_0000) ((a - 0x0200_0000_0000) / 0x0100_0000 % 8) (fun c => { c with
      icStale := old.foldl (fun t x => let l := t.look (o + x.2) []; if l.contains x.1 then t else t.put (o + x.2) (x.1 :: l)) c.icStale })
  else s

/-- Whether a physical address of memory is served (R168). -/
def State.mapped (s : State) (a : Nat) : Bool := if inStacks a then s.served (paLs a) else inCores a

/-- A sector's worth written at a stack by its SSU, with the parity delta of a guarded data sector (R182) and the poison list kept (R450). -/
def State.ssuSec (s : State) (c a : Nat) (l : List Byte) : State :=
  let ls := paLs a
  let sec := a / 32
  match (if inStacks a then s.stripeOf ls (paOff a) else none) with
  | none => s.wrSec a l
  | some (p, _) =>
    if p = ls then s.wrSec a l
    else
      let old := ofLe (s.rd (32 * sec) 32)
      let s := s.wrSec a l
      let new := ofLe (s.rd (32 * sec) 32)
      let s := if s.secPois sec then s else s.modStack ls (fun t => { t with pois := t.pois.filter (· != sec % 0x4000_0000) })
      s.modStack ls (fun t => { t with deltas := t.deltas ++ [{ src := ls, pls := p, off := paOff (32 * sec), data := BitVec.ofNat 256 old ^^^ BitVec.ofNat 256 new, cmpt := c }] })

/-- Bytes written to memory sector by sector, with parity upkeep, for compartment `c`. -/
def State.ssuGo : Nat → State → Nat → Nat → List Byte → State
  | 0, s, _, _, _ => s
  | fuel + 1, s, c, a, l =>
    if l.isEmpty then s
    else
      let n := min l.length (32 - a % 32)
      State.ssuGo fuel (s.ssuSec c a (l.take n)) c (a + n) (l.drop n)

/-- Bytes written to memory with parity upkeep. -/
def State.ssuWr (s : State) (c a : Nat) (l : List Byte) : State := State.ssuGo (l.length + 1) s c a l

/-- A sector written poisoned by its SSU: parity takes it as zero, and a guarded sector enters the poison list, or FATAL is raised when the list is full (R177, R182, R450). -/
def State.ssuPoison (s : State) (c sec : Nat) : State :=
  let a := 32 * sec
  let ls := paLs a
  let s := (s.ssuSec c a (List.replicate 32 0)).poisonSec sec
  if inStacks a && s.isGuarded ls (paOff a) && !s.isParity ls (paOff a) then
    let n := sec % 0x4000_0000
    if (s.stack ls).pois.contains n then s
    else if (s.stack ls).pois.length < 1048576 then s.modStack ls (fun t => { t with pois := insNat t.pois n })
    else s.replaceCause 6
  else s

/-- The positions of the poisoned bytes of a range. -/
def badIdx (bad : List Bool) : List Nat := (bad.zipIdx.filter (·.1)).map (·.2)

/-- Bytes written with the source's poison: every destination sector that takes a byte of a poisoned source sector is written poisoned (R178). `src` is the address the first byte came from and `bad` its poisoned sectors. -/
def State.ssuWrPois (s : State) (c a : Nat) (l : List Byte) (bad : Nat → Bool) : State :=
  let s' := s.ssuWr c a l
  (sectors a l.length).foldl (fun t sec =>
    let lo := max a (32 * sec)
    let hi := min (a + l.length) (32 * sec + 32)
    if (List.range (hi - lo)).any (fun i => bad (lo - a + i)) then t.ssuPoison c sec else t) s'

/-! ### Where a segment offset lies (R210) -/

/-- Base of a compartment's landing area, and its slots (Table 9.7). -/
def landingBase (r : CmptRec) : Nat := lsBase (bits r.landing 62 58) + bits r.landing 57 24 * 0x20_0000
def landingSlots (r : CmptRec) : Nat := bits r.landing 12 0

/-- The landing slot that holds a page, when it is resident and no page-out takes it out (R214). -/
def State.slotOf (s : State) (c i page : Nat) : Option Nat :=
  ((s.cmpt c).resmap.find? (fun e => bit e.2 63 && !bit e.2 61 && bits e.2 51 48 == i && bits e.2 18 0 == page)).map (·.1)

/-- The slot that holds a page, moving or not. -/
def Cmpt.slotHolding (m : Cmpt) (seg page : Nat) : Option Nat :=
  (m.resmap.find? (fun e => bit e.2 63 && bits e.2 51 48 == seg && bits e.2 18 0 == page)).map (·.1)

/-- A place a segment offset maps to. -/
inductive Place where
  | phys (a : Nat)
  | absent (page : Nat)
  | peer (id : BitVec 16) (grant off : Nat)
  | nowhere
  deriving DecidableEq, Repr

/-- The place of offset `x` of segment `i` with entry `e` (R210). -/
def State.place (s : State) (c i : Nat) (e : Seg) (x : Nat) : Place :=
  match e.typ with
  | 0 | 2 => .phys (lsBase (e.firstLs + x / max e.per 1) + e.off + x % max e.per 1)
  | 1 => let (m, o) := guardPlace (s.area e.area) x; .phys (lsBase m + o)
  | 3 =>
    match s.slotOf c i (x / 0x20_0000), (s.cmpt c).plan with
    | some k, some r => .phys (landingBase r + k * 0x20_0000 + x % 0x20_0000)
    | _, _ => .absent (x / 0x20_0000)
  | 4 => .peer e.fabric e.grant x
  | _ => .nowhere

/-- A range cut at multiples of 2 KiB, within which every segment maps contiguously. -/
def cuts : Nat → Nat → Nat → List (Nat × Nat)
  | 0, _, _ => []
  | fuel + 1, x, n => if n = 0 then [] else let k := min n (2048 - x % 2048); (x, k) :: cuts fuel (x + k) (n - k)

/-- The pieces of a segment range. -/
def pieces (x n : Nat) : List (Nat × Nat) := cuts (n / 2048 + 2) x n

/-- The first page of a range that is not resident, if any. -/
def State.firstAbsent (s : State) (c i : Nat) (e : Seg) (x n : Nat) : Option (Nat × Nat) :=
  (pieces x n).findSome? (fun p => match s.place c i e p.1 with | .absent g => some (g, p.1) | _ => none)

/-- The physical pieces of a range, in order. -/
def State.physPieces (s : State) (c i : Nat) (e : Seg) (x n : Nat) : List (Nat × Nat) :=
  (pieces x n).filterMap (fun p => match s.place c i e p.1 with | .phys a => some (a, p.2) | _ => none)

/-- Bytes of a range of a segment. -/
def State.segRead (s : State) (c i : Nat) (e : Seg) (x n : Nat) : List Byte := (s.physPieces c i e x n).flatMap (fun p => s.rd p.1 p.2)

/-- Whether byte by byte a range of a segment lies in a poisoned sector. -/
def State.segPois (s : State) (c i : Nat) (e : Seg) (x n : Nat) : List Bool :=
  (s.physPieces c i e x n).flatMap (fun p => (List.range p.2).map (fun j => s.secPois ((p.1 + j) / 32)))

/-- DIRTY set on the slots a write to a host-backed range reaches (R214). -/
def State.markDirtySlots (s : State) (c i : Nat) (e : Seg) (x n : Nat) : State :=
  if e.typ = 3 then
    (pieces x n).foldl (fun s p => match s.slotOf c i (p.1 / 0x20_0000) with
      | some k => s.modCmpt c (fun m => { m with resmap := m.resmap.put k (setBit (m.resmap.look k 0) 62 true) })
      | none => s) s
  else s

/-- The compartment's virtual address of a stack offset, where one of its segments maps it (R180). -/
def State.vaOf (s : State) (c ls off : Nat) : Option Nat :=
  (List.range 16).findSome? (fun i =>
    let e := s.seg c i
    if !e.valid then none
    else
      let x : Option Nat := match e.typ with
        | 0 | 2 => if e.firstLs ≤ ls ∧ ls < e.firstLs + e.nls ∧ e.off ≤ off ∧ off < e.off + e.per then some ((ls - e.firstLs) * e.per + (off - e.off)) else none
        | 1 => guardInv (s.area e.area) ls off
        | 3 => match (s.cmpt c).plan with
          | some r =>
            if landingBase r ≤ lsBase ls + off then
              let k := (lsBase ls + off - landingBase r) / 0x20_0000
              let m := (s.cmpt c).resmap.look k 0
              if bit m 63 && bits m 51 48 == i then some (bits m 18 0 * 0x20_0000 + (lsBase ls + off - landingBase r) % 0x20_0000) else none
            else none
          | none => none
        | _ => none
      match x with
      | some x => if x < e.limit then some (i * 2 ^ 44 + x) else none
      | none => none)

/-- The POISON events of a range of `n` sectors that the device itself poisoned: one to every compartment that maps it, and one to the PF unless a vitrine maps it (R180). -/
def State.poisonEvent (s : State) (ls off n : Nat) : State :=
  let told := (List.range 64).filterMap (fun c => if c = 0 then none else (s.vaOf c ls off).map (fun va => (c, va)))
  let s' := told.foldl (fun t p => t.eventX p.1 0x3001 ls (BitVec.ofNat 64 p.2) n) s
  if told.any (fun p => (s.cmpt p.1).vitrine) then s'
  else s'.eventX 0 0x3001 ls (BitVec.ofNat 64 (off + told.length % 64 * 2 ^ 56)) n

/-- Whether a physical range meets the destination of an open CLIP_NOISE window (R133). -/
def State.clipHit (s : State) (a n : Nat) : Bool :=
  inStacks a && (s.stack (paLs a)).wins.any (fun w =>
    w.2.isOpen && w.2.clip && decide (w.2.dst < paOff a + n) && decide (paOff a < w.2.dst + 4 * w.2.count) && decide (n ≠ 0))

/-- Whether a range of virtual addresses meets one (R133). -/
def State.clipRange (s : State) (c va n : Nat) : Bool :=
  (s.physPieces c (vaSeg va) (s.seg c (vaSeg va)) (vaOff va) n).any (fun p => s.clipHit p.1 p.2)

/-- Whether an access meets a stack that no tile serves after a fault: in a guarded area reads are served by rebuild, and writes to the area are refused (R415). -/
def State.unserved (s : State) (c va n : Nat) (w : Bool) : Bool :=
  !s.flt.unserved.isEmpty && (s.physPieces c (vaSeg va) (s.seg c (vaSeg va)) (vaOff va) n).any (fun p =>
    inStacks p.1 && match s.stripeOf (paLs p.1) (paOff p.1) with
      | none => s.flt.unserved.contains (paLs p.1)
      | some (_, ms) => w && ms.any s.flt.unserved.contains)

/-- The refusal of an access by where its bytes lie: an open aggregation window, or a stack not served (R133, R168, R415). -/
def State.rangeCode (s : State) (c va n : Nat) (w : Bool) : BitVec 16 :=
  if s.clipRange c va n then 0x7002 else if s.unserved c va n w then 0x3002 else 0

/-! ### Sectors that wait for a rebuild (R179, R183) -/

/-- Whether pieces meet a sector of a guarded area. -/
def State.meetsSec (s : State) (ps : List (Nat × Nat)) (l o : Nat) : Bool :=
  decide (o < 0x8_0000_0000) && ps.any (fun p => inStacks p.1 && paLs p.1 == l && decide (paOff p.1 < o + 32) && decide (o < paOff p.1 + p.2) && s.isGuarded l (max (paOff p.1) o))

/-- Whether pieces meet a sector that waits for its rebuild, so that a request to them waits (R179). -/
def State.readWaits (s : State) (ps : List (Nat × Nat)) : Bool :=
  s.stripes.any (fun m => m.kind == 0 && s.meetsSec ps m.src m.off) ||
    s.stk.any (fun t => t.2.rebuilds.any (fun r => s.meetsSec ps (r.target.getD t.1) r.off))

/-- Every running copy has gone on by an open amount: its cursor only rises (R139, R183, log 4). -/
def State.migAdvance (s : State) : State :=
  (s.stk.filter (fun t => t.2.mig.isSome)).foldl (fun s t =>
    let (v, s) := s.draw
    s.modStack t.1 (fun t => { t with mig := t.mig.map (fun m => { m with cursor := max m.cursor (v % 0x4000_0001 * 32) }) })) s

/-- Whether a read of pieces is served by rebuild: of an unserved member, or at or above the cursor of a stack that is being rebuilt (R183, R415). -/
def State.readRebuilt (s : State) (ps : List (Nat × Nat)) : State × Bool :=
  let ps := ps.filter (fun p => inStacks p.1 && decide (0 < p.2) && s.isGuarded (paLs p.1) (paOff p.1))
  if ps.isEmpty then (s, false)
  else
  let s := s.migAdvance
  (s, ps.any (fun p => (s.flt.unserved.contains (paLs p.1) || (match (s.stack (paLs p.1)).mig with | some m => m.rebuild && decide (m.cursor < paOff p.1 + p.2) | none => false))))

/-! ### Faults on host-backed pages (R215) -/

/-- Fault records of all compartments. -/
def State.recordsUsed (s : State) : Nat := s.cmpts.foldl (fun n e => n + e.2.frecs.length) 0

/-- The record of a page, if one is pending. -/
def State.recordOf (s : State) (c i page : Nat) : Option Nat :=
  ((s.cmpt c).frecs.find? (fun e => e.2.seg == i && e.2.page == page)).map (·.1)

/-- An access that faults creates or joins the page's fault record; the first posts PAGE_FAULT. Beyond the limits it waits in the mesh, to be tried again (R215). -/
def State.pageFault (s : State) (c i page va : Nat) (w : Waiter) : State :=
  match s.recordOf c i page with
  | some k =>
    s.modCmpt c (fun m =>
      let r := m.frecs.look k {}
      if r.waiters.contains w then m else { m with frecs := m.frecs.put k { r with waiters := r.waiters ++ [w] } })
  | none =>
    let m := s.cmpt c
    if m.frecs.length < 64 ∧ s.recordsUsed < 1024 then
      match (List.range 64).find? (fun k => !m.frecs.has k) with
      | some k =>
        let s := s.modCmpt c (fun m => { m with
          frecs := m.frecs.put k { seg := i, page := page, waiters := [w] }
          faultCount := satAdd m.faultCount 1 })
        s.event c 0x0022 k (BitVec.ofNat 64 (va % 2 ^ 48))
      | none => s
    else s

/-! ### Mover addresses (Table 3.5a) -/

/-- A decoded mover address: a compartment virtual address, a place in a core's store or scratch, or the store of a rank that is not placed, which is refused with LEN_BOUND (R62, R80). -/
inductive MovAddr where
  | va (a : Nat)
  | loc (base size off : Nat)
  | unplaced
  deriving DecidableEq, Repr

/-- A mover address decoded for a core of compartment `c`; the code is DESC_FORMAT for reserved bits (R62). -/
def State.movAddr (s : State) (d i c : Nat) (w : BitVec 64) : BitVec 16 × MovAddr :=
  let sp := bits w 63 62
  let r := bits w 61 54
  let a := bits w 47 0
  if bits w 53 48 != 0 || (sp != 3 && r != 0) then (0x1001, .va a)
  else match sp with
    | 0 => (0, .va a)
    | 1 => (0, .loc (storeBase d i) 0x80_0000 a)
    | 2 => (0, .loc (scratchBase d i) 0x4_0000 a)
    | _ => match s.rankCore c r with
      | some (d', i') => (0, .loc (storeBase d' i') 0x80_0000 a)
      | none => (0, .unplaced)

/-- The checks of a mover operand of `len` bytes (R62, R212, R80). -/
def State.movCode (s : State) (c : Nat) (m : MovAddr) (need : Nat → Bool) (len : Nat) : BitVec 16 :=
  match m with
  | .va a => s.operandCode c a need len
  | .loc _ size off => if off + len ≤ size then 0 else 0x1002
  | .unplaced => 0x1002

end Sys2Proof.Machine
end

