-- ==== Sys2Proof/Machine/Coherence.lean ====
section
/-! DEFINITION. Caches and coherence (chapter 8): lines, homes and directories, the messages of Table 8.2, the transitions of Tables 8.3 and 8.4, write hints, recovery, reclaim and flushes. -/

namespace Sys2Proof.Machine

/-! ### Lines and caches -/

/-- Bytes of a line. -/
def lineBytes (d : BitVec 1024) : List Byte := leBytes 128 d.toNat

/-- A line from bytes. -/
def lineOf (l : List Byte) : BitVec 1024 := BitVec.ofNat 1024 (ofLe l)

/-- All ones in the sectors of a mask. -/
def secMask (m : BitVec 4) : BitVec 1024 :=
  BitVec.ofNat 1024 ((List.range 4).foldl (fun a k => if bit m k then a + (2 ^ 256 - 1) * 2 ^ (256 * k) else a) 0)

/-- `new` in the sectors of a mask and `old` elsewhere. -/
def mergeLine (old new : BitVec 1024) (m : BitVec 4) : BitVec 1024 := (old &&& ~~~secMask m) ||| (new &&& secMask m)

/-- The sectors of a line that `n` bytes at offset `o` touch. -/
def touchMask (o n : Nat) : BitVec 4 :=
  BitVec.ofNat 4 ((List.range 4).foldl (fun a k => if o < 32 * k + 32 ∧ 32 * k < o + n then a + 2 ^ k else a) 0)

/-- The sectors of a line that `n` bytes at offset `o` cover wholly. -/
def coverMask (o n : Nat) : BitVec 4 :=
  BitVec.ofNat 4 ((List.range 4).foldl (fun a k => if o ≤ 32 * k ∧ 32 * k + 32 ≤ o + n then a + 2 ^ k else a) 0)

/-- A cache of a die: cores' data caches 0 to 7 and the remote-line cache 8 of a tile, the system cache of the hub, the lines a graft site holds. -/
def State.cache (s : State) (die u : Nat) : Cache :=
  if 29 ≤ die then s.graftCaches.look (die - 29) {}
  else if die = 0 then s.sc
  else if u < 8 then (s.tile die).cpc.look u {}
  else (s.tile die).rlc

/-- A cache replaced. -/
def State.setCache (s : State) (die u : Nat) (c : Cache) : State :=
  if 29 ≤ die then (if die ≤ 32 then { s with graftCaches := s.graftCaches.put (die - 29) c } else s)
  else if die = 0 then { s with sc := c }
  else if u < 8 then s.modTile die (fun t => { t with cpc := t.cpc.put u c })
  else s.modTile die (fun t => { t with rlc := c })

/-- The caches of a die. -/
def unitsOf (die : Nat) : List Nat := if die = 0 ∨ 29 ≤ die then [8] else List.range 9

/-- A line in a cache. -/
def State.line (s : State) (die u ln : Nat) : CacheLine := (s.cache die u).lines.look ln {}

/-- A line in a cache set; a line in I with nothing buffered leaves the cache. -/
def State.setLine (s : State) (die u ln : Nat) (l : CacheLine) : State :=
  let c := s.cache die u
  s.setCache die u { c with lines := if l.st = .i ∧ l.wb = 0 then c.lines.del ln else c.lines.put ln l }

/-- Memory's contents of a line. -/
def State.memLine (s : State) (ln : Nat) : BitVec 1024 := lineOf (s.rd (128 * ln) 128)

/-- The poison bits of a line in memory. -/
def State.memPois (s : State) (ln : Nat) : BitVec 4 :=
  BitVec.ofNat 4 ((List.range 4).foldl (fun a k => if s.secPois (4 * ln + k) then a + 2 ^ k else a) 0)

/-- Whole sectors of a line written to memory by its home's SSU, poisoned where their bit is set (R195, R196). -/
def State.homeWrite (s : State) (c ln : Nat) (m : BitVec 4) (d : BitVec 1024) (p : BitVec 4) : State :=
  (List.range 4).foldl (fun s k =>
    if bit m k then
      (if bit p k then s.ssuPoison c (4 * ln + k) else s.ssuWr c (128 * ln + 32 * k) ((lineBytes d).drop (32 * k) |>.take 32))
    else s) s

/-! ### Homes -/

/-- The home of a line: the hub (32) for a landing slot of a host-backed segment, otherwise its logical stack (R188). -/
def State.homeOf (s : State) (ln : Nat) : Nat :=
  if s.cmpts.any (fun e => match e.2.plan with
    | some r => decide (landingBase r ≤ 128 * ln) && decide (128 * ln < landingBase r + landingSlots r * 0x20_0000)
    | none => false) then 32 else paLs (128 * ln)

def State.home (s : State) (h : Nat) : Stack := if h = 32 then s.hubHome else s.stack h

def State.modHome (s : State) (h : Nat) (f : Stack → Stack) : State :=
  if h = 32 then { s with hubHome := f s.hubHome } else s.modStack h f

/-- The die of a home. -/
def State.homeDie (s : State) (h : Nat) : Nat := if h = 32 then 0 else (s.stack h).die

/-- A line's directory entry. -/
def State.dirEnt (s : State) (h ln : Nat) : DirEnt := (s.home h).dir.look ln {}

/-- A directory entry set with a fresh recency stamp; I needs no entry (R190). -/
def State.setDir (s : State) (h ln : Nat) (e : DirEnt) : State :=
  s.modHome h (fun t =>
    if e.st = .i then { t with dir := t.dir.del ln }
    else { t with clock := t.clock + 1, dir := t.dir.put ln { e with used := t.clock + 1 } })

/-- The sharer bit of a die. -/
def dieBit (d : Nat) : BitVec 33 := BitVec.ofNat 33 (2 ^ d)

/-- The dies of a sharer vector, ascending. -/
def diesOf (v : BitVec 33) : List Nat := (List.range 33).filter (fun d => bit v d)

/-- A message put on the mesh. -/
def State.send (s : State) (m : CohMsg) : State := { s with coh := s.coh ++ [m] }

/-- The message class of a coherence message: 0 request, 1 snoop, 2 response, 3 data (Table 8.2, R224). -/
def CohMsg.mclass (m : CohMsg) : Nat :=
  match m.kind with
  | .rdShared | .rdUnique | .upgrade | .markDirty | .wrBack | .evictClean | .rdNc | .wrNc | .recoverDone => 0
  | .snpShared | .snpInv => 1
  | .pushLine | .ackData => 3
  | .grantS | .grantE => if m.mask = 0 then 2 else 3
  | .ack | .dirtyAck | .dirtyStale | .wbAck | .pushAck | .pushDecline | .recoverAck => 2

/-- The message at place `n`, when it is of kind `k` and the earliest of its class from its source to its destination about its line (R193, R203), with the state after it has left the mesh. -/
def State.take (s : State) (n : Nat) (k : CohKind) : Option (CohMsg × State) :=
  match s.coh[n]? with
  | some m =>
    if m.kind = k && !((s.coh.take n).any (fun x => x.src == m.src && x.dst == m.dst && x.line == m.line && x.mclass == m.mclass)) then
      some (m, { s with coh := s.coh.eraseIdx n })
    else none
  | none => none

/-- The service class of what a unit of a die asks for: that of the descriptor whose rank its core runs (Table 11.2). -/
def State.unitCls (s : State) (die u : Nat) : BitVec 3 :=
  if isTileDie die ∧ u < 8 then (match (s.core die u).run with | some r => r.cls | none => 0) else 0

/-- An agent's request to a line's home. -/
def State.request (s : State) (k : CohKind) (die u ln c : Nat) (mask : BitVec 4) (d : BitVec 1024) (p : BitVec 4) (cls : BitVec 3 := s.unitCls die u) : State :=
  let h := s.homeOf ln
  (if isTileDie die && decide (u < 8) then s.offer die (8 + u) cls.toNat c (k == .wrBack) [(128 * ln, 128)] else s).send
    { kind := k, src := die, unit := u, dst := s.homeDie h, home := h, line := ln, mask := mask, data := d, pois := p, cmpt := c, cls := cls }

/-- A home's answer or snoop to an agent. -/
def State.answer (s : State) (k : CohKind) (h die u ln c : Nat) (mask : BitVec 4) (d : BitVec 1024) (p : BitVec 4) (cls : BitVec 3 := 0) : State :=
  s.send { kind := k, src := s.homeDie h, unit := u, dst := die, home := h, line := ln, mask := mask, data := d, pois := p, cmpt := c, toAgent := true, cls := cls }

/-- The directory set of a line: 65,536 sets of 16 entries; the index function is the model's (log 14). -/
def dirSet (ln : Nat) : Nat := ln % 65536

/-- The entries of a line's set. -/
def State.setEntries (s : State) (h ln : Nat) : Tab DirEnt := (s.home h).dir.filter (fun e => dirSet e.1 == dirSet ln)

/-- Whether a line has an active transaction. -/
def State.busy (s : State) (h ln : Nat) : Bool := (s.home h).txns.has ln

/-- A transaction opened with snoops to the given dies. -/
def State.openTxn (s : State) (h ln : Nat) (k : CohKind) (dies : List Nat) (t : HomeTxn) : State :=
  let v := dies.foldl (fun a d => a ||| dieBit d) 0
  let s := s.modHome h (fun x => { x with txns := x.txns.put ln { t with await := v } })
  dies.foldl (fun s d => s.answer k h d 8 ln (match t.req with | some m => m.cmpt | none => 0) 0 0 0 (match t.req with | some m => m.cls | none => 0)) s

/-- The target die of a write hint (R200), none when nothing is pushed. -/
def State.hintDie (s : State) (m : CohMsg) : Option Nat :=
  let w := m.hint.toNat
  let t : Option Nat :=
    if w = 1 then some 0
    else if w = 2 then some m.src
    else if 8 ≤ w then
      let e := (s.cmpt m.cmpt).whint.look (w - 8) 0
      if bit e 15 then (s.rankCore m.cmpt (bits e 7 0)).map (·.1) else none
    else none
  match t with
  | some d => if d ≤ 28 ∧ (d = 0 ∨ d ≠ s.homeDie m.home) then some d else none
  | none => none

/-- A write's bytes merged over memory: whole sectors of the mask, or the bytes its byte mask names (R171). -/
def State.ncMerge (s : State) (m : CohMsg) : State :=
  (List.range 4).foldl (fun s k =>
    if bit m.mask k then
      let bm := bits m.bytes (32 * k + 31) (32 * k)
      if bit m.pois k then s.ssuPoison m.cmpt (4 * m.line + k)
      else if bm = 0 ∨ bm = 2 ^ 32 - 1 then s.ssuWr m.cmpt (128 * m.line + 32 * k) ((lineBytes m.data).drop (32 * k) |>.take 32)
      else (List.range 32).foldl (fun s j =>
        if bm / 2 ^ j % 2 = 1 then s.ssuWr m.cmpt (128 * m.line + 32 * k + j) ((lineBytes m.data).drop (32 * k + j) |>.take 1) else s) s
    else s) s

/-- Data returned to a cacheless agent: a graft site's gate receives it. -/
def State.ncReply (s : State) (m : CohMsg) : State :=
  if 29 ≤ m.src then (s.gateEnd m.src m.line).emit (.gateLine (m.src - 29) 2 m.line (lineBytes (s.memLine m.line)) (s.memPois m.line)) else s

/-- The entry of a line that a die now owns: E, or M with every sector dirty when the die is a graft site (R192). -/
def ownedBy (die : Nat) : DirEnt := if 29 ≤ die then { st := .m, sharers := dieBit die, dirty := 0xF } else { st := .e, sharers := dieBit die }

/-- The end of a live sender's request once no snoop is awaited: memory is current, the grant or answer goes out and the directory takes its next state (Table 8.4). -/
def State.finishLive (s : State) (m : CohMsg) : State :=
  let h := m.home
  let e := s.dirEnt h m.line
  let q := dieBit m.src
  let grant (k : CohKind) (s : State) : State := s.answer k h m.src m.unit m.line m.cmpt m.mask (s.memLine m.line) (s.memPois m.line) m.cls
  let close (s : State) : State := s.modHome h (fun t => { t with txns := t.txns.del m.line })
  match m.kind with
  | .rdShared =>
    if e.st = .i then close (grant .grantE (s.setDir h m.line (ownedBy m.src)))
    else if m.mask != 0xF && (e.sharers &&& q) != 0 then close (grant (if e.st = .s then .grantS else .grantE) s)
    else close (grant .grantS (s.setDir h m.line { st := .s, sharers := e.sharers ||| q }))
  | .rdUnique => close (grant .grantE (s.setDir h m.line (ownedBy m.src)))
  | .upgrade =>
    let had := e.st = .s ∧ (e.sharers &&& q) != 0
    let s := s.setDir h m.line (ownedBy m.src)
    if had then close (s.answer .grantE h m.src m.unit m.line m.cmpt 0 0 0 m.cls)
    else close (s.answer .grantE h m.src m.unit m.line m.cmpt 0xF (s.memLine m.line) (s.memPois m.line) m.cls)
  | .rdNc =>
    let s := if e.st = .e ∨ e.st = .m then s.setDir h m.line { st := .s, sharers := e.sharers } else s
    close (s.ncReply m)
  | .wrNc =>
    let s := (if m.done then s else s.ncMerge m).setDir h m.line { st := .i }
    let s := if 29 ≤ m.src then (s.gateEnd m.src m.line).emit (.gate (m.src - 29) 3 m.line []) else s
    match s.hintDie m with
    | some d =>
      -- the entry that a PUSH_ACK will need is kept for the target while the line is busy (R191, R195)
      let s := (s.setDir h m.line { st := .e, sharers := dieBit d }).modHome h (fun t => { t with txns := t.txns.put m.line { req := some m, pushing := true } })
      s.answer .pushLine h d 8 m.line m.cmpt m.mask (s.memLine m.line) (s.memPois m.line) m.cls
    | none => close s
  | _ => close s

/-- A line's entry without a die, and what was on its way to the die about it: a grant to a dead die counts as delivered and is reclaimed (R206). -/
def State.forget (s : State) (h ln die : Nat) : State :=
  let e := s.dirEnt h ln
  let s := { s with coh := s.coh.filter (fun m => !(m.toAgent && m.dst == die && m.line == ln)) }
  let v := e.sharers &&& ~~~dieBit die
  if bit e.sharers die then s.setDir h ln (if v = 0 then { st := .i } else { e with sharers := v }) else s

/-- The end of a request's transaction (Table 8.4); that of a sender that has died leaves it no line (R206). -/
def State.finishReq (s : State) (m : CohMsg) : State := if m.dead then (s.finishLive m).forget m.home m.line m.src else s.finishLive m

/-- The snoops a request needs: their kind and the dies (Table 8.4). -/
def snoopsFor (m : CohMsg) (e : DirEnt) : CohKind × List Nat :=
  let owned := e.st = .e ∨ e.st = .m
  match m.kind with
  | .rdShared => if owned ∧ ¬(m.mask != 0xF ∧ (e.sharers &&& dieBit m.src) != 0) then (.snpShared, diesOf e.sharers) else (.snpShared, [])
  | .rdNc => if owned then (.snpShared, diesOf e.sharers) else (.snpShared, [])
  | .rdUnique => (.snpInv, diesOf (if e.st = .s then e.sharers &&& ~~~dieBit m.src else e.sharers))
  | .upgrade => (.snpInv, diesOf (if e.st = .s then e.sharers &&& ~~~dieBit m.src else e.sharers))
  | .wrNc => (.snpInv, diesOf e.sharers)
  | _ => (.snpInv, [])

/-- Whether a request needs a new directory entry: a read of a line in I, or a hinted write to one, whose push makes an owner (R191). -/
def State.needsEntry (s : State) (m : CohMsg) (e : DirEnt) : Bool :=
  e.st == .i && (m.kind == .rdShared || m.kind == .rdUnique || m.kind == .upgrade || (m.kind == .wrNc && (s.hintDie m).isSome))

/-- A request started at its idle line (Table 8.4, R191); the Boolean says whether it was started, and not left waiting for a recall. -/
def State.startReq (s : State) (m : CohMsg) : State × Bool :=
  let h := m.home
  let e := s.dirEnt h m.line
  let q := dieBit m.src
  match m.kind with
  | .markDirty =>
    if (e.st = .e ∨ e.st = .m) ∧ e.sharers = q then
      ((s.setDir h m.line { e with st := .m, dirty := e.dirty ||| m.mask }).answer .dirtyAck h m.src m.unit m.line m.cmpt m.mask 0 0 m.cls, true)
    else (s.answer .dirtyStale h m.src m.unit m.line m.cmpt m.mask 0 0 m.cls, true)
  | .wrBack =>
    let s := if (e.st = .e ∨ e.st = .m) ∧ e.sharers = q then (s.homeWrite m.cmpt m.line m.mask m.data m.pois).setDir h m.line { st := .i }
      else if (s.home h).recover.contains m.src then s.homeWrite m.cmpt m.line m.mask m.data m.pois
      else s
    (s.answer .wbAck h m.src m.unit m.line m.cmpt m.mask 0 0 m.cls, true)
  | .evictClean =>
    let s := if (e.st = .e ∨ (e.st = .m ∧ 29 ≤ m.src)) ∧ e.sharers = q then s.setDir h m.line { st := .i } else s
    (s.answer .ack h m.src m.unit m.line m.cmpt 0 0 0 m.cls, true)
  | _ =>
    if s.needsEntry m e && decide ((s.setEntries h m.line).length ≥ 16) then
      -- R191: recall the least recently used entry whose line has no active transaction
      if (s.home h).txns.any (fun t => t.2.isRecall && t.2.victimOf == some m.line) then (s, false)
      else
        match ((s.setEntries h m.line).filter (fun x => !s.busy h x.1)).foldl
            (fun (b : Option (Nat × DirEnt)) x => match b with | none => some x | some y => if x.2.used < y.2.used then some x else some y) none with
        | none => (s, false)
        | some (v, ve) =>
          let s := s.modHome h (fun t => { t with recallCount := satAdd t.recallCount 1 })
          (s.openTxn h v .snpInv (diesOf ve.sharers) { isRecall := true, victimOf := some m.line }, false)
    else
      let (k, dies) := snoopsFor m e
      -- a GRANT to an upgrade whose sender lost the line carries data, as for RD_UNIQUE
      let s := s.openTxn h m.line k dies { req := some m }
      if dies.isEmpty then (s.finishReq m, true) else (s, true)

/-- Requests that recovery holds back (R207). -/
def heldByRecovery (k : CohKind) : Bool := !(k == .wrBack || k == .recoverDone)

/-- Requests that read or write the line in memory, which a running rebuild of one of its sectors holds back (R179). -/
def readsLine (k : CohKind) : Bool := k == .rdShared || k == .rdUnique || k == .upgrade || k == .rdNc || k == .wrNc

/-- Queued requests started one by one in order of arrival, each when its line is idle and no earlier request for it waits (R197). -/
def State.drainGo : Nat → State → Nat → State
  | 0, s, _ => s
  | fuel + 1, s, h =>
    let t := s.home h
    match findPos (fun p => !s.busy h p.1.line && !((t.hq.take p.2).any (fun x => x.line == p.1.line)) &&
        (t.recover.isEmpty || !heldByRecovery p.1.kind) && !(readsLine p.1.kind && s.readWaits [(128 * p.1.line, 128)]) &&
        !(s.needsEntry p.1 (s.dirEnt h p.1.line) && decide ((s.setEntries h p.1.line).length ≥ 16) &&
          ((t.txns.any (fun x => x.2.isRecall && x.2.victimOf == some p.1.line)) || (s.setEntries h p.1.line).all (fun x => s.busy h x.1)))) t.hq.zipIdx with
    | none => s
    | some i =>
      match t.hq[i]? with
      | none => s
      | some m =>
        let (s', ok) := s.startReq m
        let s' := if ok then s'.modHome h (fun t => { t with hq := t.hq.eraseIdx i }) else s'
        State.drainGo fuel s' h

def State.drain (s : State) (h : Nat) : State := State.drainGo (2 * (s.home h).hq.length + 1) s h

/-- A coherent request arrives at its home and joins the queue (R197). -/
def State.arrive (s : State) (m : CohMsg) : State :=
  (s.modHome m.home (fun t => { t with hq := t.hq ++ [m] })).drain m.home

/-- A snoop answer of a die recorded; when the last is in, the transaction ends and queued requests start (R195, R197). -/
def State.snoopDone (s : State) (h ln die : Nat) : State :=
  match (s.home h).txns.find? (fun t => t.1 == ln) with
  | none => s
  | some (_, t) =>
    if !bit t.await die then s
    else
      let v := t.await &&& ~~~dieBit die
      let s := s.modHome h (fun x => { x with txns := x.txns.put ln { t with await := v } })
      if v != 0 then s
      else match t.req with
        | some m => (s.finishReq m).drain h
        | none => ((s.setDir h ln { st := .i }).modHome h (fun x => { x with txns := x.txns.del ln })).drain h

/-! ### Agents (Table 8.3) -/

/-- Whether a line's home takes what a die holds of it for the newest: it owns the line, or writes it back after the loss of its home (R195, R207). -/
def State.owns (s : State) (die ln : Nat) : Bool :=
  let h := s.homeOf ln
  let e := s.dirEnt h ln
  ((e.st == .e || e.st == .m) && e.sharers == dieBit die) || (s.home h).recover.contains die

/-- The sectors a die holds dirty, or buffered while the write-back still counts, their data and their poison bits. -/
def State.dieDirty (s : State) (die ln : Nat) : BitVec 4 × BitVec 1024 × BitVec 4 :=
  (unitsOf die).foldl (fun a u =>
    let l := s.line die u ln
    let m := l.dirty ||| (if s.owns die ln then l.wb else 0)
    (a.1 ||| m, mergeLine a.2.1 l.data m, (a.2.2 &&& ~~~m) ||| (l.pois &&& m))) (0, 0, 0)

/-- Every cache of a die changes its line to S with clean sectors, or drops it; a buffered write-back stays until WB_ACK. -/
def State.dieDowngrade (s : State) (die ln : Nat) (inv : Bool) : State :=
  (unitsOf die).foldl (fun s u =>
    let l := s.line die u ln
    if l.st = .i then s
    else if inv then s.setLine die u ln { l with st := .i, valid := 0, dirty := 0, marking := false }
    else s.setLine die u ln { l with st := .s, dirty := 0 }) s

/-- Free way of a cache set for a compartment, under its allotment (R204): 8,192 sets of 16 ways in a remote-line cache, 65,536 of 32 in the system cache. -/
def State.freeWay (s : State) (die ln c : Nat) : Option Nat :=
  let sets := if die = 0 then 65536 else 8192
  let ways := match (s.cmpt c).plan with
    | some r => if die = 0 then r.scWays.toNat else r.rlcWays.toNat
    | none => 0
  let used := ((s.cache die 8).lines.filter (fun e => e.1 % sets == ln % sets && e.2.st != .i)).map (fun e => e.2.way)
  (List.range (if die = 0 then 32 else 16)).find? (fun w => decide (ways / 2 ^ w % 2 = 1) && !used.contains w)

/-- Whether a lookup of compartment `c` may hit a line: a line an active vitrine allocated answers only the vitrine (R204). -/
def State.mayHit (s : State) (c : Nat) (l : CacheLine) : Bool := l.cmpt == c || !(s.cmpt l.cmpt).active

/-- A granted line taken into a requester's cache: carried sectors become valid, sectors already dirty stay (R194, R196). -/
def State.fill (s : State) (m : CohMsg) (st : LineSt) : State :=
  let put (s : State) (u : Nat) (way : Nat) : State :=
    let l := s.line m.dst u m.line
    let take := m.mask &&& ~~~l.dirty
    s.setLine m.dst u m.line { l with
      st := if l.st = .m ∧ st = .e then .m else st
      valid := (if l.st = .i then 0 else l.valid) ||| m.mask
      pois := (l.pois &&& ~~~take) ||| (m.pois &&& take)
      data := mergeLine l.data m.data take
      cmpt := m.cmpt
      way := way }
  if m.dst = 0 ∨ 29 ≤ m.dst ∨ m.unit ≥ 8 then put s 8 (s.line m.dst 8 m.line).way
  else
    let s := put s m.unit 0
    -- a line homed at another die is also held in the tile's remote-line cache where a way is allotted and free
    if s.homeDie m.home != m.dst && (s.line m.dst 8 m.line).st == .i then
      match s.freeWay m.dst m.line m.cmpt with
      | some w => put s 8 w
      | none => s
    else s

/-- The line of a virtual address for a control processor: its physical line and offset, or the page that is absent. An access in progress (`began`) keeps its slot while a page-out waits for it (Table 9.4). -/
def State.cpPlace (s : State) (c va : Nat) (began : Bool) : Place :=
  let e := s.seg c (vaSeg va)
  match (if began ∧ e.typ = 3 then (s.cmpt c).slotHolding (vaSeg va) (vaOff va / 0x20_0000) else none), (s.cmpt c).plan with
  | some k, some r => .phys (landingBase r + k * 0x20_0000 + vaOff va % 0x20_0000)
  | _, _ => s.place c (vaSeg va) e (vaOff va)

/-- The result of a load into a register: x0 stays zero. -/
def Core.setX (c : Core) (rd : Nat) (v : BitVec 64) : Core := if rd = 0 ∨ 32 ≤ rd then c else { c with x := c.x.put rd v }

/-- A value loaded into a register: 0 to 31 integer, zero-extended; 32 to 63 floating-point, boxed in ones; 64 to 95 vector; 128 to 159 integer, sign-extended (log 16). -/
def Core.load (c : Core) (rd size v : Nat) : Core :=
  if rd < 32 then c.setX rd (BitVec.ofNat 64 v)
  else if rd < 64 then { c with f := c.f.put (rd - 32) (BitVec.ofNat 64 (if size < 8 then 2 ^ 64 - 2 ^ (8 * size) + v else v)) }
  else if rd < 96 then { c with v := c.v.put (rd - 64) (BitVec.ofNat 1024 v) }
  else if 128 ≤ rd ∧ rd < 160 then
    c.setX (rd - 128) (BitVec.ofNat 64 (if size < 8 ∧ v / 2 ^ (8 * size - 1) % 2 = 1 then 2 ^ 64 - 2 ^ (8 * size) + v else v))
  else c

/-- An exception or interrupt that enters the launch stub from user mode: mepc, mcause, mtval and mstatus as the RISC-V privileged architecture has them (R56, log 16). -/
def Core.trap (c : Core) (cause : Nat) (tval : BitVec 64) : Core :=
  let ms := c.csr.look 0x300 0
  { c with csr := (((c.csr.put 0x300 (BitVec.ofNat 64 (ms.toNat - bits ms 12 11 * 2 ^ 11 - bits ms 7 7 * 2 ^ 7 - bits ms 3 3 * 2 ^ 3 + bits ms 3 3 * 2 ^ 7))).put
      0x341 c.pc).put 0x342 (BitVec.ofNat 64 cause)).put 0x343 tval }

/-- A kernel ended with a failure: the core drains (R56, R57, R79). -/
def State.endKernel (s : State) (d i : Nat) (code : BitVec 16) (detail : BitVec 64) : State :=
  s.modCore d i (fun c => { c with
    user := false, corWait := none, portWait := none, portRest := none, pload := none, pstore := none, resv := none
    run := c.run.map (fun r => if r.exited then r else { r with exited := true, code := code, detail := detail }) })

/-- A trap of a kernel: it ends with CP_TRAP, whose DETAIL holds the cause and the faulting value (R56, Table 3.11). -/
def State.cpTrap (s : State) (d i cause : Nat) (tval : BitVec 64) : State :=
  (s.modCore d i (fun c => c.trap cause tval)).endKernel d i 0x1008 (BitVec.ofNat 64 (cause * 2 ^ 56 + bits tval 55 0))

/-- An access fault of a control-processor access: load cause 5, store cause 7; the kernel ends with CP_TRAP (R55, R56). -/
def State.accessFault (s : State) (d i : Nat) (store : Bool) (va : Nat) : State :=
  s.cpTrap d i (if store then 7 else 5) (BitVec.ofNat 64 va)

/-- The cache in which a core finds a line with the sectors `m` valid: its data cache or the tile's remote-line cache. -/
def State.cpHit (s : State) (d i c ln : Nat) (m : BitVec 4) : Option CacheLine :=
  [i, 8].findSome? (fun u =>
    let l := s.line d u ln
    if l.st != .i && (l.valid &&& m) == m && s.mayHit c l then some l else none)

/-- Bytes of a load gathered line by line: all of them, a poisoned sector, an absent page, or the line, the sectors and the cache to ask for. -/
inductive Gather where
  | done (l : List Byte)
  | poisoned
  | absent (page va : Nat)
  | miss (ln : Nat) (mask : BitVec 4) (u : Nat)

def State.gather (s : State) (d i c : Nat) (began : Bool) : Nat → Nat → Nat → Gather
  | 0, _, _ => .done []
  | fuel + 1, va, n =>
    if n = 0 then .done []
    else match s.cpPlace c va began with
      | .absent g => .absent g va
      | .phys a =>
        let k := min n (128 - a % 128)
        let ln := a / 128
        let m := touchMask (a % 128) k
        match s.cpHit d i c ln m with
        | none =>
          -- a cache of the die that holds the line fetches only the sectors it lacks (R187)
          match [i, 8].find? (fun u => (s.line d u ln).st != .i && s.mayHit c (s.line d u ln)) with
          | some u => .miss ln (m &&& ~~~(s.line d u ln).valid) u
          | none => .miss ln 0xF i
        | some l =>
          if (l.pois &&& m) != 0 then .poisoned
          else match State.gather s d i c began fuel (va + k) (n - k) with
            | .done t => .done ((lineBytes l.data |>.drop (a % 128)).take k ++ t)
            | g => g
      | _ => .poisoned

/-- Whether a core's request for a line is already on its way. -/
def State.asked (s : State) (d i ln : Nat) : Bool :=
  s.coh.any (fun m => m.line == ln && m.unit == i && ((!m.toAgent && m.src == d) || (m.toAgent && m.dst == d))) ||
  (let t := s.home (s.homeOf ln); t.hq.any (fun m => m.line == ln && m.src == d && m.unit == i) ||
    t.txns.any (fun x => x.1 == ln && match x.2.req with | some m => m.src == d && m.unit == i | none => false))

/-- A load performed as far as its lines allow: it completes, waits in a fault record, faults, or asks the home (R194, R215). -/
def State.tryLoad (s : State) (d i : Nat) : State :=
  match (s.core d i).pload with
  | none => s
  | some p =>
    let c := s.coreCmpt d i
    match s.gather d i c p.began 4 p.va p.size with
    | .done l => s.modCore d i (fun x => { (x.load p.rd p.size (ofLe l)) with pload := none })
    | .poisoned => s.accessFault d i false p.va
    | .absent g va => s.pageFault c (vaSeg va) g va { cp := some (d, i), write := false, va := va }
    | .miss ln m u =>
      let s := s.modCore d i (fun x => { x with pload := some { p with began := true } })
      if s.asked d u ln then s else s.request .rdShared d u ln c m 0 0 (s.unitCls d i)

/-- A store performed on a dirty sector, or the request it needs (Table 8.3). One line at a time. -/
def State.tryStoreGo : Nat → State → Nat → Nat → State
  | 0, s, _, _ => s
  | fuel + 1, s, d, i =>
    match (s.core d i).pstore with
    | none => s
    | some p =>
      if p.data.isEmpty then s.modCore d i (fun x => { x with pstore := none })
      else
        let c := s.coreCmpt d i
        match s.cpPlace c p.va p.began with
        | .absent g => s.pageFault c (vaSeg p.va) g p.va { cp := some (d, i), write := true, va := p.va }
        | .phys a =>
          let k := min p.data.length (128 - a % 128)
          let ln := a / 128
          let m := touchMask (a % 128) k
          let l := s.line d i ln
          if l.st = .m ∧ (l.dirty &&& m) = m then
            -- performed; every other cache of the die drops its copy
            let b := lineBytes l.data
            let nd := lineOf (b.take (a % 128) ++ p.data.take k ++ b.drop (a % 128 + k))
            let s := (unitsOf d).foldl (fun s u => if u = i then s else
              let o := s.line d u ln; if o.st = .i then s else s.setLine d u ln { o with st := .i, valid := 0, dirty := 0 }) s
            let s := s.setLine d i ln { l with data := nd, pois := l.pois &&& ~~~coverMask (a % 128) k }
            let s := s.markDirtySlots c (vaSeg p.va) (s.seg c (vaSeg p.va)) (vaOff p.va) k
            let s := s.modCore d i (fun x => { x with pstore := some { p with va := p.va + k, data := p.data.drop k } })
            State.tryStoreGo fuel s d i
          else
            let s := s.modCore d i (fun x => { x with pstore := some { p with began := true } })
            if s.asked d i ln then s
            else if (l.st = .e ∨ l.st = .m) ∧ (l.valid &&& m) = m then
              (s.setLine d i ln { l with marking := true }).request .markDirty d i ln c m 0 0
            else if l.st = .i then s.request .rdUnique d i ln c 0xF 0 0
            else if (l.valid &&& m) ≠ m then s.request .rdShared d i ln c (m &&& ~~~l.valid) 0 0
            else s.request .upgrade d i ln c 0 0 0
        | _ => s.accessFault d i true p.va

def State.tryStore (s : State) (d i : Nat) : State := State.tryStoreGo 4 s d i

/-- A core's waiting access tried again. -/
def State.retry (s : State) (d i : Nat) : State := if isTileDie d ∧ i < 8 then (s.tryLoad d i).tryStore d i else s

/-- Every core of a tile tries its waiting access again. -/
def State.retryDie (s : State) (d : Nat) : State := if isTileDie d then (List.range 8).foldl (fun s i => s.retry d i) s else s

/-! ### Accesses of cacheless units performed at once

A mover, SSU, dispatcher or PCIe transfer reads with RD_NC and writes with WR_NC; the model performs the whole line transaction in the command that makes the transfer (log 15). -/

/-- Whether a line lies in the byte range. -/
def lineIn (a n ln : Nat) : Bool := decide (a / 128 ≤ ln) && decide (128 * ln < a + n) && decide (n ≠ 0)

/-- Dirty and buffered sectors of a range written to memory, and the copies kept clean (`inv` false) or dropped; answers in flight, and write-backs to a home that recovers, give their data up first. -/
def State.settle (s : State) (a n : Nat) (inv : Bool) : State :=
  let gives (m : CohMsg) : Bool := lineIn a n m.line && (m.kind == .ackData || (m.kind == .wrBack && (s.home m.home).recover.contains m.src))
  let s' := s.coh.foldl (fun s m => if gives m then s.homeWrite m.cmpt m.line m.mask m.data m.pois else s) s
  let s := { s' with coh := s'.coh.map (fun m => if gives m then { m with mask := 0 } else m) }
  let dies := 0 :: (s.tiles.keys ++ s.graftCaches.keys.map (· + 29))
  let s := dies.foldl (fun s d =>
    let lines := ((unitsOf d).flatMap (fun u => ((s.cache d u).lines.filter (fun e => lineIn a n e.1)).map (·.1))).dedup
    lines.foldl (fun s ln =>
      let (m, dat, p) := s.dieDirty d ln
      (s.homeWrite ((s.line d 8 ln).cmpt) ln m dat p).dieDowngrade d ln inv) s) s
  let homes := 32 :: s.stk.keys
  homes.foldl (fun s h =>
    (s.home h).dir.foldl (fun s e =>
      if lineIn a n e.1 && !s.busy h e.1 && !(s.coh.any (fun m => m.toAgent && m.line == e.1)) then
        (if inv then s.setDir h e.1 { st := .i } else if e.2.st = .s then s else s.setDir h e.1 { e.2 with st := .s, dirty := 0 })
      else s) s) s

/-- Grants and pushes in flight carry what memory now holds. -/
def State.refresh (s : State) (a n : Nat) : State :=
  { s with coh := s.coh.map (fun m =>
      if m.toAgent && lineIn a n m.line && (m.kind == .grantS || m.kind == .grantE || m.kind == .pushLine) && m.mask != 0 then
        { m with data := s.memLine m.line, pois := s.memPois m.line } else m) }

/-- Bytes read as RD_NC reads them: after every owner's dirty sectors have reached memory. -/
def State.ncSettle (s : State) (a n : Nat) : State := s.settle a n false

/-- Bytes written as WR_NC writes them, with the source's poison. -/
def State.ncWrite (s : State) (c a : Nat) (l : List Byte) (bad : Nat → Bool) : State :=
  ((s.settle a l.length true).ssuWrPois c a l bad).refresh a l.length

/-- A request held by a full home queue waits in the mesh (R197). -/
def homeQueue : Nat := 4096

/-- A clean copy of each written line pushed under a write hint: the home takes the hinted write, whose data memory already holds, in its order for the line (R195, R200, R201). -/
def State.pushHint (s : State) (c die hint a n : Nat) : State :=
  if hint = 0 ∨ n = 0 then s
  else (List.range ((a + n - 1) / 128 - a / 128 + 1)).foldl (fun s j =>
    let ln := a / 128 + j
    let h := s.homeOf ln
    let m : CohMsg := { kind := .wrNc, src := die, home := h, line := ln, cmpt := c, hint := BitVec.ofNat 4 hint, done := true
                        mask := touchMask (max a (128 * ln) - 128 * ln) (min (a + n) (128 * ln + 128) - max a (128 * ln)) }
    if (s.hintDie m).isSome ∧ (s.home h).hq.length < homeQueue then s.arrive m else s) s

/-! ### The commands -/

/-- A request that meets the destination of an open aggregation window is refused: a core's access faults, a store that waits for MARK_DIRTY begins again and then faults, a write-back is dropped, and a chiplet's access is refused at its gate (R133). -/
def State.refuseLine (s : State) (m : CohMsg) : State :=
  let e := s.dirEnt m.home m.line
  match m.kind with
  | .markDirty => s.answer .dirtyStale m.home m.src m.unit m.line m.cmpt m.mask 0 0 m.cls
  | .wrBack =>
    (if (e.st = .e ∨ e.st = .m) ∧ e.sharers = dieBit m.src then s.setDir m.home m.line { st := .i } else s).answer .wbAck m.home m.src m.unit m.line m.cmpt m.mask 0 0 m.cls
  | _ =>
    if 29 ≤ m.src then (s.gateEnd m.src m.line).emit (.gateLine (m.src - 29) 1 0x7002 (List.replicate 128 0) 0xF)
    else (List.range 8).foldl (fun s i =>
      let mine (va : Nat) : Bool := match s.cpPlace (s.coreCmpt m.src i) va true with | .phys a => a / 128 == m.line | _ => false
      match (s.core m.src i).pload, (s.core m.src i).pstore with
      | some p, _ => if mine p.va then s.accessFault m.src i false p.va else s
      | none, some p => if mine p.va then s.accessFault m.src i true p.va else s
      | none, none => s) s

/-- A request of the given kind arrives at its home; one for a full home queue waits in the mesh (R197), and one that meets an open aggregation window is refused (R133). -/
def State.homeArrival (s : State) (n : Nat) (k : CohKind) : State :=
  match s.take n k with
  | some (m, s') =>
    if m.toAgent then s'
    else if homeQueue ≤ (s.home m.home).hq.length then s
    else if k != .evictClean && s.clipHit (128 * m.line) 128 then s'.refuseLine m
    else s'.arrive m
  | none => s

/-- RD_SHARED (R195). -/
def execRdShared (n : Nat) (s : State) : Res := upDo s (fun s => s.homeArrival n .rdShared)

/-- RD_UNIQUE (R195). -/
def execRdUnique (n : Nat) (s : State) : Res := upDo s (fun s => s.homeArrival n .rdUnique)

/-- UPGRADE (R195). -/
def execUpgrade (n : Nat) (s : State) : Res := upDo s (fun s => s.homeArrival n .upgrade)

/-- MARK_DIRTY (R192, R195). -/
def execMarkDirty (n : Nat) (s : State) : Res := upDo s (fun s => s.homeArrival n .markDirty)

/-- WR_BACK (R195). -/
def execWrBack (n : Nat) (s : State) : Res := upDo s (fun s => s.homeArrival n .wrBack)

/-- EVICT_CLEAN (R195). -/
def execEvictClean (n : Nat) (s : State) : Res := upDo s (fun s => s.homeArrival n .evictClean)

/-- RD_NC (R195). -/
def execRdNc (n : Nat) (s : State) : Res := upDo s (fun s => s.homeArrival n .rdNc)

/-- WR_NC (R195, R200). -/
def execWrNc (n : Nat) (s : State) : Res := upDo s (fun s => s.homeArrival n .wrNc)

/-- A die answers a snoop with the sectors it holds dirty or buffered, or that its chiplet returned, and gives the line up; a store that lost the line restarts (Table 8.3). -/
def State.snoopAnswer (s : State) (m : CohMsg) (inv : Bool) (dirty : BitVec 4) (data : BitVec 1024) : State :=
  let (d0, dat0, p0) := s.dieDirty m.dst m.line
  let d := d0 ||| dirty
  let s := s.dieDowngrade m.dst m.line inv
  let s := s.send { kind := if d = 0 then .ack else .ackData, src := m.dst, unit := 8, dst := m.src, home := m.home, line := m.line, mask := d
                    data := mergeLine dat0 data dirty, pois := p0 &&& ~~~dirty, cmpt := m.cmpt, cls := m.cls }
  if inv then s.retryDie m.dst else s

/-- A snoop at a die; at a graft site it becomes one CXL snoop for each half of the line, SnpData or SnpInv, which the chiplet answers (R202, Table 8.6). -/
def State.snoop (s : State) (m : CohMsg) (inv : Bool) : State :=
  if 29 ≤ m.dst then
    let k := m.dst - 29
    let n := s.serial
    let s := { s.modSite k (fun x => { x with snps := x.snps ++ [{ id := n, msg := m, inv := inv }] }) with serial := n + 2 }
    let kind := if inv then 8 else 7
    (s.emit (.gate k kind n (leBytes 8 (128 * m.line)))).emit (.gate k kind (n + 1) (leBytes 8 (128 * m.line + 64)))
  else s.snoopAnswer m inv 0 0

/-- SNP_SHARED (Table 8.3). -/
def execSnpShared (n : Nat) (s : State) : Res := upDo s (fun s => match s.take n .snpShared with | some (m, s) => s.snoop m false | none => s)

/-- SNP_INV (Table 8.3). -/
def execSnpInv (n : Nat) (s : State) : Res := upDo s (fun s => match s.take n .snpInv with | some (m, s) => s.snoop m true | none => s)

/-- PUSH: taken in E into a free allotted way when the target holds the line in I or S, otherwise declined (R194, R200, R201). -/
def State.pushTo (s : State) (m : CohMsg) : State :=
  let l := s.line m.dst 8 m.line
  let reply (k : CohKind) (s : State) : State := s.send { kind := k, src := m.dst, unit := 8, dst := m.src, home := m.home, line := m.line, cmpt := m.cmpt, cls := m.cls }
  match (if l.st = .i then s.freeWay m.dst m.line m.cmpt else if l.st = .s then some l.way else none) with
  | some w => reply .pushAck (s.setLine m.dst 8 m.line { l with st := .e, valid := m.mask, dirty := 0, pois := m.pois &&& m.mask, data := m.data, cmpt := m.cmpt, way := w })
  | none => reply .pushDecline s

def execPush (n : Nat) (s : State) : Res := upDo s (fun s => match s.take n .pushLine with | some (m, s) => s.pushTo m | none => s)

/-- A grant taken by the requester; a graft site's gate answers GO and a waiting access goes on (R194, R202). -/
def State.granted_ (s : State) (m : CohMsg) (st : LineSt) : State :=
  if 29 ≤ m.dst then
    let l := s.line m.dst 8 m.line
    ((s.gateEnd m.dst m.line).setLine m.dst 8 m.line { l with st := st, valid := if l.valid ||| m.mask = 0 then 0xF else l.valid ||| m.mask, data := m.data, pois := m.pois, cmpt := m.cmpt }).emit
      (.gateLine (m.dst - 29) (if st = .s then 5 else 6) m.line (lineBytes m.data) m.pois)
  else (s.fill m st).retryDie m.dst

/-- GRANT_S (R194, R196). -/
def execGrantS (n : Nat) (s : State) : Res := upDo s (fun s => match s.take n .grantS with | some (m, s) => s.granted_ m .s | none => s)

/-- GRANT_E (R194, R196). -/
def execGrantE (n : Nat) (s : State) : Res := upDo s (fun s => match s.take n .grantE with | some (m, s) => s.granted_ m .e | none => s)

/-- ACK: a snoop answered without data; the answer to EVICT_CLEAN changes nothing at the agent (R195). -/
def execAck (n : Nat) (s : State) : Res :=
  upDo s (fun s => match s.take n .ack with | some (m, s) => if m.toAgent then s.gateEnd m.dst m.line else s.snoopDone m.home m.line m.src | none => s)

/-- ACK_DATA: returned dirty sectors reach memory, and the transaction goes on (R195). -/
def execAckData (n : Nat) (s : State) : Res :=
  upDo s (fun s => match s.take n .ackData with
    | some (m, s) => (s.homeWrite m.cmpt m.line m.mask m.data m.pois).snoopDone m.home m.line m.src
    | none => s)

/-- DIRTY_ACK: the pending store is performed (R192). -/
def State.dirtyAcked (s : State) (m : CohMsg) : State :=
  let l := s.line m.dst m.unit m.line
  if l.marking && (l.st == .e || l.st == .m) then
    (s.setLine m.dst m.unit m.line { l with st := .m, dirty := l.dirty ||| m.mask, marking := false }).retryDie m.dst
  else s.retryDie m.dst

def execDirtyAck (n : Nat) (s : State) : Res := upDo s (fun s => match s.take n .dirtyAck with | some (m, s) => s.dirtyAcked m | none => s)

/-- DIRTY_STALE: the agent no longer owns the line, and its store restarts from I (R195). -/
def State.dirtyStaled (s : State) (m : CohMsg) : State :=
  let l := s.line m.dst m.unit m.line
  if l.marking then (s.setLine m.dst m.unit m.line { l with st := .i, valid := 0, dirty := 0, marking := false }).retryDie m.dst else s.retryDie m.dst

def execDirtyStale (n : Nat) (s : State) : Res := upDo s (fun s => match s.take n .dirtyStale with | some (m, s) => s.dirtyStaled m | none => s)

/-- WB_ACK: the write-back buffer releases its sectors (R194). -/
def execWbAck (n : Nat) (s : State) : Res :=
  upDo s (fun s => match s.take n .wbAck with
    | some (m, s) => let l := s.line m.dst m.unit m.line; (s.gateEnd m.dst m.line).setLine m.dst m.unit m.line { l with wb := 0 }
    | none => s)

/-- The end of a push at its home. -/
def State.pushEnd (s : State) (m : CohMsg) (own : Bool) : State :=
  match (s.home m.home).txns.find? (fun t => t.1 == m.line) with
  | some (_, t) =>
    if t.pushing then
      let s := s.modHome m.home (fun x => { x with txns := x.txns.del m.line })
      (s.setDir m.home m.line (if own then { st := .e, sharers := dieBit m.src } else { st := .i })).drain m.home
    else s
  | none => s

/-- PUSH_ACK: the home records the target as owner in E (R195). -/
def execPushAck (n : Nat) (s : State) : Res := upDo s (fun s => match s.take n .pushAck with | some (m, s) => s.pushEnd m true | none => s)

/-- PUSH_DECLINE: the line stays in I and the write is complete (R200). -/
def execPushDecline (n : Nat) (s : State) : Res := upDo s (fun s => match s.take n .pushDecline with | some (m, s) => s.pushEnd m false | none => s)

/-- A line leaves an agent: silently from S, with EVICT_CLEAN from E, with WR_BACK from M (Table 8.3). `agent` is 16 × die + unit. -/
def State.evict (s : State) (die u ln : Nat) : State :=
  let l := s.line die u ln
  -- the die's bit stands for all its caches: another cache of the die may still hold the line
  let others := (unitsOf die).any (fun v => v != u && (s.line die v ln).st != .i)
  match l.st with
  | .i => s
  | .s => s.setLine die u ln { l with st := .i, valid := 0 }
  | .e => if others then s.setLine die u ln { l with st := .i, valid := 0 }
    else (s.setLine die u ln { l with st := .i, valid := 0 }).request .evictClean die u ln l.cmpt 0 0 0
  | .m =>
    if l.dirty = 0 then (s.setLine die u ln { l with st := .i, valid := 0 }).request .evictClean die u ln l.cmpt 0 0 0
    else
      -- the line leaves the die: its other caches drop their copies with it
      let s := (unitsOf die).foldl (fun s v => if v = u then s else
        let o := s.line die v ln; if o.st = .i then s else s.setLine die v ln { o with st := .i, valid := 0, dirty := 0, marking := false }) s
      (s.setLine die u ln { l with st := .i, valid := 0, dirty := 0, wb := l.dirty }).request .wrBack die u ln l.cmpt l.dirty l.data l.pois

/-- LINE_EVICTION (R194). A line with MARK_DIRTY outstanding stays. -/
def execLineEviction (agent line : Nat) (s : State) : Res :=
  upDo s (fun s => if (s.line (agent / 16) (agent % 16) line).marking then s else s.evict (agent / 16) (agent % 16) line)

/-- Every line of a cache that meets `p` written back and invalidated at once, with its directory (R205). -/
def State.flushCache (s : State) (die u : Nat) (p : CacheLine → Bool) : State :=
  ((s.cache die u).lines.filter (fun e => p e.2)).foldl (fun s e => s.settle (128 * e.1) 128 true) s

/-- TIL_RLC_FLUSH: ignored while any vitrine is active (R205, Table 8.8). -/
def execTilRlcFlush (port : Port) (die : Nat) (val : BitVec 64) (s : State) : Res :=
  upDo s (fun s =>
    if port != .pf && port != .mgmt then s.portDenied port 0x600020
    else if !bit val 0 || s.anyActive || !isTileDie die then s
    else s.flushCache die 8 (fun _ => true))

/-- HUB_SC_FLUSH: ignored while any vitrine is active (R205, Table 8.9). -/
def execHubScFlush (port : Port) (val : BitVec 64) (s : State) : Res :=
  upDo s (fun s =>
    if port != .pf && port != .mgmt then s.portDenied port 0x600008
    else if !bit val 0 || s.anyActive then s
    else s.flushCache 0 8 (fun _ => true))

/-- The dirty sectors of a dead owner poisoned in memory, with one condition report for the line and POISON events (R206). -/
def State.loseLine (s : State) (h ln : Nat) (m : BitVec 4) : State :=
  if m = 0 then s
  else
    let s := (List.range 4).foldl (fun s k => if bit m k then (s.ssuPoison 0 (4 * ln + k)).poisonEvent (paLs (128 * ln)) (paOff (128 * ln) + 32 * k) 1 else s) s
    (s.report 0x3001 0 (s.homeDie h) 0 (128 + paLs (128 * ln)) 1 (128 * ln) 128 0).modHome h (fun t => { t with cohLost := satAdd t.cohLost 1 })

/-- A home reclaims a dead die's lines (R206). -/
def State.reclaimHome (s : State) (die h : Nat) : State :=
  -- step 3: its queued requests are discarded, and grants of its active ones will count as delivered; a recovering home no longer waits for it
  let s := s.modHome h (fun t => { t with
    hq := t.hq.filter (fun m => m.src != die)
    recover := t.recover.filter (· != die)
    txns := t.txns.each (fun _ x => { x with req := x.req.map (fun m => if m.src = die then { m with dead := true } else m) }) })
  -- step 2: transactions waiting on its answer complete as if it had answered ACK, its dirty sectors poisoned first
  let s := (s.home h).txns.foldl (fun s t =>
    if bit t.2.await die then
      let e := s.dirEnt h t.1
      let s := if e.st = .m ∧ e.sharers = dieBit die then (s.loseLine h t.1 e.dirty).setDir h t.1 { e with dirty := 0 } else s
      s.snoopDone h t.1 die
    else if t.2.pushing && (match t.2.req with | some m => s.hintDie m == some die | none => false) then
      (s.modHome h (fun x => { x with txns := x.txns.del t.1 })).drain h
    else s) s
  let s := s.drain h
  -- step 4: the directory walk
  (s.home h).dir.foldl (fun s e =>
    if bit e.2.sharers die then
      match e.2.st with
      | .s =>
        let v := e.2.sharers &&& ~~~dieBit die
        s.setDir h e.1 (if v = 0 then { st := .i } else { e.2 with sharers := v })
      | .e => s.setDir h e.1 { st := .i }
      | .m => (s.loseLine h e.1 e.2.dirty).setDir h e.1 { st := .i }
      | .i => s
    else s) s

/-- The death of a die's agents: its packets are dropped, every home reclaims its lines, grants to it count as delivered, and its caches are lost (R206). -/
def State.reclaim (s : State) (die : Nat) : State :=
  let s := { s with coh := s.coh.filter (fun m => !(m.src == die && !m.toAgent) && !(m.toAgent && m.dst == die)) }
  let s := (32 :: s.stk.keys).foldl (fun s h => s.reclaimHome die h) s
  (unitsOf die).foldl (fun s u => s.setCache die u {}) s

/-- AGENT_DEATH: the Curator's broadcast reaches the homes (R206). -/
def execAgentDeath (die : Nat) (s : State) : Res := upDo s (fun s => if die ≤ 32 ∧ die ≠ 0 then s.reclaim die else s)

/-- RECOVER_DONE: once every live die has sent one, coherent requests start (R207). -/
def execRecoverDone (n : Nat) (s : State) : Res :=
  upDo s (fun s => match s.take n .recoverDone with
    | some (m, s') =>
      -- sent only after every write-back of the die has its WB_ACK
      if s'.coh.any (fun x => x.home == m.home && ((x.kind == .wrBack && x.src == m.src) || (x.kind == .wbAck && x.dst == m.src))) then s
      else
      let s := s'.modHome m.home (fun t => { t with recover := t.recover.filter (· != m.src) })
      (s.answer .recoverAck m.home m.src 8 m.line 0 0 0 0).drain m.home
    | none => s)

/-- RECOVER_ACK: the die learns that its RECOVER_DONE was recorded; nothing else changes (R207). -/
def execRecoverAck (n : Nat) (s : State) : Res := upDo s (fun s => match s.take n .recoverAck with | some (_, s) => s | none => s)

/-- Recovery of a lost home: live agents drop clean lines and write dirty sectors back, the new directory is empty, and each live die sends RECOVER_DONE behind its write-backs (R207). -/
def State.recoverHome (s : State) (h : Nat) (live : List Nat) : State :=
  let s := { s with coh := s.coh.filter (fun m => m.home != h) }
  let s := s.modHome h (fun t => { t with dir := [], txns := [], hq := [], recover := live })
  live.foldl (fun s d =>
    let s := (unitsOf d).foldl (fun s u =>
      (s.cache d u).lines.foldl (fun s e =>
        if s.homeOf e.1 = h then
          let m := e.2.dirty ||| e.2.wb
          if m = 0 then s.setLine d u e.1 { e.2 with st := .i, valid := 0, marking := false }
          else (s.setLine d u e.1 { e.2 with st := .i, valid := 0, dirty := 0, wb := m, marking := false }).request .wrBack d u e.1 e.2.cmpt m e.2.data e.2.pois
        else s) s) s
    s.send { kind := .recoverDone, src := d, dst := s.homeDie h, home := h, line := 0x2_0000_0000 + h }) s

end Sys2Proof.Machine
end

