-- ==== Sys2Proof/Machine/Tokens.lean ====
section
/-! DEFINITION. Token posts, stall reports and the dispatcher's counters (R63 to R71), with the fields of descriptors they read. -/

namespace Sys2Proof.Machine

/-! ### Waits (R64) -/

/-- The condition of an enabled wait word on a counter unit; one that is not enabled holds, and so does one met since it came first. -/
def State.waitHolds (s : State) (u : CtrUnit) (w : BitVec 32) (hi : Nat) (met : Bool := false) : Bool :=
  !bit w 15 || met || waitMet (s.counter u (bits w hi 0)) (BitVec.ofNat 16 (bits w 31 16))

/-- Both waits of a descriptor hold (R64). -/
def State.descWaits (s : State) (d : Desc) : Bool := s.waitHolds .disp (dwait d.bytes 0) 8 d.met0 && s.waitHolds .disp (dwait d.bytes 1) 8 d.met1

/-- WAIT_EN of a queue command is 0, or its counter meets the value (R61, R64). -/
def State.cmdWait (s : State) (d i : Nat) (e : QEntry) : Bool :=
  !bit e.word 8 || e.met || waitMet (s.counter (.core d i) (bits e.word 15 10)) (BitVec.ofNat 16 (bits e.word 31 16))

/-! ### Delivery of posts -/

/-- A post on the mesh reaches its counter unit; posts from one source to one unit arrive in the order issued (R65, R69). -/
def State.deliver (s : State) (n : Nat) : State :=
  match s.posts[n]? with
  | none => s
  | some p =>
    if (s.posts.take n).any (fun q => q.src == p.src && s.postUnit q.cmpt q.word == s.postUnit p.cmpt p.word) then s
    else State.applyPost { s with posts := s.posts.eraseIdx n } p

/-- TOKEN_POST (R69). -/
def execTokenPost (n : Nat) (s : State) : Res := upDo s (fun s => s.deliver n)

/-! ### Stall reports (R71) -/

/-- TOKEN_STALL reported for a compartment's wait on a counter, with the post word of the counter and the awaited value. -/
def State.stallReport (s : State) (c src word value : Nat) : State :=
  let s := s.modCmpt c (fun m => { m with stalls := satAdd m.stalls 1 })
  let s := s.event c 0x4003 src (BitVec.ofNat 64 (2 ^ 32 * word + value))
  if c = 0 then s else s.event 0 0x4003 0 (BitVec.ofNat 64 c)

/-- Whether an age exceeds the limit in force; a limit of 0 turns reporting off. -/
def State.stalled (s : State) (age : Nat) : Bool := bits s.stallLimit 19 0 != 0 && decide (bits s.stallLimit 19 0 < age)

/-- The oldest entry of a queue that has not been issued, with its place. -/
def oldestWaiting (l : List QEntry) : Option (Nat × QEntry) :=
  match findPos (fun e => e.st == .waiting) l with
  | some i => l[i]?.map (fun e => (i, e))
  | none => none

/-- The age of a wait is measured, and reported when it exceeds the limit and has not been reported. The source of the event of a descriptor's wait, which has neither a rank nor a logical stack, is written 0 (DESIGN CHOICE, log 46). -/
def State.stall (s : State) (u : Waiting) (age : Nat) : State :=
  match u with
  | .queue d i q =>
    match oldestWaiting ((s.core d i).queue q) with
    | some (k, e) =>
      if s.cmdWait d i e then s
      else
        let c := s.coreCmpt d i
        let rk := match (s.core d i).run with | some r => r.rank | none => 0
        let go := s.stalled age && !e.reported
        let s := s.modCore d i (fun x => x.setQueue q (modNth (x.queue q) k (fun e => { e with age := age, reported := e.reported || go })))
        if go then s.stallReport c rk (rk * 2 ^ 22 + bits e.word 15 10) (bits e.word 31 16) else s
    | none => s
  | .corWait d i =>
    match (s.core d i).corWait with
    | some w =>
      let c := s.coreCmpt d i
      let rk := match (s.core d i).run with | some r => r.rank | none => 0
      let go := s.stalled age && !(s.core d i).waitReported
      let s := s.modCore d i (fun x => { x with waitAge := age, waitReported := x.waitReported || go })
      if go then s.stallReport c rk (rk * 2 ^ 22 + bits w 5 0) (bits w 31 16) else s
    | none => s
  | .ring c k =>
    match findPos (fun e => e.st == .waiting) ((s.cmpt c).ring k).descs with
    | some n =>
      match ((s.cmpt c).ring k).descs[n]? with
      | some e =>
        if s.descWaits e then s
        else
          let w := if s.waitHolds .disp (dwait e.bytes 0) 8 e.met0 then dwait e.bytes 1 else dwait e.bytes 0
          let go := s.stalled age && !e.reported
          let s := s.modRing c k (fun r => { r with descs := modNth r.descs n (fun e => { e with age := age, reported := e.reported || go }) })
          if go then s.stallReport c 0 (2 * 2 ^ 30 + bits w 8 0) (bits w 31 16) else s
      | none => s
    | none => s
  | .ssu l c k =>
    match (s.stack l).queue c k with
    | e :: _ =>
      if e.st != .waiting || s.waitHolds (.ssu l) (dssuWait e.bytes) 7 e.met then s
      else
        let w := dssuWait e.bytes
        let go := s.stalled age && !e.reported
        let s := s.modStack l (fun t => t.setQueue c k (modNth (t.queue c k) 0 (fun e => { e with age := age, reported := e.reported || go })))
        if go then s.stallReport c l (2 ^ 30 + l * 2 ^ 22 + bits w 7 0) (bits w 31 16) else s
    | [] => s

/-- TOKEN_STALL (R71). -/
def execTokenStall (unit : Waiting) (age : Nat) (s : State) : Res := upDo s (fun s => s.stall unit age)

/-- Every wait of the device that a unit is measuring. -/
def State.waits (s : State) : List Waiting :=
  s.tiles.flatMap (fun t => t.2.cores.flatMap (fun c => (List.range 6).map (fun q => Waiting.queue t.1 c.1 q) ++ [.corWait t.1 c.1]))
  ++ s.cmpts.flatMap (fun c => (List.range 4).map (fun k => Waiting.ring c.1 k))
  ++ s.stk.flatMap (fun t => t.2.queues.map (fun q => Waiting.ssu t.1 (q.1 / 4) (q.1 % 4)))

/-- The age recorded for a wait. -/
def State.waitAge (s : State) : Waiting → Nat
  | .queue d i q => match oldestWaiting ((s.core d i).queue q) with | some (_, e) => e.age | none => 0
  | .corWait d i => (s.core d i).waitAge
  | .ring c k => match ((s.cmpt c).ring k).descs.find? (fun e => e.st == .waiting) with | some e => e.age | none => 0
  | .ssu l c k => match (s.stack l).queue c k with | e :: _ => e.age | [] => 0

/-- HUB_TKN_STALL_LIMIT: the new limit is compared at once with the age of every pending wait (R71). -/
def execHubTknStallLimitWrite (port : Port) (val : BitVec 64) (s : State) : Res :=
  upDo s (fun s =>
    if port != .pf && port != .mgmt then s.portDenied port 0x1000
    else
      let s := { s with stallLimit := BitVec.ofNat 64 (bits val 19 0) }
      s.waits.foldl (fun s u => s.stall u (s.waitAge u)) s)

end Sys2Proof.Machine
end

