-- ==== Sys2Proof/Machine/CoreCmds.lean ====
section
/-! DEFINITION. What a core's control processor does: the core register page, the command ports, loads and stores, and the end of a kernel (R53 to R60, R449). -/

namespace Sys2Proof.Machine

/-- A kernel runs on the core and no earlier access of it waits to retire. -/
def State.cpReady (s : State) (d i : Nat) : Bool :=
  let c := s.core d i
  isTileDie d && decide (i < 8) && c.user && c.corWait.isNone && c.portWait.isNone && c.pload.isNone && c.pstore.isNone &&
    (match c.run with | some r => !r.exited | none => false)

/-- An access of a running kernel, made when the earlier ones have retired. -/
def cpDo (s : State) (d i : Nat) (f : State → State) : Res := upDo s (fun s => if s.cpReady d i then f s else s)

/-! ### The core register page (Table 3.2) -/

/-- COR_TKN[k] written, then the posts that arrive in the same cycle added (R63). Each element of `posts` is a place among the posts on the mesh at its turn. -/
def State.tknWrite (s : State) (d i k v : Nat) (posts : List Nat) : State :=
  if k < 64 then
    posts.foldl (fun s n => match s.posts[n]? with
      | some p => if s.postUnit p.cmpt p.word = some (.core d i) ∧ pwCounter p.word = k then s.deliver n else s
      | none => s) (s.setCounter (.core d i) k (BitVec.ofNat 16 v))
  else s

/-- COR_WAIT: the store retires at once when the condition holds, and otherwise waits (R59, R64). -/
def State.corWaitOn (s : State) (d i : Nat) (w : BitVec 32) : State :=
  s.modCore d i (fun c => Core.recheck { c with corWait := some w, waitAge := 0, waitReported := false })

/-- COR_QSTAT[q]: writing 1 to bit 31 clears the register (Table 3.2). -/
def State.qstatClear (s : State) (d i q : Nat) (v : BitVec 64) : State :=
  if bit v 31 && decide (q < 6) then s.modCore d i (fun c => { c with qstat := c.qstat.put q 0 }) else s

/-- Whether a valid peer segment of a compartment names a fabric identifier. -/
def State.peerNamed (s : State) (c : Nat) (id : BitVec 16) : Bool :=
  (List.range 16).any (fun k => (s.seg c k).valid && (s.seg c k).typ == 4 && (s.seg c k).fabric == id)

/-- COR_RPT[j]: VALID is stored as 0 when no peer segment of the compartment names the fabric identifier (R68). -/
def State.rptWrite (s : State) (d i j : Nat) (v : BitVec 64) : State :=
  if j < 16 then
    let ok := bit v 63 && s.peerNamed (s.coreCmpt d i) (BitVec.ofNat 16 (bits v 15 0))
    s.modCore d i (fun c => { c with rpt := c.rpt.put j (BitVec.ofNat 64 (bits v 47 0 + 2 ^ 63 * b2n ok)) })
  else s

/-- A command entered in a queue (R60). -/
def State.enterCmd (s : State) (d i q : Nat) (w : BitVec 256) : State :=
  let (n, s) := s.nextSerial
  s.modCore d i (fun c => c.setQueue q (c.queue q ++ [{ word := w, id := n }]))

/-- A staging register with bytes written at offset `o`. -/
def stageWrite (w : BitVec 256) (o : Nat) (l : List Byte) : BitVec 256 :=
  let b := bvBytes w
  BitVec.ofNat 256 (ofLe (b.take o ++ l ++ b.drop (o + l.length)))

/-- A store into a command port: it writes the staging register, and the store that writes byte 31 enters the command, waiting while the queue is full (R60). -/
def State.portStore (s : State) (d i q o : Nat) (l : List Byte) : State :=
  if q < 6 ∧ o < 32 ∧ l ≠ [] then
    let l := l.take (32 - o)
    let w := stageWrite ((s.core d i).stage.look q 0) o l
    let s := s.modCore d i (fun c => { c with stage := c.stage.put q w })
    if o + l.length = 32 then
      if ((s.core d i).queue q).length < 32 then s.enterCmd d i q w
      else s.modCore d i (fun c => { c with portWait := some (q, w) })
    else s
  else s

/-- The value of the register at an aligned offset of the core register page. -/
def State.corReg (s : State) (d i o : Nat) : BitVec 64 :=
  let c := s.core d i
  if o < 0x200 then BitVec.ofNat 64 (c.cnt.look (o / 8) 0).toNat
  else if 0x900 ≤ o ∧ o < 0x930 then BitVec.ofNat 64 (c.qstat.look ((o - 0x900) / 8) 0).toNat
  else if 0x940 ≤ o ∧ o < 0x970 then BitVec.ofNat 64 (32 - (c.queue ((o - 0x940) / 8)).length)
  else if 0xA00 ≤ o ∧ o < 0xA80 then c.rpt.look ((o - 0xA00) / 8) 0
  else if o = 0xB00 then BitVec.ofNat 64 ((match c.run with | some r => r.rank | none => 0) * 256 + d * 8 + i)
  else 0

/-- Bytes of the core register page. -/
def State.corRead (s : State) (d i o : Nat) : Nat → List Byte
  | 0 => []
  | n + 1 => (bvBytes (s.corReg d i (o / 8 * 8)))[o % 8]?.getD 0 :: s.corRead d i (o + 1) n

/-- A store to one register of the core register page at its own offset, zero-extended to 64 bits when it is narrower; one to the register's upper bytes, or to an offset that is not assigned, is ignored (R8; DESIGN CHOICE, log 46, since R59 gives no access size). -/
def State.corStore (s : State) (d i o : Nat) (l : List Byte) : State :=
  let v := BitVec.ofNat 64 (ofLe l)
  if 0x800 ≤ o ∧ o < 0x8C0 then s.portStore d i ((o - 0x800) / 32) (o % 32) l
  else if o % 8 ≠ 0 then s
  else if o < 0x200 then s.tknWrite d i (o / 8) (bits v 15 0) []
  else if o < 0x400 then s.addCounter (.core d i) ((o - 0x200) / 8) (bits v 15 0)
  else if o = 0x400 then s.corWaitOn d i (BitVec.ofNat 32 v.toNat)
  else if 0x900 ≤ o ∧ o < 0x930 then s.qstatClear d i ((o - 0x900) / 8) v
  else if 0xA00 ≤ o ∧ o < 0xA80 then s.rptWrite d i ((o - 0xA00) / 8) v
  else s

/-- A store to the core register page cut into the registers and ports it covers. One that meets a full queue keeps the part beyond that port until it retires (R60). -/
def State.corStoreGo : Nat → State → Nat → Nat → Nat → List Byte → State
  | 0, s, _, _, _, _ => s
  | fuel + 1, s, d, i, o, l =>
    if l.isEmpty then s
    else if (s.core d i).portWait.isSome then s.modCore d i (fun c => { c with portRest := some (o, l) })
    else
      let n := if 0x800 ≤ o ∧ o < 0x8C0 then 32 - o % 32 else 8 - o % 8
      State.corStoreGo fuel (s.corStore d i o (l.take n)) d i (o + n) (l.drop n)

def State.corStores (s : State) (d i o : Nat) (l : List Byte) : State := State.corStoreGo (l.length + 1) s d i o l

/-- An entry of queue `q` frees: a store that waited for it retires, and its further bytes are stored (R60). -/
def State.portFree (s : State) (d i q : Nat) : State :=
  match (s.core d i).portWait with
  | none => s
  | some (q', w) =>
    if q' = q then
      let s := (s.modCore d i (fun x => { x with portWait := none })).enterCmd d i q w
      match (s.core d i).portRest with
      | none => s
      | some (o, l) => (s.modCore d i (fun x => { x with portRest := none })).corStores d i o l
    else s

/-- COR_TKN_WRITE (R63). -/
def execCorTknWrite (die core i : Nat) (val : BitVec 64) (posts : List Nat) (s : State) : Res :=
  cpDo s die core (fun s => s.tknWrite die core i (bits val 15 0) posts)

/-- COR_TKN_POST (R63). -/
def execCorTknPost (die core i : Nat) (val : BitVec 64) (s : State) : Res :=
  cpDo s die core (fun s => s.addCounter (.core die core) i (bits val 15 0))

/-- COR_WAIT (R64). -/
def execCorWait (die core : Nat) (val : BitVec 64) (s : State) : Res :=
  cpDo s die core (fun s => s.corWaitOn die core (BitVec.ofNat 32 val.toNat))

/-- COR_QSTAT_CLEAR (R59). -/
def execCorQstatClear (die core q : Nat) (val : BitVec 64) (s : State) : Res :=
  cpDo s die core (fun s => s.qstatClear die core q val)

/-- COR_RPT_WRITE (R68). -/
def execCorRptWrite (die core j : Nat) (val : BitVec 64) (s : State) : Res :=
  cpDo s die core (fun s => s.rptWrite die core j val)

/-- CMD_PORT_STORE (R60). -/
def execCmdPortStore (die core q off : Nat) (bytes : List Byte) (s : State) : Res :=
  cpDo s die core (fun s => s.portStore die core q off bytes)

/-! ### The end of a kernel -/

/-- ECALL: a7 = 0x5D ends the kernel, with KERNEL_ERROR for a non-zero exit value; any other a7 raises CP_TRAP with cause 8 (R57, R79). -/
def execKernelExit (die core : Nat) (a7 a0 : BitVec 64) (s : State) : Res :=
  cpDo s die core (fun s =>
    if a7 = 0x5D then (if a0 = 0 then s.endKernel die core 0 0 else s.endKernel die core 0x100A a0)
    else s.cpTrap die core 8 0)

/-- CP_TRAP: an exception or interrupt ends the kernel (R56). It may come while an access waits. -/
def execCpTrap (die core : Nat) (cause : BitVec 8) (tval : BitVec 64) (s : State) : Res :=
  upDo s (fun s =>
    if isTileDie die && decide (core < 8) && (s.core die core).user then
      s.cpTrap die core cause.toNat tval
    else s)

/-- FENCE.I: fetches see every byte written to scratch (R449). -/
def execFenceI (die core : Nat) (s : State) : Res :=
  cpDo s die core (fun s => s.modCore die core (fun c => { c with icStale := [] }))

/-! ### Loads and stores (R54, R55, R194) -/

/-- The place of an uncached address: its physical address in the core store or scratch, or an offset in the core register page (Table 3.1). -/
inductive CpPlace where
  | virt
  | store (a : Nat)
  | scratch (o : Nat)
  | regs (o : Nat)
  | none
  deriving DecidableEq, Repr

/-- The place of `n` bytes at a control-processor address; an access outside the listed ranges raises an access fault (R54). -/
def cpSpace (d i : Nat) (a n : Nat) : CpPlace :=
  if a / 2 ^ 48 = 0 then (if (a + n - 1) / 2 ^ 48 = 0 then .virt else .none)
  else
    let o := a - 2 ^ 48
    if a / 2 ^ 48 ≠ 1 then .none
    else if o + n ≤ 0x80_0000 then .store (storeBase d i + o)
    else if 0x100_0000 ≤ o ∧ o + n ≤ 0x104_0000 then .scratch (o - 0x100_0000)
    else if 0x200_0000 ≤ o ∧ o + n ≤ 0x200_1000 then .regs (o - 0x200_0000)
    else .none

/-- CP_LOAD: an uncached load reads at once; a load of a compartment virtual address is checked and goes through the caches (R54, R55, R105, R168, R194). -/
def State.cpLoad (s : State) (d i a n rd : Nat) : State :=
  if n = 0 then s
  else match cpSpace d i a n with
    | .store p => if s.pois p n then s.accessFault d i false a else s.modCore d i (fun c => c.load rd n (ofLe (s.rd p n)))
    | .scratch o => s.modCore d i (fun c => c.load rd n (ofLe (s.rd (scratchBase d i + o) n)))
    | .regs o => s.modCore d i (fun c => c.load rd n (ofLe (s.corRead d i o n)))
    | .none => s.accessFault d i false a
    | .virt =>
      let c := s.coreCmpt d i
      if s.operandCode c a needR n != 0 || (s.seg c (vaSeg a)).typ == 4 || s.rangeCode c a n false != 0 then s.accessFault d i false a
      else (s.modCore d i (fun x => { x with pload := some { va := a, size := n, rd := rd } })).tryLoad d i

/-- The physical address of an LR, SC or AMO: these are performed only on scratch and the core store (R55). -/
def atomicAt (p : CpPlace) (d i : Nat) : Option Nat :=
  match p with
  | .store a => some a
  | .scratch o => some (scratchBase d i + o)
  | _ => Option.none

/-- The checks of an LR, SC or AMO: 4 or 8 bytes, aligned, in scratch or the core store; a poisoned sector of the core store raises an access fault too (R55, R105). `f` is given its physical address. -/
def State.atomicDo (s : State) (d i a n : Nat) (store : Bool) (f : State → Nat → State) : State :=
  if n ≠ 4 ∧ n ≠ 8 then s
  else if a % n ≠ 0 then s.cpTrap d i (if store then 6 else 4) (BitVec.ofNat 64 a)
  else match atomicAt (cpSpace d i a n) d i with
    | none => s.accessFault d i store a
    | some p => if s.pois p n then s.accessFault d i store a else f s p

/-- LR: the value is loaded sign-extended and its bytes are reserved (R55). -/
def State.cpLr (s : State) (d i a n rd : Nat) : State :=
  s.atomicDo d i a n false (fun s p =>
    s.modCore d i (fun c => { c.load (128 + rd % 32) n (ofLe (s.rd p n)) with resv := some (p, s.rd p n) }))

/-- CP_LOAD, `lr` marking an LR (R194, R55). -/
def execCpLoad (die core : Nat) (addr : BitVec 64) (size rd : Nat) (s : State) (lr : Bool := false) : Res :=
  cpDo s die core (fun s => if lr then s.cpLr die core addr.toNat size rd else s.cpLoad die core addr.toNat size rd)

/-- Bytes stored in scratch or the core store. -/
def State.cpPut (s : State) (p : Nat) (l : List Byte) : State := (s.icMark p l.length).wr p l

/-- CP_STORE: an uncached store writes at once; a store to a compartment virtual address needs W and a dirty sector (R54, R55, R127, R194). -/
def State.cpStore (s : State) (d i a : Nat) (l : List Byte) : State :=
  if l.isEmpty then s
  else match cpSpace d i a l.length with
    | .store p => s.cpPut p l
    | .scratch o => s.cpPut (scratchBase d i + o) l
    | .regs o => s.corStores d i o l
    | .none => s.accessFault d i true a
    | .virt =>
      let c := s.coreCmpt d i
      if s.operandCode c a needW l.length != 0 || (s.seg c (vaSeg a)).typ == 4 || s.rangeCode c a l.length true != 0 then s.accessFault d i true a
      else (s.modCore d i (fun x => { x with pstore := some { va := a, data := l } })).tryStore d i

/-- SC: it stores and writes 0 when the reservation names its bytes and they hold what LR loaded, and otherwise writes 1; it ends the reservation (R55, log 16). -/
def State.cpSc (s : State) (d i a : Nat) (l : List Byte) (rd : Nat) : State :=
  s.atomicDo d i a l.length true (fun s p =>
    let ok := (s.core d i).resv == some (p, s.rd p l.length)
    (if ok then s.cpPut p l else s).modCore d i (fun c => { c.setX rd (BitVec.ofNat 64 (b2n !ok)) with resv := none }))

/-- A number of `n` bits read as two's complement. -/
def signedOf (n v : Nat) : Int := if v / 2 ^ (n - 1) % 2 = 1 then (v : Int) - (2 ^ n : Nat) else v

/-- What an AMO writes, from the value in memory and the operand, both of `n` bits (RV64A). -/
def amoResult (op : AmoOp) (n old x : Nat) : Nat :=
  match op with
  | .swap => x
  | .add => (old + x) % 2 ^ n
  | .xor => Nat.xor old x
  | .and => Nat.land old x
  | .or => Nat.lor old x
  | .min => if signedOf n x < signedOf n old then x else old
  | .max => if signedOf n old < signedOf n x then x else old
  | .minu => min old x
  | .maxu => max old x

/-- AMO: the old value goes to the register sign-extended and the result to memory (R55). -/
def State.cpAmo (s : State) (d i a : Nat) (l : List Byte) (op : AmoOp) (rd : Nat) : State :=
  s.atomicDo d i a l.length true (fun s p =>
    let n := l.length
    let old := ofLe (s.rd p n)
    (s.cpPut p (leBytes n (amoResult op (8 * n) old (ofLe l)))).modCore d i (fun c => c.load (128 + rd % 32) n old))

/-- CP_STORE: a plain store, an SC or an AMO (R194, R55). -/
def execCpStore (die core : Nat) (addr : BitVec 64) (bytes : List Byte) (s : State) (kind : StoreKind := .plain) : Res :=
  cpDo s die core (fun s => match kind with
    | .plain => s.cpStore die core addr.toNat bytes
    | .sc rd => s.cpSc die core addr.toNat bytes rd
    | .amo op rd => s.cpAmo die core addr.toNat bytes op rd)

/-! ### Control and status registers (R53, R56) -/

/-- What a CSR number reads in user mode: none is an illegal-instruction exception. `cycle` and `instret` read as zero while any vitrine is active, and otherwise an open value no lower than the last read, since the model has no clock (R56, log 16); `time` and the machine-mode registers are not readable. -/
def State.csrRead (s : State) (d i n : Nat) : Option (BitVec 64) × State :=
  let c := s.core d i
  if n = 0xC00 ∨ n = 0xC02 then
    if s.anyActive then (some 0, s)
    else
      let (t, s) := s.draw
      let v : BitVec 64 := BitVec.ofNat 64 ((if n = 0xC00 then c.cycle else c.instret).toNat + t)
      (some v, s.modCore d i (fun c => if n = 0xC00 then { c with cycle := v } else { c with instret := v }))
  else if [0x001, 0x002, 0x003].contains n then
    let f := c.csr.look 0x003 0
    (some (BitVec.ofNat 64 (if n = 1 then bits f 4 0 else if n = 2 then bits f 7 5 else bits f 7 0)), s)
  else if n = 0xC22 then (some 128, s)
  else if [0x008, 0x009, 0x00A, 0x00F, 0xC20, 0xC21].contains n then (some (c.csr.look n 0), s)
  else (none, s)

end Sys2Proof.Machine
end

