-- ==== Sys2Proof/Machine/Rings.lean ====
section
/-! DEFINITION. Rings: fetching, completions and their holding back, activation of a vitrine and the start of a fallow (R72 to R75, R81, R283, R354). -/

namespace Sys2Proof.Machine

/-! ### Fetching (R73, R74, R298) -/

/-- RING_INDEX or RING_CONFIG, naming the ring and the value written (R73). -/
def State.ringEvent (s : State) (fn code ring v : Nat) : State := s.event fn code 0 (BitVec.ofNat 64 (ring + 2 ^ 16 * (v % 65536)))

/-- Whether the device may fetch for a compartment: it is READY and its completion ring is enabled with a free entry and nothing held (R75). -/
def State.mayFetch (s : State) (fn : Nat) : Bool :=
  let c := s.cmpt fn
  s.cstate fn == .ready && decide (0 < c.cq.free) && c.cq.held.isEmpty

/-- Whether a ring has a descriptor to fetch, within 64 ahead (R74). -/
def SubRing.wants (r : SubRing) : Bool :=
  ringOn r.ctrl && r.asked != r.tail && decide (ringUsed r.ctrl r.head r.asked + (r.descs.filter (fun d => d.st == .waiting)).length < 64)

/-- A device-issued host read put on the link with a free tag (R298). -/
def State.hostReadReq (s : State) (r : HostRead) : State :=
  let used := s.pci.reads.map (·.tag) ++ s.pci.dead
  match (List.range 1024).find? (fun k => !used.contains ((s.pci.nextTag + k) % 1024)) with
  | some k =>
    let t := (s.pci.nextTag + k) % 1024
    let s := { s with pci := { s.pci with nextTag := (t + 1) % 1024, reads := s.pci.reads ++ [{ r with tag := t }] } }
    s.emit (.hostRead t r.fn r.addr r.len (s.tBit r.fn))
  | none => s

/-- One fetch for a compartment, round-robin over its rings (R74). -/
def State.fetchOne (s : State) (fn : Nat) : Option State :=
  if s.mayFetch fn && decide (s.pci.reads.length < 512) then
    let c := s.cmpt fn
    match ((List.range 4).map (fun j => (c.next + j) % 4)).find? (fun k => (c.ring k).wants) with
    | some k =>
      let r := c.ring k
      let s := s.hostReadReq { fn := fn, kind := 0, ring := k, addr := bits r.base 63 12 * 4096 + 128 * r.asked, len := 128 }
      let s := s.modRing fn k (fun r => { r with asked := (r.asked + 1) % ringSize r.ctrl })
      some (s.modCmpt fn (fun c => { c with next := (k + 1) % 4 }))
    | none => none
  else none

def State.fetchGo : Nat → State → Nat → State
  | 0, s, _ => s
  | fuel + 1, s, fn => match s.fetchOne fn with | some s => State.fetchGo fuel s fn | none => s

/-- Every fetch a compartment may make. -/
def State.fetch (s : State) (fn : Nat) : State := State.fetchGo 256 s fn

/-! ### The completion ring (R75, R81) -/

/-- A completion entry written, its vector raised after it, and CQ_FULL posted once when the ring fills (R75, R81). -/
def State.writeCqe (s : State) (fn : Nat) (e : CEnt) : State :=
  let c := s.cmpt fn
  let s := s.emit (.ringEntry fn (bits c.cq.base 63 12 * 4096 + 32 * c.cq.tail) (e.bytes ||| BitVec.ofNat 256 (2 ^ 56 * b2n c.cq.phase)) (s.tBit fn))
  let s := s.modCmpt fn (fun c => { c with cq := c.cq.advance })
  let s := match e.vector with | some v => s.raise fn v | none => s
  if (s.cmpt fn).cq.free = 0 then (s.modCmpt fn (fun c => { c with cqFull := true })).event fn 0x0010 0 0 else s

/-- A completion written, or held while the ring is full, disabled or has completions held (R75). -/
def State.complete (s : State) (fn : Nat) (e : CEnt) : State :=
  if s.cstate fn = .fallow then s
  else if (s.cmpt fn).cq.free = 0 ∨ (s.cmpt fn).cq.held ≠ [] then s.modCmpt fn (fun c => { c with cq := { c.cq with held := c.cq.held ++ [e] } })
  else s.writeCqe fn e

/-- Held completions written in order while entries are free (R75). -/
def State.releaseGo : Nat → State → Nat → State
  | 0, s, _ => s
  | fuel + 1, s, fn =>
    match (s.cmpt fn).cq.held with
    | [] => s
    | e :: t =>
      if (s.cmpt fn).cq.free = 0 then s
      else State.releaseGo fuel ((s.modCmpt fn (fun c => { c with cq := { c.cq with held := t } })).writeCqe fn e) fn

def State.release (s : State) (fn : Nat) : State := (State.releaseGo (s.cmpt fn).cq.held.length s fn).fetch fn

/-! ### Ring registers -/

/-- A doorbell of a submission ring (R73). -/
def State.sqDoorbell (s : State) (fn k v : Nat) : State :=
  let r := (s.cmpt fn).ring k
  if ¬ k < 4 ∨ !ringOn r.ctrl then s
  else if ringSize r.ctrl ≤ v ∨ ringSize r.ctrl - 1 < (v + ringSize r.ctrl - r.tail) % ringSize r.ctrl + ringUsed r.ctrl r.head r.tail then
    s.ringEvent fn 0x1006 k v
  else (s.modRing fn k (fun r => { r with tail := v })).fetch fn

/-- A head doorbell of the completion ring (`eq` false) or the event ring (R75). -/
def State.headDoorbell (s : State) (fn : Nat) (eq : Bool) (v : Nat) : State :=
  let c := s.cmpt fn
  let r := if eq then c.eq else c.cq
  if !ringOn r.ctrl then s
  else if ringSize r.ctrl ≤ v ∨ ringUsed r.ctrl r.head r.tail < ringUsed r.ctrl r.head v then s.ringEvent fn 0x1006 (if eq then 5 else 4) v
  else if eq then s.modCmpt fn (fun c => { c with eq := { c.eq with head := v } })
  else (s.modCmpt fn (fun c => { c with cq := { c.cq with head := v }, cqFull := if v = r.head then c.cqFull else false })).release fn

/-- Descriptors fetched in unbroken order from an index. -/
def fetchedRun : Nat → SubRing → Nat → List (Nat × BitVec 1024)
  | 0, _, _ => []
  | fuel + 1, r, i => if r.fetched.has i then (i, r.fetched.look i 0) :: fetchedRun fuel r ((i + 1) % ringSize r.ctrl) else []

/-- Outstanding fetches of a ring given up; their completions will be discarded. -/
def State.dropFetches (s : State) (fn k : Nat) : State :=
  let gone := s.pci.reads.filter (fun r => r.fn == fn && r.kind == 0 && r.ring == k)
  { s with pci := { s.pci with reads := s.pci.reads.filter (fun r => !(r.fn == fn && r.kind == 0 && r.ring == k)), dead := s.pci.dead ++ gone.map HostRead.tag } }

/-- A write to BASE or CTRL of ring `k` (0 to 3 submission, 4 completion, 5 event) (R73, R278). -/
def State.ringWrite (s : State) (fn k : Nat) (ctrl : Bool) (v : BitVec 64) : State :=
  let c := s.cmpt fn
  let old : BitVec 64 := if k < 4 then (c.ring k).ctrl else if k = 4 then c.cq.ctrl else c.eq.ctrl
  let w : BitVec 64 := BitVec.ofNat 64 (bits v 4 0 + 256 * b2n (bit v 8))
  if 5 < k then s
  else if !ctrl then
    if ringOn old then s
    else
      let b : BitVec 64 := BitVec.ofNat 64 (bits v 63 12 * 4096)
      if k < 4 then s.modRing fn k (fun r => { r with base := b })
      else if k = 4 then s.modCmpt fn (fun c => { c with cq := { c.cq with base := b } })
      else s.modCmpt fn (fun c => { c with eq := { c.eq with base := b } })
  else if s.cstate fn = .undef then s
  else if ringOn old && bit v 8 then s
  else if ringOn old then
    if k < 4 then (s.dropFetches fn k).modRing fn k (fun r => 
      let l := fetchedRun r.fetched.length r r.head
      { r with ctrl := w, old := r.old ++ l, oldLive := l.length, fetched := [], asked := r.tail })
    else if k = 4 then s.modCmpt fn (fun c => { c with cq := { c.cq with ctrl := w } })
    else s.modCmpt fn (fun c => { c with eq := { c.eq with ctrl := w } })
  else
    let bad := bit v 8 && (decide (bits v 4 0 < 4) || decide (16 < bits v 4 0))
    let w : BitVec 64 := if bad then BitVec.ofNat 64 (bits v 4 0) else w
    let s :=
      if k < 4 then s.modRing fn k (fun r => if ringOn w then { r with ctrl := w, head := 0, tail := 0, asked := 0, fetched := [], bad := [], oldLive := 0 } else { r with ctrl := w })
      else if k = 4 then s.modCmpt fn (fun c => { c with cq := if ringOn w then { c.cq with ctrl := w, head := 0, tail := 0, phase := true } else { c.cq with ctrl := w }, cqFull := false })
      else s.modCmpt fn (fun c => { c with eq := if ringOn w then { c.eq with ctrl := w, head := 0, tail := 0, phase := true } else { c.eq with ctrl := w } })
    if bad then s.ringEvent fn 0x1007 k (bits v 15 0)
    else if k = 4 then s.release fn
    else s

/-! ### Vitrines (R354) -/

/-- Whether an activation trigger of a vitrine is held back: a load or epoch runs, or a trial of an image runs and the vitrine sets NO_UPDATE (R354, R392). -/
def State.holdsTrigger (s : State) (fn : Nat) : Bool :=
  s.bed.job.isSome ||
    ((s.upd.phase == .trial || s.upd.phase == .swapping) && (match (s.cmpt fn).plan with | some r => bit r.mode 4 | none => false))

/-- A debug grant refuses activation triggers (R382). -/
def State.debugOpen (s : State) : Bool := s.auth.dbgPend || s.auth.dbgOn

/-- A vitrine becomes active: VITRINE_ACTIVE goes to the PF and to the vitrine, and a joint compartment's round starts (R354, R365). -/
def State.activate (s : State) (fn : Nat) : State :=
  if (s.cmpt fn).vitrine && !(s.cmpt fn).active then
    let s := s.modCmpt fn (fun c => { c with active := true })
    let s := if (s.cmpt fn).role = 1 then { s with conf := { s.conf with round := 1, released := false, approvals := [] } } else s
    (s.event 0 0x0090 0 (BitVec.ofNat 64 fn)).event fn 0x0090 0 (BitVec.ofNat 64 fn)
  else s

/-! ### The start of a fallow (R283, R285) -/

/-- Work of a compartment cancelled (R283 step 2). -/
def State.cancel (s : State) (c : Nat) : State :=
  let s := (List.range (s.nranks c)).foldl (fun s r => match s.rankCore c r with
    | some (d, i) => s.modCore d i (fun x => { x with user := false, queues := [], corWait := none, portWait := none, portRest := none, pload := none, pstore := none, resv := none, run := none })
    | none => s) s
  let s := (List.range 32).foldl (fun s l =>
    s.modStack l (fun t => { t with queues := t.queues.filter (fun q => q.1 / 4 != c) })) s
  let gone := s.pci.reads.filter (fun r => r.fn == c)
  let s := { s with pci := { s.pci with reads := s.pci.reads.filter (fun r => r.fn != c), dead := s.pci.dead ++ gone.map HostRead.tag } }
  let s := { s with fab := { s.fab with conns := s.fab.conns.each (fun _ n => { n with
    outstanding := n.outstanding.filter (fun o => o.cmpt != c)
    wait := n.wait.filter (fun k => bits (s.fab.grants.look k.grant.toNat 0) 23 16 != c)
    contribs := n.contribs.filter (fun e => e.2.all (fun k => bits (s.fab.grants.look k.grant.toNat 0) 23 16 != c)) }) } }
  s.modCmpt c (fun m => { m with
    sq := m.sq.each (fun _ r => { r with descs := [], fetched := [], old := [], bad := [], asked := r.tail })
    cq := { m.cq with held := [] }
    frecs := [], pcmds := [], resmap := [], heldWr := [] })

/-- A fallow trigger finds a compartment READY: it stops, its generations rise, its TDI enters ERROR and its work is cancelled. Any other state absorbs the trigger (R283, R285, R360). -/
def State.fallowStart (s : State) (c cause : Nat) : State :=
  if c = 0 ∨ ¬ c < 64 then s
  else match s.cstate c with
    | .ready =>
      let t := (s.cmpt c).tdi
      let s := s.modCmpt c (fun m => { m with
        state := .fallow, cause := cause, step := 2
        segs := m.segs.each (fun _ e => if e.valid then e.raised else e)
        tdi := if t = .locked ∨ t = .run then .error else t })
      let s := if t = .locked ∨ t = .run then s.event 0 0x0093 0 (BitVec.ofNat 64 c) else s
      ({ s with unmaps := s.unmaps.map (fun u => if u.cmpt = c then { u with toCmpt := false } else u) } : State).cancel c
    | _ => s

/-- A fallow that a TDI's rules cause; no CAUSE code of Table 13.5 names it, so its CAUSE is a free value (R360, log 17). -/
def State.tdiFallow (s : State) (c : Nat) : State :=
  let (t, s) := s.draw
  s.fallowStart c (t % 8)

end Sys2Proof.Machine
end

