-- ==== Sys2Proof/Machine/Egress.lean ====
section
/-! DEFINITION. The fabric's egress: connections, the choice of a port, the checks of a request, and the requests performed at their destination (R322 to R332). -/

namespace Sys2Proof.Machine

/-! ### Packets: class, priority and bytes (Tables 11.1, 11.2, 15.4) -/

/-- A record: TYPE, KEY and value. -/
abbrev PlanRec := Nat × Nat × List Byte

/-- The value of a record. -/
def planVal (p : List PlanRec) (t k : Nat) : Option (List Byte) := (p.find? (fun r => r.1 == t && r.2.1 == k)).map (·.2.2)

/-- KIND of a class; class 0 is floor. -/
def kindOf (p : List PlanRec) (c : Nat) : Nat := if c = 0 then 2 else match planVal p 5 c with | some v => fieldAt v 0 1 | none => 0

/-- PRIO of a kind (Table 11.1). -/
def kindPrio (k : Nat) : Nat := match k with | 2 => 1 | 3 => 2 | _ => 0

/-- CRC-32C, reflected, over bytes (R326, Table 20.3). -/
def crc32c (l : List Byte) : BitVec 32 :=
  ~~~(l.foldl (fun (c : BitVec 32) (b : Byte) =>
    (List.range 8).foldl (fun c _ => if c.getLsbD 0 then (c >>> 1) ^^^ 0x82F63B78#32 else c >>> 1) (c ^^^ b.zeroExtend 32)) 0xFFFFFFFF#32)

/-- The class of the work that issued a remote operation (Table 11.2). -/
def State.originCls (s : State) : Origin → Nat
  | .queue d i _ _ => (s.unitCls d i).toNat
  | .desc c k n => (((s.cmpt c).ring k).descs.find? (fun d => d.id == n)).elim 0 (fun d => dfield d.bytes 2 1)
  | .rank c k n _ => (((s.cmpt c).ring k).descs.find? (fun d => d.id == n)).elim 0 (fun d => dfield d.bytes 2 1)
  | _ => 0

/-- PRIO of the packets of a class under the plan in force (Table 11.1). -/
def State.clsPrio (s : State) (c : Nat) : Nat := kindPrio (kindOf s.bed.plan c)

/-- A transport packet as bytes: header, poison extension when it carries data, the extensions of Table 15.5, payload and CRC-32C (R326, Table 15.4). -/
def pktBytes (k : FabPkt) : List Byte :=
  let l := bvBytes k.dst ++ bvBytes k.src ++ bvBytes k.seq ++ bvBytes k.dstInc ++ bvBytes k.srcInc ++ bvBytes k.op ++ bvBytes k.flags ++
    leBytes 1 k.hops ++ leBytes 1 0 ++ bvBytes k.grant ++ leBytes 2 k.len ++ bvBytes k.off ++
    (if k.data.isEmpty then [] else bvBytes k.pois) ++ k.ext.flatMap (fun x => bvBytes x) ++ k.data
  l ++ bvBytes (crc32c l)

/-! ### Reports and routes (R320 to R323) -/

/-- Whether a port is UP. -/
def State.portUp (s : State) (p : Nat) : Bool := decide (p < 28) && (s.fport p).st == .up

/-- The ports that are UP. -/
def State.upPorts (s : State) : List Nat := (List.range 28).filter s.portUp

/-- The device's identity digest (R320). -/
def State.fabDigest (s : State) : BitVec 128 := BitVec.ofNat 128 (ofLe ((bvBytes (Config.sha384 (Config.identityKeys s.auth.seed))).take 16))

/-- The device's own adjacency report (R320). -/
def State.ownReport (s : State) : Report :=
  { id := s.fab.id, digest := s.fabDigest, version := s.fab.version, seq := s.fab.mySeq
    ports := s.upPorts.map (fun p => (p, (s.fport p).nbr, (s.fport p).nbrPort.toNat)) }

/-- Identifiers, each once, rising. -/
def idsOf (l : List Report) : List Nat := l.foldl (fun a r => insNat a r.id.toNat) []

/-- The reports that count: the device's own as it stands, without its links while its identifier is ignored, and every other whose identifier is not ignored. -/
def State.liveReports (s : State) : List Report :=
  let own := s.ownReport
  { own with ports := if s.fab.ignored.contains own.id then [] else own.ports } :: s.fab.reports.filter (fun r => r.digest != own.digest && !s.fab.ignored.contains r.id && r.id != own.id)

/-- Links of a device that both ends report: local port and neighbour (R320). -/
def linksOf (l : List Report) (i : Nat) : List (Nat × Nat) :=
  match l.find? (fun r => r.id.toNat == i) with
  | none => []
  | some r => r.ports.filterMap (fun e =>
      match l.find? (fun x => x.id == e.2.1) with
      | some x => if x.ports.any (fun y => y.1 == e.2.2 && y.2.1 == r.id && y.2.2 == e.1) then some (e.1, e.2.1.toNat) else none
      | none => none)

/-- Breadth-first distances from a frontier over a neighbour function. -/
def bfsGo (adj : Nat → List Nat) : Nat → List (Nat × Nat) → List Nat → Nat → List (Nat × Nat)
  | 0, seen, _, _ => seen
  | fuel + 1, seen, fr, d =>
    let nx := ((fr.flatMap adj).dedup).filter (fun x => !seen.any (fun e => e.1 == x))
    if nx.isEmpty then seen else bfsGo adj fuel (seen ++ nx.map (fun x => (x, d + 1))) nx (d + 1)

/-- Hop distances from one device; a domain has a diameter of at most 24 hops. -/
def bfs (adj : Nat → List Nat) (x : Nat) : List (Nat × Nat) := bfsGo adj 1024 [(x, 0)] [x] 0

/-- A distance found, if any. -/
def distOf (l : List (Nat × Nat)) (x : Nat) : Option Nat := (l.find? (fun e => e.1 == x)).map (·.2)

/-- Neighbours in a set of reports. -/
def nbrs (l : List Report) (i : Nat) : List Nat := (linksOf l i).map (·.2)

/-- Levels: hop distances from the root, the lowest identifier (R322). -/
def levels (l : List Report) : List (Nat × Nat) := match idsOf l with | [] => [] | r :: _ => bfs (nbrs l) r

/-- A hop from `a` to `b` is up: toward the lower level, or at equal level toward the lower identifier (R322). -/
def hopUp (lv : List (Nat × Nat)) (a b : Nat) : Bool :=
  let x := (distOf lv a).getD 100000
  let y := (distOf lv b).getD 100000
  decide (y < x) || (y == x && decide (b < a))

/-- ESC and DOWN of a packet's flags. -/
def pktEsc (k : FabPkt) : Bool := bit k.flags 2
def pktDown (k : FabPkt) : Bool := bit k.flags 3

/-- A packet with an escape hop through port `p` taken into its flags (R322). -/
def State.escapeHop (s : State) (p : Nat) (k : FabPkt) : FabPkt :=
  let d := pktDown k || !hopUp (levels s.liveReports) s.fab.id.toNat (s.fport p).nbr.toNat
  { k with flags := setBit (setBit k.flags 2 true) 3 d }

/-! ### Connections and ports -/

/-- Positions of dies 1 to 32 (Table 0.3). -/
def diePositions : List (Nat × Nat) :=
  [(0,0),(1,0),(2,0),(3,0),(4,0),(5,0),(0,1),(1,1),(3,1),(4,1),(5,1),(0,2),(1,2),(5,2),(0,3),(4,3),(5,3)] ++
  [(0,4),(1,4),(2,4),(4,4),(5,4),(0,5),(1,5),(2,5),(3,5),(4,5),(5,5),(2,1),(4,2),(3,4),(1,3)]

/-- The positions a die occupies; the hub occupies four. -/
def diePos (d : Nat) : List (Nat × Nat) := if d = 0 then [(2,2),(3,2),(2,3),(3,3)] else (diePositions[d - 1]?).toList

/-- Hops between two dies along the grid. -/
def dieDist (a b : Nat) : Nat :=
  ((diePos a).flatMap (fun p => (diePos b).map (fun q => (p.1 - q.1) + (q.1 - p.1) + ((p.2 - q.2) + (q.2 - p.2))))).foldl min 100

/-- Whether the fabric engine is present (INV_UNITS bit 0). -/
def State.hasFabric (s : State) : Bool := bit s.inv.units 0

/-- The connection with a peer. -/
def State.conn (s : State) (peer : Nat) : Conn := s.fab.conns.look peer {}

def State.modConn (s : State) (peer : Nat) (f : Conn → Conn) : State :=
  if peer < 65536 then { s with fab := { s.fab with conns := s.fab.conns.put peer (f (s.conn peer)) } } else s

/-- The adaptive next hop a source at die `d` sends a packet through: the nearest, equals chosen by the sequence (R322, R323). -/
def State.portFor (s : State) (d : Nat) (dst : BitVec 16) (seq : Nat) : Option Nat :=
  let ports := ((s.fab.adaptive.find? (fun e => e.1 == dst)).map (·.2)).getD []
  let best := (ports.map (fun p => dieDist d (p + 1))).foldl min 1000
  let near := ports.filter (fun p => dieDist d (p + 1) == best)
  near[seq % max near.length 1]?

/-- A packet put at the egress engine of a port (R323, R324). -/
def State.egressPut (s : State) (p : Nat) (k : FabPkt) : State := s.modFport p (fun f => { f with egress := f.egress ++ [k] })

/-- A packet routed from die `d`: through an adaptive next hop, or the escape next hop when there is none; with no route it is not sent, and the transport sends it again later (R322, R325). -/
def State.fabSend (s : State) (d : Nat) (k : FabPkt) : State :=
  match s.portFor d k.dst k.seq.toNat with
  | some p => s.egressPut p k
  | none => match (s.fab.escape.find? (fun e => e.1 == k.dst)).map (·.2) with
    | some p => s.egressPut p (s.escapeHop p k)
    | none => s

/-- The poison mask of a payload: bit s marks sector s (R326). -/
def poisonMask (bad : List Bool) : BitVec 128 :=
  BitVec.ofNat 128 ((List.range ((bad.length + 31) / 32)).foldl (fun a k => if ((bad.drop (32 * k)).take 32).any id then a + 2 ^ k else a) 0)

/-- Payload bytes with the poisoned sectors as zeros. -/
def maskedData (l : List Byte) (bad : List Bool) : List Byte := (l.zip bad).map (fun p => if p.2 then 0 else p.1)

/-- The response to a request: status in GRANT, RESP set, and for a GET the data with its poison mask (R328, R332). -/
def State.reply (s : State) (d : Nat) (k : FabPkt) (code : BitVec 16) (l : List Byte) (bad : List Bool) : State :=
  s.fabSend d { dst := k.src, src := s.fab.id, seq := k.seq, dstInc := k.srcInc, srcInc := s.fab.inc, op := k.op
                flags := BitVec.ofNat 8 (1 + 2 * b2n (bad.any id)), grant := code, len := l.length, off := k.off
                pois := poisonMask bad, data := maskedData l bad }

/-- Every packet of a gathered contribution answered with its outcome (R328, R331). -/
def State.replyContrib (s : State) (peer id : Nat) (code : BitVec 16) : State :=
  let l := ((s.conn peer).contribs.find? (fun e => e.1 == id)).map (·.2) |>.getD []
  l.foldl (fun s k => s.reply (k.port + 1) k code [] []) (s.modConn peer (fun c => { c with contribs := c.contribs.filter (fun e => e.1 != id) }))

/-! ### Transfers between memory and packets -/

/-- Bytes of physical pieces after every owner's dirty sectors have reached memory. -/
def State.readPieces (s : State) (l : List (Nat × Nat)) : State × List Byte × List Bool :=
  let s := l.foldl (fun s p => s.ncSettle p.1 p.2) s
  (s, l.flatMap (fun p => s.rd p.1 p.2), l.flatMap (fun p => (List.range p.2).map (fun j => s.secPois ((p.1 + j) / 32))))

/-- Bytes written to physical pieces, with the poison of each byte; the Boolean says whether a partly written sector was and stays poisoned (R177). -/
def State.writePieces (s : State) (c : Nat) : List (Nat × Nat) → List Byte → List Bool → State × Bool
  | [], _, _ => (s, false)
  | (a, n) :: t, l, bad =>
    let pp := s.partPois a n
    let s := (s.icMark a n).ncWrite c a (l.take n) (fun j => bad[j]?.getD false)
    let (s, b) := State.writePieces s c t (l.drop n) (bad.drop n)
    (s, pp || b)

/-! ### Grants and the checks of a request (R265, R328) -/

def grPeer (g : BitVec 128) : Nat := bits g 15 0
def grCmpt (g : BitVec 128) : Nat := bits g 23 16
def grClass (g : BitVec 128) : Nat := bits g 31 24
def grSeg (g : BitVec 128) : Nat := bits g 39 32
def grPerm (g : BitVec 128) : Nat := bits g 43 40
def grFirst (g : BitVec 128) : Nat := bits g 79 64
def grCount (g : BitVec 128) : Nat := bits g 95 80

/-- The grant a request names. -/
def State.grantOf (s : State) (k : FabPkt) : BitVec 128 := s.fab.grants.look k.grant.toNat 0

/-- The version a device reports, 0 when no report of it is held. -/
def State.srcVersion (s : State) (id : BitVec 16) : Nat := ((s.fab.reports.find? (fun r => r.id == id)).map (fun r => r.version.toNat)).getD 0

/-- Permission a request's opcode needs (Table 15.5). -/
def remoteNeed (op : BitVec 8) : Option (Nat → Bool) :=
  match op.toNat with | 1 => some needR | 2 => some needW | 4 => some needRed | _ => none

/-- The first check of R328 that fails, or zero. A peer segment is no target of a request: SEG_PERM (log 40). -/
def State.remoteCode (s : State) (k : FabPkt) : BitVec 16 :=
  let g := s.grantOf k
  let c := grCmpt g
  let va := grSeg g * 2 ^ 44 + k.off.toNat % 2 ^ 44
  if !s.fab.grants.has k.grant.toNat ∨ grPeer g ≠ k.src.toNat then 0x5401
  else if s.srcVersion k.src < s.fab.planFloor.toNat then 0x5402
  else if s.cstate c = .undef then 0x9002
  else if grPerm g = 8 then 0x5401
  else match remoteNeed k.op with
    | none => 0
    | some need =>
      if !need (grPerm g) then 0x5401
      else
        let e := s.seg c (grSeg g)
        let x := s.operandCode c va need k.len
        if x = 0x2001 ∨ x = 0x2002 then x
        else if e.typ = 4 then 0x2002
        else if 2 ^ 44 ≤ k.off.toNat then 0x2004
        else if x != 0 then x
        else if k.op != 4 then s.rangeCode c va k.len (k.op != 1)
        else if s.unserved c va k.len true then 0x3002 else 0

/-! ### Performing remote requests (R329 to R332) -/

/-- A request kept until it can be performed. -/
def State.keepReq (s : State) (k : FabPkt) : State :=
  s.modConn k.src.toNat (fun c => if c.wait.any (fun x => x.seq == k.seq) then c else { c with wait := c.wait ++ [k] })

/-- A request no longer kept. -/
def State.dropReq (s : State) (k : FabPkt) : State := s.modConn k.src.toNat (fun c => { c with wait := c.wait.filter (fun x => x.seq != k.seq) })

/-- A GET or PUT performed and answered; one that meets an absent page waits in the page's fault record, and one that meets a sector under rebuild waits for its end (R179, R215, R328, R332). -/
def State.remoteMem (s : State) (k : FabPkt) : State :=
  let g := s.grantOf k
  let c := grCmpt g
  let sg := grSeg g
  let e := s.seg c sg
  let x := k.off.toNat
  match s.firstAbsent c sg e x k.len with
  | some (pg, o) =>
    (s.keepReq k).pageFault c sg pg (sg * 2 ^ 44 + o) { origin := .remote k.src.toNat k.seq.toNat, write := k.op == 2, va := sg * 2 ^ 44 + o }
  | none =>
    let ps := s.physPieces c sg e x k.len
    if s.readWaits ps then s.keepReq k
    else
    let s := (s.dropReq k).offer (k.port + 1) 17 (grClass g) c (k.op != 1) ps
    if k.op = 1 then
      let (s, rebuilt) := s.readRebuilt ps
      let (s, l, bad) := s.readPieces ps
      s.reply (k.port + 1) k (if bad.any id then 0x3001 else if rebuilt then 0x0002 else 0) l bad
    else
      let (s, pp) := s.writePieces c ps k.data ((List.range k.len).map (fun j => bit k.pois (j / 32)))
      (s.markDirtySlots c sg e x k.len).reply (k.port + 1) k (if pp then 0x3001 else 0) [] []

/-- The number of a counter unit among the marks of remote senders. -/
def unitKey : CtrUnit → Nat
  | .core d i => 8 * d + i
  | .ssu l => 1024 + l
  | .disp => 2048

/-- One remote post checked and applied as a post of the grant's compartment: the status it returns (R69, R330). -/
def State.remotePost1 (s : State) (peer : Nat) (g : BitVec 128) (x : BitVec 128) : State × BitVec 16 :=
  let w := BitVec.ofNat 32 (bits x 31 0)
  let c := grCmpt g
  if pwKind w = 3 ∨ !pwFormat w ∨ !s.postOk c w ∨ (pwKind w = 2 ∧ ¬ (grFirst g ≤ pwCounter w ∧ pwCounter w < grFirst g + grCount g)) then (s, 0x1005)
  else if s.postFate c w != 0 then (s, s.postFate c w)
  else match s.postUnit c w with
    | none => (s, 0x1005)
    | some u =>
      let key := bits x 63 32 + 2 ^ 32 * unitKey u
      let (ok, m) := markStep (((s.conn peer).marks.find? (fun e => e.1 == key)).map (·.2)) (bits x 95 64) (bits x 127 96)
      let s := s.modConn peer (fun n => { n with marks := n.marks.filter (fun e => e.1 != key) ++ [(key, m)] })
      if !ok then (s, 0)
      else
        let s := match u with | .core d i => s.tally d i (pwCounter w) (pwInc w) | _ => s
        (s.addCounter u (pwCounter w) (pwInc w), 0)

/-- The posts of a POST or BATCH packet performed in order and answered with the first failure (R327, R330). -/
def State.remotePosts (s : State) (k : FabPkt) : State :=
  let s := s.dropReq k
  let r : State × BitVec 16 := (k.ext.take (if k.op = 5 then 8 else 1)).foldl (fun (r : State × BitVec 16) x =>
    let y := r.1.remotePost1 k.src.toNat (s.grantOf k) x
    (y.1, if r.2 != 0 then r.2 else y.2)) (s, 0)
  r.1.reply (k.port + 1) k r.2 [] []

/-- Whether sequence `a` comes before `b` on a connection. -/
def seqBefore (a b : BitVec 32) : Bool := a != b && decide ((b - a).toNat < 2 ^ 31)

/-- Whether every earlier operation of the connection has been received and performed (R329). -/
def Conn.ready (c : Conn) (q : BitVec 32) : Bool :=
  seqBefore q c.recvLow && !c.wait.any (fun k => seqBefore k.seq q) && !c.contribs.any (fun e => e.2.any (fun k => seqBefore k.seq q))

/-- Posts that waited for earlier operations performed as soon as they may be (R329). -/
def State.connFlushGo : Nat → State → Nat → State
  | 0, s, _ => s
  | fuel + 1, s, peer =>
    match (s.conn peer).wait.find? (fun k => (k.op == 3 || k.op == 5) && (s.conn peer).ready k.seq) with
    | some k => State.connFlushGo fuel (s.remotePosts k) peer
    | none => s

def State.connFlush (s : State) (peer : Nat) : State := State.connFlushGo ((s.conn peer).wait.length + 1) s peer

/-- A GET or PUT that waited in a fault record is tried again. -/
def State.remoteRetry (s : State) (peer seq : Nat) : State :=
  match (s.conn peer).wait.find? (fun k => k.seq.toNat == seq && (k.op == 1 || k.op == 2)) with
  | some k => (s.remoteMem k).connFlush peer
  | none => s

/-- Every GET and PUT that waits for a page tried again. -/
def State.remoteRetryAll (s : State) : State :=
  s.fab.conns.foldl (fun s c => (c.2.wait.filter (fun k => k.op == 1 || k.op == 2)).foldl (fun s k => s.remoteRetry c.1 k.seq.toNat) s) s

/-- The number under which a contribution's outcome finds its packets; the low range names single packets. -/
def contribId (x : BitVec 128) : Nat := 2 ^ 128 + x.toNat

/-- The outcome of a request the fabric waits for: a contribution's packets, or a GET or PUT that waited for a page. -/
def State.remoteOutcome (s : State) (peer id : Nat) (code : BitVec 16) : State :=
  if 2 ^ 128 ≤ id then (s.replyContrib peer id code).connFlush peer
  else match (s.conn peer).wait.find? (fun k => k.seq.toNat == id) with
    | some k => ((s.dropReq k).reply (k.port + 1) k code [] []).connFlush peer
    | none => s

end Sys2Proof.Machine
end

