-- ==== Sys2Proof/Machine/Paging.lean ====
section
/-! DEFINITION. Outcomes of work that waited, page commands, fault records and withdrawals (R215 to R222), and wiping (R138, R284). -/

namespace Sys2Proof.Machine

/-! ### Outcomes -/

/-- An outcome recorded in a queue entry: the first failure stays; the entry is done when it awaits nothing more. -/
def QEntry.settle (e : QEntry) (code : BitVec 16) (st : Sticky) (ends : Bool) : QEntry :=
  let e := { e with code := firstCode e.code code, sticky := e.sticky ||| st }
  if ends then { e with st := .done, pend := 0 }
  else
    let e := { e with pend := e.pend - 1 }
    if e.pend = 0 ∧ e.st = .running then { e with st := .done } else e

/-- The same for a descriptor. -/
def Desc.settle (e : Desc) (code : BitVec 16) (st : Sticky) (ends : Bool) : Desc :=
  let e := { e with code := firstCode e.code code, sticky := e.sticky ||| st }
  if ends then { e with st := .done, pend := 0 }
  else
    let e := { e with pend := e.pend - 1 }
    if e.pend = 0 ∧ e.st = .running then { e with st := .done } else e

/-- A rank of a launch that has failed: the status is that of the lowest failing rank, and the launch is done with its last rank (R79). -/
def Desc.rankEnd (d : Desc) (r : Nat) (code : BitVec 16) (detail : BitVec 64) (st : Sticky) : Desc :=
  let bad := isFailure code
  let low := bad && d.failed.all (fun x => decide (r < x))
  let left := d.left.filter (· != r)
  let going := d.going.filter (· != r)
  { d with
    left := left, going := going, sticky := d.sticky ||| st
    failed := if bad then insNat d.failed r else d.failed
    code := if low then code else d.code
    detail := if low then detail else d.detail
    st := if left.isEmpty && going.isEmpty then .done else d.st }

/-- The descriptor of a ring with serial number `id` changed by `f` while it has not ended. -/
def State.modDesc (s : State) (c k id : Nat) (f : Desc → Desc) : State :=
  s.modRing c k (fun r => { r with descs := r.descs.map (fun d => if d.id = id ∧ d.st ≠ .done then f d else d) })

/-- The SSU command of a descriptor leaves its queue. -/
def State.dropSsu (s : State) (c k index : Nat) : State :=
  (List.range 32).foldl (fun s l =>
    if ((s.stack l).queue c k).any (fun x => x.ring == k && x.index == index) then
      s.modStack l (fun t => t.setQueue c k ((t.queue c k).filter (fun x => !(x.ring == k && x.index == index))))
    else s) s

/-- The outcome of an operation that a command awaits; `ends` completes the command whatever else it awaits. -/
def State.outcome (s : State) (o : Origin) (code : BitVec 16) (st : Sticky) (ends : Bool) : State :=
  match o with
  | .queue d i q id => s.modCore d i (fun c => c.setQueue q ((c.queue q).map (fun e => if e.id = id ∧ e.st ≠ .done then e.settle code st ends else e)))
  | .desc c k index =>
    let s := s.modDesc c k index (fun d => d.settle code st ends)
    if ends then s.dropSsu c k index else s
  | .rank c k index r => s.modDesc c k index (fun d => d.rankEnd r code 0 st)
  | .remote peer id => s.remoteOutcome peer id code
  | _ => s

/-- UE_RECONSTRUCTED recorded for a command: a read of its own met a sector that was rebuilt. A failure it meets as well is what it reports (R159, R179). -/
def State.noteRecon (s : State) (o : Origin) : State :=
  match o with
  | .queue d i q id => s.modCore d i (fun c => c.setQueue q ((c.queue q).map (fun e => if e.id = id ∧ e.st ≠ .done then { e with code := firstCode e.code 0x0002 } else e)))
  | .desc c k index => s.modDesc c k index (fun d => { d with code := firstCode d.code 0x0002 })
  | _ => s

/-- A command's read of pieces against running rebuilds: whether it must wait, and the state, with UE_RECONSTRUCTED noted where it waits or is served by rebuild (R179, R183, R415). -/
def State.readGate (s : State) (o : Origin) (ps : List (Nat × Nat)) : State × Bool :=
  if s.readWaits ps then (s.noteRecon o, true)
  else
    let (s, r) := s.readRebuilt ps
    (if r then s.noteRecon o else s, false)

/-! ### Wiping -/

/-- A physical range written with zeros and valid check symbols: poison goes, and the listed poisoned sectors with it (R138, R284). -/
def State.zeroRange (s : State) (a n : Nat) : State :=
  let s := { s with
    mem := s.mem.filter (fun x => !(decide (a ≤ x.1) && decide (x.1 < a + n)))
    poison := s.poison.filter (fun p => !(decide (a ≤ 32 * p) && decide (32 * p < a + n))) }
  if inStacks a then
    s.modStack (paLs a) (fun t => { t with pois := t.pois.filter (fun p => !(decide (paOff a ≤ 32 * p) && decide (32 * p < paOff a + n))) })
  else s

/-- A range wiped after every cached line of it has been written back and invalidated. -/
def State.wipeRange (s : State) (a n : Nat) : State := (s.settle a n true).zeroRange a n

/-- The physical ranges of a segment entry that a wipe covers: whole stripes of a guarded segment (R284). -/
def State.segRanges (s : State) (e : Seg) : List (Nat × Nat) :=
  match e.typ with
  | 0 | 2 => (List.range e.nls).filterMap (fun j =>
      let n := min e.per (e.limit - j * e.per)
      if n = 0 then none else some (lsBase (e.firstLs + j) + e.off, n))
  | 1 =>
    let (ms, b, l) := s.area e.area
    let n := min l ((e.limit + 7 * 2048 - 1) / (7 * 2048) * 2048)
    ms.map (fun m => (lsBase m + b, n))
  | _ => []

/-! ### Page commands (R216, R217) -/

/-- Whether a selective IDE stream, 1 to 16, is Secure (Table 17.10). -/
def State.streamSecure (s : State) (n : Nat) : Bool := decide (1 ≤ n) && decide (n ≤ 16) && bit s.pci.ideSel (n - 1)

/-- The IDE stream bound to a compartment's TDI is Secure. -/
def State.ideKeyed (s : State) (c : Nat) : Bool := (s.cmpt c).bound && s.streamSecure (s.cmpt c).stream

/-- Whether a vitrine's rules refuse a page command (R217, R361, R364). -/
def State.pageDenied (s : State) (c : Nat) (out : Bool) : Bool :=
  let m := s.cmpt c
  m.vitrine && (!(m.tdi == .run && s.ideKeyed c) || m.role == 1 || (m.role == 2 && out))

/-- Whether a page is being paged in or out. -/
def Cmpt.pageMoving (m : Cmpt) (seg page : Nat) (op : Nat) : Bool := m.pcmds.any (fun p => p.op == op && p.seg == seg && p.page == page)

/-- Slots of a compartment's landing area. -/
def Cmpt.slots (m : Cmpt) : Nat := match m.plan with | some r => landingSlots r | none => 0

/-- A page command ends with its one event (R216). -/
def State.pageEnd (s : State) (c : Nat) (code : Nat) : State :=
  (s.modCmpt c (fun m => { m with pageCode := BitVec.ofNat 16 code })).event c code 0 0

/-- The contributions of a command that has ended leave the intakes. -/
def State.dropContribs (s : State) (o : Origin) : State :=
  if s.stk.any (fun t => t.2.intake.any (fun x => x.origin == o)) then
    { s with stk := s.stk.each (fun _ t => { t with intake := t.intake.filter (fun x => x.origin != o) }) }
  else s

/-- An access of a fault record completes with a failure: a control processor takes an access fault, a command ends with the code, and with it a contribution that waited for its window's page (R218). -/
def State.failWaiter (s : State) (w : Waiter) (code : BitVec 16) : State :=
  match w.cp with
  | some (d, i) => s.accessFault d i w.write w.va
  | none => (s.dropContribs w.origin).outcome w.origin code 0 true

/-- An access that waits in the mesh for a fault record is tried again when one frees (R215). -/
def State.retryAll (s : State) : State := (s.tiles.keys.foldl State.retryDie s).remoteRetryAll

/-- Every access of a fault record completes with a failure, in arrival order, and the record is freed. -/
def State.failRecord (s : State) (c k : Nat) (code : BitVec 16) : State :=
  let r := (s.cmpt c).frecs.look k {}
  (r.waiters.foldl (fun s w => s.failWaiter w code) (s.modCmpt c (fun m => { m with frecs := m.frecs.del k }))).retryAll

/-- Every access of a fault record goes on, in arrival order: a control processor's is performed, a stalled command may run again; the record is freed (Table 9.4). -/
def State.releaseRecord (s : State) (c k : Nat) : State :=
  let r := (s.cmpt c).frecs.look k {}
  (r.waiters.foldl (fun s w => match w.cp with | some (d, i) => s.retry d i | none => (match w.origin with | .remote p q => s.remoteRetry p q | _ => s)) (s.modCmpt c (fun m => { m with frecs := m.frecs.del k }))).retryAll

/-- Whether a page command is refused with PAGE_CMD_INVALID (R217). -/
def State.pageInvalid (s : State) (c op seg page slot : Nat) : Bool :=
  let m := s.cmpt c
  let e := s.seg c seg
  !e.valid || e.typ != 3 || decide (e.limit ≤ page * 0x20_0000) || decide (m.slots ≤ slot) ||
  (match op with
   | 1 => (m.slotHolding seg page).isSome || m.pageMoving seg page 1 || m.resmap.look slot 0 != 0
   | 2 => (m.slotHolding seg page).isNone || m.pageMoving seg page 2
   | _ => (s.recordOf c seg page).isNone)

/-- A page-in whose host read failed: the slot is free and every access of the record completes with the code (R217); one whose segment was withdrawn ends with STALE_MAP (R221). -/
def State.pageInFail (s : State) (c slot : Nat) (code : BitVec 16) : State :=
  match (s.cmpt c).pcmds.find? (fun p => p.op == 1 && p.slot == slot) with
  | some p =>
    let code := if p.stale then 0x2003 else code
    let s := s.modCmpt c (fun m => { m with pcmds := m.pcmds.filter (fun x => !(x.op == 1 && x.slot == slot)), resmap := m.resmap.del slot })
    let s := match s.recordOf c p.seg p.page with | some k => s.failRecord c k code | none => s
    s.pageEnd c code.toNat
  | none => s

/-- Bytes of a device-issued read: Max_Read_Request_Size, at most 4,096 (R289, R298). -/
def State.readSize (s : State) : Nat := min 4096 (128 * 2 ^ s.pci.mrrs.toNat)

/-- Bytes of a device-issued write's payload: Max_Payload_Size, at most 512 (R289, R298). -/
def State.payload (s : State) : Nat := min 512 (128 * 2 ^ s.pci.mps.toNat)

/-- The next part of a page-in asked of the host (R298); none when its segment has been withdrawn (R221). -/
def State.pageAsk (s : State) (c : Nat) (p : PageCmd) : State :=
  if p.stale then s.pageInFail c p.slot 0x2003
  else if p.got < 0x20_0000 then
    s.hostReadReq { fn := c, kind := 1, slot := p.slot, addr := (s.seg c p.seg).iova + p.page * 0x20_0000 + p.got, len := s.readSize }
  else s

/-- The residency-map entry of a page (Table 9.6). -/
def resEntry (res dirty moving : Bool) (seg page : Nat) : BitVec 64 :=
  BitVec.ofNat 64 (2 ^ 63 * b2n res + 2 ^ 62 * b2n dirty + 2 ^ 61 * b2n moving + 2 ^ 48 * (seg % 16) + page % 2 ^ 19)

/-- A page-out begins: new accesses to the page are blocked (Table 9.4). -/
def State.pageOutStart (s : State) (c seg page slot : Nat) (force withdraw : Bool) : State :=
  s.modCmpt c (fun m => { m with
    resmap := m.resmap.put slot (setBit (m.resmap.look slot 0) 61 true)
    pcmds := m.pcmds ++ [{ op := 2, seg := seg, page := page, slot := slot, force := force, withdraw := withdraw }] })

/-- Page commands that count against the four of a compartment. -/
def Cmpt.pcmdsRunning (m : Cmpt) : Nat := (m.pcmds.filter (fun p => !p.withdraw)).length

/-- A landing slot meets the destination of an open aggregation window, which no access but its contributions may read (R133). -/
def State.slotClip (s : State) (c k : Nat) : Bool :=
  match (s.cmpt c).plan with | some r => s.clipHit (landingBase r + k * 0x20_0000) 0x20_0000 | none => false

/-- A write to CMP_PAGE_CMD (R216, R217, Table 9.6). -/
def State.pageCmd (s : State) (c : Nat) (v : BitVec 64) : State :=
  let op := bits v 63 60
  let slot := bits v 47 36
  let seg := bits v 35 32
  let page := bits v 18 0
  if op = 0 ∨ 3 < op ∨ 4 ≤ (s.cmpt c).pcmdsRunning ∨ s.cstate c ≠ .ready then s
  else if s.pageInvalid c op seg page slot then s.pageEnd c 0x2007
  else match op with
    | 1 =>
      if s.pageDenied c false then s.pageEnd c 0x7002
      else
        let p : PageCmd := { op := 1, seg := seg, page := page, slot := slot }
        (s.modCmpt c (fun m => { m with pcmds := m.pcmds ++ [p], resmap := m.resmap.put slot (resEntry false false true seg page) })).pageAsk c p
    | 2 =>
      match (s.cmpt c).slotHolding seg page with
      | some k => if s.pageDenied c true || s.slotClip c k then s.pageEnd c 0x7002 else s.pageOutStart c seg page k (bit v 59) false
      | none => s
    | _ =>
      match s.recordOf c seg page with
      | some k => (s.failRecord c k 0x2005).pageEnd c 0x2005
      | none => s

/-- PAGE_IN ends: the page is resident and clean, its record's accesses are released and its event is posted: POISON when a completion carried EP = 1 (Table 9.4, R301). -/
def State.pageInDone (s : State) (c slot : Nat) : State :=
  match (s.cmpt c).pcmds.find? (fun p => p.op == 1 && p.slot == slot) with
  | some p =>
    if p.got < 0x20_0000 then s
    else
      let s := s.modCmpt c (fun m => { m with
        pcmds := m.pcmds.filter (fun x => !(x.op == 1 && x.slot == slot))
        resmap := m.resmap.put slot (resEntry true false false p.seg p.page) })
      let s := match s.recordOf c p.seg p.page with | some k => s.releaseRecord c k | none => s
      s.pageEnd c (if p.pois then 0x3001 else 0x0020)
  | none => s

/-- Bytes written to the host in payloads of Max_Payload_Size; those in the middle carry Relaxed Ordering (R298); a payload with a poisoned sector carries EP, and zeros in the poisoned sectors, which hold zeros (R301). -/
def State.hostWriteGo : Nat → State → Nat → Nat → Nat → Nat → Bool → State
  | 0, s, _, _, _, _, _ => s
  | fuel + 1, s, fn, addr, a, n, first =>
    if n = 0 then s
    else
      let k := min n s.payload
      State.hostWriteGo fuel (s.emit (.hostWrite fn addr (s.rd a k) (s.pois a k) (s.tBit fn) (!first && k != n))) fn (addr + k) (a + k) (n - k) false

/-- Whether accesses to a landing slot are still in progress: a control processor's that has asked for a line, a line of it in transit between caches and homes, or a remote read that will land there (Table 9.4). -/
def State.slotBusy (s : State) (c seg page a : Nat) : Bool :=
  let on (va n : Nat) : Bool := vaSeg va == seg && meets (vaOff va) n (page * 0x20_0000) 0x20_0000
  s.fab.conns.any (fun n => n.2.outstanding.any (fun o => o.land.any (fun q => meets q.1 q.2 a 0x20_0000))) ||
  (List.range (s.nranks c)).any (fun r => match s.rankCore c r with
    | some (d, i) =>
      (match (s.core d i).pload with | some p => p.began && on p.va p.size | none => false) ||
      (match (s.core d i).pstore with | some p => p.began && on p.va p.data.length | none => false)
    | none => false) ||
  s.coh.any (fun m => lineIn a 0x20_0000 m.line) ||
  (32 :: s.stk.keys).any (fun h => (s.home h).txns.any (fun x => lineIn a 0x20_0000 x.1) || (s.home h).hq.any (fun m => lineIn a 0x20_0000 m.line))

/-- PAGE_OUT ends once the accesses in progress have completed: the slot's cached lines are snooped out, the slot is written to the host when DIRTY or FORCE, and becomes free (Table 9.4). A joint or party compartment's withdrawn page is discarded (R364), and a vitrine's withdrawn slot is wiped (R221 step 6). -/
def State.pageOutDone (s : State) (c slot : Nat) : State :=
  match (s.cmpt c).pcmds.find? (fun p => p.op == 2 && p.slot == slot), (s.cmpt c).plan with
  | some p, some r =>
    let a := landingBase r + slot * 0x20_0000
    if s.slotBusy c p.seg p.page a then s else
    let s := s.settle a 0x20_0000 true
    let d := bit ((s.cmpt c).resmap.look slot 0) 62
    let drop := (p.withdraw && (s.cmpt c).vitrine && ((s.cmpt c).role == 1 || (s.cmpt c).role == 2)) || s.slotClip c slot
    let e := (s.unmaps.find? (fun u => u.cmpt == c && u.seg == p.seg)).map (·.old)
    let iova := (e.getD (s.seg c p.seg)).iova
    let s := if (d || p.force) && !drop then State.hostWriteGo 16385 s c (iova + p.page * 0x20_0000) a 0x20_0000 true else s
    let s := if p.withdraw && (s.cmpt c).vitrine then s.zeroRange a 0x20_0000 else s
    let s := s.modCmpt c (fun m => { m with
      pcmds := m.pcmds.filter (fun x => !(x.op == 2 && x.slot == slot))
      resmap := m.resmap.del slot })
    if p.withdraw then s else s.pageEnd c 0x0021
  | _, _ => s

/-! ### Withdrawals (R221, R222) -/

/-- Work that uses a segment of a compartment stops with STALE_MAP: accesses in its fault records, and contributions that its commands have at an intake (R221 step 3). -/
def State.stopThrough (s : State) (c seg : Nat) : State :=
  let s := (s.cmpt c).frecs.foldl (fun s e => if e.2.seg = seg then s.failRecord c e.1 0x2003 else s) s
  (List.range 32).foldl (fun s l =>
    let gone := (s.stack l).intake.filter (fun x => x.cmpt == c && x.seg == some seg)
    gone.foldl (fun s x => s.outcome x.origin 0x2003 0 false)
      (if gone.isEmpty then s else s.modStack l (fun t => { t with intake := t.intake.filter (fun x => !(x.cmpt == c && x.seg == some seg)) }))) s

/-- Page commands running on a withdrawn segment: a page-in asks for nothing more and ends with STALE_MAP when its read in flight has returned, and a page-out ends with STALE_MAP, the withdrawal carrying it on with FORCE = 0 (R221 steps 3 and 4). -/
def State.stopPages (s : State) (c seg : Nat) : State :=
  (s.cmpt c).pcmds.foldl (fun s p =>
    if p.seg ≠ seg ∨ p.withdraw then s
    else if p.op = 1 then
      let s := s.modCmpt c (fun m => { m with pcmds := m.pcmds.map (fun x => if x = p then { x with stale := true } else x) })
      if s.pci.reads.any (fun r => r.fn == c && r.kind == 1 && r.slot == p.slot) then s else s.pageInFail c p.slot 0x2003
    else
      (s.modCmpt c (fun m => { m with pcmds := m.pcmds.map (fun x => if x = p then { x with withdraw := true, force := false } else x) })).pageEnd c 0x2003) s

/-- A withdrawal begins: the entry's generation rises and the new entry is stored, or VALID cleared; started work stops and resident pages start to be paged out (R221 steps 1 to 4). -/
def State.unmapStart (s : State) (c seg : Nat) (new : Option Seg) (byReg toCmpt : Bool) : State :=
  let old := s.seg c seg
  let e : Seg := match new with
    | some n => { n with w0 := BitVec.ofNat 64 (n.w0.toNat - bits n.w0 62 55 * 2 ^ 55 + (old.gen + 1) % 256 * 2 ^ 55) }
    | none => { w0 := setBit old.raised.w0 63 false, w1 := old.w1, w2 := old.w2 }
  let s := s.modCmpt c (fun m => { m with segs := m.segs.put seg e })
  let s := { s with unmaps := s.unmaps ++ [({ cmpt := c, seg := seg, old := old, step := 5, byReg := byReg, toCmpt := toCmpt } : Unmap)] }
  let s := (s.stopThrough c seg).stopPages c seg
  if old.valid && old.typ == 3 then
    (s.cmpt c).resmap.foldl (fun s r =>
      if bit r.2 63 && bits r.2 51 48 == seg && !bit r.2 61 then s.pageOutStart c seg (bits r.2 18 0) r.1 false true else s) s
  else s

/-- HUB_UNMAP_REQ (R221, Table 9.7): from the PF and the management port; ignored while one is running. -/
def State.unmapReq (s : State) (port : Port) (v : BitVec 64) : State :=
  if port != .pf && port != .mgmt then s.portDenied port 0x708000
  else if s.unmaps.any (·.byReg) || bits v 13 8 == 0 || s.cstate (bits v 13 8) != .ready then s
  else
    let s := if (s.seg (bits v 13 8) (bits v 3 0)).valid then s.modCmpt (bits v 13 8) (fun m => { m with lifted := insNat m.lifted (bits v 3 0) }) else s
    s.unmapStart (bits v 13 8) (bits v 3 0) none true true

/-- Whether a graft site's packet, translated for a compartment, is still on its way to memory in one of some ranges (R221, R347). -/
def State.gateBusy (s : State) (c : Nat) (l : List (Nat × Nat)) : Bool :=
  (s.coh ++ (32 :: s.stk.keys).flatMap (fun h => (s.home h).hq)).any (fun m =>
    decide (29 ≤ m.src) && !m.toAgent && m.cmpt == c && l.any (fun r => meets (128 * m.line) 128 r.1 r.2))

/-- Whether every transfer that a withdrawal waits for has been performed: its pages are out, page-ins it stopped have ended, and no control-processor access, graft packet or remote operation through the segment is in progress (R221 step 5). -/
def State.unmapQuiet (s : State) (c seg : Nat) : Bool :=
  !((s.cmpt c).pcmds.any (fun p => (p.withdraw || p.stale) && p.seg == seg)) &&
  (List.range (s.nranks c)).all (fun r => match s.rankCore c r with
    | some (d, i) =>
      (match (s.core d i).pload with | some p => vaSeg p.va != seg | none => true) &&
      (match (s.core d i).pstore with | some p => vaSeg p.va != seg | none => true)
    | none => true) &&
  (s.unmaps.filter (fun u => u.cmpt == c && u.seg == seg)).all (fun u => !s.gateBusy c (s.segRanges u.old)) &&
  s.fab.conns.all (fun n => n.2.outstanding.all (fun o =>
    !(o.cmpt == c && o.seg == some seg) &&
    o.land.all (fun r => (s.unmaps.filter (fun u => u.cmpt == c && u.seg == seg)).all (fun u => (s.segRanges u.old).all (fun q => !meets r.1 r.2 q.1 q.2)))))

/-- No delta, stripe message or rebuild of a wiped sector stays (R284). -/
def State.dropStripes (s : State) (a n : Nat) : State :=
  let inside (ls off : Nat) : Bool := decide (a ≤ lsBase ls + off) && decide (lsBase ls + off < a + n)
  { s with
    stripes := s.stripes.filter (fun m => !(inside m.src m.off || inside m.dst m.off))
    stk := s.stk.each (fun l t => { t with
      deltas := t.deltas.filter (fun x => !(inside x.pls x.off || inside x.src x.off))
      rebuilds := t.rebuilds.filter (fun r => !inside l r.off) }) }

/-- A range of stacks wiped: zeros with valid check symbols, poison lost. -/
def State.fallowWipe (s : State) (r : Nat × Nat) : State := ((s.dropStripes r.1 r.2).wipeRange r.1 r.2).refresh r.1 r.2

/-- A withdrawal completes: a vitrine's old range is wiped, BUSY clears, and WITHDRAWN is posted with the segment and its generation (R221 steps 6 and 7); of a withdrawal that a fallow met, the fallow wipes the range and WITHDRAWN goes to the PF only (R287). The PF's event carries the compartment number (R281) in bytes 4 to 7 (DESIGN CHOICE, log 47). -/
def State.withdrawn (s : State) (c seg : Nat) : State :=
  match s.unmaps.find? (fun u => u.cmpt == c && u.seg == seg) with
  | some u =>
    if !s.unmapQuiet c seg then s
    else
      let s := { s with unmaps := s.unmaps.filter (fun x => !(x.cmpt == c && x.seg == seg)) }
      let s := if (s.cmpt c).vitrine && u.old.valid && s.cstate c == .ready && u.toCmpt && (u.old.typ == 0 || u.old.typ == 1) then
        (s.segRanges u.old).foldl State.fallowWipe s else s
      let d := BitVec.ofNat 64 (seg + 256 * (s.seg c seg).gen)
      let s := if u.toCmpt then s.event c 0x0023 0 d else s
      s.event 0 0x0023 c d
  | none => s

/-- WITHDRAWN (R221). -/
def execWithdrawn (fn seg : Nat) (s : State) : Res := upDo s (fun s => s.withdrawn fn seg)

/-- HUB_UNMAP_REQ (R221). -/
def execHubUnmapReq (port : Port) (val : BitVec 64) (s : State) : Res := upDo s (fun s => s.unmapReq port val)

/-- PAGE_IN_DONE (R216). -/
def execPageInDone (fn slot : Nat) (s : State) : Res := upDo s (fun s => s.pageInDone fn slot)

/-- PAGE_OUT_DONE (R216). -/
def execPageOutDone (fn slot : Nat) (s : State) : Res := upDo s (fun s => s.pageOutDone fn slot)

/-- FAULT_TIMEOUT: a record that has been pending for CMP_FAULT_LIMIT fails all its accesses, is freed and posts its event; 0 means no limit (R218, Table 9.7). -/
def execFaultTimeout (fn index age : Nat) (s : State) : Res :=
  upDo s (fun s =>
    let m := s.cmpt fn
    if m.faultLimit != 0 && decide (m.faultLimit.toNat ≤ age) && m.frecs.has index then (s.failRecord fn index 0x2006).event fn 0x2006 index 0
    else s)

end Sys2Proof.Machine
end

