-- ==== Sys2Proof/Machine/Bar0.lean ====
section
/-! DEFINITION. Writes to the registers of BAR0: the gates before them, and the doorbells, ring registers, page commands, MSI-X table and BAR2 windows behind them (Tables 3.8, 9.6, 13.3, 13.4, 14.5, 14.8, 14.9). -/

namespace Sys2Proof.Machine

/-! ### MSI-X (R281) -/

/-- Pending vectors that may now be sent are sent. -/
def State.msixFlush (s : State) (fn : Nat) : State :=
  let c := s.cmpt fn
  if !c.msixEn || c.fmask || s.cstate fn == .fallow then s
  else c.pba.foldl (fun s v =>
    let e := (s.cmpt fn).msix.look v {}
    if e.mask then s
    else (s.modCmpt fn (fun c => { c with pba := c.pba.filter (· != v) })).emit (.msix fn v e.addr e.data (s.tBit fn))) s

/-- A half of an MSI-X table entry written: the address, or the data and the mask bit. -/
def State.msixWrite (s : State) (fn v : Nat) (hi : Bool) (x : BitVec 64) : State :=
  if v < (if fn = 0 then 64 else 32) then
    let s := s.modCmpt fn (fun c =>
      let e := c.msix.look v {}
      { c with msix := c.msix.put v (if hi then { e with data := BitVec.ofNat 32 (bits x 31 0), mask := bit x 32 } else { e with addr := BitVec.ofNat 64 (bits x 63 2 * 4) }) })
    s.msixFlush fn
  else s

/-- CMP_EQ_VECTOR: a vector not below CMP_VECTORS is stored with EN = 0 (Table 13.4). -/
def State.eqVectorWrite (s : State) (fn : Nat) (x : BitVec 64) : State :=
  let en := bit x 8 && decide (bits x 5 0 < s.nvec fn)
  s.modCmpt fn (fun c => { c with eqVector := BitVec.ofNat 64 (bits x 5 0 + 256 * b2n en) })

/-- A BAR2 window entry written, reserved bits zero (Tables 14.8 and 14.9). -/
def State.winWrite (s : State) (fn w : Nat) (x : BitVec 64) : State :=
  if w < (if fn = 0 then 256 else 16) then
    let m : BitVec 64 := if fn = 0 then 0xE700FFFFFFFFF000#64 else 0xE7F00FFFFFFFF000#64
    s.modCmpt fn (fun c => { c with win := c.win.put w (x &&& m) })
  else s

/-- A BAR0 write performed by its register (Tables 3.8, 8.10, 9.6, 13.4, 14.5). Offsets with no writable register are ignored (R8, R9). -/
def State.bar0Write (s : State) (fn o : Nat) (x : BitVec 64) : State :=
  if o % 8 ≠ 0 then s
  else if 0x1000 ≤ o ∧ o < 0x1080 then
    let k := (o - 0x1000) / 32
    match (o - 0x1000) % 32 with
    | 0 => s.ringWrite fn k false x
    | 8 => s.ringWrite fn k true x
    | 24 => s.sqDoorbell fn k (bits x 15 0)
    | _ => s
  else if o = 0x1080 then s.ringWrite fn 4 false x
  else if o = 0x1088 then s.ringWrite fn 4 true x
  else if o = 0x1098 then s.headDoorbell fn false (bits x 15 0)
  else if o = 0x10A0 then s.ringWrite fn 5 false x
  else if o = 0x10A8 then s.ringWrite fn 5 true x
  else if o = 0x10B8 then s.headDoorbell fn true (bits x 15 0)
  else if o = 0x10D0 then s.eqVectorWrite fn x
  else if 0x1140 ≤ o ∧ o < 0x1180 then s.addCounter .disp (8 * fn + (o - 0x1140) / 8) (bits x 15 0)
  else if 0x1200 ≤ o ∧ o < 0x1240 then
    s.modCmpt fn (fun c => { c with whint := c.whint.put ((o - 0x1200) / 8) (BitVec.ofNat 64 (bits x 7 0 + 2 ^ 15 * b2n (bit x 15))) })
  else if o = 0x2200 then (if fn = 0 then s else s.pageCmd fn x)
  else if 0x80000 ≤ o ∧ o < 0x80400 then s.msixWrite fn ((o - 0x80000) / 16) (o % 16 == 8) x
  else if 0x90000 ≤ o ∧ o < 0x90800 then s.winWrite fn ((o - 0x90000) / 8) x
  else s

/-- Whether a BAR0 write enables a ring that is not enabled (R354). -/
def State.enables (s : State) (fn o : Nat) (x : BitVec 64) : Bool :=
  let ctrl : Option (BitVec 64) :=
    if 0x1000 ≤ o ∧ o < 0x1080 ∧ (o - 0x1000) % 32 = 8 then some ((s.cmpt fn).ring ((o - 0x1000) / 32)).ctrl
    else if o = 0x1088 then some (s.cmpt fn).cq.ctrl
    else if o = 0x10A8 then some (s.cmpt fn).eq.ctrl
    else none
  match ctrl with
  | some c => !ringOn c && bit x 8 && decide (4 ≤ bits x 4 0) && decide (bits x 4 0 ≤ 16) && s.cstate fn != .undef
  | none => false

/-- Whether a BAR0 offset is a locked register of a TDI (R360). -/
def lockedReg (o : Nat) : Bool :=
  (decide (0x90000 ≤ o) && decide (o < 0x90080)) || (decide (0x1200 ≤ o) && decide (o < 0x1240)) ||
  (decide (0x1000 ≤ o) && decide (o < 0x1080) && ((o - 0x1000) % 32 == 0 || (o - 0x1000) % 32 == 8)) ||
  o == 0x1080 || o == 0x1088 || o == 0x10A0 || o == 0x10A8 || o == 0x10D0 || (decide (0x80000 ≤ o) && decide (o < 0x80200))

/-- A BAR0 write past the TDI's gate: it enables a vitrine's ring only under R354, and waits behind such a write that is held. -/
def State.bar0Open (s : State) (fn o : Nat) (x : BitVec 64) : State :=
  if (s.cmpt fn).heldWr ≠ [] then s.modCmpt fn (fun c => { c with heldWr := c.heldWr ++ [(o, x)] })
  else if (s.cmpt fn).vitrine && !(s.cmpt fn).active && s.enables fn o x then
    if s.debugOpen then s.event fn 0x700D 0 0
    else if s.holdsTrigger fn then s.modCmpt fn (fun c => { c with heldWr := [(o, x)] })
    else (s.bar0Write fn o x).activate fn
  else s.bar0Write fn o x

/-- A BAR0 write of a function: dropped while its compartment is FALLOW (Table 13.3); a write to a locked register other than with T = 1 in RUN puts a locked TDI into ERROR (R360); in RUN, a request with T = 0 is refused (R361). -/
def State.bar0 (s : State) (fn o : Nat) (x : BitVec 64) (t : Bool) : State :=
  if ¬ fn < 64 then s
  else if s.cstate fn = .fallow then s
  else match (s.cmpt fn).tdi with
    | .locked => if lockedReg o then s.tdiFallow fn else s.bar0Open fn o x
    | .run =>
      if t then s.bar0Open fn o x
      else if lockedReg o then (s.aerLog fn .unsupportedRequest).tdiFallow fn
      else s.aerLog fn .unsupportedRequest
    | _ => s.bar0Open fn o x

/-- A BAR0 write that arrives as the state of the function's TDI asks: with T = 1 in RUN, with T = 0 otherwise (R361). -/
def State.bar0T (s : State) (fn o : Nat) (x : BitVec 64) : State := s.bar0 fn o x ((s.cmpt fn).tdi == .run)

/-- Held BAR0 writes performed in order once the load, epoch or trial has ended: the ring-enabling write first, together with the activation (R354). -/
def State.releaseWrites (s : State) (fn : Nat) : State :=
  match (s.cmpt fn).heldWr with
  | [] => s
  | l =>
    if s.holdsTrigger fn || s.cstate fn != .ready then s
    else l.foldl (fun s w => s.bar0T fn w.1 w.2) (s.modCmpt fn (fun c => { c with heldWr := [] }))

/-- A doorbell or a request brings the device out of deep rest, or out of its entry (Table 21.5). -/
def State.wake (s : State) : State :=
  if s.pwr.state = .deepRest ∨ s.pwr.state = .entering then { s with pwr := { s.pwr with state := .exiting } } else s

/-- SQ_DOORBELL (R73, Table 21.5). -/
def execSqDoorbell (fn k : Nat) (val : BitVec 64) (s : State) : Res :=
  upDo s (fun s => if k < 4 then s.wake.bar0T fn (0x1018 + 32 * k) val else s)

/-- RING_CTRL_WRITE: ring 0 to 3 submission, 4 completion, 5 event; BASE or CTRL (R73, R75, R278). -/
def execRingCtrlWrite (fn ring : Nat) (ctrl : Bool) (val : BitVec 64) (s : State) : Res :=
  upDo s (fun s => if ring < 6 then s.bar0T fn ((if ring < 4 then 0x1000 + 32 * ring else if ring = 4 then 0x1080 else 0x10A0) + 8 * b2n ctrl) val else s)

/-- CMP_CQ_HEAD_DOORBELL (R75). -/
def execCmpCqHeadDoorbell (fn : Nat) (val : BitVec 64) (s : State) : Res := upDo s (fun s => s.bar0T fn 0x1098 val)

/-- CMP_EQ_HEAD_DOORBELL (R75). -/
def execCmpEqHeadDoorbell (fn : Nat) (val : BitVec 64) (s : State) : Res := upDo s (fun s => s.bar0T fn 0x10B8 val)

/-- CMP_TKN_POST: a function adds to one of its compartment's eight dispatcher counters (R63, R67). -/
def execCmpTknPost (fn j : Nat) (val : BitVec 64) (s : State) : Res :=
  upDo s (fun s => if j < 8 then s.bar0T fn (0x1140 + 8 * j) val else s)

/-- A page command with its operation in OP (Table 9.4). -/
def withOp (op : Nat) (v : BitVec 64) : BitVec 64 := BitVec.ofNat 64 (op * 2 ^ 60 + bits v 59 0)

/-- PAGE_IN (R216, R217). -/
def execPageIn (fn : Nat) (val : BitVec 64) (s : State) : Res := upDo s (fun s => s.bar0T fn 0x2200 (withOp 1 val))

/-- PAGE_OUT (R216, R217). -/
def execPageOut (fn : Nat) (val : BitVec 64) (s : State) : Res := upDo s (fun s => s.bar0T fn 0x2200 (withOp 2 val))

/-- PAGE_FAIL (R216, R217). -/
def execPageFail (fn : Nat) (val : BitVec 64) (s : State) : Res := upDo s (fun s => s.bar0T fn 0x2200 (withOp 3 val))

/-- BAR2_WINDOW_WRITE (R294). -/
def execBar2WindowWrite (fn w : Nat) (val : BitVec 64) (s : State) : Res :=
  upDo s (fun s => if w < 256 then s.bar0T fn (0x90000 + 8 * w) val else s)

/-- LOCKED_REGISTER_WRITE: a write to a locked register, with its T bit (R360). -/
def execLockedRegisterWrite (fn off : Nat) (val : BitVec 64) (t : Bool) (s : State) : Res :=
  upDo s (fun s => if fn ≠ 0 ∧ lockedReg off then s.bar0 fn off val t else s)

/-- MSIX_UNMASK: a vector's mask bit clears (kind 0), Function Mask clears (1) or MSI-X Enable is set (2), and pending messages are sent (R281). -/
def execMsixUnmask (fn kind vector : Nat) (s : State) : Res :=
  upDo s (fun s =>
    if fn < 64 ∧ s.cstate fn ≠ .fallow then
      let s := match kind with
        | 0 => if vector < (if fn = 0 then 64 else 32) then s.modCmpt fn (fun c => { c with msix := c.msix.put vector { c.msix.look vector {} with mask := false } }) else s
        | 1 => s.modCmpt fn (fun c => { c with fmask := false })
        | _ => s.modCmpt fn (fun c => { c with msixEn := true })
      s.msixFlush fn
    else s)

end Sys2Proof.Machine
end

