-- ==== Sys2Proof/Machine/Remote.lean ====
section
/-! DEFINITION. Sending remote operations over the fabric: connections, packets and the choice of a port (R320, R322, R323, R325 to R327). -/

namespace Sys2Proof.Machine

/-- A remote operation opened on the connection with its destination: its packet takes the next sequence and both incarnations, and waits for its response (R325, R329). -/
def State.remoteOp (s : State) (d : Nat) (o : OutOp) : State :=
  let peer := o.pkt.dst.toNat
  let c := s.conn peer
  let k := { o.pkt with src := s.fab.id, seq := c.nextSeq, dstInc := c.theirInc, srcInc := s.fab.inc, port := d, prio := s.clsPrio (s.originCls o.issuer) }
  (s.modConn peer (fun c => { c with nextSeq := c.nextSeq + 1, outstanding := c.outstanding ++ [{ o with pkt := k }] })).fabSend d k

/-- A 16-byte extension of four 32-bit fields (Table 15.5). -/
def ext4 (a b c d : Nat) : BitVec 128 := BitVec.ofNat 128 (a % 2 ^ 32 + 2 ^ 32 * (b % 2 ^ 32) + 2 ^ 64 * (c % 2 ^ 32) + 2 ^ 96 * (d % 2 ^ 32))

/-- GET of `n` bytes at offset `x` of a peer segment, to be written to `land` (Table 15.5). -/
def State.sendGet (s : State) (d c seg : Nat) (e : Seg) (x n : Nat) (land : List (Nat × Nat)) (hint : Nat) (o : Origin) : State :=
  s.remoteOp d { pkt := { dst := e.fabric, op := 1, grant := BitVec.ofNat 16 e.grant, len := n, off := BitVec.ofNat 64 x },
                 issuer := o, land := land, cmpt := c, seg := some seg, hint := hint }

/-- PUT of bytes at offset `x` of a peer segment, with their poison mask (Table 15.5, R332). -/
def State.sendPut (s : State) (d c seg : Nat) (e : Seg) (x : Nat) (l : List Byte) (bad : List Bool) (o : Origin) : State :=
  s.remoteOp d { pkt := { dst := e.fabric, op := 2, flags := BitVec.ofNat 8 (2 * b2n (bad.any id)), grant := BitVec.ofNat 16 e.grant, len := l.length
                          off := BitVec.ofNat 64 x, pois := poisonMask bad, data := maskedData l bad },
                 issuer := o, cmpt := c, seg := some seg }

/-- A contribution to a peer segment with RED, cut into packets of at most 4 KiB (R327, Table 15.5). -/
def State.sendContrib : Nat → State → Nat → Nat → Nat → Seg → Nat → List Byte → List Bool → BitVec 128 → Origin → State
  | 0, s, _, _, _, _, _, _, _, _, _ => s
  | fuel + 1, s, d, c, seg, e, x, l, bad, ext, o =>
    if l.isEmpty then s
    else
      let l1 := l.take 4096
      let b1 := bad.take 4096
      let s := s.remoteOp d { pkt := { dst := e.fabric, op := 4, flags := BitVec.ofNat 8 (2 * b2n (b1.any id)), grant := BitVec.ofNat 16 e.grant
                                       len := l1.length, off := BitVec.ofNat 64 x, ext := [ext], pois := poisonMask b1, data := maskedData l1 b1 },
                              issuer := o, cmpt := c, seg := some seg }
      State.sendContrib fuel s d c seg e (x + l1.length) (l.drop 4096) (bad.drop 4096) ext o

/-- POST through a remote post table entry: post word, sender rank, launch number and post index (R68, R330, Table 15.5). The grant is that of the compartment's peer segment that names the device. -/
def State.sendRemotePost (s : State) (d i c : Nat) (entry : BitVec 64) (o : Origin) : State :=
  let id := BitVec.ofNat 16 (bits entry 15 0)
  let g := match (List.range 16).find? (fun k => (s.seg c k).valid && (s.seg c k).typ == 4 && (s.seg c k).fabric == id) with
    | some k => (s.seg c k).grant
    | none => 0
  let r := (s.core d i).run.getD {}
  let s := s.modCore d i (fun x => { x with run := x.run.map (fun r => { r with postIdx := r.postIdx + 1 }) })
  s.remoteOp d { pkt := { dst := id, op := 3, grant := BitVec.ofNat 16 g, ext := [ext4 (bits entry 47 16) r.rank r.launch (r.postIdx + 1)] }, issuer := o, cmpt := c }

end Sys2Proof.Machine
end

