-- ==== Sys2Proof/Machine/Mover.lean ====
section
/-! DEFINITION. The queues of a core: issue, refusal and completion (R83 to R89), and the mover's commands (R62, R80, R127, R327). -/

namespace Sys2Proof.Machine

/-! ### Issue and refusal -/

/-- Word `k` of a command. -/
def qw (w : BitVec 256) (k : Nat) : BitVec 64 := BitVec.ofNat 64 (bits w (64 * k + 63) (64 * k))

/-- Fields of word 0 (Table 3.4). -/
def qop (w : BitVec 256) : Nat := bits w 7 0
def qpostEn (w : BitVec 256) : Bool := bit w 9
def qpost (w : BitVec 256) : BitVec 32 := BitVec.ofNat 32 (bits w 63 32)

/-- The command that a unit issues: the oldest of its queue that has not been issued, when its opcode is `op` and its wait is met (R64, R88). The mover begins no command while a seed waits to be applied, but goes on with one it has begun (R89). A command is one step, so that a racing read of another unit's region finds its results wholly absent or wholly there (DESIGN CHOICE, log 46: R103 leaves each byte old or new). -/
def State.issue (s : State) (d i q op : Nat) (f : State → QEntry → State) : State :=
  if isTileDie d && decide (i < 8) && decide (q < 6) then
    match oldestWaiting ((s.core d i).queue q) with
    | some (_, e) => if qop e.word = op ∧ s.cmdWait d i e ∧ (q ≠ 5 ∨ e.started ∨ (s.core d i).movSeed = none) then f s e else s
    | none => s
  else s

/-- A queue entry changed. -/
def State.modEntry (s : State) (d i q id : Nat) (f : QEntry → QEntry) : State :=
  s.modCore d i (fun c => c.setQueue q ((c.queue q).map (fun e => if e.id = id then f e else e)))

/-- A command performed in full, with its code and sticky byte. -/
def State.finish (s : State) (d i q id : Nat) (code : BitVec 16) (st : Sticky) : State :=
  s.modEntry d i q id (fun e => { e with st := .done, code := firstCode e.code code, sticky := e.sticky ||| st })

/-- Whether a refused command still makes its post: one to a core counter only with a well-formed post word, and none to a counter its compartment may not post to (R67, R86, log 36). -/
def State.postKept (s : State) (d i : Nat) (w : BitVec 256) : Bool :=
  s.corePostOk d i (s.coreCmpt d i) (qpost w) && (pwFormat (qpost w) || pwKind (qpost w) != 0)

/-- A refused command: no effect, its code recorded, and its post made unless the refusal is of step 2 or the post word allows none (R67, R86). -/
def State.refuse (s : State) (d i q id : Nat) (code : BitVec 16) : State :=
  s.modEntry d i q id (fun e => { e with st := .done, code := code, post := code != 0x1005 && s.postKept d i e.word })

/-- Steps 1 and 2 of R85, then the rest: format, post word, a remote post on a device without a fabric (R3), other checks. -/
def State.checkCmd (s : State) (d i : Nat) (w : BitVec 256) (bad : Bool) (rest : BitVec 16) : BitVec 16 :=
  if bad || (qpostEn w && !pwFormat (qpost w)) then 0x1001
  else if qpostEn w && !s.corePostOk d i (s.coreCmpt d i) (qpost w) then 0x1005
  else if qpostEn w && pwKind (qpost w) == 3 && !s.hasFabric then 0x1004
  else rest

/-- A command issued: refused with the code of its checks, or performed. -/
def State.issueChecked (s : State) (d i q : Nat) (e : QEntry) (bad : Bool) (rest : BitVec 16) (f : State → State) : State :=
  let code := s.checkCmd d i e.word bad rest
  if code != 0 then s.refuse d i q e.id code else f s

/-! ### Completion (R65, R86 to R88) -/

/-- Opcodes of a queue: 0 to 3 engines, 4 shaping unit, 5 mover (Tables 3.5 and 4.2). -/
def listedOp (q op : Nat) : Bool :=
  if q = 5 then decide (0xC0 ≤ op) && decide (op ≤ 0xC3)
  else if q = 4 then [0x01, 0x02, 0x03, 0x04, 0x40, 0x41, 0x42, 0x43, 0x44, 0x45, 0x46].contains op
  else [0x01, 0x02, 0x03, 0x04, 0x10, 0x11, 0x12, 0x18, 0x19, 0x1C, 0x1D, 0x1E].contains op

/-- Parity deltas of a compartment's writes that have not been applied (R182). -/
def State.deltasOut (s : State) (c : Nat) : Bool :=
  s.stk.any (fun t => t.2.deltas.any (fun x => x.cmpt == c) || t.2.rebuilds.any (fun r => r.held.any (fun x => x.cmpt == c)))

/-- The head of a queue leaves it: its code and sticky byte are recorded, its post is made, and a store that waited for a free entry enters (R60, R65, R87, R286). -/
def State.popHead (s : State) (d i q : Nat) (e : QEntry) : State :=
  let c := s.coreCmpt d i
  let posts := qpostEn e.word && e.post && pwKind (qpost e.word) != 3
  let fate := if posts then s.postFate c (qpost e.word) else 0
  let code := firstCode e.code fate
  let s := s.modCore d i (fun x =>
    let x := x.setQueue q (x.queue q).tail
    { x with qstat := x.qstat.put q (qstatAfter (x.qstat.look q 0) code e.sticky)
             run := x.run.map (fun r => { r with sticky := r.sticky ||| e.sticky }) })
  let s := if posts && fate == 0 then s.coreSend d i c (qpost e.word) else s
  s.portFree d i q

/-- A mover seed applied between two commands (R89). -/
def State.applySeed (s : State) (d i : Nat) : State :=
  match (s.core d i).movSeed with
  | some v =>
    if ((s.core d i).queue 5).all (fun e => e.st == .waiting && !e.started) then
      { (s.modCore d i (fun x => { x with movGens := GenBank.seed v s.tick, movSeed := none })) with tick := s.tick + genDraws }
    else s
  | none => s

/-- The completion of a queue's oldest command. One with an unlisted opcode is refused when its wait is met (R83); a post through COR_RPT is sent and its response awaited first (R68, R329). -/
def State.cmdComplete (s : State) (d i q : Nat) : State :=
  if isTileDie d && decide (i < 8) && decide (q < 6) then
    match (s.core d i).queue q with
    | [] => s
    | e :: _ =>
      let e := if e.st = .waiting ∧ !listedOp q (qop e.word) ∧ s.cmdWait d i e then { e with st := .done, code := 0x1001, post := s.postKept d i e.word } else e
      if e.st ≠ .done ∨ s.deltasOut (s.coreCmpt d i) then s
      else if qpostEn e.word && e.post && pwKind (qpost e.word) == 3 && s.hasFabric && !e.posted then
        (s.modEntry d i q e.id (fun _ => { e with st := .running, posted := true, pend := 1 })).sendRemotePost d i (s.coreCmpt d i)
          ((s.core d i).rpt.look (pwTarget (qpost e.word)) 0) (.queue d i q e.id)
      else (s.popHead d i q e).applySeed d i
  else s

/-! ### Mover transfers -/

/-- A byte range cut into pieces of at most 4 KiB: offset and length. -/
def cut4k : Nat → Nat → Nat → List (Nat × Nat)
  | 0, _, _ => []
  | fuel + 1, x, n => if n = 0 then [] else let k := min n 4096; (x, k) :: cut4k fuel (x + k) (n - k)

/-- The chunks of `rows` rows: source offset, destination offset, length. -/
def chunksOf (rows rowBytes ss ds : Nat) : List (Nat × Nat × Nat) :=
  (List.range rows).flatMap (fun r => (cut4k (rowBytes / 4096 + 1) 0 rowBytes).map (fun p => (r * ss + p.1, r * ds + p.1, p.2)))

/-- A mover operand at an offset: the page that is absent, if any. -/
def State.opAbsent (s : State) (c : Nat) (a : MovAddr) (x n : Nat) : Option (Nat × Nat × Nat) :=
  match a with
  | .va v =>
    let e := s.seg c (vaSeg v)
    (s.firstAbsent c (vaSeg v) e (vaOff v + x) n).map (fun p => (vaSeg v, p.1, vaSeg v * 2 ^ 44 + p.2))
  | _ => none

/-- Physical pieces of a mover operand. -/
def State.opPieces (s : State) (c : Nat) (a : MovAddr) (x n : Nat) : List (Nat × Nat) :=
  match a with
  | .va v => s.physPieces c (vaSeg v) (s.seg c (vaSeg v)) (vaOff v + x) n
  | .loc b _ o => if n = 0 then [] else [(b + o + x, n)]
  | .unplaced => []

/-- The peer segment of an operand. -/
def State.opPeer (s : State) (c : Nat) (a : MovAddr) : Option (Nat × Seg) :=
  match a with
  | .va v => let e := s.seg c (vaSeg v); if e.valid ∧ e.typ = 4 then some (vaSeg v, e) else none
  | _ => none

/-- Bytes whose source is itself written by the same copy: each is a free value, since the spec gives no order inside a copy (log 18). -/
def State.overlapFree (s : State) (src dst : List (Nat × Nat)) (l : List Byte) : State × List Byte :=
  let lo := dst.foldl (fun a p => min a p.1) (2 ^ 64)
  let hi := dst.foldl (fun a p => max a (p.1 + p.2)) 0
  if src.any (fun p => decide (p.1 < hi) && decide (lo < p.1 + p.2)) && src != dst then
    let addrs := src.flatMap (fun p => (List.range p.2).map (p.1 + ·))
    ({ s with tick := s.tick + l.length },
      (l.zip (addrs.zip (List.range l.length))).map (fun x =>
        if dst.any (fun p => decide (p.1 ≤ x.2.1) && decide (x.2.1 < p.1 + p.2)) then BitVec.ofNat 8 (Config.free (s.tick + x.2.2)) else x.1))
  else (s, l)

/-- A copy under way: the state, the chunks done, whether poison was met, and the remote operations issued. -/
structure Copying where
  st : State
  done : Nat := 0
  pois : Bool := false
  ops : Nat := 0

/-- Mover accesses of a command at its regulator, in the class of its core's rank (Tables 11.2, 11.3). -/
def State.movOffer (s : State) (o : Origin) (c : Nat) (write : Bool) (ps : List (Nat × Nat)) : State :=
  match o with
  | .queue d i _ _ => s.offer d i (s.unitCls d i).toNat c write ps
  | _ => s

/-- One chunk of a copy: it stalls in a fault record on an absent page, waits for a rebuild of its source (R179), is sent as GET or PUT at a peer segment, or moves its bytes (R178, R215, R327). -/
def State.copyChunk (s : State) (die c : Nat) (o : Origin) (src dst : MovAddr) (all : List (Nat × Nat)) (hint : Nat) (ch : Nat × Nat × Nat) : Option (State × Bool × Nat) × State :=
  let (x, y, n) := ch
  match s.opAbsent c src x n with
  | some (sg, pg, va) => (none, s.pageFault c sg pg va { origin := o, write := false, va := va })
  | none =>
    match s.opAbsent c dst y n with
    | some (sg, pg, va) => (none, s.pageFault c sg pg va { origin := o, write := true, va := va })
    | none =>
      match s.opPeer c src, s.opPeer c dst with
      | some (k, e), _ =>
        let off := match src with | .va v => vaOff v + x | _ => 0
        (some (s.sendGet die c k e off n (s.opPieces c dst y n) hint o, false, 1), s)
      | none, some (k, e) =>
        let (s, hold) := s.readGate o (s.opPieces c src x n)
        if hold then (none, s)
        else
        let (s, l, bad) := (s.movOffer o c false (s.opPieces c src x n)).readPieces (s.opPieces c src x n)
        let off := match dst with | .va v => vaOff v + y | _ => 0
        (some (s.sendPut die c k e off l bad o, bad.any id, 1), s)
      | none, none =>
        let sp := s.opPieces c src x n
        let dp := s.opPieces c dst y n
        let (s, hold) := s.readGate o sp
        if hold then (none, s)
        else
        let (s, l, bad) := ((s.movOffer o c false sp).movOffer o c true dp).readPieces sp
        let (s, l) := s.overlapFree sp (if sp == dp then dp else all) l
        let (s, pp) := s.writePieces c dp l bad
        let s := match dst with
          | .va v => s.markDirtySlots c (vaSeg v) (s.seg c (vaSeg v)) (vaOff v + y) n
          | _ => s
        let s := dp.foldl (fun s p => if inStacks p.1 then s.pushHint c die hint p.1 p.2 else s) s
        (some (s, bad.any id || pp, 0), s)

/-- The chunks of a copy in order, until one stalls. -/
def copyChunks (die c : Nat) (o : Origin) (src dst : MovAddr) (all : List (Nat × Nat)) (hint : Nat) : List (Nat × Nat × Nat) → Copying → Copying
  | [], k => k
  | ch :: t, k =>
    match k.st.copyChunk die c o src dst all hint ch with
    | (some (s, p, n), _) => copyChunks die c o src dst all hint t { st := s, done := k.done + 1, pois := k.pois || p, ops := k.ops + n }
    | (none, s) => { k with st := s }

/-- A copy from chunk `prog` on. -/
def State.copyFrom (s : State) (die c : Nat) (o : Origin) (src dst : MovAddr) (chunks : List (Nat × Nat × Nat)) (prog hint : Nat) : Copying :=
  let all := chunks.flatMap (fun ch => s.opPieces c dst ch.2.1 ch.2.2)
  copyChunks die c o src dst all hint (chunks.drop prog) { st := s, done := prog }

/-- A queue entry after its unit has performed what it could: it waits again at the chunk that stalled, awaits the outcome of what it sent, or is done. -/
def State.entryAfter (s : State) (d i q id done total ops : Nat) (code : BitVec 16) (st : Sticky) : State :=
  s.modEntry d i q id (fun e =>
    let e := { e with code := firstCode e.code code, sticky := e.sticky ||| st, pend := e.pend + ops, prog := done }
    if done < total then { e with st := .waiting, prog := done } else if e.pend = 0 then { e with st := .done } else { e with st := .running })

/-- Checks of R364 and R3 on a mover command's peer operands. -/
def State.peerCode (s : State) (c : Nat) (peer : Bool) : BitVec 16 :=
  if !peer then 0
  else if (s.cmpt c).vitrine && ((s.cmpt c).role == 1 || (s.cmpt c).role == 2) then 0x7002
  else if !s.hasFabric then 0x1004 else 0

/-- The first non-zero of several codes. -/
def orElse (l : List (BitVec 16)) : BitVec 16 := (l.find? (· != 0)).getD 0

/-- Translation checks of a mover operand, without its length. -/
def State.movXlat (s : State) (c : Nat) (a : MovAddr) (need : Nat → Bool) (len : Nat) : BitVec 16 :=
  match a with | .va v => s.xlatCode c v need len | _ => 0

/-- Length checks of a mover operand; a rank that is not placed fails them (R80). -/
def State.movLen (s : State) (c : Nat) (a : MovAddr) (len : Nat) : BitVec 16 :=
  match a with
  | .va v => s.lenCode c v len
  | .loc _ size off => if off + len ≤ size then 0 else 0x1002
  | .unplaced => 0x1002

/-- A mover operand refused by where its bytes lie; a contribution may meet an open aggregation window (R133, R415). -/
def State.movClip (s : State) (c : Nat) (a : MovAddr) (len : Nat) (w red : Bool) : BitVec 16 :=
  match a with
  | .va v => if red then (if s.unserved c v len w then 0x3002 else 0) else s.rangeCode c v len w
  | _ => 0

/-- An address field whose segment entry has changed since it was translated (R221). -/
def State.stale (s : State) (c : Nat) (l : List XLat) : Bool := l.any (fun x => s.seg c x.seg != x.entry)

/-- The translations of mover operands that a command keeps from its start (R213). -/
def State.movXlats (s : State) (c : Nat) (l : List MovAddr) : List XLat :=
  l.filterMap (fun a => match a with
    | .va v => let e := s.seg c (vaSeg v); some { seg := vaSeg v, gen := BitVec.ofNat 8 e.gen, off := vaOff v, entry := e }
    | _ => none)

/-- A mover command begun or gone on with. At its start its checks are made and its translations kept (R62, R213). One begun earlier ends with STALE_MAP when an entry it started through has changed (R221), or with `clip` when its bytes may no longer be reached (R133, R415), once what it has sent has its outcome. -/
def State.movBegin (s : State) (d i : Nat) (e : QEntry) (ops : List MovAddr) (bad : Bool) (rest clip : BitVec 16) (f : State → State) : State :=
  let c := s.coreCmpt d i
  if e.started then
    if s.stale c e.xlats then s.entryAfter d i 5 e.id 0 0 0 0x2003 0
    else if clip != 0 then s.entryAfter d i 5 e.id 0 0 0 clip 0
    else f s
  else s.issueChecked d i 5 e bad (orElse [rest, clip]) (fun s => f (s.modEntry d i 5 e.id (fun x => { x with started := true, xlats := s.movXlats c ops })))

/-- Write-hint encodings that are not reserved (Table 8.5). -/
def hintOk (h : Nat) : Bool := h ≤ 2 || 8 ≤ h

/-! ### Contributions (R127) -/

/-- The bytes of a contribution and where it goes, sent to the SSU's intake or over the fabric. -/
def State.contribute (s : State) (d i : Nat) (e : QEntry) (src dst : MovAddr) (len : Nat) : State :=
  let c := s.coreCmpt d i
  let o : Origin := .queue d i 5 e.id
  match dst, (s.core d i).run with
  | .va v, some r =>
    let stall := match s.opAbsent c src 0 len with
      | some a => some (a, false)
      | none => (s.opAbsent c dst 0 len).map (fun a => (a, true))
    match stall with
    | some ((sg, pg, va), w) => s.pageFault c sg pg va { origin := o, write := w, va := va }
    | none =>
      let (s, hold) := s.readGate o (s.opPieces c src 0 len)
      if hold then s
      else if r.seq ≥ 65535 then s.finish d i 5 e.id 0x4009 0
      else
        let seq := r.seq + 1
        let s := s.modCore d i (fun x => { x with run := x.run.map (fun r => { r with seq := seq }) })
        let (s, l, bad) := (s.movOffer o c false (s.opPieces c src 0 len)).readPieces (s.opPieces c src 0 len)
        match s.opPeer c dst with
        | some (k, g) =>
          let s := State.sendContrib (len / 4096 + 1) s d c k g (vaOff v) l bad (ext4 r.rank r.launch seq len) o
          s.entryAfter d i 5 e.id 1 1 ((len + 4095) / 4096) 0 0
        | none =>
          match s.opPieces c dst 0 len with
          | [] => s.finish d i 5 e.id 0x4008 0
          | (a, n) :: t =>
            let joined := (t.foldl (fun (x : Nat × Bool) p => (p.1 + p.2, x.2 && p.1 == x.1)) (a + n, true)).2 && inStacks a && paLs a == paLs (a + len - 1)
            if !joined then s.finish d i 5 e.id 0x4008 0
            else
              let x : Contrib := {
                win := none, mover := true, cmpt := c, rank := r.rank, seq := seq, launch := r.launch, off := paOff a, data := l
                pois := badIdx bad, origin := o, seg := some (vaSeg v) }
              ((s.movOffer o c true [(a, len)]).modStack (paLs a) (fun t => { t with intake := t.intake ++ [x] })).entryAfter d i 5 e.id 1 1 1 0 0
  | _, _ => s.finish d i 5 e.id 0x4005 0

/-! ### The mover's commands -/

/-- Whether a compartment's segment at an operand has RED permission. -/
def State.isRed (s : State) (c : Nat) (a : MovAddr) : Bool :=
  match a with | .va v => (s.seg c (vaSeg v)).valid && needRed (s.seg c (vaSeg v)).perm | _ => false

/-- Copy of rows with the checks of R62 and R327. -/
def State.movRows (s : State) (d i : Nat) (e : QEntry) (rows rowBytes ss ds hint : Nat) (fmtBad red : Bool) : State :=
  let c := s.coreCmpt d i
  let a := s.movAddr d i c (qw e.word 1)
  let b := s.movAddr d i c (qw e.word 2)
  let live := rows ≠ 0 ∧ rowBytes ≠ 0
  let sl := if live then (rows - 1) * ss + rowBytes else 0
  let dl := if live then (rows - 1) * ds + rowBytes else 0
  let pa := (s.opPeer c a.2).isSome
  let pb := (s.opPeer c b.2).isSome
  let bad := fmtBad || a.1 == 0x1001 || b.1 == 0x1001 || !hintOk hint || (pa && pb)
  let rest := orElse [s.peerCode c (pa || pb), s.movXlat c a.2 needR sl, s.movXlat c b.2 (if red then needWorRed else needW) dl,
    s.movLen c a.2 sl, s.movLen c b.2 dl]
  let clip := orElse [s.movClip c a.2 sl false false, s.movClip c b.2 dl true (red && s.isRed c b.2)]
  s.movBegin d i e [a.2, b.2] bad rest clip (fun s =>
    if red && s.isRed c b.2 && dl != 0 then s.contribute d i e a.2 b.2 dl
    else
      let chunks := chunksOf rows rowBytes ss ds
      let k := s.copyFrom d c (.queue d i 5 e.id) a.2 b.2 chunks e.prog hint
      k.st.entryAfter d i 5 e.id k.done chunks.length k.ops (if k.pois then 0x3001 else 0) 0)

/-- MOV_COPY (R62, R127). -/
def execMovCopy (die core : Nat) (s : State) : Res :=
  upDo s (fun s => s.issue die core 5 0xC0 (fun s e =>
    let w := qw e.word 3
    s.movRows die core e 1 (bits w 39 0) 0 0 (bits w 43 40) (bits w 63 44 != 0) true))

/-- MOV_COPY2D (R62). -/
def execMovCopy2d (die core : Nat) (s : State) : Res :=
  upDo s (fun s => s.issue die core 5 0xC1 (fun s e =>
    let w := qw e.word 3
    s.movRows die core e (bits w 15 0) (bits w 35 16) (64 * bits w 49 36) (64 * bits w 63 50) 0 false false))

/-- Formats that MOV_CONVERT takes: FP32, BF16, FP16, E4M3, E5M2 and the integer formats (Table 3.5). -/
def movFmt (f : Nat) : Bool := f ≤ 4 || isIntFmt f

/-- Rounding and saturation encodings of a conversion (Tables 2.4 and 2.5): SR and RNE and RZ; floating targets refuse WRAP, integer targets refuse IEEE. -/
def convOk (f round sat : Nat) : Bool := round != 3 && sat != 3 && (if isIntFmt f then sat != 1 else sat != 2)

/-- Poisoned elements of a packed operand, from the poison of its bytes. -/
def elemPois (f : Nat) (bad : List Bool) (i : Nat) : Bool :=
  ((bad.drop (i * fmtBits f / 8)).take (((i + 1) * fmtBits f + 7) / 8 - i * fmtBits f / 8)).any id

/-- Whether byte `j` of a packed result holds an element computed from a poisoned one. -/
def bytePois (f n : Nat) (p : Nat → Bool) (j : Nat) : Bool :=
  (List.range (8 / min (fmtBits f) 8 + 2)).any (fun k =>
    let i := 8 * j / fmtBits f + k
    decide (i < n) && decide (i * fmtBits f < 8 * (j + 1)) && p i)

/-- The physical addresses of the bytes of pieces. -/
def pieceAddrs (l : List (Nat × Nat)) : List Nat := l.flatMap (fun p => (List.range p.2).map (p.1 + ·))

/-- The source of a conversion that overlaps its destination: each element one of whose bytes another element's result is written to is a free value, since the spec gives no order inside a command (log 18). -/
def State.convFree (s : State) (sf df n : Nat) (src dst : List (Nat × Nat)) (l : List Byte) : State × List Byte :=
  if (src == dst && fmtBits sf == fmtBits df) || !src.any (fun p => dst.any (fun q => meets p.1 p.2 q.1 q.2)) then (s, l)
  else
    let sa := pieceAddrs src
    let da := pieceAddrs dst
    let hit (k : Nat) : Bool := (List.range (((k + 1) * fmtBits sf + 7) / 8 - k * fmtBits sf / 8)).any (fun x =>
      match da.findIdx? (· == sa[k * fmtBits sf / 8 + x]?.getD 0) with
      | some y => bytePois df n (· != k) y
      | none => false)
    ({ s with tick := s.tick + l.length },
      l.zipIdx.map (fun x => if bytePois sf n hit x.2 then BitVec.ofNat 8 (Config.free (s.tick + x.2)) else x.1))

/-- MOV_CONVERT (R39 to R44, R62): elements pass through the mover's generators, element e at lane e mod 64 (R101). -/
def State.movConvert (s : State) (d i : Nat) (e : QEntry) : State :=
  let c := s.coreCmpt d i
  let w := qw e.word 3
  let n := bits w 31 0
  let sf := bits w 35 32
  let df := bits w 39 36
  let r : Rnd := { mode := bits w 41 40, sat := bits w 43 42, ftz := bit w 44 }
  let a := s.movAddr d i c (qw e.word 1)
  let b := s.movAddr d i c (qw e.word 2)
  let sl := packLen sf n
  let dl := packLen df n
  let bad := bits w 63 45 != 0 || !movFmt sf || !movFmt df || !convOk df r.mode r.sat || a.1 == 0x1001 || b.1 == 0x1001 ||
    (s.opPeer c a.2).isSome || (s.opPeer c b.2).isSome
  let rest := orElse [s.movXlat c a.2 needR sl, s.movXlat c b.2 needW dl, s.movLen c a.2 sl, s.movLen c b.2 dl]
  let clip := orElse [s.movClip c a.2 sl false false, s.movClip c b.2 dl true false]
  s.movBegin d i e [a.2, b.2] bad rest clip (fun s =>
    match s.opAbsent c a.2 0 sl, s.opAbsent c b.2 0 dl with
    | some (sg, pg, va), _ => s.pageFault c sg pg va { origin := .queue d i 5 e.id, write := false, va := va }
    | none, some (sg, pg, va) => s.pageFault c sg pg va { origin := .queue d i 5 e.id, write := true, va := va }
    | none, none =>
      let (s, hold) := s.readGate (.queue d i 5 e.id) (s.opPieces c a.2 0 sl)
      if hold then s
      else
      let o : Origin := .queue d i 5 e.id
      let dp := s.opPieces c b.2 0 dl
      let (s, l, pb) := ((s.movOffer o c false (s.opPieces c a.2 0 sl)).movOffer o c true dp).readPieces (s.opPieces c a.2 0 sl)
      let (s, l) := s.convFree sf df n (s.opPieces c a.2 0 sl) dp l
      let xs := (List.range n).map (fun k => readElem sf (elemOf sf l k) r.ftz)
      let (ws, st, g) := convertAll df r false (· % 64) 0 (xs.map (·.1)) ((s.core d i).movGens.ofUnit s.bootDraw (unitOfCore d i 5))
      let s := s.modCore d i (fun x => { x with movGens := x.movGens.after g })
      let (s, pp) := s.writePieces c dp (pack df ws) ((List.range dl).map (bytePois df n (elemPois sf pb)))
      let s := match b.2 with | .va v => s.markDirtySlots c (vaSeg v) (s.seg c (vaSeg v)) (vaOff v) dl | _ => s
      s.finish d i 5 e.id (if pb.any id || pp then 0x3001 else 0) (xs.foldl (fun t x => t ||| x.2) st))

/-- MOV_CONVERT (R62). -/
def execMovConvert (die core : Nat) (s : State) : Res := upDo s (fun s => s.issue die core 5 0xC2 (fun s e => s.movConvert die core e))

/-- MOV_FILL chunks: the pattern repeats from the first byte (Table 3.5). -/
def fillChunks (die c : Nat) (o : Origin) (pat : BitVec 64) (dst : MovAddr) : List (Nat × Nat) → Copying → Copying
  | [], k => k
  | (y, n) :: t, k =>
    match k.st.opAbsent c dst y n with
    | some (sg, pg, va) => { k with st := k.st.pageFault c sg pg va { origin := o, write := true, va := va } }
    | none =>
      let l := (List.range n).map (fun j => (bvBytes pat)[(y + j) % 8]?.getD 0)
      let (s, pp) := (k.st.movOffer o c true (k.st.opPieces c dst y n)).writePieces c (k.st.opPieces c dst y n) l []
      let s := match dst with | .va v => s.markDirtySlots c (vaSeg v) (s.seg c (vaSeg v)) (vaOff v + y) n | _ => s
      fillChunks die c o pat dst t { st := s, done := k.done + 1, pois := k.pois || pp }

/-- MOV_FILL (R62). -/
def State.movFill (s : State) (d i : Nat) (e : QEntry) : State :=
  let c := s.coreCmpt d i
  let w := qw e.word 3
  let n := bits w 39 0
  let b := s.movAddr d i c (qw e.word 2)
  let bad := bits w 63 40 != 0 || b.1 == 0x1001 || (s.opPeer c b.2).isSome
  let rest := orElse [s.movXlat c b.2 needW n, s.movLen c b.2 n]
  s.movBegin d i e [b.2] bad rest (s.movClip c b.2 n true false) (fun s =>
    let chunks := cut4k (n / 4096 + 1) 0 n
    let k := fillChunks d c (.queue d i 5 e.id) (qw e.word 1) b.2 (chunks.drop e.prog) { st := s, done := e.prog }
    k.st.entryAfter d i 5 e.id k.done chunks.length 0 (if k.pois then 0x3001 else 0) 0)

def execMovFill (die core : Nat) (s : State) : Res := upDo s (fun s => s.issue die core 5 0xC3 (fun s e => s.movFill die core e))

/-- MOVER_CMD_COMPLETE (R62, R87, R89). -/
def execMoverCmdComplete (die core : Nat) (s : State) : Res := upDo s (fun s => s.cmdComplete die core 5)

end Sys2Proof.Machine
end

