-- ==== Sys2Proof/Machine/Engine.lean ====
section
/-! DEFINITION. The matrix engines' commands and the control commands of the engine and shaping queues (R82 to R106). -/

namespace Sys2Proof.Machine

/-! ### Control commands (R88, R89) -/

/-- Words 1 to 3 are all zero. -/
def restZero (w : BitVec 256) : Bool := bits w 255 64 == 0

/-- The code of an engine's command when a detected error ends it; the shaping queue is no engine's (R106). -/
def engFault (q : Nat) (fault : Bool) : BitVec 16 := if fault && decide (q < 4) then 0x4001 else 0

/-- WAIT: no effect; WAIT_EN is required. -/
def execWait (die core q : Nat) (s : State) (fault : Bool := false) : Res :=
  upDo s (fun s => if q < 5 then s.issue die core q 0x01 (fun s e =>
    s.issueChecked die core q e (!restZero e.word || !bit e.word 8) 0 (fun s => s.finish die core q e.id (engFault q fault) 0)) else s)

/-- POST: no effect of its own; POST_EN is required. -/
def execPost (die core q : Nat) (s : State) (fault : Bool := false) : Res :=
  upDo s (fun s => if q < 5 then s.issue die core q 0x02 (fun s e =>
    s.issueChecked die core q e (!restZero e.word || !bit e.word 9) 0 (fun s => s.finish die core q e.id (engFault q fault) 0)) else s)

/-- FENCE: done once every earlier command of its queue has completed, and it holds every later one until then. -/
def execFence (die core q : Nat) (s : State) (fault : Bool := false) : Res :=
  upDo s (fun s => if q < 5 then s.issue die core q 0x03 (fun s e =>
    if ((s.core die core).queue q).any (fun x => x.st == .running) then s
    else s.issueChecked die core q e (!restZero e.word) 0 (fun s => s.finish die core q e.id (engFault q fault) 0)) else s)

/-- Generators of a unit seeded (R41, R89). -/
def State.seedUnit (s : State) (d i q : Nat) (v : BitVec 64) (mover : Bool) : State :=
  let s :=
    if mover then s.modCore d i (fun c => { c with movSeed := some v })
    else if q = 4 then s.modCore d i (fun c => { c with shpGens := GenBank.seed v s.tick })
    else s.modCore d i (fun c => { c with eng := c.eng.put q { c.eng.look q {} with gens := GenBank.seed v s.tick } })
  let s := { s with tick := s.tick + genDraws }
  if mover then s.applySeed d i else s

/-- RNG_SEED: TARGET = 1 names the mover's generators, in the shaping queue only (R89). After a detected error the seed is a free value (R106, log 4). -/
def execRngSeed (die core q : Nat) (s : State) (fault : Bool := false) : Res :=
  upDo s (fun s => if q < 5 then s.issue die core q 0x04 (fun s e =>
    let w2 := qw e.word 2
    s.issueChecked die core q e (bits w2 63 1 != 0 || qw e.word 3 != 0 || (bit w2 0 && q != 4)) 0 (fun s =>
      (s.seedUnit die core q (if engFault q fault = 0 then qw e.word 1 else 0) (bit w2 0)).finish die core q e.id (engFault q fault) 0)) else s)

/-! ### Core-store operands -/

/-- Bytes of the core store. -/
def storeSize : Nat := 0x80_0000

/-- Whether a range lies in the core store. -/
def inStore (o n : Nat) : Bool := decide (o + n ≤ storeSize)

/-- Bytes of the core store from an offset. -/
def State.csRead (s : State) (d i o n : Nat) : List Byte := s.rd (storeBase d i + o) n

/-- Whether a range of the core store touches a poisoned sector. -/
def State.csPois (s : State) (d i o n : Nat) : Bool := s.pois (storeBase d i + o) n

/-- Bytes written to the core store, poisoned where their source was; the Boolean says whether a partly written sector stays poisoned (R105, R177). -/
def State.csWrite (s : State) (d i o : Nat) (l : List Byte) (bad : Nat → Bool) : State × Bool :=
  let a := storeBase d i + o
  (s.ssuWrPois 0 a l bad, s.partPois a l.length)

/-- Bytes free of any stated value. -/
def State.freeBytes (s : State) (n : Nat) : State × List Byte :=
  ({ s with tick := s.tick + n }, (List.range n).map (fun k => BitVec.ofNat 8 (Config.free (s.tick + k))))

/-- An engine. -/
def State.engine (s : State) (d i q : Nat) : Engine := (s.core d i).eng.look q {}

def State.modEngine (s : State) (d i q : Nat) (f : Engine → Engine) : State :=
  s.modCore d i (fun c => { c with eng := c.eng.put q (f (c.eng.look q {})) })

/-- Bytes of a 64-element vector of a format (R90, R97). -/
def vecBytes (f : Nat) : Nat := 8 * fmtBits f

/-- Pitch of a slot in bytes. -/
def OpSlot.step (o : OpSlot) : Nat := if o.pitch = 0 then vecBytes o.fmt.toNat else 32 * o.pitch.toNat

/-- A K-vector of a slot's plane that starts at byte `base`: its 64 values and sticky bits. -/
def State.kvec (s : State) (d i base : Nat) (o : OpSlot) (ftz : Bool) (k : Nat) : List (FP × Sticky) :=
  let f := o.fmt.toNat
  let l := s.csRead d i (base + k * o.step) (vecBytes f)
  (List.range 64).map (fun m => readElem f (elemOf f l m) ftz)

/-- Whether any of K vectors of a plane touches a poisoned sector. -/
def State.kPois (s : State) (d i base : Nat) (o : OpSlot) (n : Nat) : Bool :=
  (List.range n).any (fun k => s.csPois d i (base + k * o.step) (vecBytes o.fmt.toNat))

/-- Whether K vectors of a plane lie in the core store (R85 step 5). -/
def kInside (base : Nat) (o : OpSlot) (n : Nat) : Bool := n == 0 || inStore (base + (n - 1) * o.step) (vecBytes o.fmt.toNat)

/-! ### LOAD, SCALE_SET, ACC_CLEAR -/

/-- Format and MX combinations that LOAD accepts (R34, R90). -/
def loadOk (f : Nat) (mx : Bool) : Bool :=
  match f with
  | 1 | 2 | 8 | 9 | 10 => !mx
  | 3 | 4 => true
  | 5 | 6 | 7 => mx
  | _ => false

/-- LOAD_A and LOAD_B set an operand slot (R84, R90, Table 4.3); after a detected error the place that it names is a free value (R106, log 4). -/
def State.loadSlot (s : State) (d i q : Nat) (e : QEntry) (isB fault : Bool) : State :=
  let w := qw e.word 1
  let f := bits w 39 36
  let p := bits w 35 18
  let bad := bits w 63 43 != 0 || qw e.word 2 != 0 || qw e.word 3 != 0 || !loadOk f (bit w 40) || (p != 0 && decide (32 * p < vecBytes f))
  s.issueChecked d i q e bad 0 (fun s =>
    let (t, s) := if fault then s.draw else (0, s)
    let o : OpSlot := { off := BitVec.ofNat 18 (if fault then t else bits w 17 0), pitch := BitVec.ofNat 18 (if fault then t / 2 ^ 18 else p), fmt := BitVec.ofNat 4 f, mx := bit w 40, sslot := bits w 41 41 }
    let k := bits w 42 42
    (s.modEngine d i q (fun g => if isB then { g with slotB := g.slotB.put k o } else { g with slotA := g.slotA.put k o })).finish d i q e.id (engFault q fault) 0)

/-- A row of an engine queue. -/
def engineDo (s : State) (d i q op : Nat) (f : State → QEntry → State) : Res := upDo s (fun s => if q < 4 then s.issue d i q op f else s)

/-- LOAD_A (R90). -/
def execLoadA (die core q : Nat) (s : State) (fault : Bool := false) : Res := engineDo s die core q 0x10 (fun s e => s.loadSlot die core q e false fault)

/-- LOAD_B (R90). -/
def execLoadB (die core q : Nat) (s : State) (fault : Bool := false) : Res := engineDo s die core q 0x11 (fun s e => s.loadSlot die core q e true fault)

/-- SCALE_SET loads entries 0 to NBLK − 1 of a scale slot and marks each poisoned or clean (R95). With a detected error the codes it loads are free values (R106). -/
def State.scaleSet (s : State) (d i q : Nat) (e : QEntry) (fault : Bool) : State :=
  let w := qw e.word 1
  let n := bits w 24 18
  let o := 32 * bits w 17 0
  let bad := bits w 63 27 != 0 || qw e.word 2 != 0 || qw e.word 3 != 0
  let rest : BitVec 16 := if 64 < n || !inStore o (64 * n) then 0x1002 else 0
  s.issueChecked d i q e bad rest (fun s =>
    let (s, l) := if fault then s.freeBytes (64 * n) else (s, s.csRead d i o (64 * n))
    let p := (List.range n).filter (fun b => s.csPois d i (o + 64 * b) 64)
    let set (t : Tab ScaleSlot) : Tab ScaleSlot :=
      let k := bits w 26 26
      let c := t.look k {}
      t.put k { codes := (l.zipIdx.foldl (fun t x => t.put x.2 x.1) c.codes), pois := c.pois.filter (fun b => decide (n ≤ b)) ++ p }
    (s.modEngine d i q (fun g => if bit w 25 then { g with scaleB := set g.scaleB } else { g with scaleA := set g.scaleA })).finish d i q e.id
      (if fault then 0x4001 else if p.isEmpty then 0 else 0x3001) 0)

def execScaleSet (die core q : Nat) (fault : Bool) (s : State) : Res := engineDo s die core q 0x12 (fun s e => s.scaleSet die core q e fault)

/-- ACC_CLEAR sets the kind of the banks of BANK_MASK and zeroes them (R91); a detected error leaves them poisoned (R106). -/
def State.accClear (s : State) (d i q : Nat) (e : QEntry) (fault : Bool) : State :=
  let w := qw e.word 1
  s.issueChecked d i q e (bits w 63 5 != 0 || qw e.word 2 != 0 || qw e.word 3 != 0) 0 (fun s =>
    (s.modEngine d i q (fun g => { g with banks := (List.range 4).foldl (fun t b => if bit w b then t.put b { isInt := bit w 4, elems := [], poisoned := fault } else t) g.banks })).finish d i q e.id
      (if fault then 0x4001 else 0) 0)

def execAccClear (die core q : Nat) (fault : Bool) (s : State) : Res := engineDo s die core q 0x1C (fun s e => s.accClear die core q e fault)

/-! ### MMA and MMA_SPLIT -/

/-- A pass: the byte offsets of its A and B planes and its shift. -/
structure Pass where
  a : Nat
  b : Nat
  shift : Nat := 0

/-- A group's addends of one cell: the exact products, summed and scaled by the block scales for MX operands (R36); a group shorter than 32 is padded with zeros. -/
def groupAddends (mx split : Bool) (sa sb : Nat) (ps : List (FP × FP)) : List FP × Sticky :=
  let pr := ps.map (fun p => p.1.mul p.2 split)
  let st := pr.foldl (fun (t : Sticky) x => t ||| x.2) 0
  let xs := pr.map (·.1) ++ (if ps.length < 32 then [FP.zero] else [])
  if mx then
    if sa = 0xFF ∨ sb = 0xFF then ([.nan], stNanIn)
    else
      let sum := xs.tail.foldl (fun (a : FP × Sticky) x => let r := a.1.add x; (r.1, a.2 ||| r.2)) (xs.headD FP.zero, 0)
      ([sum.1.shift ((sa : Int) + sb - 254)], st ||| sum.2)
  else (xs, st)

/-- One cell of a floating product: the accumulator after every group of every pass, in an order the spec leaves open (R36). -/
def cellF (sat t : Nat) (acc : FP) (groups : List (List FP × Sticky)) : FP × Sticky :=
  (freeOrder t groups).foldl (fun (a : FP × Sticky) g =>
    let r := alignedAdd sat (a.1 :: g.1)
    (r.1, a.2 ||| g.2 ||| r.2)) (acc, 0)

/-- One cell of an integer product (R37). -/
def cellI (sat t : Nat) (acc : Int) (sums : List Int) : Int × Sticky :=
  (freeOrder t sums).foldl (fun (a : Int × Sticky) g => let r := intAdd sat a.1 g; (r.1, a.2 ||| r.2)) (acc, 0)

/-- A list cut into groups of 32. -/
def groups32 {α : Type} : Nat → List α → List (List α)
  | 0, _ => []
  | n + 1, l => l.take 32 :: groups32 n (l.drop 32)

/-- The value an integer operand element holds. -/
def fpInt (x : FP) : Int := x.scaled 0

/-- A plane of K-vectors. -/
abbrev Plane : Type := List (List (FP × Sticky))

/-- One cell of a product: its new value and sticky bits; a NaN that the accumulator holds is an input (R29). -/
def productCell (int mx split : Bool) (sat sblk ng t : Nat) (ca cb : ScaleSlot) (planes : List (Pass × Plane × Plane)) (old : BitVec 32) (m n : Nat) : BitVec 32 × Sticky :=
  let cols : List (Nat × List (List (FP × FP))) := planes.map (fun (p : Pass × Plane × Plane) =>
    (p.1.shift, groups32 ng ((p.2.1.zip p.2.2).map (fun v => ((v.1[m]?.getD (FP.zero, 0)).1, (v.2[n]?.getD (FP.zero, 0)).1)))))
  if int then
    let sums : List Int := cols.flatMap (fun (c : Nat × List (List (FP × FP))) => c.2.map (fun ps =>
      ps.foldl (fun (a : Int) (p : FP × FP) => a + fpInt p.1 * fpInt p.2) 0 * ((2 ^ (8 * c.1) : Nat) : Int)))
    let v := cellI sat t (decodeInt 11 old.toNat) sums
    (BitVec.ofNat 32 (v.1 % 4294967296).toNat, v.2)
  else
    let gs : List (List FP × Sticky) := cols.flatMap (fun (c : Nat × List (List (FP × FP))) => c.2.zipIdx.map (fun pb =>
      groupAddends mx split (ca.codes.look (64 * (sblk + pb.2) + m) 0x7F).toNat (cb.codes.look (64 * (sblk + pb.2) + n) 0x7F).toNat pb.1))
    let v := cellF sat t (f32 old.toNat) gs
    (BitVec.ofNat 32 (if gs.isEmpty then old.toNat else (toF32 { sat := sat } v.1).1), v.2 ||| stIf (!gs.isEmpty && f32 old.toNat == .nan) stNanIn)

/-- The product of two slots over K, in the given passes, into a bank (R36, R37, R91 to R96, R105, R106). -/
def State.product (s : State) (d i q : Nat) (e : QEntry) (oa ob : OpSlot) (passes : List Pass) (split : Bool) (k bank : Nat) (ini ftz : Bool) (sat sblk : Nat) (fault : Bool) : State :=
  let g := s.engine d i q
  let bk := g.banks.look bank {}
  let f := oa.fmt.toNat
  let int := isIntFmt f
  let acc : Tab (BitVec 32) := if ini then [] else bk.elems
  let ng := (k + 31) / 32
  let planes : List (Pass × List (List (FP × Sticky)) × List (List (FP × Sticky))) := passes.map (fun p => (p, (List.range k).map (s.kvec d i p.a oa ftz), (List.range k).map (s.kvec d i p.b ob ftz)))
  let ca := g.scaleA.look oa.sslot {}
  let cb := g.scaleB.look ob.sslot {}
  let inSt := planes.foldl (fun (t : Sticky) p => (p.2.1 ++ p.2.2).foldl (fun t v => v.foldl (fun t x => t ||| x.2) t) t) 0
  let pois := passes.any (fun p => s.kPois d i p.a oa k || s.kPois d i p.b ob k) ||
    (oa.mx && (List.range ng).any (fun b => ca.pois.contains (sblk + b) || cb.pois.contains (sblk + b)))
  let np := passes.length * ng
  let out : List (Nat × BitVec 32 × Sticky) := (List.range 4096).map (fun idx =>
    let c := productCell int oa.mx split sat sblk ng (s.tick + idx * np) ca cb planes (Tab.look acc idx 0) (idx / 64) (idx % 64)
    (idx, c.1, c.2))
  let bk' : Bank :=
    if fault then { isInt := if ini then int else bk.isInt, elems := acc, poisoned := true }
    else { isInt := if ini then int else bk.isInt
           elems := if k = 0 then acc else out.foldl (fun (t : Tab (BitVec 32)) x => Tab.put t x.1 x.2.1) []
           poisoned := pois || (!ini && bk.poisoned) }
  let s := { (s.modEngine d i q (fun g => { g with banks := g.banks.put bank bk' })) with tick := s.tick + 4096 * np }
  s.finish d i q e.id (if fault then 0x4001 else if pois then 0x3001 else 0) (if fault then 0 else out.foldl (fun t x => t ||| x.2.2) inSt)

/-- MMA (R92 to R94). -/
def State.mma (s : State) (d i q : Nat) (e : QEntry) (fault : Bool) : State :=
  let w := qw e.word 1
  let g := s.engine d i q
  let oa := g.slotA.look (bits w 21 21) {}
  let ob := g.slotB.look (bits w 22 22) {}
  let k := bits w 20 0
  let sat := bits w 28 27
  let shift := bits w 36 35
  let sblk := bits w 34 29
  let bank := bits w 24 23
  let ini := bit w 25
  let int := isIntFmt oa.fmt.toNat
  let agree := int == isIntFmt ob.fmt.toNat && oa.mx == ob.mx
  let f := oa.fmt.toNat
  let dep := (if int then sat == 1 || shift == 3 else sat == 2 || shift != 0) ||
    (bit w 26 && !((f == 1 || f == 2) && (ob.fmt == 1 || ob.fmt == 2))) || (!oa.mx && sblk != 0)
  let bad := bits w 63 37 != 0 || qw e.word 2 != 0 || qw e.word 3 != 0 || sat == 3 || (agree && dep)
  let mis := oa.fmt != ob.fmt || oa.mx != ob.mx || (!ini && (g.banks.look bank {}).isInt != int)
  let a := 32 * oa.off.toNat
  let b := 32 * ob.off.toNat
  let rest : BitVec 16 := if mis then 0x1003
    else if !kInside a oa k || !kInside b ob k || (oa.mx && decide (64 < sblk + (k + 31) / 32)) then 0x1002 else 0
  s.issueChecked d i q e bad rest (fun s => s.product d i q e oa ob [{ a := a, b := b, shift := shift }] false k bank ini (bit w 26) sat sblk fault)

def execMma (die core q : Nat) (fault : Bool) (s : State) : Res := engineDo s die core q 0x18 (fun s e => s.mma die core q e fault)

/-- The passes of a split product, by piece of A and of B (R47, R50, Table 4.4). -/
def splitPasses (mode : Nat) : List (Nat × Nat) :=
  match mode with
  | 0 => [(1, 0), (0, 1), (0, 0)]
  | 1 => [(2, 0), (1, 1), (0, 2), (1, 0), (0, 1), (0, 0)]
  | 2 => [(0, 0), (0, 1), (1, 0), (1, 1)]
  | _ => [(0, 0), (0, 1), (1, 0), (0, 2), (1, 1), (2, 0), (1, 2), (2, 1), (2, 2)]

/-- MMA_SPLIT (R96). -/
def State.mmaSplit (s : State) (d i q : Nat) (e : QEntry) (fault : Bool) : State :=
  let w := qw e.word 1
  let w2 := qw e.word 2
  let g := s.engine d i q
  let oa := g.slotA.look (bits w 21 21) {}
  let ob := g.slotB.look (bits w 22 22) {}
  let k := bits w 20 0
  let sat := bits w 28 27
  let mode := bits w 30 29
  let bank := bits w 24 23
  let ini := bit w 25
  let int := isIntFmt oa.fmt.toNat
  let agree := int == isIntFmt ob.fmt.toNat && oa.mx == ob.mx
  let same := oa.fmt == ob.fmt && oa.mx == ob.mx
  let want : BitVec 4 := if mode < 2 then 1 else 8
  let bad := bits w 63 31 != 0 || bit w 26 || bits w2 63 36 != 0 || qw e.word 3 != 0 || sat == 3 ||
    (agree && (if mode < 2 then sat == 2 else sat == 1)) || (same && (oa.fmt != want || oa.mx))
  let mis := !same || (!ini && (g.banks.look bank {}).isInt != int)
  let passes : List Pass := (splitPasses mode).map (fun p =>
    { a := 32 * (oa.off.toNat + p.1 * bits w2 17 0), b := 32 * (ob.off.toNat + p.2 * bits w2 35 18), shift := if mode < 2 then 0 else p.1 + p.2 })
  let rest : BitVec 16 := if mis then 0x1003
    else if passes.any (fun p => !kInside p.a oa k || !kInside p.b ob k) then 0x1002 else 0
  s.issueChecked d i q e bad rest (fun s => s.product d i q e oa ob passes (decide (mode < 2)) k bank ini false sat 0 fault)

def execMmaSplit (die core q : Nat) (fault : Bool) (s : State) : Res := engineDo s die core q 0x19 (fun s e => s.mmaSplit die core q e fault)

/-! ### Results -/

/-- Vectors written one after another at a byte offset and step, each with the poison of its bytes. -/
def State.putEach (s : State) (d i o p : Nat) : Nat → List (List Byte × (Nat → Bool)) → State × Bool
  | _, [] => (s, false)
  | v, (l, bad) :: t =>
    let (s, b) := s.csWrite d i (o + v * p) l bad
    let (s, b') := State.putEach s d i o p (v + 1) t
    (s, b || b')

/-- The vectors of one command written at a step; dense vectors are one range, so a sector that two of them fill together is written whole (R84, R105). -/
def State.putVecs (s : State) (d i o p len : Nat) (l : List (List Byte × (Nat → Bool))) : State × Bool :=
  if p = len then s.csWrite d i o (l.flatMap (·.1)) (fun j => match l[j / len]? with | some v => v.2 (j % len) | none => false)
  else s.putEach d i o p 0 l

/-- Element of a bank by row and column. -/
def Bank.at (b : Bank) (m n : Nat) : BitVec 32 := b.elems.look (64 * m + n) 0

/-- ACC_READ copies raw vectors of a bank (R97, R98, R105). -/
def State.accRead (s : State) (d i q : Nat) (e : QEntry) (fault : Bool) : State :=
  let w := qw e.word 1
  let vc := bits w 51 45
  let vf := bits w 44 39
  let pitch := bits w 35 18
  let p := if pitch = 0 then 256 else 32 * pitch
  let o := 32 * bits w 17 0
  let bad := bits w 63 52 != 0 || qw e.word 2 != 0 || qw e.word 3 != 0 || (pitch != 0 && decide (32 * pitch < 256))
  let rest : BitVec 16 := if 64 < vf + vc || (vc != 0 && !inStore (o + (vc - 1) * p) 256) then 0x1002 else 0
  s.issueChecked d i q e bad rest (fun s =>
    let bk := (s.engine d i q).banks.look (bits w 37 36) {}
    let vecs := (List.range vc).map (fun j =>
      let v := vf + j
      ((List.range 64).flatMap (fun x => bvBytes (if bit w 38 then bk.at x v else bk.at v x)), fun (_ : Nat) => bk.poisoned))
    let (s, vecs) := if fault then
        let (s, l) := s.freeBytes (256 * vc)
        (s, (List.range vc).map (fun j => ((l.drop (256 * j)).take 256, fun (_ : Nat) => bk.poisoned)))
      else (s, vecs)
    let (s, pp) := s.putVecs d i o p 256 vecs
    s.finish d i q e.id (if fault then 0x4001 else if vc != 0 && (bk.poisoned || pp) then 0x3001 else 0) 0)

def execAccRead (die core q : Nat) (fault : Bool) (s : State) : Res := engineDo s die core q 0x1D (fun s e => s.accRead die core q e fault)

/-- Blocks of 32 positions of a stored matrix for MX output: the (row, column) positions of block h at other index j (R100). -/
def mxBlock (dir : Bool) (h j : Nat) : List (Nat × Nat) := (List.range 32).map (fun x => if dir then (32 * h + x, j) else (j, 32 * h + x))

/-- A value of a bank scaled in steps 1 to 4 of R99. -/
def scaleElem (int : Bool) (w : BitVec 32) (mulA : Option FP) (r c : Option FP) (sat : Nat) : FP × Sticky :=
  let any := mulA.isSome || r.isSome || c.isSome
  let v0 : FP × Sticky := if int then
      (if any then (let (x, st) := toF32 {} (FP.ofInt (decodeInt 11 w.toNat)); (f32 x, st)) else (FP.ofInt (decodeInt 11 w.toNat), 0))
    else readElem 0 w.toNat false
  let step (a : FP × Sticky) (m : Option FP) : FP × Sticky := match m with
    | some x => let r := mulF { sat := sat } a.1 x; (r.1, a.2 ||| r.2)
    | none => a
  step (step (step v0 mulA) r) c

/-- Conversion of the elements of stored vectors, vector by vector, element position i at generator i (R101); under SR also the +0 of a NaN or all-zero MX block draws (log 46). -/
def convVecs (f : Nat) (r : Rnd) (mx : Bool) : List (List FP) → GenBank → List (List Nat) × Sticky × GenBank
  | [], g => ([], 0, g)
  | v :: t, g =>
    let rec go : Nat → List FP → GenBank → List Nat × Sticky × GenBank
      | _, [], g => ([], 0, g)
      | i, x :: u, g =>
        let (d, g) := if r.mode = 2 then g.next i else (0, g)
        let (w, s1) := if mx then mxRound f r.mode d x else writeElem f r d x
        let (ws, s2, g) := go (i + 1) u g
        (w :: ws, s1 ||| s2, g)
    let (ws, s1, g) := go 0 v g
    let (rest, s2, g) := convVecs f r mx t g
    (ws :: rest, s1 ||| s2, g)

/-- Formats STORE_C writes (R27, R100). -/
def outFmtOk (f : Nat) (mx : Bool) : Bool :=
  if mx then 3 ≤ f && f ≤ 7 else f != 12 && f != 15 && !(5 ≤ f && f ≤ 7)

/-- STORE_C (R97, R99 to R101, R105). The scaling multiplications saturate under SAT of the command, and under SAT when that is WRAP, for which Table 2.5 gives FP32 arithmetic no result; the bank and both scale vectors are read first, then the vectors and then the scales are written (DESIGN CHOICE, log 46). -/
def State.storeC (s : State) (d i q : Nat) (e : QEntry) (fault : Bool) : State :=
  let w := qw e.word 1
  let w2 := qw e.word 2
  let w3 := qw e.word 3
  let f := bits w 42 39
  let mx := bit w 43
  let dir := bit w 44
  let r : Rnd := { mode := bits w 46 45, sat := bits w 48 47, ftz := bit w 49 }
  let sEn := bit w 50
  let rEn := bit w 51
  let cEn := bit w 52
  let bank := bits w 37 36
  let lay := bit w 38
  let vb := vecBytes f
  let pitch := bits w 35 18
  let p := if pitch = 0 then vb else 32 * pitch
  let o := 32 * bits w 17 0
  let so := 32 * bits w2 17 0
  let ro := 32 * bits w2 35 18
  let co := 32 * bits w2 53 36
  let bad := bits w 63 54 != 0 || bits w2 63 54 != 0 || bits w3 63 32 != 0 || !outFmtOk f mx || !convOk f r.mode r.sat ||
    (mx && r.sat == 2) || (pitch != 0 && decide (32 * pitch < vb))
  let rest : BitVec 16 := if !inStore (o + 63 * p) vb || (mx && !inStore so 128) || (rEn && !inStore ro 256) || (cEn && !inStore co 256) then 0x1002 else 0
  s.issueChecked d i q e bad rest (fun s =>
    let g := s.engine d i q
    let bk := g.banks.look bank {}
    let sc (en : Bool) (base j : Nat) : Option FP := if en then some (f32 (ofLe (s.csRead d i (base + 4 * j) 4))) else none
    let nanSt (en : Bool) (base : Nat) : Sticky := if en && (List.range 64).any (fun j => sc en base j == some .nan) then stNanIn else 0
    let elemP (m n : Nat) : Bool := bk.poisoned || (rEn && s.csPois d i (ro + 4 * m) 4) || (cEn && s.csPois d i (co + 4 * n) 4)
    let alpha : Option FP := if sEn then some (f32 (bits w3 31 0)) else none
    let val (m n : Nat) : FP × Sticky := scaleElem bk.isInt (bk.at m n) alpha (sc rEn ro m) (sc cEn co n) (if r.sat = 1 then 1 else 0)
    let vals := (List.range 64).map (fun m => (List.range 64).map (fun n => val m n))
    let at_ (m n : Nat) : FP := ((vals[m]?.getD [])[n]?.getD (FP.zero, 0)).1
    let st0 := vals.foldl (fun (t : Sticky) v => v.foldl (fun t x => t ||| x.2) t) (nanSt rEn ro ||| nanSt cEn co ||| (if alpha == some .nan then stNanIn else 0))
    let pos (v x : Nat) : Nat × Nat := if lay then (x, v) else (v, x)
    let blocks := if mx then (List.range 2).flatMap (fun h => (List.range 64).map (fun j => (64 * h + j, mxScale f r.sat ((mxBlock dir h j).map (fun a => at_ a.1 a.2))))) else []
    let blkOf (m n : Nat) : Nat × Nat := if dir then (64 * (m / 32) + n, m % 32) else (64 * (n / 32) + m, n % 32)
    let scaled (m n : Nat) : FP :=
      if mx then
        let b := blkOf m n
        match blocks[b.1]? with | some x => (x.2.2.1[b.2]?.getD FP.zero) | none => FP.zero
      else at_ m n
    let (ws, st1, gens) := convVecs f r mx ((List.range 64).map (fun v => (List.range 64).map (fun x => let a := pos v x; scaled a.1 a.2))) (g.gens.ofUnit s.bootDraw (unitOfCore d i q))
    let st2 := blocks.foldl (fun (t : Sticky) b => t ||| b.2.2.2) 0
    let vecs := ws.zipIdx.map (fun v => (pack f v.1, bytePois f 64 (fun x => let a := pos v.2 x; elemP a.1 a.2 ||
      (mx && (mxBlock dir (if dir then a.1 / 32 else a.2 / 32) (if dir then a.2 else a.1)).any (fun y => elemP y.1 y.2)))))
    let (s, vecs) := if fault then
        let (s, l) := s.freeBytes (64 * vb)
        (s, vecs.zipIdx.map (fun v => ((l.drop (vb * v.2)).take vb, v.1.2)))
      else (s, vecs)
    let anyP := bk.poisoned || (List.range 64).any (fun m => elemP m m)
    let s := s.modEngine d i q (fun g => { g with
      gens := g.gens.after gens
      banks := if bit w 53 then g.banks.put bank { isInt := bk.isInt, elems := [], poisoned := fault } else g.banks })
    let (s, pp) := s.putVecs d i o p vb vecs
    let (s, pq) := if mx then s.csWrite d i so (blocks.map (fun b => BitVec.ofNat 8 b.2.1))
        (fun j => (mxBlock dir (j / 64) (j % 64)).any (fun y => elemP y.1 y.2)) else (s, false)
    s.finish d i q e.id (if fault then 0x4001 else if anyP || pp || pq then 0x3001 else 0) (if fault then 0 else st0 ||| st1 ||| st2))

def execStoreC (die core q : Nat) (fault : Bool) (s : State) : Res := engineDo s die core q 0x1E (fun s e => s.storeC die core q e fault)

/-- ENGINE_CMD_COMPLETE: the oldest command of an engine or shaping queue completes (R83, R86 to R88). -/
def execEngineCmdComplete (die core q : Nat) (s : State) : Res := upDo s (fun s => if q < 5 then s.cmdComplete die core q else s)

end Sys2Proof.Machine
end

