-- ==== Sys2Proof/Machine/Shaping.lean ====
section
/-! DEFINITION. The shaping unit's commands (R107 to R113). -/

namespace Sys2Proof.Machine

/-! ### Operands, results and free orders -/

/-- Formats of shaping commands other than CONVERT (R107). -/
def shpFmt (f : Nat) : Bool := f ≤ 4 || (8 ≤ f && f ≤ 11)

/-- A row of the shaping queue. -/
def shpDo (s : State) (d i op : Nat) (f : State → QEntry → State) : Res := upDo s (fun s => s.issue d i 4 op f)

/-- Addition that rounds to nearest even (R110). -/
def addNe (sat : Nat) (a b : FP) : FP × Sticky := addF { sat := sat } a b

/-- A list without its element at `i`. -/
def dropAt {α : Type} (l : List α) (i : Nat) : List α := l.take i ++ l.drop (i + 1)

/-- The sum of a list by additions in an order the spec leaves open (R52, R110): two free members are replaced by their sum until one is left. -/
def freeSum (sat : Nat) : Nat → Nat → List FP → FP × Sticky
  | 0, _, l => (l.headD FP.zero, 0)
  | n + 1, t, l =>
    match l with
    | [] => (FP.zero, 0)
    | [x] => (x, 0)
    | _ =>
      let i := Config.free t % l.length
      let x := l[i]?.getD FP.zero
      let r := dropAt l i
      let j := Config.free (t + 1) % r.length
      let z := addNe sat x (r[j]?.getD FP.zero)
      let w := freeSum sat n (t + 2) (z.1 :: dropAt r j)
      (w.1, z.2 ||| w.2)

/-- Elements of packed core-store data read as FP32: an INT32 value is rounded, under SR to nearest even (R39, R107). -/
def State.shpRead (s : State) (d i o f n : Nat) (r : Rnd) : List (FP × Sticky) :=
  let l := s.csRead d i o (packLen f n)
  (List.range n).map (fun k =>
    let x := readElem f (elemOf f l k) r.ftz
    if f = 11 then (let y := toF32 r x.1; (f32 y.1, x.2 ||| y.2)) else x)

/-- Poison of the elements of packed core-store data. -/
def State.shpPois (s : State) (d i o f : Nat) (k : Nat) : Bool :=
  s.csPois d i (o + k * fmtBits f / 8) (((k + 1) * fmtBits f + 7) / 8 - k * fmtBits f / 8)

/-- One contiguous run of output elements: byte offset, values, poison by element. -/
structure ShpRun where
  off : Nat
  vals : List FP
  pois : Nat → Bool

/-- A packed run whose last byte is not filled keeps the other bits of that byte. -/
def keepTail (f n : Nat) (l old : List Byte) : List Byte :=
  let k := n * fmtBits f % 8
  if k = 0 then l
  else l.dropLast ++ [BitVec.ofNat 8 ((l.getLastD 0).toNat % 2 ^ k + (old.getLastD 0).toNat / 2 ^ k * 2 ^ k)]

/-- Runs written in order, each element converted at the lane of its output number mod 512 (R101). `conv` marks a CONVERT, whose FP32 target is a conversion; an FP32 result of any other command is stored as computed. SR rounds FP32 to nearest even and draws nothing (R39). -/
def State.putRuns (s : State) (d i f : Nat) (r : Rnd) (conv hazard : Bool) : Nat → List ShpRun → State × Sticky × Bool
  | _, [] => (s, 0, false)
  | k, x :: t =>
    let g := (s.core d i).shpGens.ofUnit s.bootDraw (unitOfCore d i 4)
    let c := convertAll f (if f = 0 ∧ r.mode = 2 then { r with mode := 0 } else r) (f == 0 && !conv) (fun e => (k + e) % 512) 0 x.vals g
    let s := s.modCore d i (fun y => { y with shpGens := y.shpGens.after c.2.2 })
    let n := x.vals.length
    let l := keepTail f n (pack f c.1) (s.csRead d i x.off (packLen f n))
    let b : State × List Byte := if hazard then s.freeBytes l.length else (s, l)
    let w := b.1.csWrite d i x.off b.2 (bytePois f n x.pois)
    let rest := State.putRuns w.1 d i f r conv hazard (k + n) t
    (rest.1, c.2.1 ||| rest.2.1, w.2 || (List.range n).any x.pois || rest.2.2)

/-- A source and a destination that overlap other than element on element: the spec gives no order inside a command, so the result is free (log 18). -/
def clash (src sl dst dl : Nat) (same : Bool) : Bool := meets src sl dst dl && !(same && src == dst)

/-- Results of a shaping command written and the command finished. -/
def State.shpDone (s : State) (d i f : Nat) (e : QEntry) (r : Rnd) (hazard : Bool) (st : Sticky) (runs : List ShpRun) (conv : Bool := false) : State :=
  let w := s.putRuns d i f r conv hazard 0 runs
  w.1.finish d i 4 e.id (if w.2.2 then 0x3001 else 0) (st ||| w.2.1)

/-- OR of sticky bits. -/
def orSt (l : List Sticky) : Sticky := l.foldl (fun t x => t ||| x) 0

/-! ### ELTWISE (R109) -/

/-- Operands an operation uses: B and C. -/
def opUses (op : Nat) : Bool × Bool :=
  if op = 0x04 ∨ op = 0x14 ∨ op = 0x15 then (true, true)
  else if op = 0x01 ∨ op = 0x02 ∨ op = 0x03 ∨ op = 0x05 ∨ op = 0x06 ∨ op = 0x07 then (true, false)
  else (false, false)

/-- Operations with an integer form. -/
def opInt (op : Nat) : Bool := op ≤ 0x03 || (0x06 ≤ op && op ≤ 0x0A)

/-- An operation in FP32 (Table 4.7); `f` is a free value for functions whose error is bounded. -/
def eltF (op : Nat) (r : Rnd) (f : Nat) (a b c : FP) : FP × Sticky :=
  match op with
  | 0x00 => (a, 0)
  | 0x01 => addF r a b
  | 0x02 => addF r a b.neg
  | 0x03 => mulF r a b
  | 0x04 => fmaF r a b c
  | 0x05 => divF r f a b
  | 0x06 => (a.max b, 0)
  | 0x07 => (a.min b, 0)
  | 0x08 => (a.abs, 0)
  | 0x09 => (a.neg, 0)
  | 0x0A => (a.max FP.zero, 0)
  | 0x0B => sqrtF r f a
  | 0x0C => rsqrtF r f a
  | 0x0D => divF r f (.fin false 1 0) a
  | 0x0E => expF r f a
  | 0x0F => logF r f a
  | 0x10 => tanhF r f a
  | 0x11 => sigmoidF r f a
  | 0x12 => siluF r f a
  | 0x13 => geluF r f a
  | 0x14 => (if c.isZero then b else a, 0)
  | _ => ((a.max b).min c, 0)

/-- An operation in INT32 under SAT or WRAP. -/
def eltI (op sat : Nat) (a b : Int) : Int × Sticky :=
  match op with
  | 0x01 => intAdd sat 0 (a + b)
  | 0x02 => intAdd sat 0 (a - b)
  | 0x03 => intAdd sat 0 (a * b)
  | 0x06 => (max a b, 0)
  | 0x07 => (min a b, 0)
  | 0x08 => intAdd sat 0 (a.natAbs : Int)
  | 0x09 => intAdd sat 0 (-a)
  | 0x0A => (max a 0, 0)
  | _ => (a, 0)

/-- Where element `i` of an operand with a period lies. -/
def perIdx (p i : Nat) : Nat := if p = 0 then i else i % p

/-- ELTWISE. In the integer form under SR an IMM of FP32 is converted with a free u and no lane advances: the spec names no lane for it (DESIGN CHOICE, log 46). -/
def State.eltwise (s : State) (d i : Nat) (e : QEntry) : State :=
  let w := qw e.word 1
  let w2 := qw e.word 2
  let w3 := qw e.word 3
  let op := bits w2 63 58
  let inF := bits w3 59 56
  let outF := bits w3 63 60
  let n := bits w3 55 32
  let r : Rnd := { mode := bits w 55 54, sat := bits w 57 56, ftz := bit w 58 }
  let a := 32 * bits w 17 0
  let b := 32 * bits w 35 18
  let c := 32 * bits w 53 36
  let o := 32 * bits w2 17 0
  let bp := bits w2 37 18
  let cp := bits w2 57 38
  let useB := (opUses op).1 && !bit w 59
  let useC := (opUses op).2 && !bit w 60
  let int := isIntFmt inF && isIntFmt outF && opInt op
  let bad := bits w 63 61 != 0 || !shpFmt inF || !shpFmt outF || decide (0x15 < op) || r.mode == 3 || r.sat == 3 ||
    (if int then r.sat == 1 else r.sat == 2 || (isIntFmt outF && r.sat == 1))
  let nb := if bp = 0 then n else min bp n
  let nc := if cp = 0 then n else min cp n
  let rest : BitVec 16 := if n != 0 && (!inStore a (packLen inF n) || !inStore o (packLen outF n) || (useB && !inStore b (packLen inF nb)) ||
    (useC && !inStore c (packLen inF nc))) then 0x1002 else 0
  s.issueChecked d i 4 e bad rest (fun s =>
    if n = 0 then s.finish d i 4 e.id 0 0
    else
      let imm := readElem 0 (bits w3 31 0) false
      let useImm := ((opUses op).1 && bit w 59) || ((opUses op).2 && bit w 60)
      let same := fmtBits inF == fmtBits outF
      let hazard := clash a (packLen inF n) o (packLen outF n) same ||
        (useB && clash b (packLen inF nb) o (packLen outF n) (same && (bp == 0 || decide (n ≤ bp)))) ||
        (useC && clash c (packLen inF nc) o (packLen outF n) (same && (cp == 0 || decide (n ≤ cp))))
      let pois (k : Nat) : Bool := s.shpPois d i a inF k || (useB && s.shpPois d i b inF (perIdx bp k)) || (useC && s.shpPois d i c inF (perIdx cp k))
      if int then
        let la := s.csRead d i a (packLen inF n)
        let lb := s.csRead d i b (packLen inF nb)
        let im := roundToInt 11 r (Config.free s.tick % 65536) imm.1
        let s := { s with tick := s.tick + 1 }
        let vs := (List.range n).map (fun k => eltI op r.sat (decodeInt inF (elemOf inF la k))
          (if useB then decodeInt inF (elemOf inF lb (perIdx bp k)) else decodeInt 11 im.1))
        let st := orSt (vs.map (·.2)) ||| (if useImm then im.2 ||| imm.2 else 0)
        s.shpDone d i outF e r hazard st [{ off := o, vals := vs.map (fun v => FP.ofInt v.1), pois := pois }]
      else
        let xs := s.shpRead d i a inF n r
        let ys := if useB then s.shpRead d i b inF nb r else []
        let zs := if useC then s.shpRead d i c inF nc r else []
        let t := s.tick
        let vs : List (FP × Sticky) := xs.zipIdx.map (fun x => eltF op r (Config.free (t + x.2)) x.1.1
          (if useB then (ys[perIdx bp x.2]?.getD imm).1 else imm.1) (if useC then (zs[perIdx cp x.2]?.getD imm).1 else imm.1))
        let st := orSt (vs.map (·.2)) ||| orSt (xs.map (·.2)) ||| orSt (ys.map (·.2)) ||| orSt (zs.map (·.2)) ||| (if useImm then imm.2 else 0)
        let s : State := { s with tick := t + n }
        s.shpDone d i outF e r hazard st [{ off := o, vals := vs.map (·.1), pois := pois }])

def execEltwise (die core : Nat) (s : State) : Res := shpDo s die core 0x40 (fun s e => s.eltwise die core e)

/-! ### Row commands (R108, R110) -/

/-- A row command's shape. -/
structure RowOp where
  inF : Nat
  outF : Nat
  rows : Nat
  cols : Nat
  pitch : Nat
  src : Nat
  dst : Nat
  rnd : Rnd
  /-- Row-shaped output; otherwise one value for each row, densely. -/
  wide : Bool

/-- Pitch in elements. -/
def RowOp.step (x : RowOp) : Nat := if x.pitch = 0 then x.cols else x.pitch

/-- Byte offset of a row. -/
def RowOp.row (x : RowOp) (base f r : Nat) : Nat := base + r * x.step * fmtBits f / 8

/-- Whether nothing is processed. -/
def RowOp.empty (x : RowOp) : Bool := x.rows == 0 || x.cols == 0

/-- The checks common to the row commands: formats, encodings and pitch; row starts; extents (R84, R85, R107, R108). -/
def RowOp.bad (x : RowOp) : Bool :=
  !shpFmt x.inF || !shpFmt x.outF || x.rnd.mode == 3 || x.rnd.sat == 2 || x.rnd.sat == 3 || (isIntFmt x.outF && x.rnd.sat == 1) ||
  (x.pitch != 0 && decide (x.pitch < x.cols))

def RowOp.aligned (x : RowOp) : Bool :=
  decide (x.rows ≤ 1) || (x.step * fmtBits x.inF % 256 == 0 && (!x.wide || x.step * fmtBits x.outF % 256 == 0))

/-- Bytes from the first row's start to the last row's end. -/
def RowOp.span (x : RowOp) (f : Nat) : Nat := (x.rows - 1) * x.step * fmtBits f / 8 + packLen f x.cols

def RowOp.outLen (x : RowOp) : Nat := if x.wide then x.span x.outF else packLen x.outF x.rows

def RowOp.rest (x : RowOp) (more : Bool) : BitVec 16 :=
  if x.empty then 0 else if !x.aligned then 0x100B else if !inStore x.src (x.span x.inF) || !inStore x.dst x.outLen || !more then 0x1002 else 0

/-- A row command performed: each row's outputs, and the free values it takes, are `f row tick values`. -/
def State.rowsDo (s : State) (d i : Nat) (e : QEntry) (x : RowOp) (bad : Bool) (more : Bool) (draws : Nat)
    (extra : Nat → Bool) (hz : Bool) (st0 : Sticky) (f : Nat → Nat → List FP → List FP × Sticky) : State :=
  s.issueChecked d i 4 e (bad || x.bad) (x.rest more) (fun s =>
    if x.empty then s.finish d i 4 e.id 0 0
    else
      let t := s.tick
      let rows : List (List FP × Sticky × Bool) := (List.range x.rows).map (fun r =>
        let xs := s.shpRead d i (x.row x.src x.inF r) x.inF x.cols x.rnd
        let p := s.csPois d i (x.row x.src x.inF r) (packLen x.inF x.cols)
        let y := f r (t + r * draws) (xs.map (·.1))
        (y.1, y.2 ||| orSt (xs.map (·.2)), p))
      let hazard := hz || clash x.src (x.span x.inF) x.dst x.outLen (x.wide && fmtBits x.inF == fmtBits x.outF)
      let st := st0 ||| orSt (rows.map (·.2.1))
      let s := { s with tick := t + x.rows * draws }
      if x.wide then
        s.shpDone d i x.outF e x.rnd hazard st (rows.zipIdx.map (fun (y : (List FP × Sticky × Bool) × Nat) => ShpRun.mk (x.row x.dst x.outF y.2) y.1.1 (fun k => y.1.2.2 || extra k)))
      else
        s.shpDone d i x.outF e x.rnd hazard st [{ off := x.dst, vals := rows.map (fun y => y.1.headD FP.zero), pois := fun k => (rows[k]?.map (fun y => y.2.2)).getD false }])

/-- The lowest index of the extreme value, or of the first NaN. -/
def argExtreme (least : Bool) (l : List FP) : Nat :=
  match l.findIdx? (fun x => x == .nan) with
  | some k => k
  | none => (l.zipIdx.foldl (fun (a : FP × Nat) x => if (if least then x.1.lt a.1 else a.1.lt x.1) then x else a) (l.headD FP.zero, 0)).2

/-- One value of a row under ROP. -/
def reduceRow (rop : Nat) (r : Rnd) (t : Nat) (l : List FP) : FP × Sticky :=
  match rop with
  | 0 => freeSum r.sat l.length t l
  | 1 => (l.tail.foldl FP.max (l.headD FP.zero), 0)
  | 2 => (l.tail.foldl FP.min (l.headD FP.zero), 0)
  | 3 =>
    let q := l.map (fun x => mulF r x x)
    let z := freeSum r.sat l.length t (q.map (·.1))
    (z.1, z.2 ||| orSt (q.map (·.2)))
  | 4 => (FP.ofInt (argExtreme false l), 0)
  | _ => (FP.ofInt (argExtreme true l), 0)

/-- SHP_REDUCE. -/
def execShpReduce (die core : Nat) (s : State) : Res :=
  shpDo s die core 0x41 (fun s e =>
    let w := qw e.word 1
    let w2 := qw e.word 2
    let rop := bits w2 42 40
    let x : RowOp := { inF := bits w 59 56, outF := bits w 63 60, rows := bits w2 39 20, cols := bits w2 19 0, pitch := bits w 55 36, src := 32 * bits w 17 0,
                       dst := 32 * bits w 35 18, rnd := { mode := bits w2 44 43, sat := bits w2 46 45, ftz := bit w2 47 }, wide := false }
    let bad := bits w2 63 48 != 0 || qw e.word 3 != 0 || decide (5 < rop) || (decide (4 ≤ rop) && x.outF != 11)
    s.rowsDo die core e x bad true (2 * x.cols) (fun _ => false) false 0 (fun _ t l => let y := reduceRow rop x.rnd t l; ([y.1], y.2)))

/-- A row of SOFTMAX; `incl j` says whether element j is not masked. -/
def softmaxRow (r : Rnd) (scale : FP) (incl : Nat → Bool) (t : Nat) (l : List FP) : List FP × Sticky :=
  let isInf (n : Bool) (x : FP) : Bool := x == .inf n
  let live := l.zipIdx.map (fun x => incl x.2 && !isInf true x.1)
  let seen := (l.zip live).filter (·.2)
  let pinf := seen.any (fun x => isInf false x.1)
  let nan := seen.any (fun x => x.1 == .nan)
  if r.sat = 1 ∧ (pinf ∨ nan) then (l.map (fun _ => .nan), stIf pinf stInvalid ||| stIf nan stNanIn)
  else
    let st0 := stIf pinf stOverflow
    let sx := l.map (fun x => mulF r scale (if x == .inf false then f32 (fmtMax 0) else x))
    let lv := (sx.zip live).filter (·.2)
    match lv with
    | [] => (l.map (fun _ => FP.zero), 0)
    | (m0, _) :: rest =>
      let m := rest.foldl (fun a x => a.max x.1.1) m0.1
      let n := l.length
      let ex := (sx.zip live).zipIdx.map (fun x => if x.1.2 then
          (let z := addF r x.1.1.1 m.neg
           let y := expF r (Config.free (t + x.2)) z.1
           (some y.1, x.1.1.2 ||| z.2 ||| y.2))
        else (none, 0))
      let sum := freeSum r.sat n (t + n) (ex.filterMap (·.1))
      let out := ex.zipIdx.map (fun x => match x.1.1 with
        | some y => let q := divF r (Config.free (t + 3 * n + x.2)) y sum.1; (q.1, x.1.2 ||| q.2)
        | none => (FP.zero, 0))
      (out.map (·.1), st0 ||| sum.2 ||| orSt (out.map (·.2)))

/-- SOFTMAX. -/
def execSoftmax (die core : Nat) (s : State) : Res :=
  shpDo s die core 0x42 (fun s e =>
    let w := qw e.word 1
    let w2 := qw e.word 2
    let w3 := qw e.word 3
    let mask := bits w2 46 45
    let off : Int := (BitVec.ofNat 24 (bits w3 55 32)).toInt
    let scale := readElem 0 (bits w3 31 0) false
    let x : RowOp := { inF := bits w 59 56, outF := bits w 63 60, rows := bits w2 39 20, cols := bits w2 19 0, pitch := bits w 55 36, src := 32 * bits w 17 0,
                       dst := 32 * bits w 35 18, rnd := { mode := bits w2 41 40, sat := bits w2 43 42, ftz := bit w2 44 }, wide := true }
    s.rowsDo die core e x (bits w2 63 47 != 0 || bits w3 63 56 != 0 || decide (1 < mask)) true (4 * x.cols) (fun _ => false) false scale.2
      (fun r t l => softmaxRow x.rnd scale.1 (fun j => mask == 0 || decide ((j : Int) ≤ r + off)) t l))

/-- A row of NORM. With EPS = 0 a constant row meets 0 × ∞ (R44). -/
def normRow (rms : Bool) (r : Rnd) (eps : FP) (g b : Option (List FP)) (t : Nat) (l : List FP) : List FP × Sticky :=
  let n := l.length
  let cnt := FP.ofInt n
  let mu : FP × Sticky :=
    if rms then (FP.zero, 0)
    else if l.all (fun x => x == l.headD FP.zero) then (l.headD FP.zero, 0)
    else (let z := freeSum r.sat n t l; let m := divF r (Config.free (t + 2 * n)) z.1 cnt; (m.1, z.2 ||| m.2))
  let xs := if rms then l.map (fun x => (x, 0)) else l.map (fun x => addF r x mu.1.neg)
  let sq := xs.map (fun x => mulF r x.1 x.1)
  let ss := freeSum r.sat n (t + 2 * n + 1) (sq.map (·.1))
  let v := divF r (Config.free (t + 4 * n + 1)) ss.1 cnt
  let ve := addNe r.sat v.1 eps
  let k : FP × Sticky := if ve.1.isZero then (.inf ve.1.isNeg, stDivZero) else rsqrtF r (Config.free (t + 4 * n + 2)) ve.1
  let out := xs.zipIdx.map (fun x =>
    let y := mulF r x.1.1 k.1
    let y := match g with | some g => (let z := mulF r y.1 (g[x.2]?.getD FP.zero); (z.1, y.2 ||| z.2)) | none => y
    let y := match b with | some b => (let z := addNe r.sat y.1 (b[x.2]?.getD FP.zero); (z.1, y.2 ||| z.2)) | none => y
    (y.1, x.1.2 ||| y.2))
  (out.map (·.1), mu.2 ||| orSt (sq.map (·.2)) ||| ss.2 ||| v.2 ||| ve.2 ||| k.2 ||| orSt (out.map (·.2)))

/-- NORM. -/
def execNorm (die core : Nat) (s : State) : Res :=
  shpDo s die core 0x43 (fun s e =>
    let w := qw e.word 1
    let w2 := qw e.word 2
    let w3 := qw e.word 3
    let x : RowOp := { inF := bits w 60 57, outF := bits w3 55 52, rows := bits w3 51 32, cols := bits w2 57 38, pitch := bits w2 37 18, src := 32 * bits w 17 0,
                       dst := 32 * bits w 35 18, rnd := { mode := bits w3 57 56, sat := bits w3 59 58, ftz := bit w3 60 }, wide := true }
    let ga := 32 * bits w 53 36
    let be := 32 * bits w2 17 0
    let gEn := bit w 55
    let bEn := bit w 56
    let vec (en : Bool) (o : Nat) : Option (List (FP × Sticky)) := if en then some (s.shpRead die core o 0 x.cols { mode := 0 }) else none
    let gs := vec gEn ga
    let bs := vec bEn be
    let st (v : Option (List (FP × Sticky))) : Sticky := orSt ((v.getD []).map (·.2))
    let eps := readElem 0 (bits w3 31 0) false
    s.rowsDo die core e x (bits w 63 61 != 0 || bits w2 63 58 != 0 || bits w3 63 61 != 0) ((!gEn || inStore ga (4 * x.cols)) && (!bEn || inStore be (4 * x.cols)))
      (4 * x.cols + 3) (fun k => (gEn && s.shpPois die core ga 0 k) || (bEn && s.shpPois die core be 0 k))
      ((gEn && meets ga (4 * x.cols) x.dst x.outLen) || (bEn && meets be (4 * x.cols) x.dst x.outLen)) (eps.2 ||| st gs ||| st bs)
      (fun _ t l => normRow (bit w 54) x.rnd eps.1 (gs.map (·.map (·.1))) (bs.map (·.map (·.1))) t l))

/-- A row of NORM_L2. -/
def normL2Row (mode : Nat) (r : Rnd) (bound : FP) (t : Nat) (l : List FP) : List FP × Sticky :=
  let n := l.length
  let sq := l.map (fun x => mulF r x x)
  let ss := freeSum r.sat n t (sq.map (·.1))
  let nn := sqrtF r (Config.free (t + 2 * n)) ss.1
  let st := orSt (sq.map (·.2)) ||| ss.2 ||| nn.2
  match mode with
  | 0 => ([nn.1], st)
  | 1 =>
    let o := l.zipIdx.map (fun x => divF r (Config.free (t + 2 * n + 1 + x.2)) x.1 (nn.1.max bound))
    (o.map (·.1), st ||| orSt (o.map (·.2)))
  | _ =>
    if nn.1.isZero then (l, st)
    else
      let q := divF r (Config.free (t + 2 * n + 1)) bound nn.1
      let k := FP.min (.fin false 1 0) q.1
      let o := l.map (fun x => mulF r x k)
      (o.map (·.1), st ||| q.2 ||| orSt (o.map (·.2)))

/-- NORM_L2. -/
def execNormL2 (die core : Nat) (s : State) : Res :=
  shpDo s die core 0x44 (fun s e =>
    let w := qw e.word 1
    let w2 := qw e.word 2
    let w3 := qw e.word 3
    let mode := bits w2 41 40
    let bound := readElem 0 (bits w3 31 0) false
    let x : RowOp := { inF := bits w 59 56, outF := bits w 63 60, rows := bits w2 39 20, cols := bits w2 19 0, pitch := bits w 55 36, src := 32 * bits w 17 0,
                       dst := 32 * bits w 35 18, rnd := { mode := bits w2 43 42, sat := bits w2 45 44, ftz := bit w2 46 }, wide := mode != 0 }
    s.rowsDo die core e x (bits w2 63 47 != 0 || bits w3 63 32 != 0 || mode == 3) true (3 * x.cols + 1) (fun _ => false) false
      (if mode = 0 then 0 else bound.2) (fun _ t l => normL2Row mode x.rnd bound.1 t l))

/-! ### CONVERT (R111) -/

/-- The MX block of an element (R95, R111). -/
def mxBlk (blk : Bool) (e : Nat) : Nat := if blk then 64 * (e / 2048) + e % 64 else e / 32

/-- The elements of MX block `b`. -/
def mxElems (blk : Bool) (b : Nat) : List Nat :=
  (List.range 32).map (fun k => if blk then 2048 * (b / 64) + 64 * k + b % 64 else 32 * b + k)

/-- The source position of the element written at position `e` of a transpose. -/
def transposeIdx (e : Nat) : Nat := 4096 * (e / 4096) + 64 * (e % 64) + e % 4096 / 64

/-- MX elements rounded in order, element e at lane e mod 512. Under SR the lane draws for every element, also for the +0 of a NaN or all-zero block, of which R40 does not say whether the lane rounds it (DESIGN CHOICE, log 46). -/
def mxAll (f : Nat) (r : Rnd) : Nat → List FP → GenBank → List Nat × Sticky × GenBank
  | _, [], g => ([], 0, g)
  | i, x :: t, g =>
    let d := if r.mode = 2 then g.next (i % 512) else (0, g)
    let w := mxRound f r.mode d.1 x
    let rest := mxAll f r (i + 1) t d.2
    (w.1 :: rest.1, w.2 ||| rest.2.1, rest.2.2)

/-- CONVERT with OPTION 0 or 2. -/
def State.convPlain (s : State) (d i : Nat) (e : QEntry) (inF outF n : Nat) (inMx outMx blk tr : Bool) (r : Rnd) (src dst sc : Nat) : State :=
  let l := s.csRead d i src (packLen inF n)
  let scl := s.csRead d i sc (n / 32)
  let code (k : Nat) : Nat := (scl[mxBlk blk k]?.getD 0).toNat
  let xs := (List.range n).map (fun k =>
    let x := readElem inF (elemOf inF l k) r.ftz
    if inMx then (mxElem (code k) x.1, x.2 ||| stIf (code k == 0xFF) stNanIn) else x)
  let from_ (k : Nat) : Nat := if tr then transposeIdx k else k
  let ys := (List.range n).map (fun k => (xs[from_ k]?.getD (FP.zero, 0)).1)
  let p0 (k : Nat) : Bool := s.shpPois d i src inF k || (inMx && s.csPois d i (sc + mxBlk blk k) 1)
  let p1 (k : Nat) : Bool := p0 (from_ k)
  let st := orSt (xs.map (·.2))
  let hazard := clash src (packLen inF n) dst (packLen outF n) (!tr && fmtBits inF == fmtBits outF) || (inMx && meets sc (n / 32) dst (packLen outF n)) ||
    (outMx && (meets sc (n / 32) dst (packLen outF n) || meets src (packLen inF n) sc (n / 32)))
  if outMx then
    let bl := (List.range (n / 32)).map (fun b => mxScale outF r.sat ((mxElems blk b).map (fun k => ys[k]?.getD FP.zero)))
    let pos (k : Nat) : Nat := if blk then k % 2048 / 64 else k % 32
    let vs := (List.range n).map (fun k => match bl[mxBlk blk k]? with | some x => x.2.1[pos k]?.getD FP.zero | none => FP.zero)
    let c := mxAll outF r 0 vs ((s.core d i).shpGens.ofUnit s.bootDraw (unitOfCore d i 4))
    let pb (b : Nat) : Bool := (mxElems blk b).any p1
    let anyP := (List.range (n / 32)).any pb
    let s := s.modCore d i (fun y => { y with shpGens := y.shpGens.after c.2.2 })
    let l1 := pack outF c.1
    let b1 : State × List Byte := if hazard then s.freeBytes l1.length else (s, l1)
    let w1 := b1.1.csWrite d i dst b1.2 (bytePois outF n (fun k => pb (mxBlk blk k)))
    let l2 := bl.map (fun b => BitVec.ofNat 8 b.1)
    let b2 : State × List Byte := if hazard then w1.1.freeBytes l2.length else (w1.1, l2)
    let w2 := b2.1.csWrite d i sc b2.2 pb
    w2.1.finish d i 4 e.id (if anyP || w1.2 || w2.2 then 0x3001 else 0) (st ||| c.2.1 ||| orSt (bl.map (·.2.2)))
  else s.shpDone d i outF e r hazard st [{ off := dst, vals := ys, pois := p1 }] true

/-- CONVERT with OPTION 1: pieces in planes (R46, R49). FTZ is ignored and subnormal pieces are kept, so that the pieces sum to x as R46 says (DEDUCED, log 46). -/
def State.convSplit (s : State) (d i : Nat) (e : QEntry) (inF outF n pieces : Nat) (src dst plane : Nat) : State :=
  let l := s.csRead d i src (packLen inF n)
  let xs := (List.range n).map (fun k =>
    let w := elemOf inF l k
    if inF = 0 then (splitF32 (f32 w), if f32 w == .nan then stNanIn else 0)
    else (let y := splitInt (inF == 14) (decodeInt inF w); (y.1, stIf y.2 stSplitRange)))
  let pl := packLen outF n
  let at_ (p : Nat) : Nat := dst + p * plane
  let hazard := (List.range pieces).any (fun p => clash src (packLen inF n) (at_ p) pl false) ||
    (List.range pieces).any (fun p => (List.range p).any (fun q => meets (at_ p) pl (at_ q) pl))
  let pois := s.shpPois d i src inF
  let w := (List.range pieces).foldl (fun (a : State × Bool) p =>
    let l := pack outF (xs.map (fun x => x.1[p]?.getD 0))
    let b : State × List Byte := if hazard then a.1.freeBytes l.length else (a.1, l)
    let w := b.1.csWrite d i (at_ p) b.2 (bytePois outF n pois)
    (w.1, a.2 || w.2)) (s, false)
  w.1.finish d i 4 e.id (if w.2 || (List.range n).any pois then 0x3001 else 0) (orSt (xs.map (·.2)))

/-- CONVERT. A split ignores ROUND (R111), so it also takes the encoding that Table 2.4 reserves (DEDUCED, log 46). -/
def State.convertCmd (s : State) (d i : Nat) (e : QEntry) : State :=
  let w := qw e.word 1
  let w2 := qw e.word 2
  let src := 32 * bits w 17 0
  let dst := 32 * bits w 35 18
  let sc := 32 * bits w 53 36
  let n := bits w2 23 0
  let plane := 32 * bits w2 41 24
  let inF := bits w2 45 42
  let outF := bits w2 49 46
  let r : Rnd := { mode := bits w2 51 50, sat := bits w2 53 52, ftz := bit w2 54 }
  let opt := bits w2 56 55
  let mx := bit w2 57
  let blk := bit w2 58
  let three := bit w2 59
  let side (f : Nat) : Bool := (5 ≤ f && f ≤ 7) || ((f == 3 || f == 4) && mx)
  let fmts := inF != 12 && inF != 15 && outF != 12 && outF != 15
  let pieces := if three then 3 else 2
  let badOpt := match opt with
    | 0 => r.mode == 3 || !convOk outF r.mode r.sat || (side outF && r.sat == 2) || n % (if blk then 2048 else 32) != 0
    | 1 => !((inF == 0 && outF == 1) || (outF == 8 && ((inF == 13 && !three) || (inF == 14 && three)))) || mx || blk || !convOk outF 0 r.sat
    | 2 => r.mode == 3 || !convOk outF r.mode r.sat || (side outF && r.sat == 2) || mx || n % 4096 != 0
    | _ => true
  let bad := bits w 63 54 != 0 || bits w2 63 60 != 0 || qw e.word 3 != 0 || !fmts || badOpt
  let out := if opt = 1 then (List.range pieces).all (fun p => inStore (dst + p * plane) (packLen outF n)) else inStore dst (packLen outF n)
  let scOk := opt == 1 || !(side inF || side outF) || inStore sc (n / 32)
  let rest : BitVec 16 := if n != 0 && (!inStore src (packLen inF n) || !out || !scOk) then 0x1002 else 0
  s.issueChecked d i 4 e bad rest (fun s =>
    if n = 0 then s.finish d i 4 e.id 0 0
    else if opt = 1 then s.convSplit d i e inF outF n pieces src dst plane
    else s.convPlain d i e inF outF n (side inF) (side outF) blk (opt == 2) r src dst sc)

def execConvert (die core : Nat) (s : State) : Res := shpDo s die core 0x45 (fun s e => s.convertCmd die core e)

/-! ### GATHER (R112) -/

/-- Rows gathered one after another. -/
def State.gatherRows (s : State) (d i tab dst rl p nrows : Nat) (hazard : Bool) : List (Int × Bool × Nat) → State × Sticky × Bool
  | [] => (s, 0, false)
  | (x, bad, k) :: t =>
    let ok := decide (0 ≤ x) && decide (x < nrows)
    let a := tab + x.toNat * p
    let l := if ok then s.csRead d i a rl else List.replicate rl 0
    let b : State × List Byte := if hazard then s.freeBytes rl else (s, l)
    let pois (j : Nat) : Bool := bad || (ok && s.csPois d i (a + j) 1)
    let w := b.1.csWrite d i (dst + k * rl) b.2 pois
    let rest := State.gatherRows w.1 d i tab dst rl p nrows hazard t
    (rest.1, stIf (!ok) stInvalid ||| rest.2.1, w.2 || bad || (ok && s.csPois d i a rl) || rest.2.2)

/-- GATHER. -/
def execShpGather (die core : Nat) (s : State) : Res :=
  shpDo s die core 0x46 (fun s e =>
    let w := qw e.word 1
    let w2 := qw e.word 2
    let w3 := qw e.word 3
    let tab := 32 * bits w 17 0
    let dst := 32 * bits w 35 18
    let idx := 32 * bits w 53 36
    let rl := 32 * bits w2 15 0
    let n := bits w2 35 16
    let rp := 32 * bits w2 53 36
    let p := if rp = 0 then rl else rp
    let nrows := bits w3 23 0
    let bad := bits w 63 54 != 0 || bits w2 63 54 != 0 || bits w3 63 24 != 0 || (rp != 0 && decide (rp < rl))
    let empty := n == 0 || rl == 0
    let tabLen := if nrows = 0 then 0 else (nrows - 1) * p + rl
    let rest : BitVec 16 := if !empty && (!inStore tab tabLen || !inStore idx (4 * n) || !inStore dst (n * rl)) then 0x1002 else 0
    s.issueChecked die core 4 e bad rest (fun s =>
      if empty then s.finish die core 4 e.id 0 0
      else
        let l := s.csRead die core idx (4 * n)
        let ks := (List.range n).map (fun k => (decodeInt 11 (elemOf 11 l k), s.csPois die core (idx + 4 * k) 4, k))
        let hazard := meets tab tabLen dst (n * rl) || meets idx (4 * n) dst (n * rl)
        let y := s.gatherRows die core tab dst rl p nrows hazard ks
        y.1.finish die core 4 e.id (if y.2.2 then 0x3001 else 0) y.2.1))

end Sys2Proof.Machine
end

