-- ==== Sys2Proof/Machine/Ssu.lean ====
section
/-! DEFINITION. The stack-side units: starting commands, reduction windows, contributions, optimizer steps, gather and scatter, parity, wipe and migration (R114 to R143). -/

namespace Sys2Proof.Machine

/-! ### Fields of an SSU command (Tables 5.2 to 5.6) -/

/-- Opcode of an SSU command. -/
def SsuCmd.op (e : SsuCmd) : Nat := dfield e.bytes 32 1

/-- WINDOW of an SSU command. -/
def SsuCmd.window (e : SsuCmd) : Nat := dfield e.bytes 34 2

/-- Bytes of the POLICY record in force, if any (R267). -/
def State.policy (s : State) : Option (List Byte) := (s.bed.plan.find? (fun r => r.1 == 0x0C)).map (·.2.2)

/-- The compartments a POLICY record names: JOINT and the parties. -/
def policyCmpts (p : List Byte) : List Nat := fieldAt p 0 1 :: (List.range (fieldAt p 1 1)).map (fun k => fieldAt p (16 + 56 * k) 1)

/-- A compartment whose work an epoch holds back (R276 step 1). -/
def State.epochHolds (s : State) (c : Nat) : Bool :=
  match s.bed.job with
  | some j => j.affected.contains c && (j.stage == .quiescing || j.stage == .withdrawing || j.stage == .installing)
  | none => false

/-- A stack whose SSU serves it: a hand-over has loaded its state store (R142). -/
def State.ready (s : State) (l : Nat) : Bool := s.served l && (match (s.stack l).mig with | some m => m.handed | none => true)

/-! ### Access by virtual address -/

/-- The first absent page of a range, with its fault (R215). -/
def State.vaAbsent (s : State) (c va n : Nat) : Option (Nat × Nat × Nat) := s.opAbsent c (.va va) 0 n

/-- The first of several ranges that has an absent page: segment, page, address, and whether it is written. -/
def State.absentOf (s : State) (c : Nat) : List (Nat × Nat × Bool) → Option (Nat × Nat × Nat × Bool)
  | [] => none
  | (va, n, w) :: t => match s.vaAbsent c va n with | some (sg, pg, a) => some (sg, pg, a, w) | none => s.absentOf c t

/-- Physical pieces of a virtual range. -/
def State.vaPieces (s : State) (c va n : Nat) : List (Nat × Nat) := s.opPieces c (.va va) 0 n

/-- Bytes of a virtual range with the poison of each (R178). -/
def State.vaRead (s : State) (c va n : Nat) : State × List Byte × List Bool := s.readPieces (s.vaPieces c va n)

/-- Bytes written to a virtual range with the poison of each; the Boolean says whether a partly written sector stays poisoned. -/
def State.vaWrite (s : State) (c va : Nat) (l : List Byte) (bad : List Bool) : State × Bool :=
  let w := s.writePieces c (s.vaPieces c va l.length) l bad
  (w.1.markDirtySlots c (vaSeg va) (s.seg c (vaSeg va)) (vaOff va) l.length, w.2)

/-- Whether two piece lists meet. -/
def piecesMeet (a b : List (Nat × Nat)) : Bool := a.any (fun p => b.any (fun q => meets p.1 p.2 q.1 q.2))

/-- Poison of the elements of a byte list. -/
def poisElem (bad : List Bool) (size k : Nat) : Bool := ((bad.drop (k * size)).take size).any id

/-- Why a command stops before its next group or row: an absent page that it reads or writes, or a rebuild of what it reads (R179, R215). -/
inductive Stall where
  | page (seg page va : Nat) (write : Bool)
  | rebuild
  deriving DecidableEq, Repr

/-! ### Running and ending a command (R118, R119) -/

/-- DETAIL of a descriptor. -/
def State.setDetail (s : State) (c k index : Nat) (v : BitVec 64) : State := s.modDesc c k index (fun d => { d with detail := v })

/-- An SSU command ends with a code, a sticky byte and its DETAIL. -/
def State.ssuEnd (s : State) (c : Nat) (e : SsuCmd) (code : BitVec 16) (st : Sticky) (detail : Nat) : State :=
  (s.setDetail c e.ring e.index (BitVec.ofNat 64 detail)).outcome (.desc c e.ring e.index) code st true

/-- A command refused: counted, and ended with its code. -/
def State.ssuRefuse (s : State) (l c : Nat) (e : SsuCmd) (code : BitVec 16) : State :=
  (s.modStack l (fun t => { t with refused := satAdd t.refused 1 })).ssuEnd c e code 0 0

/-- The command under way in a queue changed. -/
def State.modSsu (s : State) (l c k : Nat) (f : SsuCmd → SsuCmd) : State := s.modStack l (fun t => t.setQueue c k (modNth (t.queue c k) 0 f))

/-- A command stalled at an absent page (R215). -/
def State.ssuStall (s : State) (c : Nat) (e : SsuCmd) (x : Nat × Nat × Nat × Bool) : State :=
  s.pageFault c x.1 x.2.1 x.2.2.1 { origin := .desc c e.ring e.index, write := x.2.2.2, va := x.2.2.1 }

/-- A command stopped: at an absent page it waits in the page's fault record, for a rebuild it is tried again. -/
def State.ssuStop (s : State) (c : Nat) (e : SsuCmd) (x : Stall) : State :=
  match x with
  | .page sg pg va w => s.ssuStall c e (sg, pg, va, w)
  | .rebuild => s

/-- The first absent page of ranges as a stop. -/
def State.pageStall (s : State) (c : Nat) (l : List (Nat × Nat × Bool)) : Option Stall := (s.absentOf c l).map (fun x => .page x.1 x.2.1 x.2.2.1 x.2.2.2)

/-! ### Checks at start -/

/-- Formats of a window (R121). -/
def winFmtOk (clip : Bool) (srcF dstF op sat scale : Nat) : Bool :=
  op != 3 &&
  ((dstF == 0 && srcF ≤ 4 && (sat == 0 || sat == 1)) ||
   (dstF == 11 && (srcF == 11 || srcF == 8) && scale == 0x3F800000 && (sat == 0 || sat == 2))) &&
  (!clip || (dstF == 0 && op == 0))

/-- Participant slots of an open (Table 5.5). -/
def winSlots (b : BitVec 1024) : List (BitVec 24) := (List.range 16).map (fun p => BitVec.ofNat 24 (dfield b (80 + 3 * p) 3))

/-- The encoding of a slot: fields that its type does not use are zero. -/
def slotOk (v : BitVec 24) : Bool :=
  match bits v 23 22 with
  | 0 => v == 0
  | 3 => bits v 21 16 == 0
  | _ => bits v 15 0 == 0

/-- A slot the owner may give (R120). -/
def State.slotGranted (s : State) (c : Nat) (v : BitVec 24) : Bool :=
  match bits v 23 22 with
  | 0 => true
  | 3 => (List.range 16).any (fun k => (s.seg c k).valid && (s.seg c k).typ == 4 && (s.seg c k).fabric.toNat == bits v 15 0)
  | _ => bits v 21 16 == c || (match (s.cmpt c).plan with | some r => bit r.winGrant (bits v 21 16) | none => false)

/-- Whether an open would join a vitrine to another party and is not allowed (R133). -/
def State.joinDenied (s : State) (c : Nat) (b : BitVec 1024) (clip : Bool) : Bool :=
  let sl := (winSlots b).filter (fun v => bits v 23 22 != 0)
  let cs := (sl.filter (fun v => bits v 23 22 != 3)).map (fun v => bits v 21 16)
  let vit := (s.cmpt c).vitrine || cs.any (fun m => (s.cmpt m).vitrine)
  let other := cs.any (· != c) || sl.any (fun v => bits v 23 22 == 3)
  if !(vit && other) then false
  else if !clip then true
  else match s.policy with
    | none => true
    | some p =>
      let sigma := f32 (dfield b 40 4)
      let bound := f32 (dfield b 44 4)
      !(!((f32 (fieldAt p 4 4)).lt bound) && !(sigma.lt (f32 (fieldAt p 8 4))) && decide (fieldAt p 12 1 ≤ dfield b 62 1) &&
        sl.all (fun v => bits v 23 22 != 3 && (policyCmpts p).contains (bits v 21 16)))

/-- Stack offset of the first byte of DST. -/
def State.dstOff (s : State) (c va : Nat) : Nat :=
  match s.place c (vaSeg va) (s.seg c (vaSeg va)) (vaOff va) with | .phys a => paOff a | _ => 0

/-- The longer of a window's two ranges, in bytes: both start at DST. -/
def Window.span (w : Window) : Nat := w.count * max 4 (fmtBits w.srcFmt.toNat / 8)

/-- Checks of WIN_OPEN and CLIP_NOISE (R122); a number that a fallow compartment's window holds is refused with its code (R286). -/
def State.openCode (s : State) (l c : Nat) (e : SsuCmd) : BitVec 16 :=
  let b := e.bytes
  let clip := e.op == 5
  let srcF := dfield b 60 1 / 16
  let dstF := dfield b 60 1 % 16
  let fl := dfield b 61 1
  let mp := dfield b 62 1
  let sig := f32 (dfield b 40 4)
  let bnd := f32 (dfield b 44 4)
  let cl := !clip || (!(sig == .nan) && (sig.isZero || !sig.isNeg) && !(bnd == .nan) && !bnd.isNeg && !bnd.isZero && decide (1 ≤ mp) && decide (mp ≤ 16))
  let n := dfield b 56 4
  let lo := s.dstOff c (dfield b 48 8)
  let sp := n * max 4 (fmtBits srcF / 8)
  if !winFmtOk clip srcF dstF (fl % 4) (fl / 4 % 4) (dfield b 68 4) || !cl || dfield b 48 8 % 128 != 0 || !(winSlots b).all slotOk then 0x1001
  else if !(winSlots b).all (s.slotGranted c) then 0x4005
  else if s.joinDenied c b clip then 0x7002
  else if (s.stack l).wins.has e.window && s.cstate ((s.stack l).wins.look e.window {}).owner == .fallow then 0x9001
  else if (s.stack l).wins.has e.window || (s.stack l).wins.any (fun w => meets lo sp w.2.dst w.2.span) then 0x4006
  else if 128 ≤ (s.stack l).wins.length then 0x4007
  else 0

/-- Checks of a command that names a held window (R124, R143, R286). -/
def State.heldCode (s : State) (l c : Nat) (e : SsuCmd) (free : Bool) : BitVec 16 :=
  if !(s.stack l).wins.has e.window then 0x4004
  else
    let w := (s.stack l).wins.look e.window {}
    if w.owner != c then (if s.cstate w.owner == .fallow then 0x9001 else 0x4005)
    else if free then (if w.isOpen && !w.lost then 0x4006 else 0)
    else if w.lost then 0x400B else 0

/-- Checks of REDUCE (R124, R128). -/
def State.reduceCode (s : State) (l c : Nat) (e : SsuCmd) : BitVec 16 :=
  let n := dfield e.bytes 56 4
  if n = 0 then 0
  else if !(s.stack l).wins.has e.window then 0x4004
  else
    let w := (s.stack l).wins.look e.window {}
    s.lenCode c (dfield e.bytes 48 8) (n * (fmtBits w.srcFmt.toNat / 8))

/-- Checks that an SSU makes when it starts a command; zero when it may run. The virtual ranges the command uses are refused while they meet an open aggregation window (R133). -/
def State.ssuStartCode (s : State) (l c : Nat) (e : SsuCmd) (ranges : List (Nat × Nat × Bool)) : BitVec 16 :=
  let clip : BitVec 16 := orElse (ranges.map (fun r => s.rangeCode c r.1 r.2.1 r.2.2))
  match e.op with
  | 0x01 => s.openCode l c e
  | 0x05 => s.openCode l c e
  | 0x02 => s.heldCode l c e false
  | 0x03 => s.heldCode l c e true
  | 0x04 => orElse [s.reduceCode l c e, clip]
  | 0x0D => if c != 0 then 0x7001 else if !invBit s.invReserve (dfield e.bytes 48 1 % 64) then 0x400C else 0
  | _ => clip

/-! ### Extents of the command bodies -/

/-- Bytes of a table of rows. -/
def tableLen (n pitch row : Nat) : Nat := if n = 0 then 0 else (n - 1) * (if pitch = 0 then row else pitch) + row

/-- Virtual ranges a command reads or writes: address, length, written. Core-store ends of GATHER and SCATTER are not among them. -/
def SsuCmd.ranges (e : SsuCmd) : List (Nat × Nat × Bool) :=
  let b := e.bytes
  let va (k : Nat) : Nat := dfield b k 8 % 2 ^ 48
  match e.op with
  | 0x08 =>
    let n := dfield b 88 4
    let m2 := if dfield b 92 1 % 4 = 0 then [] else [(va 72, 4 * n, true)]
    let sh := if dfield b 80 8 = 0 then [] else [(va 80, n * fmtBits (dfield b 92 1 / 4 % 16) / 8, true)]
    [(va 48, 4 * n, true), (va 56, 4 * n, true), (va 64, 4 * n, true)] ++ m2 ++ sh
  | 0x09 =>
    let n := dfield b 72 4
    if n = 0 then [] else
      let bag := if dfield b 88 1 / 16 % 4 = 1 then dfield b 89 2 else 1
      [(va 48, tableLen (dfield b 76 4) (dfield b 84 4) (dfield b 80 4), false), (va 56, 4 * n * bag, false)] ++
        (if dfield b 64 8 / 2 ^ 62 = 0 then [(va 64, n * dfield b 80 4, true)] else [])
  | 0x0A =>
    let n := dfield b 72 4
    if n = 0 then [] else
      [(va 48, tableLen (dfield b 76 4) (dfield b 84 4) (dfield b 80 4), true), (va 56, 4 * n, false)] ++
        (if dfield b 64 8 / 2 ^ 62 = 0 then [(va 64, n * dfield b 80 4, false)] else [])
  | 0x0B => [(va 48, dfield b 56 8, true)]
  | 0x0C => [(va 48, dfield b 56 8, true)]
  | 0x10 =>
    let rows := dfield b 44 4 / 2 ^ 23 % 32
    let d := 32 * (dfield b 111 1 % 16)
    let fl := dfield b 95 1
    let q := fmtBits (dfield b 110 1 / 16) / 8
    let bias := match fl / 16 % 4 with | 1 => [(va 112, 4 * rows, false)] | 2 => [(va 112, 256 * rows, false)] | _ => []
    if rows = 0 then [] else
      [(va 48, dfield b 120 8, false), (va 56, dfield b 64 8, false), (va 72, rows * d * q, false),
       (va 80, if fl % 2 = 1 then rows * d * (fmtBits (dfield b 110 1 % 16) / 8) else rows * (32 + 4 * d), true)] ++ bias
  | 0x11 =>
    let rows := dfield b 44 1 % 32
    let n := dfield b 45 1 % 128
    let d := 32 * (dfield b 46 1 % 16)
    let blk := rows * (32 + 4 * d)
    if rows = 0 ∨ n = 0 then [] else
      [(va 48, tableLen n (dfield b 64 4) blk, false),
       (va 56, if dfield b 47 1 % 2 = 1 then rows * d * (fmtBits (dfield b 47 1 / 16) / 8) else blk, true)]
  | _ => []

/-- The start check with the ranges of the body; REDUCE's source has a size only the window gives (R128). -/
def State.startCheck (s : State) (l c : Nat) (e : SsuCmd) : BitVec 16 :=
  let rs := if e.op = 4 then
      [(dfield e.bytes 48 8 % 2 ^ 48, dfield e.bytes 56 4 * (fmtBits ((s.stack l).wins.look e.window {}).srcFmt.toNat / 8), false)]
    else e.ranges
  s.ssuStartCode l c e rs

/-! ### Fields of ATTEND (Table 6.4) and of the catalogue (Tables 6.2, 6.3) -/

structure AttArgs where
  scale : FP
  hpp : Nat
  rows : Nat
  qpos : Nat
  cat : Nat
  pool : Nat
  poolLen : Nat
  q : Nat
  out : Nat
  seqId : Nat
  layer : Nat
  group : Nat
  mask : Nat
  biasMode : Nat
  rotK : Bool
  rotQ : Bool
  halves : Bool
  final : Bool
  wlen : Nat
  rbase : FP
  rscale : FP
  rdim : Nat
  qFmt : Nat
  outFmt : Nat
  dim : Nat
  bias : Nat
  catLen : Nat

def attArgs (b : BitVec 1024) : AttArgs :=
  let fl := dfield b 95 1
  let qr := dfield b 44 4
  { scale := f32 (dfield b 40 4), hpp := qr / 2 ^ 28 + 1, rows := qr / 2 ^ 23 % 32, qpos := qr % 2 ^ 23, cat := dfield b 48 8 % 2 ^ 48
    pool := dfield b 56 8 % 2 ^ 48, poolLen := dfield b 64 8, q := dfield b 72 8 % 2 ^ 48, out := dfield b 80 8 % 2 ^ 48, seqId := dfield b 88 4
    layer := dfield b 92 2, group := dfield b 94 1 % 64, mask := fl / 64, biasMode := fl / 16 % 4, rotK := fl / 8 % 2 == 1, rotQ := fl / 4 % 2 == 1
    halves := fl / 2 % 2 == 1, final := fl % 2 == 1, wlen := dfield b 96 4 % 2 ^ 23, rbase := f32 (dfield b 100 4), rscale := f32 (dfield b 104 4)
    rdim := dfield b 108 2, qFmt := dfield b 110 1 / 16, outFmt := dfield b 110 1 % 16, dim := 32 * (dfield b 111 1 % 16), bias := dfield b 112 8 % 2 ^ 48
    catLen := dfield b 120 8 }

/-- The catalogue header. -/
structure CatHead where
  first : Nat
  count : Nat
  layers : Nat
  groups : Nat
  fmt : Nat
  pages : Nat

def catHead (h : List Byte) : CatHead :=
  { first := fieldAt h 4 4, count := fieldAt h 8 4, layers := fieldAt h 12 2, groups := fieldAt h 14 1, fmt := fieldAt h 15 1, pages := fieldAt h 20 4 }

/-- Whether a header is consistent with itself and with the descriptor (R148). -/
def catOk (a : AttArgs) (h : List Byte) : Bool :=
  let c := catHead h
  fieldAt h 0 4 == a.seqId && decide (c.first < 2 ^ 23) && c.first % 256 == 0 && decide (c.count ≤ 8388608) && decide (c.first + c.count ≤ 2 ^ 23) &&
  decide (1 ≤ c.layers) && decide (c.layers ≤ 1024) && decide (1 ≤ c.groups) && decide (c.groups ≤ 64) && [1, 3, 4, 7].contains c.fmt &&
  fieldAt h 16 2 == a.dim && allZero ((h.drop 18).take 2) && allZero (h.drop 24) && decide ((c.count + 255) / 256 ≤ c.pages) &&
  decide (a.layer < c.layers) && decide (a.group < c.groups) && decide (64 + 16 * (c.layers * c.groups * c.pages) ≤ a.catLen)

/-- Query-state SRAM a command reserves, in 4 KiB units (R161). -/
def SsuCmd.sramNeed (e : SsuCmd) (kvFmt : Nat) : Nat :=
  let b := e.bytes
  if e.op = 0x10 then
    let d := 32 * (dfield b 111 1 % 16)
    (dfield b 44 4 / 2 ^ 23 % 32 * (32 + 4 * d + d * (if kvFmt = 1 then 2 else 1)) + 4095) / 4096
  else if e.op = 0x11 then (dfield b 44 1 % 32 * (32 + 4 * (32 * (dfield b 46 1 % 16))) + 4095) / 4096
  else 0

/-- SRAM reserved by the running commands of a stack. -/
def Stack.sramUsed (t : Stack) : Nat := t.queues.foldl (fun n q => q.2.foldl (fun n e => n + e.sram) n) 0

/-! ### SSU_CMD_START -/

/-- A catalogue header that refuses ATTEND: counted as a stop and as a refusal (R148, Tables 5.10 and 6.9). -/
def State.catRefuse (s : State) (l c : Nat) (e : SsuCmd) : State :=
  (s.modStack l (fun t => { t with attStops := satAdd t.attStops 1 })).ssuRefuse l c e 0x400D

/-- A command whose checks have passed starts once its SRAM is free (R118, R161). -/
def State.ssuBegin (s : State) (l c k : Nat) (e : SsuCmd) (head : List Byte) : State :=
  let need := e.sramNeed (fieldAt head 15 1 % 16)
  if 1024 < (s.stack l).sramUsed + need then s
  else s.modSsu l c k (fun x => { x with st := .running, sram := need, head := head })

/-- ATTEND reads its catalogue header once, at its start (R148): it may stall, or end, there. -/
def State.attBegin (s : State) (l c k : Nat) (e : SsuCmd) : State :=
  let a := attArgs e.bytes
  if a.rows = 0 then s.ssuBegin l c k e []
  else match s.vaAbsent c a.cat 64 with
    | some (sg, pg, va) => s.ssuStall c e (sg, pg, va, false)
    | none =>
      let (s, hold) := s.readGate (.desc c e.ring e.index) (s.vaPieces c a.cat 64)
      if hold then s
      else
        let (s, h, bad) := s.vaRead c a.cat 64
        if bad.any id then s.ssuEnd c e 0x3001 0 0
        else if !catOk a h then s.catRefuse l c e
        else s.ssuBegin l c k e h

/-- The head command of a queue starts: its SSU_WAIT is met, the resources it needs are free, and its checks pass; otherwise it completes with their code (R118, R119, R161, R221). -/
def State.ssuStart (s : State) (l c k : Nat) : State :=
  match (s.stack l).queue c k with
  | [] => s
  | e :: _ =>
    if !s.ready l || e.st != .waiting || s.cstate c != .ready || s.epochHolds c || !s.waitHolds (.ssu l) (dssuWait e.bytes) 7 e.met then s
    else if s.stale c e.xlats then s.ssuEnd c e 0x2003 0 0
    else
      let code := s.startCheck l c e
      if code != 0 then s.ssuRefuse l c e code
      else if e.op = 0x0D ∧ (s.stack l).mig.isSome then s
      else if e.op = 0x10 then s.attBegin l c k e
      else s.ssuBegin l c k e []

/-- SSU_CMD_START (R118). -/
def execSsuCmdStart (ls fn k : Nat) (s : State) : Res := upDo s (fun s => s.ssuStart ls fn k)

/-- A row of a started command: its opcode agrees, its mappings still hold and its checks still pass. -/
def State.ssuRow (s : State) (l c k op : Nat) (f : State → SsuCmd → State) : State :=
  match (s.stack l).queue c k with
  | [] => s
  | e :: _ =>
    if !s.ready l || e.st != .running || e.op != op then s
    else if s.stale c e.xlats then s.ssuEnd c e 0x2003 0 0
    else if s.startCheck l c e != 0 then s.ssuRefuse l c e (s.startCheck l c e)
    else f s e

/-! ### Windows (R120 to R124, R131 to R133) -/

/-- A window changed. -/
def State.modWin (s : State) (l n : Nat) (f : Window → Window) : State :=
  s.modStack l (fun t => if t.wins.has n then { t with wins := t.wins.put n (f (t.wins.look n {})) } else t)

/-- A post an SSU makes. -/
def State.ssuPost (s : State) (l c : Nat) (w : BitVec 32) : State := s.sendPost { cmpt := c, word := w, src := 64 + l }

/-- A standard normal sample: a free finite value (R132, log 4). -/
def freeNormal (t : Nat) : FP := match f32 (Config.free t % 2 ^ 32) with | .fin n m e => .fin n m e | _ => FP.zero

/-- Where `n` bytes at byte `x` of a window's destination lie; those of a host-backed destination are looked up anew (R214). -/
def State.winPieces (s : State) (l : Nat) (w : Window) (x n : Nat) : List (Nat × Nat) :=
  if w.paged then s.vaPieces w.owner (w.va + x) n else [(lsBase l + w.dst + x, n)]

/-- The first page of such a range that is not resident (R214, R215). -/
def State.winAbsent (s : State) (w : Window) (x n : Nat) : Option (Nat × Nat × Nat) := if w.paged then s.vaAbsent w.owner (w.va + x) n else none

/-- The segment that mapped a host-backed destination has been withdrawn (R221). -/
def State.winGone (s : State) (w : Window) : Bool := w.paged && !((s.seg w.owner (vaSeg w.va)).valid && (s.seg w.owner (vaSeg w.va)).typ == 3)

/-- Bytes written to a window's destination, with DIRTY of the slots they reach (R214). -/
def State.destWrite (s : State) (l c : Nat) (w : Window) (x : Nat) (d : List Byte) (bad : List Bool) : State :=
  let s := (s.writePieces c (s.winPieces l w x d.length) d bad).1
  if w.paged then s.markDirtySlots w.owner (vaSeg w.va) (s.seg w.owner (vaSeg w.va)) (vaOff w.va + x) d.length else s

/-- The sum of an aggregation window with its noise: (d + SIGMA × z) × SCALE with one rounding per operation, and the sticky bits of the elements it produces (R45, R132). -/
def State.noiseSum (s : State) (l : Nat) (w : Window) : State × Sticky :=
  let n := w.count
  let (s, old, bad) := s.readPieces (s.winPieces l w 0 (4 * n))
  let r : Rnd := { sat := w.sat.toNat }
  let nanIn := stIf (f32 w.scale.toNat == .nan) stNanIn
  let vs : List (Nat × Sticky) := (List.range n).map (fun i =>
    let z := mulF r (f32 w.sigma.toNat) (freeNormal (s.tick + i))
    let x := readElem 0 (elemOf 0 old i) false
    let d := addF r x.1 z.1
    let y := mulF r d.1 (f32 w.scale.toNat)
    ((toF32 r y.1).1, orSt [nanIn, x.2, z.2, d.2, y.2]))
  let s := s.destWrite l w.owner w 0 (pack 0 (vs.map (·.1))) bad
  let s := s.modStack l (fun t => { t with noise := t.noise + n })
  ({ s with tick := s.tick + n }, orSt (vs.map (·.2)))

/-- A window closes and makes CLOSE_POST; an aggregation window first gets its noise, or its zeros and AGG_SHORT (R123, R132). The codes are AGG_SHORT where it is posted, and what becomes of CLOSE_POST at a fallow or undefined compartment (R286); the sticky bits are those of the noised elements. -/
def State.closeWin (s : State) (l n : Nat) : State × BitVec 16 × BitVec 16 × Sticky :=
  let w := (s.stack l).wins.look n {}
  let parts := ((List.range 16).filter (fun p => bit w.contributed p)).length
  let short := w.clip && decide (parts < w.minParts)
  let s := s.modWin l n (fun w => { w with isOpen := false })
  let (s, st) : State × Sticky :=
    if short then ((s.destWrite l w.owner w 0 (List.replicate (4 * w.count) 0) []).event w.owner 0x400A l 0, 0)
    else if w.clip then s.noiseSum l w
    else (s, 0)
  (s.ssuPost l w.owner w.closePost, if short then 0x400A else 0, s.postFate w.owner w.closePost, st)

/-- WIN_OPEN and CLIP_NOISE (R121, R122). -/
def State.winOpen (s : State) (l c : Nat) (e : SsuCmd) : State :=
  let b := e.bytes
  let va := dfield b 48 8 % 2 ^ 48
  let n := dfield b 56 4
  let fl := dfield b 61 1
  match s.vaAbsent c va (max 1 (4 * n)) with
  | some (sg, pg, a) => s.ssuStall c e (sg, pg, a, true)
  | none =>
    let w : Window := {
      owner := c, dst := s.dstOff c va, va := va, paged := (s.seg c (vaSeg va)).typ == 3, count := n, srcFmt := BitVec.ofNat 4 (dfield b 60 1 / 16), dstFmt := BitVec.ofNat 4 (dfield b 60 1)
      op := fl % 4, sat := BitVec.ofNat 2 (fl / 4), explicit := fl / 64 % 2 == 1, clip := e.op == 5
      sigma := BitVec.ofNat 32 (dfield b 40 4), bound := BitVec.ofNat 32 (dfield b 44 4), minParts := dfield b 62 1, expected := dfield b 64 4
      scale := BitVec.ofNat 32 (dfield b 68 4), closePost := BitVec.ofNat 32 (dfield b 72 4), slots := winSlots b, isOpen := true }
    let s := if fl / 128 % 2 = 1 then s.destWrite l c w 0 (List.replicate (4 * n) 0) [] else s
    let s := s.modStack l (fun t => { t with wins := t.wins.put e.window w })
    if w.expected = 0 ∧ !w.explicit then
      let r := s.closeWin l e.window
      r.1.ssuEnd c e r.2.2.1 r.2.2.2 0
    else s.ssuEnd c e 0 0 0

/-- WIN_OPEN (R122). -/
def execWinOpen (ls fn k : Nat) (s : State) : Res := upDo s (fun s => s.ssuRow ls fn k 0x01 (fun s e => s.winOpen ls fn e))

/-- CLIP_NOISE (R131). -/
def execClipNoise (ls fn k : Nat) (s : State) : Res := upDo s (fun s => s.ssuRow ls fn k 0x05 (fun s e => s.winOpen ls fn e))

/-- The window a contribution is for: the one it names, or the held window whose contribution range holds its first byte (R127). -/
def State.winOf (s : State) (l : Nat) (x : Contrib) : Option Nat :=
  match x.win with
  | some n => if (s.stack l).wins.has n then some n else none
  | none => ((s.stack l).wins.find? (fun w => decide (w.2.dst ≤ x.off) && decide (x.off < w.2.dst + w.2.count * (fmtBits w.2.srcFmt.toNat / 8)))).map (·.1)

/-- WIN_CLOSE takes effect after every contribution to the window that is at the intake (R123). -/
def execWinClose (ls fn k : Nat) (s : State) : Res :=
  upDo s (fun s => s.ssuRow ls fn k 0x02 (fun s e =>
    if (s.stack ls).intake.any (fun x => s.winOf ls x == some e.window) then s
    else
      let w := (s.stack ls).wins.look e.window {}
      if !w.isOpen then s.ssuEnd fn e 0 0 0
      else match (if w.clip then s.winAbsent w 0 (4 * w.count) else none) with
        | some (sg, pg, a) => s.ssuStall fn e (sg, pg, a, true)
        | none =>
          let r := s.closeWin ls e.window
          r.1.ssuEnd fn e (firstCode r.2.1 r.2.2.1) r.2.2.2 (w.accepted % 2 ^ 32 + 2 ^ 32 * (w.dups % 2 ^ 32))))

/-- WIN_FREE (R124). -/
def execWinFree (ls fn k : Nat) (s : State) : Res :=
  upDo s (fun s => s.ssuRow ls fn k 0x03 (fun s e =>
    (s.modStack ls (fun t => { t with wins := t.wins.del e.window })).ssuEnd fn e 0 0 0))

/-! ### Contributions (R125 to R131, R141) -/

/-- The contributor number of a contribution in a window's slots (R120, R127, R128, R331). -/
def Window.contributor (w : Window) (x : Contrib) : Option Nat :=
  let find (p : BitVec 24 → Bool) : Option Nat := findPos p w.slots
  match x.peer, x.mover with
  | some id, _ => (find (fun v => bits v 23 22 == 3 && bits v 15 0 == id)).map (fun p => 256 * p + x.rank % 256)
  | none, true => (find (fun v => bits v 23 22 == 1 && bits v 21 16 == x.cmpt)).map (fun p => 256 * p + x.rank % 256)
  | none, false =>
    match w.slots[x.contributor / 256]? with
    | some v => if bits v 23 22 = 2 ∧ bits v 21 16 = x.cmpt then some x.contributor else none
    | none => none

/-- First element of a contribution in its window. -/
def Window.first (w : Window) (x : Contrib) : Nat := match x.win with | some _ => x.off | none => (x.off - w.dst) / (fmtBits w.srcFmt.toNat / 8)

/-- REDUCE_SPAN: outside the range, misaligned, or above 32 MiB for CLIP_NOISE (R127, R128, R131). -/
def Window.spanBad (w : Window) (x : Contrib) : Bool :=
  let z := fmtBits w.srcFmt.toNat / 8
  decide (w.count < w.first x + x.data.length / z) || x.data.length % z != 0 ||
    (match x.win with | some _ => false | none => (x.off - w.dst) % z != 0) || (w.clip && decide (0x200_0000 < x.data.length))

/-- A ledger entry that holds a sequence (R125). -/
def Ledger.holds (e : Ledger) (q : Nat) : Bool := decide (q + 64 ≤ e.high) || q == e.high || (decide (q < e.high) && bit e.seen (e.high - 1 - q))

/-- A ledger entry after a sequence has been accepted (R125). -/
def Ledger.accept (e : Ledger) (q : Nat) : Ledger :=
  if e.high < q then
    { e with high := q, partSeq := 0, partGroups := 0
             seen := (if q - e.high ≤ 64 then (e.seen <<< (q - e.high)) ||| (if e.high = 0 then 0 else BitVec.ofNat 64 (2 ^ (q - e.high - 1))) else 0) }
  else { e with seen := e.seen ||| BitVec.ofNat 64 (2 ^ (e.high - 1 - q)), partSeq := 0, partGroups := 0 }

/-- The clipping factor of a contribution: min(1, BOUND / norm), 1 when the norm is 0; 0, with INVALID, for a contribution that holds a NaN or an infinity (R131). -/
def clipFactor (w : Window) (t : Nat) (xs : List FP) : FP × Sticky :=
  let r : Rnd := { sat := w.sat.toNat }
  if xs.any (fun x => match x with | .fin _ _ _ => false | _ => true) then (FP.zero, stInvalid)
  else
    let sq := xs.map (fun x => mulF r x x)
    let ss := freeSum r.sat xs.length t (sq.map (·.1))
    let nn := sqrtF r (Config.free (t + 2 * xs.length)) ss.1
    if nn.1.isZero then (.fin false 1 0, orSt (sq.map (·.2)) ||| ss.2)
    else
      let q := divF r (Config.free (t + 2 * xs.length + 1)) (f32 w.bound.toNat) nn.1
      (FP.min (.fin false 1 0) q.1, orSt (sq.map (·.2)) ||| ss.2 ||| nn.2 ||| q.2)

/-- One element of a floating window updated (R129, R131); a factor of 0 times a NaN or an infinity is NaN (R44). -/
def Window.upd (w : Window) (factor : FP) (d x : FP) : FP × Sticky :=
  let r : Rnd := { sat := w.sat.toNat }
  let k := if w.clip then factor else f32 w.scale.toNat
  let nanIn := stIf (k == .nan || d == .nan) stNanIn
  let y := match w.op with
    | 0 => fmaF r k x d
    | 1 => let y := mulF r k x; (d.max y.1, y.2)
    | _ => let y := mulF r k x; (d.min y.1, y.2)
  (y.1, nanIn ||| y.2)

/-- One element of an integer window updated (R129). -/
def Window.updI (w : Window) (d x : Int) : Int × Sticky :=
  match w.op with
  | 0 => intAdd w.sat.toNat d x
  | 1 => (max d x, 0)
  | _ => (min d x, 0)

/-- Groups a contribution touches: 2 KiB of destination each (R125). -/
def Window.groups (w : Window) (x : Contrib) : Nat :=
  let n := x.data.length / (fmtBits w.srcFmt.toNat / 8)
  let lo := w.dst + 4 * w.first x
  if n = 0 then 0 else (lo + 4 * n - 1) / 2048 - lo / 2048 + 1

/-- Groups `g` up to `g'` of a contribution applied: the state, its sticky bits, and whether poison was met (R125, R129). -/
def State.applyGroups (s : State) (l : Nat) (w : Window) (x : Contrib) (g g' : Nat) : State × Sticky × Bool :=
  let z := fmtBits w.srcFmt.toNat / 8
  let n := x.data.length / z
  let f := w.srcFmt.toNat
  let lo := w.dst + 4 * w.first x
  let a := max lo ((lo / 2048 + g) * 2048)
  let b := min (lo + 4 * n) ((lo / 2048 + g') * 2048)
  let k := (a - lo) / 4
  let m := (b - a) / 4
  let (s, old, oldBad) := s.readPieces (s.winPieces l w (a - w.dst) (4 * m))
  let srcBad (j : Nat) : Bool := (List.range z).any (fun i => x.pois.contains (z * (k + j) + i))
  let bad := oldBad.zipIdx.map (fun y => y.1 || (!x.pois.isEmpty && srcBad (y.2 / 4)))
  let fac : FP × Sticky := if w.clip then clipFactor w s.tick ((List.range n).map (fun j => (readElem f (elemOf f x.data j) false).1)) else (FP.zero, 0)
  let res : List (Nat × Sticky) := (List.range m).map (fun j =>
    if w.dstFmt = 11 then
      let y := w.updI (decodeInt 11 (elemOf 11 old j)) (decodeInt f (elemOf f x.data (k + j)))
      ((y.1 % 4294967296).toNat, y.2)
    else
      let v := readElem f (elemOf f x.data (k + j)) false
      let y := w.upd fac.1 (f32 (elemOf 0 old j)) v.1
      ((toF32 {} y.1).1, v.2 ||| y.2))
  let any := bad.any id
  let s := s.destWrite l x.cmpt w (a - w.dst) (pack 0 (res.map (·.1))) bad
  ({ s with tick := s.tick + 2 * n + 2 }, fac.2 ||| orSt (res.map (·.2)), any)

/-- The command or packet that waits for a contribution gets its outcome. -/
def State.contribEnd (s : State) (x : Contrib) (code : BitVec 16) (st : Sticky) : State :=
  match x.origin with
  | .desc c k i => s.outcome (.desc c k i) code st true
  | o => s.outcome o code st false

/-- Contributions of one contributor are applied in the order they arrived (R125). -/
def sameSender (x y : Contrib) : Bool := x.mover == y.mover && x.cmpt == y.cmpt && x.rank == y.rank && x.contributor == y.contributor && x.peer == y.peer

/-- The refusal of a contribution, or zero. -/
def State.contribCode (s : State) (l : Nat) (x : Contrib) : BitVec 16 :=
  match s.winOf l x with
  | none => 0x4004
  | some n =>
    let w := (s.stack l).wins.look n {}
    if s.cstate w.owner = .fallow then 0x9001
    else if w.lost then 0x400B
    else match w.contributor x with
      | none => 0x4005
      | some _ =>
        if s.winGone w then 0x2003
        else if (s.cmpt x.cmpt).vitrine && x.peer.isNone && w.owner != x.cmpt && !w.clip then 0x7002
        else if w.spanBad x then 0x4008
        else if x.seq = 0 then 0x1001 else 0

/-- A sender that still waits for its contribution has not failed. -/
def State.senderLive (s : State) (x : Contrib) : Bool :=
  match x.origin with
  | .queue d i q id => ((s.core d i).queue q).any (fun e => e.id == id && e.st != .done)
  | .desc c k id => ((s.cmpt c).ring k).descs.any (fun d => d.id == id && d.st != .done)
  | .remote _ _ => true
  | _ => false

/-- CONTRIBUTION: entry `n` of a stack's intake is dropped as a duplicate, refused, or applied. `upTo` groups are applied when its source failed in mid-stream; the ledger then keeps how far it came (R125, R141). -/
def State.contribution (s : State) (l n upTo : Nat) : State :=
  match (s.stack l).intake[n]? with
  | none => s
  | some x =>
    if !s.ready l || ((s.stack l).intake.take n).any (sameSender x) then s
    else
      let code := s.contribCode l x
      let drop (s : State) : State := s.modStack l (fun t => { t with intake := t.intake.eraseIdx n })
      if code != 0 then ((drop s).modStack l (fun t => { t with refused := satAdd t.refused 1 })).contribEnd x code 0
      else
        let wn := (s.winOf l x).getD 0
        let w := (s.stack l).wins.look wn {}
        let cn := (w.contributor x).getD 0
        let e0 := w.ledger.look cn {}
        let e : Ledger := if (x.mover || x.peer.isSome) && e0.launch != x.launch then { launch := x.launch } else e0
        if e.holds x.seq then
          ((drop s).modWin l wn (fun w => { w with dups := w.dups + 1, ledger := w.ledger.put cn e })).modStack l (fun t => { t with dups := satAdd t.dups 1 })
            |>.contribEnd x 0x0001 0
        else if !w.isOpen then ((drop s).modStack l (fun t => { t with refused := satAdd t.refused 1 })).contribEnd x 0x4002 0
        else
          let g := if e.partSeq = x.seq then e.partGroups else 0
          let total := w.groups x
          let last := w.accepted + 1 = w.expected ∧ !w.explicit
          match (if w.clip && last then s.winAbsent w 0 (4 * w.count) else s.winAbsent w (4 * w.first x) (4 * (x.data.length / (fmtBits w.srcFmt.toNat / 8)))) with
          | some (sg, pg, a) => s.pageFault w.owner sg pg a { origin := x.origin, write := true, va := a }
          | none =>
          if upTo < total then
            if s.senderLive x then s
            else
              let g' := if w.clip then g else max g upTo
              let r := if g < g' then (s.applyGroups l w x g g').1 else s
              (drop r).modWin l wn (fun w => { w with ledger := w.ledger.put cn { e with partSeq := x.seq, partGroups := g' } })
          else
            let r := if g < total then s.applyGroups l w x g total else (s, 0, false)
            let s := (drop r.1).modWin l wn (fun w => { w with
              ledger := w.ledger.put cn (e.accept x.seq), accepted := w.accepted + 1, contributed := setBit w.contributed (cn / 256) true })
            let s := s.modStack l (fun t => { t with applied := satAdd t.applied 1 })
            let s := if last then (s.closeWin l wn).1 else s
            s.contribEnd x (if r.2.2 then 0x3001 else 0) r.2.1

/-- CONTRIBUTION (R125). -/
def execContribution (ls n upTo : Nat) (s : State) : Res := upDo s (fun s => s.contribution ls n upTo)

/-- REDUCE: the SSU reads its source and sends it to the intake as an explicit contribution; its tag is (WINDOW, CONTRIB, SEQ) (R128). -/
def execSsuReduce (ls fn k : Nat) (s : State) : Res :=
  upDo s (fun s => s.ssuRow ls fn k 0x04 (fun s e =>
    let b := e.bytes
    let n := dfield b 56 4
    let va := dfield b 48 8 % 2 ^ 48
    if n = 0 then s.ssuEnd fn e 0 0 0
    else if (s.stack ls).intake.any (fun x => x.origin == .desc fn e.ring e.index) then s
    else
      let len := n * (fmtBits ((s.stack ls).wins.look e.window {}).srcFmt.toNat / 8)
      match s.vaAbsent fn va len with
      | some (sg, pg, a) => s.ssuStall fn e (sg, pg, a, false)
      | none =>
        let (s, hold) := s.readGate (.desc fn e.ring e.index) (s.vaPieces fn va len)
        if hold then s
        else
        let (s, l, bad) := s.vaRead fn va len
        let x : Contrib := {
          win := some e.window, cmpt := fn, contributor := dfield b 64 2 % 4096, seq := dfield b 66 2, off := dfield b 60 4, data := l
          pois := badIdx bad, origin := .desc fn e.ring e.index, seg := some (vaSeg va) }
        s.modStack ls (fun t => { t with intake := t.intake ++ [x] })))

/-! ### OPT_STEP (R134, Table 5.7) -/

/-- The constants of an optimizer step. -/
structure OptArgs where
  algo : Nat
  rnd : Rnd
  lr : FP
  b1 : FP
  b2 : FP
  /-- 1 − BETA1 and 1 − BETA2 -/
  c1 : FP
  c2 : FP
  /-- 1 − BETA1^STEP and 1 − BETA2^STEP -/
  d1 : FP
  d2 : FP
  eps : FP
  wd : FP
  gscale : FP

/-- BETA^STEP within 2 units in the last place; exactly 0 and 1 for a BETA of 0 and 1 (R134). -/
def betaPow (r : Rnd) (f : Nat) (b : FP) (n : Nat) : FP × Sticky :=
  match b with
  | .fin neg m e =>
    if m = 0 then (FP.zero, 0)
    else if b = .fin false 1 0 ∨ b = f32 0x3F800000 then (.fin false 1 0, 0)
    else withinUlps r 2 f (neg && n % 2 == 1) (powApprox n m e)
  | .inf neg => (.inf (neg && n % 2 == 1), 0)
  | .nan => (.nan, 0)

/-- The first part of an element's update: the new m and v, and the direction u (m itself for SGD, with the decay added). -/
def optMoments (a : OptArgs) (f : Nat) (w g m v : FP) : FP × FP × FP × Sticky :=
  let r : Rnd := { sat := a.rnd.sat }
  let g1 := mulF r a.gscale g
  let x1 := mulF r a.b1 m
  if a.algo = 0 then
    let m1 := addF r x1.1 g1.1
    let y := mulF r a.wd w
    let u := addF r m1.1 y.1
    (m1.1, v, u.1, g1.2 ||| x1.2 ||| m1.2 ||| y.2 ||| u.2)
  else
    let x2 := mulF r a.c1 g1.1
    let m1 := addF r x1.1 x2.1
    let x3 := mulF r a.b2 v
    let gg := mulF r g1.1 g1.1
    let x4 := mulF r a.c2 gg.1
    let v1 := addF r x3.1 x4.1
    let mh := divF r (Config.free f) m1.1 a.d1
    let vh := divF r (Config.free (f + 1)) v1.1 a.d2
    let q := sqrtF r (Config.free (f + 2)) vh.1
    let de := addF r q.1 a.eps
    let y := divF r (Config.free (f + 3)) mh.1 de.1
    let z := mulF r a.wd w
    let u := addF r y.1 z.1
    (m1.1, v1.1, u.1, orSt [g1.2, x1.2, x2.2, m1.2, x3.2, gg.2, x4.2, v1.2, mh.2, vh.2, q.2, de.2, y.2, z.2, u.2])

/-- The direction of LAMB's second pass, from the moments the first pass wrote. -/
def optDirection (a : OptArgs) (f : Nat) (w m v : FP) : FP × Sticky :=
  let r : Rnd := { sat := a.rnd.sat }
  let mh := divF r (Config.free f) m a.d1
  let vh := divF r (Config.free (f + 1)) v a.d2
  let q := sqrtF r (Config.free (f + 2)) vh.1
  let de := addF r q.1 a.eps
  let y := divF r (Config.free (f + 3)) mh.1 de.1
  let z := mulF r a.wd w
  let u := addF r y.1 z.1
  (u.1, orSt [mh.2, vh.2, q.2, de.2, y.2, z.2, u.2])

/-- w − k × u, each operation rounded. -/
def optApply (a : OptArgs) (k w u : FP) : FP × Sticky :=
  let r : Rnd := { sat := a.rnd.sat }
  let y := mulF r k u
  let z := addF r w y.1.neg
  (z.1, y.2 ||| z.2)

/-- FP32 elements of packed bytes. -/
def f32s (n : Nat) (l : List Byte) : List (FP × Sticky) := (List.range n).map (fun k => readElem 0 (elemOf 0 l k) false)

/-- FP32 values packed. -/
def packF (l : List FP) : List Byte := pack 0 (l.map (fun x => (toF32 {} x).1))

/-- Constants of a command. -/
def optArgs (b : BitVec 1024) (t : Nat) : OptArgs × Sticky :=
  let x (k : Nat) : FP := f32 (dfield b k 4)
  let r : Rnd := { mode := dfield b 92 1 / 64, sat := dfield b 93 1 % 4 }
  let rn : Rnd := { sat := dfield b 93 1 % 4 }
  let one : FP := .fin false 1 0
  let c1 := addF rn one (x 104).neg
  let c2 := addF rn one (x 108).neg
  let algo := dfield b 92 1 % 4
  let p1 := if algo = 0 then (FP.zero, 0) else betaPow rn (Config.free t) (x 104) (dfield b 96 4)
  let p2 := if algo = 0 then (FP.zero, 0) else betaPow rn (Config.free (t + 1)) (x 108) (dfield b 96 4)
  let d1 := addF rn one p1.1.neg
  let d2 := addF rn one p2.1.neg
  ({ algo := algo, rnd := r, lr := x 100, b1 := x 104, b2 := x 108, c1 := c1.1, c2 := c2.1, d1 := d1.1, d2 := d2.1, eps := x 112, wd := x 116, gscale := x 120 },
   stIf (([100, 104, 116, 120] ++ (if algo = 0 then [] else [108, 112])).any (fun k => x k == FP.nan)) stNanIn ||| if algo = 0 then 0 else orSt [c1.2, c2.2, p1.2, p2.2, d1.2, d2.2])

/-- A step under way: the state, its sticky bits, poison met, the groups done, and LAMB's partial norms. -/
structure OptRun where
  st : State
  sticky : Sticky := 0
  pois : Bool := false
  group : Nat
  normW : FP := FP.zero
  normU : FP := FP.zero
  stall : Option Stall := none

/-- One group of 512 elements: with `pass` 0 all of it, 1 the moments and norms of LAMB, 2 its weights. -/
def optGroup (c : Nat) (o : Origin) (b : BitVec 1024) (a : OptArgs) (pass : Nat) (trust : FP) (x : OptRun) : OptRun :=
  let va (k : Nat) : Nat := dfield b k 8 % 2 ^ 48
  let s := x.st
  let k := 512 * x.group
  let n := min 512 (dfield b 88 4 - k)
  let shF := dfield b 92 1 / 4 % 16
  let shZ := fmtBits shF / 8
  let sh := dfield b 80 8 != 0
  let wA := va 48 + 4 * k
  let gA := va 56 + 4 * k
  let m1A := va 64 + 4 * k
  let m2A := va 72 + 4 * k
  let shA := va 80 + shZ * k
  let two := a.algo != 0
  let ranges := [(wA, 4 * n, true), (gA, 4 * n, true), (m1A, 4 * n, true)] ++ (if two then [(m2A, 4 * n, true)] else []) ++ (if sh then [(shA, shZ * n, true)] else [])
  match s.pageStall c ranges with
  | some f => { x with stall := some f }
  | none =>
    let (s, hold) := s.readGate o ((ranges.take (if two then 4 else 3)).flatMap (fun q => s.vaPieces c q.1 q.2.1))
    if hold then { x with st := s, stall := some .rebuild }
    else
    let (s, wl, wb) := s.vaRead c wA (4 * n)
    let (s, gl, gb) := s.vaRead c gA (4 * n)
    let (s, ml, mb) := s.vaRead c m1A (4 * n)
    let (s, vl, vb) := if two then s.vaRead c m2A (4 * n) else (s, [], [])
    let lost (j : Nat) : Bool := poisElem wb 4 j || poisElem gb 4 j || poisElem mb 4 j || poisElem vb 4 j
    let ws := f32s n wl
    let gs := f32s n gl
    let ms := f32s n ml
    let vs := f32s n vl
    let t := s.tick
    let at_ (l : List (FP × Sticky)) (j : Nat) : FP := (l[j]?.getD (FP.zero, 0)).1
    let rin := if pass = 2 then [ws] else [ws, gs, ms] ++ (if two then [vs] else [])
    let stIn := orSt (rin.map (fun l => orSt (l.map (·.2))))
    let mom : List (FP × FP × FP × Sticky) := (List.range n).map (fun j =>
      if pass = 2 then (let u := optDirection a (t + 4 * j) (at_ ws j) (at_ ms j) (at_ vs j); (at_ ms j, at_ vs j, u.1, u.2))
      else optMoments a (t + 4 * j) (at_ ws j) (at_ gs j) (at_ ms j) (at_ vs j))
    let s := { s with tick := t + 4 * n }
    let r : Rnd := { sat := a.rnd.sat }
    let live := (List.range n).filter (fun j => !lost j)
    let anyLost := (List.range n).any lost
    let st := stIn ||| orSt (mom.map (fun y => y.2.2.2))
    let badB (z : Nat) : List Bool := (List.range (n * z)).map (fun j => lost (j / z))
    -- moments
    let s := if pass = 2 then s else (s.vaWrite c m1A (packF (mom.map (·.1))) (badB 4)).1
    let s := if pass = 2 || !two then s else (s.vaWrite c m2A (packF (mom.map (fun y => y.2.1))) (badB 4)).1
    if pass = 1 then
      let sqW := live.map (fun j => mulF r (at_ ws j) (at_ ws j))
      let sqU := live.map (fun j => let u := ((mom[j]?.map (fun y => y.2.2.1)).getD FP.zero); mulF r u u)
      let tt := s.tick
      let nw := freeSum r.sat (n + 1) tt (x.normW :: sqW.map (·.1))
      let nu := freeSum r.sat (n + 1) (tt + 2 * n + 2) (x.normU :: sqU.map (·.1))
      { x with st := { s with tick := tt + 4 * n + 4 }, sticky := x.sticky ||| st ||| orSt (sqW.map (·.2)) ||| orSt (sqU.map (·.2)) ||| nw.2 ||| nu.2
               pois := x.pois || anyLost, group := x.group + 1, normW := nw.1, normU := nu.1 }
    else
      let kk := if a.algo = 2 then mulF r a.lr trust else (a.lr, 0)
      let nw := (List.range n).map (fun j => optApply a kk.1 (at_ ws j) ((mom[j]?.map (fun y => y.2.2.1)).getD FP.zero))
      let s := (s.vaWrite c wA (packF (nw.map (·.1))) (badB 4)).1
      let (s, st2) := if sh then
          let cv := convertAll shF a.rnd false (fun e => (k + e) % 2048) 0 (nw.map (·.1)) ((s.stack (dfield b 33 1 % 32)).gens.ofUnit s.bootDraw (unitOfSsu (dfield b 33 1 % 32)))
          let s := s.modStack (dfield b 33 1 % 32) (fun t => { t with gens := t.gens.after cv.2.2 })
          ((s.vaWrite c shA (pack shF cv.1) (badB shZ)).1, cv.2.1)
        else (s, 0)
      let s := if dfield b 93 1 / 4 % 2 = 1 then (s.vaWrite c gA (List.replicate (4 * n) 0) []).1 else s
      { x with st := s, sticky := x.sticky ||| st ||| st2 ||| kk.2 ||| orSt (nw.map (·.2)), pois := x.pois || anyLost, group := x.group + 1 }

/-- Groups in order until one stalls or all are done. -/
def optGroups (c : Nat) (o : Origin) (b : BitVec 1024) (a : OptArgs) (pass : Nat) (trust : FP) : Nat → OptRun → OptRun
  | 0, x => x
  | fuel + 1, x =>
    if x.stall.isSome || decide (dfield b 88 4 ≤ 512 * x.group) then x
    else optGroups c o b a pass trust fuel (optGroup c o b a pass trust x)

/-- OPT_STEP. A stalled step keeps the groups done, LAMB's partial norms and trust ratio (R140). -/
def State.optStep (s : State) (l c k : Nat) (e : SsuCmd) : State :=
  let b := e.bytes
  let n := dfield b 88 4
  if n = 0 then s.ssuEnd c e 0 0 0
  else
    let (a, st0) := optArgs b s.tick
    let s := { s with tick := s.tick + 2 }
    let fuel := n / 512 + 1
    let o : Origin := .desc c e.ring e.index
    let keep (s : State) (x : OptRun) (f : Stall) (second : Bool) (trust : FP) : State :=
      let s := s.modSsu l c k (fun y => { y with group := x.group, second := second, normW := BitVec.ofNat 32 (toF32 {} x.normW).1
                                                 normU := BitVec.ofNat 32 (toF32 {} x.normU).1, trust := BitVec.ofNat 32 (toF32 {} trust).1 })
      (s.modDesc c e.ring e.index (fun d => { d with sticky := d.sticky ||| x.sticky, code := firstCode d.code (if x.pois then 0x3001 else 0) })).ssuStop c e f
    let code (p : Bool) : BitVec 16 := if p then 0x3001 else 0
    if a.algo ≠ 2 then
      let x := optGroups c o b a 0 FP.zero fuel { st := s, group := e.group, sticky := st0 }
      match x.stall with
      | some f => keep x.st x f false FP.zero
      | none => x.st.ssuEnd c e (code x.pois) x.sticky 0
    else
      let r : Rnd := { sat := a.rnd.sat }
      let x1 : OptRun := if e.second then { st := s, group := 0, normW := f32 e.normW.toNat, normU := f32 e.normU.toNat, sticky := st0 }
        else optGroups c o b a 1 FP.zero fuel { st := s, group := e.group, normW := f32 e.normW.toNat, normU := f32 e.normU.toNat, sticky := st0 }
      match x1.stall with
      | some f => keep x1.st x1 f false FP.zero
      | none =>
        let t := x1.st.tick
        let nw := sqrtF r (Config.free t) x1.normW
        let nu := sqrtF r (Config.free (t + 1)) x1.normU
        let q := if nw.1.isZero || nu.1.isZero then ((.fin false 1 0 : FP), (0 : Sticky)) else divF r (Config.free (t + 2)) nw.1 nu.1
        let trust := if e.second then f32 e.trust.toNat else q.1
        let s2 : State := { x1.st with tick := t + 3 }
        let x2 := optGroups c o b a 2 trust fuel
          { st := s2, group := if e.second then e.group else 0, normW := x1.normW, normU := x1.normU, pois := x1.pois
            sticky := x1.sticky ||| (if e.second then 0 else nw.2 ||| nu.2 ||| q.2) }
        match x2.stall with
        | some f => keep x2.st x2 f true trust
        | none => x2.st.ssuEnd c e (code x2.pois) x2.sticky (toF32 {} trust).1

/-- OPT_STEP (R134). -/
def execOptStep (ls fn k : Nat) (s : State) : Res := upDo s (fun s => s.ssuRow ls fn k 0x08 (fun s e => s.optStep ls fn k e))

/-! ### GATHER and SCATTER (R135, R136) -/

/-- The far end of a row: a virtual range or a place in a core's store. -/
def State.farPieces (s : State) (c : Nat) (m : MovAddr) (x n : Nat) : List (Nat × Nat) := s.opPieces c m x n

/-- Index `i` of an index vector; one read from a poisoned sector is a free value. -/
def idxAt (l : List Byte) (bad : List Bool) (t i : Nat) : Int :=
  if poisElem bad 4 i then decodeInt 11 (Config.free (t + i) % 2 ^ 32) else decodeInt 11 (elemOf 11 l i)

/-- The common fields of GATHER and SCATTER. -/
structure RowArgs where
  table : Nat
  idx : Nat
  count : Nat
  nrows : Nat
  row : Nat
  pitch : Nat
  mode : Nat
  fmt : Nat
  bag : Nat
  far : MovAddr
  ls : Nat
  cls : Nat

def State.rowArgs (s : State) (c : Nat) (b : BitVec 1024) : RowArgs :=
  { table := dfield b 48 8 % 2 ^ 48, idx := dfield b 56 8 % 2 ^ 48, count := dfield b 72 4, nrows := dfield b 76 4, row := dfield b 80 4
    pitch := if dfield b 84 4 = 0 then dfield b 80 4 else dfield b 84 4, mode := dfield b 88 1 / 16 % 4, fmt := dfield b 88 1 % 16, bag := dfield b 89 2
    far := (s.movAddr 0 0 c (BitVec.ofNat 64 (dfield b 64 8))).2, ls := dfield b 33 1, cls := dfield b 2 1 }

/-- SSU accesses to a row's far place at the regulator of the stack's die, in the descriptor's class (Tables 11.2, 11.3). -/
def State.ssuOffer (s : State) (a : RowArgs) (c : Nat) (write : Bool) (ps : List (Nat × Nat)) : State := s.offer (s.stack a.ls).die 16 a.cls c write ps

/-- Sums of rows in FP32, element by element, in an order the spec leaves open, written back in FMT under RNE and SAT. -/
def sumRows (f n t : Nat) (rows : List (List Byte)) : List Byte × Sticky :=
  let k := rows.length
  let vs : List (Nat × Sticky) := (List.range n).map (fun j =>
    let xs := rows.map (fun l => readElem f (elemOf f l j) false)
    let z := freeSum 0 k (t + 2 * k * j) (xs.map (·.1))
    let w := writeElem f {} 0 (if k = 0 then FP.zero else z.1)
    (w.1, orSt (xs.map (·.2)) ||| z.2 ||| w.2))
  (pack f (vs.map (·.1)), orSt (vs.map (·.2)))

/-- Rows under way: state, sticky bits, poison, rows done, out-of-range indices, and a stall. -/
structure RowRun where
  st : State
  sticky : Sticky := 0
  pois : Bool := false
  row : Nat := 0
  out : Nat := 0
  stall : Option Stall := none

/-- Whether an index names a table row. -/
def RowArgs.inTable (a : RowArgs) (x : Int) : Bool := decide (0 ≤ x) && decide (x < a.nrows)

/-- Where a virtual end or a core-store end is absent. -/
def State.farAbsent (s : State) (c : Nat) (m : MovAddr) (x n : Nat) (w : Bool) : Option Stall := (s.opAbsent c m x n).map (fun p => .page p.1 p.2.1 p.2.2 w)

def State.farDirty (s : State) (c : Nat) (m : MovAddr) (x n : Nat) : State :=
  match m with | .va v => s.markDirtySlots c (vaSeg v) (s.seg c (vaSeg v)) (vaOff v + x) n | _ => s

/-- One output row of GATHER. -/
def gatherRow (c : Nat) (o : Origin) (a : RowArgs) (hazard : Bool) (x : RowRun) : RowRun :=
  let s := x.st
  let bag := if a.mode = 1 then a.bag else 1
  let i := x.row
  match orElseOpt (s.pageStall c [(a.idx + 4 * bag * i, 4 * bag, false)]) (s.farAbsent c a.far (i * a.row) a.row true) with
  | some f => { x with stall := some f }
  | none =>
    let (s, hold) := s.readGate o (s.vaPieces c (a.idx + 4 * bag * i) (4 * bag))
    if hold then { x with st := s, stall := some .rebuild }
    else
    let (s, il, ib) := s.vaRead c (a.idx + 4 * bag * i) (4 * bag)
    let t := s.tick
    let ks := (List.range bag).map (idxAt il ib t)
    match s.pageStall c ((ks.filter a.inTable).map (fun k => (a.table + k.toNat * a.pitch, a.row, false))) with
    | some f => { x with stall := some f }
    | none =>
      let (s, hold) := s.readGate o ((ks.filter a.inTable).flatMap (fun k => s.vaPieces c (a.table + k.toNat * a.pitch) a.row))
      if hold then { x with st := s, stall := some .rebuild }
      else
      let s := { s with tick := t + bag }
      let rd := ks.foldl (fun (y : State × List (List Byte × List Bool)) k =>
        if a.inTable k then (let r := y.1.vaRead c (a.table + k.toNat * a.pitch) a.row; (r.1, y.2 ++ [(r.2.1, r.2.2)]))
        else (y.1, y.2 ++ [(List.replicate a.row 0, [])])) (s, [])
      let s := rd.1
      let out := (ks.filter (fun k => !a.inTable k)).length
      let z := fmtBits a.fmt / 8
      let r : List Byte × Sticky := if a.mode = 1 then sumRows a.fmt (a.row / max z 1) s.tick (rd.2.map (·.1)) else ((rd.2.headD ([], [])).1, 0)
      let ibad := ib.any id
      let bad := (List.range a.row).map (fun j => ibad || rd.2.any (fun y => if a.mode = 1 then poisElem y.2 z (j / max z 1) else y.2[j]?.getD false))
      let s := { s with tick := s.tick + 2 * bag * (a.row / max z 1) }
      let b : State × List Byte := if hazard then s.freeBytes a.row else (s, r.1)
      let w := (b.1.ssuOffer a c true (b.1.farPieces c a.far (i * a.row) a.row)).writePieces c (b.1.farPieces c a.far (i * a.row) a.row) b.2 bad
      { x with st := w.1.farDirty c a.far (i * a.row) a.row, sticky := x.sticky ||| r.2 ||| stIf (out != 0) stInvalid, pois := x.pois || w.2 || bad.any id
               row := i + 1, out := x.out + out }
where
  orElseOpt (a b : Option Stall) : Option Stall := match a with | some x => some x | none => b

/-- One source row of SCATTER: written, or added in FP32, to the row its index names; an index out of range is skipped. -/
def scatterRow (c : Nat) (o : Origin) (a : RowArgs) (x : RowRun) : RowRun :=
  let s := x.st
  let i := x.row
  match gatherRow.orElseOpt (s.pageStall c [(a.idx + 4 * i, 4, false)]) (s.farAbsent c a.far (i * a.row) a.row false) with
  | some f => { x with stall := some f }
  | none =>
    let (s, hold) := s.readGate o (s.vaPieces c (a.idx + 4 * i) 4 ++ s.farPieces c a.far (i * a.row) a.row)
    if hold then { x with st := s, stall := some .rebuild }
    else
    let (s, il, ib) := s.vaRead c (a.idx + 4 * i) 4
    let k := idxAt il ib s.tick 0
    let va := a.table + k.toNat * a.pitch
    if !a.inTable k then { x with st := { s with tick := s.tick + 1 }, sticky := x.sticky ||| stInvalid, pois := x.pois || ib.any id, row := i + 1, out := x.out + 1 }
    else match s.pageStall c [(va, a.row, true)] with
      | some f => { x with stall := some f }
      | none =>
        let (s, hold) := s.readGate o (if a.mode = 1 then s.vaPieces c va a.row else [])
        if hold then { x with st := s, stall := some .rebuild }
        else
        let s := { s with tick := s.tick + 1 }
        let (s, l, lb) := (s.ssuOffer a c false (s.farPieces c a.far (i * a.row) a.row)).readPieces (s.farPieces c a.far (i * a.row) a.row)
        let z := fmtBits a.fmt / 8
        let (s, tl, tb) := if a.mode = 1 then s.vaRead c va a.row else (s, [], [])
        let r : List Byte × Sticky := if a.mode = 1 then sumRows a.fmt (a.row / max z 1) s.tick [tl, l] else (l, 0)
        let s := { s with tick := s.tick + 4 * (a.row / max z 1) }
        let bad := (List.range a.row).map (fun j => if a.mode = 1 then poisElem lb z (j / max z 1) || poisElem tb z (j / max z 1) else lb[j]?.getD false)
        let w := s.vaWrite c va r.1 bad
        { x with st := w.1, sticky := x.sticky ||| r.2, pois := x.pois || w.2 || bad.any id || ib.any id, row := i + 1 }

/-- Rows in order until one stalls or all are done. -/
def rowsLoop (n : Nat) (f : RowRun → RowRun) : Nat → RowRun → RowRun
  | 0, x => x
  | fuel + 1, x => if x.stall.isSome || decide (n ≤ x.row) then x else rowsLoop n f fuel (f x)

/-- An interrupted GATHER, SCATTER with MODE 0, ATTEND or MERGE begins again (R140, R162). -/
def SsuCmd.restarted (e : SsuCmd) : SsuCmd :=
  if (e.op = 0x10 ∨ e.op = 0x11) ∧ e.st = .running ∧ !e.second then { e with st := .waiting, met := true, sram := 0, head := [] }
  else if e.op = 0x09 ∨ (e.op = 0x0A ∧ dfield e.bytes 88 1 / 16 % 4 = 0) then { e with group := 0, normW := 0 } else e

/-- GATHER or SCATTER from the row it had reached. -/
def State.rowCmd (s : State) (l c k : Nat) (e : SsuCmd) (scatter : Bool) : State :=
  let a := s.rowArgs c e.bytes
  let bag := if a.mode = 1 then a.bag else 1
  let hazard := !scatter && piecesMeet (s.farPieces c a.far 0 (a.count * a.row))
    (s.vaPieces c a.table (tableLen a.nrows a.pitch a.row) ++ s.vaPieces c a.idx (4 * a.count * bag))
  let o : Origin := .desc c e.ring e.index
  let x := rowsLoop a.count (if scatter then scatterRow c o a else gatherRow c o a hazard) a.count { st := s, row := e.group, out := e.normW.toNat }
  match x.stall with
  | some f =>
    let s := x.st.modSsu l c k (fun y => { y with group := x.row, normW := BitVec.ofNat 32 x.out })
    (s.modDesc c e.ring e.index (fun d => { d with sticky := d.sticky ||| x.sticky, code := firstCode d.code (if x.pois then 0x3001 else 0) })).ssuStop c e f
  | none => x.st.ssuEnd c e (if x.pois then 0x3001 else 0) x.sticky (x.out % 2 ^ 32)

/-- SSU GATHER (R135). -/
def execSsuGather (ls fn k : Nat) (s : State) : Res := upDo s (fun s => s.ssuRow ls fn k 0x09 (fun s e => s.rowCmd ls fn k e false))

/-- SCATTER (R136). -/
def execScatter (ls fn k : Nat) (s : State) : Res := upDo s (fun s => s.ssuRow ls fn k 0x0A (fun s e => s.rowCmd ls fn k e true))

/-! ### PARITY (R137, R181, R182) -/

/-- The stripes that meet a range of a guarded segment, as member offsets of their sectors. -/
def stripesOf (ar : List Nat × Nat × Nat) (x n : Nat) : List Nat :=
  ((pieces x n).flatMap (fun p => let o := (guardPlace ar p.1).2; (sectors o p.2).map (32 * ·))).dedup

/-- A member's sector at a member offset, as a number. -/
def State.memberSec (s : State) (m off : Nat) : Nat := ofLe (s.rd (lsBase m + off) 32)

/-- Deltas on their way to a parity sector, combined. -/
def State.deltaXor (s : State) (p off : Nat) : Nat :=
  s.stk.foldl (fun a t => t.2.deltas.foldl (fun a x => if x.pls = p ∧ x.off = off then a ^^^ x.data.toNat else a) a) 0

/-- Deltas for a parity sector that a recomputation has taken in. -/
def State.dropDeltas (s : State) (p off : Nat) : State :=
  { s with stk := s.stk.each (fun _ t => { t with deltas := t.deltas.filter (fun x => !(x.pls == p && x.off == off)) }) }

/-- The XOR of the data sectors of a stripe but for one; poisoned sectors hold zeros (R182). -/
def State.stripeXor (s : State) (ms : List Nat) (p except off : Nat) : Nat :=
  (ms.filter (fun m => m != p && m != except)).foldl (fun a m => a ^^^ s.memberSec m off) 0

/-- The parity sector of a stripe recomputed. -/
def State.recomputeParity (s : State) (ar : List Nat × Nat × Nat) (off : Nat) : State :=
  let p := (guardParity ar off)
  ((s.dropDeltas p off).wrSec (lsBase p + off) (leBytes 32 (s.stripeXor ar.1 p 99 off)))
where
  guardParity (ar : List Nat × Nat × Nat) (off : Nat) : Nat := (ar.1[(off - ar.2.1) / 2048 % 8]?).getD 0

/-- Whether a stripe's stored parity, with the deltas on their way, differs from its recomputed parity. -/
def State.parityBad (s : State) (ar : List Nat × Nat × Nat) (off : Nat) : Bool :=
  let p := State.recomputeParity.guardParity ar off
  (s.memberSec p off ^^^ s.deltaXor p off) != s.stripeXor ar.1 p 99 off

/-- A data sector rebuilt from the other sectors of its stripe; with another data sector poisoned neither can be rebuilt (R182). The Boolean says whether it was rebuilt. -/
def State.rebuildSec (s : State) (c : Nat) (ar : List Nat × Nat × Nat) (m off : Nat) : State × Bool :=
  let p := State.recomputeParity.guardParity ar off
  let other := (ar.1.filter (fun x => x != p && x != m)).any (fun x => s.secPois ((lsBase x + off) / 32))
  if other then
    let was := s.secPois ((lsBase m + off) / 32)
    let s := (s.ssuPoison c ((lsBase m + off) / 32)).recomputeParity ar off
    (if was then s else s.poisonEvent m off 1, false)
  else
    let v := s.memberSec p off ^^^ s.deltaXor p off ^^^ s.stripeXor ar.1 p m off
    let s := s.wrSec (lsBase m + off) (leBytes 32 v)
    let s := s.modStack m (fun t => { t with pois := t.pois.filter (· != off / 32) })
    ((s.modMem (s.stack m).die (fun x => { x with recon := satAdd x.recon 1 })).refresh (lsBase m + off) 32, true)

/-- The guarded area, stripes and data sectors of a PARITY: by segment offset, or by device physical address for the PF (R137, R280). -/
def State.parityPlan (s : State) (c : Nat) (b : BitVec 1024) : (List Nat × Nat × Nat) × List Nat × List (Nat × Nat) :=
  let n := dfield b 56 8
  if c = 0 then
    let a := dfield b 48 8
    let ar := ((s.guarded.find? (fun e => e.2.1.contains (paLs a) && decide (e.2.2.1 ≤ paOff a) && decide (paOff a < e.2.2.1 + e.2.2.2))).map (·.2)).getD ([], 0, 0)
    let secs := (sectors (paOff a) (min n (ar.2.1 + ar.2.2 - paOff a))).map (32 * ·)
    (ar, secs, (secs.filter (fun o => !s.isParity (paLs a) o)).map (fun o => (paLs a, o)))
  else
    let va := dfield b 48 8 % 2 ^ 48
    let ar := s.area (s.seg c (vaSeg va)).area
    (ar, stripesOf ar (vaOff va) n,
      ((pieces (vaOff va) n).flatMap (fun p => let q := guardPlace ar p.1; (sectors q.2 p.2).map (fun k => (q.1, 32 * k)))).dedup)

/-- PARITY. A stripe is the eight sectors at one member offset. -/
def State.parityCmd (s : State) (c : Nat) (e : SsuCmd) : State :=
  let (ar, st, secs) := s.parityPlan c e.bytes
  match dfield e.bytes 64 1 % 4 with
  | 0 => (st.foldl (fun s o => s.recomputeParity ar o) s).ssuEnd c e 0 0 0
  | 1 => s.ssuEnd c e 0 0 ((st.filter (s.parityBad ar)).length % 2 ^ 32)
  | _ =>
    let r := secs.foldl (fun (a : State × Bool) q => let y := a.1.rebuildSec c ar q.1 q.2; (y.1, a.2 || !y.2)) (s, false)
    r.1.ssuEnd c e (if r.2 then 0x3001 else 0) 0 0

/-- PARITY (R137). -/
def execParity (ls fn k : Nat) (s : State) : Res := upDo s (fun s => s.ssuRow ls fn k 0x0B (fun s e => s.parityCmd fn e))

/-! ### WIPE and MIGRATE (R138, R139) -/

/-- A range of memory written with zeros and valid ECC, with parity upkeep where it is guarded. -/
def State.wipePiece (s : State) (c a n : Nat) : State :=
  if inStacks a && s.isGuarded (paLs a) (paOff a) then s.ncWrite c a (List.replicate n 0) (fun _ => false) else (s.wipeRange a n).refresh a n

/-- WIPE: zeros over the range whatever the pattern written before them. -/
def State.wipeCmd (s : State) (c : Nat) (e : SsuCmd) : State :=
  let va := dfield e.bytes 48 8 % 2 ^ 48
  let n := dfield e.bytes 56 8
  match s.absentOf c [(va, n, true)] with
  | some f => s.ssuStall c e f
  | none =>
    let s' := (s.vaPieces c va n).foldl (fun t p => t.wipePiece c p.1 p.2) s
    (s'.markDirtySlots c (vaSeg va) (s.seg c (vaSeg va)) (vaOff va) n).ssuEnd c e 0 0 0

/-- WIPE (R138). -/
def execWipe (ls fn k : Nat) (s : State) : Res := upDo s (fun s => s.ssuRow ls fn k 0x0C (fun s e => s.wipeCmd fn e))

/-- MIGRATE: the reserve tile takes over the stack and its copy begins; the command ends with the copy (R139, R142). -/
def State.migrate (s : State) (l : Nat) (e : SsuCmd) : State :=
  let d := dfield e.bytes 48 1 % 64
  s.modStack l (fun t => { t with die := d, mig := some { src := t.die, dst := d, cursor := 0, planned := true } })

/-- MIGRATE (R139). -/
def execMigrate (ls fn k : Nat) (s : State) : Res :=
  upDo s (fun s => s.ssuRow ls fn k 0x0D (fun s e => if (s.stack ls).mig.isSome then s else s.migrate ls e))

/-- NOISE_REKEY: after 2^32 samples the keystream gets a fresh key (R132). -/
def execNoiseRekey (ls : Nat) (s : State) : Res :=
  upDo s (fun s =>
    if 2 ^ 32 ≤ (s.stack ls).noise then
      let t := s.tick
      { s.modStack ls (fun x => { x with noiseKey := t, noise := x.noise - 2 ^ 32 }) with tick := t + 1 }
    else s)

end Sys2Proof.Machine
end

