-- ==== Sys2Proof/Machine/Attention.lean ====
section
/-! DEFINITION. Stack-side attention: ATTEND and MERGE (R145 to R162). -/

namespace Sys2Proof.Machine

/-! ### Rotation (R154) -/

/-- arctan (1 / k) in units of 2^-500, by its series. -/
def atanInv (k : Nat) : Nat :=
  let r := (List.range 250).foldl (fun (p : Int × Nat) i => (p.1 + (if i % 2 = 0 then 1 else -1) * ((p.2 / (2 * i + 1) : Nat) : Int), p.2 / (k * k))) ((0 : Int), 2 ^ 500 / k)
  r.1.toNat

/-- 2π in units of 2^-500 (Machin's formula). -/
def twoPi : Nat := 8 * (4 * atanInv 5 - atanInv 239)

/-- A magnitude in units of 2^-500, truncated. -/
def Approx.fixed (a : Approx) : Nat := if 0 ≤ a.e + 500 then a.m * 2 ^ (a.e + 500).toNat else a.m / 2 ^ (-(a.e + 500)).toNat

/-- Cosine and sine of an angle in units of 2^-500 below 2π, in the same units. -/
def cosSin (x : Nat) : Int × Int :=
  let u : Int := (2 ^ 500 : Nat)
  let z : Int := x
  let z2 : Int := z * z / u
  let r := (List.range 120).foldl (fun (p : Int × Int × Int × Int) i =>
    let (c, s, tc, ts) := p
    let tc' := -(tc * z2 / u) / ((2 * i + 1) * (2 * i + 2) : Nat)
    let ts' := -(ts * z2 / u) / ((2 * i + 2) * (2 * i + 3) : Nat)
    (c + tc', s + ts', tc', ts')) (u, z, u, z)
  (r.1, r.2.1)

/-- A fixed-point value within 2 units in the last place of FP32. -/
def nearFx (f : Nat) (v : Int) : FP := (withinUlps {} 2 f (decide (v < 0)) { m := v.natAbs, e := -500, exact := decide (v = 0) }).1

/-- Cosine and sine of (j × ROPE_SCALE) × ROPE_BASE^(−2i / ROPE_DIM), each within 2 units in the last place. An infinite base leaves the angle j × ROPE_SCALE of pair 0 and angles of 0; of an infinite angle the spec gives no sine or cosine, and they are free (log 4). -/
def ropeCS (base scale : FP) (dim j i f : Nat) : FP × FP :=
  match base, scale with
  | .fin _ bm be, .fin _ sm se =>
    let l := (lnApprox bm be).2
    let p := expApprox true (l.m * 2 * i / max dim 1) l.e
    let a := ({ m := j * sm * p.m, e := se + p.e } : Approx).fixed % twoPi
    let r := cosSin a
    (nearFx (Config.free f) r.1, nearFx (Config.free (f + 1)) r.2)
  | .inf false, .fin _ sm se =>
    let r := cosSin ((if i = 0 then ({ m := j * sm, e := se } : Approx).fixed else 0) % twoPi)
    (nearFx (Config.free f) r.1, nearFx (Config.free (f + 1)) r.2)
  | _, _ => (f32 (Config.free f % 2 ^ 32), f32 (Config.free (f + 1) % 2 ^ 32))

/-- The element paired with element `d`, and the pair's index: adjacent or halves pairing. -/
def ropePair (halves : Bool) (dim d : Nat) : Nat × Nat × Bool :=
  if halves then (if d < dim / 2 then (d + dim / 2, d, true) else (d - dim / 2, d - dim / 2, false))
  else (if d % 2 = 0 then (d + 1, d / 2, true) else (d - 1, d / 2, false))

/-- A row rotated in FP32 at position `j`; elements at ROPE_DIM and above are left as they are. -/
def rotate (base scale : FP) (dim : Nat) (halves : Bool) (j t : Nat) (l : List FP) : List FP × Sticky :=
  let cs := (List.range (dim / 2)).map (fun i => ropeCS base scale dim j i (t + 2 * i))
  let out := l.zipIdx.map (fun x =>
    if dim ≤ x.2 then (x.1, (0 : Sticky))
    else
      let (o, i, fst) := ropePair halves dim x.2
      let (c, s) := cs[i]?.getD (.nan, .nan)
      let y := l[o]?.getD FP.zero
      let a := mulF {} x.1 c
      let b := mulF {} y s
      let z := addF {} a.1 (if fst then b.1.neg else b.1)
      (z.1, a.2 ||| b.2 ||| z.2))
  (out.map (·.1), orSt (out.map (·.2)))

/-! ### Pages (R146, R149, R152) -/

/-- A page entry (Table 6.3). -/
structure PageEnt where
  page : Nat
  off : Nat
  valid : Nat
  ks : FP
  vs : FP
  bad : Bool

/-- Bytes of a page block (Table 6.1). -/
def blockLen (fmt dim : Nat) : Nat := match fmt with | 1 => 1024 * dim | 7 => 272 * dim | _ => 512 * dim

/-- Lane format of a page format. -/
def laneFmt (fmt : Nat) : Nat := match fmt with | 1 => 1 | 4 => 4 | _ => 3

/-- Position of a query row. -/
def AttArgs.pos (a : AttArgs) (r : Nat) : Nat := a.qpos + r / a.hpp

/-- Whether position `j` is visible to row `r` (R152). -/
def AttArgs.visible (a : AttArgs) (r j : Nat) : Bool :=
  match a.mask with
  | 0 => true
  | 1 => decide (j ≤ a.pos r)
  | _ => decide (a.pos r < j + a.wlen) && decide (j ≤ a.pos r)

/-- Page offsets held in a page (R149). -/
def CatHead.held (h : CatHead) (p : PageEnt) : List Nat := (List.range 256).filter (fun t => decide (256 * p.page + t < h.count) && decide (t < p.valid))

/-- Page offsets held and visible to a row. -/
def attSeen (a : AttArgs) (h : CatHead) (p : PageEnt) (r : Nat) : List Nat := (h.held p).filter (fun t => a.visible r (h.first + 256 * p.page + t))

/-! ### Rows under way -/

/-- A row's triple, and whether it is NaN or poisoned (R156, R159). -/
structure AttRow where
  m : FP := .inf true
  l : FP := FP.zero
  o : List FP
  seen : Nat := 0
  nan : Bool := false
  pois : Bool := false

/-- A query row in the lane format and its power-of-two scale (R153). -/
def laneQuery (lane : Nat) (l : List FP) : List FP × FP × Sticky :=
  if lane = 1 then
    let ws := l.map (fun x => writeElem 1 {} 0 x)
    (ws.map (fun w => decodeFP 1 w.1), .fin false 1 0, orSt (ws.map (·.2)))
  else
    let x := mxScale lane 0 l
    let ws := x.2.1.map (fun y => mxRound lane 0 0 y)
    (ws.map (fun w => decodeFP lane w.1), mxElem x.1 (.fin false 1 0), x.2.2 ||| orSt (ws.map (·.2)))

/-- A dot product along D in groups of 32, each group scaled where its elements are (R36, R153). -/
def laneDot (t : Nat) (q k : List FP) (codes : List Nat) (mx : Bool) : FP × Sticky :=
  let ps := q.zip k
  let ng := (ps.length + 31) / 32
  let gs := (groups32 ng ps).zipIdx.map (fun g => groupAddends mx false (codes[g.2]?.getD 127) 127 g.1)
  cellF 0 t FP.zero gs

/-- FP32 product rounded to nearest even. -/
def mulN (a b : FP × Sticky) : FP × Sticky := let r := mulF {} a.1 b.1; (r.1, a.2 ||| b.2 ||| r.2)

/-- lane(p) (R156). -/
def laneP (lane : Nat) (p : FP) : FP × Sticky :=
  let k : Int := match lane with | 1 => 0 | 3 => 8 | _ => 15
  let w := writeElem lane {} 0 (p.shift k)
  ((decodeFP lane w.1).shift (-k), w.2)

/-- The bias of a row at a position (R155). -/
def attBias (a : AttArgs) (tab : List FP) (r j : Nat) : FP × Sticky :=
  match a.biasMode with
  | 0 => (FP.zero, 0)
  | 1 => mulF {} (tab[r]?.getD FP.zero) (FP.ofInt ((j : Int) - a.pos r))
  | _ => (tab[64 * r + min 63 (Nat.log2 (a.pos r - j + 1))]?.getD FP.zero, 0)

/-- What ATTEND works with. -/
structure AttCtx where
  a : AttArgs
  h : CatHead
  q : List (List FP × FP)
  bias : List FP

/-- The lane values and block codes of key row `t` of a page. -/
def AttCtx.key (x : AttCtx) (blk : List Byte) (t j tick : Nat) : List FP × List Nat × Sticky :=
  let f := x.h.fmt
  let d := x.a.dim
  let mx := f == 7
  let raw := (List.range d).map (fun i => readElem f (elemOf f blk (t * d + i)) false)
  let codes : List Nat := if mx then (List.range (d / 32)).map (fun b => fieldAt blk (256 * d + t * (d / 32) + b) 1) else []
  let st := orSt (raw.map (·.2))
  if !x.a.rotK then (raw.map (·.1), codes, st)
  else
    -- a rotated pair is taken at its true values and brought back to its own block's scale
    let true_ := raw.zipIdx.map (fun (y : (FP × Sticky) × Nat) => if mx then mxElem (codes[y.2 / 32]?.getD 127) y.1.1 else y.1.1)
    let rot := rotate x.a.rbase x.a.rscale x.a.rdim x.a.halves j tick true_
    let own := rot.1.zipIdx.map (fun (y : FP × Nat) => if mx then (let c : Nat := codes[y.2 / 32]?.getD 127; if c = 0xFF then FP.nan else y.1.shift (127 - (c : Int))) else y.1)
    let lane := laneFmt f
    let ws := own.map (fun y => writeElem lane {} 0 (if lane = 1 then y else y.shift (-1)))
    (ws.map (fun w => decodeFP lane w.1), codes, st ||| rot.2 ||| orSt (ws.map (·.2)))

/-- Value element `i` of row `t` of a page. -/
def AttCtx.value (x : AttCtx) (blk : List Byte) (t i : Nat) : FP × Sticky :=
  let f := x.h.fmt
  let d := x.a.dim
  let base := if f = 1 then 512 * d else if f = 7 then 128 * d else 256 * d
  let v := readElem f (elemOf f (blk.drop base) (t * d + i)) false
  if f = 7 then (let c := fieldAt blk (256 * d + 256 * (d / 32) + t * (d / 32) + i / 32) 1; (mxElem c v.1, v.2 ||| stIf (c == 0xFF) stNanIn)) else v

/-- Free values that one row takes in one page. -/
def attDraws (d : Nat) : Nat := 256 * (d + 32) + 4096

/-- One row over one page (R156, R159). -/
def AttCtx.rowPage (x : AttCtx) (p : PageEnt) (blk : List Byte) (bad : List Bool) (r t0 : Nat) (row : AttRow) : AttRow × Sticky :=
  let ts := attSeen x.a x.h p r
  if ts.isEmpty then (row, 0)
  else
    let d := x.a.dim
    let f := x.h.fmt
    let lane := laneFmt f
    let kb := d * fmtBits f / 8
    let vb := if f = 1 then 512 * d else if f = 7 then 128 * d else 256 * d
    let hit (o n : Nat) : Bool := ((bad.drop o).take n).any id
    let pois := ts.any (fun t => hit (t * kb) kb || hit (vb + t * kb) kb || (f == 7 && (hit (256 * d + t * (d / 32)) (d / 32) || hit (256 * d + 256 * (d / 32) + t * (d / 32)) (d / 32))))
    let q := x.q[r]?.getD ([], .nan)
    let one : FP × Sticky := (.fin false 1 0, 0)
    let rk : FP × Sticky := if x.a.rotK && lane != 1 then (.fin false 1 1, 0) else one
    let sc : List (Nat × FP × Sticky) := ts.map (fun t =>
      let j := x.h.first + 256 * p.page + t
      let k := x.key blk t j (t0 + t * d)
      let dot := laneDot (t0 + 256 * d + 8 * t) q.1 k.1 k.2.1 (f == 7)
      let bi := attBias x.a x.bias r j
      let v := mulN (mulN (mulN (mulN (x.a.scale, 0) (q.2, 0)) (p.ks, 0)) rk) (dot.1, dot.2 ||| k.2.2)
      let z := addF {} v.1 bi.1
      (t, z.1, v.2 ||| bi.2 ||| z.2))
    let stS := orSt (sc.map (·.2.2))
    let isNan := sc.any (fun y => y.2.1 == .nan)
    let isInf := sc.any (fun y => y.2.1 == .inf true || y.2.1 == .inf false)
    let vals : List (Nat × List (FP × Sticky)) := ts.map (fun t => (t, (List.range d).map (x.value blk t)))
    let vNan := vals.any (fun y => y.2.any (fun z => z.1 == .nan))
    let seen := row.seen + ts.length
    if isNan || isInf || vNan || row.nan then
      ({ row with seen := seen, nan := true, pois := row.pois || pois }, stS ||| stIf (isNan || vNan) stNanIn ||| stIf isInf stInvalid)
    else
      let m' := sc.foldl (fun a y => a.max y.2.1) row.m
      let c : FP × Sticky := if row.m == .inf true then (FP.zero, 0) else (let y := addF {} row.m m'.neg; let z := expF {} (Config.free (t0 + 256 * d + 2048)) y.1; (z.1, y.2 ||| z.2))
      let ps : List (Nat × FP × Sticky) := sc.map (fun y => let u := addF {} y.2.1 m'.neg; let z := expF {} (Config.free (t0 + 256 * d + 2304 + y.1)) u.1; (y.1, z.1, u.2 ||| z.2))
      let sum := freeSum 0 ps.length (t0 + 256 * d + 2560) (ps.map (·.2.1))
      let lc := mulF {} row.l c.1
      let l' := addF {} lc.1 sum.1
      let lp := ps.map (fun y => (y.1, laneP lane y.2.1))
      let o' : List (FP × Sticky) := row.o.zipIdx.map (fun y =>
        let pv : List (Nat × FP × FP) := (lp.zip vals).map (fun z => (z.1.1, z.1.2.1, (z.2.2[y.2]?.getD (FP.zero, 0)).1))
        let gs := (List.range 8).filterMap (fun g =>
          let ps := (pv.filter (fun z => z.1 / 32 == g)).map (fun z => (z.2.1, z.2.2))
          if ps.isEmpty then none else some (groupAddends false false 127 127 ps))
        let dot := cellF 0 (t0 + 256 * d + 3072 + 8 * y.2) FP.zero gs
        let a := mulF {} y.1 c.1
        let b := mulF {} p.vs dot.1
        let z := addF {} a.1 b.1
        (z.1, a.2 ||| b.2 ||| dot.2 ||| z.2))
      ({ m := m', l := l'.1, o := o'.map (·.1), seen := seen, nan := false, pois := row.pois || pois },
       orSt [stS, stIf (p.vs == .nan) stNanIn, c.2, orSt (ps.map (·.2.2)), sum.2, lc.2, l'.2, orSt (lp.map (·.2.2)), orSt (o'.map (·.2))])

/-! ### Outputs (R157, R158) -/

/-- A final row: o / l in OUT_FMT under RNE and SAT; +0 where l is 0. -/
def finalRow (outFmt t : Nat) (x : AttRow) : List Byte × Sticky :=
  let vs := x.o.zipIdx.map (fun y =>
    if x.nan then ((toF32 {} .nan).1, writeElem outFmt {} 0 .nan, (0 : Sticky))
    else if x.l.isZero then (0, writeElem outFmt {} 0 FP.zero, 0)
    else let q := divF {} (Config.free (t + y.2)) y.1 x.l; (0, writeElem outFmt {} 0 q.1, q.2))
  (pack outFmt (vs.map (fun y => y.2.1.1)), orSt (vs.map (fun y => y.2.1.2 ||| y.2.2)))

/-- A triple record (Table 6.5). -/
def tripleRec (x : AttRow) : List Byte :=
  let w (v : FP) : List Byte := leBytes 4 (if x.nan then 0x7FC00000 else (toF32 {} v).1)
  w x.m ++ w x.l ++ leBytes 4 (min x.seen (2 ^ 32 - 1)) ++ List.replicate 20 0 ++ x.o.flatMap w

/-- Rows written to OUT, in memory or in a peer segment (R151, R158, R327): the rows' bytes and poison, then the command ends, or awaits its responses. -/
def State.attOut (s : State) (l c k : Nat) (e : SsuCmd) (out : Nat) (data : List Byte) (bad : List Bool) (code : BitVec 16) (st : Sticky) (detail : Nat) : State :=
  match s.opPeer c (.va out) with
  | some (sg, g) =>
    let o : Origin := .desc c e.ring e.index
    let ps := cut4k (data.length / 4096 + 1) 0 data.length
    let s := s.modSsu l c k (fun y => { y with second := true })
    let s := s.modDesc c e.ring e.index (fun d => { d with detail := BitVec.ofNat 64 detail, code := firstCode d.code code, sticky := d.sticky ||| st, pend := d.pend + ps.length })
    ps.foldl (fun s p => s.sendPut (s.stack l).die c sg g (vaOff out + p.1) ((data.drop p.1).take p.2) ((bad.drop p.1).take p.2) o) s
  | none =>
    let w := s.vaWrite c out data bad
    w.1.ssuEnd c e (if w.2 then firstCode code 0x3001 else code) st detail

/-- The output of all rows. -/
def outRows (final : Bool) (outFmt t : Nat) (rows : List AttRow) : List Byte × List Bool × Sticky :=
  let rs : List (List Byte × Bool × Sticky) := rows.zipIdx.map (fun x => if final then (let y := finalRow outFmt (t + 256 * x.2) x.1; (y.1, x.1.pois, y.2)) else (tripleRec x.1, x.1.pois, 0))
  (rs.flatMap (·.1), rs.flatMap (fun r => r.1.map (fun _ => r.2.1)), orSt (rs.map (·.2.2)))

/-! ### ATTEND -/

/-- A stop without output. -/
def State.attStop (s : State) (l c : Nat) (e : SsuCmd) (code : BitVec 16) : State :=
  (s.modStack l (fun t => { t with attStops := satAdd t.attStops 1 })).ssuEnd c e code 0 0

/-- Address of the entry of page `p` for the command's layer and group (R147). -/
def AttArgs.entry (a : AttArgs) (h : CatHead) (p : Nat) : Nat := a.cat + 64 + 16 * ((a.layer * h.groups + a.group) * h.pages + p)

/-- A page entry read. -/
def pageEnt (p : Nat) (e : List Byte) (bad : List Bool) : PageEnt :=
  { page := p, off := fieldAt e 0 4, valid := fieldAt e 4 2, ks := f32 (fieldAt e 8 4), vs := f32 (fieldAt e 12 4), bad := bad.any id }

/-- Whether some row sees a held position of a page. -/
def attNeeds (a : AttArgs) (h : CatHead) (p : PageEnt) : Bool := (List.range a.rows).any (fun r => !(attSeen a h p r).isEmpty)

/-- The code with which a page stops the command, or zero (R149). -/
def pageStop (a : AttArgs) (h : CatHead) (p : PageEnt) : BitVec 16 :=
  if p.bad then 0x3001
  else if p.off = 0xFFFFFFFF then (if attNeeds a h p then 0x400E else 0)
  else if a.poolLen < 2048 * p.off + blockLen h.fmt a.dim then 0x400F else 0

/-- Pages under way: the rows, the pages streamed, and what ended the run: a stall, or a stop with its code. -/
structure AttRun where
  st : State
  rows : List AttRow
  sticky : Sticky := 0
  streamed : Nat := 0
  stall : Option Stall := none
  stop : BitVec 16 := 0

/-- One page: its entry when it is reached, then its block, whose held visible positions each row takes in (R149, R156). -/
def attPage (c : Nat) (o : Origin) (x : AttCtx) (y : AttRun) (p : Nat) : AttRun :=
  if y.stall.isSome || y.stop != 0 then y
  else
    let s := y.st
    let ea := x.a.entry x.h p
    match s.pageStall c [(ea, 16, false)] with
    | some f => { y with stall := some f }
    | none =>
      let (s, hold) := s.readGate o (s.vaPieces c ea 16)
      if hold then { y with st := s, stall := some .rebuild }
      else
      let (s, eb, ebad) := s.vaRead c ea 16
      let p := pageEnt p eb ebad
      if pageStop x.a x.h p != 0 then { y with st := s, stop := pageStop x.a x.h p }
      else if p.off = 0xFFFFFFFF || !attNeeds x.a x.h p then { y with st := s }
      else
        let ba := x.a.pool + 2048 * p.off
        let n := blockLen x.h.fmt x.a.dim
        match s.pageStall c [(ba, n, false)] with
        | some f => { y with st := s, stall := some f }
        | none =>
          let (s, hold) := s.readGate o (s.vaPieces c ba n)
          if hold then { y with st := s, stall := some .rebuild }
          else
          let (s, blk, bad) := s.vaRead c ba n
          let t := s.tick
          let draws := attDraws x.a.dim
          let ys : List (AttRow × Sticky) := y.rows.zipIdx.map (fun z => x.rowPage p blk bad z.2 (t + draws * z.2) z.1)
          { y with st := { s with tick := t + draws * x.a.rows }, rows := ys.map (·.1), sticky := y.sticky ||| orSt (ys.map (·.2)), streamed := y.streamed + 1 }

/-- ATTEND (R148 to R159). The header is the one read at its start. -/
def State.attend (s : State) (l c k : Nat) (e : SsuCmd) : State :=
  let a := attArgs e.bytes
  if e.second then s
  else if a.rows = 0 then s.ssuEnd c e 0 0 0
  else
    let h := catHead e.head
    let o : Origin := .desc c e.ring e.index
    let qLen := a.rows * a.dim * (fmtBits a.qFmt / 8)
    let bLen := match a.biasMode with | 1 => 4 * a.rows | 2 => 256 * a.rows | _ => 0
    let oLen := if a.final then a.rows * a.dim * (fmtBits a.outFmt / 8) else a.rows * (32 + 4 * a.dim)
    match s.absentOf c [(a.q, qLen, false), (a.out, oLen, true), (a.bias, bLen, false)] with
    | some f => s.ssuStall c e f
    | none =>
      let (s, hold) := s.readGate o (s.vaPieces c a.q qLen ++ s.vaPieces c a.bias bLen)
      if hold then s
      else
      let (s, ql, qb) := s.vaRead c a.q qLen
      let (s, bl, bb) := if bLen = 0 then (s, [], []) else s.vaRead c a.bias bLen
      let qs : List (List FP × FP × Sticky × Bool) := (List.range a.rows).map (fun r =>
        let raw := (List.range a.dim).map (fun i => readElem a.qFmt (elemOf a.qFmt ql (r * a.dim + i)) false)
        let x := raw.map (·.1)
        let rot := if a.rotQ then rotate a.rbase a.rscale a.rdim a.halves (a.pos r) (s.tick + 256 * r) x else (x, 0)
        let y := laneQuery (laneFmt h.fmt) rot.1
        (y.1, y.2.1, orSt (raw.map (·.2)) ||| rot.2 ||| y.2.2, poisElem qb (a.dim * (fmtBits a.qFmt / 8)) r))
      let s := { s with tick := s.tick + 256 * a.rows }
      let bias := (f32s (bLen / 4) bl).map (·.1)
      let ctx : AttCtx := { a := a, h := h, q := qs.map (fun y => (y.1, y.2.1)), bias := bias }
      let biasBad (r : Nat) : Bool := match a.biasMode with | 1 => poisElem bb 4 r | 2 => poisElem bb 256 r | _ => false
      let rows0 : List AttRow := qs.zipIdx.map (fun y => { o := List.replicate a.dim FP.zero, pois := y.1.2.2.2 || biasBad y.2 })
      let np := (h.count + 255) / 256
      let pages := freeOrder s.tick (List.range np)
      let r := pages.foldl (attPage c o ctx) { st := { s with tick := s.tick + np }, rows := rows0, sticky := orSt (qs.map (·.2.2.1)) }
      match r.stall with
      | some f => r.st.ssuStop c e f
      | none =>
        let s := r.st.modStack l (fun t => { t with attPages := satAdd t.attPages r.streamed })
        if r.stop = 0x3001 then s.ssuEnd c e 0x3001 0 0
        else if r.stop ≠ 0 then s.attStop l c e r.stop
        else
          let y := outRows a.final a.outFmt s.tick r.rows
          let s := { s with tick := s.tick + 256 * a.rows }
          let d0 := match r.rows with | x :: _ => x.seen | [] => 0
          s.attOut l c k e a.out y.1 y.2.1 (if r.rows.any (·.pois) then 0x3001 else 0) (r.sticky ||| y.2.2) (d0 % 2 ^ 32)

/-- ATTEND (R156). -/
def execAttend (ls fn k : Nat) (s : State) : Res := upDo s (fun s => s.ssuRow ls fn k 0x10 (fun s e => s.attend ls fn k e))

/-! ### MERGE (R157, R160) -/

/-- Triples of one row merged. -/
def mergeRow (d t : Nat) (xs : List AttRow) : AttRow × Sticky :=
  let n := xs.length
  let seen := min (xs.foldl (fun a x => a + x.seen) 0) (2 ^ 32 - 1)
  let pois := xs.any (·.pois)
  if xs.any (·.nan) then ({ o := List.replicate d FP.zero, seen := seen, nan := true, pois := pois }, stNanIn)
  else
    let m := xs.foldl (fun (a : FP) x => a.max x.m) (.inf true)
    if m == .inf true then ({ o := List.replicate d FP.zero, seen := seen, pois := pois }, 0)
    else
      let cs := xs.zipIdx.map (fun x => let y := addF {} x.1.m m.neg; let z := expF {} (Config.free (t + x.2)) y.1; (z.1, y.2 ||| z.2))
      let ls := (xs.zip cs).map (fun x => mulF {} x.1.l x.2.1)
      let l := freeSum 0 n (t + n) (ls.map (·.1))
      let os : List (FP × Sticky) := (List.range d).map (fun i =>
        let ps := (xs.zip cs).map (fun x => mulF {} (x.1.o[i]?.getD FP.zero) x.2.1)
        let z := freeSum 0 n (t + 3 * n + 2 * n * i) (ps.map (·.1))
        (z.1, z.2 ||| orSt (ps.map (·.2))))
      ({ m := m, l := l.1, o := os.map (·.1), seen := seen, pois := pois }, orSt [orSt (cs.map (·.2)), orSt (ls.map (·.2)), l.2, orSt (os.map (·.2))])

/-- A triple record read (Table 6.5). -/
def readTriple (d : Nat) (l : List Byte) (bad : Bool) : AttRow :=
  let ws := (List.range (d + 8)).map (fun i => f32 (fieldAt l (4 * i) 4))
  let m := ws.headD .nan
  let s := ws[1]?.getD .nan
  let o := ws.drop 8
  { m := m, l := s, o := o, seen := fieldAt l 8 4, nan := m == .nan || s == .nan || o.any (· == .nan), pois := bad }

/-- MERGE. -/
def State.merge (s : State) (l c k : Nat) (e : SsuCmd) : State :=
  let b := e.bytes
  let rows := dfield b 44 1 % 32
  let n := dfield b 45 1 % 128
  let d := 32 * (dfield b 46 1 % 16)
  let fl := dfield b 47 1
  let inA := dfield b 48 8 % 2 ^ 48
  let out := dfield b 56 8 % 2 ^ 48
  let rec_ := 32 + 4 * d
  let st := if dfield b 64 4 = 0 then rows * rec_ else dfield b 64 4
  let inLen := tableLen n (dfield b 64 4) (rows * rec_)
  let oLen := if fl % 2 = 1 then rows * d * (fmtBits (fl / 16) / 8) else rows * rec_
  if e.second then s
  else if rows = 0 ∨ n = 0 then s.ssuEnd c e 0 0 0
  else match s.absentOf c [(inA, inLen, false), (out, oLen, true)] with
    | some f => s.ssuStall c e f
    | none =>
      let (s, hold) := s.readGate (.desc c e.ring e.index) (s.vaPieces c inA inLen)
      if hold then s
      else
      let (s, il, ib) := s.vaRead c inA inLen
      let per := 3 * n + 2 * n * d
      let rs : List (AttRow × Sticky) := (List.range rows).map (fun r =>
        mergeRow d (s.tick + per * r) ((List.range n).map (fun i => let o := i * st + r * rec_; readTriple d ((il.drop o).take rec_) (poisElem (ib.drop o) rec_ 0))))
      let s := { s with tick := s.tick + per * rows }
      let o := outRows (fl % 2 == 1) (fl / 16) s.tick (rs.map (·.1))
      let s := { s with tick := s.tick + 256 * rows }
      s.attOut l c k e out o.1 o.2.1 (if rs.any (fun x => x.1.pois) then 0x3001 else 0) (orSt (rs.map (·.2)) ||| o.2.2) 0

/-- MERGE (R160). -/
def execMerge (ls fn k : Nat) (s : State) : Res := upDo s (fun s => s.ssuRow ls fn k 0x11 (fun s e => s.merge ls fn k e))

end Sys2Proof.Machine
end

