-- ==== Sys2Proof/Machine/Dispatcher.lean ====
section
/-! DEFINITION. The dispatcher: checks at enqueue, starts, ranks and completions of descriptors (R74, R76 to R81, R117, R118, R212, R280, R309, R310, R364). -/

namespace Sys2Proof.Machine

/-! ### Descriptor bodies (Tables 3.9 to 3.10, 5.2 to 5.6, 6.4, 6.6, 14.12) -/

/-- Bytes `lo` to `lo + n - 1` are zero. -/
def dzero (b : BitVec 1024) (lo n : Nat) : Bool := dfield b lo n == 0

def dtype (b : BitVec 1024) : Nat := dfield b 0 1
def dflags (b : BitVec 1024) : Nat := dfield b 1 1
def dclass (b : BitVec 1024) : Nat := dfield b 2 1
def dvector (b : BitVec 1024) : Nat := dfield b 3 1
def dirq (b : BitVec 1024) : Bool := dflags b % 2 == 1
def dnoCqe (b : BitVec 1024) : Bool := dflags b / 2 % 2 == 1
def dfence (b : BitVec 1024) : Bool := dflags b / 4 % 2 == 1
def dssuOp (b : BitVec 1024) : Nat := dfield b 32 1
def dls (b : BitVec 1024) : Nat := dfield b 33 1

/-- The posts of a descriptor that are enabled. -/
def dposts (b : BitVec 1024) : List (BitVec 32) :=
  ([0, 1].filter (fun k => bit (dpost b k) 49)).map (fun k => BitVec.ofNat 32 (bits (dpost b k) 31 0))

/-- The reserved fields of the header are zero, and its enabled post words are well formed (Table 3.9, R67). -/
def headOk (b : BitVec 1024) : Bool :=
  dflags b < 16 && (dtype b == 1 || dflags b < 8) && dclass b < 8 && dvector b < 32 &&
  [0, 1].all (fun k => bits (dwait b k) 14 9 == 0 && bits (dpost b k) 63 50 == 0 && bits (dpost b k) 48 32 == 0) &&
  (dposts b).all pwFormat

/-- Bits [63:48] of a virtual-address field are zero (R212). -/
def vaOk (b : BitVec 1024) (lo : Nat) : Bool := dzero b (lo + 6) 2

/-- SPACE of a GATHER or SCATTER far address is 0 or 3, with its unused bits zero (Table 3.5a). -/
def farOk (b : BitVec 1024) : Bool :=
  let w := BitVec.ofNat 64 (dfield b 64 8)
  bits w 53 48 == 0 && ((bits w 63 62 == 0 && bits w 61 54 == 0) || bits w 63 62 == 3)

/-- The body of WIN_OPEN or CLIP_NOISE. -/
def openOk (b : BitVec 1024) (clip : Bool) : Bool :=
  let cp := BitVec.ofNat 32 (dfield b 72 4)
  (clip || dzero b 40 8) && vaOk b 48 && dfield b 61 1 / 16 % 4 == 0 && (if clip then dfield b 62 1 < 32 else dzero b 62 1) &&
  dzero b 63 1 && dzero b 76 4 && pwKind cp != 3 && pwFormat cp

/-- The body of OPT_STEP. -/
def optOk (b : BitVec 1024) : Bool :=
  let a := dfield b 92 1
  let algo := a % 4
  let sh := a / 4 % 16
  dzero b 40 8 && [48, 56, 64, 72, 80].all (vaOk b) && algo != 3 && a / 64 != 3 && dfield b 93 1 < 8 && dfield b 93 1 % 4 < 2 &&
  dzero b 94 2 && dzero b 124 4 && (algo == 0 || !dzero b 96 4) && (algo != 0 || dzero b 72 8) && (dzero b 80 8 && sh != 15 && sh != 12 || (1 ≤ sh && sh ≤ 4))

/-- The body of GATHER or SCATTER. -/
def rowsOk (b : BitVec 1024) : Bool :=
  let m := dfield b 88 1
  dzero b 40 8 && vaOk b 48 && vaOk b 56 && farOk b && dfield b 80 4 % 32 == 0 && m < 32 && m % 16 != 15 && (m < 16 || m % 16 < 3) && dzero b 91 37

/-- The body of ATTEND (Table 6.4). -/
def attendOk (b : BitVec 1024) : Bool :=
  let a := attArgs b
  let rot := a.rotK || a.rotQ
  let fin1 (x : FP) (lo : FP) : Bool := x != .nan && lo.lt x
  [48, 56, 72, 80, 112].all (vaOk b) && dfield b 94 1 < 64 && a.mask != 3 && a.biasMode != 3 && dfield b 96 4 < 2 ^ 23 &&
  (if a.mask = 2 then a.wlen != 0 else a.wlen == 0) && a.cat % 64 == 0 && a.pool % 2048 == 0 && a.rows ≤ 16 &&
  !(a.biasMode == 2 && a.mask == 0) && decide (a.qpos + (a.rows - 1) / a.hpp < 2 ^ 23) &&
  (if rot then fin1 a.rbase (.fin false 1 0) && fin1 a.rscale FP.zero && a.rdim % 2 == 0 && 2 ≤ a.rdim && a.rdim ≤ a.dim else a.rdim == 0) &&
  a.qFmt ≤ 1 && (if a.final then a.outFmt ≤ 1 else a.outFmt == 0) && 32 ≤ a.dim && a.dim ≤ 256 && dfield b 111 1 < 16 &&
  (a.biasMode != 0 || dzero b 112 8)

/-- The body of MERGE (Table 6.6, R160). -/
def mergeOk (b : BitVec 1024) : Bool :=
  let rows := dfield b 44 1
  let fl := dfield b 47 1
  let d := 32 * dfield b 46 1
  let st := dfield b 64 4
  dzero b 40 4 && rows ≤ 16 && dfield b 45 1 ≤ 64 && 32 ≤ d && d ≤ 256 && fl / 2 % 8 == 0 && (if fl % 2 = 1 then fl / 16 ≤ 1 else fl / 16 == 0) &&
  vaOk b 48 && vaOk b 56 && (st == 0 || (rows * (32 + 4 * d) ≤ st && st % 32 == 0)) && dzero b 68 60

/-- The body of an SSU_CMD; a PF address is physical (R280). -/
def ssuOk (fn : Nat) (b : BitVec 1024) : Bool :=
  let op := dssuOp b
  dls b < 32 && bits (dssuWait b) 14 8 == 0 && ([1, 2, 3, 4, 5].contains op || dzero b 34 2) &&
  (match op with
   | 0x01 => openOk b false
   | 0x05 => openOk b true
   | 0x02 => dzero b 40 88
   | 0x03 => dzero b 40 88
   | 0x04 => dzero b 40 8 && vaOk b 48 && dfield b 64 2 < 4096 && !dzero b 66 2 && dzero b 68 60
   | 0x08 => optOk b
   | 0x09 => rowsOk b
   | 0x0A => rowsOk b
   | 0x0B => dzero b 40 8 && (fn == 0 || vaOk b 48) && dfield b 64 1 < 3 && dzero b 65 63
   | 0x0C => dzero b 40 8 && vaOk b 48 && dfield b 48 8 % 128 == 0 && dfield b 56 8 % 128 == 0 && dfield b 64 1 < 2 && dzero b 65 63
   | 0x0D => dzero b 40 8 && dfield b 48 1 < 64 && dzero b 49 79
   | 0x10 => attendOk b
   | 0x11 => mergeOk b
   | _ => false)

/-! ### STORAGE (R306, R309, R310) -/

/-- The STO_NS entry of a compartment's handle. -/
def State.stoGrant (s : State) (c h : Nat) : Option (BitVec 64) :=
  (s.sto.grants.find? (fun e => bit e.2 63 && bits e.2 59 54 == c && bits e.2 53 50 == h)).map (·.2)

/-- The namespace of an entry. -/
def State.stoSpace (s : State) (g : BitVec 64) : NameSpace := (s.drive (bits g 61 60)).ns.look (bits g 31 0) {}

/-- LBA size of a namespace in bytes. -/
def NameSpace.lba (n : NameSpace) : Nat := if n.lba4k then 4096 else 512

def stOp (b : BitVec 1024) : Nat := dfield b 32 1
def stHandle (b : BitVec 1024) : Nat := dfield b 33 1
def stPlain (b : BitVec 1024) : Bool := dfield b 34 1 / 128 == 1
def stKey (b : BitVec 1024) : Nat := dfield b 34 1 % 8
def stSeal (b : BitVec 1024) : Nat := 2 ^ dfield b 35 1
def stCount (b : BitVec 1024) : Nat := dfield b 36 4
def stData (b : BitVec 1024) : Nat := dfield b 40 8
def stTag (b : BitVec 1024) : Nat := dfield b 48 8
def stVa (b : BitVec 1024) : Nat := dfield b 56 8 % 2 ^ 48
def stObj (b : BitVec 1024) : Nat := dfield b 64 8
def stBlk (b : BitVec 1024) : Nat := dfield b 72 8

/-- Encodings of a STORAGE body (R310 step 1). -/
def State.storageOk (s : State) (c : Nat) (b : BitVec 1024) : Bool :=
  let op := stOp b
  if op = 3 then stHandle b < 16
  else
    let align := match s.stoGrant c (stHandle b) with
      | some g => op != 2 || (32 * stBlk b % (s.stoSpace g).lba == 0 && 32 * stCount b % (s.stoSpace g).lba == 0)
      | none => true
    (op == 1 || op == 2) && stHandle b < 16 && dfield b 34 1 / 8 % 16 == 0 && 12 ≤ dfield b 35 1 && dfield b 35 1 ≤ 18 && vaOk b 56 && dzero b 80 48 && align

/-- Step 5 of a STORAGE descriptor. -/
def State.storageUnit (s : State) (c : Nat) (b : BitVec 1024) : BitVec 16 :=
  let m := s.cmpt c
  if !bit s.inv.units 3 then 0x1004
  else match s.stoGrant c (stHandle b) with
    | none => 0x5301
    | some g =>
      if stOp b = 2 ∧ !bit g 62 then 0x5301
      else if (s.drive (bits g 61 60)).st != .ready || !(s.stoSpace g).usable then 0x5306
      else if stOp b = 3 then 0
      else if stPlain b && m.vitrine then 0x7002
      else if m.vitrine && stOp b == 2 && (m.role == 2 || (m.role == 1 && stKey b != 7)) then 0x7002
      else if !stPlain b && !(m.keys.look (stKey b) {}).loaded then 0x5302 else 0

/-- Step 7 of a STORAGE descriptor: the blocks lie within the segment, and their data and tags within the namespace. -/
def State.storageLen (s : State) (c : Nat) (b : BitVec 1024) : BitVec 16 :=
  let n := stCount b
  if stOp b = 3 ∨ n = 0 then 0
  else match s.stoGrant c (stHandle b) with
    | none => 0
    | some g =>
      let sp := s.stoSpace g
      let dEnd := stData b * sp.lba + (stBlk b + n) * stSeal b
      let tEnd := stTag b * sp.lba + 32 * (stBlk b + n)
      if s.lenCode c (stVa b) (n * stSeal b) != 0 || decide (sp.cap * sp.lba < dEnd) || (!stPlain b && decide (sp.cap * sp.lba < tEnd)) then 0x1002 else 0

/-! ### Address fields (R211, R212, R117) -/

/-- An address field: virtual address, permission, length, whether it is marked on LSTACK, and whether a peer segment may serve it. -/
structure Field where
  va : Nat
  need : Nat → Bool
  len : Nat
  onLs : Bool := false
  peer : Bool := false

/-- The address fields of a descriptor in ascending byte order. -/
def descFields (b : BitVec 1024) : List Field :=
  let va (k : Nat) : Nat := dfield b k 8 % 2 ^ 48
  match dtype b with
  | 1 => [{ va := va 32, need := needR, len := dfield b 40 4 }, { va := va 48, need := needR, len := dfield b 56 4 }]
  | 2 => [{ va := va 32, need := needR, len := dfield b 48 8, peer := true }, { va := va 40, need := needW, len := dfield b 48 8, peer := true }]
  | 4 =>
    let far (w : Nat → Bool) (n : Nat) : List Field := if dfield b 64 8 / 2 ^ 62 = 0 then [{ va := va 64, need := w, len := n * dfield b 80 4 }] else []
    match dssuOp b with
    | 0x01 => [{ va := va 48, need := needWorRed, len := 4 * dfield b 56 4, onLs := true }]
    | 0x05 => [{ va := va 48, need := needWorRed, len := 4 * dfield b 56 4, onLs := true }]
    | 0x04 => [{ va := va 48, need := needR, len := dfield b 56 4 }]
    | 0x08 =>
      let n := dfield b 88 4
      [{ va := va 48, need := needRW, len := 4 * n, onLs := true }, { va := va 56, need := needRW, len := 4 * n, onLs := true }, { va := va 64, need := needRW, len := 4 * n, onLs := true }] ++
        (if dfield b 92 1 % 4 = 0 then [] else [{ va := va 72, need := needRW, len := 4 * n, onLs := true }]) ++
        (if dfield b 80 8 = 0 then [] else [{ va := va 80, need := needW, len := n * fmtBits (dfield b 92 1 / 4 % 16) / 8, onLs := true }])
    | 0x09 =>
      let n := dfield b 72 4
      let bag := if dfield b 88 1 / 16 % 4 = 1 then dfield b 89 2 else 1
      [{ va := va 48, need := needR, len := if n = 0 then 0 else tableLen (dfield b 76 4) (dfield b 84 4) (dfield b 80 4), onLs := true }, { va := va 56, need := needR, len := 4 * n * bag }] ++ far needW n
    | 0x0A =>
      let n := dfield b 72 4
      [{ va := va 48, need := needRW, len := if n = 0 then 0 else tableLen (dfield b 76 4) (dfield b 84 4) (dfield b 80 4), onLs := true }, { va := va 56, need := needR, len := 4 * n }] ++ far needR n
    | 0x0B => [{ va := va 48, need := needW, len := dfield b 56 8 }]
    | 0x0C => [{ va := va 48, need := needW, len := dfield b 56 8, onLs := true }]
    | 0x10 =>
      let a := attArgs b
      let z := decide (a.rows = 0)
      let outLen := a.rows * (if a.final then a.dim * (fmtBits a.outFmt / 8) else 32 + 4 * a.dim)
      let biasLen := match a.biasMode with | 1 => 4 * a.rows | 2 => 256 * a.rows | _ => 0
      [{ va := a.cat, need := needRorAtt, len := if z then 0 else a.catLen, onLs := true }, { va := a.pool, need := needRorAtt, len := if z then 0 else a.poolLen, onLs := true },
       { va := a.q, need := needR, len := a.rows * a.dim * (fmtBits a.qFmt / 8) }, { va := a.out, need := needW, len := outLen, peer := true }] ++
        (if a.biasMode = 0 then [] else [{ va := a.bias, need := needR, len := biasLen }])
    | 0x11 =>
      let rows := dfield b 44 1
      let n := dfield b 45 1
      let d := 32 * dfield b 46 1
      let blk := rows * (32 + 4 * d)
      let live := rows != 0 && n != 0
      let outLen := if dfield b 47 1 % 2 = 1 then rows * d * (fmtBits (dfield b 47 1 / 16) / 8) else blk
      [{ va := va 48, need := needR, len := if live then tableLen n (dfield b 64 4) blk else 0, onLs := true }, { va := va 56, need := needW, len := if live then outLen else 0, peer := true }]
    | _ => []
  | 5 => if stOp b = 3 then [] else [{ va := stVa b, need := if stOp b = 1 then needW else needR, len := stCount b * stSeal b }]
  | _ => []

/-- Whether the extent of a field, cut at its segment's limit, lies on one logical stack (R117). -/
def State.onStack (s : State) (c ls va len : Nat) : Bool :=
  let e := s.seg c (vaSeg va)
  let x := vaOff va
  let last := max x (min (x + len) e.limit - 1)
  let at_ (y : Nat) : Bool := match s.place c (vaSeg va) e y with | .phys a => inStacks a && paLs a == ls | _ => false
  match e.typ with
  | 1 => at_ x && at_ last && decide (last < x + 2048)
  | 3 => (match (s.cmpt c).plan with | some r => bits r.landing 62 58 == ls | none => false)
  | _ => at_ x && at_ last

/-- The translation of one field: SEG_INVALID, SEG_PERM, SEG_RANGE, then SSU_STACK. A peer segment serves only the fields of Table 15.5, and a STORAGE address only device memory; PARITY takes a guarded segment. -/
def State.fieldCode (s : State) (c : Nat) (b : BitVec 1024) (f : Field) : BitVec 16 :=
  let x := s.xlatCode c f.va f.need f.len
  let t := (s.seg c (vaSeg f.va)).typ
  if x = 0x2001 then x
  else if (t == 4 && !f.peer && !f.onLs) || (dtype b == 5 && t == 3) then 0x2002
  else if x != 0 then x
  else if dtype b = 4 ∧ dssuOp b = 0x0B ∧ t ≠ 1 then 0x2004
  else if f.onLs && !s.onStack c (dls b) f.va f.len then 0x400C else 0

/-- A translation kept by the descriptor. -/
def State.xlatOf (s : State) (c : Nat) (f : Field) : XLat :=
  let e := s.seg c (vaSeg f.va)
  { seg := vaSeg f.va, gen := BitVec.ofNat 8 e.gen, off := vaOff f.va, entry := e }

/-! ### The checks of R77 -/

/-- Step 1: type and reserved fields. -/
def State.checkForm (s : State) (fn : Nat) (b : BitVec 1024) : BitVec 16 :=
  let body := match dtype b with
    | 1 => vaOk b 32 && vaOk b 48 && dzero b 96 32
    | 2 => vaOk b 32 && vaOk b 40 && dfield b 58 1 < 16 && hintOk (dfield b 58 1) && dzero b 59 69 &&
        !((s.opPeer fn (.va (dfield b 32 8))).isSome && (s.opPeer fn (.va (dfield b 40 8))).isSome)
    | 3 => dzero b 32 96
    | 4 => ssuOk fn b
    | 5 => s.storageOk fn b
    | _ => false
  if headOk b && body then 0 else 0x1001

/-- Step 2: what the PF may submit, and the class (R243, R280). -/
def State.checkClass (s : State) (fn : Nat) (b : BitVec 1024) : BitVec 16 :=
  if fn = 0 ∧ ¬ (dtype b = 3 ∨ (dtype b = 4 ∧ (dssuOp b = 0x0B ∨ dssuOp b = 0x0D))) then 0x7001
  else if dclass b = 0 then 0x1009
  else if fn = 0 then (if bit (s.clsCmpts.look (dclass b) 0) 0 then 0 else 0x1009)
  else match (s.cmpt fn).plan with
    | some r => if bit r.classes (dclass b) then 0 else 0x1009
    | none => 0x1009

/-- An SSU counter that the PF may use is one that no compartment is allotted (R280). -/
def State.ssuCtrOk (s : State) (fn l i : Nat) : Bool := if fn = 0 then (s.ssuOwner l i).isNone else s.ssuAllotted l fn i

/-- Step 3: wait and post counters (R67, R118). -/
def State.checkCtr (s : State) (fn : Nat) (b : BitVec 1024) : BitVec 16 :=
  let waits := [0, 1].all (fun k => !bit (dwait b k) 15 || s.granted fn (bits (dwait b k) 8 0 / 8))
  let posts := (dposts b).all (s.postOk fn)
  let ssu := dtype b != 4 ||
    ((!bit (dssuWait b) 15 || s.ssuCtrOk fn (dls b) (bits (dssuWait b) 7 0)) &&
     (!(dssuOp b == 1 || dssuOp b == 5) || s.postOk fn (BitVec.ofNat 32 (dfield b 72 4))))
  if waits && posts && ssu then 0 else 0x1005

/-- Step 4: VECTOR and ENTRY. -/
def State.checkVec (s : State) (fn : Nat) (b : BitVec 1024) : BitVec 16 :=
  let entry := dtype b != 1 || (dfield b 44 4 % 2 == 0 && (dfield b 40 4 == 0 || dfield b 44 4 < dfield b 40 4))
  if dvector b < s.nvec fn && entry then 0 else 0x1001

/-- Whether the core of a placement rank is in service (R415). -/
def State.rankUp (s : State) (c r : Nat) : Bool := match s.rankCore c r with | some (d, _) => !invBit s.inv.fenced d | none => true

/-- Step 5: unit presence and the paths of confidential compartments (R3, R117, R145, R310, R364, R415). -/
def State.checkUnit (s : State) (fn : Nat) (b : BitVec 1024) : BitVec 16 :=
  match dtype b with
  | 1 => if ((List.range (dfield b 62 2)).all (fun k => s.rankUp fn (dfield b 60 2 + k))) then 0 else 0x1004
  | 2 =>
    if dfield b 48 8 != 0 && !s.rankUp fn (dfield b 56 2) then 0x1004
    else s.peerCode fn ((s.opPeer fn (.va (dfield b 32 8 % 2 ^ 48))).isSome || (s.opPeer fn (.va (dfield b 40 8 % 2 ^ 48))).isSome)
  | 4 =>
    if !s.served (dls b) then 0x1004
    else if dssuOp b = 0x10 ∨ dssuOp b = 0x11 then
      if !bit s.inv.units 1 then 0x1004
      else s.peerCode fn (s.opPeer fn (.va (dfield b (if dssuOp b = 0x10 then 80 else 56) 8 % 2 ^ 48))).isSome
    else 0
  | 5 => s.storageUnit fn b
  | _ => 0

/-- Step 6: translation in ascending byte order; a PARITY BASE of the PF is a physical address in a guarded area (R212, R280). -/
def State.checkXlat (s : State) (fn : Nat) (b : BitVec 1024) : BitVec 16 :=
  if fn = 0 then
    if dtype b = 4 ∧ dssuOp b = 0x0B ∧ !(inStacks (dfield b 48 8) && s.isGuarded (paLs (dfield b 48 8)) (paOff (dfield b 48 8))) then 0x2004 else 0
  else orElse ((descFields b).map (s.fieldCode fn b))

/-- Step 7: lengths and counts (R80). -/
def State.checkLen (s : State) (fn : Nat) (b : BitVec 1024) : BitVec 16 :=
  if fn = 0 then 0
  else
    let fields := if dtype b = 5 then 0 else orElse ((descFields b).map (fun f => s.lenCode fn f.va f.len))
    let rest : BitVec 16 := match dtype b with
      | 1 =>
        if (dfield b 62 2 != 0 && decide (s.nranks fn < dfield b 60 2 + dfield b 62 2)) || decide (0x4_0000 < dfield b 40 4 + roundUp (dfield b 56 4) 64) then 0x1002 else 0
      | 2 => if dfield b 56 2 < s.nranks fn then 0 else 0x1002
      | 4 =>
        if dssuOp b = 0x09 ∨ dssuOp b = 0x0A then
          let m := s.movAddr 0 0 fn (BitVec.ofNat 64 (dfield b 64 8))
          if dfield b 64 8 / 2 ^ 62 = 3 then s.movLen fn m.2 (dfield b 72 4 * dfield b 80 4) else 0
        else 0
      | 5 => s.storageLen fn b
      | _ => 0
    orElse [fields, rest]

/-- The step at which a descriptor is refused and its code; step 0 when it passes (R77). -/
def State.checkDesc (s : State) (fn : Nat) (b : BitVec 1024) : Nat × BitVec 16 :=
  let codes := [s.checkForm fn b, s.checkClass fn b, s.checkCtr fn b, s.checkVec fn b, s.checkUnit fn b, s.checkXlat fn b, s.checkLen fn b]
  match findPos (· != 0) codes with
  | some k => (k + 1, codes[k]?.getD 0)
  | none => (0, 0)

/-! ### Enqueue (R74, R77, R78) -/

/-- The next fetched descriptor of a ring in ring order, and the ring after its consumption, its head advanced (R74). -/
def SubRing.consume (r : SubRing) : Option (Nat × BitVec 1024 × SubRing) :=
  match r.old with
  | (i, b) :: t =>
    let live := decide (r.old.length ≤ r.oldLive)
    some (i, b, { r with old := t, oldLive := min r.oldLive t.length, head := if live then (r.head + 1) % ringSize r.ctrl else r.head })
  | [] =>
    if ringOn r.ctrl && r.fetched.has r.head then
      some (r.head, r.fetched.look r.head 0, { r with fetched := r.fetched.del r.head, head := (r.head + 1) % ringSize r.ctrl })
    else none

/-- A fetched descriptor is checked and takes its place in its ring; one that arrived with EP = 1 is refused with POISON (R301). -/
def State.enqueue (s : State) (fn k : Nat) : State :=
  if s.cstate fn != .ready || decide (64 ≤ fn) || decide (4 ≤ k) then s
  else match ((s.cmpt fn).ring k).consume with
    | none => s
    | some (i, b, r) =>
      let (step, code) := if r.bad.contains i then (1, 0x3001) else s.checkDesc fn b
      let r := { r with bad := r.bad.filter (· != i) }
      let (n, s) := s.nextSerial
      let d : Desc := { bytes := b, index := i, id := n, step := step, code := code, xlats := if step = 0 ∧ fn ≠ 0 then (descFields b).map (s.xlatOf fn) else [] }
      (s.modRing fn k (fun _ => { r with descs := r.descs ++ [d] })).fetch fn

/-- DESCRIPTOR_ENQUEUE (R77). -/
def execDescriptorEnqueue (fn k : Nat) (s : State) : Res := upDo s (fun s => s.enqueue fn k)

/-! ### Start (R74, R78, R118, R221, R276) -/

/-- Whether a core runs no launch. -/
def State.coreFree (s : State) (d i : Nat) : Bool := isTileDie d && decide (i < 8) && (s.core d i).run.isNone && !invBit s.inv.fenced d

/-- Queue entries of a stack that compartment `c` may still use; the PF uses those that no compartment is allotted (R118). -/
def State.queueRoom (s : State) (l c : Nat) : Bool :=
  let t := s.stack l
  let used := (List.range 4).foldl (fun n k => n + (t.queue c k).length) 0
  let room := if c = 0 then 1024 - t.allot.foldl (fun n e => n + bits e.2 9 0) 0 else bits (t.allot.look c 0) 9 0
  decide (used < room)

/-- A COPY performed, or carried on, by the mover of its RANK's core. -/
def State.descCopy (s : State) (fn k : Nat) (d : Desc) : State :=
  let b := d.bytes
  let n := dfield b 48 8
  let src : MovAddr := .va (dfield b 32 8 % 2 ^ 48)
  let dst : MovAddr := .va (dfield b 40 8 % 2 ^ 48)
  let clip := orElse [s.movClip fn src n false false, s.movClip fn dst n true false]
  if clip != 0 then s.modDesc fn k d.id (fun d => { d with st := .done, code := firstCode d.code clip })
  else
    let die := match s.rankCore fn (dfield b 56 2) with | some (d, _) => d | none => 0
    let chunks := chunksOf 1 n 0 0
    let c := s.copyFrom die fn (.desc fn k d.id) src dst chunks d.prog (dfield b 58 1)
    c.st.modDesc fn k d.id (fun d =>
      let d := { d with prog := c.done, pend := d.pend + c.ops, code := firstCode d.code (if c.pois then 0x3001 else 0) }
      if c.done < chunks.length ∨ d.pend ≠ 0 then { d with st := .running } else { d with st := .done })

/-- A started COPY whose next chunk no longer waits in a fault record (R215). -/
def State.stalledCopy (s : State) (fn k : Nat) : Option Desc :=
  ((s.cmpt fn).ring k).descs.find? (fun d => d.st == .running && dtype d.bytes == 2 && decide (d.prog < (dfield d.bytes 48 8 + 4095) / 4096) &&
    !(s.cmpt fn).frecs.any (fun e => e.2.waiters.any (fun w => w.origin == .desc fn k d.id)))

/-- The effect of starting an accepted descriptor whose mappings hold; unchanged when what it needs is busy. -/
def State.beginDesc (s : State) (fn k : Nat) (d : Desc) : State :=
  let b := d.bytes
  let set (s : State) (f : Desc → Desc) : State := s.modDesc fn k d.id f
  match dtype b with
  | 1 =>
    let rs := (List.range (dfield b 62 2)).map (· + dfield b 60 2)
    if rs.isEmpty then set s (fun d => { d with st := .done })
    else if rs.any (fun r => match s.rankCore fn r with | some (x, i) => s.coreFree x i | none => false) then
      let n := (s.cmpt fn).launches + 1
      set (s.modCmpt fn (fun m => { m with launches := n })) (fun d => { d with st := .running, launch := n, left := rs })
    else s
  | 2 => if dfield b 48 8 = 0 then set s (fun d => { d with st := .done }) else s.descCopy fn k d
  | 4 =>
    if !s.served (dls b) then set s (fun d => { d with st := .done, code := 0x1004 })
    else if s.queueRoom (dls b) fn then
      let s := s.modStack (dls b) (fun t => t.setQueue fn k (t.queue fn k ++ [{ ring := k, index := d.id, bytes := b, xlats := d.xlats }]))
      set s (fun d => { d with st := .running })
    else s
  | 5 =>
    if stOp b ≠ 3 ∧ stCount b = 0 then set s (fun d => { d with st := .done })
    else
      let code := s.storageUnit fn b
      if code != 0 then set s (fun d => { d with st := .done, code := code }) else set s (fun d => { d with st := .running, grant := (s.stoGrant fn (stHandle b)).getD 0 })
  | _ => set s (fun d => { d with st := .done })

/-- The next descriptor of a ring starts, in ring order: its waits hold, its FENCE is satisfied, every rank of an earlier launch has a core, and no epoch holds its compartment back. A refused one completes with its code, and one whose mapping was withdrawn with STALE_MAP. -/
def State.startDesc (s : State) (fn k : Nat) : State :=
  if s.cstate fn != .ready || decide (64 ≤ fn) || decide (4 ≤ k) then s
  else
    let s := match s.stalledCopy fn k with
      | some d => if s.stale fn d.xlats then s.modDesc fn k d.id (fun d => { d with st := .done, code := firstCode 0x2003 d.code }) else s.descCopy fn k d
      | none => s
    let ds := ((s.cmpt fn).ring k).descs
    match findPos (fun d => d.st == .waiting) ds with
    | none => s
    | some p =>
      match ds[p]? with
      | none => s
      | some d =>
        let before := ds.take p
        if before.any (fun e => !e.left.isEmpty) || (dfence d.bytes && decide (p ≠ 0)) || !s.descWaits d || s.epochHolds fn then s
        else if d.step ≠ 0 then s.modDesc fn k d.id (fun d => { d with st := .done })
        else if s.stale fn d.xlats then s.modDesc fn k d.id (fun d => { d with st := .done, code := 0x2003 })
        else s.beginDesc fn k d

/-- DESCRIPTOR_START (R74). -/
def execDescriptorStart (fn k : Nat) (s : State) : Res := upDo s (fun s => s.startDesc fn k)

/-! ### Ranks (R79) -/

/-- The dispatcher's snapshot of a core's counters, which restarts its tally (R70). -/
def State.snapshot (s : State) (d i : Nat) : State :=
  { s with snaps := s.snaps.put (8 * d + i) { snap := (s.core d i).cnt, tally := [] } }

/-- Free values that a kernel's registers take at its start. -/
def kernelDraws : Nat := 128

/-- The registers of a kernel that enters user mode, its instruction cache invalid: a0 to a6 and sp as R79 gives them, and the others free, fcsr and the vector registers' control registers among them. -/
def kernelRegs (b : BitVec 1024) (rank t : Nat) (c : Core) : Core :=
  let base : Nat := 0x0001_0000_0100_0000
  let fixed : List (Nat × Nat) := [(2, 0x0001_0000_0104_0000), (10, rank - dfield b 60 2), (11, dfield b 62 2), (12, dfield b 64 8), (13, dfield b 72 8),
    (14, dfield b 80 8), (15, dfield b 88 8), (16, base + roundUp (dfield b 40 4) 64)]
  let free (k : Nat) : Nat := Config.free (t + k)
  { c with
    x := fixed.foldl (fun x e => x.put e.1 (BitVec.ofNat 64 e.2)) ((List.range 31).foldl (fun x k => x.put (k + 1) (BitVec.ofNat 64 (free k))) [])
    f := (List.range 32).map (fun k => (k, BitVec.ofNat 64 (free (32 + k))))
    v := (List.range 32).map (fun k => (k, BitVec.ofNat 1024 (free (64 + k))))
    csr := [0x003, 0x008, 0x00F, 0xC20, 0xC21].zipIdx.foldl (fun t e => t.put e.1 (BitVec.ofNat 64 (free (96 + e.2)))) c.csr
    pc := BitVec.ofNat 64 (base + dfield b 44 4), user := true, tw := true, icStale := [], resv := none }

/-- A rank starts on its free core: the launch stub's steps in order. A copy that meets an absent page waits in its fault record, and a rank whose mapping was withdrawn fails with STALE_MAP. A replayed rank keeps its counters and its snapshot (R408). -/
def State.startRank (s : State) (fn k : Nat) (e : Desc) (rank d i : Nat) : State :=
  let b := e.bytes
  let o : Origin := .rank fn k e.id rank
  let kl := dfield b 40 4
  let al := dfield b 56 4
  let kv := dfield b 32 8 % 2 ^ 48
  let av := dfield b 48 8 % 2 ^ 48
  let rp := e.replay.contains rank
  if s.stale fn e.xlats then s.modDesc fn k e.id (fun x => x.rankEnd rank 0x2003 0 0)
  else if orElse [s.rangeCode fn kv kl false, s.rangeCode fn av al false] != 0 then
    s.modDesc fn k e.id (fun x => x.rankEnd rank (orElse [s.rangeCode fn kv kl false, s.rangeCode fn av al false]) 0 0)
  else match s.absentOf fn [(kv, kl, false), (av, al, false)] with
    | some (sg, pg, va, _) => s.pageFault fn sg pg va { origin := o, write := false, va := va }
    | none =>
      if s.readWaits (s.vaPieces fn kv kl ++ s.vaPieces fn av al) then s
      else
      let s := s.offer 0 0 (dclass b) fn false (s.vaPieces fn kv kl ++ s.vaPieces fn av al)
      let s := s.modCore d i (fun c => { c with qstat := [], cnt := if dflags b / 8 % 2 = 1 ∧ !rp then [] else c.cnt })
      let base := scratchBase d i
      let (s, l, bad) := s.vaRead fn kv kl
      let s := (s.writePieces fn (if kl = 0 then [] else [(base, kl)]) l bad).1
      let (s, l, bad) := s.vaRead fn av al
      let s := (s.writePieces fn (if al = 0 then [] else [(base + roundUp kl 64, al)]) l bad).1
      let t := s.tick
      let s := { s with tick := t + kernelDraws }
      let s := s.modCore d i (fun c => { kernelRegs b rank t c with run := some { cmpt := fn, ring := k, index := e.id, cls := BitVec.ofNat 3 (dclass b), rank := rank, launch := e.launch } })
      let s := s.modDesc fn k e.id (fun x => { x with left := x.left.filter (· != rank), replay := x.replay.filter (· != rank), going := x.going ++ [rank] })
      if rp then s else s.snapshot d i

/-- The first rank of a launch that has no core yet and whose core is free starts. -/
def State.rankStart (s : State) (fn k index : Nat) : State :=
  if s.cstate fn != .ready then s
  else match ((s.cmpt fn).ring k).descs.find? (fun e => e.index == index && e.st == .running && dtype e.bytes == 1 && !e.left.isEmpty) with
    | none => s
    | some e =>
      match e.left.find? (fun r => match s.rankCore fn r with | some (d, i) => s.coreFree d i | none => false) with
      | none => s
      | some r => match s.rankCore fn r with | some (d, i) => s.startRank fn k e r d i | none => s

/-- RANK_START (R79). -/
def execRankStart (fn k index : Nat) (s : State) : Res := upDo s (fun s => s.rankStart fn k index)

/-- The status of a finished rank: CP_TRAP, then KERNEL_ERROR, then the first failure in COR_QSTAT in queue order (R79). -/
def Core.rankCode (c : Core) (r : RankRun) : BitVec 16 :=
  if r.code != 0 then r.code
  else ((List.range 6).findSome? (fun q => let v := c.qstat.look q 0; if bit v 31 then some (BitVec.ofNat 16 (bits v 15 0)) else none)).getD 0

/-- A rank finishes: its kernel has exited and its six queues are empty. -/
def State.rankFinish (s : State) (d i : Nat) : State :=
  match (s.core d i).run with
  | none => s
  | some r =>
    let c := s.core d i
    if !r.exited || c.portWait.isSome || !(List.range 6).all (fun q => (c.queue q).isEmpty) then s
    else
      let s := s.snapshot d i
      let s := s.modCore d i (fun c => { c with run := none, user := false })
      s.modDesc r.cmpt r.ring r.index (fun e => e.rankEnd r.rank (c.rankCode r) (if r.code != 0 then r.detail else 0) r.sticky)

/-- RANK_FINISH (R79). -/
def execRankFinish (die core : Nat) (s : State) : Res := upDo s (fun s => if isTileDie die ∧ core < 8 then s.rankFinish die core else s)

/-! ### Completion (R78, R81, R286) -/

/-- The completion entry of a descriptor but for its phase (Table 3.11). -/
def descEntry (k : Nat) (d : Desc) (code : BitVec 16) (detail : BitVec 64) : BitVec 256 :=
  BitVec.ofNat 256 (dfield d.bytes 4 4 + 2 ^ 32 * code.toNat + 2 ^ 48 * d.sticky.toNat + 2 ^ 78 * (k % 4) + 2 ^ 80 * (d.index % 65536)
    + 2 ^ 96 * (d.failed.length % 65536) + 2 ^ 112 * (match d.failed with | r :: _ => r % 65536 | [] => 65535) + 2 ^ 128 * detail.toNat)

/-- A descriptor whose effects are performed completes: its posts are delivered, its entry is written unless NO_CQE suppresses it on success, and the entry's vector is raised when IRQ is set. -/
def State.completeDesc (s : State) (fn k index : Nat) : State :=
  match ((s.cmpt fn).ring k).descs.find? (fun d => d.index == index && d.st == .done) with
  | none => s
  | some d =>
    if s.cstate fn != .ready || s.deltasOut fn then s
    else
      let s := (s.modRing fn k (fun r => { r with descs := r.descs.filter (fun x => !(x.id == d.id && x.st == .done)) })).dropSsu fn k d.id
      let ps := if 1 ≤ d.step ∧ d.step ≤ 4 then [] else dposts d.bytes
      let code := ps.foldl (fun c w => firstCode c (s.postFate fn w)) d.code
      let s := ps.foldl (fun s w => s.applyPost { cmpt := fn, word := w }) s
      let s := if dnoCqe d.bytes && !isFailure code then s
        else s.complete fn { bytes := descEntry k d code (if s.sealedDetail fn then 0 else d.detail), vector := if dirq d.bytes then some (dvector d.bytes) else none }
      s.fetch fn

/-- DESCRIPTOR_COMPLETE (R81). -/
def execDescriptorComplete (fn k index : Nat) (s : State) : Res := upDo s (fun s => s.completeDesc fn k index)

end Sys2Proof.Machine
end

