-- ==== Sys2Proof/Machine/Mesh.lean ====
section
/-! DEFINITION. The package mesh: topology, routers, end-to-end checks, die-to-die links, and regulators (R14, R15, R223 to R250). -/

namespace Sys2Proof.Machine

/-! ### Topology (R13, R14, Tables 0.3 and 10.1) -/

/-- The die at a grid position. -/
def gridDie (p : Nat × Nat) : Option Nat :=
  if (diePos 0).contains p then some 0 else (diePositions.findIdx? (· == p)).map (· + 1)

/-- Neighbours of the hub's links 0 to 7. -/
def hubLinks : List Nat := [9, 29, 30, 16, 31, 20, 32, 13]

/-- The die a link leads to: links 0 to 3 of a tile lead to +x, +y, −x, −y. -/
def neighbour (d l : Nat) : Option Nat :=
  if d = 0 then hubLinks[l]?
  else match diePositions[d - 1]? with
    | none => none
    | some (x, y) => match l with
      | 0 => gridDie (x + 1, y)
      | 1 => gridDie (x, y + 1)
      | 2 => if x = 0 then none else gridDie (x - 1, y)
      | 3 => if y = 0 then none else gridDie (x, y - 1)
      | _ => none

/-- Links of a router. -/
def linkCount (d : Nat) : Nat := if d = 0 then 8 else 4

/-- The other end of a link. -/
def farEnd (d l : Nat) : Option (Nat × Nat) :=
  match neighbour d l with
  | none => none
  | some n => ((List.range (linkCount n)).find? (fun k => neighbour n k == some d)).map (fun k => (n, k))

/-- Whether a die is a graft site. -/
def isGraft (d : Nat) : Bool := decide (29 ≤ d) && decide (d ≤ 32)

/-- The link of a die's router at one end. -/
def State.link (s : State) (d l : Nat) : Link := (s.router d).links.look l {}

/-- One end of a link changed. -/
def State.modLink (s : State) (d l : Nat) (f : Link → Link) : State := s.modRouter d (fun r => { r with links := r.links.put l (f (r.links.look l {})) })

/-- Both ends of a link changed; the end at a graft site is not a router's. -/
def State.modLinks (s : State) (d l : Nat) (f : Link → Link) : State :=
  let s := s.modLink d l f
  match farEnd d l with | some (n, k) => if n ≤ 28 then s.modLink n k f else s | none => s

/-- Full width of a link in modules: 2 for a graft–tile link and 4 otherwise, or the width that accession negotiated where that is smaller (R236). -/
def State.fullWidth (s : State) (d l : Nat) : Nat :=
  let n := neighbour d l
  let g := isGraft d || (match n with | some n => isGraft n | none => false)
  let w := if g && d != 0 && n != some 0 then 2 else 4
  let k := (s.link d l).nego
  if g && k != 0 then min w k else w

/-! ### Route entries (R231, R232, Table 10.6) -/

/-- The base entry of a router for a destination. -/
def State.baseEntry (s : State) (d t : Nat) : BitVec 16 := (s.base.look d []).look t 0

/-- The entry in force under a route set. -/
def State.routeIn (s : State) (set d t : Nat) : BitVec 16 :=
  match (if set = 0 then none else ((s.detours.look set (0, [])).2.find? (fun e => e.1 == d && e.2.1 == t)).map (fun e => e.2.2)) with
  | some e => e
  | none => s.baseEntry d t

/-- The entry in force at a router. -/
def State.route (s : State) (d t : Nat) : BitVec 16 := s.routeIn (s.router d).set d t

/-- The link an escape entry names; none for the local port. -/
def escLink (e : BitVec 16) : Option Nat := if bits e 3 0 = 0 then none else some (bits e 3 0 - 1)

/-- Hops of the base set's path from one die to another. -/
def State.hopsGo (s : State) : Nat → Nat → Nat → Nat
  | 0, _, _ => 1000
  | fuel + 1, d, t =>
    if d = t then 0
    else match escLink (s.baseEntry d t) with
      | some l => match neighbour d l with | some n => if isGraft n then 1000 else 1 + State.hopsGo s fuel n t | none => 1000
      | none => 1000

/-- Mesh hops between two dies over the base set; by the grid where no base set is in force. -/
def State.hops (s : State) (d t : Nat) : Nat := if s.base.isEmpty then dieDist d t else State.hopsGo s 40 d t

/-- The element code of a link's end or of a tile (R264). -/
def linkElem (d l : Nat) : Nat := 256 * d + l
def tileElem (d : Nat) : Nat := 0x8000 + d

/-- Whether two element codes name one element; a link has two names. -/
def sameElem (a b : Nat) : Bool :=
  a == b || (decide (a < 0x8000) && decide (b < 0x8000) && farEnd (a / 256) (a % 8) == some (b / 256, b % 8))

/-- The detour set of an element. -/
def State.setFor (s : State) (elem : Nat) : Nat := match s.detours.find? (fun e => sameElem e.2.1 elem) with | some e => e.1 | none => 0

/-- A SWITCH control packet broadcast: it names the set, and every router installs it on receipt (R232). Destination 63 stands for every router. -/
def State.switchAll (s : State) (set : Nat) : State := s.emit (.control 63 1 set)

/-- A fault outside the promise: replacement cause FATAL and Uncorrectable Internal Error (R302, R401, R413). -/
def State.fatal (s : State) : State := (s.replaceCause 6).aerLog 0 .internal

/-- A route element is fenced; a second one raises ROUTE_PAIR (R233, R413). -/
def State.routeFence (s : State) (elem : Nat) : State :=
  if s.flt.routeFenced.any (sameElem elem) then s
  else
    let s := { s with flt := { s.flt with routeFenced := s.flt.routeFenced ++ [elem] } }
    if 2 ≤ s.flt.routeFenced.length then s.replaceCause 5 else s

/-- Whether the base set sends packets over a link from this end; before a plan every link counts (R238). -/
def State.inBase (s : State) (d l : Nat) : Bool :=
  s.base.isEmpty || (List.range 33).any (fun t => let e := s.baseEntry d t; escLink e == some l || bit e (8 + l))

/-- The links that mesh distances count: unfenced links of the base set between routers, graft sites never as transit, as pairs of dies (R238). -/
def State.hopEdges (s : State) : List (Nat × Nat) :=
  ((List.range 29).drop 1).flatMap (fun d => (List.range 4).filterMap (fun l => match farEnd d l with
    | some (n, k) => if n ≤ 28 ∧ (s.link d l).st ≠ .fenced ∧ (s.inBase d l || s.inBase n k) then some (d, n) else none
    | none => none))

/-- One relaxation of mesh distances over links (R238). -/
def distStep (es : List (Nat × Nat)) (t : List Nat) : List Nat :=
  t.zipIdx.map (fun x => if x.2 = 0 then 0 else es.foldl (fun m e => if e.1 = x.2 then min m (1 + t[e.2]?.getD 99) else m) x.1)

/-- Mesh distances computed anew, at a bed plan load and at each fence (R238). -/
def State.redist (s : State) : State :=
  let es := s.hopEdges
  let t := (List.range 28).foldl (fun t _ => distStep es t) ((List.range 29).map (fun d => if d = 0 then 0 else 99))
  (List.range 29).foldl (fun s d => s.modRouter d (fun r => { r with dist := min (t[d]?.getD 15) 15 })) s

/-- Mesh distance of a die; a site's is over its unfenced links to the hub or to tiles (R238). -/
def State.meshDist (s : State) (d : Nat) : Nat :=
  if d ≤ 28 then (s.router d).dist
  else (List.range 29).foldl (fun m t => if (List.range (linkCount t)).any (fun l => neighbour t l == some d && (s.link t l).st != .fenced) then min m (1 + (s.router t).dist) else m) 15

/-- Whether this end of a link is upstream: the smaller mesh distance, then the lower die number (R238). -/
def State.upstream (s : State) (d n : Nat) : Bool :=
  let a := s.meshDist d
  let b := s.meshDist n
  decide (a < b) || (a == b && decide (d < n))

/-! ### Routers (R223 to R230) -/

def pkDst (h : BitVec 128) : Nat := bits h 5 0
def pkSrc (h : BitVec 128) : Nat := bits h 11 6
def pkDstPort (h : BitVec 128) : Nat := bits h 17 12
def pkSrcPort (h : BitVec 128) : Nat := bits h 23 18
def pkCmpt (h : BitVec 128) : Nat := bits h 29 24
def pkClass (h : BitVec 128) : Nat := bits h 32 30
def pkMClass (h : BitVec 128) : Nat := bits h 35 33
def pkPrio (h : BitVec 128) : Nat := bits h 37 36
def pkTag (h : BitVec 128) : Nat := bits h 57 46
def pkAddr (h : BitVec 128) : Nat := bits h 105 58
def pkMask (h : BitVec 128) : BitVec 4 := BitVec.ofNat 4 (bits h 109 106)
def pkPois (h : BitVec 128) : Bool := bit h 110
def pkEsc (h : BitVec 128) : Bool := bit h 111
def pkAge (h : BitVec 128) : Nat := bits h 116 112
def pkOrd (h : BitVec 128) : Bool := bit h 117

def pkOp (h : BitVec 128) : Nat := bits h 45 38

/-- OPCODE numbers of the messages that the model forms as packets: their places in Table 8.2, the first row 0 (log 48). -/
def opRdNc : Nat := 6
def opWrNc : Nat := 7
def opPush : Nat := 10
def opGrantS : Nat := 11
def opWbAck : Nat := 17

/-- A header of Table 10.2 with AGE 0: a packet with an order obligation travels on escape channels from injection (R225, R230). -/
def mkHeader (dst dport src sport cmpt cls mcls prio op tag addr : Nat) (mask : BitVec 4) (pois ord : Bool) : BitVec 128 :=
  let low := dst % 64 + 2 ^ 6 * (src % 64) + 2 ^ 12 * (dport % 64) + 2 ^ 18 * (sport % 64) + 2 ^ 24 * (cmpt % 64) + 2 ^ 30 * (cls % 8) + 2 ^ 33 * (mcls % 8)
    + 2 ^ 36 * (prio % 4) + 2 ^ 38 * (op % 256) + 2 ^ 46 * (tag % 4096) + 2 ^ 58 * (addr % 2 ^ 48) + 2 ^ 106 * mask.toNat + 2 ^ 110 * b2n pois
    + 2 ^ 111 * b2n ord + 2 ^ 117 * b2n ord
  BitVec.ofNat 128 (low + 2 ^ 120 * (Config.headerCheck (BitVec.ofNat 120 low)).toNat)

/-- One step of the CRC-16 with polynomial 0x8BB7, most significant bit first (R226; the bit order is log 48's choice). -/
def crcStep (c : BitVec 16) : BitVec 16 := if c.getLsbD 15 then (c <<< 1) ^^^ 0x8BB7#16 else c <<< 1

/-- The CRC-16 after one more byte. -/
def crcByte (c : BitVec 16) (b : Byte) : BitVec 16 := (List.range 8).foldl (fun c _ => crcStep c) (c ^^^ (b.zeroExtend 16 <<< 8))

/-- The end-to-end check of sector `k` of a line: over the sector's bytes, ADDR with bits [6:5] replaced by the sector index, and CMPT (R226). -/
def sectorCheck (x : BitVec 256) (addr k cmpt : Nat) : BitVec 16 :=
  (leBytes 32 x.toNat ++ leBytes 6 (addr - addr % 128 + 32 * (k % 4) + addr % 32) ++ leBytes 1 cmpt).foldl crcByte 0xFFFF#16

/-- The sectors a packet names, ascending. -/
def maskSectors (m : BitVec 4) : List Nat := (List.range 4).filter (fun k => bit m k)

/-- The payload of a packet for sectors of a line as memory holds them, with POISON: a poisoned sector carries zeros and the inverted check (R226). -/
def State.payloadOf (s : State) (addr cmpt : Nat) (mask : BitVec 4) : List (BitVec 256 × BitVec 16) × Bool :=
  let base := addr - addr % 128
  let secs := maskSectors mask
  (secs.map (fun k => if s.secPois (base / 32 + k) then (0, ~~~(sectorCheck 0 addr k cmpt)) else
      let x := BitVec.ofNat 256 (ofLe (s.rd (base + 32 * k) 32))
      (x, sectorCheck x addr k cmpt)),
    secs.any (fun k => s.secPois (base / 32 + k)))

/-- A header with AGE and ESC set and CHECK regenerated (R228). -/
def pkSet (h : BitVec 128) (age : Nat) (esc : Bool) : BitVec 128 :=
  let low := h.toNat % 2 ^ 111 + 2 ^ 111 * b2n esc + 2 ^ 112 * (age % 32) + 2 ^ 117 * bits h 119 117
  BitVec.ofNat 128 (low + 2 ^ 120 * (Config.headerCheck (BitVec.ofNat 120 low)).toNat)

/-- Local port of a router. -/
def localPort (d : Nat) : Nat := if d = 0 then 8 else 4

/-- Virtual channel of a packet at an input or output port. -/
def vcKey (port mclass : Nat) (esc : Bool) : Nat := 10 * port + 2 * mclass + b2n esc

/-- A destination that exists: a die, a message class and a port that the die has (R225, Table 10.3). -/
def pkRouted (h : BitVec 128) : Bool :=
  let d := pkDst h
  let p := pkDstPort h
  d ≤ 32 && pkMClass h ≤ 4 && (isGraft d || (if d = 0 then p ≤ 6 || (8 ≤ p && p ≤ 11) else p ≤ 11))

/-- Whether a link carries packets: its state is UP or DEGRADED (Table 10.5). A site's end follows the other one's. -/
def State.carries (s : State) (d l : Nat) : Bool :=
  let st (d l : Nat) : Bool := (s.link d l).st == .up || (s.link d l).st == .degraded
  if d ≤ 28 then st d l else match farEnd d l with | some (n, k) => st n k | none => false

/-- A credit returned to the sender of a packet that came over a link, by the packet's channel (R224). -/
def State.creditBack (s : State) (d port c : Nat) : State :=
  match farEnd d port with
  | some (u, l) => s.modRouter u (fun x => { x with credits := x.credits.put (vcKey l 0 false + c) (x.credits.look (vcKey l 0 false + c) 0 - 1) })
  | none => s

/-- The channel of a packet within its port. -/
def pkVc (h : BitVec 128) : Nat := vcKey 0 (pkMClass h % 5) (pkEsc h)

/-- A packet of the die's own units at the local port: it takes a slot of its channel, or waits for one (R224). -/
def State.inject (s : State) (d : Nat) (p : Packet) : State :=
  let (k, s) := s.nextSerial
  let key := vcKey (localPort d) 0 false + pkVc p.header
  let p := { p with stamp := k, wait := 0 }
  s.modRouter d (fun r =>
    if (r.vcs.look key []).length < 8 then { r with vcs := r.vcs.put key (r.vcs.look key [] ++ [p]) } else { r with outq := r.outq ++ [(key, p)] })

/-- A slot of a local channel is free: the packet that has waited longest for it takes it. -/
def Router.refill (r : Router) (key : Nat) : Router :=
  match findPos (fun (e : Nat × Packet) => e.1 == key) r.outq with
  | none => r
  | some i => { r with vcs := r.vcs.put key (r.vcs.look key [] ++ (r.outq[i]?.map (·.2)).toList), outq := r.outq.eraseIdx i }

/-- A packet reaches the input of a router or a site's end of a link, in the order of its link's flits: `flips` header bits have changed on the way. The receiver's acceptance ends the sender's keeping of the flit. Answers the die at fault: the router's own after a double-bit error, the source of a packet for no unit (R225, R228, R235). -/
def State.routerArrival (s : State) (n flips : Nat) : State × Option Nat :=
  match s.wires[n]? with
  | none => (s, none)
  | some (d, port, p) =>
    if (d ≤ 28 ∧ port = localPort d) ∨ (s.wires.take n).any (fun x => x.1 == d && x.2.1 == port) ∨ !s.carries d port then (s, none)
    else
      let key := vcKey port 0 false + pkVc p.header
      let gone : State := ({ s with wires := s.wires.eraseIdx n } : State).modLink d port (fun k => { k with got := p.seq })
      if 2 ≤ flips then (gone.creditBack d port (pkVc p.header), some d)
      else
        let gone := if flips = 1 then gone.modRouter d (fun r => { r with hdrCe := satAdd r.hdrCe 1 }) else gone
        if !pkRouted p.header then (({ gone with lost := gone.lost ++ [p] } : State).creditBack d port (pkVc p.header), some (pkSrc p.header))
        else if isGraft d then (gone.creditBack d port (pkVc p.header), none)
        else if 8 ≤ ((s.router d).vcs.look key []).length then (s, none)
        else
          let (k, gone) := gone.nextSerial
          (gone.modRouter d (fun r => { r with vcs := r.vcs.put key (r.vcs.look key [] ++ [{ p with stamp := k, wait := 0 }]) }), none)

/-- A credit for a channel behind an output is free; the local port takes every packet. -/
def State.hasCredit (s : State) (d out mclass : Nat) (esc : Bool) : Bool :=
  out == localPort d || decide ((s.router d).credits.look (vcKey out mclass esc) 0 < 8)

/-- Whether the head packet of a channel may go to output `out` now, and whether on an escape channel (R230). The adaptive feature of the revision floor off makes adaptive channels follow ESC_PORT. A link out of service carries nothing, and a site carries no packet for another die (R15, R237). -/
def State.wantsOut (s : State) (d out : Nat) (p : Packet) : Option Bool :=
  let h := p.header
  let t := pkDst h
  if t = d then (if out = localPort d then some (pkEsc h) else none)
  else if out ≠ localPort d ∧ (!s.carries d out || match neighbour d out with | some n => isGraft n && n != t | none => true) then none
  else
    let e := s.route d t
    let escOut := match escLink e with | some l => l | none => localPort d
    let mask := if bit (s.router 0).revFloor 1 then (List.range (linkCount d)).filter (fun l => bit e (8 + l)) else [escOut]
    if pkOrd h || pkEsc h then (if out = escOut ∧ s.hasCredit d out (pkMClass h) true then some true else none)
    else if mask.contains out && s.hasCredit d out (pkMClass h) false then some false
    else if !mask.any (fun l => s.hasCredit d l (pkMClass h) false) && out == escOut && s.hasCredit d out (pkMClass h) true then some true
    else none

/-- The order of R229 between two candidates: true when the first goes before the second. Each is its input port, its distance after the round-robin pointer, and its packet. -/
def goesFirst (a b : Nat × Nat × Packet) : Bool :=
  let (_, ra, p) := a
  let (_, rb, q) := b
  let pa := pkAge p.header
  let qa := pkAge q.header
  if pa = 31 ∧ qa = 31 then decide (p.stamp < q.stamp)
  else if pa = 31 then true
  else if qa = 31 then false
  else if pkPrio p.header ≠ pkPrio q.header then decide (pkPrio q.header < pkPrio p.header)
  else if pa ≠ qa then decide (qa < pa)
  else decide (ra < rb)

/-- The best candidate of a list. -/
def bestOf {α : Type} (lt : α → α → Bool) : List α → Option α
  | [] => none
  | x :: t => match bestOf lt t with | none => some x | some y => if lt y x then some y else some x

/-- The head packets that may go to an output now, each with its channel and its input's distance after the round-robin pointer (R229). -/
def State.candidates (s : State) (d out : Nat) : List (Nat × Nat × Packet) :=
  let nPorts := linkCount d + 1
  (s.router d).vcs.filterMap (fun (v : Nat × List Packet) => match v.2 with
    | p :: _ => if (s.wantsOut d out p).isSome then some (v.1, (v.1 / 10 + nPorts - ((s.router d).rr.look out 0 + 1)) % nPorts, p) else none
    | [] => none)

/-- One grant of an output port: the packet leaves its channel, its slot's credit returns upstream, and it goes to the next router or to its die's units (R224, R229). -/
def State.arbitrate (s : State) (d out : Nat) : State :=
  match bestOf goesFirst (s.candidates d out) with
  | none => s
  | some (key, _, p) =>
    let esc := (s.wantsOut d out p).getD true
    let s := s.modRouter d (fun r =>
      let r := { r with vcs := r.vcs.put key (r.vcs.look key []).tail, rr := r.rr.put out (key / 10) }
      if key / 10 = localPort d then r.refill key else r)
    let s := if key / 10 = localPort d then s else s.creditBack d (key / 10) (key % 10)
    let q := { p with header := if esc == pkEsc p.header then p.header else pkSet p.header (pkAge p.header) esc, wait := 0 }
    if out = localPort d then { s with wires := s.wires ++ [(d, localPort d, q)] }
    else match farEnd d out with
      | some (n, l) =>
        let m := (s.link d out).sent + 1
        let s := s.modLink d out (fun k => { k with sent := m })
        let s := s.modRouter d (fun x => { x with credits := x.credits.put (vcKey out 0 false + pkVc q.header) (x.credits.look (vcKey out 0 false + pkVc q.header) 0 + 1) })
        { s with wires := s.wires ++ [(n, l, { q with seq := m })] }
      | none => s

/-- OUTPUT_ARBITRATION (R229). -/
def execOutputArbitration (die out : Nat) (s : State) : Res :=
  upDo s (fun s => if die ≤ 28 ∧ out ≤ linkCount die then s.arbitrate die out else s)

/-- AGE_TICK: a packet has waited 64 mesh cycles at one router input (R229). -/
def execAgeTick (die vc index : Nat) (s : State) : Res :=
  upDo s (fun s => s.modRouter die (fun r => { r with
    vcs := if r.vcs.has vc then r.vcs.put vc (modNth (r.vcs.look vc []) index (fun p => { p with header := pkSet p.header (min 31 (pkAge p.header + 1)) (pkEsc p.header), wait := 0 })) else r.vcs }))

/-! ### Delivery (R226, R227, R245) -/

/-- What a destination finds in each payload sector: 0 clean, 1 poisoned, 2 failed. `bad` marks sectors damaged on the way. -/
def sectorFates (p : Packet) (bad : List Bool) : List Nat :=
  let h := p.header
  let secs := maskSectors (pkMask h)
  p.payload.zipIdx.map (fun (x : (BitVec 256 × BitVec 16) × Nat) =>
    let k := secs[x.2]?.getD 0
    let c := sectorCheck x.1.1 (pkAddr h) k (pkCmpt h)
    if bad[x.2]?.getD false then 2 else if x.1.2 = c then 0 else if pkPois h && x.1.2 == ~~~c then 1 else 2)

/-- The master whose transaction a response that reaches a unit ends (Tables 10.3 and 11.3). -/
def masterOf (die port : Nat) : List Nat :=
  if die = 0 then (match port with | 0 => [0] | 1 => [1] | 3 => [2] | 4 => [3] | 6 => [8] | 8 => [4] | 9 => [5] | 10 => [6] | 11 => [7] | _ => [])
  else if port < 8 then [port, 8 + port] else if port = 8 then [16] else if port = 11 then [17] else []

/-- KIND of a class at a master. -/
def rcKind (c : BitVec 64) : Nat := bits c 63 62

/-- A transaction of a class has had its response, which carries the priority that its request was issued with (R245, R249). -/
def State.txnEnd (s : State) (die port cls prio : Nat) : State :=
  match (masterOf die port).find? (fun m => decide (0 < ((s.master die m).classes.look cls {}).out)) with
  | some m => s.modMaster die m (fun x =>
      let c : RegClass := x.classes.look cls {}
      { x with urgOut := if kindPrio (rcKind c.cls) < prio then x.urgOut - 1 else x.urgOut, classes := x.classes.put cls { c with out := c.out - 1 } })
  | none => s

/-- The unit's answer to a request delivered to it: the data of a read, or the acknowledgement of a write, in the request's class, priority and tag (R244, R245). Messages that other chapters' commands answer get none here. -/
def State.answerPacket (s : State) (d : Nat) (h : BitVec 128) : State :=
  let reply (mcls op : Nat) (mask : BitVec 4) (pay : List (BitVec 256 × BitVec 16) × Bool) : State :=
    s.inject d { header := mkHeader (pkSrc h) (pkSrcPort h) d (pkDstPort h) (pkCmpt h) (pkClass h) mcls (pkPrio h) op (pkTag h) (pkAddr h) mask pay.2 false, payload := pay.1 }
  if pkMClass h ≠ 0 then s
  else if pkOp h = opRdNc then reply 3 opGrantS (pkMask h) (s.payloadOf (pkAddr h) (pkCmpt h) (pkMask h))
  else if pkOp h = opWrNc then reply 2 opWbAck 0 ([], false)
  else s

/-- A failed sector of a packet that is no read response is taken as poisoned: a write performs a poisoned write of it, and a push leaves it invalid (R227). -/
def State.failSector (s : State) (d : Nat) (h : BitVec 128) (k : Nat) : State :=
  let ln := pkAddr h / 128
  if pkOp h = opPush ∧ pkMClass h = 3 then (if (s.line d 8 ln).st = .i then s else s.setLine d 8 ln { s.line d 8 ln with valid := setBit (s.line d 8 ln).valid k false })
  else if pkOrd h && inStacks (pkAddr h) then (s.ssuPoison (pkCmpt h) (4 * ln + k)).poisonEvent (paLs (128 * ln)) (paOff (128 * ln + 32 * k)) 1
  else s

/-- A packet at a die's local port is checked and handed to its unit. Each failed sector is counted and reported. A read response with one makes the requester repeat the read once; otherwise the sectors are taken as poisoned (R226, R227). -/
def State.deliverPkt (s : State) (d n : Nat) (bad : List Bool) : State :=
  let mine := s.wires.zipIdx.filter (fun (x : (Nat × Nat × Packet) × Nat) => x.1.1 == d && x.1.2.1 == localPort d)
  match mine[n]? with
  | none => s
  | some ((_, _, p), i) =>
    let h := p.header
    let fates := sectorFates p bad
    let secs := maskSectors (pkMask h)
    let failed := fates.zipIdx.filterMap (fun x => if x.1 = 2 then some (secs[x.2]?.getD 0) else none)
    let resp := pkMClass h == 2 || (pkMClass h == 3 && pkOp h != opPush)
    let s : State := { s with wires := s.wires.eraseIdx i }
    let s := failed.foldl (fun s k =>
      ((s.modRouter d (fun r => { r with e2e := satAdd r.e2e 1 })).report 0x5101 0 d (pkDstPort h) 0 1 (pkAddr h - pkAddr h % 128 + 32 * k) 32 (BitVec.ofNat 64 (pkSrc h))).event 0 0x5101 0 (BitVec.ofNat 64 (d + 256 * pkSrc h))) s
    let tag := 4096 * pkSrc h + pkTag h
    if !failed.isEmpty ∧ resp ∧ !pkOrd h ∧ !(s.router d).retries.contains tag then
      -- the read goes out again
      (s.modRouter d (fun r => { r with retries := r.retries ++ [tag] })).inject d
        { header := mkHeader (pkSrc h) (pkSrcPort h) d (pkDstPort h) (pkCmpt h) (pkClass h) 0 (pkPrio h) opRdNc (pkTag h) (pkAddr h) (pkMask h) false false }
    else
      let s := s.modRouter d (fun r => { r with retries := r.retries.filter (· != tag), inbox := r.inbox ++ [(p, fates.map (· != 0))] })
      if resp then s.txnEnd d (pkDstPort h) (pkClass h) (pkPrio h)
      else (failed.foldl (fun s k => s.failSector d h k) s).answerPacket d h

/-- PACKET_DELIVERY (R227). -/
def execPacketDelivery (die n : Nat) (bad : List Bool) (s : State) : Res := upDo s (fun s => if die ≤ 28 then s.deliverPkt die n bad else s)

/-- SWITCH: a router installs the route set that a SWITCH packet names (R232). -/
def execSwitch (die set : Nat) (s : State) : Res :=
  upDo s (fun s => if set = 0 ∨ s.detours.has set then s.modRouter die (fun r => { r with set := set }) else s)

/-! ### Link states (R235 to R239, Table 10.5) -/

/-- A link leaves service: its ends exchange the numbers of the last flits they accepted, over the sideband or through the Curator, and each re-injects the packets of its flits that the other end did not accept; packets for a dead die are dropped (R206, R237). -/
def State.resend (s : State) (d l : Nat) : State :=
  match farEnd d l with
  | none => s
  | some (n, k) =>
    let sender (x : Nat × Nat × Packet) : Option (Nat × Nat) :=
      if x.1 = n ∧ x.2.1 = k then some (d, l) else if x.1 = d ∧ x.2.1 = l ∧ n ≤ 28 then some (n, k) else none
    let held := s.wires.filter (fun x => (sender x).isSome)
    let s : State := { s with wires := s.wires.filter (fun x => (sender x).isNone) }
    held.foldl (fun s x => match sender x with
      | none => s
      | some (u, o) =>
        let h := x.2.2.header
        let s := s.modRouter u (fun r => { r with credits := r.credits.put (vcKey o 0 false + pkVc h) (r.credits.look (vcKey o 0 false + pkVc h) 0 - 1) })
        if decide (x.2.2.seq ≤ (s.link x.1 x.2.1).got) && decide (x.1 ≤ 28) then s
        else if decide (1 ≤ pkDst h) && decide (pkDst h ≤ 28) && invBit s.inv.fenced (pkDst h) then s
        else s.inject u x.2.2) s

/-- A link taken out of service for a retrain: detour, LINK_QUARANTINED, retry count 0. -/
def State.quarantine (s : State) (d l : Nat) : State :=
  let s := s.modLinks d l (fun k => { k with st := .quarantined, retry := 0 })
  let s := (s.switchAll (s.setFor (linkElem d l))).resend d l
  (s.report 0x5102 0 d (128 + l) 0 0 0 0 0).event 0 0x5102 0 (BitVec.ofNat 64 (linkElem d l))

/-- A site-window request that ends without the chiplet's answer: read data is delivered poisoned (R342, R350). -/
def State.siteEnd (s : State) (k : Nat) (q : SiteReq) (code : Nat) : State :=
  if q.host then (if q.write then s else s.emit (.completion 0 true (List.replicate q.size 0) true))
  else s.emit (.gate k (if q.write then 3 else 2) code (if q.write then [] else List.replicate q.size 0))

/-- A graft site fenced: its gate and links stop, GFT_RESET_N is asserted, its cache agent is reclaimed, its queued requests end with GRAFT_FENCED, INV_GRAFT, the event and a condition report tell it (R342). -/
def State.fenceSite (s : State) (k reason : Nat) : State :=
  let x := s.site k
  if 4 ≤ k ∨ x.st = .fenced then s
  else
    let code := if x.st = .admitted then 0x5505 else 0x5504
    let s := (List.range 29).foldl (fun s d => (List.range (linkCount d)).foldl (fun s l =>
      if neighbour d l = some (29 + k) then s.modLinks d l (fun n => { n with st := .down }) else s) s) s
    let s := if bit x.proto 2 then s.reclaim (29 + k) else s
    let s := x.reqs.foldl (fun s q => s.siteEnd k q 0x5503) s
    let s := s.modSite k (fun x => { x with st := .fenced, accept := false, resetN := false, drain := false, slots := [], reqs := [], snps := [], reason := BitVec.ofNat 8 reason })
    let s := { s with masters := s.masters.each (fun i m => if i = 4 + k then { m with classes := m.classes.each (fun _ c => { c with out := 0 }), urgOut := 0 } else m) }
    let s := s.setInv { s.inv with graft := setBit s.inv.graft (4 + k) true }
    (s.event 0 code 0 (BitVec.ofNat 64 (reason + 65536 * k))).report code reason (29 + k) 0 0 0 0 0 0

/-- A link fenced: detour, LINK_FENCED and a condition report; distances are computed anew. -/
def State.fenceLink (s : State) (d l : Nat) : State :=
  if (s.link d l).st = .fenced then s
  else
    let s := s.modLinks d l (fun k => { k with st := .fenced })
    let s := (s.switchAll (s.setFor (linkElem d l))).resend d l
    let s := (s.report 0x5104 0 d (128 + l) 0 0 0 0 0).event 0 0x5104 0 (BitVec.ofNat 64 (linkElem d l))
    let s := (s.routeFence (linkElem d l)).redist
    match neighbour d l with | some n => if d = 0 ∧ isGraft n then s.fenceSite (n - 29) 0x17 else s | none => s

/-- The links of a fenced die taken out of service, each with LINK_FENCED and a condition report (Table 10.5). -/
def State.fenceLinksOf (s : State) (d : Nat) : State :=
  (List.range (linkCount d)).foldl (fun s l =>
    if (neighbour d l).isNone || (s.link d l).st == .fenced then s
    else (((s.modLinks d l (fun k => { k with st := .fenced })).resend d l).report 0x5104 0 d (128 + l) 0 0 0 0 0).event 0 0x5104 0 (BitVec.ofNat 64 (linkElem d l))) s

/-- Elements out of service: the fenced ones and the quarantined links. -/
def State.outElems (s : State) : List Nat :=
  s.flt.routeFenced ++ (List.range 29).flatMap (fun d => (List.range (linkCount d)).filterMap (fun l => match neighbour d l with
    | some n => if d < n ∧ (s.link d l).st = .quarantined then some (linkElem d l) else none
    | none => none))

/-- An element returns to service: a SWITCH back to the base set, or to the set of the elements that stay out, follows (R232). -/
def State.switchBack (s : State) (elem : Nat) : State :=
  match (s.outElems.filter (fun e => !sameElem e elem)).reverse with
  | [] => s.switchAll 0
  | [e] => s.switchAll (s.setFor e)
  | e :: _ => s.switchAll (if s.detours.has 255 then 255 else s.setFor e)

/-- FENCED links whose dies are not fenced train again after an accepted bed plan (R239). -/
def State.linksReturn (s : State) : State :=
  (List.range 29).foldl (fun s d => (List.range (linkCount d)).foldl (fun s l =>
    match neighbour d l with
    | some n =>
      if (s.link d l).st == .fenced && decide (n ≤ 28) && !invBit s.inv.fenced d && !invBit s.inv.fenced n then
        { s.modLinks d l (fun k => { k with st := .training }) with flt := { s.flt with routeFenced := s.flt.routeFenced.filter (fun e => !sameElem e (linkElem d l)) } }
      else s
    | none => s) s) s

/-- A link that carries traffic at a width: UP at full width, otherwise DEGRADED. -/
def State.linkUp (s : State) (d l w rate : Nat) : State :=
  s.modLinks d l (fun k => { k with st := if w = s.fullWidth d l then .up else .degraded, width := w, rate := rate, retry := 0 })

/-- LINK_DEGRADED posted and reported. -/
def State.degradedNote (s : State) (d l : Nat) : State := (s.report 0x5103 0 d (128 + l) 0 0 0 0 0).event 0 0x5103 0 (BitVec.ofNat 64 (linkElem d l))

/-- A link that exists at this end. -/
def linkAt (d l : Nat) : Bool := d ≤ 28 && (neighbour d l).isSome

/-- FLIT_CRC_FAIL: the flit, which its sender keeps until the receiver accepts it (ROUTER_ARRIVAL), is replayed, and the failure counted; at the threshold the link is quarantined (R235). -/
def execFlitCrcFail (die link : Nat) (s : State) : Res :=
  upDo s (fun s =>
    if linkAt die link then
      let s := s.modLink die link (fun k => { k with crc := satAdd k.crc 1, crcWin := k.crcWin + 1 })
      let k := s.link die link
      let th := bits (s.router die).crcThresh 15 0
      if th != 0 && decide (th ≤ k.crcWin) && (k.st == .up || k.st == .degraded) then s.quarantine die link else s
    else s)

/-- CRC_WINDOW: a 1 ms window of a link ends (R235, R250). -/
def execCrcWindow (die link : Nat) (s : State) : Res :=
  upDo s (fun s => if linkAt die link then s.modLink die link (fun k => { k with crcWin := 0 }) else s)

/-- LINK_RESET_EXIT: one end of a link leaves reset (Table 10.5). -/
def execLinkResetExit (die link : Nat) (s : State) : Res :=
  onDo s (fun s =>
    if linkAt die link then
      match (s.link die link).st with
      | .down => s.modLinks die link (fun k => { k with st := .training })
      | .fenced => { s.modLinks die link (fun k => { k with st := .training }) with flt := { s.flt with routeFenced := s.flt.routeFenced.filter (fun e => !sameElem e (linkElem die link)) } }
      | .up => s.quarantine die link
      | .degraded => s.quarantine die link
      | _ => s
    else s)

/-- Failed lanes of module `m` in the transmit or receive direction: nibble `m` or `m + 4` of the word. -/
def laneFails (w : BitVec 32) (m : Nat) (rx : Bool) : Nat := bits w (4 * (m + 4 * b2n rx) + 3) (4 * (m + 4 * b2n rx))

/-- Modules taken out of a link: more failed lanes in a direction than the four spares (R236, Table 10.4). -/
def modulesOut (w : BitVec 32) (rx : Bool) : Nat := ((List.range 4).filter (fun m => decide (4 < laneFails w m rx))).length

/-- MSH_LINK_REPAIR: each failed lane of a module that stays in the link takes a spare of the same module and direction (R236). -/
def sparesOf (w : BitVec 32) : Nat :=
  (List.range 8).foldl (fun n i => let f := bits w (4 * i + 3) (4 * i); if f ≤ 4 then n + f * 2 ^ (4 * i) else n) 0

/-- The smallest width a link may run at: MIN_WIDTH, unused on a graft link of a site without a GRAFT record (R239, R264). -/
def State.leastWidth (s : State) (d l : Nat) : Nat :=
  match neighbour d l with
  | some n => if isGraft n ∧ (s.site (n - 29)).grec.isNone then 1 else max 1 (s.link d l).minWidth
  | none => max 1 (s.link d l).minWidth

/-- The highest rate code: 32 GT/s only with LINK_32GT in the revision floor (R234, R242). -/
def State.rateCap (s : State) : Nat := if bit (s.router 0).revFloor 0 then 3 else 2

/-- A training or retrain attempt ends: this end can run `offered` modules and the other end `peer`, less the modules that each one's receiver has lost to the failed `lanes` of this end's two directions. The upstream end sends what it can run, and the downstream end adopts it when it can run that many; rate 0 marks a failed test of the narrower width (R236, R239, Table 10.5). -/
def State.trainEnd (s : State) (d l offered peer : Nat) (lanes : BitVec 32) (rate : Nat) : State :=
  let k := s.link d l
  let full := s.fullWidth d l
  let mine := min offered (full - modulesOut lanes true)
  let theirs := min peer (full - modulesOut lanes false)
  let up := match neighbour d l with | some n => s.upstream d n | none => true
  let sent := if up then mine else theirs
  let can := if up then theirs else mine
  let agree := decide (sent ≤ can)
  let w := min sent can
  let least := s.leastWidth d l
  let spares := sparesOf lanes
  let note (s : State) : State :=
    let s := if spares ≠ 0 ∧ bits k.repair 31 0 ≠ spares then s.report 0x4016 0 d (128 + l) 0 0 0 0 0 else s
    let s := s.modLink d l (fun k => { k with offered := if up then w else sent, repair := BitVec.ofNat 64 spares })
    match farEnd d l with
    | some (n, m) => if n ≤ 28 then s.modLink n m (fun k => { k with offered := if up then sent else w, repair := BitVec.ofNat 64 (spares / 65536 + 65536 * (spares % 65536)) }) else s
    | none => s
  if full < offered ∨ full < peer ∨ s.rateCap < rate then s
  else match k.st with
    | .training =>
      if !agree then (note s).quarantine d l
      else if w < least then (note s).fenceLink d l
      else if rate = 0 then s
      else
        let s := (note s).linkUp d l w rate
        let s := if (s.router d).set ≠ 0 ∧ (s.router d).set = s.setFor (linkElem d l) then s.switchBack (linkElem d l) else s
        if w < full then s.degradedNote d l else s
    | .quarantined =>
      if agree then
        if w < least then (note s).fenceLink d l
        else if rate = 0 then s
        else (((note s).linkUp d l w rate).switchBack (linkElem d l)).report (if w = full then 0x5102 else 0x5103) 0 d (128 + l) 0 0 0 0 0
      else if k.retry < 2 then (note s).modLinks d l (fun k => { k with retry := k.retry + 1 })
      else if rate ≠ 0 ∧ least ≤ w then (((note s).modLinks d l (fun k => { k with st := .degraded, width := w, rate := rate, retry := 0 })).degradedNote d l).switchBack (linkElem d l)
      else (note s).fenceLink d l
    | _ => s

/-- MSH_LINK_RETRAIN: quarantines and retrains a link that is UP or DEGRADED (Table 10.6). -/
def execMshLinkRetrain (port : Port) (die link : Nat) (val : BitVec 64) (s : State) : Res :=
  upDo s (fun s =>
    if port != .pf && port != .mgmt then s.portDenied port (0x100118 + 64 * link)
    else if linkAt die link && bit val 0 && ((s.link die link).st == .up || (s.link die link).st == .degraded) then s.quarantine die link
    else s)

/-! ### Regulators (R245 to R250) -/

/-- Real-time masters of Table 11.3. -/
def realTime (die m : Nat) : Bool := if die = 0 then decide (2 ≤ m) && decide (m ≤ 7) else m == 17

/-- MAX_OT of a master; a gate's comes from the accession record (Table 11.3). -/
def State.maxOt (s : State) (die m : Nat) : Nat :=
  if die = 0 then
    (if m = 0 then 128 else if m = 1 then 256 else if m < 4 then 512
     else if m < 8 then (match (s.site (m - 4)).grec with | some g => min g.maxOt 512 | none => 0) else 32)
  else if m < 8 then 1024 else if m < 16 then 32 else if m = 16 then 2048 else 512

def rcWeight (c : BitVec 64) : Nat := max 1 (bits c 61 54)
def rcOt (c : BitVec 64) : Nat := bits c 53 42
def rcBudget (c : BitVec 64) : Nat := bits c 31 0

/-- Pool use of a class: what exceeds its floor; a deadline class has none. -/
def RegClass.poolUse (c : RegClass) : Nat := if rcKind c.cls = 3 then 0 else if rcKind c.cls = 2 then c.out - rcOt c.cls else c.out

/-- Pool in use at a master. -/
def Master.poolUsed (m : Master) : Nat := m.classes.foldl (fun n e => n + e.2.poolUse) 0

/-- Transactions outstanding at a master. -/
def Master.outAll (m : Master) : Nat := m.classes.foldl (fun n e => n + e.2.out) 0

/-- The cap on the pool toward a target at its queue level, in quarters of SHARED (Table 11.4). -/
def poolCap (shared : Nat) (level : Nat) : Nat :=
  match level with | 4 => 3 * shared / 4 | 5 => shared / 2 | 6 => shared / 4 | n => if n < 4 then shared else 0

/-- How the first waiting transaction of a class may issue: 2 as floor or deadline, 1 from the pool, 0 not at all (R247 to R249). -/
def Master.mayIssue (m : Master) (rt : Bool) (c : RegClass) : Nat :=
  match c.q with
  | [] => 0
  | x :: _ =>
    let okB := rcBudget c.cls == 0 || decide (0 < c.budget)
    if rcKind c.cls = 3 then (if decide (c.out < rcOt c.cls) && decide (0 < c.budget) then 2 else 0)
    else if rcKind c.cls = 0 then 0
    else if rcKind c.cls = 2 ∧ c.out < rcOt c.cls then (if okB then 2 else 0)
    else
      let lvl := if rt && m.urg == 3 then 0 else match x.target with | some t => m.levels.look t 0 | none => 0
      if decide (m.poolUsed < poolCap (bits m.cfg 43 32) lvl) && okB then 1 else 0

/-- Service of a class before another at equal right to issue: floor and deadline first, then the least pool use by weight, then the lower class number. -/
def regFirst (a b : Nat × Nat × RegClass) : Bool :=
  let (ka, ca, x) := a
  let (kb, cb, y) := b
  if ka ≠ kb then decide (kb < ka)
  else if ka = 2 then decide (ca < cb)
  else
    let u := x.poolUse * rcWeight y.cls
    let v := y.poolUse * rcWeight x.cls
    if u ≠ v then decide (u < v) else decide (ca < cb)

/-- Port of a master on its die (Tables 10.3, 11.3). -/
def masterPort (die m : Nat) : Nat :=
  if die = 0 then (match m with | 0 => 0 | 1 => 1 | 2 => 3 | 3 => 4 | 8 => 6 | m => m + 4) else if m < 16 then m % 8 else if m = 16 then 8 else 11

/-- The request packet of a transaction: a read, or a write with its sectors as memory holds them, to the SSU of its line's stack or else to the hub's system cache (R225, R226, R230). -/
def State.txnPacket (s : State) (die m cls prio tag : Nat) (t : Txn) : Packet :=
  let dst := match t.target with | some l => (s.stack l).die | none => 0
  let pay := if t.write then s.payloadOf t.addr t.cmpt t.mask else ([], false)
  { header := mkHeader dst (if dst = 0 then 2 else 8) die (masterPort die m) t.cmpt cls 0 prio (if t.write then opWrNc else opRdNc) tag t.addr t.mask pay.2 t.write, payload := pay.1 }

/-- URG of a real-time master other than a gate: the fill of its receive buffer, taken as its waiting transactions in 1/256 of MAX_OT, against QOS_URG_THRESH of its die; a gate's stays as its offers set it (R249, Table 11.5, log 48). -/
def State.urgency (s : State) (die m : Nat) : Nat :=
  let x := s.master die m
  let t := if die = 0 then s.urgHub else (s.tile die).urgThresh
  if !realTime die m then 0
  else if die = 0 ∧ 4 ≤ m then x.urg
  else
    let fill := 256 * (x.classes.foldl (fun n e => n + e.2.q.length) 0) / max 1 (s.maxOt die m)
    if bits t 23 16 ≤ fill then 3 else if bits t 15 8 ≤ fill then 2 else if bits t 7 0 ≤ fill then 1 else 0

/-- One cycle of a regulator: its urgency follows the buffer's fill, and at most one transaction issues as a request packet at its die's router (R245, R247, R249). -/
def State.regIssue (s : State) (die m : Nat) : State :=
  let urg := s.urgency die m
  let s := if (s.master die m).urg = urg then s else s.modMaster die m (fun x => { x with urg := urg })
  let x := s.master die m
  let rt := realTime die m
  let cands : List (Nat × Nat × RegClass) := x.classes.filterMap (fun (e : Nat × RegClass) => let k := x.mayIssue rt e.2; if k = 0 then none else some (k, e.1, e.2))
  if s.maxOt die m ≤ x.outAll then s
  else match bestOf regFirst cands with
    | none => s
    | some (_, cls, c) =>
      match c.q with
      | [] => s
      | t :: rest =>
        let kp := kindPrio (rcKind c.cls)
        let up := rt && decide (kp < x.urg) && decide (x.urgOut < bits x.cfg 63 52)
        let prio := if up then x.urg else kp
        let p := s.txnPacket die m cls prio x.tag t
        (s.modMaster die m (fun y => { y with
          urgOut := if up then y.urgOut + 1 else y.urgOut
          tag := (y.tag + 1) % 4096
          classes := y.classes.put cls { c with q := rest, out := c.out + 1, budget := if rcBudget c.cls = 0 then c.budget else c.budget - 1 } })).inject die p

/-- REGULATOR_ISSUE (R247). -/
def execRegulatorIssue (die m : Nat) (s : State) : Res := upDo s (fun s => s.regIssue die m)

/-- REGULATOR_WINDOW: changed settings apply, and every budget is replenished to its full value (R250). -/
def execRegulatorWindow (die m : Nat) (s : State) : Res :=
  upDo s (fun s => if s.masters.has (32 * die + m) then
      s.modMaster die m (fun x => { x with classes := x.classes.each (fun _ c =>
        let k := c.newCls.getD c.cls
        { c with cls := k, newCls := none, budget := rcBudget k }) })
    else s)

end Sys2Proof.Machine
end

