-- ==== Sys2Proof/Machine/MemorySys.lean ====
section
/-! DEFINITION. The HBM memory system: the decoded reads and the writes of stack sectors, error counts, parity of guarded areas, controller scheduling, refresh and scrub (R167 to R186, R450). -/

namespace Sys2Proof.Machine

/-! ### Reserves and planned moves (R16, R406, R409, R414) -/

/-- Whether a die is a usable reserve: neither fenced nor under BIST by rotation (R406). -/
def State.reserveUsable (s : State) (d : Nat) : Bool :=
  invBit s.inv.reserve d && !invBit s.inv.fenced d && !(s.tile d).faulted && !s.stk.any (fun t => t.2.die == d)
    && !(s.flt.bist.rotating && s.flt.bist.die == d)

/-- The usable reserve fewest hops from a die over the base set, the lower die on a tie (R406). -/
def State.nearestReserve (s : State) (d : Nat) : Option Nat :=
  ((List.range 29).filter s.reserveUsable).foldl (fun (b : Option Nat) r =>
    match b with | none => some r | some x => if s.hops d r < s.hops d x then some r else b) none

/-- The logical stack a tile serves. -/
def State.lsOf (s : State) (d : Nat) : Option Nat := if d = 0 then none else (List.range 32).find? (fun l => (s.stack l).die == d)

/-- A planned move of a tile's stack to the nearest usable reserve begins (R409); `retire` marks the moves of R414 and R419. -/
def State.planMove (s : State) (d : Nat) (retire : Bool) : State :=
  match s.lsOf d, s.nearestReserve d with
  | some l, some r =>
    if (s.stack l).mig.isSome then s
    else s.modStack l (fun t => { t with die := r, mig := some { src := d, dst := r, planned := true, retire := retire } })
  | _, _ => s

/-! ### Error counts (R186, R413, R414) -/

/-- A crossing of MEM_CE_THRESH, once for each window: a condition report, replacement cause CE_THRESHOLD and the retirement of the tile. -/
def State.ceCheck (s : State) (d : Nat) : State :=
  let m := (s.tile d).mem
  if m.reported || bits m.ceThresh 31 0 == 0 || decide (m.ceCount.toNat < bits m.ceThresh 31 0) then s
  else
    let s := s.modMem d (fun m => { m with reported := true })
    let s := s.report 0x4017 0 d 0 (match s.lsOf d with | some l => 128 + l | none => 0) m.ceCount.toNat 0 0 0
    let s := { s with flt := { s.flt with ceHolds := d } }
    let s := s.replaceCause 1
    if bit s.flt.autoRetire 0 then s.planMove d true else s

/-- MEM_ERR_LOG after an event: KIND, pseudo-channel, GUARDED and the sector's offset (Table 7.7). -/
def errLogWord (kind pc : Nat) (guarded : Bool) (off : Nat) : BitVec 64 :=
  BitVec.ofNat 64 (kind * 2 ^ 62 + pc % 32 * 2 ^ 57 + b2n guarded * 2 ^ 56 + off / 32 % 2 ^ 30 * 32)

/-- Pseudo-channel, bank and row of a stack offset (R170). -/
def offPc (off : Nat) : Nat := nbits off 12 8 ^^^ nbits off 25 21
def offBank (off : Nat) : Nat := nbits off 20 15
def offRow (off : Nat) : Nat := nbits off 34 21

/-- The latest event logged. -/
def State.logErr (s : State) (ls off kind : Nat) : State :=
  s.modMem (s.stack ls).die (fun m => { m with errLog := errLogWord kind (offPc off) (s.isGuarded ls off) off })

/-- A corrected read: counted, logged, and the threshold checked (R178, R186). The corrected value is the sector's value. -/
def State.ceRead (s : State) (ls off : Nat) : State :=
  let d := (s.stack ls).die
  ((s.modMem d (fun m => { m with ceCount := satAdd m.ceCount 1, ceTotal := satAdd m.ceTotal 1 })).logErr ls off 1).ceCheck d

/-- An uncorrectable sector outside a guarded segment: written poisoned, counted, reported and its events posted (R179, R180). -/
def State.uePoison (s : State) (c ls off : Nat) : State :=
  let d := (s.stack ls).die
  let s := s.ssuPoison c ((lsBase ls + off) / 32)
  let s := s.modMem d (fun m => { m with ueCount := satAdd m.ueCount 1 })
  ((s.logErr ls off 2).report 0x3001 0 d 0 (128 + ls) 1 off 32 0).poisonEvent ls off 1

/-! ### Stripes (R182, R450) -/

/-- Whether a sector waits for its rebuild, so that requests to it wait (R179). -/
def State.rebuilding (s : State) (ls off : Nat) : Bool :=
  s.stripes.any (fun m => m.kind == 0 && m.src == ls && m.off == off) ||
    s.stk.any (fun t => t.2.rebuilds.any (fun r => r.off == off && (match r.target with | some x => x == ls | none => t.1 == ls)))

/-- The stripe reads of a rebuild at parity member `p`. -/
def State.stripeReads (s : State) (p off : Nat) (ms : List Nat) : State :=
  { s with stripes := s.stripes ++ ms.map (fun m => { kind := 1, src := p, dst := m, off := off }) }

/-- The number of the guarded area that holds an offset of a stack. -/
def State.areaOf (s : State) (ls off : Nat) : Nat :=
  ((s.guarded.find? (fun e => e.2.1.contains ls && decide (e.2.2.1 ≤ off) && decide (off < e.2.2.1 + e.2.2.2))).map (·.1)).getD 0

/-- A parity sector that is uncorrectable is recomputed from the seven data sectors (R182 step 4). -/
def State.parityRebuild (s : State) (p off : Nat) (ms : List Nat) : State :=
  let data := ms.filter (· != p)
  (s.modStack p (fun t => { t with rebuilds := t.rebuilds ++ [{ area := s.areaOf p off, off := off, await := data }] })).stripeReads p off data

/-- An uncorrectable sector of a guarded area: a listed one is poisoned again with no report, a data sector is rebuilt through its parity member, a parity sector is recomputed (R179, R182, R450). -/
def State.ueGuarded (s : State) (ls off p : Nat) (ms : List Nat) : State :=
  let s := s.logErr ls off 2
  if p = ls then s.parityRebuild p off ms
  else if (s.stack ls).pois.contains (off / 32) then s.poisonSec ((lsBase ls + off) / 32)
  else { s with stripes := s.stripes ++ [{ kind := 0, src := ls, dst := p, off := off }] }

/-- A sector read has gone through the DRAM's own on-die ECC, whose severity outputs the controller counts: whether one came is an open value (R176, log 4). -/
def State.odeccRead (s : State) (ls : Nat) : State :=
  let (t, s) := s.draw
  s.modMem (s.stack ls).die (fun m => { m with odecc := satAdd m.odecc (t % 2) })

/-- One sector read with the outcome its decoder gives (R176 to R179). A sector that holds poison decodes as poison, or as uncorrectable with two further symbols in error. -/
def State.secRead (s : State) (ls off : Nat) (dec : Dec) : State :=
  let s := s.odeccRead ls
  let sec := (lsBase ls + off) / 32
  match s.stripeOf ls off with
  | none =>
    if s.secPois sec then (match dec with | .uncorrectable => s.uePoison 0 ls off | _ => s.logErr ls off 3)
    else match dec with | .clean => s | .corrected => s.ceRead ls off | .uncorrectable => s.uePoison 0 ls off
  | some (p, ms) =>
    if s.secPois sec then (match dec with | .uncorrectable => s.ueGuarded ls off p ms | _ => s.logErr ls off 3)
    else match dec with | .clean => s | .corrected => s.ceRead ls off | .uncorrectable => s.ueGuarded ls off p ms

/-! ### Requests at the pseudo-channels (R172) -/

/-- A pseudo-channel of a die's controller. -/
def State.pch (s : State) (d p : Nat) : PseudoCh := (s.tile d).mem.pcs.look p {}

/-- A pseudo-channel changed. -/
def State.modPch (s : State) (d p : Nat) (f : PseudoCh → PseudoCh) : State :=
  if p < 32 then s.modMem d (fun m => { m with pcs := m.pcs.put p (f (m.pcs.look p {})) }) else s

/-- Whether a write to a sector is queued. -/
def PseudoCh.hasWrite (c : PseudoCh) (sec : Nat) : Bool := c.wq.any (fun r => r.sector == sec)

/-- The sector offsets of a line that a mask names. -/
def maskedOffs (off : Nat) (mask : BitVec 4) : List Nat := (List.range 4).filterMap (fun i => if mask.getLsbD i then some (off / 128 * 128 + 32 * i) else none)

/-- The completion of a request. -/
def State.memEnd (s : State) (ls off : Nat) (code : BitVec 16) : State := s.emit (.memEnd ls off code)

/-- What refuses a request with no effect: a stack not served or an offset outside it, a write that names a parity sector, an open aggregation window (R133, R168, R182). -/
def State.memRefuse (s : State) (ls off n : Nat) (w : Bool) : BitVec 16 :=
  if !s.served ls || decide (0x8_0000_0000 < off + n) || (w && s.meetsParity ls off n) then 0x3002
  else if s.clipHit (lsBase ls + off) n then 0x7002 else 0

/-- A read tried: the named sectors of a line are queued and read in ascending order. It waits, as a whole, while its queue has no room or a sector waits for its rebuild; one that itself met an uncorrectable sector of a guarded area waits for the rebuilt one (R172, R176 to R179). -/
def State.memReadGo (s : State) (ls : Nat) (r : MemHold) : State × Option MemHold :=
  let base := r.off / 128 * 128
  let offs := maskedOffs r.off r.mask
  let p := offPc r.off
  let d := (s.stack ls).die
  let pois (s : State) : Bool := offs.any (fun o => s.secPois ((lsBase ls + o) / 32))
  if s.memRefuse ls base (b2n (r.mask != 0) * 128) false ≠ 0 then (s.memEnd ls r.off (s.memRefuse ls base (b2n (r.mask != 0) * 128) false), none)
  else if offs.any (s.rebuilding ls) then (s, some r)
  else if r.recon then (s.memEnd ls r.off (if pois s then 0x3001 else 0x0002), none)
  else if 48 < (s.pch d p).rq.length + (offs.filter (fun o => !(s.pch d p).hasWrite (o / 32))).length then (s, some r)
  else
    let s := (offs.zipIdx).foldl (fun t q =>
      if (t.pch d p).hasWrite (q.1 / 32) then t
      else
        (t.modPch d p (fun c => { c with rq := c.rq ++ [{ sector := q.1 / 32, cls := r.cls % 8, prio := r.prio % 4 }] })).secRead ls q.1
          ((r.decs[q.2]?).getD .clean)) s
    if offs.any (s.rebuilding ls) then (s, some { r with decs := [], recon := true })
    else (s.memEnd ls r.off (if pois s then 0x3001 else 0), none)

/-- A write within one sector. A part of a sector reads it first with the outcome `dec` and merges; a whole sector of a guarded area has its old value read first. The Boolean says that the sector then waits for its rebuild, and the write with it (R171, R177, R179, R182). -/
def State.memSecWrite (s : State) (ls off : Nat) (l : List Byte) (pois : Bool) (dec : Dec) : State × Bool :=
  if pois then (s.ssuPoison 0 ((lsBase ls + off) / 32), false)
  else
    let t := if l.length = 32 ∧ !s.isGuarded ls off then s else s.secRead ls (off / 32 * 32) dec
    if t.rebuilding ls (off / 32 * 32) then (t, true) else (t.ssuWr 0 (lsBase ls + off) l, false)

/-- The parts of a write, cut at sector boundaries: offset and bytes. -/
def secParts : Nat → Nat → List Byte → List (Nat × List Byte)
  | 0, _, _ => []
  | fuel + 1, off, l =>
    if l.isEmpty then []
    else let n := min l.length (32 - off % 32); (off, l.take n) :: secParts fuel (off + n) (l.drop n)

/-- The parts of a write performed in order until one waits for a rebuild; what is left of the write then, and whether a part met poison that stays. -/
def State.memParts (s : State) (ls : Nat) (r : MemHold) : List (Nat × List Byte) → Dec → Bool → State × Option MemHold × Bool
  | [], _, bad => (s, none, bad)
  | p :: ps, dec, bad =>
    let part := decide (p.2.length < 32)
    let poisoned := r.pois.getLsbD (p.1 / 32 % 4)
    let bad := bad || (part && !poisoned && s.secPois ((lsBase ls + p.1) / 32))
    let (t, wait) := s.memSecWrite ls p.1 p.2 poisoned dec
    if wait then (t, some { r with off := p.1, bytes := (p :: ps).flatMap (·.2), dec := .clean, recon := true }, bad)
    else
      let t := t.modPch (t.stack ls).die (offPc r.off) (fun c => { c with wq := c.wq ++ [{ write := true, sector := p.1 / 32, cls := r.cls % 8, prio := r.prio % 4 }] })
      State.memParts t ls r ps (if part || t.isGuarded ls p.1 then .clean else dec) bad

/-- A write tried: it waits while its queue has no room or a sector waits for its rebuild; a partial write to a poisoned sector completes with POISON (R172, R177, R179). -/
def State.memWriteGo (s : State) (ls : Nat) (r : MemHold) : State × Option MemHold :=
  let parts := secParts 5 r.off r.bytes
  if s.memRefuse ls r.off r.bytes.length true ≠ 0 then (s.memEnd ls r.off (s.memRefuse ls r.off r.bytes.length true), none)
  else if parts.any (fun p => s.rebuilding ls (p.1 / 32 * 32)) then (s, some r)
  else if 32 < (s.pch (s.stack ls).die (offPc r.off)).wq.length + parts.length then (s, some r)
  else
    let (s, left, bad) := s.memParts ls r parts r.dec false
    match left with
    | some x => (s, some x)
    | none => (s.memEnd ls r.off (if bad then 0x3001 else if r.recon then 0x0002 else 0), none)

/-- A request tried once every earlier one that waits for its line has gone. -/
def State.memTry (s : State) (ls : Nat) (r : MemHold) : State :=
  let before := (s.stack ls).held
  if before.any (fun x => x.off / 128 == r.off / 128) then s.modStack ls (fun t => { t with held := t.held ++ [r] })
  else
    let (s, left) := if r.write then s.memWriteGo ls r else s.memReadGo ls r
    match left with
    | some x => s.modStack ls (fun t => { t with held := t.held ++ [x] })
    | none => s

/-- The waiting requests of a stack tried again in order of arrival. -/
def State.memRetry (s : State) (ls : Nat) : State :=
  if (s.stack ls).held.isEmpty then s
  else (s.stack ls).held.foldl (fun s r => s.memTry ls r) (s.modStack ls (fun t => { t with held := [] }))

/-- MEM_READ (R171, R172, R176). -/
def execMemRead (ls off : Nat) (mask : BitVec 4) (decs : List Dec) (cls prio : Nat) (s : State) : Res :=
  upDo s (fun s => s.memTry ls { off := off, mask := mask, decs := decs, cls := cls, prio := prio })

/-- MEM_WRITE: bytes within one line (R171, R172, R177). -/
def execMemWrite (ls off : Nat) (bytes : List Byte) (pois : BitVec 4) (dec : Dec) (cls prio : Nat) (s : State) : Res :=
  upDo s (fun s =>
    if bytes.isEmpty || decide (128 < off % 128 + bytes.length) then s
    else s.memTry ls { write := true, off := off, bytes := bytes, pois := pois, dec := dec, cls := cls, prio := prio })

/-! ### Scheduling (R173, R174, R184) -/

/-- A latency-critical read. -/
def PcReq.critical (r : PcReq) : Bool := !r.write && decide (2 ≤ r.prio)

/-- Whether a request may issue before those that came earlier: no earlier request to its sector where either is a write (R172). A read of a sector with a queued write never entered the read queue, so only an older read or write of the sector holds a write. -/
def PseudoCh.free (c : PseudoCh) (r : PcReq) : Bool :=
  if r.write then
    !c.rq.any (fun x => x.sector == r.sector && decide (r.waited ≤ x.waited)) && (c.wq.find? (fun x => x.sector == r.sector) == some r)
  else true

/-- The class of a request is owed (R174). -/
def PseudoCh.owed (c : PseudoCh) (m : MemCtl) (cls : Nat) : Bool := decide (c.served.look cls 0 < bits (m.floor.look cls 0) 15 0)

/-- The request that has waited longest among those that meet `p`; the earlier arrival on a tie. -/
def oldest (p : PcReq → Bool) (l : List PcReq) : Option PcReq :=
  (l.filter p).foldl (fun (b : Option PcReq) r => match b with | none => some r | some x => if x.waited < r.waited then some r else b) none

/-- Whether a request is to an open row (R173). -/
def PseudoCh.rowOpen (c : PseudoCh) (r : PcReq) : Bool := c.openRow.look (offBank (32 * r.sector)) none == some (offRow (32 * r.sector))

/-- What a pseudo-channel issues in a cycle, or nothing: rules 2 to 6 of R173. -/
def PseudoCh.pick (c : PseudoCh) (m : MemCtl) : Option PcReq :=
  let all := (c.rq ++ c.wq).filter c.free
  let age := max 256 (bits m.ageLimit 15 0)
  let reads := c.rq.filter c.free
  let writes := c.wq.filter c.free
  (oldest (fun r => decide (age ≤ r.waited)) all).orElse (fun _ =>
  (oldest (fun r => c.owed m r.cls && r.critical) all).orElse (fun _ =>
  (oldest (fun r => c.owed m r.cls) all).orElse (fun _ =>
  (oldest PcReq.critical all).orElse (fun _ =>
  ((if c.draining then (oldest c.rowOpen writes).orElse (fun _ => oldest c.rowOpen reads)
    else (oldest c.rowOpen reads).orElse (fun _ => oldest c.rowOpen writes))).orElse (fun _ =>
  oldest (fun _ => true) all)))))

/-- The list without its first element equal to `r`. -/
def dropReq (l : List PcReq) (r : PcReq) : List PcReq := match findPos (· == r) l with | some k => l.eraseIdx k | none => l

/-- One controller cycle of a pseudo-channel: a refresh at its limit first, otherwise the request picked; every request that stays has waited one cycle more. With the issue rate halved every second cycle issues nothing (R434). -/
def PseudoCh.cycle (c : PseudoCh) (m : MemCtl) (halved : Bool) : PseudoCh :=
  let c := { c with draining := if 24 ≤ c.wq.length then true else if c.wq.length ≤ 8 then false else c.draining }
  let aged (l : List PcReq) : List PcReq := l.map (fun r => { r with waited := r.waited + 1 })
  if halved && c.half then { c with half := false, rq := aged c.rq, wq := aged c.wq }
  else
    let c := { c with half := halved }
    match c.postponed.find? (fun e => decide (8 ≤ e.2)) with
    | some e => { c with postponed := c.postponed.put e.1 (e.2 - 1), openRow := c.openRow.put e.1 none, rq := aged c.rq, wq := aged c.wq }
    | none =>
      match c.pick m with
      | none =>
        match c.postponed.find? (fun e => decide (0 < e.2)) with
        | some e => { c with postponed := c.postponed.put e.1 (e.2 - 1), openRow := c.openRow.put e.1 none }
        | none => c
      | some r =>
        { c with
          rq := aged (if r.write then c.rq else dropReq c.rq r)
          wq := aged (if r.write then dropReq c.wq r else c.wq)
          openRow := c.openRow.put (offBank (32 * r.sector)) (some (offRow (32 * r.sector)))
          served := c.served.put r.cls (c.served.look r.cls 0 + 1) }

/-- CONTROLLER_ISSUE; requests that waited for room are tried again (R172, R173). -/
def execControllerIssue (die pc : Nat) (s : State) : Res :=
  upDo s (fun s =>
    if isTileDie die && !bit (s.tile die).mem.status 1 then
      let s := s.modPch die pc (fun c => c.cycle (s.tile die).mem (decide (95 < (s.tile die).hotD)))
      match s.lsOf die with | some l => s.memRetry l | none => s
    else s)

/-- FLOOR_WINDOW: the counts of every pseudo-channel restart (R174). -/
def execFloorWindow (die : Nat) (s : State) : Res :=
  upDo s (fun s => s.modMem die (fun m => { m with pcs := m.pcs.each (fun _ c => { c with served := [] }) }))

/-- Entries occupied in the 64 queues of a stack. -/
def MemCtl.used (m : MemCtl) : Nat := m.pcs.foldl (fun n c => n + c.2.rq.length + c.2.wq.length) 0

/-- QUEUE_LEVEL_BROADCAST: min(7, floor(8 q / 2560)) to every regulator (R175). -/
def execQueueLevelBroadcast (die : Nat) (s : State) : Res :=
  upDo s (fun s =>
    match s.lsOf die with
    | none => s
    | some l =>
      let v := min 7 (8 * (s.tile die).mem.used / 2560)
      let s := s.modMem die (fun m => { m with qlevel := BitVec.ofNat 64 v })
      { s with masters := s.masters.each (fun _ m => { m with levels := m.levels.put l v }) })

/-- REFRESH: an interval has passed, and the bank has one more refresh postponed, eight at most (R184). A stack in self-refresh refreshes itself. -/
def execRefresh (die pc bank : Nat) (s : State) : Res :=
  upDo s (fun s =>
    if isTileDie die && !bit (s.tile die).mem.status 1 && decide (bank < 64) then
      s.modPch die pc (fun c => { c with postponed := c.postponed.put bank (min 8 (c.postponed.look bank 0 + 1)) })
    else s)

/-- PATROL_SCRUB: the sector at the cursor is read, and the cursor moves to the next, ascending, over the whole stack (R185). -/
def execPatrolScrub (ls : Nat) (dec : Dec) (s : State) : Res :=
  upDo s (fun s =>
    let d := (s.stack ls).die
    let off := bits (s.tile d).mem.scrub 34 5 * 32
    if !s.served ls || s.rebuilding ls off then s
    else (s.secRead ls off dec).modMem d (fun m => { m with scrub := BitVec.ofNat 64 ((off + 32) % 0x8_0000_0000) }))

/-! ### Windows of corrected errors (R186) -/

/-- The running window ends: its count clears, its report re-arms and the cause it held no longer holds (Table 20.4). -/
def State.ceEnd (s : State) (d : Nat) : State :=
  let s := s.modMem d (fun m => { m with ceCount := 0, reported := false })
  if s.flt.ceHolds = d then { s with flt := { s.flt with ceHolds := 0 } } else s

/-- CE_WINDOW_END (R186). -/
def execCeWindowEnd (die : Nat) (s : State) : Res := upDo s (fun s => if isTileDie die then s.ceEnd die else s)

/-- MEM_CE_WINDOW_WRITE: a value from 1 to 86,400,000 ends the running window; others are ignored (Table 7.7). -/
def execMemCeWindowWrite (port : Port) (die : Nat) (val : BitVec 64) (s : State) : Res :=
  upDo s (fun s =>
    if port != .pf && port != .mgmt then s.portDenied port 0x500040
    else
      let v := bits val 31 0
      if isTileDie die && decide (1 ≤ v) && decide (v ≤ 86400000) then (s.modMem die (fun m => { m with ceWindow := BitVec.ofNat 64 v })).ceEnd die else s)

/-- MEM_CE_THRESH_WRITE: the threshold applies at once to the running window (R186). -/
def execMemCeThreshWrite (port : Port) (die : Nat) (val : BitVec 64) (s : State) : Res :=
  upDo s (fun s =>
    if port != .pf && port != .mgmt then s.portDenied port 0x500048
    else if isTileDie die then (s.modMem die (fun m => { m with ceThresh := BitVec.ofNat 64 (bits val 31 0) })).ceCheck die
    else s)

/-! ### Parity messages (R182) -/

/-- A delta XORed into its parity sector. -/
def State.applyDelta (s : State) (x : Delta) : State :=
  let a := lsBase x.pls + x.off
  s.wrSec a (leBytes 32 ((ofLe (s.rd a 32)) ^^^ x.data.toNat))

/-- PARITY_DELTA: the delta numbered `n` of those on their way from a member arrives. A member's deltas and its reply to one parity sector arrive in order. One that follows the member's reply to a running rebuild is held. The parity sector is read with the outcome `dec`: an uncorrectable one is recomputed from data sectors that already hold the write (R182 steps 1 and 4). -/
def State.deltaArrive (s : State) (ls n : Nat) (dec : Dec) : State :=
  match (s.stack ls).deltas[n]? with
  | none => s
  | some x =>
    if ((s.stack ls).deltas.take n).any (fun y => y.pls == x.pls && y.off == x.off) then s
    else if s.stripes.any (fun m => m.kind == 2 && m.src == x.src && m.dst == x.pls && m.off == x.off) then s
    else
      let s := s.modStack ls (fun t => { t with deltas := t.deltas.eraseIdx n })
      match findPos (fun r => r.off == x.off && !r.await.contains x.src && !(r.target == some x.src)) (s.stack x.pls).rebuilds with
      | some k => s.modStack x.pls (fun t => { t with rebuilds := modNth t.rebuilds k (fun r => { r with held := r.held ++ [x] }) })
      | none =>
        match dec with
        | .clean => s.applyDelta x
        | .corrected => (s.ceRead x.pls x.off).applyDelta x
        | .uncorrectable => (match s.stripeOf x.pls x.off with | some (p, ms) => (s.logErr p x.off 2).parityRebuild p x.off ms | none => s)

/-- PARITY_DELTA (R182). -/
def execParityDelta (ls n : Nat) (s : State) (dec : Dec := .clean) : Res := upDo s (fun s => s.deltaArrive ls n dec)

/-- REBUILD: the parity member sends a stripe read to each other member that holds data (R182). -/
def execRebuild (n : Nat) (s : State) : Res :=
  upDo s (fun s =>
    match s.stripes[n]? with
    | none => s
    | some m =>
      match s.stripeOf m.dst m.off with
      | none => s
      | some (p, ms) =>
        if m.kind != 0 || p != m.dst || (s.stack p).rebuilds.any (fun r => r.off == m.off) then s
        else
          let s := { s with stripes := s.stripes.eraseIdx n }
          let data := ms.filter (fun x => x != p && x != m.src)
          (s.modStack p (fun t => { t with rebuilds := t.rebuilds ++ [{ area := s.areaOf p m.off, off := m.off, target := some m.src, await := data }] })).stripeReads p m.off data)

/-- STRIPE_READ: the member answers in order behind its earlier deltas to that parity sector; an uncorrectable or poisoned sector answers so (R182). -/
def execStripeRead (n : Nat) (dec : Dec) (s : State) : Res :=
  upDo s (fun s =>
    match s.stripes[n]? with
    | none => s
    | some m =>
      if m.kind != 1 || (s.stack m.dst).deltas.any (fun x => x.pls == m.src && x.off == m.off) then s
      else
        let a := lsBase m.dst + m.off
        let bad := s.secPois (a / 32) || dec == .uncorrectable
        let s := match dec with | .corrected => if s.secPois (a / 32) then s else s.ceRead m.dst m.off | _ => s
        { s with stripes := s.stripes.eraseIdx n ++ [{ kind := 2, src := m.dst, dst := m.src, off := m.off, data := if bad then 0 else BitVec.ofNat 256 (ofLe (s.rd a 32)), bad := bad }] })

/-- A data sector that cannot be rebuilt: written poisoned, with the events of R180 unless it already held poison. -/
def State.lostData (s : State) (ls off : Nat) : State :=
  let sec := (lsBase ls + off) / 32
  if s.secPois sec then s.ssuPoison 0 sec
  else
    let d := (s.stack ls).die
    let s := (s.ssuPoison 0 sec).modMem d (fun m => { m with ueCount := satAdd m.ueCount 1 })
    (s.report 0x3001 0 d 0 (128 + ls) 1 off 32 0).poisonEvent ls off 1

/-- The end of a rebuild: every reply is in. The parity sector is read with the outcome `dec` (R182 steps 3 to 5). A recomputed parity takes the sectors as they now stand, so it holds the deltas held and on their way. -/
def State.rebuildEnd (s : State) (p : Nat) (r : RebuildTxn) (dec : Dec) : State :=
  let ar := s.area r.area
  let s := if r.target.isSome && dec == .corrected then s.ceRead p r.off else s
  match r.target with
  | none => (r.bad.foldl (fun s m => s.lostData m r.off) s).recomputeParity ar r.off
  | some t =>
    if r.bad.isEmpty && dec != .uncorrectable then
      let own := (s.stack t).deltas.foldl (fun a x => if x.pls = p ∧ x.off = r.off then a ^^^ x.data.toNat else a) 0
      let v := s.memberSec p r.off ^^^ r.acc.toNat ^^^ own
      let s := (s.wrSec (lsBase t + r.off) (leBytes 32 v)).modStack t (fun y => { y with pois := y.pois.filter (· != r.off / 32) })
      let d := (s.stack t).die
      let s := s.modMem d (fun m => { m with recon := satAdd m.recon 1 })
      r.held.foldl State.applyDelta (s.report 0x0002 0 d 0 (128 + t) 1 r.off 32 0)
    else ((t :: r.bad).foldl (fun s m => s.lostData m r.off) s).recomputeParity ar r.off

end Sys2Proof.Machine
end

