-- ==== Sys2Proof/Machine/Compartments.lean ====
section
/-! DEFINITION. Compartments: the triggers and the steps of a fallow, and the resets of functions (R278 to R288, R205, R292, R354, R355). -/

namespace Sys2Proof.Machine

/-! ### Core reset (R41, R82, Table 4.1) -/

/-- Numbers that the seeding of a core's generators takes at a reset. -/
def coreDraws : Nat := 1

/-- A core at its reset values, its generators seeded from the true random number generator at event `t`; the tile agent's error counts stay. -/
def Core.fresh (c : Core) (t : Nat) : Core :=
  { shpGens := { draw := some t }, movGens := { draw := some t }
    eng := (List.range 4).map (fun q => (q, ({ gens := { draw := some t } } : Engine)))
    errs := c.errs }

/-- A core reset. -/
def State.coreReset (s : State) (d i : Nat) : State :=
  let t := s.tick
  { s.modCore d i (fun c => c.fresh t) with tick := t + coreDraws }

/-! ### Caches (R205) -/

/-- Every line a compartment allocated written back and invalidated in every cache. -/
def State.flushCmpt (s : State) (c : Nat) : State :=
  let dies := 0 :: (s.tiles.keys ++ s.graftCaches.keys.map (· + 29))
  dies.foldl (fun s d => (unitsOf d).foldl (fun s u => s.flushCache d u (fun l => l.cmpt == c)) s) s

/-- Whether any cache holds a line that a compartment allocated. -/
def State.anyLine (s : State) (c : Nat) : Bool :=
  (0 :: (s.tiles.keys ++ s.graftCaches.keys.map (· + 29))).any (fun d => (unitsOf d).any (fun u => (s.cache d u).lines.any (fun e => e.2.cmpt == c && e.2.st != .i)))

/-! ### The ranges a fallow wipes (R283 step 4, R284) -/

/-- A range without the parts that lie in another. -/
def cutRange (r x : Nat × Nat) : List (Nat × Nat) :=
  let lo := max r.1 x.1
  let hi := min (r.1 + r.2) (x.1 + x.2)
  if hi ≤ lo then [r] else ([(r.1, lo - r.1), (hi, r.1 + r.2 - hi)] : List (Nat × Nat)).filter (fun p => p.2 != 0)

/-- Ranges without the parts that lie in any of `xs`. -/
def cutRanges (rs xs : List (Nat × Nat)) : List (Nat × Nat) := xs.foldl (fun rs x => rs.flatMap (fun r => cutRange r x)) rs

/-- The physical ranges a compartment's segments map. -/
def State.mappedRanges (s : State) (c : Nat) : List (Nat × Nat) :=
  (s.cmpt c).segs.flatMap (fun e => if e.2.valid then s.segRanges e.2 else [])

/-- The stack ranges a fallow wipes: its TYPE 0 and TYPE 1 segments, those withdrawn through HUB_UNMAP_REQ among them, the parts of its TYPE 2 segments that no other compartment maps, and its landing slots. -/
def State.fallowRanges (s : State) (c : Nat) : List (Nat × Nat) :=
  let lifted := (s.cmpt c).lifted
  let others := (s.cmpts.filter (fun m => m.1 != c && m.1 != 0)).flatMap (fun m => s.mappedRanges m.1)
  (s.cmpt c).segs.flatMap (fun e =>
    if !e.2.valid && !lifted.contains e.1 then [] else match e.2.typ with
    | 0 | 1 => s.segRanges e.2
    | 2 => cutRanges (s.segRanges e.2) others
    | _ => []) ++
  (match (s.cmpt c).plan with
    | some r => if landingSlots r = 0 then [] else [(landingBase r, landingSlots r * 0x20_0000)]
    | none => [])

/-! ### Triggers (R282) -/

/-- CMP_FALLOW_REQ: GO and a compartment 1 to 63; other values are ignored (Table 13.5). -/
def execCmpFallowReq (port : Port) (val : BitVec 64) (s : State) : Res :=
  upDo s (fun s =>
    if port != .pf && port != .mgmt then s.portDenied port 0xA00600
    else if val.toNat / 2 ^ 63 = 1 ∧ bits val 62 6 = 0 ∧ bits val 5 0 ≠ 0 then s.fallowStart (bits val 5 0) 2 else s)

/-- A frame on a management session: one that comes before the client's BIND has verified ends the session (R372). -/
def State.mgmtDo (s : State) (session : Nat) (f : State → State) : State :=
  match s.auth.sessions.find? (fun m => m.id == session) with
  | none => s
  | some m => if m.clientBound then f s else { s with auth := { s.auth with sessions := s.auth.sessions.filter (fun x => x.id != session) } }

/-- A management response: OP and status code, then data (R373). -/
def State.answerFrame (s : State) (session op : Nat) (code : BitVec 16) (data : List Byte) : State := s.emit (.frame session op code data)

/-- FALLOW: the management operation (R282, Table 18.3). No status is stated for a number that is no compartment's: a free value (log 4). -/
def execFallow (session fn : Nat) (s : State) : Res :=
  upDo s (fun s => s.mgmtDo session (fun s =>
    if fn = 0 ∨ 64 ≤ fn then let (t, s) := s.draw; s.answerFrame session 0x0021 (failCode t) []
    else (s.fallowStart fn 3).answerFrame session 0x0021 0 []))

/-- PF_FLR: the PF's rings and its RW registers in BAR0, the staging buffers among them; nothing of a compartment, of the plan or of an image under check (R280). -/
def execPfFlr (s : State) : Res :=
  upDo s (fun s =>
    let s := s.modCmpt 0 (fun c => { c with
      sq := [], cq := {}, eq := {}, cqFull := false, next := 0, eqVector := 0, whint := [], win := [], msix := [], pba := [], msixEn := false, fmask := false })
    let s := (List.range 32).foldl (fun s l => s.modStack l (fun t => { t with
      queues := (t.queues.each (fun k q => if k < 4 then q.filter (fun e => e.st != .waiting) else q)).filter (fun q => !(q.1 < 4 && q.2.isEmpty)) })) s
    let gone := s.pci.reads.filter (fun r => r.fn == 0)
    { s with
      pci := { s.pci with reads := s.pci.reads.filter (fun r => r.fn != 0), dead := s.pci.dead ++ gone.map HostRead.tag }
      bed := { s.bed with staged := [], limit := 1000000#64 }
      upd := { s.upd with mbox := [] } })

/-! ### The steps (R283) -/

/-- Whether what a compartment had issued before a fallow has been performed: parity deltas of its writes, coherence messages of its lines, the posts it had made, and its contributions at the intakes of windows (R283 step 2). -/
def State.drained (s : State) (c : Nat) : Bool :=
  !s.deltasOut c && !s.coh.any (fun m => m.cmpt == c) && !s.posts.any (fun p => p.cmpt == c && p.fabric.isNone) &&
  s.stk.all (fun t => !t.2.intake.any (fun x => x.cmpt == c && x.peer.isNone && x.mover))

/-- FALLOW_DRAINED: step 2 ends; at step 3 every cache writes back and invalidates the compartment's lines. -/
def execFallowDrained (fn : Nat) (s : State) : Res :=
  upDo s (fun s =>
    if s.cstate fn == .fallow && (s.cmpt fn).step == 2 && s.drained fn then
      (s.flushCmpt fn).modCmpt fn (fun c => { c with step := 3 })
    else s)

/-- FALLOW_CACHES_CLEAN: step 3 ends; at step 4 the wipe of the ranges and SRAMs starts, counting both passes, and the keys are destroyed (R283, R308, R365). -/
def execFallowCachesClean (fn : Nat) (s : State) : Res :=
  upDo s (fun s =>
    if s.cstate fn == .fallow && (s.cmpt fn).step == 3 && !s.anyLine fn then
      let n := (s.fallowRanges fn).foldl (fun n r => n + r.2) 0
      let s := s.modCmpt fn (fun c => { c with step := 4, wipeLeft := 2 * ((n + 4095) / 4096), keys := [] })
      if (s.cmpt fn).role = 1 then { s with conf := { s.conf with approvals := [], released := false } } else s
    else s)

/-- Counters that read zero while a vitrine is active, cleared when the last vitrine stops being active (R355). -/
def State.clearSealed (s : State) : State :=
  { s with
    tiles := s.tiles.each (fun _ t => { t with cores := t.cores.each (fun _ c => { c with cycle := 0, instret := 0 }) })
    stk := s.stk.each (fun _ t => { t with applied := 0, dups := 0, refused := 0, attPages := 0, attStops := 0, recallCount := 0 })
    hubHome := { s.hubHome with recallCount := 0 }
    deadlines := s.deadlines.each (fun _ x => { x with nonconf := 0 })
    sto := { s.sto with tagFails := [], gib := [] }
    fab := { s.fab with retrans := 0, ports := s.fab.ports.each (fun _ p => { p with sent := 0, recv := 0 }) } }

/-- A vitrine stops being active. -/
def State.deactivate (s : State) (c : Nat) : State :=
  if (s.cmpt c).active then
    let s := s.modCmpt c (fun m => { m with active := false })
    if s.anyActive then s else s.clearSealed
  else s

/-- The items of Table 13.1 at their empty values (R283 step 5). -/
def State.emptyCmpt (s : State) (c : Nat) : State :=
  let cores := (List.range (s.nranks c)).filterMap (s.rankCore c)
  let s := cores.foldl (fun s p => s.coreReset p.1 p.2) s
  let s := (List.range 32).foldl (fun s l =>
    let a := (s.stack l).allot.look c 0
    s.modStack l (fun t => { t with
      queues := t.queues.filter (fun q => q.1 / 4 != c)
      cnt := t.cnt.filter (fun e => !(decide (bits a 23 16 ≤ e.1) && decide (e.1 < bits a 23 16 + bits a 31 24)))
      intake := t.intake.filter (fun x => x.cmpt != c || x.peer.isSome)
      wins := t.wins.filter (fun w => w.2.owner != c) })) s
  let s := { s with
    dispCnt := s.dispCnt.filter (fun e => e.1 / 8 != c)
    marks := s.marks.filter (fun m => m.cmpt != c)
    posts := s.posts.filter (fun p => p.cmpt != c)
    snaps := s.snaps.filter (fun e => !cores.contains (e.1 / 8, e.1 % 8)) }
  (s.clearWins c).modCmpt c (fun m => { m with
    sq := [], cq := {}, eq := {}, cqFull := false, next := 0, stalls := 0, eqLost := 0, pba := [], resmap := [], whint := []
    frecs := [], pcmds := [], heldWr := [], keys := [], wipeLeft := 0 })

/-- Whether a compartment's record goes with the epoch that put it fallow (R276). -/
def State.deletedByEpoch (s : State) (c : Nat) : Bool := match s.bed.job with | some j => j.stage == .withdrawing && j.deleted.contains c | none => false

/-- FALLOW_DONE: the wipe has ended, every item is at its empty value, and the state follows Table 13.2. -/
def State.fallowEnd (s : State) (c : Nat) : State :=
  let s := (s.fallowRanges c).foldl State.fallowWipe s
  let s := ((List.range (s.nranks c)).filterMap (s.rankCore c)).foldl (fun s p => s.wipeRange (storeBase p.1 p.2) 0x0084_0000) s
  let s := (s.emptyCmpt c).deactivate c
  let cause := (s.cmpt c).cause
  let gone := s.deletedByEpoch c
  let s := s.modCmpt c (fun m => { m with
    state := if m.plan.isNone || gone then .undef else .ready
    step := 0, fallows := satAdd m.fallows 1
    plan := if gone then none else m.plan
    tdi := if m.stopReq then .unlocked else m.tdi
    bound := m.bound && !m.stopReq
    stopReq := false })
  s.event 0 0x0050 0 (BitVec.ofNat 64 (c + 256 * cause))

/-- FALLOW_DONE (R283). -/
def execFallowDone (fn : Nat) (s : State) : Res :=
  upDo s (fun s => if s.cstate fn == .fallow && (s.cmpt fn).step == 4 then s.fallowEnd fn else s)

end Sys2Proof.Machine
end

