-- ==== Sys2Proof/Machine/Spdm.lean ====
section
/-! DEFINITION. Confidential operation: the SPDM responder, measurements, IDE keys, the TDI states, the key vault and the release quorum (R354 to R367). -/

namespace Sys2Proof.Machine

/-! ### The responder (R357, Table 17.3) -/

/-- The bit of a transport: 0 DOE, 1 the management port. -/
def trBit (mgmt : Bool) : BitVec 2 := if mgmt then 2#2 else 1#2

/-- A response; its bytes also serve CHUNK_GET (R357). -/
def State.spdmOk (s : State) (mgmt : Bool) (l : List Byte) : State :=
  { s with conf := { s.conf with chunkOut := s.conf.chunkOut.put (b2n mgmt) l } }.emit (.spdm mgmt true l)

/-- An ERROR response with the error code of SPDM 1.3. -/
def State.spdmErr (s : State) (mgmt : Bool) (code : Nat) : State := s.emit (.spdm mgmt false [BitVec.ofNat 8 code])

/-- Error codes of SPDM 1.3 that the responder uses. -/
def errInvalid : Nat := 0x01
def errUnexpected : Nat := 0x04
def errDecrypt : Nat := 0x06
def errUnsupported : Nat := 0x07
def errSessionLimit : Nat := 0x0A
def errSessionRequired : Nat := 0x0B

/-- GET_VERSION: SPDM 1.3; it restarts the negotiation of its transport. -/
def execGetVersion (mgmt : Bool) (s : State) : Res :=
  upDo s (fun s =>
    let b := trBit mgmt
    { s with conf := { s.conf with versioned := s.conf.versioned ||| b, caps := s.conf.caps &&& ~~~b, algs := s.conf.algs &&& ~~~b } }.spdmOk mgmt (leBytes 2 0x1300))

/-- GET_CAPABILITIES, after GET_VERSION. -/
def execGetCapabilities (mgmt : Bool) (s : State) : Res :=
  upDo s (fun s =>
    if s.conf.versioned &&& trBit mgmt = 0 then s.spdmErr mgmt errUnexpected
    else let (t, s) := s.draw
      { s with conf := { s.conf with caps := s.conf.caps ||| trBit mgmt } }.spdmOk mgmt (leBytes 4 t))

/-- NEGOTIATE_ALGORITHMS. `algs` says which of the supported suite the requester offers: [0] the Ed25519 and ML-DSA-65 pair, [1] SHA-384, [2] the hybrid key exchange, [3] AES-256-GCM. One that offers none of these receives UnsupportedRequest (Table 17.3). -/
def execNegotiateAlgorithms (mgmt : Bool) (algs : BitVec 32) (s : State) : Res :=
  upDo s (fun s =>
    if s.conf.caps &&& trBit mgmt = 0 then s.spdmErr mgmt errUnexpected
    else if algs.toNat % 16 ≠ 15 then s.spdmErr mgmt errUnsupported
    else { s with conf := { s.conf with algs := s.conf.algs ||| trBit mgmt } }.spdmOk mgmt (leBytes 4 15))

/-- A request that needs negotiated algorithms. -/
def State.negotiated (s : State) (mgmt : Bool) (f : State → State) : State :=
  if s.conf.algs &&& trBit mgmt = 0 then s.spdmErr mgmt errUnexpected else f s

/-- The digest of the manifest entry of a component of the active slot. -/
def State.manifestOf (s : State) (typ : Nat) : List Byte := bvBytes ((s.upd.slots.look s.upd.active {}).manifest.look typ 0)

/-- The Alias pair, by the CDI that derives it from the seed, the Curator firmware manifest and its security version (Table 17.2). -/
def State.alias (s : State) : BitVec 384 :=
  Config.hkdf s.auth.seed (bvBytes (Config.sha384 (s.manifestOf 1 ++ leBytes 1 (s.upd.slots.look s.upd.active {}).sec)))

/-- Slot 0: the DeviceID certificates and the Alias certificate that the ROM signs, in both issues (R356, Table 17.3). -/
def State.chain (s : State) : List Byte := s.auth.certs ++ Config.aliasCert s.auth.seed s.alias

/-- GET_DIGESTS: slot 0. -/
def execGetDigests (mgmt : Bool) (s : State) : Res :=
  upDo s (fun s => s.negotiated mgmt (fun s => s.spdmOk mgmt (bvBytes (Config.sha384 s.chain))))

/-- GET_CERTIFICATE: slot 0 only. -/
def execGetCertificate (mgmt : Bool) (slot off len : Nat) (s : State) : Res :=
  upDo s (fun s => s.negotiated mgmt (fun s =>
    if slot ≠ 0 then s.spdmErr mgmt errInvalid else s.spdmOk mgmt ((s.chain.drop off).take len)))

/-- CHALLENGE: the nonce and the certificate chain signed with the Alias pair. -/
def execChallenge (mgmt : Bool) (slot : Nat) (nonce : List Byte) (s : State) : Res :=
  upDo s (fun s => s.negotiated mgmt (fun s =>
    if slot ≠ 0 then s.spdmErr mgmt errInvalid
    else s.spdmOk mgmt (Config.sign s.alias (padTo 32 nonce ++ bvBytes (Config.sha384 s.chain)))))

/-! ### Measurements (Table 17.4) -/

/-- The value of a record of the plan in force. -/
def State.planRec (s : State) (t k : Nat) : Option (List Byte) := (s.bed.plan.find? (fun r => r.1 == t && r.2.1 == k)).map (·.2.2)

/-- The majority of the three life-cycle fuse copies (R375). -/
def State.lcVote (s : State) : BitVec 32 :=
  match s.auth.lcCopies with
  | [a, b, c] => (a &&& b) ||| (a &&& c) ||| (b &&& c)
  | _ => 0

/-- The life-cycle codeword in force: the majority that the boot ROM read at the last power-up (R375). -/
def State.lcWord (s : State) : BitVec 32 := s.auth.lcRead

/-- The boot ROM reads the life-cycle state (R375). -/
def State.lcLatch (s : State) : State :=
  { s with auth := { s.auth with
    lcRead := s.lcVote
    lcSplit := match s.auth.lcCopies with | [a, b, c] => a != b || b != c | _ => true } }

/-- The configuration of a compartment: its COMPARTMENT value, its SEGMENT values in key order and, with a ROLE, the POLICY value. -/
def State.configBytes (s : State) (c : Nat) : List Byte :=
  (s.planRec 2 c).getD [] ++ (List.range 16).flatMap (fun i => (s.planRec 3 (16 * c + i)).getD []) ++
    (if (s.cmpt c).role ≠ 0 then (s.planRec 12 0).getD [] else [])

/-- The number of a graft site's state (Table 16.6). -/
def siteCode : SiteSt → Nat
  | .empty => 0 | .reset => 1 | .accession => 2 | .admitted => 3 | .fenced => 4

/-- The number of a TDI state (Table 17.10). -/
def tdiCode : Tdi → Nat
  | .unlocked => 0 | .locked => 1 | .run => 2 | .error => 3

/-- What an index measures; none for an index that Table 17.4 does not name. -/
def State.measured (s : State) (i : Nat) : Option (List Byte) :=
  let slot := s.upd.slots.look s.upd.active {}
  if i = 2 then some (s.manifestOf 1 ++ leBytes 1 slot.sec)
  else if i = 3 then some (s.manifestOf 2)
  else if i = 4 then some (s.manifestOf 3 ++ s.manifestOf 4 ++ s.manifestOf 5 ++ s.manifestOf 6)
  else if i = 5 then some (s.manifestOf 7)
  else if i = 6 then some (bvBytes s.lcWord ++ [BitVec.ofNat 8 (b2n s.auth.dbgOn + 2 * b2n s.auth.dbgEh), BitVec.ofNat 8 (b2n s.auth.updLock), BitVec.ofNat 8 s.upd.rollback])
  else if i = 7 then some (bvBytes s.bed.hash ++ bvBytes s.bed.seq ++ bvBytes s.bed.epochs)
  else if i = 8 then some (bvBytes s.inv.product ++ bvBytes s.inv.units ++ bvBytes s.invActive ++ bvBytes s.invReserve ++ bvBytes s.inv.fenced
    ++ bvBytes s.inv.ports ++ bvBytes s.inv.graft ++ bvBytes s.inv.bin ++ s.bed.subst.flatMap (fun e => leBytes 2 (32768 + 256 * e.1 + e.2)) ++ bvBytes (s.router 0).revFloor)
  else if i = 9 then some (bvBytes s.fab.id ++ bvBytes s.fab.version ++ bvBytes s.fab.floor)
  else if 10 ≤ i ∧ i ≤ 13 then
    let x := s.site (i - 10)
    some (leBytes 1 (siteCode x.st) ++ bvBytes x.id ++ bvBytes x.meas ++ bvBytes x.certs)
  else if 0x41 ≤ i ∧ i ≤ 0x7F then some (s.configBytes (i - 0x40))
  else if 0x81 ≤ i ∧ i ≤ 0xBF then
    let m := s.cmpt (i - 0x80)
    some (leBytes 1 (b2n m.active) ++ leBytes 1 (tdiCode m.tdi) ++ (List.range 8).flatMap (fun k => let x := m.keys.look k {}; bvBytes (if x.loaded then x.relBy else 0)))
  else none

/-- One block: a SHA-384 digest, zero for an EMPTY site. -/
def State.block (s : State) (i : Nat) : Option (List Byte) :=
  if i = 1 then some (bvBytes Config.romDigest)
  else if 10 ≤ i ∧ i ≤ 13 ∧ (s.site (i - 10)).st = .empty then some (List.replicate 48 0)
  else (s.measured i).map (fun l => bvBytes (Config.sha384 l))

/-- The blocks of a request: index 0xFF returns indices 1 to 13. -/
def State.blocks (s : State) (i : Nat) : Option (List Byte) :=
  if i = 0xFF then some (((List.range 13).filterMap (fun k => s.block (k + 1))).flatten) else s.block i

/-- GET_MEASUREMENTS, signed over the requester's nonce with the Alias pair (R358). -/
def execGetMeasurements (mgmt : Bool) (index : Nat) (nonce : List Byte) (s : State) : Res :=
  upDo s (fun s => s.negotiated mgmt (fun s =>
    match s.blocks index with
    | none => s.spdmErr mgmt errInvalid
    | some l => s.spdmOk mgmt (l ++ Config.sign s.alias (padTo 32 nonce ++ l))))

/-! ### Sessions -/

/-- The live session of a number. -/
def State.session (s : State) (n : Nat) : Option Session := s.conf.sessions.find? (fun x => x.id == n && x.live)

/-- KEY_EXCHANGE: at most eight sessions on a transport; the session lives from FINISH. The device's key share is a fresh value. -/
def execKeyExchange (mgmt : Bool) (req : List Byte) (s : State) : Res :=
  upDo s (fun s => s.negotiated mgmt (fun s =>
    if 8 ≤ (s.conf.sessions.filter (fun x => x.mgmt == mgmt)).length then s.spdmErr mgmt errSessionLimit
    else
      let (t, s) := s.draw
      let n := s.conf.nextSession
      let s := { s with conf := { s.conf with sessions := s.conf.sessions ++ [({ id := n, mgmt := mgmt } : Session)], nextSession := n + 1 } }
      s.spdmOk mgmt (leBytes 4 n ++ leBytes 32 t ++ Config.sign s.alias (req ++ leBytes 32 t))))

/-- FINISH: `ok` says whether the requester's verification data checks. -/
def execFinish (mgmt : Bool) (session : Nat) (ok : Bool) (s : State) : Res :=
  upDo s (fun s =>
    if !s.conf.sessions.any (fun x => x.id == session && x.mgmt == mgmt && !x.live) then s.spdmErr mgmt errUnexpected
    else if !ok then { s with conf := { s.conf with sessions := s.conf.sessions.filter (fun (x : Session) => x.id != session) } }.spdmErr mgmt errDecrypt
    else { s with conf := { s.conf with sessions := s.conf.sessions.map (fun (x : Session) => if x.id = session then { x with live := true } else x) } }.spdmOk mgmt [])

/-- A request inside a secured session; outside one it receives SessionRequired. -/
def State.inSession (s : State) (session : Nat) (f : State → Session → State) : State :=
  match s.session session with | some x => f s x | none => s.spdmErr false errSessionRequired

/-- HEARTBEAT. -/
def execHeartbeat (session : Nat) (s : State) : Res := upDo s (fun s => s.inSession session (fun s x => s.spdmOk x.mgmt []))

/-- KEY_UPDATE: the session's next messages use its next keys. -/
def execKeyUpdate (session : Nat) (s : State) : Res := upDo s (fun s => s.inSession session (fun s x => s.spdmOk x.mgmt []))

/-- END_SESSION. -/
def execEndSession (session : Nat) (s : State) : Res :=
  upDo s (fun s => s.inSession session (fun s x =>
    { s with conf := { s.conf with sessions := s.conf.sessions.filter (fun (y : Session) => y.id != session) } }.spdmOk x.mgmt []))

/-- CHUNK_SEND: one more part of a large request; after the last part the request stands whole and arrives as its own command. -/
def execChunkSend (mgmt last : Bool) (data : List Byte) (s : State) : Res :=
  upDo s (fun s => { s with conf := { s.conf with chunkIn := s.conf.chunkIn.put (b2n mgmt) (if last then [] else s.conf.chunkIn.look (b2n mgmt) [] ++ data) } }.emit (.spdm mgmt true []))

/-- CHUNK_GET: the next part of the latest response. -/
def execChunkGet (mgmt : Bool) (len : Nat) (s : State) : Res :=
  upDo s (fun s =>
    let l := s.conf.chunkOut.look (b2n mgmt) []
    if l.isEmpty then s.spdmErr mgmt errUnexpected
    else { s with conf := { s.conf with chunkOut := s.conf.chunkOut.put (b2n mgmt) (l.drop len) } }.emit (.spdm mgmt true (l.take len)))

/-- IDE_KM: the keys of a stream programmed over a session on the PF's DOE; 0 is the link stream and 1 to 16 are the selective streams (R359, CUR_IDE_STATUS). -/
def execIdeKm (session stream : Nat) (s : State) : Res :=
  upDo s (fun s => s.inSession session (fun s x =>
    if x.mgmt || decide (16 < stream) then s.spdmErr x.mgmt errInvalid
    else
      let p := { s.pci with ideBy := s.pci.ideBy.put stream (session + 1) }
      { s with pci := if stream = 0 then { p with ideLink := true } else { p with ideSel := setBit p.ideSel (stream - 1) true } }.spdmOk false []))

/-! ### The vault (R362, R363) -/

/-- A 16-bit status in a vault response. -/
def State.vault (s : State) (x : Session) (code : Nat) (data : List Byte) : State := s.spdmOk x.mgmt (leBytes 2 code ++ data)

/-- The POLICY's joint compartment, quorum and party entries: compartment and key identity. -/
def polJoint (p : List Byte) : Nat := fieldAt p 0 1
def polParties (p : List Byte) : Nat := fieldAt p 1 1
def polQuorum (p : List Byte) : Nat := fieldAt p 2 1
def polCmpt (p : List Byte) (i : Nat) : Nat := fieldAt p (16 + 56 * i) 1
def polKey (p : List Byte) (i : Nat) : BitVec 384 := BitVec.ofNat 384 (fieldAt p (24 + 56 * i) 48)

/-- Both signatures over the transcript hash and the message up to the end of its public keys, under the identity of those keys (R362). -/
def sigOk (session : Nat) (msg : List Byte) (keys sigs : Nat) : Bool :=
  Config.verify (Config.sha384 ((msg.drop keys).take 1984)) (bvBytes (Config.sha384 (bvBytes (Config.transcript session) ++ msg.take (keys + 1984)))) (msg.drop sigs)

/-- The releaser a KEY_RELEASE or KEY_ERASE is entitled as, or none (Table 17.6): the identity recorded, zero where no key pair signs. -/
def State.releaser (s : State) (x : Session) (c : Nat) (msg : List Byte) : Option (BitVec 384) :=
  let m := s.cmpt c
  let id := Config.sha384 ((msg.drop 40).take 1984)
  let p := s.policy.getD []
  let parties := List.range (polParties p)
  if !m.vitrine then some 0
  else if m.role = 2 then
    if parties.any (fun i => polCmpt p i == c && polKey p i == id) && sigOk x.id msg 40 2024 then some id else none
  else if m.role = 1 then
    if parties.any (fun i => polKey p i == id) && sigOk x.id msg 40 2024 then some id else none
  else if m.bound && (m.tdi == .locked || m.tdi == .run) && s.pci.ideBy.look m.stream 0 == x.id + 1 then some 0
  else none

/-- The format of a KEY_RELEASE or KEY_ERASE: length and reserved bytes (Table 17.7). -/
def keyMsgOk (erase : Bool) (msg : List Byte) : Bool :=
  msg.length == 5397 && fieldAt msg 2 1 / 8 == 0 && fieldAt msg 3 1 == 0 && (!erase || allZero ((msg.drop 4).take 36))

/-- The code a KEY_RELEASE or KEY_ERASE is refused with, or zero (R363, R382). -/
def State.keyCode (s : State) (x : Session) (erase : Bool) (msg : List Byte) : Nat :=
  let c := fieldAt msg 1 1
  let k := fieldAt msg 2 1 % 8
  let m := s.cmpt c
  let slot := m.keys.look k {}
  if !keyMsgOk erase msg then 0x7003
  else if m.plan.isNone ∨ 64 ≤ c then 0x9002
  else if s.cstate c = .fallow then 0x9001
  else if !erase && m.vitrine && !m.active && s.debugOpen then 0x700D
  else match s.releaser x c msg with
    | none => 0x7004
    | some id =>
      if (m.vitrine && m.role == 1 && k == 7) || (if erase then !slot.loaded || slot.relBy != id else slot.loaded) then 0x7005 else 0

/-- KEY_RELEASE in a session: held while a load, an epoch or a trial holds the vitrine's activation back; otherwise checked, and the key loaded (R354, R363). -/
def State.keyRelease (s : State) (session : Nat) (msg : List Byte) : State :=
  s.inSession session (fun s x =>
    let c := fieldAt msg 1 1
    let k := fieldAt msg 2 1 % 8
    if (s.cmpt c).vitrine && !(s.cmpt c).active && s.holdsTrigger c && s.keyCode x false msg == 0 then
      { s with conf := { s.conf with held := s.conf.held ++ [.cmd (.keyRelease session msg)] } }
    else
      let code := s.keyCode x false msg
      if code ≠ 0 then s.vault x code []
      else
        let slot : KeySlot := { loaded := true, key := BitVec.ofNat 256 (fieldAt msg 8 32), salt := BitVec.ofNat 32 (fieldAt msg 4 4), ctr := 0, relBy := (s.releaser x c msg).getD 0 }
        let s := s.modCmpt c (fun m => { m with keys := m.keys.put k slot })
        let s := s.activate c
        ((s.event c 0x0091 0 (BitVec.ofNat 64 k)).event 0 0x0091 c (BitVec.ofNat 64 k)).vault x 0 [])

/-- KEY_RELEASE (R363). -/
def execKeyRelease (session : Nat) (msg : List Byte) (s : State) : Res := upDo s (fun s => s.keyRelease session msg)

/-- KEY_ERASE (R363). -/
def execKeyErase (session : Nat) (msg : List Byte) (s : State) : Res :=
  upDo s (fun s => s.inSession session (fun s x =>
    let code := s.keyCode x true msg
    if code ≠ 0 then s.vault x code []
    else (s.modCmpt (fieldAt msg 1 1) (fun m => { m with keys := m.keys.del (fieldAt msg 2 1 % 8) })).vault x 0 []))

/-! ### The release quorum (R365, R366) -/

/-- The party entry whose compartment and key pair an approval names, when its signatures verify. -/
def State.approver (s : State) (x : Session) (msg : List Byte) : Option Nat :=
  let p := s.policy.getD []
  if sigOk x.id msg 152 2136 then
    (List.range (polParties p)).find? (fun i => polCmpt p i == fieldAt msg 1 1 && polKey p i == Config.sha384 ((msg.drop 152).take 1984))
  else none

/-- The code an APPROVE or APPROVE_WITHDRAW is refused with, or zero: the checks of R365, and the refusal of a message that names a compartment in its fallow (R367), which is taken before the signatures (log 62). -/
def State.approvalCode (s : State) (x : Session) (withdraw : Bool) (msg : List Byte) : Nat :=
  if msg.length ≠ 5509 ∨ fieldAt msg 2 2 ≠ 0 ∨ (withdraw ∧ !allZero ((msg.drop 104).take 48)) then 0x7003
  else match s.policy with
    | none => 0x7006
    | some p =>
      let j := polJoint p
      if s.cstate j = .fallow then 0x9001
      else if !(s.cmpt j).active then 0x7006
      else if s.cstate (fieldAt msg 1 1) = .fallow then 0x9001
      else if (s.approver x msg).isNone then 0x7004
      else if BitVec.ofNat 384 (fieldAt msg 8 48) ≠ Config.sha384 p ∨ BitVec.ofNat 384 (fieldAt msg 56 48) ≠ Config.sha384 (s.configBytes j)
        ∨ fieldAt msg 4 4 ≠ s.conf.round.toNat then 0x7006
      else 0

/-- A quorum of the round: the release key drawn, slot 7 of the joint loaded, the round raised and its approvals cleared. -/
def State.releaseRound (s : State) (j : Nat) (recipient : BitVec 384) : State :=
  let (a, s) := s.draw
  let (b, s) := s.draw
  let key := BitVec.ofNat 256 a
  let salt := BitVec.ofNat 32 b
  let r := s.conf.round
  let s := s.modCmpt j (fun m => { m with keys := m.keys.put 7 { loaded := true, key := key, salt := salt, ctr := 0, relBy := 0 } })
  let s := { s with conf := { s.conf with recipient := recipient, relKey := key, relSalt := salt, released := true, round := r + 1, approvals := [] } }
  (s.event 0 0x0092 j (BitVec.ofNat 64 r.toNat)).event j 0x0092 0 (BitVec.ofNat 64 r.toNat)

/-- APPROVE: the approval recorded, and the quorum's step when it completes one (R365). -/
def execApprove (session : Nat) (msg : List Byte) (s : State) : Res :=
  upDo s (fun s => s.inSession session (fun s x =>
    let code := s.approvalCode x false msg
    if code ≠ 0 then s.vault x code []
    else
      let p := s.policy.getD []
      let i := (s.approver x msg).getD 0
      let r := BitVec.ofNat 384 (fieldAt msg 104 48)
      let l := s.conf.approvals.filter (fun (a : Approval) => a.party != i) ++ [({ party := i, recipient := r } : Approval)]
      let s := { s with conf := { s.conf with approvals := l } }
      let s := if polQuorum p ≤ (l.filter (fun (a : Approval) => a.recipient == r)).length then s.releaseRound (polJoint p) r else s
      s.vault x 0 []))

/-- APPROVE_WITHDRAW (R365). -/
def execApproveWithdraw (session : Nat) (msg : List Byte) (s : State) : Res :=
  upDo s (fun s => s.inSession session (fun s x =>
    let code := s.approvalCode x true msg
    if code ≠ 0 then s.vault x code []
    else
      let i := (s.approver x msg).getD 0
      { s with conf := { s.conf with approvals := s.conf.approvals.filter (fun (a : Approval) => a.party != i) } }.vault x 0 []))

/-- RELEASE_FETCH: the latest release key wrapped to the recipient of its round, with a fresh ephemeral key (R366). -/
def execReleaseFetch (session : Nat) (msg : List Byte) (s : State) : Res :=
  upDo s (fun s => s.inSession session (fun s x =>
    if msg.length ≠ 1224 ∨ fieldAt msg 1 3 ≠ 0 then s.vault x 0x7003 []
    else if !s.conf.released ∨ fieldAt msg 4 4 + 1 ≠ s.conf.round.toNat ∨ Config.sha384 (msg.drop 8) ≠ s.conf.recipient then s.vault x 0x7006 []
    else
      let (t, s) := s.draw
      s.vault x 0 (Config.wrap s.conf.recipient (bvBytes s.conf.relKey ++ bvBytes s.conf.relSalt ++ leBytes 4 (s.conf.round.toNat - 1) ++ leBytes 32 t))))

/-! ### The TDI (R360, R361, Table 17.5) -/

/-- A TDISP answer, or TDISP_ERROR. -/
def State.tdisp (s : State) (ok : Bool) (l : List Byte) : State := s.spdmOk false (leBytes 1 (b2n ok) ++ l)

/-- Whether a function is a TDI: the VF of a vitrine of ROLE 0 or 2. -/
def State.isTdi (s : State) (fn : Nat) : Bool := fn != 0 && (s.cmpt fn).vitrine && (s.cmpt fn).role != 1

/-- Whether a VF answers a request about TDISP itself: every VF does, but for a TDI in ERROR, which answers STOP_INTERFACE_REQUEST only (R360, Table 17.5). -/
def State.tdispServes (s : State) (fn : Nat) : Bool := fn != 0 && decide (fn < 64) && !(s.isTdi fn && (s.cmpt fn).tdi == .error)

/-- GET_TDISP_VERSION (R360). -/
def execGetTdispVersion (session fn : Nat) (s : State) : Res :=
  upDo s (fun s => s.inSession session (fun s _ => if s.tdispServes fn then s.tdisp true [0x10] else s.tdisp false []))

/-- GET_TDISP_CAPABILITIES (R360). -/
def execGetTdispCapabilities (session fn : Nat) (s : State) : Res :=
  upDo s (fun s => s.inSession session (fun s _ =>
    if s.tdispServes fn then let (t, s) := s.draw; s.tdisp true (leBytes 4 t) else s.tdisp false []))

/-- LOCK_INTERFACE_REQUEST. -/
def State.lockInterface (s : State) (session fn stream : Nat) : State :=
  s.inSession session (fun s _ =>
    let m := s.cmpt fn
    if !s.isTdi fn || m.tdi != .unlocked || s.cstate fn != .ready || !s.streamSecure stream || (!m.active && s.debugOpen) then s.tdisp false []
    else if !m.active && s.holdsTrigger fn then { s with conf := { s.conf with held := s.conf.held ++ [.cmd (.lockInterfaceRequest session fn stream)] } }
    else
      let (t, s) := s.draw
      let n := BitVec.ofNat 256 t
      let s := s.modCmpt fn (fun m => { m with tdi := .locked, stream := stream, bound := true, nonce := n, stopReq := false })
      (s.activate fn).tdisp true (bvBytes n))

/-- LOCK_INTERFACE_REQUEST (R360). -/
def execLockInterfaceRequest (session fn stream : Nat) (s : State) : Res := upDo s (fun s => s.lockInterface session fn stream)

/-- START_INTERFACE_REQUEST: carrying the nonce, from CONFIG_LOCKED (R360, R361). -/
def execStartInterfaceRequest (session fn : Nat) (nonce : BitVec 256) (s : State) : Res :=
  upDo s (fun s => s.inSession session (fun s _ =>
    if s.isTdi fn && (s.cmpt fn).tdi == .locked && (s.cmpt fn).nonce == nonce then
      (s.modCmpt fn (fun m => { m with tdi := .run })).tdisp true []
    else s.tdisp false []))

/-- STOP_INTERFACE_REQUEST: the compartment goes fallow unless it is already, and the TDI is unlocked when the fallow ends, or at once when none runs (Table 17.5). -/
def execStopInterfaceRequest (session fn : Nat) (s : State) : Res :=
  upDo s (fun s => s.inSession session (fun s _ =>
    if !s.isTdi fn then s.tdisp false []
    else if (s.cmpt fn).tdi = .unlocked then s.tdisp true []
    else
      let s := s.modCmpt fn (fun m => { m with tdi := .error })
      let s := if s.cstate fn = .ready then s.tdiFallow fn else s
      let s := if s.cstate fn = .fallow then s.modCmpt fn (fun m => { m with stopReq := true })
        else s.modCmpt fn (fun m => { m with tdi := .unlocked, bound := false })
      s.tdisp true []))

/-! ### Held messages (R354, R392) -/

/-- A held message handled. -/
def State.heldMsg (s : State) (h : Held) : State :=
  match h with
  | .cmd (.keyRelease n m) => s.keyRelease n m
  | .cmd (.lockInterfaceRequest n f t) => s.lockInterface n f t
  | .cmd _ => s

/-- The triggers that waited for the end of a load, an epoch or a trial take effect: messages in order of arrival, then the BAR0 writes of each compartment. -/
def State.releaseHeld (s : State) : State :=
  let s := s.conf.held.foldl State.heldMsg { s with conf := { s.conf with held := [] } }
  (List.range 64).foldl State.releaseWrites s

end Sys2Proof.Machine
end

