-- ==== Sys2Proof/Machine/Plan.lean ====
section
/-! DEFINITION. Bed plan images: the container, the records, and the checks of Table 12.7 (R259 to R273, R246, R254 to R257). -/

namespace Sys2Proof.Machine

/-! ### Records (R260, Table 12.3) -/

/-- Keys and values of a type. -/
def ofType (p : List PlanRec) (t : Nat) : List (Nat × List Byte) := (p.filter (fun r => r.1 == t)).map (·.2)

/-- Bits of byte `i` of a value that the record's layout reserves (Tables 12.4 to 12.6, 9.1, 9.2, 9.7, 10.6). -/
def resMask (t : Nat) (v : List Byte) (i : Nat) : Nat :=
  match t with
  | 1 => if i % 2 = 0 then 0xC0 else 0x7F
  | 2 =>
    if i = 0 then 0xE2 else if i = 2 then 1 else if 4 ≤ i ∧ i < 8 then 0xFF
    else if i = 9 then 0xE0 else if i = 10 then 0xFF else if i = 15 then 0x80
    else if i = 34 ∨ i = 35 then 0xFF
    else if 40 ≤ i ∧ i < 168 ∧ i % 4 = 1 then 0xFC else 0
  | 3 =>
    if i = 5 then 0xF0 else if 24 ≤ i then 0xFF else
    match fieldAt v 6 1 % 8 with
    | 0 | 2 => if i = 12 then 0xF8 else if i = 14 then 0xFC else if i = 15 then 0xFF else if i = 20 then 0xF8 else if 21 ≤ i then 0xFF else 0
    | 1 => if i = 8 then 0xF0 else if 9 ≤ i then 0xFF else 0
    | 3 => if 16 ≤ i then 0xFF else 0
    | 4 => if i = 10 ∨ i = 11 then 0xFF else if i = 13 then 0xFC else if 14 ≤ i then 0xFF else 0
    | _ => 0
  | 5 => if i = 1 ∨ (4 ≤ i ∧ i < 8) then 0xFF else if 16 ≤ i ∧ (i - 16) % 12 = 3 then 0xFF else 0
  | 6 => if 6 ≤ i then 0xFF else 0
  | 8 => if i < 66 ∧ i % 2 = 0 then 0xF0 else 0
  | 9 =>
    if i = 0 then (if 0x80 ≤ fieldAt v 1 1 then 0xC0 else 0xF8)
    else if i = 1 then (if 0x80 ≤ fieldAt v 1 1 then 0x7F else 0x40)
    else if 4 ≤ i ∧ i % 4 = 0 then 0xF0 else 0
  | 10 =>
    if i = 2 ∨ i = 3 then 0xFF else if i = 7 then 0xF0 else if 10 ≤ i ∧ i < 16 then 0xFF
    else if i < 16 then 0
    else match (i - 16) % 16 with | 5 => 0xF0 | 6 | 7 | 12 | 13 | 14 | 15 => 0xFF | _ => 0
  | 11 => if i = 0 then 0xF0 else if i = 2 then 0xFE else if i = 22 ∨ i = 23 then 0xFF else 0
  | 12 => if i = 3 ∨ (13 ≤ i ∧ i < 16) then 0xFF else if 16 ≤ i ∧ 1 ≤ (i - 16) % 56 ∧ (i - 16) % 56 < 8 then 0xFF else 0
  | _ => 0

/-- The first byte of a value with a reserved bit set. -/
def reservedAt (t : Nat) (v : List Byte) : Option Nat := (List.range v.length).find? (fun i => fieldAt v i 1 &&& resMask t v i != 0)

/-- The length a value must have (R261 to R267). -/
def lenOk (t : Nat) (v : List Byte) : Bool :=
  match t with
  | 1 => v.length == 64
  | 2 => v.length == 168 + fieldAt v 3 1
  | 3 => v.length == 32
  | 4 => v.length == 24
  | 5 => decide (16 ≤ v.length) && (v.length - 16) % 12 == 0
  | 6 | 7 => v.length == 8
  | 8 => v.length == 74
  | 9 => v.length == 4 + 4 * fieldAt v 2 2
  | 10 => v.length == 16 + 16 * fieldAt v 8 2
  | 11 => v.length == 72
  | 12 => v.length == 16 + 56 * fieldAt v 1 1
  | _ => false

/-! ### The container (R259, R260): step 2 -/

/-- A refusal: step, code and detail. -/
structure PlanErr where
  /-- step of Table 12.7 -/
  step : Nat := 0
  /-- code -/
  code : Nat := 0
  /-- BED_DETAIL -/
  detail : Nat := 0
  deriving DecidableEq, Repr

/-- A refusal that names a record (0xFFFF for the header or trailer) and a byte of its value (R274). -/
def perr (step code idx off : Nat) : PlanErr := { step := step, code := code, detail := idx % 65536 * 2 ^ 48 + off % 65536 * 2 ^ 32 }

/-- The records between header and trailer, in strictly ascending order; a record that breaks the container answers its index and byte offset. -/
def readRecs : Nat → List Byte → Nat → Option (Nat × Nat) → List PlanRec → Except (Nat × Nat) (List PlanRec)
  | 0, _, i, _, _ => .error (i, 0)
  | fuel + 1, l, i, last, acc =>
    if l.isEmpty then .ok acc
    else
      let t := fieldAt l 0 2
      let k := fieldAt l 2 2
      let n := fieldAt l 4 4
      let m := roundUp n 8
      let key := (t % 32768, k)
      let v := (l.drop 8).take n
      if l.length < 8 + m ∨ !allZero ((l.drop (8 + n)).take (m - n)) ∨
        last.any (fun (x : Nat × Nat) => !(decide (x.1 < key.1) || (x.1 == key.1 && decide (x.2 < key.2)))) then .error (i, 0)
      else match (if 32768 ≤ t then none else reservedAt t v) with
        | some off => .error (i, off)
        | none => readRecs fuel (l.drop (8 + m)) (i + 1) (some key) (acc ++ [(t, k, v)])

/-- The image's fields (Tables 12.1 and 12.2). -/
def imgKind (l : List Byte) : Nat := fieldAt l 6 1
def imgSeq (l : List Byte) : Nat := fieldAt l 16 8
def imgBase (l : List Byte) : BitVec 384 := BitVec.ofNat 384 (fieldAt l 24 48)
def imgHash (l : List Byte) : BitVec 384 := BitVec.ofNat 384 (fieldAt l (l.length - 3432) 48)
def imgKeySlot (l : List Byte) : Nat := fieldAt l (l.length - 3432 + 48) 2

/-- Step 2: the container. -/
def readImage (l : List Byte) : Except PlanErr (List PlanRec) :=
  let n := l.length
  let tr := n - 3432
  if n < 3512 ∨ 4194304 < n ∨ fieldAt l 12 4 ≠ n ∨ fieldAt l 0 4 ≠ 0x50424845 ∨ fieldAt l 4 2 ≠ 1 ∨ 1 < imgKind l
    ∨ 8 ≤ fieldAt l 7 1 ∨ fieldAt l 76 4 ≠ 0 ∨ (imgKind l = 0 ∧ fieldAt l 24 48 ≠ 0) ∨ fieldAt l (tr + 50) 2 ≠ 0 ∨ fieldAt l (tr + 3425) 7 ≠ 0 then
    .error (perr 2 0x6003 0xFFFF 0)
  else match readRecs n ((l.take tr).drop 80) 0 none [] with
    | .error e => .error (perr 2 0x6003 e.1 e.2)
    | .ok rs => if rs.length = fieldAt l 72 4 then .ok rs else .error (perr 2 0x6003 0xFFFF 0)

/-! ### What a plan names -/

/-- Logical stacks of the part (R169). -/
def State.nls (s : State) : Nat := if bits s.inv.product 7 0 = 3 then 24 else 26

/-- Whether a die has a router: the hub and every tile that is not absent. -/
def State.hasRouter (s : State) (d : Nat) : Bool := d == 0 || invBit s.inv.active d || invBit s.inv.reserve d || invBit s.inv.fenced d

/-- Whether a tile the plan names is active after substitution (R262). -/
def State.tileActive (s : State) (d : Nat) : Bool := invBit s.inv.active (s.substDie d) && !invBit s.inv.fenced (s.substDie d)

/-- Entry `n` of DIE_ROLES: the die that serves LS `n`, after substitution. -/
def State.roleDie (s : State) (p : List PlanRec) (n : Nat) : Option Nat :=
  match planVal p 1 0 with
  | none => none
  | some v => if 0x8000 ≤ fieldAt v (2 * n) 2 then some (s.substDie (fieldAt v (2 * n) 2 % 64)) else none

/-- A SEGMENT value as an entry. -/
def segOf (v : List Byte) : Seg := { w0 := BitVec.ofNat 64 (fieldAt v 0 8), w1 := BitVec.ofNat 64 (fieldAt v 8 8), w2 := BitVec.ofNat 64 (fieldAt v 16 8) }

/-- Members, B and L of a guarded area. -/
def areaOfRec (v : List Byte) : List Nat × Nat × Nat := ((List.range 8).map (fun i => fieldAt v i 1), fieldAt v 8 8, fieldAt v 16 8)

/-- A guarded area of a plan. -/
def planArea (p : List PlanRec) (i : Nat) : Option (List Nat × Nat × Nat) := (planVal p 4 i).map areaOfRec

/-- A COMPARTMENT value decoded (Table 12.4). -/
def cmptRec (v : List Byte) : CmptRec :=
  { mode := BitVec.ofNat 8 (fieldAt v 0 1), vectors := fieldAt v 1 1, classes := BitVec.ofNat 8 (fieldAt v 2 1)
    landing := BitVec.ofNat 64 (fieldAt v 8 8), ctrGrant := BitVec.ofNat 64 (fieldAt v 16 8), winGrant := BitVec.ofNat 64 (fieldAt v 24 8)
    rlcWays := BitVec.ofNat 16 (fieldAt v 32 2), scWays := BitVec.ofNat 32 (fieldAt v 36 4)
    allot := (List.range 32).filterMap (fun n => let x := fieldAt v (40 + 4 * n) 4; if x = 0 then none else some (n, BitVec.ofNat 32 x))
    ranks := (v.drop 168).take (fieldAt v 3 1), value := v }

/-- The compartments of a plan. -/
def planCmpts (p : List PlanRec) : List (Nat × CmptRec) := (ofType p 2).map (fun e => (e.1, cmptRec e.2))

/-- VITRINE and ROLE of a record. -/
def CmptRec.isVitrine (r : CmptRec) : Bool := bit r.mode 0
def CmptRec.roleOf (r : CmptRec) : Nat := bits r.mode 3 2

/-- The physical ranges a segment of a plan maps. -/
def planRanges (p : List PlanRec) (e : Seg) : List (Nat × Nat) :=
  match e.typ with
  | 0 | 2 => (List.range e.nls).filterMap (fun j => let n := min e.per (e.limit - j * e.per); if n = 0 then none else some (lsBase (e.firstLs + j) + e.off, n))
  | 1 => match planArea p e.area with
    | none => []
    | some (ms, b, l) => let n := min l ((e.limit + 7 * 2048 - 1) / (7 * 2048) * 2048); if n = 0 then [] else ms.map (fun m => (lsBase m + b, n))
  | _ => []

/-- Whether two lists of ranges share a byte. -/
def rangesMeet (a b : List (Nat × Nat)) : Bool := a.any (fun x => b.any (fun y => decide (x.1 < y.1 + y.2) && decide (y.1 < x.1 + x.2)))

/-- A landing area's range. -/
def landingRange (r : CmptRec) : List (Nat × Nat) := if landingSlots r = 0 then [] else [(landingBase r, landingSlots r * 0x20_0000)]

/-! ### Step 8: records (BED_RECORD) -/

/-- A boundary code of Table 11.8. -/
def boundaryOk (b : Nat) : Bool := decide (b ≤ 5) || (decide (0x21 ≤ b) && decide (b ≤ 0x3C))

/-- A die selector and a master index (Tables 11.3, 12.3). -/
def selOk (d : Nat) : Bool := decide (d ≤ 28) || d == 0xFF
def masterOk (d m : Nat) : Bool := if d = 0 then decide (m ≤ 8) else decide (m ≤ 17)

/-- Master entries of a CLASS value: die selector, index, weight, FLOOR_BW or OT, BUDGET. -/
def classMasters (v : List Byte) : List (Nat × Nat × Nat × Nat × Nat) :=
  (List.range ((v.length - 16) / 12)).map (fun j => (fieldAt v (16 + 12 * j) 1, fieldAt v (17 + 12 * j) 1, fieldAt v (18 + 12 * j) 1, fieldAt v (20 + 12 * j) 4, fieldAt v (24 + 12 * j) 4))

/-- The CLASS entry of a master: one that names its die before one that names every tile. -/
def classEntry (p : List PlanRec) (c d m : Nat) : Option (Nat × Nat × Nat × Nat × Nat) :=
  match planVal p 5 c with
  | none => none
  | some v =>
    match (classMasters v).find? (fun e => e.1 == d && e.2.1 == m) with
    | some e => some e
    | none => if d = 0 then none else (classMasters v).find? (fun e => e.1 == 0xFF && e.2.1 == m)

/-- The MASTER record of a master: W and URG_OT. -/
def masterRec (p : List PlanRec) (d m : Nat) : Nat × Nat :=
  let v := match planVal p 6 (256 * d + m) with
    | some v => some v
    | none => if d = 0 then none else planVal p 6 (256 * 0xFF + m)
  match v with | some v => (fieldAt v 0 4, fieldAt v 4 2) | none => (0, 0)

/-- A FP32 pattern above zero, and one at least zero. -/
def posF32 (x : Nat) : Bool := decide (0 < x) && decide (x ≤ 0x7F800000)
def nonNegF32 (x : Nat) : Bool := decide (x ≤ 0x7F800000) || x == 0x80000000

/-- The master of a boundary (R251, Tables 11.3, 11.8). -/
def boundaryMaster (b : Nat) : Nat × Nat := if b < 2 then (0, 2 + b) else if b < 6 then (0, 2 + b) else (b - 0x20, 17)

/-- The first offset of a list of checks whose condition holds. -/
def firstBad (l : List (Bool × Nat)) : Option Nat := (l.find? (·.1)).map (·.2)

/-- A route entry is well formed for a router. -/
def routeEntryBad (d e : Nat) : Bool := decide ((if d = 0 then 8 else 4) < e % 16) || (d != 0 && decide (4096 ≤ e))

/-- The first bad field of a record, as a byte offset (step 8). -/
def State.fieldBad (s : State) (p : List PlanRec) (t k : Nat) (v : List Byte) : Option Nat :=
  if !lenOk t v then some 0
  else match t with
  | 1 => firstBad ((k != 0, 0) :: (List.range 32).map (fun n =>
      let e := fieldAt v (2 * n) 2
      (decide (0x8000 ≤ e) != decide (n < s.nls) ||
        (decide (0x8000 ≤ e) && (e % 64 == 0 || decide (28 < e % 64) || (List.range n).any (fun m => s.roleDie p m == s.roleDie p n))), 2 * n)))
  | 2 =>
    let r := cmptRec v
    firstBad ([(k == 0 || decide (63 < k), 0), (r.roleOf == 3, 0), (r.vectors == 0 || decide (32 < r.vectors), 1), (decide (208 < fieldAt v 3 1), 3)] ++
      (List.range r.ranks.length).map (fun j => let d := fieldAt v (168 + j) 1 / 8; (d == 0 || decide (28 < d), 168 + j)))
  | 3 =>
    let e := segOf v
    firstBad [(decide (k < 16) || decide (1024 ≤ k), 0), (e.gen != 0, 6), (e.valid && decide (4 < e.typ), 6),
      (e.valid && (e.typ == 0 || e.typ == 2) && e.off % 4096 != 0, 8), (e.valid && (e.typ == 0 || e.typ == 2) && e.per % 4096 != 0, 16),
      (e.valid && e.typ == 3 && e.iova % 0x20_0000 != 0, 8)]
  | 4 => firstBad [(decide (15 < k), 0)]
  | 5 => firstBad ([(k == 0 || decide (7 < k), 0), (decide (3 < fieldAt v 0 1), 0)] ++
      ((classMasters v).zipIdx.flatMap (fun x =>
        let e := x.1
        let o := 16 + 12 * x.2
        [(!selOk e.1, o), (!masterOk e.1 e.2.1, o + 1), (e.2.2.1 == 0, o + 2), (fieldAt v 0 1 == 3 && decide (4095 < e.2.2.2.1), o + 4),
          (e.2.2.2.2 != 0 && (if e.1 = 0xFF then ((List.range 29).drop 1).any (fun d => (masterRec p d e.2.1).1 == 0) else (masterRec p e.1 e.2.1).1 == 0), o + 8)])))
  | 6 => firstBad [(!selOk (k / 256) || !masterOk (k / 256) (k % 256), 0), (decide (4095 < fieldAt v 4 2), 4)]
  | 7 =>
    let b := k / 256
    let c := k % 256
    let bu := match classEntry p c (boundaryMaster b).1 (boundaryMaster b).2 with | some e => e.2.2.2.2 | none => 0
    firstBad [(!boundaryOk b || c == 0 || decide (7 < c) || kindOf p c != 3, 0), (bu != 0 && decide (bu < (fieldAt v 0 4 + 127) / 128), 0)]
  | 8 => firstBad ((!(decide (k ≤ 28) && s.hasRouter k), 0) ::
      (List.range 33).map (fun n => (routeEntryBad k (fieldAt v (2 * n) 2), 2 * n)) ++
      (List.range 8).map (fun l =>
        let w := fieldAt v (66 + l) 1
        (match (if l < linkCount k then neighbour k l else none) with
          | none => w != 0
          | some n =>
            if isGraft n then decide ((if k = 0 then 4 else 2) < w) || (w == 0 && (planVal p 11 (n - 29)).isSome)
            else if s.hasRouter n then w == 0 || decide (4 < w) else w != 0, 66 + l)))
  | 9 =>
    let el := fieldAt v 0 2
    firstBad ([(k == 0 || decide (255 < k), 0),
      (if 0x8000 ≤ el then (el % 64 == 0 || decide (28 < el % 64)) else !(linkAt (el / 256) (el % 8) && decide (el % 8 < linkCount (el / 256))), 0)] ++
      (List.range (fieldAt v 2 2)).flatMap (fun j =>
        let d := fieldAt v (4 + 4 * j + 3) 1
        [(decide (28 < d) || routeEntryBad d (fieldAt v (4 + 4 * j) 2), 4 + 4 * j), (decide (32 < fieldAt v (4 + 4 * j + 2) 1), 4 + 4 * j + 2)]))
  | 10 => firstBad ([(k != 0, 0), (fieldAt v 0 2 == 0xFFFF, 0), (decide (1024 < fieldAt v 8 2), 8)] ++
      (List.range (fieldAt v 8 2)).flatMap (fun j =>
        let o := 16 + 16 * j
        [(fieldAt v (o + 2) 1 == 0 || decide (63 < fieldAt v (o + 2) 1), o + 2), (fieldAt v (o + 3) 1 == 0 || decide (7 < fieldAt v (o + 3) 1), o + 3),
          (decide (15 < fieldAt v (o + 4) 1), o + 4), (decide (512 < fieldAt v (o + 8) 2 + fieldAt v (o + 10) 2), o + 8)]))
  | 11 => firstBad [(decide (3 < k), 0), (decide (fieldAt v 1 1 < 4) || decide (10 < fieldAt v 1 1), 1), (fieldAt v 4 2 == 0 || decide (512 < fieldAt v 4 2), 4),
      (fieldAt v 6 2 == 0 || decide (175 < fieldAt v 6 2), 6), (fieldAt v 2 1 == 0 && fieldAt v 24 48 != 0, 24)]
  | 12 => firstBad [(k != 0, 0), (polParties v == 0 || decide (16 < polParties v), 1), (!posF32 (fieldAt v 4 4), 4), (!nonNegF32 (fieldAt v 8 4), 8),
      (fieldAt v 12 1 == 0 || decide (16 < fieldAt v 12 1), 12)]
  | _ => some 0

/-- The elements that need a detour set: every tile, every tile–tile and tile–hub link, and the graft links of sites with a GRAFT record (R232). -/
def State.detourElems (s : State) (p : List PlanRec) : List Nat :=
  let ds := (List.range 29).filter s.hasRouter
  (ds.filter (· != 0)).map tileElem ++
  ds.flatMap (fun d => (List.range (linkCount d)).filterMap (fun l =>
    match neighbour d l with
    | none => none
    | some n =>
      if isGraft n then (if (planVal p 11 (n - 29)).isSome then some (linkElem d l) else none)
      else if s.hasRouter n && decide (d < n) then some (linkElem d l) else none))

/-- Step 8: each record in image order, then the records that must be present and the detour sets, one for each element. -/
def State.recordCheck (s : State) (p : List PlanRec) (idx : Nat → Nat → Nat) : Option PlanErr :=
  match p.findSome? (fun r => (s.fieldBad p r.1 r.2.1 r.2.2).map (fun o => perr 8 0x6008 (idx r.1 r.2.1) o)) with
  | some e => some e
  | none =>
    let need := s.detourElems p
    let sets := ofType p 9
    let stray := sets.find? (fun e => !need.any (sameElem (fieldAt e.2 0 2)) || sets.any (fun f => decide (f.1 < e.1) && sameElem (fieldAt f.2 0 2) (fieldAt e.2 0 2)))
    match stray with
    | some e => some (perr 8 0x6008 (idx 9 e.1) 0)
    | none =>
      if (ofType p 1).length ≠ 1 ∨ (((List.range 29).filter s.hasRouter).any (fun d => (planVal p 8 d).isNone)) ∨
        need.any (fun n => !sets.any (fun e => sameElem (fieldAt e.2 0 2) n)) ∨ (planVal p 10 0).isSome ≠ s.hasFabric then some (perr 8 0x6008 0xFFFF 0)
      else none

/-! ### Step 9: presence (BED_ABSENT) -/

/-- Whether a CLASS or MASTER record names a master that is not there: a tile that is not active, the storage port or a gate of an absent unit, or a fabric receive engine whose port is not bonded (R4, Table 11.3). The selector of every tile names the engines there are, and so is refused only on a device without a fabric (DEDUCED, log 47). -/
def State.masterGone (s : State) (d m : Nat) : Bool :=
  if d = 0 then (m == 3 && !bit s.inv.units 3) || (decide (4 ≤ m ∧ m ≤ 7) && !bit s.inv.units 2)
  else if d = 0xFF then m == 17 && !bit s.inv.units 0
  else !s.tileActive d || (m == 17 && !(bit s.inv.units 0 && bit s.inv.ports (s.substDie d - 1)))

/-- The first field of a record that names something absent. -/
def State.absentAt (s : State) (p : List PlanRec) (t k : Nat) (v : List Byte) : Option Nat :=
  match t with
  | 1 => firstBad ((List.range 32).map (fun n => (match s.roleDie p n with | some d => !(invBit s.inv.active d && !invBit s.inv.fenced d) | none => false, 2 * n)))
  | 2 => firstBad ((List.range 32).map (fun n => (fieldAt v (40 + 4 * n) 4 != 0 && (s.roleDie p n).isNone, 40 + 4 * n)) ++
      (List.range (fieldAt v 3 1)).map (fun j => (!s.tileActive (fieldAt v (168 + j) 1 / 8), 168 + j)))
  | 5 => firstBad ((classMasters v).zipIdx.map (fun x => (s.masterGone x.1.1 x.1.2.1, 16 + 12 * x.2)))
  | 6 => firstBad [(s.masterGone (k / 256) (k % 256), 0)]
  | 7 =>
    let b := k / 256
    firstBad [(b == 1 && !bit s.inv.units 3, 0), (decide (2 ≤ b) && decide (b ≤ 5) && !bit s.inv.units 2, 0),
      (decide (0x20 < b) && (!s.tileActive (b - 0x20) || !bit s.inv.ports (b - 0x21)), 0)]
  | 10 => firstBad [(((List.range 28).any (fun q => bit (BitVec.ofNat 32 (fieldAt v 4 4)) q && !bit s.inv.ports q)), 4)]
  | 9 => firstBad ((List.range (fieldAt v 2 2)).map (fun j => (!s.hasRouter (fieldAt v (4 + 4 * j + 3) 1), 4 + 4 * j)))
  | 11 => firstBad [(!bit s.inv.units 2, 0)]
  | _ => none

/-! ### Step 10: segments and areas (BED_SEGMENT) -/

/-- SEGMENT records that map something: compartment, key, entry and physical ranges. -/
def planSegs (p : List PlanRec) : List (Nat × Nat × Seg × List (Nat × Nat)) :=
  (ofType p 3).filterMap (fun e => let g := segOf e.2; if g.valid then some (e.1 / 16, e.1, g, planRanges p g) else none)

/-- Whether two segments of different compartments may overlap (R209). -/
def overlapOk (p : List PlanRec) (a b : Nat × Nat × Seg × List (Nat × Nat)) : Bool :=
  let wg (owner n : Nat) : Bool := match planVal p 2 owner with | some v => bit (cmptRec v).winGrant n | none => false
  a.2.2.1.typ == 2 || b.2.2.1.typ == 2 || (needRed a.2.2.1.perm && wg b.1 a.1) || (needRed b.2.2.1.perm && wg a.1 b.1)

/-- Step 10. -/
def State.segmentCheck (s : State) (p : List PlanRec) (idx : Nat → Nat → Nat) : Option PlanErr :=
  let present (n : Nat) : Bool := (s.roleDie p n).isSome
  let er (t k o : Nat) : PlanErr := perr 10 0x600A (idx t k) o
  let segs := planSegs p
  let areas := (ofType p 4).findSome? (fun e =>
    let (ms, b, l) := areaOfRec e.2
    (firstBad ((List.range 8).map (fun j => let m := (ms[j]?).getD 99; (!present m || (ms.take j).contains m, j)) ++
      [(b % 2048 != 0, 8), (l % 2048 != 0 || decide (0x7_FC00_0000 < b + l), 16)])).map (er 4 e.1))
  let each := segs.findSome? (fun x =>
    let e := x.2.2.1
    (firstBad ([(!([1, 2, 3, 4, 8] : List Nat).contains e.perm || (e.typ == 2 && e.perm != 1 && e.perm != 8), 6)] ++
      (match e.typ with
      | 0 | 2 => [(decide (e.nls * e.per < e.limit), 0), (((List.range e.nls).any (fun j => !present (e.firstLs + j))), 13), (decide (0x7_FC00_0000 < e.off + e.per), 16)]
      | 1 => [(match planArea p e.area with | some a => decide (7 * a.2.2 < e.limit) | none => true, 8)]
      | 3 => [(e.limit % 0x20_0000 != 0 || decide (0x100_0000_0000 < e.limit), 0),
          (segs.any (fun y => y.1 == x.1 && decide (y.2.1 < x.2.1) && y.2.2.1.typ == 3 && decide (y.2.2.1.iova < e.iova + e.limit) && decide (e.iova < y.2.2.1.iova + y.2.2.1.limit)), 8)]
      | _ => []))).map (er 3 x.2.1))
  let pairs := segs.findSome? (fun x => (segs.find? (fun y => decide (y.2.1 < x.2.1) && y.1 != x.1 && rangesMeet x.2.2.2 y.2.2.2 && !overlapOk p x y)).map (fun y =>
    if idx 3 x.2.1 = 0xFFFF then er 3 y.2.1 0 else er 3 x.2.1 0))
  let lands := (planCmpts p).findSome? (fun c =>
    let r := landingRange c.2
    if r.isEmpty then none
    else
      let ls := bits c.2.landing 62 58
      if !present ls || decide (lsBase ls + 0x7_FC00_0000 < landingBase c.2 + landingSlots c.2 * 0x20_0000) || segs.any (fun x => rangesMeet r x.2.2.2) then some (er 2 c.1 8) else none)
  areas.orElse (fun _ => each.orElse (fun _ => pairs.orElse (fun _ => lands)))

/-! ### Step 11: resources (BED_RESOURCE, R271) -/

/-- Step 11. `full` says that fifteen amendments are persisted and this load would persist one more. -/
def State.resourceCheck (s : State) (p : List PlanRec) (idx : Nat → Nat → Nat) (full : Bool) : Option PlanErr :=
  let cs := planCmpts p
  let er (k o : Nat) : PlanErr := perr 11 0x600B (idx 2 k) o
  let cores := cs.flatMap (fun c => c.2.ranks.zipIdx.map (fun r => (c.1, 168 + r.2, s.substDie (r.1.toNat / 8), r.1.toNat % 8)))
  let twice := cores.zipIdx.findSome? (fun x => if (cores.take x.2).any (fun y => y.2.2 == x.1.2.2) then some (er x.1.1 x.1.2.1) else none)
  let ssu := (List.range 32).findSome? (fun l =>
    let al := cs.filterMap (fun c => let a := c.2.allot.look l 0; if a = 0 then none else some (c.1, bits a 23 16, bits a 31 24, bits a 9 0))
    if 1024 < al.foldl (fun (n : Nat) (a : Nat × Nat × Nat × Nat) => n + a.2.2.2) 0 then (al.getLast?).map (fun a => er a.1 (40 + 4 * l))
    else al.zipIdx.findSome? (fun x =>
      if 256 < x.1.2.1 + x.1.2.2.1 || (al.take x.2).any (fun y => meets y.2.1 y.2.2.1 x.1.2.1 x.1.2.2.1) then some (er x.1.1 (40 + 4 * l)) else none))
  let slots := cs.zipIdx.findSome? (fun x =>
    if 4096 < landingSlots x.1.2 || decide (16384 < (cs.take (x.2 + 1)).foldl (fun n c => n + landingSlots c.2) 0)
      || (cs.take x.2).any (fun y => rangesMeet (landingRange x.1.2) (landingRange y.2)) then some (er x.1.1 8) else none)
  let ways := cs.findSome? (fun x =>
    if !x.2.isVitrine then none
    else if cs.any (fun y => y.1 != x.1 && (x.2.rlcWays &&& y.2.rlcWays != 0)) then some (er x.1 32)
    else if cs.any (fun y => y.1 != x.1 && (x.2.scWays &&& y.2.scWays != 0)) then some (er x.1 36) else none)
  twice.orElse (fun _ => ssu.orElse (fun _ => slots.orElse (fun _ => ways.orElse (fun _ => if full then some (perr 11 0x600B 0xFFFF 0) else none))))

/-! ### Step 12: confidential rules (BED_POLICY, R272) -/

/-- Step 12. `am` holds the records of an amendment; one that repeats the record in force changes nothing, and one that adds a record of an active vitrine is taken to change it (DEDUCED, log 47). -/
def State.policyCheck (s : State) (p : List PlanRec) (idx : Nat → Nat → Nat) (am : List PlanRec) : Option PlanErr :=
  let cs := planCmpts p
  let er (t k o : Nat) : PlanErr := perr 12 0x600C (idx t k) o
  let pol := planVal p 12 0
  let role (n : Nat) : Nat := match planVal p 2 n with | some v => if (cmptRec v).isVitrine then (cmptRec v).roleOf else 0 | none => 0
  let named : List Nat := match pol with | some v => polJoint v :: (List.range (polParties v)).map (polCmpt v) | none => []
  let modes := cs.findSome? (fun c =>
    if !c.2.isVitrine && (c.2.roleOf != 0 || bit c.2.mode 4) then some (er 2 c.1 0)
    else if c.2.roleOf != 0 && !named.contains c.1 then some (er 2 c.1 0) else none)
  let bad := match pol with
    | none => none
    | some v =>
      if polQuorum v = 0 ∨ polParties v < polQuorum v then some (er 12 0 2)
      else if cs.all (fun c => c.2.roleOf == 0) then none
      else if role (polJoint v) ≠ 1 then some (er 12 0 0)
      else ((List.range (polParties v)).find? (fun i => role (polCmpt v i) != 2)).map (fun i => er 12 0 (16 + 56 * i))
  let segs := planSegs p
  let vit (n : Nat) : Bool := match planVal p 2 n with | some v => (cmptRec v).isVitrine | none => false
  let reach := segs.findSome? (fun x =>
    if segs.any (fun y => y.1 != x.1 && vit y.1 && rangesMeet x.2.2.2 y.2.2.2 && !(vit x.1 && named.contains x.1 && named.contains y.1)) then some (er 3 x.2.1 0) else none)
  let active := am.findSome? (fun r =>
    let t := r.1 % 32768
    let c := if t = 2 then r.2.1 else r.2.1 / 16
    if r.1 < 32768 ∧ planVal s.bed.plan t r.2.1 = some r.2.2 then none
    else if (t = 2 ∨ t = 3) ∧ (s.cmpt c).active then some (er t r.2.1 0)
    else if t = 12 ∧ (named ++ (match s.policy with | some v => policyCmpts v | none => [])).any (fun n => (s.cmpt n).active) then some (er 12 0 0)
    else none)
  modes.orElse (fun _ => bad.orElse (fun _ => reach.orElse (fun _ => active)))

/-! ### Step 13: routes (ROUTE_CYCLE, R231, R232) -/

/-- Replacement entries of a detour value: router, destination, entry. -/
def detourEntries (v : List Byte) : List (Nat × Nat × BitVec 16) :=
  (List.range (fieldAt v 2 2)).map (fun j => (fieldAt v (4 + 4 * j + 3) 1, fieldAt v (4 + 4 * j + 2) 1, BitVec.ofNat 16 (fieldAt v (4 + 4 * j) 2)))

/-- The base entry of a router in a plan. -/
def planBase (p : List PlanRec) (d t : Nat) : BitVec 16 := match planVal p 8 d with | some v => BitVec.ofNat 16 (fieldAt v (2 * t) 2) | none => 0

/-- The entry of a detour set, if it names one; set 0 is the base set. -/
def planDetour (p : List PlanRec) (r d t : Nat) : Option (BitVec 16) :=
  if r = 0 then none else match planVal p 9 r with | some v => ((detourEntries v).find? (fun e => e.1 == d && e.2.1 == t)).map (·.2.2) | none => none

/-- The entry of a set. -/
def planRoute (p : List PlanRec) (r d t : Nat) : BitVec 16 := (planDetour p r d t).getD (planBase p d t)

/-- The entries routers may use while a set spreads: the base entry and the set's own. -/
def routeOpts (p : List PlanRec) (r d t : Nat) : List (BitVec 16) := planBase p d t :: (planDetour p r d t).toList

/-- Edges of the escape channel dependency graph of a set united with the base set; a node is 8 * die + link. One graph stands for every message class, since entries do not depend on it. -/
def State.routeEdges (s : State) (p : List PlanRec) (r : Nat) : List (Nat × Nat) :=
  (((List.range 29).filter s.hasRouter).flatMap (fun d => (List.range 33).flatMap (fun t =>
    if t = d then [] else (routeOpts p r d t).flatMap (fun e =>
      match escLink e with
      | none => []
      | some l => match neighbour d l with
        | none => []
        | some n => if 29 ≤ n ∨ n = t then [] else (routeOpts p r n t).filterMap (fun f => (escLink f).map (fun l' => (8 * d + l, 8 * n + l'))))))).dedup

/-- Edges on no cycle dropped, round by round. -/
def trimEdges : Nat → List (Nat × Nat) → List (Nat × Nat)
  | 0, es => es
  | fuel + 1, es =>
    let es' := es.filter (fun e => es.any (fun f => f.2 == e.1) && es.any (fun f => f.1 == e.2))
    if es'.length = es.length then es else trimEdges fuel es'

/-- The node reached after `n` steps along edges. -/
def walkEdges : Nat → List (Nat × Nat) → Nat → Nat
  | 0, _, x => x
  | n + 1, es, x => match es.find? (fun e => e.1 == x) with | some e => walkEdges n es e.2 | none => x

/-- A node of a cycle, if there is one: what is left after trimming has a successor everywhere, so a long walk ends on a cycle. -/
def cycleNode (es : List (Nat × Nat)) : Option Nat :=
  match trimEdges 240 es with
  | [] => none
  | e :: t => some (walkEdges 240 (e :: t) e.1)

/-- Outputs an entry names. -/
def entryLinks (e : BitVec 16) : List Nat := (escLink e).toList ++ (List.range 8).filter (fun l => bit e (8 + l))

/-- A node whose entry routes through a graft site that is not the destination (R15). -/
def State.graftTransit (s : State) (p : List PlanRec) (r : Nat) : Option Nat :=
  ((List.range 29).filter s.hasRouter).findSome? (fun d => (List.range 33).findSome? (fun t =>
    (if r = 0 then [planBase p d t] else (planDetour p r d t).toList).findSome? (fun e =>
      ((entryLinks e).find? (fun l => match neighbour d l with | some n => isGraft n && n != t | none => false)).map (fun l => 8 * d + l))))

/-- Step 13: the base set, then every detour set in ascending order. -/
def State.routeCheck (s : State) (p : List PlanRec) : Option PlanErr :=
  (0 :: (ofType p 9).map (·.1)).findSome? (fun r =>
    ((s.graftTransit p r).orElse (fun _ => cycleNode (s.routeEdges p r))).map (fun n =>
      ({ step := 13, code := 0x6002, detail := r * 2 ^ 48 + n / 8 * 256 + n % 8 } : PlanErr)))

end Sys2Proof.Machine
end

