-- ==== Sys2Proof/Machine/Admission.lean ====
section
/-! DEFINITION. Deadline admission: step 14 of Table 12.7 (R246, R254 to R257, R273). Times are whole numbers of 1/3600 ns. -/

namespace Sys2Proof.Machine

/-! ### Constants (Table 11.7) -/

/-- A controller cycle at the part's bin. -/
def State.tCtl (s : State) : Nat := match bits s.inv.bin 7 0 with | 0x60 => 3000 | 0x50 => 3600 | _ => 4500

/-- One random sector, 2.63 controller cycles. -/
def State.tSec (s : State) : Nat := s.tCtl * 263 / 100

/-- A boundary's clock in MHz. -/
def clockOf (b : Nat) : Nat := if 0x20 ≤ b then 1328 else 1000

/-- Boundary entry and exit together. -/
def inOut (b : Nat) : Nat := 7200 * (if b < 2 then 500 else if b < 6 then 20 else 1000)

/-- Boundary data rate in bytes per ns. -/
def rateOf (b : Nat) : Nat := if b < 2 then 115 else if b < 6 then 1024 else 100

/-! ### Paths -/

/-- The routers and outputs of a set's path from a die to a die; the last is the local output. -/
def planPath (p : List PlanRec) (r t : Nat) : Nat → Nat → Option (List (Nat × Nat))
  | 0, _ => none
  | fuel + 1, d =>
    if d = t then some [(d, localPort d)]
    else match escLink (planRoute p r d t) with
      | none => none
      | some l => match neighbour d l with
        | none => none
        | some n => if 29 ≤ n then none else (planPath p r t fuel n).map (fun q => (d, l) :: q)

/-- The die a boundary's master stands on. -/
def State.boundaryDie (s : State) (b : Nat) : Nat := if b < 6 then 0 else s.substDie (b - 0x20)

/-- The tile a detour set fences. -/
def fencedBy (p : List PlanRec) (r : Nat) : Option Nat :=
  if r = 0 then none else match planVal p 9 r with
    | some v => let e := fieldAt v 0 2; if 0x8000 ≤ e then some (e % 64) else none
    | none => none

/-- The die that serves a stack in a route set, seen from a die: where the set fences the stack's tile, the reserve tile that lies farthest (R254). -/
def State.stackDie (s : State) (p : List PlanRec) (r d l : Nat) : Option Nat :=
  match s.roleDie p l with
  | none => none
  | some x =>
    if fencedBy p r ≠ some x then some x
    else
      let cands : List (Nat × Nat) := ((List.range 29).filter (fun t => invBit s.inv.reserve t && !invBit s.inv.fenced t && t != x)).filterMap
        (fun t => (planPath p r t 34 d).map (fun q => (t, q.length)))
      match cands with
      | [] => none
      | c :: cs => some (cs.foldl (fun (a b : Nat × Nat) => if a.2 < b.2 then b else a) c).1

/-- The way to a stack and the way back in a route set. -/
def State.roundTrip (s : State) (p : List PlanRec) (r d l : Nat) : Option (List (Nat × Nat) × List (Nat × Nat)) :=
  match s.stackDie p r d l with
  | none => none
  | some t => match planPath p r t 34 d, planPath p r d 34 t with | some a, some b => some (a, b) | _, _ => none

/-! ### What a class reaches -/

/-- Stacks a segment maps. -/
def segStacks (p : List PlanRec) (c : Nat) (e : Seg) : List Nat :=
  match e.typ with
  | 0 | 2 => (List.range e.nls).map (fun j => e.firstLs + j)
  | 1 => match planArea p e.area with | some a => a.1 | none => []
  | 3 => match planVal p 2 c with | some v => [bits (cmptRec v).landing 62 58] | none => []
  | _ => []

/-- Whether a compartment is granted a class: its record names it and the class's record names the compartment. -/
def granted (p : List PlanRec) (n c : Nat) : Bool :=
  match planVal p 2 n, planVal p 5 c with
  | some v, some w => bit (cmptRec v).classes c && bit (BitVec.ofNat 64 (fieldAt w 8 8)) n
  | _, _ => false

/-- Stacks mapped by the compartments granted a class. -/
def classStacks (p : List PlanRec) (c : Nat) : List Nat :=
  ((planSegs p).flatMap (fun x => if granted p x.1 c then segStacks p x.1 x.2.2.1 else [])).dedup

/-- Grants of the FABRIC record: compartment, class, segment. -/
def planGrants (p : List PlanRec) : List (Nat × Nat × Nat) :=
  match planVal p 10 0 with
  | some v => (List.range (fieldAt v 8 2)).map (fun j => (fieldAt v (18 + 16 * j) 1, fieldAt v (19 + 16 * j) 1, fieldAt v (20 + 16 * j) 1))
  | none => []

/-- Stacks a class reaches from a boundary. -/
def State.reach (s : State) (p : List PlanRec) (b c : Nat) : List Nat :=
  if 0x20 ≤ b then
    ((planGrants p).flatMap (fun g => if g.2.1 = c then (match planVal p 3 (16 * g.1 + g.2.2) with | some v => segStacks p g.1 (segOf v) | none => []) else [])).dedup
  else if b = 0 ∧ ((planVal p 5 c).any (fun (w : List Byte) => bit (BitVec.ofNat 64 (fieldAt w 8 8)) 0)) = true then (List.range 32).filter (fun l => (s.roleDie p l).isSome)
  else classStacks p c

/-! ### Settings of masters -/

/-- The number by which a plan names a tile: the die it replaced, when a promotion put it in a fenced tile's place (R262). -/
def State.planDie (s : State) (d : Nat) : Nat := s.flt.place.reverse.foldl (fun d e => if d = e.2 then e.1 else d) d

/-- W and URG_OT of a master. -/
def State.masterOf (s : State) (p : List PlanRec) (die m : Nat) : Nat × Nat := masterRec p (s.planDie die) m

/-- FLOOR_OT of a class at a master (R246): over the base set's path to the farthest stack the class's compartments map. -/
def State.floorOt (s : State) (p : List PlanRec) (c die m : Nat) : Nat :=
  match classEntry p c (s.planDie die) m with
  | none => 0
  | some e =>
    let cost := (classStacks p c).foldl (fun (n : Nat) (l : Nat) =>
      match s.roleDie p l with
      | some t => (match planPath p 0 t 34 die with | some q => max n (20 * q.length + 432 * (q.length - 1)) | none => n)
      | none => n) 0
    (e.2.2.2.1 * (cost + 1440) + 1151999) / 1152000

/-- OT of a deadline class at a master. -/
def State.dlOt (s : State) (p : List PlanRec) (c die m : Nat) : Nat := if kindOf p c = 3 then (match classEntry p c (s.planDie die) m with | some e => e.2.2.2.1 | none => 0) else 0

/-- BUDGET of a class at a master. -/
def State.clsBudget (s : State) (p : List PlanRec) (c die m : Nat) : Nat := match classEntry p c (s.planDie die) m with | some e => e.2.2.2.2 | none => 0

/-- OT or FLOOR_OT of a class at a master. -/
def State.clsOt (s : State) (p : List PlanRec) (c die m : Nat) : Nat :=
  match kindOf p c with
  | 2 => if c = 0 then 0 else s.floorOt p c die m
  | 3 => s.dlOt p c die m
  | _ => 0

/-- MAX_OT of a master under a plan; a gate's is its GRAFT record's, and 512 before any chiplet has one. -/
def planMaxOt (p : List PlanRec) (die m : Nat) : Nat :=
  if die = 0 then
    (if m = 0 then 128 else if m = 1 then 256 else if m < 4 then 512
     else if m < 8 then (match planVal p 11 (m - 4) with | some v => fieldAt v 4 2 | none => 512) else 32)
  else if m < 8 then 1024 else if m < 16 then 32 else if m = 16 then 2048 else 512

/-- OT of every class of a master, floors and deadlines. -/
def State.otSum (s : State) (p : List PlanRec) (die m : Nat) : Nat := ((List.range 8).map (fun c => s.clsOt p c die m)).sum

/-- SHARED of a master (R246). -/
def State.sharedOf (s : State) (p : List PlanRec) (die m : Nat) : Nat := planMaxOt p die m - s.otSum p die m

/-- The masters of a part: the hub's nine, and eighteen on each active tile. -/
def State.allMasters (s : State) : List (Nat × Nat) :=
  (List.range 9).map (fun m => (0, m)) ++
  (((List.range 29).drop 1).filter (fun d => invBit s.inv.active d && !invBit s.inv.fenced d)).flatMap (fun d => (List.range 18).map (fun m => (d, m)))

/-- QOS_CLS of a class at a master (Table 11.10). -/
def State.qosCls (s : State) (p : List PlanRec) (c die m : Nat) : BitVec 64 :=
  let w := if c = 0 then 16 else match classEntry p c (s.planDie die) m with | some e => e.2.2.1 | none => 1
  BitVec.ofNat 64 (kindOf p c * 2 ^ 62 + w % 256 * 2 ^ 54 + s.clsOt p c die m % 4096 * 2 ^ 42 + s.clsBudget p c die m % 2 ^ 32)

/-- QOS_MCFG of a master. -/
def State.qosMcfg (s : State) (p : List PlanRec) (die m : Nat) : BitVec 64 :=
  let r := s.masterOf p die m
  BitVec.ofNat 64 (r.2 % 4096 * 2 ^ 52 + s.sharedOf p die m % 4096 * 2 ^ 32 + r.1 % 2 ^ 32)

/-- MEM_FLOOR of a class: a floor class's quota, 32 for class 0 (Table 11.1). -/
def memFloorOf (p : List PlanRec) (c : Nat) : Nat :=
  if c = 0 then 32 else match planVal p 5 c with | some v => if fieldAt v 0 1 = 2 then fieldAt v 2 2 else 0 | none => 0

/-! ### Load of outputs and stacks. `ps` lists the plan, and for R273 also the plan it amends: every setting is the larger. -/

/-- The largest of a setting over the plans. -/
def largest (ps : List (List PlanRec)) (f : List PlanRec → Nat) : Nat := ps.foldl (fun n p => max n (f p)) 0

/-- The boundary codes of a part. -/
def boundaries : List Nat := List.range 6 ++ (List.range 28).map (fun n => 0x21 + n)

/-- Deadline OT and urgent OT of a boundary's master. -/
def State.heavy (s : State) (ps : List (List PlanRec)) (b : Nat) : Nat :=
  let m := if b < 6 then (0, 2 + b) else (s.boundaryDie b, 17)
  ((List.range 8).map (fun c => largest ps (fun p => s.dlOt p c m.1 m.2))).sum + largest ps (fun p => (s.masterOf p m.1 m.2).2)

/-- Stacks that a boundary's deadline or urgent traffic reaches. -/
def State.heavyStacks (s : State) (ps : List (List PlanRec)) (b : Nat) : List Nat :=
  let m := if b < 6 then (0, 2 + b) else (s.boundaryDie b, 17)
  (ps.flatMap (fun p => ((List.range 8).drop 1).flatMap (fun c =>
    if 0 < s.dlOt p c m.1 m.2 ∨ (0 < (s.masterOf p m.1 m.2).2 ∧ kindOf p c ≠ 0) then s.reach p b c else []))).dedup

/-- What loads the outputs and stacks in a route set: for each boundary with deadline or urgent traffic its OT, the outputs its paths use and the stacks it reaches. -/
def State.loads (s : State) (ps : List (List PlanRec)) (p : List PlanRec) (r : Nat) : List (Nat × List (Nat × Nat) × List Nat) :=
  boundaries.filterMap (fun b =>
    let h := s.heavy ps b
    if h = 0 ∨ fencedBy p r = some (s.boundaryDie b) then none
    else
      let st := s.heavyStacks ps b
      some (h, (st.flatMap (fun l => match s.roundTrip p r (s.boundaryDie b) l with | some q => q.1 ++ q.2 | none => [])).dedup, st))

/-- Time in one router's output (R255). -/
def outTime (p : List PlanRec) (ld : List (Nat × List (Nat × Nat) × List Nat)) (o : Nat × Nat) : Nat :=
  let i := 5 + (ld.map (fun x => if x.2.1.contains o then x.1 else 0)).sum
  let w := match planVal p 8 o.1 with | some v => if o.2 < 8 ∧ o.2 ≠ localPort o.1 ∧ fieldAt v (66 + o.2) 1 = 1 then 2 else 1 | none => 1
  (2 + i * w) * 2000

/-- Worst round trip over the stacks a class reaches; none where a path does not end. -/
def State.tRt (s : State) (p : List PlanRec) (ld : List (Nat × List (Nat × Nat) × List Nat)) (b c r : Nat) : Option Nat :=
  (s.reach p b c).foldl (fun (a : Option Nat) (l : Nat) =>
    match a, s.roundTrip p r (s.boundaryDie b) l with
    | some t, some (go, back) =>
      let x := go.length + back.length - 2
      let mesh := ((go ++ back).map (outTime p ld)).sum + x * 86400 + (if 0 < x then 1440000 else 0)
      let q := (ld.map (fun y => if y.2.2.contains l then y.1 else 0)).sum
      let mem := 4320000 + 1024 * s.tCtl + 80 * s.tSec + 4 * q * s.tSec + 576000
      some (max t (mesh + mem))
    | _, _ => none) (some 0)

/-! ### The bound (R255) -/

/-- Deadlines of a plan in ascending order: boundary, class, MAX_REQ, DEADLINE. -/
def planDeadlines (p : List PlanRec) : List (Nat × Nat × Nat × Nat) := (ofType p 7).map (fun e => (e.1 / 256, e.1 % 256, fieldAt e.2 0 4, fieldAt e.2 4 4))

/-- The bound of a deadline in a route set in boundary cycles, rounded up; none when there is no finite bound. -/
def State.boundOf (s : State) (ps : List (List PlanRec)) (p : List PlanRec) (r : Nat) (d : Nat × Nat × Nat × Nat) : Option Nat :=
  let b := d.1
  let c := d.2.1
  let die := s.boundaryDie b
  let m := (boundaryMaster b).2
  let ot := largest ps (fun p => s.dlOt p c die m)
  let budget := largest ps (fun p => s.clsBudget p c die m)
  let w := (s.masterOf p die m).1
  let other := ((planDeadlines p).map (fun x => if x.1 = b ∧ x.2.1 ≠ c then x.2.2.1 else 0)).sum
  match (if ot = 0 then none else s.tRt p (s.loads ps p r) b c r) with
  | none => none
  | some t =>
    if w * 3600000 < (budget + ot - 1) / ot * t * clockOf b then none
    else
      let fixed := inOut b + (budget + (d.2.2.1 + 127) / 128 + ot - 1) / ot * t + 180000000
      let num := (fixed * rateOf b + (d.2.2.1 + other) * 3600) * clockOf b
      some ((num + 3600000 * rateOf b - 1) / (3600000 * rateOf b))

/-- The route sets of a plan: 0 for the base set, then the detour sets. -/
def planSets (p : List PlanRec) : List Nat := 0 :: (ofType p 9).map (·.1)

/-- Route sets a deadline is bounded in: those that do not fence its boundary's own tile. -/
def State.setsFor (s : State) (p : List PlanRec) (b : Nat) : List Nat := (planSets p).filter (fun r => fencedBy p r != some (s.boundaryDie b))

/-- QOS_DL_TIME.BOUND of a deadline: the largest bound of any route set. -/
def State.boundMax (s : State) (p : List PlanRec) (d : Nat × Nat × Nat × Nat) : Nat :=
  (s.setsFor p d.1).foldl (fun (n r : Nat) => max n ((s.boundOf [p] p r d).getD 0)) 0

/-- The loop of R255. -/
def State.boundFail (s : State) (ps : List (List PlanRec)) (p : List PlanRec) : Option Nat :=
  (planDeadlines p).findSome? (fun d => (s.setsFor p d.1).findSome? (fun r =>
    match s.boundOf ps p r d with
    | some n => if n < d.2.2.2 then none else some (d.1 * 2 ^ 56 + r * 2 ^ 48 + d.2.1 * 2 ^ 40 + min n 0xFFFFFFFF)
    | none => some (d.1 * 2 ^ 56 + r * 2 ^ 48 + d.2.1 * 2 ^ 40 + 0xFFFFFFFF)))

/-! ### The conditions of R257 -/

/-- A sum of fractions. -/
def addFrac (a b : Nat × Nat) : Nat × Nat := (a.1 * b.2 + b.1 * a.2, a.2 * b.2)

/-- Deadline budgets as packets each 2000/3600 ns, over a set of deadlines. -/
def State.budgetRate (s : State) (p : List PlanRec) (k : Nat) (ds : List (Nat × Nat × Nat × Nat)) : Nat × Nat :=
  ds.foldl (fun (a : Nat × Nat) d =>
    let die := s.boundaryDie d.1
    let m := (boundaryMaster d.1).2
    let w := (s.masterOf p die m).1
    if w = 0 then a else addFrac a (s.clsBudget p d.2.1 die m * clockOf d.1 * k, w * 3600000)) (0, 1)

/-- Condition 1. -/
def State.cond1 (s : State) (p : List PlanRec) : Option Nat :=
  (s.allMasters.find? (fun x => decide (planMaxOt p x.1 x.2 < s.otSum p x.1 x.2 + (s.masterOf p x.1 x.2).2))).map
    (fun x => 0xFF * 2 ^ 56 + 2 ^ 32 + x.1 * 256 + x.2)

/-- Condition 2: floors and deadline sectors in a floor window of 1,024 controller cycles, over 32 pseudo-channels, against 389. -/
def State.cond2 (s : State) (p : List PlanRec) : Option Nat :=
  let floors := ((List.range 8).map (memFloorOf p)).sum
  (((List.range 32).filter (fun l => (s.roleDie p l).isSome)).find? (fun l =>
    let f := s.budgetRate p (128 * s.tCtl) ((planDeadlines p).filter (fun d => (s.reach p d.1 d.2.1).contains l))
    decide (389 * f.2 < floors * f.2 + f.1))).map (fun l => 0xFF * 2 ^ 56 + 2 * 2 ^ 32 + l)

/-- Condition 3: no output carries more than half a packet each mesh cycle. -/
def State.cond3 (s : State) (p : List PlanRec) : Option Nat :=
  let ds := planDeadlines p
  if ds.isEmpty then none
  else (planSets p).findSome? (fun r =>
    let uses : List ((Nat × Nat × Nat × Nat) × List (Nat × Nat)) := ds.map (fun d => (d, (s.reach p d.1 d.2.1).flatMap (fun l =>
      if fencedBy p r = some (s.boundaryDie d.1) then [] else match s.roundTrip p r (s.boundaryDie d.1) l with | some q => q.1 ++ q.2 | none => [])))
    ((List.range 29).flatMap (fun d => (List.range 9).map (fun l => (d, l)))).findSome? (fun o =>
      let f := s.budgetRate p 2000 ((uses.filter (fun u => u.2.contains o)).map (·.1))
      if f.2 < 2 * f.1 then some (0xFF * 2 ^ 56 + r * 2 ^ 48 + 3 * 2 ^ 32 + o.1 * 256 + o.2) else none))

/-- Boundaries a class is declared at. -/
def declaredAt (p : List PlanRec) (c : Nat) : List Nat := ((planDeadlines p).filter (fun d => d.2.1 == c)).map (·.1)

/-- Condition 4: a deadline class with settings at a master that is not its boundary's, a fabric grant without a fabric boundary, or a site's class without the gate's. -/
def State.cond4 (s : State) (p : List PlanRec) : Option Nat :=
  (((List.range 8).drop 1).filter (fun c => kindOf p c == 3)).findSome? (fun c =>
    let bs := declaredAt p c
    let mine (die m : Nat) : Bool := bs.any (fun b => s.boundaryDie b == die && (boundaryMaster b).2 == m)
    let entries := match planVal p 5 c with | some v => classMasters v | none => []
    let stray := entries.any (fun e =>
      if e.1 = 0xFF then (s.allMasters.any (fun x => x.1 != 0 && x.2 == e.2.1 && !mine x.1 x.2)) else !mine (if e.1 = 0 then 0 else s.substDie e.1) e.2.1)
    let fabric := (planGrants p).any (fun g => g.2.1 == c) && !bs.any (fun b => decide (0x20 ≤ b))
    let gate := (List.range 4).any (fun k => match planVal p 11 k with | some v => bit (BitVec.ofNat 8 (fieldAt v 3 1)) c && !bs.contains (2 + k) | none => false)
    if stray || fabric || gate then some (bs.headD 0 * 2 ^ 56 + c * 2 ^ 40 + 0xFFFFFFFF) else none)

/-- Condition 5: a deadline class with BUDGET 0 where it is declared, or declared nowhere. -/
def State.cond5 (s : State) (p : List PlanRec) : Option Nat :=
  let at0 : List (Nat × Nat) := (planDeadlines p).filterMap (fun d => if s.clsBudget p d.2.1 (s.boundaryDie d.1) (boundaryMaster d.1).2 = 0 then some (d.1, d.2.1) else none)
  let none0 : List (Nat × Nat) := (((List.range 8).drop 1).filter (fun c => kindOf p c == 3 && (declaredAt p c).isEmpty)).map (fun c => (0, c))
  match at0 ++ none0 with
  | [] => none
  | x :: _ => some (x.1 * 2 ^ 56 + x.2 * 2 ^ 40 + 0xFFFFFFFF)

/-- Step 14: the conditions of R257, the bounds of R255, and for an amendment the bounds with the larger of old and new settings (R273). -/
def State.admissionCheck (s : State) (p : List PlanRec) (old : Option (List PlanRec)) : Option PlanErr :=
  let cs := [fun (_ : Unit) => s.cond1 p, fun _ => s.cond2 p, fun _ => s.cond3 p, fun _ => s.cond4 p, fun _ => s.cond5 p, fun _ => s.boundFail [p] p,
    fun _ => match old with | some q => s.boundFail [p, q] p | none => none]
  (cs.findSome? (fun f => f ())).map (fun n => ({ step := 14, code := 0x6001, detail := n } : PlanErr))

end Sys2Proof.Machine
end

