-- ==== Sys2Proof/Machine/Bedplan.lean ====
section
/-! DEFINITION. Loading a bed plan: the order of checks, taking effect by a full plan and by an epoch, and the load at boot (R268 to R277). -/

namespace Sys2Proof.Machine

/-! ### The checks (R270, Table 12.7) -/

/-- The position of a record in the image, 0xFFFF when the image does not hold it. -/
def recIndex (recs : List PlanRec) (t k : Nat) : Nat := ((findPos (fun (r : PlanRec) => r.1 % 32768 == t && r.2.1 == k) recs).getD 0xFFFF)

/-- A record put in its place in a plan. -/
def putRec (r : PlanRec) : List PlanRec → List PlanRec
  | [] => [r]
  | x :: t =>
    if x.1 = r.1 ∧ x.2.1 = r.2.1 then r :: t
    else if r.1 < x.1 ∨ (r.1 = x.1 ∧ r.2.1 < x.2.1) then r :: x :: t
    else x :: putRec r t

/-- The plan that results from an amendment's records (R260, R270). -/
def amend (p : List PlanRec) (recs : List PlanRec) : List PlanRec :=
  recs.foldl (fun p r => if 32768 ≤ r.1 then p.filter (fun x => !(x.1 == r.1 - 32768 && x.2.1 == r.2.1)) else putRec r p) p

/-- The images in board flash, in the order they are applied (R268). -/
def State.flashImages (s : State) : List (List Byte) := s.bed.flashPlan.toList ++ s.bed.flashAmends

/-- SEQUENCE of the last image in board flash. -/
def State.flashSeq (s : State) : Nat := match s.flashImages.getLast? with | some l => imgSeq l | none => 0

/-- Steps 3 to 6. At boot BED_SEQ equals the SEQUENCE of the last persisted image; the images before it in flash pass with it (R268, step 6). -/
def State.imageCheck (s : State) (l : List Byte) (boot : Bool) : Option PlanErr :=
  let h := imgHash l
  let tr := l.length - 3432
  if Config.sha384 (l.take tr) ≠ h then some (perr 3 0x6004 0xFFFF 0)
  else match s.auth.opKeys.look (imgKeySlot l) none with
    | none => some (perr 4 0x6005 0xFFFF 0)
    | some keys =>
      if 4 ≤ imgKeySlot l ∨ Config.verify (Config.sha384 keys) (bvBytes h) ((l.drop (tr + 52)).take 3373) = false then some (perr 4 0x6005 0xFFFF 0)
      else
        let prod := bits s.inv.product 7 0
        let rev := 4 * bits s.inv.product 15 12 + bits s.inv.product 11 8
        if prod = 0 ∨ bit (BitVec.ofNat 8 (fieldAt l 7 1)) (prod - 1) = false ∨ bit (BitVec.ofNat 16 (fieldAt l 8 2)) rev = false ∨ s.fab.version.toNat < fieldAt l 10 2 then some (perr 5 0x6006 0xFFFF 0)
        else if imgSeq l ≠ 0 ∧ (s.bed.seq.toNat < imgSeq l ∨ (boot ∧ s.bed.seq.toNat ≤ s.flashSeq)) then none
        else some (perr 6 0x6007 0xFFFF 0)

/-- Step 7: what an amendment amends, and what a full plan at run time must leave as it is. -/
def State.scopeCheck (s : State) (l : List Byte) (recs : List PlanRec) (boot : Bool) : Option PlanErr :=
  if imgKind l = 1 then
    if !s.bed.inForce || imgBase l != s.bed.hash then some (perr 7 0x600D 0xFFFF 0)
    else (findPos (fun (r : PlanRec) => !([2, 3, 5, 6, 7, 12] : List Nat).contains (r.1 % 32768)) recs).map (fun i => perr 7 0x600F i 0)
  else if boot || !s.bed.inForce then none
  else
    let fixed (p : List PlanRec) : List PlanRec := p.filter (fun r => ([1, 8, 9, 10, 11] : List Nat).contains r.1)
    if fixed recs = fixed s.bed.plan then none
    else some (match findPos (fun (r : PlanRec) => ([1, 8, 9, 10, 11] : List Nat).contains r.1 && !s.bed.plan.contains r) recs with
      | some i => perr 7 0x600F i 0
      | none => perr 7 0x600F 0xFFFF 0)

/-- A DELETE outside an amendment, or of a record that is not in force (step 8). -/
def State.deleteCheck (s : State) (l : List Byte) (recs : List PlanRec) : Option PlanErr :=
  (findPos (fun (r : PlanRec) => decide (32768 ≤ r.1) && (imgKind l == 0 || (planVal s.bed.plan (r.1 - 32768) r.2.1).isNone)) recs).map (fun i => perr 8 0x6008 i 0)

/-- The check of an image from step 2 on: the plan that results and the image's own records, or the first failure. -/
def State.planCheck (s : State) (l : List Byte) (boot persist : Bool) : Except PlanErr (List PlanRec × List PlanRec) :=
  match readImage l with
  | .error e => .error e
  | .ok recs =>
    let isAm := imgKind l = 1
    let p := if isAm then amend s.bed.plan recs else recs
    let am := if isAm then recs else []
    let full := decide isAm && persist && decide (15 ≤ s.bed.flashAmends.length)
    let idx := recIndex recs
    let checks : List (Unit → Option PlanErr) :=
      [fun _ => s.imageCheck l boot, fun _ => s.scopeCheck l recs boot, fun _ => s.deleteCheck l recs, fun _ => s.recordCheck p idx,
        fun _ => p.findSome? (fun r => (s.absentAt p r.1 r.2.1 r.2.2).map (fun o => perr 9 0x6009 (idx r.1 r.2.1) o)),
        fun _ => s.segmentCheck p idx, fun _ => s.resourceCheck p idx full, fun _ => s.policyCheck p idx am, fun _ => s.routeCheck p,
        fun _ => s.admissionCheck p (if isAm then some s.bed.plan else none)]
    match checks.findSome? (fun f => f ()) with
    | some e => .error e
    | none => .ok (p, recs)

/-- A refusal: code, step and detail, an event to the PF, and an answer to the management session that loads (R274). -/
def State.bedRefuse (s : State) (e : PlanErr) (j : LoadJob) : State :=
  let s := { s with bed := { s.bed with code := BitVec.ofNat 16 e.code, stepNo := e.step, detail := BitVec.ofNat 64 e.detail } }
  let s := s.event 0 e.code 0 (BitVec.ofNat 64 e.detail)
  if j.mgmt then s.answerFrame j.session 0x0020 (BitVec.ofNat 16 e.code) (leBytes 8 e.detail) else s

/-! ### Installing a plan's values -/

/-- A segment entry of a plan with the generation the device keeps (R263). -/
def keepGen (new old : Seg) : Seg := { new with w0 := BitVec.ofNat 64 (new.w0.toNat - new.gen * 2 ^ 55 + old.gen * 2 ^ 55) }

/-- The segment of a plan, invalid where it has no record. -/
def planSeg (p : List PlanRec) (c i : Nat) : Seg := match planVal p 3 (16 * c + i) with | some v => segOf v | none => {}

/-- A compartment's record and segments. One without a record ends UNDEFINED; one that had none becomes READY (Table 13.2). `only` lists the segments an amendment's records name: the others of a compartment that had a record keep their entries, one withdrawn through HUB_UNMAP_REQ among them (R221). -/
def State.installCmpt (s : State) (p : List PlanRec) (only : Option (List Nat)) (c : Nat) : State :=
  let r := (planVal p 2 c).map cmptRec
  let old := s.cmpt c
  if r.isNone ∧ old.plan.isNone ∧ old.segs.isEmpty then s
  else
    let s := if r.any (fun x => bit x.mode 0) then s.clearWins c else s
    s.modCmpt c (fun m => { m with
    plan := r
    state := if m.state == .fallow then .fallow else if r.isSome then .ready else .undef
    lifted := match only with | some l => if old.plan.isNone then [] else m.lifted.filter (fun i => !l.contains (16 * c + i)) | none => []
    segs := ((List.range 16).filterMap (fun i =>
      if old.plan.isSome ∧ only.any (fun l => !l.contains (16 * c + i)) then (if m.segs.has i then some (i, m.segs.look i {}) else none)
      else if (planVal p 3 (16 * c + i)).isSome ∨ m.segs.has i then some (i, keepGen (planSeg p c i) (m.segs.look i {})) else none) : Tab Seg) })

/-- The compartments among `cs` that a plan gives a record and that hold nothing yet: every item of Table 13.1 takes its empty value, their cores' stores and scratches among them (Table 13.2). -/
def State.emptyNew (s : State) (cs : List Nat) : State :=
  cs.foldl (fun s c =>
    if (s.cmpt c).plan.isNone then s
    else (((List.range (s.nranks c)).filterMap (s.rankCore c)).foldl (fun s p => s.wipeRange (storeBase p.1 p.2) 0x0084_0000) s).emptyCmpt c) s

/-- MEM_FLOOR and the regulators of a die; `now` installs class settings at once, otherwise a regulator with a window applies them at its next boundary (R276). -/
def State.installQos (s : State) (p : List PlanRec) (die : Nat) (now : Bool) : State :=
  let s := if die = 0 then s else s.modMem die (fun m => { m with floor := (List.range 8).map (fun c => (c, BitVec.ofNat 64 (memFloorOf p c))) })
  (s.allMasters.filter (fun x => x.1 == die)).foldl (fun s x =>
    s.modMaster die x.2 (fun m => { m with
      cfg := s.qosMcfg p die x.2
      classes := ((List.range 8).map (fun c =>
        let k := m.classes.look c {}
        let q := s.qosCls p c die x.2
        (c, if now ∨ bits m.cfg 31 0 = 0 then { k with cls := q, newCls := none, budget := rcBudget q }
          else if q = k.cls then { k with newCls := none } else { k with newCls := some q })) : Tab RegClass) })) s

/-- The deadline registers of a die's boundaries. -/
def State.installDeadlines (s : State) (p : List PlanRec) (die : Nat) : State :=
  let mine (b : Nat) : Bool := if b < 6 then die == 0 else s.boundaryDie b == die
  let keep := s.deadlines.filterMap (fun e => if mine (e.1 / 8) then (if e.2.miss = 0 ∧ e.2.nonconf = 0 then none else some (e.1, { e.2 with time := 0, req := 0 })) else some e)
  let s := { s with deadlines := keep }
  ((planDeadlines p).filter (fun d => mine d.1)).foldl (fun s d =>
    let k := 8 * d.1 + d.2.1
    { s with deadlines := s.deadlines.put k { s.deadlines.look k {} with
        time := BitVec.ofNat 64 (d.2.2.2 * 2 ^ 32 + s.boundMax p d % 2 ^ 32), req := BitVec.ofNat 64 d.2.2.1 } }) s

/-- SSU_QALLOT of the stacks a die serves; a counter that changes hands is zeroed (Table 13.1). -/
def State.installAllot (s : State) (p : List PlanRec) (die : Nat) : State :=
  (List.range 32).foldl (fun s l =>
    if (s.stack l).die ≠ die ∨ die = 0 then s
    else
      let al : Tab (BitVec 32) := (planCmpts p).filterMap (fun c => let a := c.2.allot.look l 0; if a = 0 then none else some (c.1, a))
      let who (t : Tab (BitVec 32)) (i : Nat) : Option Nat := (t.find? (fun e => decide (bits e.2 23 16 ≤ i) && decide (i < bits e.2 23 16 + bits e.2 31 24))).map (·.1)
      s.modStack l (fun t => { t with allot := al, cnt := t.cnt.filter (fun e => who al e.1 == who t.allot e.1) })) s

/-- CMPTS and KIND of the classes. -/
def State.installClasses (s : State) (p : List PlanRec) : State :=
  { s with
    clsCmpts := (ofType p 5).map (fun e => (e.1, BitVec.ofNat 64 (fieldAt e.2 8 8)))
    clsKind := (ofType p 5).map (fun e => (e.1, fieldAt e.2 0 1)) }

/-- A GRAFT value (Table 12.6). -/
def graftRec (v : List Byte) : GraftRec :=
  { protocols := BitVec.ofNat 8 (fieldAt v 0 1), modules := fieldAt v 1 1, attest := fieldAt v 2 1 % 2 == 1, classes := BitVec.ofNat 8 (fieldAt v 3 1)
    maxOt := fieldAt v 4 2, power := fieldAt v 6 2, snoopLimit := fieldAt v 8 4, sinkLimit := fieldAt v 12 4
    vendor := BitVec.ofNat 16 (fieldAt v 16 2), product := BitVec.ofNat 16 (fieldAt v 18 2), revMin := fieldAt v 20 1, revMax := fieldAt v 21 1
    meas := BitVec.ofNat 384 (fieldAt v 24 48) }

/-- The stacks' tiles, the guarded areas, the routes, the fabric's and the graft sites' records: what only a full plan sets. -/
def State.installFixed (s : State) (p : List PlanRec) : State :=
  let s := (List.range 32).foldl (fun s l => match s.roleDie p l with
    | some d => s.modStack l (fun t => { t with die := if t.die = 0 then d else t.die })
    | none => s) s
  let s := (List.range 29).foldl (fun s d => match planVal p 8 d with
    | none => s
    | some v => s.modRouter d (fun r => { r with links := ((List.range (linkCount d)).map (fun l => (l, { r.links.look l {} with minWidth := fieldAt v (66 + l) 1 })) : Tab Link) })) s
  let s := (List.range 4).foldl (fun s k => match planVal p 11 k with
    | some v => s.modSite k (fun x => { x with grec := some (graftRec v) })
    | none => if (s.site k).grec.isSome then s.modSite k (fun x => { x with grec := none }) else s) s
  { s with
    guarded := (ofType p 4).map (fun e => (e.1, areaOfRec e.2))
    base := (ofType p 8).map (fun e => (e.1, (List.range 33).map (fun t => (t, BitVec.ofNat 16 (fieldAt e.2 (2 * t) 2)))))
    detours := (ofType p 9).map (fun e => (e.1, fieldAt e.2 0 2, detourEntries e.2))
    fab := match planVal p 10 0 with
      | none => s.fab
      | some v => { s.fab with
        id := BitVec.ofNat 16 (fieldAt v 0 2), enabled := BitVec.ofNat 28 (fieldAt v 4 4)
        grants := (List.range (fieldAt v 8 2)).map (fun j => (j, BitVec.ofNat 128 (fieldAt v (16 + 16 * j) 16))) } }

/-- Every LCK register takes its value from the plan (R259, R275 step 3). -/
def State.installPlan (s : State) (p : List PlanRec) : State :=
  let fresh := ((List.range 64).drop 1).filter (fun c => (s.cmpt c).plan.isNone)
  let s := (s.installFixed p).installClasses p
  let s := ((List.range 64).drop 1).foldl (fun s c => s.installCmpt p none c) s
  let s := (List.range 29).foldl (fun s d => ((s.installQos p d true).installDeadlines p d).installAllot p d) s
  s.emptyNew fresh

/-! ### Loading (R268) -/

/-- The first `n` bytes of the staging buffer. -/
def tabBytes : Nat → Nat → Tab (BitVec 8) → List Byte
  | 0, _, _ => []
  | n + 1, i, [] => 0 :: tabBytes n (i + 1) []
  | n + 1, i, (k, v) :: t => if k = i then v :: tabBytes n (i + 1) t else 0 :: tabBytes n (i + 1) ((k, v) :: t)

/-- An image's check starts, or is refused at step 1 while another image is checked or switched in (R270). -/
def State.bedStart (s : State) (j : LoadJob) : State :=
  if s.bed.job.isSome then s.bedRefuse (perr 1 0x600E 0xFFFF 0) j
  else { s with bed := { s.bed with job := some j } }

/-- BED_LOAD_CMD: from the PF and the management port; GO starts the check of the staged image. -/
def execBedLoadCmd (port : Port) (val : BitVec 64) (s : State) : Res :=
  upDo s (fun s =>
    if port != .pf && port != .mgmt then s.portDenied port 0x900000
    else if !bit val 63 then s
    else
      let n := bits val 22 0
      s.bedStart { image := if 4194304 < n then [] else tabBytes n 0 s.bed.staged, persist := bit val 62 })

/-- BED_LOAD: the image of the frame is placed in the staging buffer and its check starts (R268, Table 18.3). -/
def execBedLoad (session : Nat) (persist : Bool) (image : List Byte) (s : State) : Res :=
  upDo s (fun s => s.mgmtDo session (fun s =>
    let j : LoadJob := { image := image, persist := persist, mgmt := true, session := session }
    if s.bed.job.isSome then s.bedStart j
    else ({ s with bed := { s.bed with staged := (image.take 4194304).zipIdx.map (fun x => (x.2, x.1)) } } : State).bedStart j))

/-! ### Taking effect -/

/-- Compartments with a COMPARTMENT or SEGMENT record among an amendment's records (R276). -/
def affectedOf (recs : List PlanRec) : List Nat :=
  (recs.filterMap (fun r => if r.1 % 32768 = 2 then some r.2.1 else if r.1 % 32768 = 3 then some (r.2.1 / 16) else none)).dedup

/-- Compartments whose record an amendment deletes. -/
def deletedOf (recs : List PlanRec) : List Nat := recs.filterMap (fun r => if r.1 = 32768 + 2 then some r.2.1 else none)

/-- BED_CHECK_COMPLETE: the check ends. A refused image changes nothing; an accepted full plan puts every compartment fallow; an accepted amendment stops its affected compartments. -/
def execBedCheckComplete (s : State) : Res :=
  upDo s (fun s =>
    match s.bed.job with
    | none => s
    | some j =>
      if j.stage != .checking then s
      else match s.planCheck j.image false j.persist with
        | .error e => (({ s with bed := { s.bed with job := none } } : State).bedRefuse e j).releaseHeld
        | .ok (_, recs) =>
          let s := { s with bed := { s.bed with code := 0, stepNo := 14, detail := 0 } }
          if imgKind j.image = 0 then
            let s := { s with bed := { s.bed with job := some { j with stage := .fallowing } } }
            ((List.range 64).drop 1).foldl (fun s c => s.fallowStart c 4) s
          else { s with bed := { s.bed with job := some { j with stage := .quiescing, affected := affectedOf recs, deleted := deletedOf recs } } })

/-- The image's records. -/
def imageRecs (l : List Byte) : List PlanRec := match readImage l with | .ok r => r | .error _ => []

/-- The plan, hash and sequence of an accepted full plan, in force. -/
def State.fullInForce (s : State) (l : List Byte) : State :=
  let s := (s.installPlan (imageRecs l)).linksReturn.redist
  { s with
    bed := { s.bed with plan := imageRecs l, inForce := true, hash := imgHash l, seq := BitVec.ofNat 64 (imgSeq l), code := 0, stepNo := 14, detail := 0 }
    fab := { s.fab with planFloor := BitVec.ofNat 16 (fieldAt l 10 2) } }

/-- The plan, hash and sequence of an amendment, in force (R277). -/
def State.amendInForce (s : State) (l : List Byte) : State :=
  { s with
    bed := { s.bed with plan := amend s.bed.plan (imageRecs l), hash := Config.sha384 (bvBytes s.bed.hash ++ bvBytes (imgHash l)), seq := BitVec.ofNat 64 (imgSeq l) }
    fab := { s.fab with planFloor := if fieldAt l 10 2 = 0 then s.fab.planFloor else BitVec.ofNat 16 (fieldAt l 10 2) } }

/-- The load ends: messages held during it go on (R354, R367). -/
def State.loadEnds (s : State) (j : LoadJob) (answer : Bool) : State :=
  let s := { s with bed := { s.bed with job := none } }
  let s := if answer && j.mgmt then s.answerFrame j.session 0x0020 0 [] else s
  s.releaseHeld

/-- BED_ACCEPTED: every wipe has ended; the new values are installed and the event is posted (R275). -/
def execBedAccepted (s : State) : Res :=
  upDo s (fun s =>
    match s.bed.job with
    | none => s
    | some j =>
      if j.stage != .fallowing || s.cmpts.any (fun c => c.1 != 0 && c.2.state == .fallow) then s
      else
        let s := s.fullInForce j.image
        let s := if j.persist then { s with bed := { s.bed with flashPlan := some j.image, flashAmends := [] } } else s
        (s.event 0 0x0040 0 0).loadEnds j true)

/-- Whether a compartment runs nothing: no started descriptor but those whose SSU command waits in its queue, which step 5 lets go on, no started command in any SSU, no fallow (R276 step 2). -/
def State.quiet (s : State) (c : Nat) : Bool :=
  let queued (k : Nat) (d : Desc) : Bool := s.stk.any (fun t => (t.2.queue c k).any (fun e => e.index == d.id && e.st == .waiting))
  s.cstate c != .fallow &&
  ((s.cmpt c).sq.all (fun k => k.2.descs.all (fun d => d.st == .waiting || (d.st == .running && queued k.1 d)))) &&
  s.stk.all (fun t => (List.range 4).all (fun k => (t.2.queue c k).all (fun e => e.st == .waiting)))

/-- Segments an amendment changes or deletes in compartments it does not delete: compartment, segment and the new entry. -/
def State.changedSegs (s : State) (recs : List PlanRec) : List (Nat × Nat × Option Seg) :=
  recs.filterMap (fun r =>
    let c := r.2.1 / 16
    let i := r.2.1 % 16
    let old := s.seg c i
    if r.1 % 32768 ≠ 3 ∨ (deletedOf recs).contains c ∨ !old.valid then none
    else if 32768 ≤ r.1 then some (c, i, none)
    else if keepGen (segOf r.2.2) old = old then none
    else some (c, i, some (segOf r.2.2)))

/-- EPOCH_QUIESCE: step 2 of the epoch passes; deleted compartments go fallow and changed segments are withdrawn, their entries invalid until step 4 installs the new ones (R222, R276). -/
def execEpochQuiesce (s : State) : Res :=
  upDo s (fun s =>
    match s.bed.job with
    | none => s
    | some j =>
      if j.stage != .quiescing || !j.affected.all s.quiet then s
      else
        let recs := imageRecs j.image
        let segs := s.changedSegs recs
        let s := { s with bed := { s.bed with job := some { j with stage := .withdrawing
                                                                   await := 0 :: ((List.range 29).drop 1).filter (fun d => invBit s.inv.active d && !invBit s.inv.fenced d) } } }
        let s := j.deleted.foldl (fun s c => s.fallowStart c 5) s
        segs.foldl (fun s x => s.unmapStart x.1 x.2.1 none false true) s)

/-- BED_EPOCH_TIMEOUT: the amendment is abandoned and nothing has changed (R276 step 2). -/
def execBedEpochTimeout (s : State) : Res :=
  upDo s (fun s =>
    match s.bed.job with
    | none => s
    | some j =>
      if j.stage != .quiescing then s
      else (({ s with bed := { s.bed with job := none } } : State).bedRefuse { step := 14, code := 0x6010, detail := 0 } j).releaseHeld)

/-- A unit's new values at an epoch (R276 step 4). -/
def State.epochInstall (s : State) (p : List PlanRec) (j : LoadJob) (die : Nat) : State :=
  let s :=
    if die = 0 then
      let only := (imageRecs j.image).filterMap (fun r => if r.1 % 32768 = 3 then some r.2.1 else none)
      let fresh := j.affected.filter (fun c => (s.cmpt c).plan.isNone)
      (j.affected.foldl (fun s c => s.installCmpt p (some only) c) (s.installClasses p)).emptyNew fresh
    else s
  ((s.installQos p die false).installDeadlines p die).installAllot p die

/-- EPOCH: once every withdrawal and every such fallow has ended, a unit installs its new values and answers. -/
def execEpoch (die : Nat) (s : State) : Res :=
  upDo s (fun s =>
    match s.bed.job with
    | none => s
    | some j =>
      if (j.stage != .withdrawing && j.stage != .installing) || !j.await.contains die
        || s.unmaps.any (fun u => j.affected.contains u.cmpt) || j.deleted.any (fun c => s.cstate c == .fallow) then s
      else
        let s := s.epochInstall (amend s.bed.plan (imageRecs j.image)) j die
        { s with bed := { s.bed with job := some { j with stage := .installing, await := j.await.filter (· != die) } } })

/-- EPOCH_DONE: every unit has answered; the affected compartments resume (R276 step 5, R277). -/
def execEpochDone (s : State) : Res :=
  upDo s (fun s =>
    match s.bed.job with
    | none => s
    | some j =>
      if j.stage != .installing || !j.await.isEmpty then s
      else
        let s := s.amendInForce j.image
        let s := { s with bed := { s.bed with epochs := s.bed.epochs + 1, flashAmends := if j.persist then s.bed.flashAmends ++ [j.image] else s.bed.flashAmends } }
        let s := (0 :: j.affected.filter (fun c => s.cstate c != .undef)).foldl (fun s c => s.event c 0x0041 0 0) s
        s.loadEnds j true)

/-! ### The load at boot (R268, R269) -/

/-- One image read from flash: checked, and applied at once when accepted. -/
def State.bedBootImage (s : State) (l : List Byte) : State :=
  match s.planCheck l true false with
  | .error e => s.bedRefuse e { image := l, atBoot := true }
  | .ok (p, _) =>
    let t : State := if imgKind l = 0 then s.fullInForce l else (s.installPlan p).amendInForce l
    { t with bed := { t.bed with code := 0, stepNo := 14, detail := 0, seq := BitVec.ofNat 64 (max s.bed.seq.toNat (imgSeq l)) } }

/-- The persisted plan and its amendments, in order. -/
def State.bedBoot (s : State) : State := s.flashImages.foldl State.bedBootImage s

end Sys2Proof.Machine
end

