-- ==== Sys2Proof/Machine/HostLink.lean ====
section
/-! DEFINITION. Deadlines at boundaries, and the host link: completions of device-issued reads, their timeouts, and link errors (R252, R253, R289 to R302, R359). -/

namespace Sys2Proof.Machine

/-! ### Deadlines (R252, R253) -/

/-- Whether a request of a class that enters at boundary `b` in this state is conforming: its class's budget is above zero (R253). -/
def State.conforming (s : State) (b cls : Nat) : Bool :=
  decide (0 < ((s.master (s.boundaryDie b) (boundaryMaster b).2).classes.look cls {}).budget)

/-- A request of class `cls` that entered at boundary `b` and completed `cycles` boundary cycles later. One that was not conforming (`conf`) at its ingress, or larger than MAX_REQ, is not covered; a conforming one at or after its deadline is a miss (R252, R253). -/
def State.measure (s : State) (b cls size : Nat) (conf : Bool) (c cycles : Nat) : State :=
  let key := 8 * b + cls
  let d := s.deadlines.look key {}
  if bits d.time 63 32 = 0 then s
  else
    if bits d.req 31 0 < size ∨ !conf then
      { s with deadlines := s.deadlines.put key { d with nonconf := satAdd d.nonconf 1 } }
    else if cycles < bits d.time 63 32 then s
    else
      let s := { s with deadlines := s.deadlines.put key { d with miss := satAdd d.miss 1 } }
      let x := BitVec.ofNat 64 (b * 2 ^ 56 + cls * 2 ^ 48 + cycles % 2 ^ 32)
      let s := s.event 0 0x0030 c x
      if c = 0 then s else s.event c 0x0030 0 x

/-! ### Device-issued reads (R298 to R301) -/

/-- The read a tag and a Requester ID name. -/
def State.hostReadOf (s : State) (fn tag : Nat) : Option HostRead := s.pci.reads.find? (fun r => r.tag == tag && r.fn == fn)

/-- A read no longer outstanding. -/
def State.dropRead (s : State) (r : HostRead) : State := { s with pci := { s.pci with reads := s.pci.reads.filter (fun x => !(x.tag == r.tag && x.fn == r.fn)) } }

/-- Index a ring fetch reads. -/
def State.fetchIndex (s : State) (r : HostRead) : Nat := (r.addr - bits ((s.cmpt r.fn).ring r.ring).base 63 12 * 4096) / 128

/-- A read that failed: a page-in ends with the code; a ring is disabled with its head where it is, and the code is posted with the ring (R300). -/
def State.readFailed (s : State) (r : HostRead) (code : Nat) : State :=
  let s := s.dropRead r
  if r.kind = 1 then s.pageInFail r.fn r.slot (BitVec.ofNat 16 code)
  else
    let c := ((s.cmpt r.fn).ring r.ring).ctrl
    (s.ringWrite r.fn r.ring true (setBit c 8 false)).event r.fn code 0 (BitVec.ofNat 64 r.ring)

/-- The data of a page-in's read: written to its slot, poisoned when EP = 1, and the next 4 KiB asked for. -/
def State.pageData (s : State) (r : HostRead) (data : List Byte) (ep : Bool) : State :=
  match (s.cmpt r.fn).pcmds.find? (fun p => p.op == 1 && p.slot == r.slot), (s.cmpt r.fn).plan with
  | some p, some rec =>
    let a := landingBase rec + r.slot * 0x20_0000 + p.got
    let s := if ep then (sectors a r.len).foldl (fun s sec => s.ssuPoison r.fn sec) s else s.ssuWr r.fn a data
    let q : PageCmd := { p with got := p.got + r.len, pois := p.pois || ep }
    (s.modCmpt r.fn (fun m => { m with pcmds := m.pcmds.map (fun x => if x.op = 1 ∧ x.slot = r.slot then q else x) })).pageAsk r.fn q
  | _, _ => s

/-- The data of a ring fetch. -/
def State.fetchData (s : State) (r : HostRead) (data : List Byte) (ep : Bool) : State :=
  let i := s.fetchIndex r
  s.modRing r.fn r.ring (fun x => { x with
    fetched := x.fetched.put i (if ep then 0 else BitVec.ofNat 1024 (ofLe data))
    bad := if ep then insNat x.bad i else x.bad })

/-- HOST_COMPLETION: a completion for a device-issued read, by Requester ID and tag; `status` 0 is success, any other UR or CA. One for a read given up is discarded; one for no read is logged as unexpected. -/
def execHostCompletion (fn tag status : Nat) (data : List Byte) (ep : Bool) (s : State) : Res :=
  upDo s (fun s =>
    match s.hostReadOf fn tag with
    | none =>
      if s.pci.dead.contains tag then { s with pci := { s.pci with dead := s.pci.dead.filter (· != tag) } }
      else s.aerLog fn .unexpectedCompletion
    | some r =>
      if status ≠ 0 then s.readFailed r 0x5201
      else if data.length ≠ r.len then s
      else
        let s := s.dropRead r
        let s := if ep then s.aerLog fn .poisonedTlp else s
        if r.kind = 1 then s.pageData r data ep else s.fetchData r data ep)

/-- Completion timeout values in microseconds (Table 14.7). -/
def timeoutOf (code : BitVec 4) : Nat :=
  match code.toNat with
  | 0b0001 => 90 | 0b0010 => 9000 | 0b0101 => 50000 | 0b0110 => 200000 | 0b1001 => 850000 | 0b1010 => 3300000 | 0b1101 => 12000000 | 0b1110 => 60000000
  | _ => 40000

/-- COMPLETION_TIMEOUT: a read has waited `age` microseconds without a completion; at the timeout value it ends and is counted and logged (R299, R300). -/
def execCompletionTimeout (tag age : Nat) (s : State) : Res :=
  upDo s (fun s =>
    if age < timeoutOf s.pci.toCode then s
    else match s.pci.reads.find? (fun r => r.tag == tag) with
      | some r => ((({ s with pci := { s.pci with timeouts := satAdd s.pci.timeouts 1 } } : State).readFailed r 0x5001).aerLog r.fn .completionTimeout)
      | none => if s.pci.dead.contains tag then { s with pci := { s.pci with dead := s.pci.dead.filter (· != tag), timeouts := satAdd s.pci.timeouts 1 } } else s)

/-! ### Link errors (R302, R359, R427) -/

/-- SURPRISE_DOWN: reported as fatal in the PF's AER; it is no reset, and the endpoint retrains. -/
def execSurpriseDown (s : State) : Res := upDo s (fun s => s.aerLog 0 .surpriseDown)

/-- IDE_CHECK_FAILED: the TLP is discarded, its stream (0 the link stream) becomes Insecure, and every TDI bound to it enters ERROR with its compartment fallow (R359, Table 17.5). -/
def execIdeCheckFailed (stream : Nat) (s : State) : Res :=
  upDo s (fun s =>
    if 16 < stream then s
    else
      let s := { s with pci := if stream = 0 then { s.pci with ideLink := false } else { s.pci with ideSel := setBit s.pci.ideSel (stream - 1) false } }
      let s := s.aerLog 0 .ideCheckFailed
      (s.cmpts.filter (fun c => c.2.bound && c.2.stream == stream && (c.2.tdi == .locked || c.2.tdi == .run))).foldl (fun s c => s.tdiFallow c.1) s)

end Sys2Proof.Machine
end

