-- ==== Sys2Proof/Machine/Storage.lean ====
section
/-! DEFINITION. The storage root port: drives, their bus-master requests, namespaces, and STORAGE descriptors with sealed blocks (R303 to R313). -/

namespace Sys2Proof.Machine

/-! ### Descriptors on drives -/

/-- A running STORAGE descriptor of a ring that meets `p`. -/
def State.stoFind (s : State) (fn k : Nat) (p : Desc → Bool) : Option Desc :=
  ((s.cmpt fn).ring k).descs.find? (fun d => p d && d.st == .running && dtype d.bytes == 5)

/-- The running STORAGE descriptor of a serial number. -/
def State.stoDesc (s : State) (fn k id : Nat) : Option Desc := s.stoFind fn k (fun d => d.id == id)

/-- A drive command of a descriptor. -/
def NvmeCmd.of (x : NvmeCmd) (fn k index : Nat) : Bool := x.cmpt == fn && x.ring == k && x.index == index

/-- The commands of a descriptor leave the list, and its engine has fewer bytes queued (R313). -/
def State.dropNvme (s : State) (fn k index : Nat) : State :=
  let mine := s.sto.cmds.filter (fun x => x.of fn k index)
  { s with sto := { s.sto with
    cmds := s.sto.cmds.filter (fun x => !(x.of fn k index))
    queued := mine.foldl (fun q x => q.put x.engine (q.look x.engine 0 - x.len)) s.sto.queued } }

/-- A STORAGE descriptor ends with a code and DETAIL. -/
def State.stoEnd (s : State) (fn k index : Nat) (code : BitVec 16) (detail : Nat) : State :=
  (s.dropNvme fn k index).modDesc fn k index (fun d => { d with st := .done, code := firstCode d.code code, detail := BitVec.ofNat 64 detail })

/-- DETAIL of a failed drive command: the block in [63:16], the NVMe status in [15:0] (R312). -/
def stoDetail (block status : Nat) : Nat := block % 2 ^ 48 * 65536 + status % 65536

/-- First byte of block `b` of an object on its drive, and of its tag record. -/
def State.dataByte (s : State) (d : Desc) (b : Nat) : Nat := stData d.bytes * (s.stoSpace d.grant).lba + b * stSeal d.bytes
def State.tagByte (s : State) (d : Desc) (b : Nat) : Nat := stTag d.bytes * (s.stoSpace d.grant).lba + 32 * b

/-- A request to a drive: 1 read, 2 write, 3 flush; the bytes are covered by whole LBAs. -/
def State.driveReq (s : State) (d : Desc) (kind byte n : Nat) (data : List Byte) : State :=
  let l := (s.stoSpace d.grant).lba
  s.emit (.drive (bits d.grant 61 60) kind (byte / l) (roundUp (byte % l + n) l) data)

/-- The inline engine of a descriptor: the one its commands already use, else the one with fewer bytes queued, 0 on a tie (R313). -/
def State.engineFor (s : State) (fn k index : Nat) : Nat :=
  match s.sto.cmds.find? (fun x => x.of fn k index) with
  | some x => x.engine
  | none => if s.sto.queued.look 1 0 < s.sto.queued.look 0 0 then 1 else 0

/-- The I/O queue pairs of a drive in service: one for the Curator, as compartment 0, and one for each compartment with a grant on the drive (R304 step 5). -/
def State.queuePairs (s : State) (d : Nat) : List Nat :=
  if (s.drive d).st = .ready then 0 :: ((s.sto.grants.filter (fun e => bit e.2 63 && bits e.2 61 60 == d)).map (fun e => bits e.2 59 54)).eraseDups else []

/-- A drive command put in the list. -/
def State.addNvme (s : State) (x : NvmeCmd) : State :=
  { s with sto := { s.sto with cmds := s.sto.cmds ++ [x], queued := s.sto.queued.put x.engine (s.sto.queued.look x.engine 0 + x.len) } }

/-- Additional authenticated data of block `b` (R307). -/
def stoAad (d : Desc) (b : Nat) : List Byte := leBytes 8 (stObj d.bytes) ++ leBytes 8 b ++ leBytes 4 (stSeal d.bytes)

/-! ### READ (R311) -/

/-- The next read of a descriptor: at most 1 MiB of whole blocks with their tag records, and at most 64 outstanding. -/
def State.readNext (s : State) (fn k : Nat) (d : Desc) : Option State :=
  let mine := s.sto.cmds.filter (fun x => x.of fn k d.id)
  let asked := mine.foldl (fun n x => max n (x.blocks + x.len / stSeal d.bytes)) d.prog
  if stCount d.bytes ≤ asked ∨ 64 ≤ mine.length then none
  else
    let n := min (0x10_0000 / stSeal d.bytes) (stCount d.bytes - asked)
    let b := stBlk d.bytes + asked
    let e := s.engineFor fn k d.id
    let s := if stPlain d.bytes then s else s.driveReq d 1 (s.tagByte d b) (32 * n) []
    let s := s.driveReq d 1 (s.dataByte d b) (n * stSeal d.bytes) []
    some (s.addNvme { drive := bits d.grant 61 60, cmpt := fn, ring := k, index := d.id, op := 1, lba := s.dataByte d b / (s.stoSpace d.grant).lba
                      blocks := asked, len := n * stSeal d.bytes, tag := !stPlain d.bytes, engine := e })

def State.readIssue : Nat → State → Nat → Nat → Desc → State
  | 0, s, _, _, _ => s
  | fuel + 1, s, fn, k, d => match s.readNext fn k d with | some s => State.readIssue fuel s fn k d | none => s

/-- A block's plaintext: as it is with PLAIN, else opened with the key and the record's IV and tag; none when the tag fails. -/
def State.openBlock (s : State) (fn : Nat) (d : Desc) (b : Nat) (data tags : List Byte) : Option (List Byte) :=
  if stPlain d.bytes then some data
  else Config.gcmOpen ((s.cmpt fn).keys.look (stKey d.bytes) {}).key (tags.take 12) (stoAad d b) data ((tags.drop 12).take 16)

/-- The plaintext of a block written to its place in the segment. -/
def State.writeBlock (s : State) (fn : Nat) (d : Desc) (j : Nat) (l : List Byte) : State × Bool :=
  let va := stVa d.bytes + j * stSeal d.bytes
  (s.offer 0 3 (dclass d.bytes) fn true (s.physPieces fn (vaSeg va) (s.seg fn (vaSeg va)) (vaOff va) (stSeal d.bytes))).writePieces fn
    (s.physPieces fn (vaSeg va) (s.seg fn (vaSeg va)) (vaOff va) (stSeal d.bytes)) (padTo (stSeal d.bytes) l) []

/-- The blocks of a read in ascending order: each is written only after its tag verifies; the first that fails ends the descriptor with SEAL_AUTH. -/
def State.takeBlocks : Nat → State → Nat → Nat → Nat → Nat → List Byte → List Byte → State
  | 0, s, _, _, _, _, _, _ => s
  | n + 1, s, fn, k, index, e, data, tags =>
    match s.stoDesc fn k index with
    | none => s
    | some d =>
      let z := stSeal d.bytes
      let b := stBlk d.bytes + d.prog
      let s := { s with sto := { s.sto with gib := s.sto.gib.put e (s.sto.gib.look e 0 + z) } }
      match s.openBlock fn d b (data.take z) (tags.take 32) with
      | none =>
        let s := { s with sto := { s.sto with tagFails := s.sto.tagFails.put e (satAdd (s.sto.tagFails.look e 0) 1) } }
        s.stoEnd fn k index 0x5303 b
      | some l =>
        let (s, pp) := s.writeBlock fn d d.prog l
        let s := s.modDesc fn k index (fun x => { x with prog := x.prog + 1, code := firstCode x.code (if pp then 0x3001 else 0) })
        State.takeBlocks n s fn k index e (data.drop z) (tags.drop 32)

/-- The drive's completions of a read taken in ascending block order, further reads issued, and the descriptor done with its last block. -/
def State.readGo : Nat → State → Nat → Nat → Nat → State
  | 0, s, _, _, _ => s
  | fuel + 1, s, fn, k, index =>
    match s.stoDesc fn k index with
    | none => s
    | some d =>
      if s.stale fn d.xlats then s.stoEnd fn k index 0x2003 0
      else if stCount d.bytes ≤ d.prog then s.stoEnd fn k index 0 0
      else
        match s.sto.cmds.find? (fun x => x.of fn k index && x.blocks == d.prog && x.back) with
        | none => State.readIssue 64 s fn k d
        | some x =>
          if x.status ≠ 0 then s.stoEnd fn k index 0x5304 (stoDetail (stBlk d.bytes + d.prog) x.status)
          else
            let s := { s with sto := { s.sto with
              cmds := s.sto.cmds.filter (fun y => !(y.of fn k index && y.blocks == x.blocks))
              queued := s.sto.queued.put x.engine (s.sto.queued.look x.engine 0 - x.len) } }
            State.readGo fuel (s.takeBlocks (x.len / stSeal d.bytes) fn k index x.engine x.data x.tags) fn k index

/-- STORAGE_READ: the descriptor's drive reads are issued. -/
def execStorageRead (fn k index : Nat) (s : State) : Res :=
  upDo s (fun s => match s.stoFind fn k (fun d => d.index == index && stOp d.bytes == 1) with
    | some d => if s.cstate fn = .ready then State.readGo 66 s fn k d.id else s
    | none => s)

/-! ### WRITE and FLUSH -/

/-- A block sealed with the slot's salt and counter, which advances by one: the ciphertext and its tag record (R307). -/
def State.sealBlock (s : State) (fn : Nat) (d : Desc) (b : Nat) (l : List Byte) : State × List Byte × List Byte :=
  if stPlain d.bytes then (s, l, [])
  else
    let i := stKey d.bytes
    let x := (s.cmpt fn).keys.look i {}
    let iv := bvBytes x.salt ++ bvBytes x.ctr
    let (ct, tag) := Config.gcmSeal x.key iv (stoAad d b) l
    (s.modCmpt fn (fun m => { m with keys := m.keys.put i { x with ctr := x.ctr + 1 } }), padTo (stSeal d.bytes) ct, iv ++ padTo 16 tag ++ [0, 0, 0, 0])

/-- The blocks of a write read from memory and sealed, in order: ciphertext, tag records, and whether a poisoned sector was read. -/
def State.sealBlocks : Nat → State → Nat → Desc → Nat → State × List Byte × List Byte × Bool
  | 0, s, _, _, _ => (s, [], [], false)
  | n + 1, s, fn, d, j =>
    let va := stVa d.bytes + j * stSeal d.bytes
    let ps := s.physPieces fn (vaSeg va) (s.seg fn (vaSeg va)) (vaOff va) (stSeal d.bytes)
    let (s, l, bad) := (s.offer 0 3 (dclass d.bytes) fn false ps).readPieces ps
    let (s, ct, t) := s.sealBlock fn d (stBlk d.bytes + j) l
    let (s, cts, ts, p) := State.sealBlocks n s fn d (j + 1)
    (s, ct ++ cts, t ++ ts, bad.any id || p)

/-- The writes of at most 1 MiB that carry bytes to a drive. -/
def State.writeOut (s : State) (fn k : Nat) (d : Desc) (e byte first : Nat) (tag : Bool) (l : List Byte) : State :=
  ((List.range ((l.length + 0xF_FFFF) / 0x10_0000)).map (fun j => (j, (l.drop (j * 0x10_0000)).take 0x10_0000))).foldl (fun s (x : Nat × List Byte) =>
    (s.driveReq d 2 (byte + x.1 * 0x10_0000) x.2.length x.2).addNvme
      { drive := bits d.grant 61 60, cmpt := fn, ring := k, index := d.id, op := 2, lba := (byte + x.1 * 0x10_0000) / (s.stoSpace d.grant).lba
        blocks := if tag then first else first + x.1 * 0x10_0000 / stSeal d.bytes, len := x.2.length, tag := tag, engine := e }) s

/-- STORAGE_WRITE: the plaintext is read and sealed, and data and tag records are written to the drive. A slot whose counter would be spent refuses (R308, Table 14.14). -/
def State.storageWrite (s : State) (fn k : Nat) (d : Desc) : State :=
  let n := stCount d.bytes
  if s.stale fn d.xlats then s.stoEnd fn k d.id 0x2003 0
  else if !stPlain d.bytes ∧ 2 ^ 64 - 1 < ((s.cmpt fn).keys.look (stKey d.bytes) {}).ctr.toNat + n then s.stoEnd fn k d.id 0x5302 0
  else
    let va := stVa d.bytes
    let (s, hold) := s.readGate (.desc fn k d.id) (s.physPieces fn (vaSeg va) (s.seg fn (vaSeg va)) (vaOff va) (n * stSeal d.bytes))
    if hold then s
    else
    let e := s.engineFor fn k d.id
    let (s, ct, ts, p) := State.sealBlocks n s fn d 0
    let s := s.modDesc fn k d.id (fun x => { x with prog := n, code := firstCode x.code (if p then 0x3001 else 0) })
    let s := { s with sto := { s.sto with gib := s.sto.gib.put e (s.sto.gib.look e 0 + ct.length) } }
    (s.writeOut fn k d e (s.dataByte d (stBlk d.bytes)) 0 false ct).writeOut fn k d e (s.tagByte d (stBlk d.bytes)) 0 true ts

/-- STORAGE_WRITE (R311). -/
def execStorageWrite (fn k index : Nat) (s : State) : Res :=
  upDo s (fun s => match s.stoFind fn k (fun d => d.index == index && stOp d.bytes == 2 && d.prog == 0) with
    | some d => if s.cstate fn = .ready then s.storageWrite fn k d else s
    | none => s)

/-- STORAGE_FLUSH: an NVMe Flush is issued to the namespace (R309). -/
def execStorageFlush (fn k index : Nat) (s : State) : Res :=
  upDo s (fun s => match s.stoFind fn k (fun d => d.index == index && stOp d.bytes == 3 && !s.sto.cmds.any (fun x => x.of fn k d.id)) with
    | some d =>
      if s.cstate fn = .ready then
        (s.emit (.drive (bits d.grant 61 60) 3 0 0 [])).addNvme { drive := bits d.grant 61 60, cmpt := fn, ring := k, index := d.id, op := 3, engine := s.engineFor fn k d.id }
      else s
    | none => s)

/-! ### Completions (R311, R312) -/

/-- A drive's completion of command `x`: a read's is kept in the staging buffer and taken in block order; a write or flush is done with its last command. -/
def State.nvmeDone (s : State) (n : Nat) (x : NvmeCmd) (status : Nat) (data tags : List Byte) : State :=
  match s.stoDesc x.cmpt x.ring x.index with
  | none => { s with sto := { s.sto with cmds := s.sto.cmds.eraseIdx n, queued := s.sto.queued.put x.engine (s.sto.queued.look x.engine 0 - x.len) } }
  | some d =>
    if x.op = 1 then
      State.readGo 66 { s with sto := { s.sto with cmds := modNth s.sto.cmds n (fun y => { y with back := true, status := status, data := data, tags := tags }) } } x.cmpt x.ring x.index
    else if status ≠ 0 then s.stoEnd x.cmpt x.ring x.index 0x5304 (stoDetail (if x.op = 3 then 0 else stBlk d.bytes + x.blocks) status)
    else
      let s := { s with sto := { s.sto with cmds := s.sto.cmds.eraseIdx n, queued := s.sto.queued.put x.engine (s.sto.queued.look x.engine 0 - x.len) } }
      if s.sto.cmds.any (fun y => y.of x.cmpt x.ring x.index) then s else s.stoEnd x.cmpt x.ring x.index 0 0

/-- NVME_COMPLETION: the drive completes its `n`-th outstanding command; a successful read brings its data and its tag records. `late` is its time in boundary cycles. -/
def execNvmeCompletion (n status : Nat) (data tags : List Byte) (late : Nat) (s : State) : Res :=
  upDo s (fun s => match s.sto.cmds[n]? with
    | none => s
    | some x =>
      if x.back ∨ (s.drive x.drive).st ≠ .ready ∨ (x.op = 1 ∧ status = 0 ∧ data.length ≠ x.len) then s
      else
        let cls := match s.stoDesc x.cmpt x.ring x.index with | some d => dclass d.bytes | none => 0
        (s.measure 1 cls x.len (s.conforming 1 cls) x.cmpt late).nvmeDone n x status data tags)

/-- NVME_TIMEOUT: a command not completed within STO_CMD_TIMEOUT (`age` in ms) is aborted, and its descriptor ends with DRIVE_TIMEOUT (R312). -/
def execNvmeTimeout (n age : Nat) (s : State) : Res :=
  upDo s (fun s => match s.sto.cmds[n]? with
    | none => s
    | some x =>
      if x.back ∨ age < bits s.sto.cmdTimeout 31 0 then s
      else match s.stoDesc x.cmpt x.ring x.index with
        | none => { s with sto := { s.sto with cmds := s.sto.cmds.eraseIdx n, queued := s.sto.queued.put x.engine (s.sto.queued.look x.engine 0 - x.len) } }
        | some d => s.stoEnd x.cmpt x.ring x.index 0x5305 (stoDetail (if x.op = 1 then stBlk d.bytes + d.prog else stBlk d.bytes + x.blocks) 0))

/-! ### Drives (R303 to R306) -/

/-- Running descriptors of a drive end with DRIVE_DOWN. -/
def State.driveDown (s : State) (d : Nat) : State :=
  s.cmpts.foldl (fun s c => c.2.sq.foldl (fun s r => r.2.descs.foldl (fun s x =>
    if x.st = .running ∧ dtype x.bytes = 5 ∧ bits x.grant 61 60 = d then
      s.stoEnd c.1 r.1 x.id 0x5306 (stoDetail (if stOp x.bytes = 3 then 0 else stBlk x.bytes + (if stOp x.bytes = 1 then x.prog else 0)) 0)
    else s) s) s) s

/-- Root ports that a strap gives, and their width code (Table 14.10). -/
def bifWidth (b : BitVec 2) (d : Nat) : Option Nat :=
  match b.toNat with
  | 0 => if d = 0 then some 4 else none
  | 1 => if d < 2 then some 3 else none
  | 2 => if d < 4 then some 2 else none
  | _ => none

/-- A namespace as recorded: unusable with another LBA size or end-to-end protection (R304). -/
def nsOf (x : NsInfo) : NameSpace := { usable := (x.lba == 512 || x.lba == 4096) && !x.prot, lba4k := x.lba == 4096, cap := x.cap }

/-- DRIVE_INSERTION: the link trains at `rate` and `width`; a device that is no NVMe controller is left UNSUPPORTED; else at most 64 namespaces are recorded and the drive is READY. -/
def execDriveInsertion (d rate width : Nat) (good : Bool) (ns : List NsInfo) (s : State) : Res :=
  upDo s (fun s =>
    match bifWidth s.sto.bifur d with
    | none => s
    | some w =>
      if !bit s.inv.units 3 || (s.drive d).st != .absent then s
      else if !good then s.modDrive d (fun _ => { st := .unsupported, rate := min rate 6, width := min width w })
      else
        let t : Tab NameSpace := (ns.take 64).foldl (fun (t : Tab NameSpace) x => t.put x.nsid (nsOf x)) []
        (s.modDrive d (fun _ => { st := .ready, rate := min rate 6, width := min width w, ns := t, busMaster := true })).event 0 0x0060 0 (BitVec.ofNat 64 d))

/-- DRIVE_REMOVAL: running descriptors end with DRIVE_DOWN and DRIVE_LOST is posted (R312). -/
def execDriveRemoval (d : Nat) (s : State) : Res :=
  upDo s (fun s =>
    if (s.drive d).st = .absent ∨ 4 ≤ d then s
    else ((s.driveDown d).modDrive d (fun _ => {})).event 0 0x0061 0 (BitVec.ofNat 64 d))

/-- Where the root port's private address space holds the staging buffer and a drive's queue memory (a choice, log 19). -/
def stagingSize : Nat := 0x0200_0000
def queueBase (d : Nat) : Nat := 0x0200_0000 + d * 0x10_0000

/-- DRIVE_DMA_REQUEST: a drive's bus-master request to staging or to its own queue memory is served; any other is answered with UR, and the drive is fenced (R305). -/
def execDriveDmaRequest (d : Nat) (write : Bool) (addr : Nat) (bytes : List Byte) (len : Nat) (s : State) : Res :=
  upDo s (fun s =>
    let n := if write then bytes.length else len
    if 4 ≤ d ∨ !(s.drive d).busMaster then s
    else if addr + n ≤ stagingSize then
      if write then { s with sto := { s.sto with staging := bytes.zipIdx.foldl (fun (t : Tab (BitVec 8)) x => t.put (addr + x.2) x.1) s.sto.staging } }
      else s.emit (.drive d 4 addr len ((List.range len).map (fun j => s.sto.staging.look (addr + j) 0)))
    else if queueBase d ≤ addr ∧ addr + n ≤ queueBase d + 0x10_0000 then
      if write then s.modDrive d (fun x => { x with queueMem := bytes.zipIdx.foldl (fun (t : Tab (BitVec 8)) y => t.put (addr - queueBase d + y.2) y.1) x.queueMem })
      else s.emit (.drive d 4 addr len ((List.range len).map (fun j => (s.drive d).queueMem.look (addr - queueBase d + j) 0)))
    else
      let s := s.emit (.drive d 5 addr n [])
      let s := { s with
        sto := { s.sto with dmaDenied := satAdd s.sto.dmaDenied 1 }
        auth := { s.auth with denied := s.auth.denied.put 7 (satAdd (s.auth.denied.look 7 0) 1) } }
      ((s.driveDown d).modDrive d (fun x => { x with busMaster := false, st := .fenced })).event 0 0x0061 0 (BitVec.ofNat 64 d))

/-- Whether two valid STO_NS entries give one compartment one handle. -/
def sameHandle (a b : BitVec 64) : Bool := bit a 63 && bit b 63 && bits a 59 50 == bits b 59 50

/-- A write to STO_NS; an entry that would repeat a handle is stored with VALID = 0 (R306). -/
def State.stoNsWrite (s : State) (k : Nat) (val : BitVec 64) : State :=
  if 64 ≤ k then s
  else
    let v := val &&& 0xFFFC0000FFFFFFFF#64
    let dup := s.sto.grants.any (fun e => e.1 != k && sameHandle e.2 v)
    { s with sto := { s.sto with grants := s.sto.grants.put k (if dup then setBit v 63 false else v) } }

/-- STO_NS_WRITE (R306). -/
def execStoNsWrite (port : Port) (k : Nat) (val : BitVec 64) (s : State) : Res :=
  upDo s (fun s => if port != .pf && port != .mgmt then s.portDenied port (0xB00200 + 8 * k) else s.stoNsWrite k val)

end Sys2Proof.Machine
end

