-- ==== Sys2Proof/Machine/Fabric.lean ====
section
/-! DEFINITION. The device fabric: ports and links, discovery and routes, transit, the transport, remote operations at their destination, and versions (R314 to R337). -/

namespace Sys2Proof.Machine

/-! ### Ports (R314, R319) -/

/-- A port may carry traffic: bonded, enabled by the plan, its tile not fenced. Without a plan in force every bonded port is enabled (R314, R320, log 41). -/
def State.portOn (s : State) (p : Nat) : Bool :=
  decide (p < 28) && s.hasFabric && bit s.inv.ports p && (!s.bed.inForce || bit s.fab.enabled p) && !invBit s.inv.fenced (p + 1)

/-- Whether two reports say the same but for their sequence. -/
def Report.same (a b : Report) : Bool := a.id == b.id && a.digest == b.digest && a.version == b.version && a.ports == b.ports

/-- Identifiers carried by two reports with different digests (R321). -/
def dupIds (l : List Report) : List (BitVec 16) :=
  (idsOf l).filterMap (fun i =>
    match (l.filter (fun r => r.id.toNat == i)).map (·.digest) with
    | [] => none
    | d :: t => if t.any (· != d) then some (BitVec.ofNat 16 i) else none)

/-- Reports held after a change: the 1,024 lowest identifiers stay, duplicated identifiers are ignored, each with its event; a change starts a route transition (R321, R323). -/
def State.reportsNow (s : State) (l : List Report) : State :=
  let ids := idsOf l
  let keep := ids.take 1024
  let l' := if 1024 < ids.length then l.filter (fun r => keep.contains r.id.toNat) else l
  let s := if 1024 < ids.length then s.event 0 0x5406 0 0 else s
  let dup := dupIds l'
  let s := (dup.filter (fun i => !s.fab.ignored.contains i)).foldl (fun s _ => s.event 0 0x5404 0 0) s
  let changed := !(decide (l'.length = s.fab.reports.length) && l'.all (fun r => s.fab.reports.any (Report.same r)))
  { s with fab := { s.fab with
      reports := l', ignored := dup
      transition := s.fab.transition || changed
      converged := s.fab.converged && !changed } }

/-- A report stored in the place of the one held for its identifier and digest. -/
def putReport (l : List Report) (r : Report) : List Report := l.filter (fun x => !(x.id == r.id && x.digest == r.digest)) ++ [r]

/-- A report as it is sent. -/
def reportMsg (r : Report) : AdjReport := { id := r.id, digest := r.digest, version := r.version, seq := r.seq, ports := r.ports }

/-- The device's report flooded on every UP port (R320). -/
def State.flood (s : State) : State :=
  let s := { s with fab := { s.fab with mySeq := s.fab.mySeq + 1 } }
  let r := s.ownReport
  let s := s.reportsNow (putReport (s.fab.reports.filter (fun x => !(x.digest == r.digest))) r)
  s.upPorts.foldl (fun s p => s.emit (.adj p (reportMsg r))) s

/-! ### Routes (R320 to R323) -/

/-- Neighbour states on an escape path: state 2i may still go up, state 2i + 1 goes down only (R322). -/
def escapeAdj (l : List Report) (lv : List (Nat × Nat)) (st : Nat) : List Nat :=
  let i := st / 2
  (nbrs l i).filterMap (fun j => if hopUp lv i j then (if st % 2 = 0 then some (2 * j) else none) else some (2 * j + 1))

/-- The port with the least value, the lower port number winning a tie (R322). -/
def bestPort (l : List (Nat × Nat)) : Option Nat :=
  (l.foldl (fun (a : Option (Nat × Nat)) e => match a with
    | none => some e
    | some b => if e.2 < b.2 ∨ (e.2 = b.2 ∧ e.1 < b.1) then some e else some b) none).map (·.1)

/-- The escape next hop toward `dst`: the first hop of the shortest path of up hops followed by down hops, or of down hops only. -/
def escapeTo (lv : List (Nat × Nat)) (own dst : Nat) (down : Bool) (paths : List (Nat × Nat × List (Nat × Nat))) : Option Nat :=
  bestPort (paths.filterMap (fun e =>
    if down && hopUp lv own e.2.1 then none
    else
      match distOf e.2.2 (2 * dst), distOf e.2.2 (2 * dst + 1) with
      | some a, some b => some (e.1, min a b)
      | some a, none => some (e.1, a)
      | none, some b => some (e.1, b)
      | none, none => none))

/-- Adaptive and escape routes, the domain's members, its floor and ceiling recomputed from the reports; a change of floor, ceiling or membership posts FAB_DOMAIN_CHANGED (R320, R322, R334). -/
def State.recompute (s : State) : State :=
  let l := s.liveReports
  let own := s.fab.id.toNat
  let ids := idsOf l
  let lv := levels l
  let mine := bfs (nbrs l) own
  let links := linksOf l own
  let near := links.map (fun e => (e.1, bfs (nbrs l) e.2))
  let paths := links.map (fun e => (e.1, e.2, bfs (escapeAdj l lv) (if hopUp lv own e.2 then 2 * e.2 else 2 * e.2 + 1)))
  let others := ids.filter (· != own)
  let adaptive := others.filterMap (fun d =>
    match distOf mine d with
    | some n => some (BitVec.ofNat 16 d, (near.filter (fun e => match distOf e.2 d with | some m => m + 1 == n | none => false)).map (·.1))
    | none => none)
  let esc (down : Bool) := others.filterMap (fun d => (escapeTo lv own d down paths).map (fun p => (BitVec.ofNat 16 d, p)))
  let vers := l.map (fun r => r.version.toNat)
  let floor := BitVec.ofNat 16 (vers.foldl min 65535)
  let ceil := BitVec.ofNat 16 (vers.foldl max 0)
  let members := ids.map (fun i => (BitVec.ofNat 16 i, (distOf mine i).getD 255, BitVec.ofNat 16 (((l.find? (fun r => r.id.toNat == i)).map (fun r => r.version.toNat)).getD 0)))
  let told := floor != s.fab.floor || ceil != s.fab.ceiling || members.map (·.1) != s.fab.members.map (·.1)
  let s := { s with fab := { s.fab with
      adaptive := adaptive, escape := esc false, escapeDown := esc true, floor := floor, ceiling := ceil, members := members
      root := BitVec.ofNat 16 (ids.headD 0), level := (distOf lv own).getD 0 } }
  if told then s.event 0 0x0070 0 (BitVec.ofNat 64 (floor.toNat + 65536 * ceil.toNat)) else s

/-! ### Transit (R322, R323, R337) -/

/-- A packet carried from the ingress engine of port `k.port` to an egress engine that has reserved a buffer for it; without a route it waits (R323). A packet leaves adaptive channels only when no adaptive hop is left (log 42). -/
def State.forward (s : State) (k : FabPkt) : State :=
  let put (s : State) (p : Nat) (k : FabPkt) : State := (s.egressPut p k).modFport p (fun f => { f with bufs := f.bufs + 1 })
  let ports := ((s.fab.adaptive.find? (fun e => e.1 == k.dst)).map (·.2)).getD []
  if !pktEsc k && !ports.isEmpty then
    match s.portFor (k.port + 1) k.dst k.seq.toNat with
    | some p => put s p k
    | none => s
  else
    match ((if pktDown k then s.fab.escapeDown else s.fab.escape).find? (fun e => e.1 == k.dst)).map (·.2) with
    | some p => put s p (s.escapeHop p k)
    | none => s.modFport k.port (fun f => { f with ingress := f.ingress ++ [k] })

/-- Packets that waited for a route tried again. -/
def State.forwardAll (s : State) : State :=
  (List.range 28).foldl (fun s p =>
    let l := (s.fport p).ingress
    l.foldl State.forward (s.modFport p (fun f => { f with ingress := [] }))) s

/-- A port no longer used by any route (R337). -/
def State.unroute (s : State) (p : Nat) : State :=
  { s with fab := { s.fab with
      adaptive := s.fab.adaptive.map (fun e => (e.1, e.2.filter (· != p)))
      escape := s.fab.escape.filter (fun e => e.2 != p)
      escapeDown := s.fab.escapeDown.filter (fun e => e.2 != p) } }

/-- A port changed by `f` and in state `st`; a change of state floods a report (R320). -/
def State.portTo (s : State) (p : Nat) (st : FabSt) (f : FabPort → FabPort) : State :=
  let t := s.modFport p (fun x => { f x with st := st })
  if (s.fport p).st == st then t else t.flood

/-- A port leaves UP for `st`: traffic is rerouted at once, its queued packets are re-injected, FAB_PORT_DOWN is posted and a report is flooded; out of UP it only changes its state (R319, R320, R337). -/
def State.portDown (s : State) (p : Nat) (st : FabSt) : State :=
  if s.portUp p then
    let q := (s.fport p).egress
    let s := s.modFport p (fun f => { f with st := st, keyed := false, retry := [], egress := [], bufs := 0, replays := 0, tagFails := 0 })
    let s := s.unroute p
    let s := q.foldl (fun s k => s.forward { k with port := p }) s
    (s.event 0 0x5405 0 (BitVec.ofNat 64 p)).flood
  else s.portTo p st (fun f => { f with keyed := false })

/-- Training begins: the link's flits are numbered afresh (Table 15.3, R316). -/
def State.train (s : State) (p : Nat) : State :=
  (s.portDown p .training).modFport p (fun f => { f with
    rate := 0, nbr := 0, nbrPort := 0, version := 0, sendSeq := 0, lastAcc := 0xFFFFFF#24, retry := [], replays := 0 })

/-! ### Flits (R316 to R318, Table 15.2) -/

/-- HEADER of a flit: SEQ, ACK, TYPE and KEY_PHASE; no credits are returned in it (log 44). -/
def flitHeader (seq ack : BitVec 24) (typ : Nat) (phase : Bool) : BitVec 64 :=
  BitVec.ofNat 64 (seq.toNat * 2 ^ 40 + ack.toNat * 2 ^ 16 + typ * 2 ^ 12 + b2n phase * 2 ^ 10)

/-- Key and salt of the direction in which the device sends, derived from the exchange that made the link's keys (R318). -/
def State.linkKey (s : State) (p : Nat) : BitVec 384 :=
  Config.hkdf (BitVec.ofNat 384 (Config.free (s.fport p).keyDraw)) (bvBytes s.fab.id ++ bvBytes (s.fport p).nbr)

/-- PAYLOAD and TAG of a flit: a data flit on a keyed link is encrypted, a control flit is not, and a link without keys has no tag yet. The IV is the salt and the flit count (R317, R318). -/
def State.sealFlit (s : State) (p typ : Nat) (h : BitVec 64) (l : List Byte) : List Byte × List Byte :=
  let k := s.linkKey p
  let key := BitVec.ofNat 256 k.toNat
  let iv := leBytes 4 (bits k 287 256) ++ leBytes 8 (s.fport p).flits
  if !(s.fport p).keyed then (l, List.replicate 16 0)
  else if typ = 1 then Config.gcmSeal key iv (bvBytes h) l
  else (l, (Config.gcmSeal key iv (bvBytes h ++ l) []).2)

/-- One numbered flit sent and kept in the retry buffer (R316). -/
def State.sendFlit (s : State) (p typ : Nat) (l : List Byte) : State :=
  let f := s.fport p
  let h := flitHeader f.sendSeq f.lastAcc typ f.keyPhase
  let x := s.sealFlit p typ h (padTo 1000 l)
  (s.modFport p (fun f => { f with
    sendSeq := f.sendSeq + 1, flits := if f.keyed then f.flits + 1 else f.flits, sent := f.sent + 1
    retry := f.retry ++ [({ seq := f.sendSeq, header := h, body := x.1, tag := x.2 } : Flit)] })).emit (.flit p h x.1 x.2)

/-- Bytes cut into the payloads of flits. -/
def payloads : Nat → List Byte → List (List Byte)
  | 0, _ => []
  | n + 1, l => if l.isEmpty then [] else l.take 1000 :: payloads n (l.drop 1000)

/-- Bytes carried in flits of a type, which go on from flit to flit (Table 15.2). -/
def State.sendFlits (s : State) (p typ : Nat) (l : List Byte) : State := (payloads l.length l).foldl (fun s x => s.sendFlit p typ x) s

/-- The device's evidence: identity chain, firmware measurements, protocol version and fabric identifier (R318). -/
def State.linkEvidence (s : State) : List Byte :=
  s.chain ++ [2, 3, 4, 5].flatMap (fun i => (s.block i).getD []) ++ bvBytes s.fab.version ++ bvBytes s.fab.id

/-- Version, a fresh nonce, and the evidence signed with the neighbour's nonce, which no command carries and which is a free value (R318, log 44). -/
def State.sendEvidence (s : State) (p : Nat) : State :=
  let (a, s) := s.draw
  let (b, s) := s.draw
  s.sendFlits p 2 (bvBytes s.fab.version ++ leBytes 32 a ++ s.linkEvidence ++ Config.sign s.alias (s.linkEvidence ++ leBytes 32 b))

/-! ### Port events (Table 15.3) -/

/-- PORT_ENABLE (R319). -/
def execPortEnable (p : Nat) (s : State) : Res :=
  upDo s (fun s => if s.portOn p && (s.fport p).st == .disabled then s.train p else s)

/-- PORT_DISABLE: a port that R314 no longer enables drops its link (R319). -/
def execPortDisable (p : Nat) (s : State) : Res :=
  upDo s (fun s => if decide (p < 28) && !s.portOn p && (s.fport p).st != .disabled then s.portDown p .disabled else s)

/-- LANES_LOCKED: the ends exchange versions and evidence; a port that is DOWN trains on its own (R318, R319). -/
def execLanesLocked (p rate : Nat) (nbr : BitVec 16) (nbrPort version : Nat) (s : State) : Res :=
  upDo s (fun s =>
    if s.portOn p && ((s.fport p).st == .training || (s.fport p).st == .down) && (rate == 1 || rate == 2) then
      (s.portTo p .attesting (fun f => { f with
        rate := rate, nbr := nbr, nbrPort := BitVec.ofNat 8 nbrPort, version := BitVec.ofNat 16 (min version s.fab.version.toNat) })).sendEvidence p
    else s)

/-- TRAINING_LOCK_TIMEOUT: training starts again (R319). -/
def execTrainingLockTimeout (p : Nat) (s : State) : Res :=
  upDo s (fun s => if s.portOn p && ((s.fport p).st == .training || (s.fport p).st == .down) then s.train p else s)

/-- A link keyed by a fresh exchange (R317, R318). -/
def State.keyLink (s : State) (p : Nat) : State :=
  let n := s.tick
  let (_, s) := s.draw
  s.modFport p (fun f => { f with keyed := true, keyDraw := n, keyPhase := false, flits := 0, replays := 0, tagFails := 0 })

/-- ATTEST_RESULT: `ok` is the verified chain and life-cycle condition, `version` the neighbour's version (R318, Table 15.3). -/
def execAttestResult (p : Nat) (ok : Bool) (version : Nat) (s : State) : Res :=
  upDo s (fun s =>
    if !(s.portOn p && (s.fport p).st == .attesting) then s
    else if version + 1 < s.fab.version.toNat ∨ s.fab.version.toNat + 1 < version then
      (s.portTo p .refused id).event 0 0x5402 0 (BitVec.ofNat 64 p)
    else if !ok || (s.fport p).nbr == s.fab.id then
      (s.portTo p .refused id).event 0 0x5403 0 (BitVec.ofNat 64 p)
    else (s.keyLink p).portTo p .up (fun f => { f with version := BitVec.ofNat 16 (min version s.fab.version.toNat) }))

/-- REFUSED_RETRY (R319). -/
def execRefusedRetry (p : Nat) (s : State) : Res :=
  upDo s (fun s => if s.portOn p && (s.fport p).st == .refused then s.train p else s)

/-- FAB_PORT_RETRAIN: ignored in DISABLED (R319, Table 15.8). -/
def execFabPortRetrain (port : Port) (p : Nat) (val : BitVec 64) (s : State) : Res :=
  upDo s (fun s =>
    if port != .pf && port != .mgmt then s.portDenied port 0xC0_0008
    else if s.portOn p && bit val 0 && (s.fport p).st != .disabled then s.train p else s)

/-- PORT_LINK_LOSS (R319, R337). -/
def execPortLinkLoss (p : Nat) (s : State) : Res := upDo s (fun s => if s.portUp p then s.portDown p .down else s)

/-! ### The link layer (R316, R317) -/

/-- Flits that follow sequence `ack` stay in the retry buffer. -/
def keepAfter (l : List Flit) (ack : BitVec 24) : List Flit := l.filter (fun f => (f.seq - ack).toNat != 0 && decide ((f.seq - ack).toNat < 2 ^ 23))

/-- The header's ACK and NAK: acknowledged flits leave the retry buffer; a NAK replays every flit after it byte for byte, and eight replays of one flit take the link DOWN (R316, R319). -/
def State.linkAck (s : State) (p : Nat) (ack : BitVec 24) (nak : Bool) : State :=
  let f := s.fport p
  let l := keepAfter f.retry ack
  let fresh := (l.head?).map Flit.seq != (f.retry.head?).map Flit.seq
  let s := s.modFport p (fun f => { f with retry := l, replays := if fresh then 0 else f.replays })
  if nak && !l.isEmpty then
    let s := l.foldl (fun s x => s.emit (.flit p x.header x.body x.tag)) s
    let s := s.modFport p (fun f => { f with replays := f.replays + 1, replayCt := satAdd f.replayCt l.length })
    if 8 ≤ (s.fport p).replays && s.portUp p then s.portDown p .down else s
  else s

/-- The last accepted sequence named in a NAK or an ACK. -/
def State.linkAnswer (s : State) (p kind : Nat) : State := s.emit (.linkCtl p kind (s.fport p).lastAcc.toNat)

/-- LINK_FLIT: `ok` when its codewords decode, `tag` when its tag verifies, which counts once the link has keys; accepted only in sequence, otherwise discarded, with NAK for the first two (R316, R317). -/
def execLinkFlit (p : Nat) (seq : BitVec 24) (ok tag : Bool) (ack : BitVec 24) (nak : Bool) (s : State) : Res :=
  upDo s (fun s =>
    if !(s.portUp p || (decide (p < 28) && (s.fport p).st == .attesting)) then s
    else if !ok then (s.modFport p (fun f => { f with fecU := satAdd f.fecU 1 })).linkAnswer p 1
    else if !tag && (s.fport p).keyed then
      let s := (s.modFport p (fun f => { f with tagFails := f.tagFails + 1, tagCt := satAdd f.tagCt 1 })).linkAnswer p 1
      if 8 ≤ (s.fport p).tagFails then s.portDown p .down else s
    else
      let s := if seq = (s.fport p).lastAcc + 1 then (s.modFport p (fun f => { f with lastAcc := seq, recv := f.recv + 1 })).linkAnswer p 0 else s
      s.linkAck p ack nak)

/-- LINK_KEY_ROLLOVER: new keys from a fresh exchange carried in control flits, marked by KEY_PHASE (R317). -/
def execLinkKeyRollover (p : Nat) (s : State) : Res :=
  upDo s (fun s =>
    if !s.portUp p then s
    else
      let n := s.tick
      let (t, s) := s.draw
      (s.sendFlits p 2 (leBytes 32 t)).modFport p (fun f => { f with keyDraw := n, keyPhase := !f.keyPhase, flits := 0 }))

/-- TAG_WINDOW (R317). -/
def execTagWindow (p : Nat) (s : State) : Res := upDo s (fun s => s.modFport p (fun f => { f with tagFails := 0 }))

/-- The order of R324 among waiting packets: responses, then priority 2 and 3, then the rest, each in arrival order. -/
def linkPick (l : List FabPkt) : Option Nat :=
  match findPos (fun k => bit k.flags 0) l with
  | some n => some n
  | none => match findPos (fun k => decide (2 ≤ k.prio)) l with
    | some n => some n
    | none => if l.isEmpty then none else some 0

/-- FABRIC_LINK_SEND: `waits` are the measured waits of the port's packets in microseconds. One that has waited 64 goes ahead of all that arrived after it; the packet chosen leaves in numbered flits kept in the retry buffer, when it has room for them (R316, R324). -/
def execFabricLinkSend (p : Nat) (waits : List Nat) (s : State) : Res :=
  upDo s (fun s =>
    let f := s.fport p
    let l := match findPos (fun w => decide (64 ≤ w)) (waits.take f.egress.length) with | some a => f.egress.take (a + 1) | none => f.egress
    if !s.portUp p then s
    else match linkPick l with
      | none => s
      | some n =>
        match f.egress[n]? with
        | none => s
        | some k =>
          let b := pktBytes k
          if 512 < f.retry.length + (payloads b.length b).length then s
          else (s.modFport p (fun f => { f with egress := f.egress.eraseIdx n, bufs := f.bufs - 1 })).sendFlits p 1 b)

/-! ### Discovery (R320 to R323) -/

/-- A report as held. -/
def reportOf (r : AdjReport) : Report := { id := r.id, digest := r.digest, version := r.version, seq := r.seq, ports := r.ports }

/-- ADJ: a report newer than the one held is stored and forwarded on every other UP port; a link to its sender runs the lower of the two versions (R320, R321, R333). -/
def execAdj (p : Nat) (report : AdjReport) (s : State) : Res :=
  upDo s (fun s =>
    let r := reportOf report
    if !s.portUp p || r.digest == s.fabDigest then s
    else
      let held := s.fab.reports.find? (fun x => x.id == r.id && x.digest == r.digest)
      let newer := match held with | some h => seqBefore h.seq r.seq | none => true
      if !newer then s
      else
        let s := s.reportsNow (putReport s.fab.reports r)
        let s := (s.upPorts.filter (· != p)).foldl (fun s q => s.emit (.adj q report)) s
        (s.upPorts.filter (fun q => (s.fport q).nbr == r.id)).foldl (fun s q =>
          s.modFport q (fun f => { f with version := BitVec.ofNat 16 (min s.fab.version.toNat r.version.toNat) })) s)

/-- ADJ_FLOOD_TIMER (R320). -/
def execAdjFloodTimer (s : State) : Res := upDo s (fun s => if s.hasFabric then s.flood else s)

/-- ADJ_REPORT_EXPIRY: a report not refreshed within 3.5 s is dropped (R320). -/
def execAdjReportExpiry (id : BitVec 16) (s : State) : Res :=
  upDo s (fun s => s.reportsNow (s.fab.reports.filter (fun r => r.id != id || r.digest == s.fabDigest)))

/-- ROUTE_RECOMPUTE (R322). -/
def execRouteRecompute (s : State) : Res := upDo s (fun s => if s.hasFabric then s.recompute.forwardAll else s)

/-- ROUTE_TRANSITION_END (R323). -/
def execRouteTransitionEnd (s : State) : Res :=
  upDo s (fun s => if s.hasFabric then { s with fab := { s.fab with transition := false, converged := true } } else s)

/-- A packet dropped under R323. -/
def State.fabDrop (s : State) : State := { s with fab := { s.fab with drops := satAdd s.fab.drops 1 } }

/-- FABRIC_TRANSIT: a packet for another device arrives at port `p`; dropped when its hop count reaches 24 (R323). -/
def execFabricTransit (p : Nat) (pkt : FabPkt) (s : State) : Res :=
  upDo s (fun s =>
    if !s.portUp p || pkt.dst == s.fab.id then s
    else if 24 ≤ pkt.hops + 1 then s.fabDrop
    else s.forward { pkt with hops := pkt.hops + 1, port := p })

/-- TRANSIT_WAIT_EXPIRY: packet `n` of those that wait at a port, its egress queue before its ingress queue, is dropped during a route transition (R323). -/
def execTransitWaitExpiry (p n : Nat) (s : State) : Res :=
  upDo s (fun s =>
    let f := s.fport p
    if !s.fab.transition || decide (28 ≤ p) then s
    else if n < f.egress.length then (s.modFport p (fun f => { f with egress := f.egress.eraseIdx n, bufs := f.bufs - 1 })).fabDrop
    else if n < f.egress.length + f.ingress.length then (s.modFport p (fun f => { f with ingress := f.ingress.eraseIdx (n - f.egress.length) })).fabDrop
    else s)

/-! ### The transport (R325) -/

/-- Received sequences above the lowest one not received, taken in. -/
def advanceLow : Nat → BitVec 32 → List (BitVec 32) → BitVec 32 × List (BitVec 32)
  | 0, low, l => (low, l)
  | fuel + 1, low, l => if l.contains low then advanceLow fuel (low + 1) (l.filter (· != low)) else (low, l)

/-- An acknowledgement, cumulative and selective. -/
def State.tackSend (s : State) (p : Nat) (k : FabPkt) : State :=
  let c := s.conn k.src.toNat
  s.fabSend (p + 1) { dst := k.src, src := s.fab.id, seq := c.recvLow, dstInc := k.srcInc, srcInc := s.fab.inc, op := 7, off := BitVec.ofNat 64 k.seq.toNat }

/-- Every operation outstanding toward a peer fails, and the connection opens again with the peer's new incarnation (R325). -/
def State.reopen (s : State) (peer : Nat) (inc : BitVec 32) : State :=
  let l := (s.conn peer).outstanding
  let s := s.modConn peer (fun _ => { theirInc := inc })
  l.foldl (fun s o => s.outcome o.issuer 0x5002 0 false) s

/-- The peer's incarnation as a packet carries it. -/
def State.meetInc (s : State) (k : FabPkt) : State :=
  let c := s.conn k.src.toNat
  if c.theirInc = k.srcInc then s
  else if c.theirInc = 0 then s.modConn k.src.toNat (fun c => { c with theirInc := k.srcInc })
  else s.reopen k.src.toNat k.srcInc

/-- A request arrives at port `p`: refused when it names a stale incarnation of the device (zero names none yet), dropped when its CRC fails, a duplicate or out of the window, otherwise acknowledged and handed on; a request for a FALLOW compartment is discarded (R325, R326, R328, log 43). -/
def State.takeReq (s : State) (p op : Nat) (k : FabPkt) (f : State → FabPkt → State) : State :=
  if !s.hasFabric || !s.portUp p || !k.crcOk || k.dst != s.fab.id || s.fab.id == 0xFFFF#16 || k.op != BitVec.ofNat 8 op || bit k.flags 0 then s
  else
    let k := { k with port := p }
    if k.dstInc ≠ 0 ∧ k.dstInc ≠ s.fab.inc then s.reply (p + 1) k 0x5002 [] []
    else
      let s := s.meetInc k
      let c := s.conn k.src.toNat
      if 1024 ≤ (k.seq - c.recvLow).toNat ∧ seqBefore c.recvLow k.seq then s
      else if seqBefore k.seq c.recvLow ∨ c.recvd.contains k.seq then s.tackSend p k
      else
        let a := advanceLow 1025 c.recvLow (k.seq :: c.recvd)
        let s := (s.modConn k.src.toNat (fun c => { c with recvLow := a.1, recvd := a.2 })).tackSend p k
        let g := s.grantOf k
        let code := s.remoteCode k
        let s :=
          if s.fab.grants.has k.grant.toNat && grPeer g == k.src.toNat && decide (s.fab.planFloor.toNat ≤ s.srcVersion k.src) && s.cstate (grCmpt g) == .fallow then s
          else if code != 0 then
            let s := if code = 0x5401 then { s with auth := { s.auth with denied := s.auth.denied.put 5 (satAdd (s.auth.denied.look 5 0) 1) } } else s
            s.reply (p + 1) k code [] []
          else f s k
        s.connFlush k.src.toNat

/-- A request measured at its port's boundary in the grant's class (Table 11.2). -/
def State.measureReq (s : State) (p : Nat) (k : FabPkt) (late : Nat) : State :=
  s.measure (0x21 + p) (grClass (s.grantOf k)) k.len (s.conforming (0x21 + p) (grClass (s.grantOf k))) (grCmpt (s.grantOf k)) late

/-- GET: `late` boundary cycles pass from its arrival to its completion (R328, R332). -/
def execGet (p : Nat) (pkt : FabPkt) (late : Nat) (s : State) : Res :=
  upDo s (fun s => s.takeReq p 1 pkt (fun s k => (s.measureReq p k late).remoteMem k))

/-- PUT (R328, R332). -/
def execPut (p : Nat) (pkt : FabPkt) (late : Nat) (s : State) : Res :=
  upDo s (fun s => s.takeReq p 2 pkt (fun s k => (s.measureReq p k late).remoteMem k))

/-- POST: performed after every earlier operation of its connection (R329, R330). -/
def execRemotePost (p : Nat) (pkt : FabPkt) (s : State) : Res := upDo s (fun s => s.takeReq p 3 pkt State.keepReq)

/-- Whether the device serves operations of version `v` (R333, R335). -/
def State.servesVersion (s : State) (v : Nat) : Bool :=
  decide (v ≤ s.fab.version.toNat) || (match s.fab.oldServe with | some o => decide (v ≤ o.toNat) | none => false)

/-- BATCH: up to eight posts; refused with FAB_VERSION where version 2 is not served (R327, R333). -/
def execBatch (p : Nat) (pkt : FabPkt) (s : State) : Res :=
  upDo s (fun s => s.takeReq p 5 pkt (fun s k => if s.servesVersion 2 then s.keepReq k else s.reply (p + 1) k 0x5402 [] []))

/-- Packets of a contribution in ascending offset order (R331). -/
def byOffset (l : List FabPkt) : List FabPkt := l.mergeSort (fun a b => decide (a.off.toNat ≤ b.off.toNat))

/-- A gathered contribution handed to the SSU of the stack it lies in as one contribution; packets that do not join in one stack are refused with REDUCE_SPAN (R127, R331). -/
def State.handOver (s : State) (peer : Nat) (x : BitVec 128) (l : List FabPkt) : State :=
  let id := contribId x
  match l with
  | [] => s
  | k0 :: _ =>
    let g := s.grantOf k0
    let c := grCmpt g
    let e := s.seg c (grSeg g)
    let ps := l.flatMap (fun k => s.physPieces c (grSeg g) e k.off.toNat k.len)
    match ps with
    | [] => s.remoteOutcome peer id 0x4008
    | (a, n) :: t =>
      let total := l.foldl (fun n k => n + k.len) 0
      let joined := (t.foldl (fun (x : Nat × Bool) p => (p.1 + p.2, x.2 && p.1 == x.1)) (a + n, true)).2 && inStacks a && paLs a == paLs (a + total - 1)
      if !joined then s.remoteOutcome peer id 0x4008
      else
        let bad := l.flatMap (fun k => (List.range k.len).map (fun j => bit k.pois (j / 32)))
        let y : Contrib := {
          mover := true, cmpt := c, rank := bits x 31 0, peer := some peer, seq := bits x 95 64, launch := bits x 63 32, off := paOff a
          data := l.flatMap FabPkt.data
          pois := badIdx bad, origin := .remote peer id, seg := some (grSeg g) }
        s.modStack (paLs a) (fun t => { t with intake := t.intake ++ [y] })

/-- CONTRIB: the packets of one contribution are gathered, and handed over when their bytes make up its length (R331). -/
def execContrib (p : Nat) (pkt : FabPkt) (s : State) : Res :=
  upDo s (fun s => s.takeReq p 4 pkt (fun s k =>
    let x := k.ext.headD 0
    let id := contribId x
    let peer := k.src.toNat
    let l := byOffset ((((s.conn peer).contribs.find? (fun e => e.1 == id)).map (·.2)).getD [] ++ [k])
    let s := s.modConn peer (fun c => { c with contribs := c.contribs.filter (fun e => e.1 != id) ++ [(id, l)] })
    if bits x 127 96 ≤ l.foldl (fun n k => n + k.len) 0 then s.handOver peer x l else s))

/-- TACK: `cum` is the lowest sequence the receiver has not received, `seq` one it acknowledges (R325). -/
def execTack (peer : Nat) (cum seq : BitVec 32) (s : State) : Res :=
  upDo s (fun s => s.modConn peer (fun c => { c with
    outstanding := c.outstanding.map (fun o => if seqBefore o.pkt.seq cum ∨ o.pkt.seq = seq then { o with acked := true } else o) }))

/-- DIRTY set on the landing slots that physical ranges of a compartment reach (R214). -/
def State.dirtyPhys (s : State) (c : Nat) (l : List (Nat × Nat)) : State :=
  match (s.cmpt c).plan with
  | none => s
  | some r =>
    s.modCmpt c (fun m => { m with resmap := m.resmap.each (fun k e =>
      if bit e 63 && l.any (fun p => meets p.1 p.2 (landingBase r + k * 0x20_0000) 0x20_0000) then setBit e 62 true else e) })

/-- REMOTE_RESPONSE: a GET's data reaches its destination, and the issuing command gets the status; it completes when it has every response (R329, R332). -/
def execRemoteResponse (peer : Nat) (pkt : FabPkt) (s : State) : Res :=
  upDo s (fun s =>
    if !s.hasFabric || !pkt.crcOk || pkt.dst != s.fab.id || pkt.src != BitVec.ofNat 16 peer || !bit pkt.flags 0 || pkt.dstInc != s.fab.inc then s
    else
      let s := s.meetInc pkt
      match (s.conn peer).outstanding.find? (fun o => o.pkt.seq == pkt.seq && o.pkt.op == pkt.op) with
      | none => s
      | some o =>
        let s := s.modConn peer (fun c => { c with outstanding := c.outstanding.filter (fun x => x.pkt.seq != pkt.seq) })
        let good := isFailure pkt.grant = false ∨ pkt.grant = 0x3001
        if o.pkt.op = 1 ∧ good then
          let (s, pp) := s.writePieces o.cmpt o.land pkt.data ((List.range pkt.data.length).map (fun j => bit pkt.pois (j / 32)))
          let s := s.dirtyPhys o.cmpt o.land
          let s := o.land.foldl (fun s q => if inStacks q.1 then s.pushHint o.cmpt pkt.port o.hint q.1 q.2 else s) s
          s.outcome o.issuer (if pp then 0x3001 else pkt.grant) 0 false
        else s.outcome o.issuer pkt.grant 0 false)

/-- TRANSPORT_RETRANSMIT: a packet unacknowledged for its interval is sent again and the interval doubles, up to 1 ms (R325). -/
def execTransportRetransmit (peer : Nat) (seq : BitVec 32) (age : Nat) (s : State) : Res :=
  upDo s (fun s =>
    match (s.conn peer).outstanding.find? (fun o => o.pkt.seq == seq && !o.acked) with
    | none => s
    | some o =>
      if age < o.interval then s
      else
        let s := s.modConn peer (fun c => { c with outstanding := c.outstanding.map (fun x => if x.pkt.seq = seq then { x with interval := min (2 * x.interval) 1000 } else x) })
        { s with fab := { s.fab with retrans := satAdd s.fab.retrans 1 } }.fabSend o.pkt.port o.pkt)

/-- DELIVERY_TIMEOUT: an operation without a response for FAB_DELIVERY_LIMIT completes with FABRIC_UNREACHABLE; a contribution whose packets stop arriving is abandoned (R325, R331). -/
def execDeliveryTimeout (peer : Nat) (seq : BitVec 32) (age : Nat) (s : State) : Res :=
  upDo s (fun s =>
    if age < s.fab.limit.toNat then s
    else match (s.conn peer).outstanding.find? (fun o => o.pkt.seq == seq) with
      | some o => (s.modConn peer (fun c => { c with outstanding := c.outstanding.filter (fun x => x.pkt.seq != seq) })).outcome o.issuer 0x5002 0 false
      | none =>
        match (s.conn peer).contribs.find? (fun e => e.2.any (fun k => k.seq == seq) && decide (e.2.foldl (fun n k => n + k.len) 0 < bits (BitVec.ofNat 128 e.1) 127 96)) with
        | some e => (s.modConn peer (fun c => { c with contribs := c.contribs.filter (fun x => x.1 != e.1) })).connFlush peer
        | none => s)

/-- REMOTE_MARK_EXPIRY (R330). -/
def execRemoteMarkExpiry (peer rank : Nat) (s : State) : Res :=
  upDo s (fun s => s.modConn peer (fun c => { c with marks := c.marks.filter (fun m => m.1 % 2 ^ 32 != rank) }))

/-! ### Versions (R333, R335) -/

/-- The version of every UP link exchanged again: the lower of the two ends' versions (R333). -/
def State.relink (s : State) : State :=
  s.upPorts.foldl (fun s p =>
    (s.modFport p (fun f => { f with version := BitVec.ofNat 16 (min s.fab.version.toNat (s.srcVersion f.nbr)) })).sendFlits p 2 (bvBytes s.fab.version)) s

/-- VERSION_DOWNGRADE: the lower version is flooded and the higher one still served; given again with the version now run, the time of 2 FAB_DELIVERY_LIMIT has passed and the higher version ends (R335). -/
def execVersionDowngrade (version : BitVec 16) (s : State) : Res :=
  upDo s (fun s =>
    if !s.hasFabric then s
    else if version.toNat < s.fab.version.toNat then
      ({ s with fab := { s.fab with version := version, oldServe := some s.fab.version } } : State).flood.relink
    else if version = s.fab.version then { s with fab := { s.fab with oldServe := none } }
    else s)

end Sys2Proof.Machine
end

