-- ==== Sys2Proof/Machine/Graft.lean ====
section
/-! DEFINITION. Graft sites: accession, the gate and its grants, site windows, requests to a chiplet, obligations and the site reset (R338 to R353). -/

namespace Sys2Proof.Machine

/-! ### Accession (R340, R341, Table 16.2) -/

/-- Accession may run: at boot step 7 and whenever the device is up (R340, R429). -/
def State.accessible (s : State) : Bool := s.isOn && (s.pwr.bootStep == 7 || s.isUp)

/-- The hub's link to a site. -/
def hubLinkOf (k : Nat) : Nat := (findPos (· == 29 + k) hubLinks).getD 0

/-- The tiles' links to a site: tile die and link, rising dies. -/
def siteLinks (k : Nat) : List (Nat × Nat) :=
  ((List.range 29).drop 1).flatMap (fun d => (List.range 4).filterMap (fun l => if neighbour d l = some (29 + k) then some (d, l) else none))

/-- Links taken in order while their modules stay within a limit. -/
def withinModules (limit : Nat) : Nat → List (Nat × Nat) → List (Nat × Nat)
  | _, [] => []
  | n, e :: t => if n + e.2 ≤ limit then e :: withinModules limit (n + e.2) t else []

/-- Tile links that are trained: while the total exceeds MODULES the highest tile die is left untrained (Table 16.2 step 3). -/
def keepModules (hub limit : Nat) (l : List (Nat × Nat)) : List (Nat × Nat) :=
  withinModules limit hub (l.mergeSort (fun a b => decide (a.1 ≤ b.1)))

/-- Protocols in use: streaming when offered and allowed, otherwise the parts of CXL that both allow, CXL.io among them (Table 16.2 step 3). -/
def protocolOf (offer allow : BitVec 4) : BitVec 4 :=
  if bit offer 0 && bit allow 0 then 1
  else if bit offer 1 && bit allow 1 then offer &&& allow &&& 0xE else 0

/-- A site that fails a step of accession. -/
def State.accFail (s : State) (k reason : Nat) : State := s.fenceSite k reason

/-- Step 3 passed: protocol, rate and modules recorded, and the links trained (R236). -/
def State.accLinks (s : State) (k : Nat) (proto : BitVec 4) (rate hub : Nat) (tiles : List (Nat × Nat)) : State :=
  let s := s.modSite k (fun x => { x with proto := proto, rate := rate, modules := hub + tiles.foldl (fun n x => n + x.2) 0, step := 3 })
  let set (s : State) (d l w : Nat) : State :=
    if (s.site k).st = .fenced then s
    else if w ≠ 0 ∧ w < s.leastWidth d l then s.fenceLink d l
    else s.modLinks d l (fun n => { n with nego := w, width := w, rate := rate, st := if w = 0 then .down else .up })
  let s := set s 0 (hubLinkOf k) hub
  (siteLinks k).foldl (fun s e => set s e.1 e.2 (((tiles.find? (fun x => x.1 == e.1)).map (·.2)).getD 0)) s

/-- One step of accession; each is taken only after the one before has passed (R340). -/
def State.accStep (s : State) (k step : Nat) (i : ChipInfo) : State :=
  let x := s.site k
  match step with
  | 1 =>
    let s := s.modSite k (fun x => { x with resetN := true, reason := 0, drain := false })
    if i.present then s.modSite k (fun x => { x with st := .accession, step := 1 })
    else s.modSite k (fun x => { x with st := .empty, step := 0, proto := 0, modules := 0, rate := 0, id := 0, meas := 0, certs := 0 })
  | 2 => if x.grec.isSome then s.modSite k (fun x => { x with step := 2 }) else s.accFail k 0x01
  | _ =>
    match x.grec with
    | none => s.accFail k 0x01
    | some g =>
      match step with
      | 3 =>
        let proto := protocolOf i.proto (BitVec.ofNat 4 g.protocols.toNat)
        if i.hub = 0 ∨ proto = 0 then s.accFail k 0x02
        else s.accLinks k proto (min i.rate s.rateCap) (min i.hub 4) (keepModules (min i.hub 4) g.modules (i.tiles.map (fun e => (e.1, min e.2 2))))
      | 4 =>
        let s := s.modSite k (fun x => { x with id := BitVec.ofNat 64 (i.power.toNat + 2 ^ 16 * i.rev.toNat + 2 ^ 32 * i.product.toNat + 2 ^ 48 * i.vendor.toNat) })
        if i.vendor ≠ g.vendor ∨ i.product ≠ g.product then s.accFail k 0x03
        else if i.rev.toNat < g.revMin ∨ g.revMax < i.rev.toNat then s.accFail k 0x04
        else if g.power < i.power.toNat then s.accFail k 0x05
        else s.modSite k (fun x => { x with step := 4 })
      | 5 =>
        if !g.attest then s.modSite k (fun x => { x with step := 5, meas := 0, certs := 0 })
        else
          let s := s.modSite k (fun x => { x with meas := Config.sha384 i.meas, certs := Config.sha384 i.certs })
          if !i.sigOk || Config.sha384 i.meas != g.meas then s.accFail k 0x06 else s.modSite k (fun x => { x with step := 5 })
      | _ =>
        let s := s.modSite k (fun x => { x with st := .admitted, step := 6, accept := true, slots := [], txns := [], reqs := [], snps := [], winBusy := [], overs := 0, throttled := false })
        (s.setInv { s.inv with graft := setBit s.inv.graft k true }).event 0 0x0080 0 (BitVec.ofNat 64 k)

/-- ACCESSION: step `step` at a site, with what the chiplet answers (R340). -/
def execAccession (site step : Nat) (info : ChipInfo) (s : State) : Res :=
  .next (
    let x := s.site site
    if !s.accessible || decide (4 ≤ site) || x.drain || decide (6 < step) then s
    else if step = 1 then (if !x.resetN && x.st != .fenced then s.accStep site 1 info else s)
    else if x.st == .accession && decide (step = x.step + 1) then s.accStep site step info
    else s)

/-- ACCESSION_TIMEOUT: a site that has not reached step 6 within 600 ms is fenced (R341). -/
def execAccessionTimeout (site : Nat) (s : State) : Res :=
  .next (if s.accessible && decide (site < 4) && (s.site site).st == .accession then s.fenceSite site 0x07 else s)

/-! ### The gate (R343 to R345) -/

/-- The logical stacks that a site window reaches through its segment (R344, R347). -/
def State.winStacks (s : State) (w : BitVec 128) : List Nat :=
  let e := s.seg (bits w 60 55) (bits w 54 51)
  let lo := bits w 95 64 * 4096
  let n := bits w 23 0 * 4096
  if !bit w 63 || !e.valid || n == 0 then []
  else match e.typ with
    | 1 => (s.area e.area).1
    | 0 | 2 => ((List.range e.nls).filter (fun i => meets lo n (i * e.per) e.per)).map (· + e.firstLs)
    | _ => []

/-- The highest queue level among the logical stacks that a site's valid windows reach (R344). -/
def State.gateLevel (s : State) (k : Nat) (m : Master) : Nat :=
  (s.site k).wins.foldl (fun n w => (s.winStacks w.2).foldl (fun n l => max n (m.levels.look l 0)) n) 0

/-- Whether a regulator may issue `g` transactions of a class together (R247, R248, R344). -/
def Master.mayIssueN (m : Master) (c : RegClass) (lvl g : Nat) : Bool :=
  let okB := rcBudget c.cls == 0 || decide (g ≤ c.budget)
  match rcKind c.cls with
  | 0 => false
  | 3 => decide (c.out + g ≤ rcOt c.cls) && decide (g ≤ c.budget)
  | 2 =>
    let ovr := (c.out + g - rcOt c.cls) - (c.out - rcOt c.cls)
    okB && (ovr == 0 || decide (m.poolUsed + ovr ≤ poolCap (bits m.cfg 43 32) lvl))
  | _ => okB && decide (m.poolUsed + g ≤ poolCap (bits m.cfg 43 32) lvl)

/-- GATE_OFFER: an offer of class `cls` with urgency `urg`, which the gate samples whether it accepts the offer or not (R249, Table 16.3), `gap` gate cycles after the last accepted one. Accepted, it opens a grant of G slots and charges the regulator (R344, R345, R353). -/
def execGateOffer (site cls urg gap : Nat) (s : State) : Res :=
  upDo s (fun s =>
    let x := s.site site
    match x.grec with
    | none => s
    | some r =>
      let s := s.modMaster 0 (4 + site) (fun m => { m with urg := urg })
      let m := s.master 0 (4 + site)
      let c : RegClass := m.classes.look cls {}
      let g := min 8 r.maxOt
      let hub := (s.link 0 (hubLinkOf site)).st
      let lvl := if urg = 3 then 0 else s.gateLevel site m
      if decide (site < 4) && x.st == .admitted && x.accept && (hub == .up || hub == .degraded) && decide (1 ≤ cls) && decide (cls < 8) && bit r.classes cls
          && !(x.throttled && decide (gap < 4)) && decide (g ≠ 0) && decide (m.outAll + g ≤ s.maxOt 0 (4 + site)) && m.mayIssueN c lvl g then
        let s := s.modMaster 0 (4 + site) (fun m => { m with
          classes := m.classes.put cls { c with out := c.out + g, budget := if rcBudget c.cls = 0 then c.budget else c.budget - g } })
        (s.modSite site (fun x => { x with slots := x.slots ++ List.replicate g { cls := cls, wins := x.wins, conf := decide (0 < c.budget) } })).emit (.gate site 0 g [])
      else s)

/-- A slot's transaction no longer outstanding. -/
def State.slotEnd (s : State) (k cls : Nat) : State :=
  s.modMaster 0 (4 + k) (fun m => { m with classes := m.classes.put cls { m.classes.look cls {} with out := (m.classes.look cls {}).out - 1 } })

/-- SLOT_RETURN: slot `n` unused 512 gate cycles after its grant is returned (R345). -/
def execSlotReturn (site n : Nat) (s : State) : Res :=
  upDo s (fun s =>
    match (s.site site).slots[n]? with
    | some g => (s.modSite site (fun x => { x with slots := x.slots.eraseIdx n })).slotEnd site g.cls
    | none => s)

/-! ### Packets from a chiplet (R339, R345, R347, R348, R202) -/

/-- Permissions of the window a message needs: read, write. -/
def chipNeeds (op : ChipOp) : Bool × Bool :=
  match op with
  | .rdNc | .rdShared | .clFlush => (true, false)
  | .wrNc | .post | .rdOwnNoData | .dirtyEvict => (false, true)
  | .rdOwn => (true, true)
  | .cleanEvict | .cacheFlushed | .io | .other => (false, false)

/-- Messages a protocol allows: reads, writes and posts when streaming; reads, writes and coherent requests under CXL.cache (R348, R202). -/
def chipAllowed (proto : BitVec 4) (op : ChipOp) : Bool :=
  match op with
  | .other => false
  | .rdNc | .wrNc => bit proto 0 || bit proto 2
  | .post => bit proto 0
  | .io => bit proto 1
  | _ => bit proto 2

/-- Bytes of the line that a packet concerns: the first, and how many to the last. -/
def chipSpan (m : BitVec 128) : Nat × Nat :=
  let l := (List.range 128).filter (fun i => bit m i)
  match l with
  | [] => (0, 0)
  | a :: _ => (a, l.getLastD a + 1 - a)

/-- A window's translation: the compartment and physical address, or the refusal (R347, R348). -/
def State.windowCode (s : State) (w : BitVec 128) (p : ChipPkt) : BitVec 16 × Nat × Nat :=
  let c := bits w 60 55
  let sg := bits w 54 51
  let line := p.addr % 2 ^ 36 / 128 * 128
  let (b, n) := chipSpan p.mask
  let o := line + b
  let need := chipNeeds p.op
  if 2 ^ 40 ≤ p.addr ∨ !bit w 63 ∨ c = 0 ∨ bits w 23 0 * 4096 < o + n ∨ (need.1 && !bit w 62) ∨ (need.2 && !bit w 61) then (0x7001, 0, 0)
  else if s.cstate c = .fallow then (0x9001, 0, 0)
  else if s.cstate c = .undef then (0x7001, 0, 0)
  else
    let e := s.seg c sg
    let x := bits w 95 64 * 4096 + line
    let ok := s.operandCode c (sg * 2 ^ 44 + (x + b) % 2 ^ 44) (fun q => (!need.1 || needR q) && (!need.2 || needW q)) n
    if ok ≠ 0 ∨ 2 ^ 44 ≤ x + b ∨ 2 < e.typ then (0x7001, 0, 0)
    else match s.place c sg e x with
      | .phys a => if !s.mapped a then (0x7001, 0, 0) else if s.clipHit (a + b) n then (0x7002, 0, 0) else (0, c, a)
      | _ => (0x7001, 0, 0)

/-- A refusal at the gate: counted, a read answered with every sector poisoned, a write or post dropped (R348). -/
def State.gateRefuse (s : State) (k : Nat) (p : ChipPkt) (code : BitVec 16) : State :=
  let s := s.modSite k (fun x => { x with denied := satAdd x.denied 1 })
  let s := if code = 0x7001 then { s with auth := { s.auth with denied := s.auth.denied.put 6 (satAdd (s.auth.denied.look 6 0) 1) } } else s
  let s := s.slotEnd k p.cls
  match p.op with
  | .rdNc | .rdShared | .rdOwn => s.emit (.gateLine k 1 code.toNat (List.replicate 128 0) 0xF)
  | _ => s.emit (.gate k 1 code.toNat [])

/-- A line's request to its home, from the site's agent. -/
def State.chipRequest (s : State) (k c ln : Nat) (kind : CohKind) (p : ChipPkt) : State :=
  let mask : BitVec 4 := BitVec.ofNat 4 ((List.range 4).foldl (fun n i => if bits p.mask (32 * i + 31) (32 * i) = 0 then n else n + 2 ^ i) 0)
  let h := s.homeOf ln
  (s.modSite k (fun x => { x with txns := x.txns ++ [(ln, p.cls)] })).send
    { kind := kind, src := 29 + k, unit := 8, dst := s.homeDie h, home := h, line := ln, mask := mask, data := p.data, pois := p.pois, cmpt := c, bytes := p.mask, cls := BitVec.ofNat 3 p.cls }

/-- An eviction of the sectors a packet names: the site holds the line while it holds either half; the last half's eviction tells the home (R202, Table 8.6). -/
def State.chipEvict (s : State) (k ln : Nat) (dirty : Bool) (p : ChipPkt) : State :=
  let l := s.line (29 + k) 8 ln
  let mask : BitVec 4 := BitVec.ofNat 4 ((List.range 4).foldl (fun n i => if bits p.mask (32 * i + 31) (32 * i) = 0 then n else n + 2 ^ i) 0)
  let l := if dirty && (l.st == .e || l.st == .m) then { l with st := .m, dirty := l.dirty ||| mask, data := mergeLine l.data p.data mask, pois := (l.pois &&& ~~~mask) ||| (p.pois &&& mask) } else l
  let v := l.valid &&& ~~~mask
  let s := s.setLine (29 + k) 8 ln { l with valid := v }
  if v = 0 then
    let asks := l.st == .e || l.st == .m
    let s := s.evict (29 + k) 8 ln
    if asks then s.modSite k (fun x => { x with txns := x.txns ++ [(ln, p.cls)] }) else s.slotEnd k p.cls
  else s.slotEnd k p.cls

/-- A translated packet goes on as a request, a post or an eviction of the compartment (R347, Table 8.6). -/
def State.chipDo (s : State) (k c a : Nat) (p : ChipPkt) : State :=
  let ln := a / 128
  match p.op with
  | .rdNc => s.chipRequest k c ln .rdNc p
  | .wrNc => s.chipRequest k c ln .wrNc p
  | .rdShared => s.chipRequest k c ln .rdShared p
  | .rdOwn => s.chipRequest k c ln .rdUnique p
  | .rdOwnNoData => s.chipRequest k c ln .upgrade p
  | .cleanEvict => s.chipEvict k ln false p
  | .dirtyEvict => s.chipEvict k ln true p
  | .clFlush => ((s.settle (128 * ln) 128 true).slotEnd k p.cls).emit (.gate k 3 ln [])
  | _ => s.slotEnd k p.cls

/-- A post of a chiplet, checked as a post of its window's compartment; KIND 0b11 is refused (R67, R347). -/
def State.chipPost (s : State) (k : Nat) (w : BitVec 128) (p : ChipPkt) : State :=
  let c := bits w 60 55
  if !bit w 63 ∨ c = 0 ∨ !bit w 61 ∨ s.cstate c = .undef then s.gateRefuse k p 0x7001
  else if s.cstate c = .fallow then s.gateRefuse k p 0x9001
  else if pwKind p.word = 3 ∨ !pwFormat p.word ∨ !s.postOk c p.word then s.gateRefuse k p 0x7001
  else if s.postFate c p.word ≠ 0 then s.gateRefuse k p 0x9001
  else (s.slotEnd k p.cls).sendPost { cmpt := c, word := p.word, src := 1024 * 128 + k }

/-- GATE_PACKET: a packet from a chiplet uses the first open slot of its class, also while a site reset lets the chiplet evict and drain; a CXL.io request receives Unsupported Request (Table 16.1); without a slot, on a tile link, or malformed, its site is fenced. `late` boundary cycles pass from the accepting cycle to its completion (R339, R345, R347, R348, R252). -/
def execGatePacket (site : Nat) (pkt : ChipPkt) (late : Nat) (s : State) : Res :=
  upDo s (fun s =>
    let x := s.site site
    if !(decide (site < 4) && (x.st == .admitted || x.drain)) then s
    else if pkt.op = .io ∧ bit x.proto 1 = true then s.emit (.gate site 9 0 [])
    else if pkt.tile then s.fenceSite site 0x11
    else match findPos (fun g => g.cls == pkt.cls) x.slots with
      | none => s.fenceSite site 0x10
      | some n =>
        let w : BitVec 128 := ((x.slots[n]?).map (fun g => g.wins.look (if pkt.op = .post then pkt.addr % 16 else pkt.addr / 2 ^ 36 % 16) 0)).getD 0
        let s := s.modSite site (fun x => { x with slots := x.slots.eraseIdx n })
        if !chipAllowed x.proto pkt.op then (s.gateRefuse site pkt 0x16).fenceSite site 0x16
        else if pkt.op = .post then s.chipPost site w pkt
        else if pkt.op = .cacheFlushed then
          ((s.cache (29 + site) 8).lines.foldl (fun s e => s.evict (29 + site) 8 e.1) s).slotEnd site pkt.cls
        else
          let (code, c, a) := s.windowCode w pkt
          if code ≠ 0 then s.gateRefuse site pkt code
          else (s.measure (2 + site) pkt.cls (chipSpan pkt.mask).2 ((x.slots[n]?).elim false (·.conf)) c late).chipDo site c a pkt)

/-! ### Requests to a chiplet (R349, R350) -/

/-- A request addressed to a site window: on a device without gates, to a fenced or empty site, or to a full queue, it ends at once (R3, R342, R350, Table 16.8). -/
def State.siteRequest (s : State) (k : Nat) (write : Bool) (addr len : Nat) (data : List Byte) (host : Bool) : State :=
  let (n, s) := s.nextSerial
  let q : SiteReq := { id := n, write := write, addr := addr, data := data, size := len, host := host }
  if !bit s.inv.units 2 then s.siteEnd k q 0x1004
  else if (s.site k).st ≠ .admitted then s.siteEnd k q 0x5503
  else if 512 ≤ (s.site k).reqs.length then s.siteEnd k q 0x5502
  else (s.modSite k (fun x => { x with reqs := x.reqs ++ [q] })).emit (.gate k 4 n data)

/-- SITE_WINDOW_REQUEST: from the host through a PF BAR2 window, or from the Curator (R350). -/
def execSiteWindowRequest (site : Nat) (write : Bool) (addr len : Nat) (data : List Byte) (host : Bool) (s : State) : Res :=
  upDo s (fun s => if site < 4 then s.siteRequest site write addr len data host else s)

/-- A chiplet's answer to the CXL snoop of one half of a line, with its 64 bytes when it held them modified; the second half's answer goes to the home as one (R202). -/
def State.snpAnswer (s : State) (k : Nat) (q : SiteSnoop) (h : Nat) (data : List Byte) (ok : Bool) : State :=
  let m : BitVec 4 := if ok then (if h = 0 then 3 else 12) else 0
  let q : SiteSnoop := { q with left := setBit q.left h false, dirty := q.dirty ||| m, data := mergeLine q.data (BitVec.ofNat 1024 (ofLe (padTo 64 data) * 2 ^ (512 * h))) m }
  let s := s.modSite k (fun x => { x with snps := if q.left = 0 then x.snps.filter (fun y => y.id != q.id) else x.snps.map (fun y => if y.id = q.id then q else y) })
  if q.left = 0 then s.snoopAnswer q.msg q.inv q.dirty q.data else s

/-- CHIPLET_ANSWER: completes the request, or answers the snoop of a half line, where `ok` says that it returns data; one for a request that has timed out is discarded (R202, R350). -/
def execChipletAnswer (site id : Nat) (data : List Byte) (ok : Bool) (s : State) : Res :=
  upDo s (fun s =>
    match (s.site site).reqs.find? (fun q => q.id == id), (s.site site).snps.find? (fun q => (q.id == id && bit q.left 0) || (q.id + 1 == id && bit q.left 1)) with
    | none, some q => s.snpAnswer site q (id - q.id) data ok
    | none, none => s
    | some q, _ =>
      let s := s.modSite site (fun x => { x with reqs := x.reqs.filter (fun r => r.id != id) })
      if q.host then (if q.write then s else s.emit (.completion 0 ok (if ok then padTo q.size data else []) false))
      else s.emit (.gate site (if q.write then 3 else 2) 0 (if q.write then [] else padTo q.size data)))

/-- GRAFT_TIMEOUT: a request unanswered for GFT_TGT_TIMEOUT microseconds (R350). -/
def execGraftTimeout (site id age : Nat) (s : State) : Res :=
  upDo s (fun s =>
    match (s.site site).reqs.find? (fun q => q.id == id) with
    | none => s
    | some q =>
      if age < (s.site site).timeout.toNat then s
      else (s.modSite site (fun x => { x with reqs := x.reqs.filter (fun r => r.id != id) })).siteEnd site q 0x5501)

/-! ### Obligations and measurements (R351, R353) -/

/-- SINK_LIMIT_MISS (R351). -/
def execSinkLimitMiss (site : Nat) (s : State) : Res :=
  upDo s (fun s => if decide (site < 4) && (s.site site).st == .admitted then s.fenceSite site 0x12 else s)

/-- GRAFT_POWER_WINDOW: the average of a 1 ms window in W; over POWER it throttles the gate, and ten such windows in a row fence the site (R353). -/
def execGraftPowerWindow (site power : Nat) (s : State) : Res :=
  upDo s (fun s =>
    match (s.site site).grec with
    | none => s.modSite site (fun x => { x with power := power })
    | some g =>
      let ovr := decide (g.power < power)
      let n := if ovr then (s.site site).overs + 1 else 0
      let s := s.modSite site (fun x => { x with power := power, overs := n, throttled := ovr })
      if 10 ≤ n ∧ ((s.site site).st = .admitted ∨ (s.site site).st = .accession) then s.fenceSite site 0x14 else s)

/-- GRAFT_THERMAL: a reading of the site's sensor in degrees C; above 105 it fences the site (R353). -/
def execGraftThermal (site temp : Nat) (s : State) : Res :=
  upDo s (fun s =>
    let s := s.modSite site (fun x => { x with temp := temp })
    if 105 < temp ∧ ((s.site site).st = .admitted ∨ (s.site site).st = .accession) then s.fenceSite site 0x15 else s)

/-! ### The site reset and the site windows (R349, R352) -/

/-- GFT_SITE_RESET: the gate stops, a CXL.cache chiplet is told to flush, and the evict and drain allowances start (R352 steps 1 to 3). -/
def execGftSiteReset (port : Port) (site : Nat) (val : BitVec 64) (s : State) : Res :=
  upDo s (fun s =>
    if port != .pf && port != .mgmt then s.portDenied port (0xD0_0010 + 0x1000 * site)
    else if !bit val 0 || decide (4 ≤ site) then s
    else
      let s := if bit (s.site site).proto 2 then s.emit (.gate site 4 0 []) else s
      let s := s.setInv { s.inv with graft := setBit (setBit s.inv.graft site false) (4 + site) false }
      s.modSite site (fun x => { x with st := .reset, accept := false, drain := true }))

/-- SITE_RESET_TIMER: the allowances have expired; lines still held are reclaimed, queued requests end, the gate's state is cleared and GFT_RESET_N asserted and released, so that accession can run (R352 steps 4 to 6, Table 21.3). -/
def execSiteResetTimer (site : Nat) (s : State) : Res :=
  upDo s (fun s =>
    let x := s.site site
    if !(x.drain && x.st == .reset) then s
    else
      let s := if bit x.proto 2 then s.reclaim (29 + site) else s
      let s := x.reqs.foldl (fun s q => s.siteEnd site q 0x5503) s
      let s := { s with masters := s.masters.each (fun i m => if i = 4 + site then { m with classes := m.classes.each (fun _ c => { c with out := 0 }), urgOut := 0 } else m) }
      s.modSite site (fun x => { x with
        drain := false, resetN := false, step := 0, slots := [], reqs := [], snps := [], txns := [], winBusy := [], proto := 0, modules := 0, rate := 0
        overs := 0, throttled := false, id := 0, meas := 0, certs := 0 }))

/-- GFT_WIN_WRITE: a half of entry `w`. One that names a vitrine is stored with VALID = 0. It takes effect for grants opened later; packets already translated keep their range, and WIN_BUSY shows them (R349). -/
def execGftWinWrite (port : Port) (site w : Nat) (hi : Bool) (val : BitVec 64) (s : State) : Res :=
  upDo s (fun s =>
    if port != .pf && port != .mgmt then s.portDenied port (0xD0_0100 + 0x1000 * site + 16 * w + 8 * b2n hi)
    else if 4 ≤ site ∨ 16 ≤ w then s
    else
      let old := (s.site site).wins.look w 0
      let e : BitVec 128 := if hi then BitVec.ofNat 128 (bits old 63 0 + 2 ^ 64 * bits val 31 0)
        else
          let v := if (s.cmpt (bits val 60 55)).vitrine then setBit val 63 false else val
          BitVec.ofNat 128 (2 ^ 64 * bits old 127 64 + 2 ^ 51 * bits v 63 51 + bits v 23 0)
      s.modSite site (fun x => { x with wins := x.wins.put w e, winBusy := x.txns }))

end Sys2Proof.Machine
end

