-- ==== Sys2Proof/Machine/Mgmt.lean ====
section
/-! DEFINITION. The management network, owner settings, life-cycle transitions, and debug access (R368 to R385); and what a cold or warm reset wipes and keeps (R427, R428). -/

namespace Sys2Proof.Machine

/-! ### What a reset keeps (R427, R428, Table 21.3) -/

/-- The inventory after a boot has begun: fused values with every promotion since final test; fenced are the dies that were replaced (R6, R262). -/
def State.bootInv (s : State) : Inv :=
  let l := s.bed.subst
  let set (m : BitVec 64) (d : Nat) (b : Bool) : BitVec 64 := if isTileDie d then setBit m (d - 1) b else m
  { s.inv with
    active := l.foldl (fun m e => set (set m e.1 false) e.2 true) s.inv.fusedActive
    reserve := l.foldl (fun m e => set m e.2 false) s.inv.fusedReserve
    fenced := l.foldl (fun m e => set m e.1 true) 0
    graft := 0, gen := 0 }

/-- The firmware slots after a reset: a trial image falls back, a slot being staged is empty, a staged one stays (R396, R428). -/
def State.bootUpd (s : State) : Upd :=
  let slots := s.upd.slots.each (fun _ x => if x.st = .trial then { x with st := .failed } else x)
  let act := if (s.upd.slots.look s.upd.active {}).st = .trial then 1 - s.upd.active else s.upd.active
  { active := act, slots := slots, rollback := s.upd.rollback, phase := if slots.any (fun x => x.2.st == .staged) then .staged else .idle }

/-- Everything volatile wiped and start-up begun: fuses, board flash and condition reports stay, and a trial falls back with cause 5 (R427, R428). -/
def State.wiped (s : State) : State :=
  { pending := s.pending, serial := s.serial, tick := s.tick + 1, bootDraw := s.tick, out := s.out
    inv := s.bootInv
    routers := s.routers.each (fun _ r => { idType := r.idType, feat := r.feat, lot := r.lot })
    sto := { bifur := s.sto.bifur }
    bed := { seq := s.bed.seq, flashPlan := s.bed.flashPlan, flashAmends := s.bed.flashAmends, subst := s.bed.subst }
    auth := { lcCopies := s.auth.lcCopies, lcRead := s.auth.lcRead, lcSplit := s.auth.lcSplit, trimOnes := s.auth.trimOnes, journal := s.auth.journal, anchor := s.auth.anchor, opKeys := s.auth.opKeys, updLock := s.auth.updLock
              eh1608 := s.auth.eh1608, eraseIntent := s.auth.eraseIntent, seed := s.auth.seed, certs := s.auth.certs, nextSession := s.auth.nextSession
              notes := s.auth.notes ++ (if s.upd.phase = .trial then [(0x00B2, 5)] else []) }
    conf := { nextSession := s.conf.nextSession }
    upd := s.bootUpd
    flt := { replace := s.flt.replace, reports := s.flt.reports, head := s.flt.head, lost := s.flt.lost, place := s.bed.subst, boots := s.flt.boots + 1 }
    pwr := { ok := s.pwr.ok, perstN := s.pwr.perstN, cold := s.pwr.cold, tripLog := s.pwr.tripLog, refA := s.pwr.refA, refB := s.pwr.refB, selB := !s.pwr.refA, switches := s.pwr.switches, cause := s.pwr.cause } }

/-! ### Life cycle (R375 to R379) -/

/-- Codewords of the five states (Table 18.5). -/
def lcCode (t : Nat) : BitVec 32 := match t with | 0 => 0 | 1 => 0x0000FF00 | 2 => 0x00FFFF00 | 3 => 0xFFFFFF00 | _ => 0xFFFFFFFF

/-- The state: 0 TEST, 1 PERSONALISED, 2 FIELD, 3 RETURNED, 4 SCRAPPED (R375). -/
def State.lcState (s : State) : Nat := ((List.range 4).find? (fun t => s.lcWord == lcCode t)).getD 4

/-- Whether Table 18.6 allows a transition on a port. -/
def lcAllowed (cur t : Nat) (port : Port) : Bool :=
  match cur, t with
  | 0, 1 | 1, 2 | 0, 4 | 1, 4 | 3, 4 => port == .jtag
  | 2, 3 | 2, 4 => port == .mgmt
  | _, _ => false

/-- What Table 18.6 erases for FIELD to RETURNED: owner anchor, operator keys, owner settings, the persisted plan and amendments, and BED_SEQ. -/
def State.eraseOwner (s : State) : State :=
  { s with
    auth := { s.auth with anchor := none, opKeys := [], updLock := false, eh1608 := true }
    bed := { s.bed with flashPlan := none, flashAmends := [], seq := 0 } }

/-- A slot that is being staged or is staged is discarded (R391). -/
def State.dropStaged (s : State) : State :=
  if s.upd.phase = .staging ∨ s.upd.phase = .staged then
    { s with upd := { s.upd with phase := .idle, got := [], total := 0, slots := s.upd.slots.put (1 - s.upd.active) {} } }
  else s

/-- The refusal of a life-cycle request, or zero (R377). -/
def State.lcCheck (s : State) (port : Port) (val : BitVec 32) (supply : Bool) : BitVec 16 :=
  let cur := s.lcState
  if !(List.range 5).any (fun t => lcAllowed cur t port) then 0x7001
  else if s.auth.lcStep ≠ 0 ∨ s.auth.eraseIntent then 0x7008
  else if !(List.range 5).any (fun t => lcAllowed cur t port && lcCode t == val) then 0x7007
  else if !supply then 0x7009 else 0

/-- A request answered in its port's form: a frame on its session, or the TAP status register. A write to the register has no frame of its own. -/
def State.lcAnswer (s : State) (port : Port) (session : Option Nat) (code : BitVec 16) : State :=
  match port with
  | .mgmt => match session with | some n => s.answerFrame n 0x0050 code [] | none => s
  | .jtag => ({ s with auth := { s.auth with jtagStatus := code } } : State).emit (.jtag code [])
  | _ => s

/-- A life-cycle request checked and, when accepted, answered with DONE; the transition starts (R376 to R378). -/
def State.lcRequest (s : State) (port : Port) (session : Option Nat) (val : BitVec 32) (supply : Bool) : State :=
  let code := s.lcCheck port val supply
  if code = 0x7001 then
    let s := if port = .mgmt then { s with auth := { s.auth with denied := s.auth.denied.put 2 (satAdd (s.auth.denied.look 2 0) 1) } } else s.portDenied port 0xF0_0008
    ({ s with auth := { s.auth with lcCode := code } } : State).lcAnswer port session code
  else
    let s := ({ s with auth := { s.auth with lcCode := code } } : State).lcAnswer port session code
    if code ≠ 0 then s
    else
      let t := ((List.range 5).find? (fun t => lcCode t == val)).getD 4
      let s := s.dropStaged
      { s with auth := { s.auth with lcStep := 2, lcTarget := t - 1, lcAtBoot := false }, pci := { s.pci with up := false, retry := true } }

/-- Whether the ROM is completing a transition at power-up, before it serves any port (R379). -/
def State.lcCompletes (s : State) : Bool := s.auth.lcStep != 0 && s.auth.lcAtBoot

/-- LC_REQUEST, by register or by the management operation; `supply` says whether VDD_AO and the fuse supply lie within their programming ranges (R377). JTAG is served from power-up on, the other ports once start-up has ended. -/
def execLcRequest (port : Port) (session : Nat) (val : BitVec 32) (supply : Bool) (s : State) : Res :=
  onDo s (fun s =>
    if s.lcCompletes ∨ (port ≠ .jtag ∧ (s.pwr.bootStep ≠ 0 ∨ s.pwr.recovery)) then s
    else if port = .mgmt then s.mgmtDo session (fun s => s.lcRequest port (some session) val supply)
    else s.lcRequest port none val supply)

/-- Intent and done bits of a journal target. -/
def jIntent (t : Nat) : Nat := 2 * t
def jDone (t : Nat) : Nat := 2 * t + 1

/-- The flash partitions and fuses of a transition erased or overwritten: owner items when the device leaves FIELD, the identity seed, the trim fuses and the condition reports when it is scrapped (Table 18.6, R412, log 80). -/
def State.lcErase (s : State) : State :=
  let fromField := bit s.auth.journal 3 && !bit s.auth.journal 5
  let s := if fromField then s.eraseOwner else s
  if s.auth.lcTarget = 3 then { s with auth := { s.auth with seed := BitVec.allOnes 384, trimOnes := true }, flt := { s.flt with reports := [] } } else s

/-- One fuse copy, the first that lacks bits of the target codeword, programmed; none when all are complete (R378 step 6). -/
def progCopy (w : BitVec 32) : List (BitVec 32) → Option (List (BitVec 32))
  | [] => none
  | c :: t => if c ||| w = c then (progCopy w t).map (c :: ·) else some ((c ||| w) :: t)

/-- The step of R378 that runs ends and the next begins; step 6 takes one copy at a time. After step 7 the device boots in the new state, or the boot that completes the transition goes on (R379). -/
def State.lcStepDone (s : State) : State :=
  let a := s.auth
  match a.lcStep with
  | 2 => { s with auth := { a with lcStep := 3 } }
  | 3 => { s with auth := { a with lcStep := 4, journal := setBit a.journal (jIntent a.lcTarget) true } }
  | 4 =>
    let n := s.wiped
    { n with auth := { n.auth with lcStep := 5, lcTarget := a.lcTarget, lcAtBoot := a.lcAtBoot, lcCode := a.lcCode }, flt := { n.flt with boots := s.flt.boots } }
  | 5 => let s := s.lcErase; { s with auth := { s.auth with lcStep := 6 } }
  | 6 =>
    match progCopy (lcCode (a.lcTarget + 1)) a.lcCopies with
    | some l => { s with auth := { a with lcCopies := l } }
    | none => { s with auth := { a with lcStep := 7 } }
  | 7 =>
    let s := ({ s with auth := { a with lcStep := 0, journal := setBit a.journal (jDone a.lcTarget) true, notes := a.notes ++ [(0x00A0, a.lcTarget + 1 + 256 * b2n a.lcAtBoot)] } } : State).lcLatch
    if a.lcAtBoot then s else { s with flt := { s.flt with boots := s.flt.boots + 1 } }
  | _ => s

/-- LC_STEP_DONE (R378). -/
def execLcStepDone (s : State) : Res := onDo s (fun s => if s.auth.lcStep = 0 then s else s.lcStepDone)

/-- At power-up an open transition of the journal is taken up at step 4, two open intents completing SCRAPPED; without one the ROM reads the life-cycle state (R375, R379). -/
def State.lcResume (s : State) : State :=
  match (List.range 4).filter (fun t => bit s.auth.journal (jIntent t) && !bit s.auth.journal (jDone t)) with
  | [] => s.lcLatch
  | [t] => { s with auth := { s.auth with lcStep := 4, lcTarget := t, lcAtBoot := true } }
  | _ => { s with auth := { s.auth with lcStep := 4, lcTarget := 3, lcAtBoot := true } }

/-! ### The management network (R371 to R374) -/

/-- Management serves in normal operation and in ROM recovery (R398). -/
def State.mgmtServes (s : State) : Bool := s.isUp || (s.isOn && s.pwr.recovery)

/-- TLS_HANDSHAKE: `ok` is the verified handshake under R372's settings, `root` the identity of the client chain's root. Refused while unclaimed, with another root, or beyond four sessions; the device then sends its BIND. -/
def execTlsHandshake (ok : Bool) (root : BitVec 384) (s : State) : Res :=
  .next (
    if !s.mgmtServes || !ok || s.auth.anchor != some root || decide (4 ≤ s.auth.sessions.length) then s
    else
      let n := s.auth.nextSession
      ({ s with auth := { s.auth with sessions := s.auth.sessions ++ [({ id := n } : MgmtSession)], nextSession := n + 1 } } : State).emit
        (.frame n 0x0001 0 (Config.sign s.alias (leBytes 8 n))))

/-- A management session ended. -/
def State.endMgmt (s : State) (session : Nat) : State := { s with auth := { s.auth with sessions := s.auth.sessions.filter (fun m => m.id != session) } }

/-- BIND: `ok` when the client's signature over the exporter value verifies; otherwise the session ends (R372). -/
def execBind (session : Nat) (ok : Bool) (s : State) : Res :=
  .next (
    if !s.mgmtServes || !s.auth.sessions.any (fun m => m.id == session) then s
    else if !ok then s.endMgmt session
    else ({ s with auth := { s.auth with sessions := s.auth.sessions.map (fun (m : MgmtSession) => if m.id = session then { m with clientBound := true } else m) } } : State).answerFrame
      session 0x0001 0 [])

/-- SESSION_IDLE_TIMEOUT (R372). -/
def execSessionIdleTimeout (session : Nat) (s : State) : Res := .next (if s.mgmtServes then s.endMgmt session else s)

/-- OWNER_CLAIM: GO written from the PF (R371). -/
def execOwnerClaim (port : Port) (val : BitVec 64) (s : State) : Res :=
  upDo s (fun s =>
    if port != .pf then s.portDenied port 0xF0_0270
    else if !bit val 0 then s
    else if s.auth.anchor.isSome then s.event 0 0x700C 0 0
    else { s with auth := { s.auth with anchor := some s.auth.claim } })

/-- An OWNER_SET item taken and answered (R374). -/
def State.ownerSet (s : State) (session : Nat) (f : State → State) : Res :=
  upDo s (fun s => s.mgmtDo session (fun s => f (s.answerFrame session 0x0070 0 [])))

/-- An OWNER_SET value that Table 18.4 does not list: nothing changes, and the status is a free value (log 4). -/
def State.ownerBad (s : State) (session : Nat) : Res :=
  upDo s (fun s => s.mgmtDo session (fun s => let (t, s) := s.draw; s.answerFrame session 0x0070 (failCode t) []))

/-- OWNER_SET_ANCHOR: every session opened under the old anchor ends (R374). -/
def execOwnerSetAnchor (session : Nat) (anchor : BitVec 384) (s : State) : Res :=
  s.ownerSet session (fun s => { s with auth := { s.auth with anchor := some anchor, sessions := [] } })

/-- OWNER_SET_OPERATOR_KEY: an Ed25519 and an ML-DSA-65 public key, all zero to erase (R374). -/
def execOwnerSetOperatorKey (session slot : Nat) (keys : List Byte) (s : State) : Res :=
  if 4 ≤ slot ∨ keys.length ≠ 1984 then s.ownerBad session
  else s.ownerSet session (fun s => { s with auth := { s.auth with opKeys := s.auth.opKeys.put slot (if allZero keys then none else some keys) } })

/-- OWNER_SET_UPDATE_LOCK (R374). -/
def execOwnerSetUpdateLock (session val : Nat) (s : State) : Res :=
  if 2 ≤ val then s.ownerBad session else s.ownerSet session (fun s => { s with auth := { s.auth with updLock := val == 1 } })

/-- OWNER_SET_EH1608_PATH (R374, R384). -/
def execOwnerSetEh1608Path (session val : Nat) (s : State) : Res :=
  if 2 ≤ val then s.ownerBad session else s.ownerSet session (fun s => { s with auth := { s.auth with eh1608 := val == 1 } })

/-! ### Debug access (R380 to R384) -/

/-- The challenge record: nonce, DeviceID identity, codeword, measurement index 2 and SCOPE (R381). -/
def State.challengeRecord (s : State) (nonce : BitVec 256) (scope : BitVec 8) : List Byte :=
  bvBytes nonce ++ bvBytes (Config.sha384 (Config.identityKeys s.auth.seed)) ++ bvBytes s.lcWord ++ ((s.block 2).getD []) ++ [scope]

/-- DEBUG_CHALLENGE: a fresh nonce replaces any earlier one; reserved SCOPE bits are refused (R8, R381). -/
def execDebugChallenge (session : Nat) (scope : BitVec 8) (s : State) : Res :=
  upDo s (fun s => s.mgmtDo session (fun s =>
    if bits scope 7 3 != 0 then s.answerFrame session 0x0060 0x1001 [] else
    let (t, s) := s.draw
    let n := BitVec.ofNat 256 t
    ({ s with auth := { s.auth with dbgNonce := some (n, scope), dbgRec := s.challengeRecord n scope } } : State).answerFrame session 0x0060 0 (s.challengeRecord n scope)))

/-- DEBUG_NONCE_EXPIRY (R381). -/
def execDebugNonceExpiry (s : State) : Res := upDo s (fun s => { s with auth := { s.auth with dbgNonce := none } })

/-- Every compartment put fallow with CAUSE 6 (R382, R384). -/
def State.fallowAll (s : State) : State := ((List.range 64).drop 1).foldl (fun s c => s.fallowStart c 6) s

/-- DEBUG_GRANT: accepted when it repeats the current challenge and both signatures verify; the nonce is consumed either way. In FIELD every compartment goes fallow (R282, R381, R382). -/
def execDebugGrant (session : Nat) (grant : List Byte) (s : State) : Res :=
  upDo s (fun s => s.mgmtDo session (fun s =>
    let n := s.auth.dbgNonce
    let s := { s with auth := { s.auth with dbgNonce := none } }
    match n with
    | none => s.answerFrame session 0x0061 0x700B []
    | some (_, scope) =>
      let r := s.auth.dbgRec
      if grant.take r.length = r ∧ Config.verify Config.debugAuthority r (grant.drop r.length) then
        let s := s.dropStaged.answerFrame session 0x0061 0 []
        let s : State := { s with auth := { s.auth with dbgPend := true, dbgAsk := scope } }
        if s.lcState = 2 then s.fallowAll else s
      else s.answerFrame session 0x0061 0x700B []))

/-- EH1608_UNLOCK: in FIELD with EH1608_PATH = 1 and no transition in progress; otherwise LC_DENIED. The erase intent is recorded and every compartment goes fallow (R384 steps 1 and 2). -/
def execEh1608Unlock (s : State) : Res :=
  onDo s (fun s =>
    if s.lcCompletes then s
    else if s.lcState ≠ 2 ∨ !s.auth.eh1608 ∨ s.auth.lcStep ≠ 0 then ({ s with auth := { s.auth with jtagStatus := 0x7007 } } : State).emit (.jtag 0x7007 [])
    else if !s.isUp then s
    else
      let s := s.dropStaged
      (({ s with auth := { s.auth with eraseIntent := true, dbgPend := true, jtagStatus := 0 } } : State).fallowAll).emit (.jtag 0 []))

/-- The erase of R384 steps 3 and 4: the key vault and the owner's items; sessions under the erased anchor end. -/
def State.ehErase (s : State) : State :=
  let s := s.eraseOwner
  { s with
    cmpts := s.cmpts.each (fun _ c => { c with keys := [] })
    auth := { s.auth with eraseIntent := false, sessions := [] } }

/-- DEBUG_GRANTED: when every fallow has ended and no vitrine is active (R380), the erase of an EH1608 unlock is done and the instructions of SCOPE open (R382, R384). -/
def execDebugGranted (s : State) : Res :=
  upDo s (fun s =>
    if !s.auth.dbgPend || s.anyActive || s.cmpts.any (fun c => c.1 != 0 && c.2.state == .fallow) then s
    else
      let eh := s.auth.eraseIntent
      let s := if eh then s.ehErase else s
      let scope : BitVec 8 := if eh then 0x07 else s.auth.dbgAsk
      ({ s with auth := { s.auth with dbgPend := false, dbgOn := true, dbgScope := scope, dbgEh := s.auth.dbgEh || eh } } : State).event 0 0x00A1 0
        (BitVec.ofNat 64 (scope.toNat + 256 * b2n eh)))

/-- The IDCODE (R375). -/
def State.idcode (s : State) : BitVec 32 :=
  BitVec.ofNat 32 ((4 * bits s.inv.product 15 12 + bits s.inv.product 11 8) * 2 ^ 28 + (if bits s.inv.product 7 0 = 3 then 0x3324 else 0x3326) * 2 ^ 12 + 0x9CB)

/-- LC_STATE and LC_STATUS (Table 18.8). -/
def State.lcStateReg (s : State) : BitVec 64 :=
  BitVec.ofNat 64 (s.lcWord.toNat + 2 ^ 32 * b2n s.auth.lcSplit + 2 ^ 36 * s.lcState)
def State.lcStatusReg (s : State) : BitVec 64 := BitVec.ofNat 64 (s.auth.lcCode.toNat + 2 ^ 28 * s.auth.lcStep + 2 ^ 31 * b2n (s.auth.lcStep != 0))

/-- What the life-cycle state lets JTAG do: the refusal code of an instruction, or zero; debug access is closed in every state while a vitrine is active (Table 18.5, R24, R380). -/
def State.jtagCode (s : State) (op : JtagOp) : BitVec 16 :=
  let plain := op == .idcode || op == .bypass || op == .sample || op == .lcStatus
  let opens := match op with | .debug _ => true | .scan => true | _ => false
  if opens && s.anyActive then 0x700A
  else match s.lcState with
  | 0 => 0
  | 1 => if plain || op == .extest || op == .bist || op == .readKeys || op == .writeCerts then 0 else 0x7001
  | 2 =>
    if plain then 0
    else match op with
      | .extest => if !s.pwr.perstN then 0 else 0x7001
      | .debug k => if s.auth.dbgOn && !s.anyActive && bit s.auth.dbgScope k then 0 else 0x700A
      | .scan => 0x700A
      | _ => 0x7001
  | 3 => if op == .fuse then 0x7001 else 0
  | _ => if plain || op == .extest then 0 else 0x7001

/-- JTAG_INSTRUCTION: performed when the life-cycle state or a grant allows it; a refused one shifts out zeros (R369, R380, Table 18.5). What a scan, debug or boundary instruction shifts out of the logic under it is left open (log 4). -/
def execJtagInstruction (op : JtagOp) (data : List Byte) (s : State) : Res :=
  onDo s (fun s =>
    let code := s.jtagCode op
    let zeros : List Byte := data.map (fun _ => 0)
    if s.lcCompletes then s
    else if code = 0x7001 then (s.portDenied .jtag 0).emit (.jtag code zeros)
    else
      let s := { s with auth := { s.auth with jtagStatus := code } }
      if code ≠ 0 then s.emit (.jtag code zeros)
      else match op with
        | .idcode => s.emit (.jtag 0 (bvBytes s.idcode))
        | .lcStatus => s.emit (.jtag 0 (bvBytes s.lcStateReg ++ bvBytes s.lcStatusReg))
        | .readKeys => s.emit (.jtag 0 (Config.identityKeys s.auth.seed))
        | .writeCerts => ({ s with auth := { s.auth with certs := data } } : State).emit (.jtag 0 [])
        | .bypass => s.emit (.jtag 0 data)
        | _ => let (t, s) := s.draw; s.emit (.jtag 0 (leBytes data.length t)))

end Sys2Proof.Machine
end

