-- ==== Sys2Proof/Machine/Update.lean ====
section
/-! DEFINITION. Firmware and update: bundles, staging, activation, trial, fallback and ROM recovery (R386 to R398), and the takeover of a failed Curator (R411). -/

namespace Sys2Proof.Machine

/-! ### Bundles (R387, Tables 19.2 and 19.3) -/

/-- Components, TOTAL_LEN, SEC_VERSION and the number of blocks that the lengths leave. -/
def bunComps (l : List Byte) : Nat := fieldAt l 7 1
def bunTotal (l : List Byte) : Nat := fieldAt l 12 4
def bunSec (l : List Byte) : Nat := fieldAt l 10 1
def bunBlocks (l : List Byte) : Nat := (bunTotal l - 64 - 48 * bunComps l - 3376) / 65584

/-- Manifest entries. -/
def bunEntry (l : List Byte) (k : Nat) : List Byte := (l.drop (64 + 48 * k)).take 48
def bunEntries (l : List Byte) : List (List Byte) := (List.range (bunComps l)).map (bunEntry l)
def entType (e : List Byte) : Nat := fieldAt e 0 1
def entFab (e : List Byte) : Nat := fieldAt e 2 2
def entBlocks (e : List Byte) : Nat := (fieldAt e 12 4 + 65535) / 65536

/-- Where the manifest and the blocks end. -/
def bunManEnd (l : List Byte) : Nat := 64 + 48 * bunComps l + 48 * bunBlocks l
def bunBlkEnd (l : List Byte) : Nat := bunManEnd l + 65536 * bunBlocks l

/-- Block `k` and the manifest value for it. -/
def bunBlock (l : List Byte) (k : Nat) : List Byte := (l.drop (bunManEnd l + 65536 * k)).take 65536
def bunHash (l : List Byte) (k : Nat) : List Byte := (l.drop (64 + 48 * bunComps l + 48 * k)).take 48

/-- Check 1 of R389 on the header. -/
def bunHeadOk (l : List Byte) : Bool :=
  fieldAt l 0 4 == 0x44554845 && fieldAt l 4 2 == 1 && decide (1 ≤ bunComps l) && decide (bunComps l ≤ 7) && fieldAt l 11 1 == 0
    && decide (bunTotal l ≤ 60 * 1048576) && 64 + 48 * bunComps l + 65584 * bunBlocks l + 3376 == bunTotal l

/-- Check 1 of R389 on the manifest: types known and named once, reserved bytes zero, every component within the blocks and every block used. -/
def manifestOk (l : List Byte) : Bool :=
  let es := bunEntries l
  es.all (fun e => decide (1 ≤ entType e) && decide (entType e ≤ 7) && fieldAt e 1 1 == 0 && fieldAt e 44 4 == 0
      && decide (fieldAt e 8 4 + entBlocks e ≤ bunBlocks l))
    && (es.map entType).eraseDups.length == es.length && (es.map entBlocks).sum == bunBlocks l

/-- Check 2 of R389 on the blocks that have arrived whole. -/
def blocksOk (l : List Byte) : Bool :=
  (List.range (bunBlocks l)).all (fun k => decide (l.length < bunManEnd l + 65536 * (k + 1)) || bvBytes (Config.sha384 (bunBlock l k)) == bunHash l k)

/-- Check 3 of R389: both signatures over SHA-384 of the header and the manifest. -/
def bunSigned (l : List Byte) : Bool :=
  Config.verify Config.firmwareKeys (bvBytes (Config.sha384 (l.take (bunManEnd l)))) ((l.drop (bunBlkEnd l)).take 3373)

/-- Check 4 of R389: PRODUCTS, HUB_REV and UNIT against this device. -/
def State.bunBound (s : State) (l : List Byte) : Bool :=
  let prod := bits s.inv.product 7 0
  let unit := (l.drop 16).take 48
  prod != 0 && (fieldAt l 6 1).testBit (prod - 1) && (fieldAt l 8 2).testBit (4 * bits s.inv.product 15 12 + bits s.inv.product 11 8)
    && (allZero unit || unit == bvBytes (Config.sha384 (Config.identityKeys s.auth.seed)))

/-- Check 5 of R389: SEC_VERSION against the counter, and each TYPE 1 FABRIC_VERSION within 1 of the version running; in ROM recovery none runs (log 31). -/
def State.bunFresh (s : State) (l : List Byte) : Bool :=
  decide (s.upd.rollback ≤ bunSec l) && (s.pwr.recovery || (bunEntries l).all (fun e => entType e != 1 || (decide (entFab e ≤ s.fab.version.toNat + 1) && decide (s.fab.version.toNat ≤ entFab e + 1))))

/-- The checks on a bundle still arriving: header and manifest as soon as they are there, each whole block (R389). -/
def State.partCode (s : State) (l : List Byte) : BitVec 16 :=
  if l.length < 64 then 0
  else if !bunHeadOk l then 0x8002
  else if l.length < bunManEnd l then 0
  else if !manifestOk l then 0x8002
  else if !blocksOk l then 0x8003
  else if !s.bunBound l then 0x8005
  else if !s.bunFresh l then 0x8006 else 0

/-- The checks on the bytes received at END, in the order of R389. -/
def State.bunCode (s : State) (l : List Byte) : BitVec 16 :=
  if !bunHeadOk l || l.length != bunTotal l || !manifestOk l || !allZero (l.drop (bunBlkEnd l + 3373)) then 0x8002
  else if !blocksOk l then 0x8003
  else if !bunSigned l then 0x8004
  else if !s.bunBound l then 0x8005
  else if !s.bunFresh l then 0x8006 else 0

/-- A component decrypts: the tag over its ciphertext verifies under the product key (R387). -/
def bunOpens (l : List Byte) (e : List Byte) : Bool :=
  (Config.gcmOpen Config.productKey ((e.drop 16).take 12) []
    ((l.drop (bunManEnd l + 65536 * fieldAt e 8 4)).take (fieldAt e 12 4)) ((e.drop 28).take 16)).isSome

/-- The slot a bundle makes: what it does not carry is copied from the active slot (R386). -/
def State.bunSlot (s : State) (l : List Byte) (st : SlotSt) : Slot :=
  let old := s.upd.slots.look s.upd.active {}
  let es := bunEntries l
  { st := st, sec := bunSec l, image := l
    fab := es.foldl (fun v e => if entType e = 1 then BitVec.ofNat 16 (entFab e) else v) old.fab
    versions := es.foldl (fun t e => t.put (entType e) (fieldAt e 4 4)) old.versions
    manifest := es.foldl (fun t e => t.put (entType e) (Config.sha384 e)) old.manifest }

/-! ### Staging (R388 to R391) -/

/-- An answer to UPDATE, its code kept as the code of the last operation; a refusal of R390 carries its reason. -/
def State.updAnswer (s : State) (session : Nat) (code : BitVec 16) (data : List Byte) : State :=
  ({ s with upd := { s.upd with code := code } } : State).answerFrame session 0x0040 code data

/-- UPDATE_REFUSED with its reason. -/
def State.updRefuse (s : State) (session reason : Nat) : State := s.updAnswer session 0x8001 (leBytes 2 reason)

/-- A management operation of UPDATE, served in normal operation and in ROM recovery (R388, R398). -/
def State.updDo (s : State) (session : Nat) (f : State → State) : Res := .next (if s.mgmtServes then s.mgmtDo session f else s)

/-- The inactive slot (R393). -/
def State.spare (s : State) : Nat := 1 - s.upd.active

/-- The slot staged. -/
def State.stagedSlot (s : State) : Slot := s.upd.slots.look s.spare {}

/-- Whether ACTIVATE meets condition FABRIC: a TYPE 6 component, or a TYPE 1 component that changes the fabric version, outside the upgrade window or the range of R336. -/
def State.fabricRefuses (s : State) : Bool :=
  let openWin := bit s.fab.upg 0 && s.fab.converged
  (bunEntries s.stagedSlot.image).any (fun e =>
    let u := entFab e
    (entType e == 6 && !openWin) ||
    (entType e == 1 && u != s.fab.version.toNat && (!openWin || decide (u + 1 < s.fab.ceiling.toNat) || decide (s.fab.floor.toNat + 1 < u))))

/-- The first condition of Table 19.5 that holds, or zero; `supply` is false when the hub die is above 95 °C or a rail is out of range. -/
def State.updReason (s : State) (act supply : Bool) : Nat :=
  if s.auth.updLock then 1
  else if s.cmpts.any (fun e => e.2.active && (match e.2.plan with | some r => bit r.mode 4 | none => false)) then 2
  else if !supply then 3
  else if act && s.upd.phase == .staged && s.fabricRefuses then 4
  else if s.bed.job.isSome || s.auth.lcStep != 0 || s.auth.eraseIntent || s.auth.dbgPend || s.auth.dbgOn || s.upd.phase == .staging || s.upd.phase == .swapping then 5
  else if s.upd.phase == .trial then 6
  else if act && s.upd.phase != .staged then 7 else 0

/-- Staging ends and its slot becomes EMPTY; in recovery the buffer is emptied (R389). -/
def State.stageFails (s : State) (session : Nat) (code : BitVec 16) : State :=
  let u := s.upd
  let u := if s.pwr.recovery then { u with got := [], total := 0 } else { u with phase := .idle, got := [], total := 0, slots := u.slots.put s.spare {} }
  ({ s with upd := u } : State).updAnswer session code []

/-- UPDATE BEGIN: the inactive slot is erased and staging starts (Table 19.4). -/
def execUpdBegin (session total : Nat) (supply : Bool) (s : State) : Res :=
  s.updDo session (fun s =>
    let r := s.updReason false supply
    if r ≠ 0 then s.updRefuse session r
    else
      let u := { s.upd with got := [], total := total }
      ({ s with upd := if s.pwr.recovery then u else { u with phase := .staging, slots := u.slots.put s.spare {} } } : State).updAnswer session 0 [])

/-- Whether bundle bytes are being taken. -/
def State.isStaging (s : State) : Bool := if s.pwr.recovery then s.upd.total != 0 else s.upd.phase == .staging

/-- UPDATE with no staging to act on: no effect, and a status the spec does not state (log 4). -/
def State.updIdle (s : State) (session : Nat) : State := let (t, s) := s.draw; s.answerFrame session 0x0040 (failCode t) []

/-- UPDATE DATA: bytes that follow the previous DATA without a gap, checked as they arrive (Table 19.4, R389). -/
def execUpdData (session off : Nat) (data : List Byte) (s : State) : Res :=
  s.updDo session (fun s =>
    if !s.isStaging then s.updIdle session
    else if off ≠ s.upd.got.length ∨ 1048576 < data.length then s.stageFails session 0x8002
    else
      let l := s.upd.got ++ data
      let code := s.partCode l
      if code ≠ 0 then s.stageFails session code
      else ({ s with upd := { s.upd with got := l } } : State).updAnswer session 0 [])

/-- ROM recovery ends: the bundle is written to slot 0 as CONFIRMED, the counter is raised and the device reboots (R398). -/
def State.recovered (s : State) (l : List Byte) : State :=
  let x := s.bunSlot l .confirmed
  let s : State := { s with upd := { s.upd with slots := s.upd.slots.put 0 x, rollback := max s.upd.rollback x.sec, active := 0, phase := .idle, got := [], total := 0 } }
  s.wiped

/-- UPDATE END: the whole bundle is checked and the slot becomes STAGED (Table 19.4, R389). -/
def execUpdEnd (session : Nat) (s : State) : Res :=
  s.updDo session (fun s =>
    if !s.isStaging then s.updIdle session
    else
      let l := s.upd.got
      let code := if l.length ≠ s.upd.total then 0x8002 else s.bunCode l
      if code ≠ 0 then s.stageFails session code
      else if s.pwr.recovery then (s.updAnswer session 0 []).recovered l
      else
        ({ s with upd := { s.upd with phase := .staged, got := [], total := 0, slots := s.upd.slots.put s.spare (s.bunSlot l .staged) } } : State).updAnswer session 0 [])

/-! ### Sessions and Curators (R393, R411) -/

/-- Every management and SPDM session ends, and with them the messages that were held back and not answered (R393, R411). -/
def State.endSessions (s : State) : State :=
  { s with
    auth := { s.auth with sessions := [] }
    conf := { s.conf with sessions := [], held := [], versioned := 0, caps := 0, algs := 0, chunkIn := [], chunkOut := [] } }

/-- The standby takes over from a failed Curator: sessions end, and the device has no standby until one returns (R411, R413). -/
def State.takeover (s : State) : State :=
  let s := s.endSessions
  let s := (s.report 0x4019 0 0 0 0 0 0 0 0).event 0 0x00C3 0 0
  ({ s with flt := { s.flt with standby := false } } : State).replaceCause 2

/-! ### Activation (R393, R394) -/

/-- The banks that components of the staged bundle fill are switched: SSU microcode and tile agent firmware (R394). -/
def State.flipBanks (s : State) (types : List Nat) (ucode : Nat) : State :=
  let s := if types.contains 2 then (List.range 32).foldl (fun s l => s.modStack l (fun t => { t with bank := !t.bank, ucodeOld := t.ucode, ucode := ucode })) s else s
  if types.contains 7 then ((List.range 29).drop 1).foldl (fun s d => s.modTile d (fun t => { t with agentBank := !t.agentBank })) s else s

/-- The old banks are freed when the trial has ended (R394, R395). -/
def State.freeBanks (s : State) : State := { s with stk := s.stk.each (fun _ t => { t with ucodeOld := 0 }) }

/-- The fabric version changes: a lower one is flooded while the higher one is still served; the versions of the links are exchanged again (R333, R335). -/
def State.setFabVersion (s : State) (v : BitVec 16) : State :=
  if v = s.fab.version then s
  else
    let s : State := { s with fab := { s.fab with version := v, oldServe := if v.toNat < s.fab.version.toNat then some s.fab.version else none } }
    if s.hasFabric then s.flood.relink else s

/-- UPDATE ACTIVATE: the state checks run again and the standby boots from the staged slot (Table 19.4, R393). -/
def execActivate (session : Nat) (supply : Bool) (s : State) : Res :=
  s.updDo session (fun s =>
    let r := s.updReason true supply
    if r ≠ 0 then s.updRefuse session r
    else ({ s with upd := { s.upd with phase := .swapping } } : State).updAnswer session 0 [])

/-- The ROM's check of the staged slot: steps 3 to 5 of R389 and the tag of the Curator component (R393 step 1). -/
def State.standbyCode (s : State) : BitVec 16 :=
  let l := s.stagedSlot.image
  if !bunSigned l then 0x8004
  else if !s.bunBound l then 0x8005
  else if !s.bunFresh l then 0x8006
  else if (bunEntries l).any (fun e => entType e == 1 && !bunOpens l e) then 0x8004 else 0

/-- STANDBY_BOOT_DONE: a failed check marks the slot FAILED; otherwise the records are handed over, the roles swap and the trial begins (R393). -/
def execStandbyBootDone (s : State) : Res :=
  upDo s (fun s =>
    if s.upd.phase != .swapping then s
    else
      let code := s.standbyCode
      let n := s.spare
      let x := s.stagedSlot
      if code ≠ 0 then
        ({ s with upd := { s.upd with phase := .idle, code := code, slots := s.upd.slots.put n { x with st := .failed } } } : State).releaseHeld
      else
        let u : Upd := { s.upd with
          phase := .trial, health := false, active := n, code := 0, left := bits s.upd.confirmWin 11 0
          slots := s.upd.slots.put n { x with st := .trial }, oldVersions := s.upd.versions, versions := x.versions }
        let s := ({ s with upd := u } : State).endSessions
        let s := s.flipBanks ((bunEntries x.image).map entType) (x.versions.look 2 0)
        (s.setFabVersion x.fab).event 0 0x00B0 0 0)

/-! ### Trial, confirmation and fallback (R395, R396) -/

/-- HEALTH_OK (R395). -/
def execHealthOk (s : State) : Res := upDo s (fun s => if s.upd.phase == .trial then { s with upd := { s.upd with health := true } } else s)

/-- A fallback: the previous image takes over, the banks switch back and the trial slot becomes FAILED (R396). -/
def State.fallBack (s : State) (cause : Nat) : State :=
  if s.upd.phase != .trial then s
  else
    let x := s.upd.slots.look s.upd.active {}
    let old := s.upd.slots.look s.spare {}
    let s := ((s.setFabVersion old.fab).flipBanks ((bunEntries x.image).map entType) (old.versions.look 2 0)).freeBanks
    let u : Upd := { s.upd with
      phase := .idle, health := false, active := s.spare, left := 0
      slots := s.upd.slots.put s.upd.active { x with st := .failed }, versions := s.upd.oldVersions, oldVersions := [] }
    ((({ s with upd := u } : State).endSessions).event 0 0x00B2 0 (BitVec.ofNat 64 cause)).releaseHeld

/-- HEALTH_CHECK_FAIL (R396). -/
def execHealthCheckFail (s : State) : Res := upDo s (fun s => s.fallBack 2)

/-- CONFIRM_WINDOW_EXPIRY (R396). -/
def execConfirmWindowExpiry (s : State) : Res := upDo s (fun s => s.fallBack 1)

/-- UPDATE CONFIRM: refused before HEALTH_OK; otherwise the trial slot is CONFIRMED, the other EMPTY, the old banks freed and the counter raised (R395). -/
def execConfirm (session : Nat) (s : State) : Res :=
  s.updDo session (fun s =>
    if s.upd.phase != .trial || !s.upd.health then s.updRefuse session 8
    else
      let x := s.upd.slots.look s.upd.active {}
      let u : Upd := { s.upd with
        phase := .idle, health := false, left := 0, oldVersions := [], rollback := max s.upd.rollback x.sec
        slots := (s.upd.slots.put s.upd.active { x with st := .confirmed }).put s.spare {} }
      let s := (({ s with upd := u } : State).updAnswer session 0 []).freeBanks
      (s.event 0 0x00B1 0 0).releaseHeld)

/-- UPDATE ABORT: a slot being staged or staged becomes EMPTY, and a trial falls back (Table 19.4). -/
def execAbort (session : Nat) (s : State) : Res :=
  s.updDo session (fun s =>
    if s.upd.phase = .trial then (s.updAnswer session 0 []).fallBack 3
    else if s.upd.phase = .staged ∨ s.isStaging then
      let s := s.dropStaged.updAnswer session 0 []
      { s with upd := { s.upd with got := [], total := 0 } }
    else s.updIdle session)

/-- PHASE and slot states as Table 19.6 numbers them. -/
def phaseCode : UpdPhase → Nat
  | .idle => 0 | .staging => 1 | .staged => 2 | .swapping => 3 | .trial => 4 | .recovery => 5
def slotCode : SlotSt → Nat
  | .empty => 0 | .staged => 1 | .trial => 2 | .confirmed => 3 | .failed => 4

/-- UPD_STATUS and UPD_SLOT (Table 19.6). -/
def State.updStatus (s : State) : BitVec 64 :=
  BitVec.ofNat 64 (2 ^ 28 * phaseCode s.upd.phase + 2 ^ 27 * b2n s.upd.health + 2 ^ 24 * s.upd.active + s.upd.code.toNat)
def State.updSlotReg (s : State) (k : Nat) : BitVec 64 :=
  let x := s.upd.slots.look k {}
  BitVec.ofNat 64 (2 ^ 28 * slotCode x.st + 2 ^ 16 * (x.sec % 256) + x.fab.toNat)

/-- UPDATE STATUS (Table 19.4). -/
def execStatus (session : Nat) (s : State) : Res :=
  s.updDo session (fun s => s.answerFrame session 0x0040 0 (bvBytes s.updStatus ++ bvBytes (s.updSlotReg 0) ++ bvBytes (s.updSlotReg 1)))

/-! ### ROM recovery (R398) -/

/-- UPD_MBOX_CMD: a chunk of the buffer placed in the bundle, and on the last one the bundle checked and installed. Ignored outside recovery (R398). -/
def execUpdMboxCmd (port : Port) (val : BitVec 64) (s : State) : Res :=
  onDo s (fun s =>
    if port != .pf then s.portDenied port 0x0010_0200
    else if !s.pwr.recovery || !bit val 63 then s
    else if s.auth.updLock then { s with upd := { s.upd with mboxCode := 0x8001 } }
    else
      let off := bits val 41 32 * 1048576
      let n := bits val 23 0
      let chunk := (List.range n).map (fun k => s.upd.mbox.look k 0)
      let l := padTo off s.upd.mboxGot ++ chunk ++ s.upd.mboxGot.drop (off + n)
      if !bit val 62 then { s with upd := { s.upd with mboxGot := l, mboxCode := 0 } }
      else
        let code := s.bunCode l
        if code ≠ 0 then { s with upd := { s.upd with mboxGot := [], mboxCode := code } }
        else s.recovered l)

end Sys2Proof.Machine
end

