-- ==== Sys2Proof/Machine/Faults.lean ====
section
/-! DEFINITION. Faults, reserve tiles and self-test: core and tile faults, promotion and planned moves, the Curators, the replacement request, built-in self-test and rotation (R139, R142, R143, R183, R198, R399 to R419). -/

namespace Sys2Proof.Machine

/-! ### Exposure and reserves (R400, R406, R413) -/

/-- The device is exposed: a promotion copies or rebuilds, a link is quarantined, no standby serves, one reference clock is lost, or a fabric port is down and its routes are not yet recomputed (R400, Table 20.1). -/
def State.exposed (s : State) : Bool :=
  s.stk.any (fun t => match t.2.mig with | some m => !m.planned | none => false) || !s.flt.standby || s.flt.refHolds
    || s.routers.any (fun r => r.2.links.any (fun l => l.2.st == .quarantined))
    || (s.fab.transition && s.fab.ports.any (fun p => p.2.st == .down))

/-- NO_RESERVE is raised when no usable reserve remains (Table 20.4). -/
def State.reserveCheck (s : State) : State :=
  if (List.range 29).any s.reserveUsable || bit s.flt.replace 0 then s else s.replaceCause 0

/-- Whether a replacement cause still holds (Table 20.4). -/
def State.causeHolds (s : State) (b : Nat) : Bool :=
  match b with
  | 0 => !(List.range 29).any s.reserveUsable
  | 1 => s.flt.ceHolds != 0
  | 2 => !s.flt.standby
  | 3 => s.flt.refHolds
  | 4 => !s.flt.incompat.isEmpty
  | 5 => decide (2 ≤ s.flt.routeFenced.length)
  | _ => false

/-- CUR_REPLACE_CLEAR: W1C from the management port; a bit whose cause still holds stays set (R413). -/
def execCurReplaceClear (port : Port) (val : BitVec 64) (s : State) : Res :=
  upDo s (fun s =>
    if port != .mgmt then s.portDenied port 0xE4_0008
    else { s with flt := { s.flt with replace := (List.range 7).foldl (fun r b => if bit val b && !s.causeHolds b then setBit r b false else r) s.flt.replace } })

/-! ### Replay (R404, R408) -/

/-- A core reset with its store and scratch at their reset values (R82, R408). -/
def State.freshCore (s : State) (d i : Nat) : State :=
  ((s.coreReset d i).zeroRange (storeBase d i) 0x80_0000).zeroRange (scratchBase d i) 0x4_0000

/-- A core's counters start at the snapshot plus the tally kept for another core's rank, and the records go with it (R70). -/
def State.handCounters (s : State) (d i d' : Nat) : State :=
  let n := s.snaps.look (8 * d + i) {}
  let cnt : Tab (BitVec 16) := (List.range 64).filterMap (fun k => let v := n.snap.look k 0 + n.tally.look k 0; if v = 0 then none else some (k, v))
  { (s.modCore d' i (fun c => { c with cnt := cnt })) with snaps := if s.snaps.has (8 * d + i) then (s.snaps.del (8 * d + i)).put (8 * d' + i) n else s.snaps }

/-- The running ranks that `p` names go back among those that wait for their cores, to run again (R404, R408). -/
def State.requeue (s : State) (p : Nat → Nat → Bool) : State :=
  { s with cmpts := s.cmpts.each (fun fn m => { m with sq := m.sq.each (fun _ r => { r with descs := r.descs.map (fun d =>
      let rs := d.going.filter (p fn)
      if dtype d.bytes == 1 && d.st == .running && !rs.isEmpty then
        { d with going := d.going.filter (fun x => !p fn x), left := rs.foldl insNat d.left, replay := d.replay ++ rs }
      else d) }) }) }

/-- Every rank that is to run again and whose core is free starts, with the launch number of its launch (R408). -/
def State.startReplays (s : State) : State :=
  s.cmpts.foldl (fun s m => m.2.sq.foldl (fun s r => r.2.descs.foldl (fun s e => e.replay.foldl (fun s k =>
    match s.rankCore m.1 k with
    | some (d, i) => if s.cstate m.1 == .ready && s.coreFree d i then s.startRank m.1 r.1 e k d i else s
    | none => s) s) s) s) s

/-- A core stopped with its launch run again on the same core (R404). -/
def State.coreFault (s : State) (d i unit : Nat) : State :=
  let s := s.requeue (fun fn r => s.rankCore fn r == some (d, i))
  let s := ((s.freshCore d i).handCounters d i d).report 0x4014 0 d i 0 0 0 0 (BitVec.ofNat 64 unit)
  s.startReplays

/-! ### The loss of a memory island (R143, R183, R410) -/

/-- Whether a reason of Table 20.2 loses the memory island. -/
def islandLost (reason : BitVec 8) : Bool := reason == 8 || reason == 9

/-- The ranges of a stack that guarded areas take. -/
def State.guardedOf (s : State) (ls : Nat) : List (Nat × Nat) := s.guarded.filterMap (fun e => if e.2.1.contains ls then some (lsBase ls + e.2.2.1, e.2.2.2) else none)

/-- The part of a range that lies in another. -/
def meetRange (a b : Nat × Nat) : Option (Nat × Nat) :=
  let lo := max a.1 b.1
  let hi := min (a.1 + a.2) (b.1 + b.2)
  if lo < hi then some (lo, hi - lo) else none

/-- The unguarded sectors of a lost stack from offset `lo` upwards are written poisoned, with one report and the events of R180 for each contiguous range that a segment maps (R183). -/
def State.losePlain (s : State) (ls lo : Nat) : State :=
  let rs := cutRanges [(lsBase ls + lo, 0x8_0000_0000 - lo)] (s.guardedOf ls)
  let told := (s.cmpts.flatMap (fun m => (s.mappedRanges m.1).flatMap (fun g => rs.filterMap (meetRange g)))).eraseDups
  let s := rs.foldl (fun s r => s.poisonRange r.1 r.2) s
  told.foldl (fun s r => (s.report 0x3001 0 (s.stack ls).die 0 (128 + ls) (r.2 / 32) (paOff r.1) r.2 0).poisonEvent ls (paOff r.1) (r.2 / 32)) s

/-- The state store of a lost stack is gone: its windows are marked lost and their destinations poisoned, guarded ones with parity upkeep, its queued commands end with WINDOW_LOST, and its counters and marks are at reset (R143). Events follow for what no range of R183 covers: guarded destinations, and those below `lo` (R180). -/
def State.loseStore (s : State) (ls lo : Nat) : State :=
  let s := s.modStack ls (fun t => { t with rebuilds := [], pois := [] })
  let plain := cutRanges [(lsBase ls + lo, 0x8_0000_0000 - lo)] (s.guardedOf ls)
  let s := (s.stack ls).wins.foldl (fun s w =>
    let a := lsBase ls + w.2.dst
    let n := 4 * w.2.count
    let s := (sectors a n).foldl (fun s k => s.ssuPoison w.2.owner k) s
    let s := s.report 0x400B 0 (s.stack ls).die 8 (128 + ls) ((n + 31) / 32) w.2.dst n (BitVec.ofNat 64 w.1)
    (cutRanges [(a, n)] plain).foldl (fun s r => s.poisonEvent ls (paOff r.1) ((r.2 + 31) / 32)) s) s
  let cmds := (s.stack ls).queues.flatMap (fun q => q.2.map (fun e => (q.1 / 4, e)))
  let s := cmds.foldl (fun s x => s.ssuEnd x.1 x.2 0x400B 0 0) s
  let s := s.modStack ls (fun t => { t with wins := t.wins.each (fun _ w => { w with lost := true }), cnt := [], staging := 0 })
  { s with marks := s.marks.filter (fun m => m.unit != .ssu ls) }

/-- The island of a tile is lost: its router with the packets it had accepted, and the stack's state store and data from the copy cursor upwards (R410). -/
def State.loseIsland (s : State) (d ls lo : Nat) : State :=
  let held := (s.router d).vcs.flatMap (fun v => v.2.map (fun p => (d, p)))
  let s : State := { s with flt := { s.flt with gone := s.flt.gone ++ held } }
  let s := s.modRouter d (fun r => { r with vcs := [] })
  (s.loseStore ls lo).losePlain ls lo

/-- The guarded sectors of a rebuilt stack from offset `lo` upwards: a sector whose stripe holds another poisoned sector cannot be rebuilt, one poisoned since the loss stays so, and every other takes what the rest of its stripe gives, zeros where it held poison; parity sectors are recomputed (R182, R183). -/
def State.rebuildAll (s : State) (ls lo : Nat) : State :=
  s.guarded.foldl (fun s g =>
    let (ms, b, l) := g.2
    if !ms.contains ls then s
    else (List.range (l / 32)).foldl (fun s k =>
      let off := b + 32 * k
      let sec := (lsBase ls + off) / 32
      if off < lo then s
      else match s.stripeOf ls off with
      | none => s
      | some (p, ms) =>
        if p = ls then s.recomputeParity g.2 off
        else
          let bad := ms.filter (fun m => m != ls && s.secPois ((lsBase m + off) / 32))
          if (s.stack ls).pois.contains (sec % 0x4000_0000) then s.recomputeParity g.2 off
          else if bad.isEmpty then
            let s := if s.secPois sec then s.wrSec (32 * sec) (List.replicate 32 0) else s
            s.modMem (s.stack ls).die (fun m => { m with recon := satAdd m.recon 1 })
          else ((ls :: bad.filter (· != p)).foldl (fun s m => s.lostData m off) s).recomputeParity g.2 off) s) s

/-! ### Fencing a tile (R405, R407 steps 1 to 3) -/

/-- A self-test under way is stopped by a tile fault elsewhere (R406, R419). -/
def State.stopBist (s : State) : State :=
  if s.flt.bist.busy || s.flt.bist.rotating then { s with flt := { s.flt with bist := { s.flt.bist with busy := false, rotating := false, rotPhase := 0, aborted := true } } } else s

/-- The caches of a die: dirty lines whose ECC checks are written back unless the island is lost, and the rest is reclaimed (R407 step 2). -/
def State.closeCaches (s : State) (d : Nat) (lost : Bool) (bad : List Nat) : State :=
  let lines := (unitsOf d).flatMap (fun u => (s.cache d u).lines.map (·.1))
  let s := if lost then s else (lines.filter (fun ln => !bad.contains ln)).foldl (fun s ln => s.settle (128 * ln) 128 true) s
  s.reclaim d

/-- Steps 1 to 3 of R407: the tile is fenced, its caches written back or reclaimed, its detour set installed and its links fenced (Table 10.5). -/
def State.fenceOne (s : State) (d : Nat) (reason : BitVec 8) (bad : List Nat) : State :=
  let lost := islandLost reason
  let s := s.modTile d (fun t => { t with faulted := true, reason := reason, islandUp := t.islandUp && !lost, rest := false })
  let s := s.setInv { s.inv with fenced := setBit s.inv.fenced (d - 1) true }
  let s := s.closeCaches d lost bad
  let s := (List.range 8).foldl (fun s i => s.freshCore d i) s
  let s := ((s.switchAll (s.setFor (tileElem d))).routeFence (tileElem d)).fenceLinksOf d
  let s := s.redist.portDown (d - 1) .disabled
  { s with bed := { s.bed with job := s.bed.job.map (fun j => { j with await := j.await.filter (· != d) }) } }

/-- The TILE_FAULT condition report. -/
def State.tileReport (s : State) (d : Nat) : State :=
  s.report 0x4015 (s.tile d).reason.toNat d 10 (match s.lsOf d with | some l => 128 + l | none => 0) 0 0 0 0

/-- With no usable reserve the tile's launches complete with TILE_LOST; the stack goes on being served, or is unserved (R415). -/
def State.noPromotion (s : State) (d : Nat) : State :=
  let mine (fn r : Nat) : Bool := match s.rankCore fn r with | some (x, _) => x == d | none => false
  let s : State := { s with cmpts := s.cmpts.each (fun fn m => { m with sq := m.sq.each (fun _ r => { r with descs := r.descs.map (fun e =>
    if dtype e.bytes == 1 && e.st == .running then ((e.going ++ e.left).filter (mine fn)).foldl (fun e k => e.rankEnd k 0x4010 0 0) e else e) }) }) }
  match s.lsOf d with
  | none => s
  | some l =>
    let t := s.tile d
    if t.islandUp && t.reason != 2 then s
    else
      let s := if t.islandUp then s else s.loseIsland d l 0
      let cmds := (s.stack l).queues.flatMap (fun q => q.2.map (fun e => (q.1 / 4, e)))
      let s := cmds.foldl (fun s x => s.ssuEnd x.1 x.2 0x3002 0 0) s
      let s := (s.stack l).intake.foldl (fun s x => s.outcome x.origin 0x3002 0 false) s
      let s := s.modStack l (fun t => { t with die := 0, mig := none, intake := [] })
      { s with flt := { s.flt with unserved := insNat s.flt.unserved l } }

/-! ### A second fenced element (R233) -/

/-- Dies that a link leads on to from those reached, past no fenced link and through no fenced die. -/
def State.reachStep (s : State) (l : List Nat) : List Nat :=
  (List.range 29).filter (fun d => l.contains d || (List.range (linkCount d)).any (fun k =>
    match neighbour d k with | some n => l.contains n && !invBit s.inv.fenced n && (s.link d k).st != .fenced | none => false))

/-- The tiles in service that no path joins to the hub. -/
def State.cutOff (s : State) : List Nat :=
  let l := (List.range 28).foldl (fun l _ => s.reachStep l) [0]
  (List.range 29).filter (fun d => (invBit s.inv.active d || invBit s.inv.reserve d) && !invBit s.inv.fenced d && !l.contains d)

/-- Edges of the channel dependency graph of the union of a set with the base set and the active one, by link direction 8 * die + link (R231 to R233). -/
def State.unionEdges (s : State) (active set : Nat) : List (Nat × Nat) :=
  let opts (d t : Nat) : List Nat := ([s.routeIn set d t, s.baseEntry d t, s.routeIn active d t].filterMap escLink).dedup
  ((List.range 29).flatMap (fun d => (List.range 33).flatMap (fun t =>
    if t = d then [] else (opts d t).flatMap (fun l => match neighbour d l with
      | none => []
      | some n => if 29 ≤ n ∨ n = t then [] else (opts n t).map (fun l' => (8 * d + l, 8 * n + l')))))).dedup

/-- Whether the detour entries held as set 255 may be installed: their union with the active set has no cycle, and no entry leads through a graft site to another die (R15, R233). -/
def State.pairOk (s : State) (active : Nat) : Bool :=
  (cycleNode (s.unionEdges active 255)).isNone &&
    (s.detours.look 255 (0, [])).2.all (fun e => (entryLinks e.2.2).all (fun l => match neighbour e.1 l with | some n => !isGraft n || n == e.2.1 | none => true))

/-- A second fenced element while a detour set is active: the set derived for the pair is installed when its union with the active set is acyclic; otherwise every die that the pair cuts off is fenced, its stack out of reach. The replacement request stands in either case (R233, Table 20.4). -/
def State.pairRoutes (s : State) : State :=
  match s.flt.routeFenced.reverse with
  | b :: a :: _ =>
    let try_ (es : List (Nat × Nat × BitVec 16)) : Option State :=
      let t : State := { s with detours := s.detours.put 255 (0xFFFF, es) }
      if t.pairOk (s.setFor a) then some t else none
    match (Config.pairSet s.base a b).bind try_ with
    | some t => t.switchAll 255
    | none => s.cutOff.foldl (fun s d => ((s.fenceOne d 8 []).tileReport d).noPromotion d) s
  | _ => s

/-- What follows a change that may have fenced an element. -/
def State.afterFence (old s : State) : State :=
  if old.flt.routeFenced.length < s.flt.routeFenced.length ∧ 2 ≤ s.flt.routeFenced.length then s.pairRoutes else s

/-- A tile fenced, with what follows when another element is fenced already. -/
def State.fenceTile (s : State) (d : Nat) (reason : BitVec 8) (bad : List Nat) : State := s.afterFence (s.fenceOne d reason bad)

/-- LINK_TRAINING_END (R239). -/
def execLinkTrainingEnd (die link offered peer : Nat) (spares : BitVec 32) (rate : Nat) (s : State) : Res :=
  onDo s (fun s => if linkAt die link then s.afterFence (s.trainEnd die link offered peer spares rate) else s)

/-- The reserve tile takes its first steps as the server of a stack: its stack leaves self-refresh (R184). -/
def State.wakeReserve (s : State) (r : Nat) : State := s.modTile r (fun t => { t with rest := false, mem := { t.mem with status := setBit t.mem.status 1 false } })

/-- Step 4 of R407 begins: the nearest usable reserve takes the stack; without one the tile stays fenced. -/
def State.promote (s : State) (d : Nat) : State :=
  match s.lsOf d with
  | none => s.tileReport d
  | some l =>
    match s.nearestReserve d with
    | none => (s.tileReport d).noPromotion d
    | some r =>
      let lost := !(s.tile d).islandUp
      let s := if lost then s.loseIsland d l 0 else s
      let s := s.modStack l (fun t => { t with die := r, mig := some { src := d, dst := r, rebuild := lost } })
      let s : State := { s with flt := { s.flt with die := d, step := 4 } }
      (s.wakeReserve r).reserveCheck

/-- A tile's fault during a stack copy that it takes part in. Its island may fail while a promotion copies from it: the sectors from the cursor upwards are lost (R409). As the destination of a planned move it leaves the source serving; as its source it turns the move into a promotion, whose copy below the cursor stands. -/
def State.copyFault (s : State) (d ls : Nat) (m : Migration) (reason : BitVec 8) (bad : List Nat) : State :=
  let lost := islandLost reason
  if m.planned && m.dst == d then ((s.modStack ls (fun t => { t with die := m.src, mig := none })).fenceTile d reason bad).stopBist.tileReport d |>.reserveCheck
  else if m.planned then
    let s := (s.fenceTile d reason bad).stopBist
    let s := if lost then s.migAdvance else s
    let cur := match (s.stack ls).mig with | some m => m.cursor | none => 0
    let s := if lost then s.loseIsland d ls cur else s
    let s := s.modStack ls (fun t => { t with mig := some { m with planned := false, retire := false, rebuild := lost, cursor := cur, handed := false } })
    { s with flt := { s.flt with die := d, step := 4 } }
  else if lost && (s.tile d).islandUp then
    let s := s.migAdvance
    let cur := match (s.stack ls).mig with | some m => m.cursor | none => 0
    let s := s.modTile d (fun t => { t with islandUp := false, reason := reason })
    let s := (s.loseIsland d ls cur).modStack ls (fun t => { t with mig := some { m with cursor := cur, rebuild := true } })
    if m.handed then s.rebuildAll ls cur else s
  else s

/-- A tile fault (R405 to R407): an active tile is fenced and replaced, a reserve tile is fenced. -/
def State.tileFault (s : State) (d : Nat) (reason : BitVec 8) (bad : List Nat) : State :=
  if !isTileDie d || reason == 0 || decide (9 < reason.toNat) then s
  else match s.stk.find? (fun t => match t.2.mig with | some m => m.src == d || (m.planned && m.dst == d) | none => false) with
    | some (l, t) => (match t.mig with | some m => s.copyFault d l m reason bad | none => s)
    | none =>
      if invBit s.inv.fenced d || !(invBit s.inv.active d || invBit s.inv.reserve d || (s.lsOf d).isSome) then s
      else
        let s := (s.fenceTile d reason bad).stopBist
        if (s.lsOf d).isNone then (s.tileReport d).reserveCheck else s.promote d

/-- TILE_FAULT: the tile agent's reason and the lines of the tile's caches whose ECC does not check (R405). -/
def execTileFault (die : Nat) (reason : BitVec 8) (bad : List Nat) (s : State) : Res := upDo s (fun s => s.tileFault die reason bad)

/-- A fault of a die that no row of Table 20.2 names: the hub's is outside the promise, a tile's gives a reason the spec leaves open among those of Table 20.2 (log 4), and a graft site is fenced for a malformed header (R225, R228, R401). -/
def State.dieFault (s : State) (d : Nat) : State :=
  if d = 0 then s.fatal
  else if isTileDie d then let (t, s) := s.draw; s.tileFault d (BitVec.ofNat 8 (1 + t % 9)) []
  else if isGraft d then s.fenceSite (d - 29) 0x16
  else s

/-- ROUTER_ARRIVAL: a router that drops a packet for its header reports a fault of its own die, outside the promise; a packet for no unit goes to the Curator as a fault of its source (R225, R228, R401). -/
def execRouterArrival (n flips : Nat) (s : State) : Res :=
  upDo s (fun s => match s.routerArrival n flips with
    | (s, none) => s
    | (s, some d) => if 2 ≤ flips then ((s.report 0x4015 0 d 0 0 0 0 0 0).dieFault d).fatal else s.dieFault d)

/-- CORE_ERROR: `unit` is the engine 0 to 3, shaping unit 4, mover 5 or control processor 6; `again` says that an earlier error of the unit lies less than 24 hours back (R404). -/
def execCoreError (die core unit : Nat) (again : Bool) (s : State) : Res :=
  upDo s (fun s =>
    if !isTileDie die || decide (8 ≤ core) || decide (7 ≤ unit) || !invBit s.inv.active die || invBit s.inv.fenced die then s
    else
      let n := if again then (s.core die core).errs.look unit 0 else 0
      let s := s.modCore die core (fun c => { c with errs := c.errs.put unit (n + 1) })
      let s := s.modTile die (fun t => { t with unitErrs := t.cores.foldl (fun n c => c.2.errs.foldl (fun n e => n + e.2) n) 0 })
      if n = 0 then s.coreFault die core unit else s.tileFault die 1 [])

/-- SNOOP_LIMIT_MISS: a tile is fenced with reason SNOOP_LIMIT, a graft site is fenced, the hub's miss is a fault outside the promise; the agent is reclaimed (R198). -/
def execSnoopLimitMiss (die : Nat) (s : State) : Res :=
  upDo s (fun s =>
    if die = 0 then s.fatal
    else if isTileDie die then s.tileFault die 4 []
    else if isGraft die then s.fenceSite (die - 29) 0x13
    else s)

/-! ### Hand-over, copy and their ends (R139, R142, R407 steps 4 to 7, R409, R419) -/

/-- The settings of the plan in force for a die that serves in another's place. -/
def State.installFor (s : State) (d : Nat) : State :=
  if s.bed.inForce then (s.installQos s.bed.plan d true).installDeadlines s.bed.plan d else s

/-- Live agents, by die (R207). -/
def State.liveDies (s : State) : List Nat :=
  0 :: (((List.range 29).filter (fun d => invBit s.inv.active d && !invBit s.inv.fenced d)) ++
    ((List.range 4).filter (fun k => (s.site k).st == .admitted && bit (s.site k).proto 2)).map (· + 29))

/-- One die in another's place: placements and inventory (R262, R407 step 6); `fenced` keeps the old die out of reserve. -/
def State.standIn (s : State) (d r : Nat) (fenced : Bool) : State :=
  let s : State := { s with flt := { s.flt with place := s.flt.place ++ [(d, r)] } }
  let s := s.setInv { s.inv with
    active := setBit (setBit s.inv.active (d - 1) false) (r - 1) true
    reserve := setBit (setBit s.inv.reserve (r - 1) false) (d - 1) (!fenced) }
  s.installFor r

/-- The records of a promotion: BED_SUBST, TILE_PROMOTED and a condition report (R407 step 6). -/
def State.promoted (s : State) (d r ls : Nat) : State :=
  let s : State := { s with bed := { s.bed with subst := s.bed.subst ++ [(d, r)] } }
  (s.event 0 0x00C0 0 (BitVec.ofNat 64 (d + 256 * r + 65536 * ls))).report 0x4015 (s.tile d).reason.toNat d 10 (128 + ls) 0 0 0 0

/-- HANDOVER_DONE: the reserve SSU serves the stack; after a fault the interrupted launches run again and the records are written. The guarded sectors of a lost island are rebuilt first, and its home then recovers its directory (R142, R183, R207, R407). -/
def execHandoverDone (ls : Nat) (s : State) : Res :=
  upDo s (fun s =>
    match (s.stack ls).mig with
    | none => s
    | some m =>
      if m.handed then s
      else
        let s := s.modStack ls (fun t => { t with
          mig := some { m with handed := true }
          queues := t.queues.each (fun _ q => q.map SsuCmd.restarted) })
        let s := if m.rebuild then s.rebuildAll ls m.cursor else s
        let s := if m.rebuild then s.recoverHome ls (s.liveDies.filter (· != m.src)) else s
        if m.planned then s
        else
          let s := s.requeue (fun fn r => match s.rankCore fn r with | some (x, _) => x == m.src | none => false)
          let s := (List.range 8).foldl (fun s i => (s.freshCore m.dst i).handCounters m.src i m.dst) s
          let s := (s.standIn m.src m.dst true).promoted m.src m.dst ls
          { s.startReplays with flt := { s.startReplays.flt with die := m.src, step := 7 } })

/-- RECOVERY_DONE: the promotion's copy or rebuild has ended; the old island is powered off (R407 step 7, R410). -/
def execRecoveryDone (ls : Nat) (s : State) : Res :=
  upDo s (fun s =>
    match (s.stack ls).mig with
    | none => s
    | some m =>
      if m.planned || !m.handed then s
      else
        let s := (s.modStack ls (fun t => { t with mig := none })).modTile m.src (fun t => { t with islandUp := false, vdd := if m.rebuild then 0 else t.vdd })
        let s : State := if s.flt.die = m.src then { s with flt := { s.flt with die := 0, step := 0 } } else s
        s.event 0 0x00C4 0 0)

/-- Bytes and poison of a range moved to another, the old one left at zero. -/
def State.moveRange (s : State) (a b n : Nat) : State :=
  ((List.range (n / 32)).foldl (fun s k =>
    if s.secPois (a / 32 + k) then s.poisonSec (b / 32 + k) else s.wrSec (b + 32 * k) (s.rd (a + 32 * k) 32)) s).zeroRange a n

/-- The idle cores of a tile moved to another with their stores, scratch, engine state and records (R419 step 2). -/
def State.moveCores (s : State) (d r : Nat) : State :=
  (List.range 8).foldl (fun s i =>
    let c := s.core d i
    let s := s.modCore r i (fun _ => c)
    let s := (s.moveRange (storeBase d i) (storeBase r i) 0x80_0000).moveRange (scratchBase d i) (scratchBase r i) 0x4_0000
    let s : State := if s.snaps.has (8 * d + i) then { s with snaps := (s.snaps.del (8 * d + i)).put (8 * r + i) (s.snaps.look (8 * d + i) {}) } else s
    s.freshCore d i) s

/-- Whether every core of a tile is between launches. -/
def State.coresIdle (s : State) (d : Nat) : Bool := (List.range 8).all (fun i => (s.core d i).run.isNone && (s.core d i).queues.all (fun q => q.2.isEmpty))

/-- A tile that has given its stack back is held in reserve: caches empty, stack in self-refresh (R184). -/
def State.intoReserve (s : State) (d : Nat) : State :=
  (s.closeCaches d false []).modMem d (fun m => { m with status := setBit m.status 1 true })

/-- A MIGRATE descriptor whose copy has ended completes. -/
def State.migrateEnds (s : State) (ls : Nat) : State :=
  ((s.stack ls).queues.flatMap (fun q => (q.2.filter (fun e => e.op == 0x0D && e.st == .running)).map (fun e => (q.1 / 4, e)))).foldl
    (fun s x => s.ssuEnd x.1 x.2 0 0 0) s

/-- MIGRATE_COPY_DONE: the copy of a planned move has ended and the tile's cores are between launches. The ranks move; the old tile is fenced when it retires, tested when it rotates out, or returns to reserve (R139, R409, R414, R419). -/
def execMigrateCopyDone (ls : Nat) (s : State) : Res :=
  upDo s (fun s =>
    match (s.stack ls).mig with
    | none => s
    | some m =>
      if !m.planned || !m.handed || !s.coresIdle m.src then s
      else
        let b := s.flt.bist
        let s := (s.moveCores m.src m.dst).modStack ls (fun t => { t with mig := none })
        let s := s.wakeReserve m.dst
        if m.retire then
          let s := (s.fenceTile m.src 0 []).standIn m.src m.dst true
          let s := (s.promoted m.src m.dst ls).modTile m.src (fun t => { t with islandUp := false })
          let s : State := if s.flt.ceHolds = m.src then { s with flt := { s.flt with ceHolds := 0 } } else s
          (s.event 0 0x00C4 0 0).reserveCheck
        else
          let s := (s.intoReserve m.src).standIn m.src m.dst false
          if b.rotating && b.die == m.src then
            ({ s with flt := { s.flt with bist := { b with busy := true, rotPhase := 3 } } } : State).reserveCheck
          else if b.rotating && b.die == m.dst then
            { s with flt := { s.flt with
                place := s.flt.place.filter (fun e => !(e.1 == m.dst || e.1 == m.src) || s.bed.subst.contains e)
                bist := { b with rotating := false, rotPhase := 0 } } }
          else (s.migrateEnds ls).reserveCheck)

/-- TXN_TIMEOUT: CUR_TXN_TIMEOUT has passed since the broadcast of a die's death. Every transaction lost with its router, and every access of a control processor still waiting for a stack it served, completes with TXN_LOST (R410). -/
def execTxnTimeout (die : Nat) (s : State) : Res :=
  upDo s (fun s =>
    if !isTileDie die || (s.tile die).islandUp then s
    else
      let mine := s.flt.gone.filter (fun g => g.1 == die)
      let s : State := { s with flt := { s.flt with gone := s.flt.gone.filter (fun g => g.1 != die) } }
      let s := mine.foldl (fun s g => s.txnEnd (pkSrc g.2.header) (pkSrcPort g.2.header) (pkClass g.2.header) (pkPrio g.2.header)) s
      let toward (c va : Nat) : Bool := match s.cpPlace c va true with
        | .phys a => inStacks a && (s.flt.unserved.contains (paLs a) || (match (s.stack (paLs a)).mig with | some m => m.src == die && m.rebuild | none => false))
        | _ => false
      ((List.range 29).drop 1).foldl (fun s d => (List.range 8).foldl (fun s i =>
        let c := s.coreCmpt d i
        match (s.core d i).pload, (s.core d i).pstore with
        | some p, _ => if toward c p.va then s.endKernel d i 0x4011 (BitVec.ofNat 64 p.va) else s
        | _, some p => if toward c p.va then s.endKernel d i 0x4011 (BitVec.ofNat 64 p.va) else s
        | _, _ => s) s) s)

/-! ### Curators (R393, R396, R411) -/

/-- The active Curator has failed: an activation under way is abandoned with its slot still staged, a trial falls back, and the standby takes over. With no standby the fault lies outside the promise. -/
def State.curatorFail (s : State) : State :=
  if !s.flt.standby then s.fatal
  else
    let s := s.takeover
    match s.upd.phase with
    | .swapping => ({ s with upd := { s.upd with phase := .staged } } : State).releaseHeld
    | .trial => s.fallBack 4
    | _ => s

/-- HEARTBEAT_MISS (R411). -/
def execHeartbeatMiss (s : State) : Res := upDo s (fun s => s.curatorFail)

/-- LOCKSTEP_ERROR (R411). -/
def execLockstepError (s : State) : Res := upDo s (fun s => s.curatorFail)

/-- STANDBY_RESTORED: the failed Curator has passed its test and returns as standby, and STANDBY_LOST clears (R411; DEDUCED, log 32, beside R413, which leaves the other bits of CUR_REPLACE set). -/
def execStandbyRestored (s : State) : Res := upDo s (fun s => { s with flt := { s.flt with standby := true, replace := setBit s.flt.replace 2 false } })

/-! ### Self-test (R416 to R419) -/

/-- Whether packets between other dies pass through a die: not once it is fenced (R407 step 3, R416). -/
def State.carriesTransit (s : State) (d : Nat) : Bool :=
  !invBit s.inv.fenced d && (s.base.isEmpty || (List.range 29).any (fun x =>
    x != d && (List.range 33).any (fun t => t != d && t != x && (match escLink (s.route x t) with | some l => neighbour x l == some d | none => false))))

/-- Whether a die may be tested: a reserve tile, a fenced tile with its island, or one freed by rotation, with no stack to serve (R416). -/
def State.testable (s : State) (d : Nat) : Bool :=
  isTileDie d && ((invBit s.inv.reserve d && (s.lsOf d).isNone) || (invBit s.inv.fenced d && (s.tile d).islandUp) || (s.flt.bist.rotating && s.flt.bist.die == d))

/-- Whether a block mask names the router, the fabric engine or the HBM controller of a die that carries transit or serves a stack (R416). -/
def State.blocksDenied (s : State) (d : Nat) (mask : BitVec 16) : Bool := bits mask 12 10 != 0 && (s.carriesTransit d || (s.lsOf d).isSome)

/-- The code of a self-test command, and with code zero the test it starts. -/
def State.bistCode (s : State) (code : BitVec 16) : State := { s with flt := { s.flt with bist := { s.flt.bist with code := code } } }

/-- CUR_BIST_CMD (R416, Table 20.7). -/
def execCurBistCmd (port : Port) (val : BitVec 64) (s : State) : Res :=
  upDo s (fun s =>
    if port != .pf && port != .mgmt then s.portDenied port 0xE4_0100
    else if !bit val 63 then s
    else
      let d := bits val 37 32
      let mask := BitVec.ofNat 16 (bits val 12 0)
      if s.flt.bist.busy || s.flt.bist.rotating then s.bistCode 0x4013
      else if !s.testable d || s.blocksDenied d mask then s.bistCode 0x4012
      else { s with flt := { s.flt with bist := { busy := true, kind := bit val 62, die := d, mask := mask, patterns := bits val 31 16 } } })

/-- Step 1 of a return: the stack goes back to the tile that passed its test. -/
def State.rotateBack (s : State) (d : Nat) : State :=
  match s.stk.find? (fun t => s.flt.place.getLast? == some (d, t.2.die)) with
  | some (l, t) => s.modStack l (fun x => { x with die := d, mig := some { src := t.die, dst := d, planned := true } })
  | none => s

/-- A tile that failed its test stays fenced; the reserve keeps the stack and the ranks of a tile rotated out, as a promotion does (R418, R419 step 4). -/
def State.bistFailed (s : State) (d : Nat) : State :=
  let s := if invBit s.inv.fenced d then s.modTile d (fun t => { t with faulted := true, reason := 7 }) else (s.fenceTile d 7 []).tileReport d
  if s.flt.bist.rotating then
    match s.flt.place.getLast? with
    | some (x, r) =>
      let s := s.setInv { s.inv with reserve := setBit s.inv.reserve (d - 1) false }
      let s : State := { s with flt := { s.flt with bist := { s.flt.bist with rotating := false, rotPhase := 0 } } }
      if x = d then s.promoted d r ((s.lsOf r).getD 0) else s
    | none => s
  else s

/-- BIST_DONE: `results` holds, block by block, the signature or the failing words and the first of them. A block passes with the firmware's signature, or with no failing word (R417, R418). -/
def execBistDone (results : List Nat) (s : State) : Res :=
  upDo s (fun s =>
    let b := s.flt.bist
    if !b.busy then s
    else
      let res := (List.range 13).map (fun k => (k, BitVec.ofNat 64 (results[k]?.getD 0)))
      let good (k : Nat) (v : BitVec 64) : Bool :=
        if b.kind then bits v 63 32 == 0 else v == Config.bistSignature (s.router b.die).idType.toNat k b.patterns
      let named := res.filter (fun e => bit b.mask e.1)
      let pass := BitVec.ofNat 16 ((named.filter (fun e => good e.1 e.2)).foldl (fun n e => n + 2 ^ e.1) 0)
      let s : State := { s with flt := { s.flt with bist := { b with busy := false, done := b.mask, pass := pass, result := named } } }
      let s := s.event 0 0x00C2 0 (BitVec.ofNat 64 (b.die + 65536 * pass.toNat))
      let s := (List.range 8).foldl (fun s i => s.freshCore b.die i) s
      if pass ≠ b.mask then (s.bistFailed b.die).reserveCheck
      else if b.rotating then s.rotateBack b.die else s)

/-- CUR_ROTATE: an active tile's stack moves to the nearest usable reserve; the test follows the move (R419). The pattern count of its logic test is not stated: a free value (log 4). -/
def execCurRotate (port : Port) (val : BitVec 64) (s : State) : Res :=
  upDo s (fun s =>
    if port != .pf && port != .mgmt then s.portDenied port 0xE4_0118
    else if !bit val 63 then s
    else
      let d := bits val 37 32
      let mask := BitVec.ofNat 16 (bits val 12 0)
      if s.flt.bist.busy || s.flt.bist.rotating then s.bistCode 0x4013
      else if (s.nearestReserve d).isNone || !invBit s.inv.active d || invBit s.inv.fenced d || (s.lsOf d).isNone
          || (match s.lsOf d with | some l => (s.stack l).mig.isSome | none => true) || (bits mask 12 10 != 0 && s.carriesTransit d) then s.bistCode 0x4012
      else
        let (t, s) := s.draw
        let s := s.planMove d false
        { s with flt := { s.flt with bist := { rotating := true, kind := bit val 62, die := d, mask := mask, patterns := t % 65536, rotPhase := 1 } } })

end Sys2Proof.Machine
end

