-- ==== Sys2Proof/Machine/Power.lean ====
section
/-! DEFINITION. Power, clocks and start-up: resets and the boot sequence, reference clocks, rest and deep rest, throttling and the thermal trip (R241, R242, R420 to R436). -/

namespace Sys2Proof.Machine

/-! ### Resets (R427, R428, Table 21.3) -/

/-- A cold (0) or warm (1 PERST_N, 2 Hot Reset) reset: everything volatile is wiped, the reference is selected afresh, the cause recorded and start-up begun; an open life-cycle transition is taken up (R379, R424, R427). REFCLK_SINGLE holds while a reference is out of tolerance, and a lost one that a warm reset finds good still counts as lost until its second has passed (Table 20.4). -/
def State.resetBegin (s : State) (kind : Nat) (a b : Bool) : State :=
  let n := s.wiped
  let p := n.pwr
  let cause := BitVec.ofNat 64 (kind + 256 * b2n p.tripLog)
  ({ n with
      pwr := { p with
        cold := kind == 0, refA := a, refB := b, selB := !a, cause := cause, tripLog := false
        switches := if kind = 0 then 0 else p.switches }
      flt := { n.flt with refHolds := !(a && b) || (kind != 0 && s.flt.refHolds) } } : State).lcResume

/-- PWR_OK_RISE: a cold reset. `a` and `b` say which reference lies within its tolerance; `strap` is STO_BIF (R420, R424, Table 14.11). -/
def execPwrOkRise (a b : Bool) (strap : BitVec 2) (s : State) : Res :=
  .next (
    if s.pwr.ok then s
    else ({ s with pwr := { s.pwr with ok := true }, sto := { s.sto with bifur := strap } } : State).resetBegin 0 a b)

/-- PERST_N: it falls and stays low for at least 100 µs, a warm reset; one that was low when PWR_OK rose is part of the cold reset and causes no other (R427, R440). -/
def execPerstN (a b : Bool) (s : State) : Res :=
  onDo s (fun s => if s.pwr.perstN then ({ s with pwr := { s.pwr with perstN := false } } : State).resetBegin 1 a b else s)

/-- PERST_N_RISE: the host link trains (Table 22.3). -/
def execPerstNRise (s : State) : Res :=
  onDo s (fun s => { s with pwr := { s.pwr with perstN := true }, pci := { s.pci with up := true } })

/-- HOT_RESET: a Hot Reset or Disable Link on a trained host link, a warm reset. -/
def execHotReset (a b : Bool) (s : State) : Res :=
  onDo s (fun s => if s.pwr.perstN then s.resetBegin 2 a b else s)

/-- PWR_OK_FALL: every output but THERM_N is inactive and GFT_RESET_N is asserted at every site (R420). -/
def execPwrOkFall (s : State) : Res :=
  .next { s with
    pwr := { s.pwr with ok := false, alert := false }
    sites := ((List.range 4).map (fun k => (k, { s.site k with resetN := false })) : Tab Site) }

/-- POWER_LOSS: everything volatile is gone (R421). -/
def execPowerLoss (s : State) : Res :=
  .next (
    let n := s.wiped
    { n with pwr := { n.pwr with ok := false }, flt := { n.flt with boots := s.flt.boots } })

/-! ### Start-up (R429, Table 21.4) -/

/-- A slot that the ROM may boot: CONFIRMED, its bundle passing steps 3 to 5 of R389 and its Curator component's tag (R387; the factory image's bundle is not in the state, log 3). -/
def State.bootable (s : State) (k : Nat) : Bool :=
  let x := s.upd.slots.look k {}
  x.st == .confirmed && decide (s.upd.rollback ≤ x.sec) && (x.image.isEmpty || (bunSigned x.image && s.bunBound x.image && (bunEntries x.image).all (fun e => entType e != 1 || bunOpens x.image e)))

/-- Step 3: the active slot, or the other one, is loaded and both Curators run it; an interrupted raise of the counter is completed (R395). With no slot good, the ROM serves recovery (R398). -/
def State.bootSlot (s : State) : State :=
  let k := if s.bootable s.upd.active then some s.upd.active else if s.bootable s.spare then some s.spare else none
  match k with
  | none => { s with pwr := { s.pwr with recovery := true }, upd := { s.upd with phase := .recovery }, pci := { s.pci with retry := false } }
  | some k =>
    let x := s.upd.slots.look k {}
    let u := x.versions.look 2 0
    { s with
      pwr := { s.pwr with bootStep := 4 }
      upd := { s.upd with active := k, rollback := max s.upd.rollback x.sec, versions := x.versions }
      fab := { s.fab with version := x.fab }
      flt := { s.flt with standby := true }
      stk := if u = 0 then s.stk else (List.range 32).map (fun l => (l, { s.stack l with ucode := u })) }

/-- Dies present: active or reserve tiles that are not fenced. -/
def State.present (s : State) : List Nat := (List.range 29).filter (fun d => (invBit s.inv.active d || invBit s.inv.reserve d) && !invBit s.inv.fenced d)

/-- A die that the compatibility matrix does not hold is fenced and reported; any other takes its errata settings (R241). -/
def State.matchDie (s : State) (d : Nat) : State :=
  match Config.compat (bits (s.router 0).idType 15 8) (s.router d).idType.toNat with
  | some e => s.modRouter d (fun r => { r with errata := e })
  | none =>
    let s := s.modTile d (fun t => { t with faulted := true })
    let s := s.setInv { s.inv with fenced := setBit s.inv.fenced (d - 1) true }
    let s := (({ s with flt := { s.flt with incompat := s.flt.incompat ++ [d] } } : State).report 0x5105 0 d 0 0 0 0 0 0).event 0 0x5105 0 (BitVec.ofNat 64 d)
    s.replaceCause 4

/-- The hub's own errata settings from the matrix (R241, Table 10.6). -/
def State.hubErrata (s : State) : State :=
  match Config.compat (bits (s.router 0).idType 15 8) (s.router 0).idType.toNat with
  | some e => s.modRouter 0 (fun r => { r with errata := e })
  | none => s

/-- The revision floor (R242). -/
def State.revFloor (s : State) : BitVec 64 := s.present.foldl (fun f d => f &&& (s.router d).feat) (s.router 0).feat

/-- A mesh link between two present dies that no training has brought up yet is up at its full width, at 32 GT/s when the floor allows it and 24 GT/s otherwise. -/
def State.trainMesh (s : State) : State :=
  let here := 0 :: s.present
  let rate := if bit (s.router 0).revFloor 0 then 3 else 2
  here.foldl (fun s d => (List.range (linkCount d)).foldl (fun s l =>
    match neighbour d l with
    | some n => if here.contains n && (s.link d l).st == .down then s.linkUp d l (s.fullWidth d l) rate else s
    | none => s) s) s

/-- Step 4: identity, errata, the revision floor and the mesh. -/
def State.bootMesh (s : State) : State :=
  let s := s.present.foldl State.matchDie s.hubErrata
  let f := s.revFloor
  let s := s.modRouter 0 (fun r => { r with revFloor := f })
  let s := s.trainMesh.redist
  { s with pwr := { s.pwr with bootStep := 5, hubMesh := 2000 } }

/-- The range of VDD_Tn for a tile arithmetic clock, in mV (Table 21.6); below the floor the range of Table 21.1. -/
def vddRange (mhz : Nat) : Nat × Nat :=
  if mhz = 1200 then (760, 800) else if mhz = 1150 then (740, 800) else if mhz = 1100 then (720, 780)
  else if mhz = 1050 then (700, 760) else if mhz = 1000 then (650, 740) else (650, 800)

/-- VDD_Tn set to the lowest voltage at which the tile's monitors pass: a free value in steps of 5 mV within its range (R422, R432, log 4). -/
def State.setVdd (s : State) (d : Nat) : State :=
  let (t, s) := s.draw
  let r := vddRange (s.tile d).arith
  s.modTile d (fun x => { x with vdd := r.1 + 5 * (t % ((r.2 - r.1) / 5 + 1)) })

/-- Step 5: stacks trained, those of reserve tiles in self-refresh, and every tile at its operating point (R184, R432). -/
def State.bootStacks (s : State) : State :=
  let one (s : State) (d : Nat) : State :=
    let st := BitVec.ofNat 64 (1 + 2 * b2n (invBit s.inv.reserve d) + 256 * bits s.inv.bin 7 0)
    (s.modTile d (fun t => { t with arith := 1200, mesh := 2000, mem := { t.mem with status := st } })).setVdd d
  let s := s.present.foldl one s
  { s with pwr := { s.pwr with bootStep := 6 } }

/-- Routes around the tiles that stay fenced (R232). -/
def State.bootFences (s : State) : State :=
  s.afterFence (((List.range 29).filter (fun d => invBit s.inv.fenced d)).foldl (fun s d =>
    let s := (s.switchAll (s.setFor (tileElem d))).routeFence (tileElem d)
    (List.range (linkCount d)).foldl (fun s l => if (neighbour d l).isSome then s.modLinks d l (fun k => { k with st := .fenced }) else s) s) s).redist

/-- Step 6 ends and step 7 begins: an open EH1608 erase is completed, then the persisted plan and its amendments are loaded; accession runs with them (R268, R340, R384). -/
def State.bootPlan (s : State) : State :=
  let s := if s.auth.eraseIntent then s.ehErase else s
  let s := s.bedBoot.bootFences
  { s with pwr := { s.pwr with bootStep := 7 } }

/-- Step 7 ends when no accession is under way; a site that accession never reached holds no chiplet. -/
def State.bootSites (s : State) : State :=
  if !s.pwr.perstN || s.sites.any (fun x => x.2.st == .accession || x.2.drain) then s
  else
    let s := (List.range 4).foldl (fun s k => if (s.site k).st == .empty then s.modSite k (fun x => { x with resetN := true }) else s) s
    { s with pwr := { s.pwr with bootStep := 8 } }

/-- Step 8: Retry Status ends, replacement causes that hold are set, and the PF hears what happened before (R6, R378, R396, R413). -/
def State.bootEnd (s : State) (ms : Nat) : State :=
  let (t, s) := s.draw
  let s : State := { s with
    pwr := { s.pwr with bootStep := 0, bootMs := BitVec.ofNat 64 (ms % 65536) }
    pci := { s.pci with retry := false }
    fab := { s.fab with inc := BitVec.ofNat 32 t }
    flt := { s.flt with replace := (List.range 6).foldl (fun r b => if s.causeHolds b then setBit r b true else r) s.flt.replace } }
  let s := s.auth.notes.foldl (fun s n => s.event 0 n.1 0 (BitVec.ofNat 64 n.2)) s
  { s with auth := { s.auth with notes := [] } }

/-- BOOT_STEP_DONE: the step that runs ends and the next begins; `ms` is the time from step 1 to the end of step 8. The ROM needs a reference, an open life-cycle transition comes first, and a scrapped device starts nothing more (R375, R379, R424, R429). -/
def execBootStepDone (ms : Nat) (s : State) : Res :=
  onDo s (fun s =>
    if s.auth.lcStep ≠ 0 ∨ s.pwr.recovery then s
    else match s.pwr.bootStep with
      | 1 =>
        if (!s.pwr.refA && !s.pwr.refB) || s.lcState == 4 then s
        else { s with pwr := { s.pwr with bootStep := if s.pwr.cold then 2 else 3 }, pci := { s.pci with up := s.pwr.perstN } }
      | 2 => { s with pwr := { s.pwr with bootStep := 3 } }
      | 3 => s.bootSlot
      | 4 => s.bootMesh
      | 5 => s.bootStacks
      | 6 => s.bootPlan
      | 7 => s.bootSites
      | 8 => s.bootEnd ms
      | _ => s)

/-! ### Reference clocks (R424) -/

/-- REFCLK_LOSS: reference A, or B when `b`, is lost. One lost reference raises REFCLK_SINGLE (Table 20.4). When it was selected and the other is good, the device also switches and reports it; with both lost THERM_N and ALERT_N are asserted. -/
def execRefclkLoss (b : Bool) (s : State) : Res :=
  onDo s (fun s =>
    let s : State := { s with pwr := if b then { s.pwr with refB := false } else { s.pwr with refA := false } }
    if !s.pwr.refA && !s.pwr.refB then { s with pwr := { s.pwr with therm := true, alert := true } }
    else if s.pwr.selB != b then ({ s with flt := { s.flt with refHolds := true } } : State).replaceCause 3
    else
      let s : State := { s with pwr := { s.pwr with selB := !b, switches := s.pwr.switches + 1 }, flt := { s.flt with refHolds := true } }
      let s := (s.report 0x4018 0 0 0 0 0 0 0 0).replaceCause 3
      s.event 0 0x00D1 0 (BitVec.ofNat 64 (b2n (!b))))

/-- REFCLK_GOOD_TIMER: a lost reference has been good for 1 s; REFCLK_SINGLE no longer holds. The device does not switch back. -/
def execRefclkGoodTimer (b : Bool) (s : State) : Res :=
  onDo s (fun s =>
    let s : State := { s with pwr := if b then { s.pwr with refB := true } else { s.pwr with refA := true } }
    if s.pwr.refA && s.pwr.refB then { s with flt := { s.flt with refHolds := false } } else s)

/-! ### Rest and deep rest (R430, R431, Table 21.5) -/

/-- No core, SSU command or mover is active on a tile. -/
def State.tileIdle (s : State) (d : Nat) : Bool :=
  s.coresIdle d && (match s.lsOf d with
    | some l => (s.stack l).intake.isEmpty && (s.stack l).mig.isNone && (s.stack l).queues.all (fun q => q.2.all (fun e => e.st != .running))
    | none => true)

/-- REST_ENTRY: 100 µs without activity. -/
def execRestEntry (die : Nat) (s : State) : Res :=
  upDo s (fun s => if invBit s.inv.active die && !invBit s.inv.fenced die && s.tileIdle die then s.modTile die (fun t => { t with rest := true }) else s)

/-- REST_EXIT: a launch, command or contribution arrives. -/
def execRestExit (die : Nat) (s : State) : Res := upDo s (fun s => s.modTile die (fun t => { t with rest := false }))

/-- Why deep rest is refused: an enabled ring, exposure, an update; zero when its conditions hold. -/
def State.restRefusal (s : State) : Nat :=
  if s.cmpts.any (fun c => ringOn c.2.cq.ctrl || ringOn c.2.eq.ctrl || c.2.sq.any (fun r => ringOn r.2.ctrl)) then 1
  else if s.exposed then 2
  else if s.upd.phase != .idle then 3 else 0

/-- A request for deep rest: the entry starts, or the reason of the refusal is recorded (R431). -/
def State.restEnter (s : State) : State :=
  if s.pwr.state != .active then s
  else
    let r := s.restRefusal
    { s with pwr := if r = 0 then { s.pwr with state := .entering } else { s.pwr with refusal := r } }

/-- A write to PWR_STATE_REQ; both bits set is ignored (Table 21.7). -/
def State.pwrStateReq (s : State) (port : Port) (val : BitVec 64) : State :=
  if port != .pf && port != .mgmt then s.portDenied port 0xE8_0008
  else match bit val 1, bit val 0 with
    | true, false => s.wake
    | false, true => s.restEnter
    | _, _ => s

/-- PWR_STATE_REQ_ENTER (R431). -/
def execPwrStateReqEnter (port : Port) (val : BitVec 64) (s : State) : Res := upDo s (fun s => s.pwrStateReq port val)

/-- PWR_STATE_REQ_EXIT (R430). -/
def execPwrStateReqExit (port : Port) (val : BitVec 64) (s : State) : Res := upDo s (fun s => s.pwrStateReq port val)

/-- PMCSR_WRITE: the PF enters D3hot, and with it deep rest when its conditions hold and otherwise rest; or it returns to D0 (R430). -/
def execPmcsrWrite (d3 : Bool) (s : State) : Res :=
  upDo s (fun s =>
    let s : State := { s with pci := { s.pci with d3hot := d3 } }
    if !d3 then s.wake
    else
      let s := s.restEnter
      if s.pwr.state != .active then s
      else s.present.foldl (fun s d => if invBit s.inv.active d && s.tileIdle d then s.modTile d (fun t => { t with rest := true }) else s) s)

/-- Self-refresh of every stack that a tile serves, on or off (R184). -/
def State.selfRefresh (s : State) (b : Bool) : State :=
  s.present.foldl (fun s d => if (s.lsOf d).isSome || invBit s.inv.active d then
    s.modTile d (fun t => { t with rest := b, mem := { t.mem with status := setBit t.mem.status 1 b } }) else s) s

/-- DEEP_REST_ENTERED: tiles are gated to their islands and stacks are in self-refresh (Table 21.5). -/
def execDeepRestEntered (s : State) : Res :=
  upDo s (fun s =>
    if s.pwr.state != .entering then s
    else { s.selfRefresh true with pwr := { s.pwr with state := .deepRest } })

/-! ### Throttling (R432 to R434, R436) -/

/-- One clock's move in a window: down a step when hot or above the power limit and above its floor, further down when `deep` and above the lowest, up a step when `cool`. -/
def clockStep (now step nominal floor lowest : Nat) (down deep cool : Bool) : Nat :=
  if deep && decide (lowest < now) && decide (now ≤ floor) then now - step
  else if down && decide (floor < now) then now - step
  else if cool && decide (now < nominal) then now + step else now

/-- A tile's move in a window. -/
def State.tileWindow (s : State) (d temp dram : Nat) (above : Bool) : State :=
  let t := s.tile d
  if t.arith = 0 then s
  else
    let tj := bits s.pwr.tj 7 0
    let down := decide (tj < temp) || above
    let cw := if down then 0 else t.coolWin + 1
    let hw := if 108 < temp ∧ t.arith ≤ 1000 then t.hotWin + 1 else 0
    let cool := decide (10 ≤ cw) && decide (temp + 5 ≤ tj)
    let deep := decide (10 ≤ hw)
    let a := clockStep t.arith 50 1200 1000 500 down deep cool
    let m := clockStep t.mesh 100 2000 1800 1200 down deep cool
    let s := s.modTile d (fun x => { x with
      arith := a, mesh := m, hotJ := temp, hotD := dram, coolWin := cw, hotWin := hw
      belowFloor := decide (a < 1000) || decide (m < 1800) || decide (95 < dram)
      mem := { x.mem with temp := BitVec.ofNat 64 (dram % 256 + 256 * b2n (decide (85 < dram))) } })
    if a = t.arith then s else s.setVdd d

/-- PWR_PKG_POWER and PWR_PKG_TEMP: each window's values, or averages above 1,000 windows while a vitrine is active (R436). DESIGN CHOICE (log 30): from an activation to the end of the first such 1,000 windows the registers keep what they showed last. -/
def Pwr.measure (p : Pwr) (active : Bool) (power hot : Nat) : Pwr :=
  if !active then { p with pkgPower := BitVec.ofNat 64 (power % 65536), pkgTemp := BitVec.ofNat 64 (hot % 256), powerSum := 0, tempSum := 0, windows := 0 }
  else if p.windows + 1 < 1000 then { p with powerSum := p.powerSum + power, tempSum := p.tempSum + hot, windows := p.windows + 1 }
  else { p with
    pkgPower := BitVec.ofNat 64 ((p.powerSum + power) / 1000 % 65536), pkgTemp := BitVec.ofNat 64 ((p.tempSum + hot) / 1000 % 256)
    powerSum := 0, tempSum := 0, windows := 0 }

/-- UNMET, BELOW_FLOOR and ALERT_N after a window; a change of either is posted (R433, R434). -/
def State.throttleFlags (s : State) (above : Bool) : State :=
  let tiles := s.tiles.filter (fun t => t.2.arith != 0)
  let below := tiles.any (fun t => t.2.belowFloor)
  let unmet := above && tiles.all (fun t => decide (t.2.arith ≤ 1000))
  let old := s.pwr
  let s : State := { s with pwr := { s.pwr with below := below, unmet := unmet, alert := below || unmet || (!s.pwr.refA && !s.pwr.refB) } }
  if below = old.below ∧ unmet = old.unmet then s else s.event 0 0x00D0 0 (BitVec.ofNat 64 (b2n below + 2 * b2n unmet))

/-- The highest tile arithmetic clock that PWR_LIMIT allows: nominal until a window exceeds it, then the clocks the tiles fell to (Table 21.7). -/
def State.limitStatus (s : State) (above : Bool) : State :=
  let top := s.tiles.foldl (fun n t => max n t.2.arith) 0
  let old := if s.pwr.allowed = 0 ∨ bits s.pwr.limit 15 0 = 0 then 1200 else s.pwr.allowed
  { s with pwr := { s.pwr with allowed := if above then top else max old top } }

/-- THROTTLE_WINDOW: a 1 ms window ends. `power` is the package average in W, `hot` the package's hottest junction, `temps` the hottest junctions of the dies (the hub's first) and `drams` the hottest DRAM dies of their stacks. -/
def execThrottleWindow (power hot : Nat) (temps drams : List Nat) (s : State) : Res :=
  upDo s (fun s =>
    let above := decide (bits s.pwr.limit 15 0 ≠ 0) && decide (bits s.pwr.limit 15 0 < power)
    let s := s.tiles.keys.foldl (fun s d => s.tileWindow d (temps[d]?.getD 0) (drams[d]?.getD 0) above) s
    let tj := bits s.pwr.tj 7 0
    let hub := temps[0]?.getD 0
    let down := decide (tj < hub) || above
    let cw := if down then 0 else s.pwr.hubCool + 1
    let mesh := clockStep s.pwr.hubMesh 100 2000 1800 1800 down false (decide (10 ≤ cw) && decide (hub + 5 ≤ tj))
    let p := s.pwr.measure s.anyActive power hot
    (({ s with pwr := { p with hubMesh := mesh, hubCool := cw } } : State).limitStatus above).throttleFlags above)

/-- THERMAL_TRIP: THERM_N is asserted, every clock but always-on stops and the trip is recorded in flash (R435). -/
def execThermalTrip (s : State) : Res := onDo s (fun s => { s with pwr := { s.pwr with therm := true, tripped := true, tripLog := true } })

end Sys2Proof.Machine
end

