-- ==== Sys2Proof/Machine/Registers.lean ====
section
/-! DEFINITION. The register windows of the dies: what each register reads, what a write to it does by its access code, and access through the management port and BAR0 (R5, R8, R9, R355, R368, R369, R373, Tables 0.2, 3.7, 5.10, 6.9, 7.7, 8.8, 8.9, 9.7, 10.6, 11.10, 12.9, 13.5, 14.11, 15.7, 15.8, 16.6, 17.10, 18.8, 19.6, 19.7, 20.7, 20.8, 21.7, 21.8). -/

namespace Sys2Proof.Machine

/-- Entry number of an offset in an array of `n` registers from `base`. -/
def arrIdx (off base stride n : Nat) : Option Nat :=
  if base ≤ off ∧ off < base + stride * n ∧ (off - base) % stride = 0 then some ((off - base) / stride) else none

/-- A register value from a number. -/
def reg64 (n : Nat) : BitVec 64 := BitVec.ofNat 64 n

/-- A field at bit `lo`. -/
def at_ (n lo : Nat) : Nat := n * 2 ^ lo

/-- Bit numbers of a list that hold. -/
def maskOf (n : Nat) (p : Nat → Bool) : Nat := (List.range n).foldl (fun m k => if p k then m + 2 ^ k else m) 0

/-- A value that reads zero while any vitrine is active (R355). -/
def State.sealed0 (s : State) (v : Nat) : Nat := if s.anyActive then 0 else v

/-- Lines valid in a cache (Tables 8.8, 8.9). -/
def Cache.count (c : Cache) : Nat := (c.lines.filter (fun l => l.2.st != .i)).length

/-! ### Values: hub (die 0) -/

/-- Inventory (Table 0.2). -/
def State.invReg (s : State) (off : Nat) : Option (BitVec 64) :=
  match off with
  | 0x00 => some s.inv.product
  | 0x08 => some s.inv.units
  | 0x10 => some s.invActive
  | 0x18 => some s.invReserve
  | 0x20 => some s.inv.fenced
  | 0x28 => some s.inv.ports
  | 0x30 => some s.inv.graft
  | 0x38 => some s.inv.bin
  | 0x40 => some (reg64 s.inv.gen.toNat)
  | _ => none

/-- Link states as Table 10.6 numbers them. -/
def linkCode : LinkSt → Nat
  | .down => 0 | .training => 1 | .up => 2 | .degraded => 3 | .quarantined => 4 | .fenced => 5

/-- Identity, floor, mesh and link registers of a die (Table 10.6). -/
def State.mshReg (s : State) (d off : Nat) : Option (BitVec 64) :=
  let r := s.router d
  match off with
  | 0x10_0000 => some r.idType
  | 0x10_0008 => some r.feat
  | 0x10_0010 => some r.lot
  | 0x10_0018 => some r.errata
  | 0x10_0020 => some (if d = 0 then r.revFloor else 0)
  | 0x10_0028 => some (reg64 (at_ r.set 16 + at_ (r.dist % 16) 8 + d))
  | 0x10_0030 => some r.crcThresh
  | 0x10_0038 => some (reg64 r.e2e.toNat)
  | 0x10_0040 => some (reg64 r.hdrCe.toNat)
  | _ =>
    (arrIdx off 0x10_0100 0x40 (linkCount d)).map (fun l =>
      let k := s.link d l
      match neighbour d l with
      | none => 0
      | some n => reg64 (at_ (linkCode k.st) 29 + at_ k.width 24 + at_ k.offered 20 + at_ k.rate 18 + at_ k.retry 16 + at_ n 8 + b2n (s.upstream d n)))
    <|> (arrIdx off 0x10_0108 0x40 (linkCount d)).map (fun l => (s.link d l).repair)
    <|> (arrIdx off 0x10_0110 0x40 (linkCount d)).map (fun l => reg64 (s.link d l).crc.toNat)
    <|> (arrIdx off 0x10_1000 8 33).map (fun t => reg64 (s.route d t).toNat)

/-- Levels of the logical stacks `lo` to `hi - 1`, three bits each. -/
def State.levelsReg (s : State) (d lo hi : Nat) : Nat :=
  let m := s.masters.look (32 * d) {}
  s.sealed0 ((List.range (hi - lo)).foldl (fun n k => n + at_ (m.levels.look (lo + k) 0 % 8) (3 * k)) 0)

/-- Key of a boundary's deadline registers: boundaries 0 to 5 in the hub, the fabric port's in a tile (Table 11.8). -/
def State.dlKey (s : State) (d b c : Nat) : Nat := 8 * (if d = 0 then b else 0x20 + s.planDie d) + c

/-- Regulator and deadline registers of a die (Table 11.10). -/
def State.qosReg (s : State) (d off : Nat) : Option (BitVec 64) :=
  let nb := if d = 0 then 6 else 1
  let urg (m : Nat) : Nat := (s.masters.look (32 * d + m) {}).urg % 4
  let cell (base : Nat) (f : Deadline → BitVec 64) : Option (BitVec 64) :=
    if off < base then none
    else
      let o := off - base
      if o / 0x100 < nb ∧ o % 0x100 < 0x100 ∧ o % 0x20 = 0 then some (f (s.deadlines.look (s.dlKey d (o / 0x100) (o % 0x100 / 0x20)) {})) else none
  match off with
  | 0x80_08C0 => some (reg64 (s.levelsReg d 0 21))
  | 0x80_08C8 => some (reg64 (s.levelsReg d 21 32))
  | 0x80_0900 => some (if d = 0 then s.urgHub else (s.tile d).urgThresh)
  | 0x80_0908 => some (reg64 (if d = 0 then urg 2 + at_ (urg 3) 2 + (List.range 4).foldl (fun n k => n + at_ (urg (4 + k)) (4 + 2 * k)) 0 else urg 17))
  | _ =>
    (arrIdx off 0x80_0000 8 32).map (fun m => (s.masters.look (32 * d + m) {}).cfg)
    <|> (arrIdx off 0x80_0100 8 (8 * 28)).map (fun k => ((s.masters.look (32 * d + k / 8) {}).classes.look (k % 8) {}).cls)
    <|> (arrIdx off 0x80_0800 8 24).map (fun m =>
      let x := s.masters.look (32 * d + m) {}
      reg64 (s.sealed0 (at_ (x.poolUsed % 4096) 16 + x.classes.foldl (fun n c => n + c.2.out) 0 % 4096)))
    <|> cell 0x80_1000 (fun x => x.time)
    <|> cell 0x80_1008 (fun x => x.req)
    <|> cell 0x80_1010 (fun x => reg64 x.miss.toNat)
    <|> cell 0x80_1018 (fun x => reg64 (s.sealed0 x.nonconf.toNat))

/-- The landing area register of a compartment (Table 9.7). -/
def State.landingReg (s : State) (c : Nat) : BitVec 64 := match (s.cmpt c).plan with | some r => r.landing | none => 0

/-- Caches of the hub and translation registers (Tables 3.7, 8.9, 9.7). -/
def State.xlatReg (s : State) (off : Nat) : Option (BitVec 64) :=
  match off with
  | 0x00_1000 => some s.stallLimit
  | 0x60_0000 => some (reg64 (at_ (b2n s.sc.flushBusy) 31 + s.sealed0 s.sc.count))
  | 0x70_8008 =>
    some (match s.unmaps.find? (fun u => u.byReg) with
      | some u => reg64 (at_ 1 31 + at_ (u.step % 8) 28 + at_ u.cmpt 8 + u.seg)
      | none => 0)
  | _ =>
    (arrIdx off 0x60_0100 8 64).map (fun c => match (s.cmpt c).plan with | some r => reg64 r.scWays.toNat | none => 0)
    <|> (arrIdx off 0x70_0000 8 (64 * 64)).map (fun k =>
      let g := if (s.cmpt (k / 64)).vitrine then {} else s.seg (k / 64) (k % 64 / 4)
      match k % 4 with | 0 => g.w0 | 1 => g.w1 | 2 => g.w2 | _ => 0)
    <|> (arrIdx off 0x70_8010 8 64).map (fun c => reg64 (s.cmpt c).faultLimit.toNat)
    <|> (arrIdx off 0x70_8400 8 64).map (fun c => s.landingReg c)

/-- Bed plan registers (Table 12.9). BUSY covers a check and a full plan taking effect, EPOCH_PENDING an amendment's epoch. -/
def State.bedReg (s : State) (off : Nat) : Option (BitVec 64) :=
  match off with
  | 0x90_0008 =>
    let epoch := match s.bed.job with | some j => j.stage == .quiescing || j.stage == .withdrawing || j.stage == .installing | none => false
    some (reg64 (at_ (b2n s.bed.inForce) 31 + at_ (b2n (s.bed.job.isSome && !epoch)) 30 + at_ (b2n epoch) 29 + at_ (s.bed.stepNo % 16) 24 + s.bed.code.toNat))
  | 0x90_0010 => some s.bed.detail
  | 0x90_0018 => some s.bed.seq
  | 0x90_0020 => some (reg64 s.bed.epochs.toNat)
  | 0x90_0028 => some s.bed.limit
  | 0x90_0030 => some (reg64 (at_ (b2n s.bed.flashPlan.isSome) 8 + s.bed.flashAmends.length))
  | _ =>
    (arrIdx off 0x90_0040 8 6).map (fun k => reg64 (bits s.bed.hash (64 * k + 63) (64 * k)))
    <|> (arrIdx off 0x90_0080 8 2).map (fun k => match s.bed.subst[k]? with | some e => reg64 (at_ 1 15 + at_ e.1 8 + e.2) | none => 0)

/-- Compartment states as Table 13.4 numbers them. -/
def cstateCode : CState → Nat
  | .undef => 0 | .ready => 1 | .fallow => 2

/-- Compartment registers (Table 13.5). -/
def State.cmpReg (s : State) (off : Nat) : Option (BitVec 64) :=
  (arrIdx off 0xA0_0008 8 63).map (fun i =>
    let n := i + 1
    let c := s.cmpt n
    reg64 (at_ (c.cause % 8) 13 + at_ (b2n (s.pci.vfEnable && decide (n ≤ s.pci.numVfs))) 9 + at_ (b2n c.vitrine) 8
      + at_ (if c.state = .fallow then c.step % 8 else 0) 4 + cstateCode c.state))
  <|> (arrIdx off 0xA0_0208 8 63).map (fun i => reg64 (s.cmpt (i + 1)).wipeLeft)
  <|> (arrIdx off 0xA0_0408 8 63).map (fun i => reg64 (s.cmpt (i + 1)).fallows.toNat)

/-- Drive states as Table 14.11 numbers them. -/
def driveCode : DriveSt → Nat
  | .absent => 0 | .training => 1 | .unsupported => 2 | .init => 3 | .ready => 4 | .fenced => 5

/-- Link and storage registers (Table 14.11). -/
def State.hostReg (s : State) (off : Nat) : Option (BitVec 64) :=
  match off with
  | 0xB0_0000 => some s.pci.link
  | 0xB0_0008 => some (reg64 s.pci.timeouts.toNat)
  | 0xB0_0010 => some (reg64 s.pci.denied.toNat)
  | 0xB0_0100 => some (reg64 s.sto.bifur.toNat)
  | 0xB0_0400 => some s.sto.cmdTimeout
  | 0xB0_0408 => some (reg64 s.sto.dmaDenied.toNat)
  | _ =>
    (arrIdx off 0xB0_0108 8 4).map (fun d =>
      let x := s.drive d
      reg64 (at_ (driveCode x.st) 29 + at_ (x.rate % 16) 20 + at_ (x.width % 16) 16 + (x.ns.filter (fun n => n.2.usable)).length))
    <|> (arrIdx off 0xB0_0200 8 64).map (fun k => s.sto.grants.look k 0)
    <|> (arrIdx off 0xB0_0410 8 2).map (fun e => reg64 (s.sealed0 (at_ (s.sto.tagFails.look e 0).toNat 32 + s.sto.gib.look e 0 / 2 ^ 30 % 2 ^ 32)))

/-- Fabric registers of the hub (Table 15.7). BATCH is in use when the domain floor is 2 (R333, R334). -/
def State.fabReg (s : State) (off : Nat) : Option (BitVec 64) :=
  let f := s.fab
  match off with
  | 0xC0_0000 => some (reg64 f.id.toNat)
  | 0xC0_0008 => some (reg64 (at_ (max 1 (f.version.toNat - 1)) 16 + f.version.toNat))
  | 0xC0_0010 => some (reg64 (at_ (b2n f.transition) 49 + at_ (b2n f.converged) 48 + at_ (f.members.length % 2048) 32 + at_ f.ceiling.toNat 16 + f.floor.toNat))
  | 0xC0_0018 => some (reg64 (b2n (decide (2 ≤ f.floor.toNat))))
  | 0xC0_0020 => some f.upg
  | 0xC0_0028 => some f.limit
  | 0xC0_0030 => some (reg64 (at_ (f.level % 65536) 16 + f.root.toNat))
  | 0xC0_0038 => some (reg64 f.drops.toNat)
  | 0xC0_0040 => some (reg64 (s.sealed0 f.retrans.toNat))
  | _ =>
    (arrIdx off 0xC0_4000 8 2048).map (fun k =>
      let g := f.grants.look (k / 2) 0
      reg64 (if k % 2 = 0 then bits g 63 0 else bits g 127 64))
    <|> (arrIdx off 0xC0_8000 8 1024).map (fun i => match f.members[i]? with
      | some m => reg64 (at_ 1 40 + at_ (m.2.1 % 256) 32 + at_ m.2.2.toNat 16 + m.1.toNat)
      | none => 0)

/-- Registers of a graft site (Table 16.6). Power, temperature and occupancy read zero while any vitrine is active. -/
def State.gftReg (s : State) (k off : Nat) : Option (BitVec 64) :=
  let x := s.site k
  match off with
  | 0x000 => some (reg64 (at_ (siteCode x.st) 28 + at_ (b2n (!x.winBusy.isEmpty)) 27 + at_ (b2n (bit x.proto 3)) 26 + at_ (b2n (bit x.proto 2)) 25 + at_ (b2n (bit x.proto 0)) 24
      + at_ (x.modules % 16) 20 + at_ (x.rate % 4) 18 + at_ (x.step % 256) 8 + x.reason.toNat))
  | 0x008 => some x.id
  | 0x018 => some (reg64 (s.sealed0 (at_ (x.power % 65536) 16 + (match x.grec with | some g => g.power | none => 0))))
  | 0x020 => some (reg64 (s.sealed0 (x.temp % 256)))
  | 0x028 => some (reg64 (s.sealed0 (at_ (x.slots.length % 1024) 16 + (s.masters.look (4 + k) {}).classes.foldl (fun n c => n + c.2.out) 0 % 1024)))
  | 0x030 => some (reg64 x.denied.toNat)
  | 0x038 => some x.timeout
  | _ =>
    (arrIdx off 0x100 0x10 16).map (fun w => reg64 (bits (x.wins.look w 0) 63 0))
    <|> (arrIdx off 0x108 0x10 16).map (fun w => reg64 (bits (x.wins.look w 0) 127 64))

/-- Confidential registers (Table 17.10). -/
def State.confReg (s : State) (off : Nat) : Option (BitVec 64) :=
  match off with
  | 0xE0_0000 => some (reg64 (maskOf 64 (fun c => c != 0 && (s.cmpt c).active)))
  | 0xE0_0008 =>
    let q := match s.planRec 12 0 with | some p => polQuorum p | none => 0
    some (reg64 (at_ s.conf.round.toNat 32 + at_ (b2n s.conf.released) 24 + at_ q 16 + maskOf 16 (fun i => s.conf.approvals.any (fun a => a.party == i))))
  | 0xE0_0010 => some (reg64 (b2n s.pci.ideLink + at_ s.pci.ideSel.toNat 1))
  | _ =>
    (arrIdx off 0xE0_0100 8 64).map (fun c => reg64 (maskOf 8 (fun k => ((s.cmpt c).keys.look k {}).loaded)))
    <|> (arrIdx off 0xE0_0300 8 64).map (fun c => let m := s.cmpt c; reg64 (at_ (tdiCode m.tdi) 16 + at_ (b2n m.bound) 8 + m.stream % 32))

/-- A condition report as software reads it: its 60 bytes with the CRC over them (Table 20.3). -/
def condRecord (w : BitVec 512) : BitVec 512 :=
  BitVec.ofNat 512 (bits w 479 0 + (crc32c (leBytes 60 (bits w 479 0))).toNat * 2 ^ 480)

/-- Fault and self-test registers (Table 20.7). -/
def State.fltReg (s : State) (off : Nat) : Option (BitVec 64) :=
  let f := s.flt
  let b := f.bist
  match off with
  | 0xE4_0000 => some (reg64 (at_ (b2n s.exposed) 31 + at_ (b2n f.standby) 30 + at_ ((List.range 29).filter s.reserveUsable).length 16 + at_ f.die 8 + f.step % 16))
  | 0xE4_0008 => some f.replace
  | 0xE4_0010 => some (reg64 f.head.toNat)
  | 0xE4_0018 => some (reg64 f.lost.toNat)
  | 0xE4_0020 => some f.sel
  | 0xE4_0028 => some f.txnTimeout
  | 0xE4_0030 => some f.autoRetire
  | 0xE4_0108 => some (reg64 (at_ b.code.toNat 32 + at_ (b2n b.busy) 31 + at_ (b2n b.rotating) 30 + at_ (b2n b.aborted) 29 + at_ (b.die % 64) 8))
  | 0xE4_0110 => some (reg64 (at_ b.done.toNat 16 + b.pass.toNat))
  | _ =>
    (arrIdx off 0xE4_0040 8 8).map (fun k => match f.reports.find? (fun r => r.1 == f.sel.toNat) with
      | some r => reg64 (bits (condRecord r.2) (64 * k + 63) (64 * k))
      | none => 0)
    <|> (arrIdx off 0xE4_0200 8 16).map (fun k => b.result.look k 0)

/-- Power states as Table 21.7 numbers them. -/
def pwrCode : PwrState → Nat
  | .active => 0 | .entering => 1 | .deepRest => 2 | .exiting => 3

/-- Power registers of the hub (Table 21.7, R436). -/
def State.pwrReg (s : State) (off : Nat) : Option (BitVec 64) :=
  let p := s.pwr
  match off with
  | 0xE8_0000 => some (reg64 (at_ p.refusal 16 + at_ (b2n s.pci.d3hot) 8 + pwrCode p.state))
  | 0xE8_0010 => some (reg64 (at_ p.switches.toNat 8 + at_ (b2n p.refB) 2 + at_ (b2n p.refA) 1 + b2n p.selB))
  | 0xE8_0018 => some p.cause
  | 0xE8_0020 => some p.bootMs
  | 0xE8_0028 => some p.pkgPower
  | 0xE8_0030 => some p.pkgTemp
  | 0xE8_0038 => some p.limit
  | 0xE8_0040 => some (reg64 (at_ (b2n p.unmet) 31 + p.allowed % 4096))
  | 0xE8_0048 => some p.tj
  | 0xE8_0050 =>
    let low (k : Nat) : Bool := let t := s.tile (k + 1); t.arith != 0 && (decide (t.arith < 1200) || decide (t.mesh < 2000))
    some (reg64 (at_ (b2n p.below) 31 + s.sealed0 (maskOf 28 low)))
  | _ => none

/-- Life-cycle and authority registers (Table 18.8). -/
def State.authReg (s : State) (off : Nat) : Option (BitVec 64) :=
  let a := s.auth
  match off with
  | 0xF0_0000 => some s.lcStateReg
  | 0xF0_0010 => some s.lcStatusReg
  | 0xF0_0018 => some (reg64 a.journal.toNat)
  | 0xF0_0200 => some (reg64 (at_ (b2n a.anchor.isSome) 31 + at_ (b2n a.updLock) 30 + at_ (b2n a.eh1608) 29 + at_ (maskOf 4 (fun k => (a.opKeys.look k none).isSome)) 16 + a.sessions.length))
  | 0xF0_0300 => some (reg64 (at_ (b2n a.dbgOn) 31 + at_ (b2n a.dbgPend) 30 + at_ (b2n a.dbgEh) 29 + (if a.dbgOn then a.dbgScope.toNat else 0)))
  | _ =>
    (arrIdx off 0xF0_0100 8 8).map (fun p => reg64 (a.denied.look p 0).toNat)
    <|> (arrIdx off 0xF0_0208 8 6).map (fun k => reg64 (bits (a.anchor.getD 0) (64 * k + 63) (64 * k)))

/-- Update registers (Table 19.6). The seconds left in a trial are an open value not above those at its start (log 4). -/
def State.updReg (s : State) (off : Nat) : Option (BitVec 64) :=
  match off with
  | 0xF8_0000 => some s.updStatus
  | 0xF8_0008 => some (s.updSlotReg 0)
  | 0xF8_0010 => some (s.updSlotReg 1)
  | 0xF8_0018 => some s.upd.confirmWin
  | 0xF8_0020 => some (if s.upd.phase = .trial then reg64 (Config.free s.tick % (s.upd.left + 1)) else 0)
  | 0xF8_0028 => some (reg64 s.upd.rollback)
  | _ => none

/-- A register of the hub window. -/
def State.hubReg (s : State) (off : Nat) : Option (BitVec 64) :=
  if off < 0x100 then s.invReg off
  else if off < 0x10_0000 then s.xlatReg off
  else if off < 0x20_0000 then s.mshReg 0 off
  else if off < 0x80_0000 then s.xlatReg off
  else if off < 0x90_0000 then s.qosReg 0 off
  else if off < 0xA0_0000 then s.bedReg off
  else if off < 0xB0_0000 then s.cmpReg off
  else if off < 0xC0_0000 then s.hostReg off
  else if off < 0xD0_0000 then s.fabReg off
  else if off < 0xD0_4000 then s.gftReg ((off - 0xD0_0000) / 0x1000) ((off - 0xD0_0000) % 0x1000)
  else if off < 0xE4_0000 then s.confReg off
  else if off < 0xE8_0000 then s.fltReg off
  else if off < 0xF0_0000 then s.pwrReg off
  else if off < 0xF8_0000 then s.authReg off
  else s.updReg off

/-! ### Values: tiles -/

/-- SSU and attention registers (Tables 5.10, 6.9). -/
def State.ssuReg (s : State) (d off : Nat) : Option (BitVec 64) :=
  let l := s.lsOf d
  let t : Stack := match l with | some l => s.stack l | none => {}
  let running (op : Nat) : Nat := t.queues.foldl (fun n q => n + (q.2.filter (fun e => e.op == op && e.st == .running)).length) 0
  match off with
  | 0x40_0000 => some (reg64 (at_ (b2n l.isSome) 31 + at_ (l.getD 0) 24 + at_ (t.wins.length % 256) 16 + t.staging % 1024))
  | 0x40_0008 => some (match t.mig with | some m => reg64 (m.cursor % 2 ^ 36) | none => BitVec.allOnes 64)
  | 0x40_0010 => some (reg64 (s.sealed0 t.applied.toNat))
  | 0x40_0018 => some (reg64 (s.sealed0 t.dups.toNat))
  | 0x40_0020 => some (reg64 (s.sealed0 t.refused.toNat))
  | 0x40_0C00 => some (reg64 (at_ (running 0x10 % 256) 24 + at_ (running 0x11 % 256) 16 + t.sramUsed % 2048))
  | 0x40_0C08 => some (reg64 (s.sealed0 t.attPages.toNat))
  | 0x40_0C10 => some (reg64 (s.sealed0 t.attStops.toNat))
  | _ =>
    (arrIdx off 0x40_0100 8 64).map (fun c => reg64 (t.allot.look c 0).toNat)
    <|> (arrIdx off 0x40_0400 8 256).map (fun i => reg64 (s.sealed0 (t.cnt.look i 0).toNat))

/-- Memory registers (Table 7.7). The temperature of a stack reads zero while any vitrine is active (R355). -/
def State.memReg (s : State) (d off : Nat) : Option (BitVec 64) :=
  let m := (s.tile d).mem
  match off with
  | 0x50_0000 => some (reg64 ((match s.lsOf d with | some l => at_ 1 31 + at_ l 24 | none => 0) + bits m.status 15 0))
  | 0x50_0008 => some (reg64 (s.sealed0 m.temp.toNat))
  | 0x50_0010 => some (reg64 (s.sealed0 m.qlevel.toNat))
  | 0x50_0018 => some m.ageLimit
  | 0x50_0020 => some (reg64 m.ceCount.toNat)
  | 0x50_0028 => some (reg64 m.ceTotal.toNat)
  | 0x50_0030 => some (reg64 m.ueCount.toNat)
  | 0x50_0038 => some (reg64 m.recon.toNat)
  | 0x50_0040 => some m.ceWindow
  | 0x50_0048 => some m.ceThresh
  | 0x50_0050 => some m.errLog
  | 0x50_0058 => some m.scrubPeriod
  | 0x50_0060 => some m.scrub
  | 0x50_0068 => some (reg64 m.odecc.toNat)
  | _ => (arrIdx off 0x50_0100 8 8).map (fun c => m.floor.look c 0)

/-- Coherence registers of a tile (Table 8.8). -/
def State.dirReg (s : State) (d off : Nat) : Option (BitVec 64) :=
  let t : Stack := match s.lsOf d with | some l => s.stack l | none => {}
  let r := (s.tile d).rlc
  match off with
  | 0x60_0000 => some (reg64 (at_ (b2n t.reclaim) 31 + at_ (b2n (!t.recover.isEmpty)) 30 + (t.dir.filter (fun e => e.2.st != .i)).length % 2 ^ 21))
  | 0x60_0008 => some (reg64 (s.sealed0 t.recallCount.toNat))
  | 0x60_0010 => some (reg64 t.cohLost.toNat)
  | 0x60_0018 => some (reg64 (at_ (b2n r.flushBusy) 31 + s.sealed0 r.count))
  | _ => (arrIdx off 0x60_0100 8 64).map (fun c => match (s.cmpt c).plan with | some p => reg64 p.rlcWays.toNat | none => 0)

/-- Fabric port states as Table 15.8 numbers them. -/
def fabCode : FabSt → Nat
  | .disabled => 0 | .training => 1 | .attesting => 2 | .up => 3 | .down => 4 | .refused => 5

/-- Fabric port, fault and power registers of a tile (Tables 15.8, 20.8, 21.8). -/
def State.tileMiscReg (s : State) (d off : Nat) : Option (BitVec 64) :=
  let t := s.tile d
  let f := s.fport (d - 1)
  match off with
  | 0x68_0000 => some (reg64 (at_ (b2n t.faulted) 31 + at_ (b2n t.islandUp) 30 + at_ (t.unitErrs % 256) 16 + t.reason.toNat))
  | 0xC0_0000 => some (reg64 (at_ f.nbr.toNat 48 + at_ f.version.toNat 32 + at_ f.nbrPort.toNat 16 + at_ (f.rate % 4) 8 + at_ (b2n f.keyPhase) 4 + fabCode f.st))
  | 0xC0_0010 => some (reg64 (at_ f.fecU.toNat 32 + f.fecC.toNat))
  | 0xC0_0018 => some (reg64 (at_ f.tagCt.toNat 16 + f.replayCt.toNat))
  | 0xC0_0020 => some (reg64 (s.sealed0 (at_ (f.sent / 2 ^ 20 % 2 ^ 32) 32 + f.recv / 2 ^ 20 % 2 ^ 32)))
  | 0xE8_0000 => some (reg64 (s.sealed0 (at_ t.mesh 32 + at_ t.arith 16 + t.vdd)))
  | 0xE8_0008 => some (reg64 (s.sealed0 (at_ (t.hotD % 256) 8 + t.hotJ % 256)))
  | _ => none

/-- A register of a tile window. -/
def State.tileReg (s : State) (d off : Nat) : Option (BitVec 64) :=
  if off < 0x20_0000 then s.mshReg d off
  else if off < 0x50_0000 then s.ssuReg d off
  else if off < 0x60_0000 then s.memReg d off
  else if off < 0x68_0000 then s.dirReg d off
  else if 0x80_0000 ≤ off ∧ off < 0x90_0000 then s.qosReg d off
  else s.tileMiscReg d off

/-- What an offset of a die's window reads; an unassigned offset and a write-only register read zero (R8, R9). -/
def State.regVal (s : State) (die off : Nat) : BitVec 64 :=
  ((if die = 0 then s.hubReg off else if isTileDie die then s.tileReg die off else none)).getD 0

/-! ### Writes (R9, Table 0.5) -/

/-- The state a command leaves. -/
def leaves (r : Res) (s : State) : State := match r with | .next t => t | .fault _ => s | .refused _ => s

/-- A value within a range that a register takes; others are ignored. -/
def inRange (v lo hi : Nat) : Bool := decide (lo ≤ v) && decide (v ≤ hi)

/-- A write to a register of the hub window that has a command of its own. -/
def State.hubAct (s : State) (port : Port) (off : Nat) (v : BitVec 64) : Option State :=
  match off with
  | 0x00_1000 => some (leaves (execHubTknStallLimitWrite port v s) s)
  | 0x60_0008 => some (leaves (execHubScFlush port v s) s)
  | 0x70_8000 => some (leaves (execHubUnmapReq port v s) s)
  | 0x90_0000 => some (leaves (execBedLoadCmd port v s) s)
  | 0xA0_0600 => some (leaves (execCmpFallowReq port v s) s)
  | 0xE4_0008 => some (leaves (execCurReplaceClear port v s) s)
  | 0xE4_0100 => some (leaves (execCurBistCmd port v s) s)
  | 0xE4_0118 => some (leaves (execCurRotate port v s) s)
  | 0xE8_0008 => some (s.pwrStateReq port v)
  | 0xF0_0008 => some (s.draw.2.lcRequest port none (BitVec.ofNat 32 (bits v 31 0)) (s.draw.1 % 2 == 1))
  | 0xF0_0270 => some (leaves (execOwnerClaim port v s) s)
  | _ =>
    (arrIdx off 0xB0_0200 8 64).map (fun k => leaves (execStoNsWrite port k v s) s)
    <|> (arrIdx off 0x10_0118 0x40 8).map (fun l => leaves (execMshLinkRetrain port 0 l v s) s)
    <|> (arrIdx off 0xD0_0010 0x1000 4).map (fun k => leaves (execGftSiteReset port k v s) s)
    <|> (if 0xD0_0000 ≤ off ∧ off < 0xD0_4000 then
        (arrIdx (off % 0x1000) 0x100 8 32).map (fun w => leaves (execGftWinWrite port ((off - 0xD0_0000) / 0x1000) (w / 2) (w % 2 == 1) v s) s)
      else none)

/-- A write to a register of the hub window that stores its value; others are ignored. -/
def State.hubStore (s : State) (off : Nat) (v : BitVec 64) : State :=
  let n := v.toNat
  match off with
  | 0x10_0030 => s.modRouter 0 (fun r => { r with crcThresh := reg64 (n % 65536) })
  | 0x80_0900 => { s with urgHub := reg64 (n % 2 ^ 24) }
  | 0x90_0028 => if inRange (n % 2 ^ 32) 1000 60000000 then { s with bed := { s.bed with limit := reg64 (n % 2 ^ 32) } } else s
  | 0xB0_0400 => if inRange (n % 2 ^ 32) 100 600000 then { s with sto := { s.sto with cmdTimeout := reg64 (n % 2 ^ 32) } } else s
  | 0xC0_0020 => { s with fab := { s.fab with upg := reg64 (n % 2) } }
  | 0xC0_0028 => if inRange (n % 2 ^ 32) 100 100000 then { s with fab := { s.fab with limit := reg64 (n % 2 ^ 32) } } else s
  | 0xE4_0020 => { s with flt := { s.flt with sel := reg64 (n % 2 ^ 32) } }
  | 0xE4_0028 => if inRange (n % 65536) 20 10000 then { s with flt := { s.flt with txnTimeout := reg64 (n % 65536) } } else s
  | 0xE4_0030 => { s with flt := { s.flt with autoRetire := reg64 (n % 2) } }
  | 0xE8_0038 => { s with pwr := { s.pwr with limit := reg64 (n % 65536) } }
  | 0xE8_0048 => if inRange (n % 256) 85 105 then { s with pwr := { s.pwr with tj := reg64 (n % 256) } } else s
  | 0xF8_0018 => if inRange (n % 4096) 60 3600 then { s with upd := { s.upd with confirmWin := reg64 (n % 4096) } } else s
  | _ =>
    match arrIdx off 0x70_8010 8 64, arrIdx off 0xD0_0038 0x1000 4, arrIdx off 0xF0_0240 8 6 with
    | some c, _, _ => s.modCmpt c (fun m => { m with faultLimit := BitVec.ofNat 32 n })
    | _, some k, _ => if inRange (n % 2 ^ 32) 10 1000000 then s.modSite k (fun x => { x with timeout := reg64 (n % 2 ^ 32) }) else s
    | _, _, some k =>
      let old := s.auth.claim.toNat
      let c := old - bits s.auth.claim (64 * k + 63) (64 * k) * 2 ^ (64 * k) + n * 2 ^ (64 * k)
      { s with auth := { s.auth with claim := BitVec.ofNat 384 c } }
    | _, _, _ => s

/-- A write to a register of a tile window: a command of its own, a value stored, or ignored. -/
def State.tileWrite (s : State) (port : Port) (d off : Nat) (v : BitVec 64) : State :=
  let n := v.toNat
  match off with
  | 0x10_0030 => s.modRouter d (fun r => { r with crcThresh := reg64 (n % 65536) })
  | 0x50_0018 => s.modMem d (fun m => { m with ageLimit := reg64 (max 256 (n % 65536)) })
  | 0x50_0040 => leaves (execMemCeWindowWrite port d v s) s
  | 0x50_0048 => leaves (execMemCeThreshWrite port d v s) s
  | 0x50_0058 => if inRange (n % 256) 1 168 then s.modMem d (fun m => { m with scrubPeriod := reg64 (n % 256) }) else s
  | 0x60_0020 => leaves (execTilRlcFlush port d v s) s
  | 0x80_0900 => s.modTile d (fun t => { t with urgThresh := reg64 (n % 2 ^ 24) })
  | 0xC0_0008 => leaves (execFabPortRetrain port (d - 1) v s) s
  | _ => match arrIdx off 0x10_0118 0x40 4 with
    | some l => leaves (execMshLinkRetrain port d l v s) s
    | none => s

/-- The registers of the PF alone (Table 18.8). -/
def pfOnly (die off : Nat) : Bool := die == 0 && decide (0xF0_0240 ≤ off) && decide (off ≤ 0xF0_0270)

/-- The power-limit register, which board I3C may write (R436, Table 18.1). -/
def i3cWrite (die off : Nat) : Bool := die == 0 && off == 0xE8_0038

/-- Whether a port may write a register of a die's window: the PF and the management port, board I3C for the power limit, JTAG for LC_REQUEST, whose own check decides (Table 18.1). -/
def mayWrite (port : Port) (die off : Nat) : Bool :=
  match port with
  | .pf => true
  | .mgmt => !pfOnly die off
  | .i3c => i3cWrite die off
  | .jtag => die == 0 && off == 0xF0_0008
  | .vf _ => false

/-- A write to an offset of a die's window from a port: refused outside the port's authority, otherwise performed by the register's access code (R9, R368). -/
def State.regStore (s : State) (port : Port) (die off : Nat) (v : BitVec 64) : State :=
  if !mayWrite port die off then s.portDenied port off
  else if die = 0 then (match s.hubAct port off v with | some t => t | none => s.hubStore off v)
  else if isTileDie die then s.tileWrite port die off v
  else s

/-- Eight bytes put in a byte buffer. -/
def putBytes (t : Tab (BitVec 8)) (at0 : Nat) (l : List Byte) : Tab (BitVec 8) := (l.zipIdx.foldl (fun (t : Tab (BitVec 8)) x => t.put (at0 + x.2) x.1) t)

/-- A write to the PF's BAR0: the bed plan registers, the buffers and the recovery mailbox, and below them what every function has (Tables 12.9, 14.5, 19.7). Outside recovery the mailbox is ignored; in recovery only the mailbox is served (R398). -/
def State.pfBar0 (s : State) (off : Nat) (v : BitVec 64) : State :=
  if 0x0300_0000 ≤ off ∧ off < 0x0400_0000 then
    (if s.pwr.recovery then { s with upd := { s.upd with mbox := putBytes s.upd.mbox (off - 0x0300_0000) (bvBytes v) } } else s)
  else if off = 0x0010_0200 then leaves (execUpdMboxCmd .pf v s) s
  else if s.pwr.recovery then s
  else if 0x0200_0000 ≤ off ∧ off < 0x0240_0000 then { s with bed := { s.bed with staged := putBytes s.bed.staged (off - 0x0200_0000) (bvBytes v) } }
  else if 0x0010_0000 ≤ off ∧ off < 0x0010_0100 then s.regStore .pf 0 (off - 0x0010_0000 + 0x90_0000) v
  else s.bar0T 0 off v

/-- REGISTER_WRITE: through BAR0 of the PF or of a VF, or to an offset of a die's window (R9). -/
def execRegisterWrite (port : Port) (bar0 : Bool) (die off : Nat) (val : BitVec 64) (s : State) : Res :=
  onDo s (fun s =>
    if bar0 then
      (match port with
      | .pf => if s.isUp || s.pwr.recovery then s.pfBar0 off val else s
      | .vf n => if s.isUp && n != 0 then s.bar0T n off val else s
      | _ => if s.isUp then s.portDenied port off else s)
    else if s.isUp then s.regStore port die off val else s)

/-! ### The management port (R373) -/

/-- REG_READ: `count` words from an offset on. The registers of the PF alone are refused; a count outside 1 to 512 has no status of its own (log 4). -/
def execRegRead (session die off count : Nat) (s : State) : Res :=
  upDo s (fun s => s.mgmtDo session (fun s =>
    let offs := (List.range count).map (fun k => off + 8 * k)
    if count = 0 ∨ 512 < count then let (t, s) := s.draw; s.answerFrame session 0x0010 (failCode t) []
    else if offs.any (pfOnly die) then
      ({ s with auth := { s.auth with denied := s.auth.denied.put 2 (satAdd (s.auth.denied.look 2 0) 1) } } : State).answerFrame session 0x0010 0x7001 []
    else
      let s := s.migAdvance
      let data := offs.flatMap (fun o => bvBytes (s.regVal die o))
      ({ s with tick := s.tick + 1 } : State).answerFrame session 0x0010 0 data))

/-- REG_WRITE: one register, under its access code; a refused write answers PORT_AUTHORITY. -/
def execRegWrite (session die off : Nat) (val : BitVec 64) (s : State) : Res :=
  upDo s (fun s => s.mgmtDo session (fun s =>
    if !mayWrite .mgmt die off then
      ({ s with auth := { s.auth with denied := s.auth.denied.put 2 (satAdd (s.auth.denied.look 2 0) 1) } } : State).answerFrame session 0x0011 0x7001 []
    else (s.regStore .mgmt die off val).answerFrame session 0x0011 0 []))

/-! ### Reads of BAR0 and of the configuration space: no row of the table carries them, and what they answer is this (log 28) -/

/-- CMP_STO_NS of a handle: the valid STO_NS entry of the compartment with it (R306, Table 14.11). -/
def State.handleReg (s : State) (fn h : Nat) : BitVec 64 :=
  match s.sto.grants.find? (fun e => bit e.2 63 && bits e.2 59 54 == fn && bits e.2 53 50 == h) with
  | some (_, g) =>
    let n := s.stoSpace g
    reg64 (at_ 1 63 + at_ (b2n (bit g 62)) 62 + at_ (b2n n.lba4k) 61 + at_ (b2n ((s.drive (bits g 61 60)).st == .ready && n.usable)) 60 + n.cap % 2 ^ 48)
  | none => 0

/-- Registers of a function's rings and dispatcher counters (Table 3.8). -/
def State.ringReg (s : State) (fn o : Nat) : Option (BitVec 64) :=
  let c := s.cmpt fn
  let dev (r : DevRing) (k : Nat) : BitVec 64 := match k with | 0 => r.base | 8 => r.ctrl | 16 => reg64 r.tail | _ => 0
  if 0x1000 ≤ o ∧ o < 0x1080 then
    let r := c.ring ((o - 0x1000) / 32)
    some (match (o - 0x1000) % 32 with | 0 => r.base | 8 => r.ctrl | 16 => reg64 r.head | _ => 0)
  else if 0x1080 ≤ o ∧ o < 0x10A0 then some (dev c.cq (o - 0x1080))
  else if 0x10A0 ≤ o ∧ o < 0x10C0 then some (dev c.eq (o - 0x10A0))
  else if o = 0x10C0 then some (reg64 c.stalls.toNat)
  else if o = 0x10C8 then some (reg64 c.eqLost.toNat)
  else if o = 0x10D0 then some c.eqVector
  else (arrIdx o 0x1100 8 8).map (fun j => reg64 (s.counter .disp (8 * fn + j)).toNat)

/-- What 8 bytes at a BAR0 offset of a function read: the inventory mirror and CMP_STATUS also while its compartment is FALLOW, everything else zero then; unassigned offsets read zero (R5, R8, Tables 13.3, 14.5). -/
def State.bar0Val (s : State) (fn o : Nat) : BitVec 64 :=
  let c := s.cmpt fn
  if o < 0x100 then (s.invReg o).getD 0
  else if s.cstate fn = .fallow then (if o = 0x100 then 2 else 0)
  else if o = 0x100 then reg64 (at_ fn 16 + at_ (b2n c.vitrine) 8 + cstateCode (s.cstate fn))
  else if o = 0x108 then reg64 (s.nvec fn)
  else if o < 0x1200 then (s.ringReg fn o).getD 0
  else
    ((arrIdx o 0x1200 8 8).map (fun j => c.whint.look j 0)
    <|> (arrIdx o 0x2000 8 64).map (fun k => let g := s.seg fn (k / 4); match k % 4 with | 0 => g.w0 | 1 => g.w1 | 2 => g.w2 | _ => 0)
    <|> (if o = 0x2208 then some (reg64 (at_ c.pcmds.length 24 + at_ c.frecs.length 16 + c.pageCode.toNat)) else none)
    <|> (if o = 0x2210 then some (reg64 c.faultCount.toNat) else none)
    <|> (arrIdx o 0x3000 8 16).map (fun h => s.handleReg fn h)
    <|> (arrIdx o 0x4000 8 4096).map (fun k => c.resmap.look k 0)
    <|> (arrIdx o 0x8_0000 8 (2 * (if fn = 0 then 64 else 32))).map (fun k =>
      let e := c.msix.look (k / 2) {}
      if k % 2 = 0 then e.addr else reg64 (at_ (b2n e.mask) 32 + e.data.toNat))
    <|> (if o = 0x8_1000 then some (reg64 (maskOf 64 (fun v => c.pba.contains v))) else none)
    <|> (arrIdx o 0x9_0000 8 (if fn = 0 then 256 else 16)).map (fun w => c.win.look w 0)
    <|> (if fn = 0 ∧ o = 0x10_0208 ∧ s.pwr.recovery then some (reg64 (at_ (b2n s.upd.mboxBusy) 31 + s.upd.mboxCode.toNat)) else none)
    <|> (if fn = 0 ∧ 0x10_0000 ≤ o ∧ o < 0x10_0100 then s.bedReg (0x90_0000 + o % 0x100) else none)).getD 0

/-- The Device ID of the PF: 0x3326, 0x3327 or 0x3324 by the product (R290, Table 14.2). -/
def State.deviceId (s : State) : Nat := match bits s.inv.product 7 0 with | 1 => 0x3326 | 2 => 0x3327 | _ => 0x3324

/-- The capability list of a function in rising offsets: offset and capability ID, which are PCIe's (R291, Table 14.3, log 28). -/
def capList (fn : Nat) : List (Nat × Nat) :=
  if fn = 0 then [(0x40, 0x01), (0x48, 0x11), (0x60, 0x10), (0x100, 0x01), (0x150, 0x0E), (0x160, 0x10), (0x1A0, 0x19), (0x1D0, 0x26), (0x200, 0x2A), (0x240, 0x31),
    (0x260, 0x27), (0x2B0, 0x25), (0x300, 0x2E), (0x340, 0x30), (0x400, 0x23)]
  else [(0x48, 0x11), (0x60, 0x10), (0x100, 0x01), (0x150, 0x0E), (0x400, 0x23)]

/-- The header of a capability with the offset of the next one, in PCIe's layouts. -/
def capHead (fn o : Nat) : Option Nat :=
  match (capList fn).find? (fun c => c.1 == o) with
  | none => none
  | some (_, id) =>
    let next := ((capList fn).find? (fun c => decide (o < c.1) && decide (c.1 < 0x100 ∨ 0x100 ≤ o))).map (·.1) |>.getD 0
    some (if o < 0x100 then id + 256 * next else id + 2 ^ 16 + 2 ^ 20 * next)

/-- The SR-IOV capability of the PF: VF Enable, TotalVFs and InitialVFs 63, NumVFs, First VF Offset and VF Stride 1, the VF Device ID and the supported page sizes (R290, R292). -/
def State.sriovReg (s : State) (k : Nat) : Nat :=
  match k with
  | 0x08 => b2n s.pci.vfEnable
  | 0x0C => 63 + 2 ^ 16 * 63
  | 0x10 => s.pci.numVfs
  | 0x14 => 1 + 2 ^ 16
  | 0x18 => 2 ^ 16 * (s.deviceId + 0x10)
  | 0x1C => 1
  | _ => 0

/-- A configuration dword of a function: the type 0 header and the capabilities' values that the spec gives, in PCIe's layouts; BAR bases, which the host sets, are not held. None while requests are answered with Retry Status, and for a VF above NumVFs or with VF Enable clear (R290 to R293, R429, Tables 14.2 to 14.4, log 28). -/
def State.cfgVal (s : State) (fn o : Nat) : Option (BitVec 32) :=
  if s.pci.retry ∨ 64 ≤ fn ∨ (fn ≠ 0 ∧ (!s.pci.vfEnable ∨ s.pci.numVfs < fn)) then none
  else
    let c := s.cmpt fn
    let rev := 16 * bits (s.router 0).idType 15 12 + bits (s.router 0).idType 11 8
    some (BitVec.ofNat 32 (match o with
      | 0x00 => if fn = 0 then 0x1F5E + 2 ^ 16 * s.deviceId else 0xFFFFFFFF
      | 0x08 => rev + 2 ^ 8 * 0x120000
      | 0x10 => if fn = 0 then 4 else 0
      | 0x18 => if fn = 0 then 0xC else 0
      | 0x2C => 0x1F5E + 2 ^ 16 * bits s.inv.product 31 16
      | 0x34 => if fn = 0 then 0x40 else 0x48
      | 0x3C => 0
      | 0x44 => if fn = 0 then 8 + 3 * b2n s.pci.d3hot else 0
      | 0x48 => (capHead fn o).getD 0 + 2 ^ 16 * ((if fn = 0 then 64 else 32) - 1) + 2 ^ 30 * b2n c.fmask + 2 ^ 31 * b2n c.msixEn
      | 0x4C => 0x8_0000
      | 0x50 => 0x8_1000
      | 0x64 => 2 + 2 ^ 28 + (if fn = 0 then 2 ^ 30 else 0)
      | 0x68 => if fn = 0 then 2 ^ 5 * s.pci.mps.toNat + 2 ^ 12 * s.pci.mrrs.toNat else 0
      | 0x84 => 0xF + 2 ^ 16 + 2 ^ 17
      | 0x88 => if fn = 0 then s.pci.toCode.toNat else 0
      | 0x404 => 0x1F5E + 2 ^ 16 * 1 + 2 ^ 20 * 0x10
      | 0x408 => 0x0001
      | 0x40C => 0
      | o => if fn = 0 ∧ 0x168 ≤ o ∧ o < 0x1A0 then s.sriovReg (o - 0x160) else (capHead fn o).getD 0))

end Sys2Proof.Machine
end

