-- ==== Sys2Proof/Machine/HostMem.lean ====
section
/-! DEFINITION. Host reads and writes of BAR2: translation through the windows, refusals, service, and the requests that wait for the end of deep rest (R294 to R297, R361, R431). -/

namespace Sys2Proof.Machine

/-! ### Refusals (R295, R296, Table 14.6) -/

/-- Where a translated host request goes. -/
inductive HostPlace where
  /-- refused: Unsupported Request -/
  | refused
  /-- a range of a segment of the function's compartment -/
  | seg (i x : Nat)
  /-- a physical range of memory -/
  | phys (a : Nat)
  /-- a die's register window -/
  | regs (die off : Nat)
  /-- a graft site's window -/
  | site (k off : Nat)
  deriving DecidableEq, Repr

/-- The window a BAR2 offset falls in. -/
def bar2Win (off : Nat) : Nat := off / 0x1000_0000

/-- The window entry of a function that a BAR2 offset falls in. -/
def State.winEntry (s : State) (fn off : Nat) : BitVec 64 := (s.cmpt fn).win.look (bar2Win off) 0

/-- A window entry admits a request: in the table, VALID, R or W, and its class granted to the function (R295). -/
def State.winAdmits (s : State) (fn off : Nat) (w : Bool) : Bool :=
  let e := s.winEntry fn off
  let c := bits e 58 56
  decide (bar2Win off < (if fn = 0 then 256 else 16)) && bit e 63 && bit e (if w then 61 else 62) &&
    (if fn = 0 then bit (s.clsCmpts.look c 0) 0 else match (s.cmpt fn).plan with | some r => bit r.classes c | none => false)

/-- The function is open to a BAR2 request: a TDI in RUN to one with T = 1, any other vitrine to none, and what is no vitrine to all (R361). -/
def State.bar2Open (s : State) (fn : Nat) (t : Bool) : Bool :=
  if (s.cmpt fn).tdi == .run then t else !(s.cmpt fn).vitrine

/-- Where a VF's request goes: the checks of R212, and no segment of TYPE 3 or 4 or with RED or ATT permission (R294, R295). -/
def State.vfPlace (s : State) (fn off len : Nat) (w : Bool) : HostPlace :=
  let e := s.winEntry fn off
  let i := bits e 55 52
  let x := bits e 43 12 * 4096 + off % 0x1000_0000
  let g := s.seg fn i
  if 3 ≤ g.typ ∨ needRed g.perm ∨ 8 ≤ g.perm then .refused
  else if s.operandCode fn (i * 2 ^ 44 + x) (if w then needW else needR) len ≠ 0 then .refused
  else if s.rangeCode fn (i * 2 ^ 44 + x) len w ≠ 0 then .refused
  else .seg i x

/-- A stack offset that no port may reach: the SSU's private region (R116). -/
def privateOff (off : Nat) : Bool := decide (0x7_FC00_0000 ≤ off)

/-- A physical range of memory that a PF request may reach: served, not private, no parity sector written, no aggregation window (R116, R133, R168, R182, R415). -/
def State.physOpen (s : State) (a n : Nat) (w : Bool) : Bool :=
  let b := a + n - 1
  if inStacks a then
    inStacks b && paLs a == paLs b && !privateOff (paOff b) && !s.clipHit a n && !(w && s.meetsParity (paLs a) (paOff a) n) &&
      (s.served (paLs a) || (!w && s.flt.unserved.contains (paLs a) && s.isGuarded (paLs a) (paOff a))) &&
      !(w && (match s.stripeOf (paLs a) (paOff a) with | some (_, ms) => ms.any s.flt.unserved.contains | none => false))
  else inCores a && inCores b

/-- Where a PF request goes by its device physical address (Table 7.3, R294). -/
def State.pfPlace (s : State) (off len : Nat) (w : Bool) : HostPlace :=
  let a := bits (s.winEntry 0 off) 47 12 * 4096 + off % 0x1000_0000
  if 0x0201_0000_0000 ≤ a ∧ a + len ≤ 0x0201_2100_0000 then .regs ((a - 0x0201_0000_0000) / 0x0100_0000) ((a - 0x0201_0000_0000) % 0x0100_0000)
  else if 0x0400_0000_0000 ≤ a ∧ a + len ≤ 0x0500_0000_0000 then .site ((a - 0x0400_0000_0000) / 0x0040_0000_0000) ((a - 0x0400_0000_0000) % 0x0040_0000_0000)
  else if s.physOpen a len w then .phys a else .refused

/-- What an active vitrine keeps from the PF: what its TYPE 0 to 2 segments map, its landing slots, and the stores and scratch of its placed cores (R296). -/
def State.vitrineRanges (s : State) (c : Nat) : List (Nat × Nat) :=
  let m := s.cmpt c
  (m.segs.flatMap (fun e => if e.2.valid && decide (e.2.typ ≤ 2) then s.segRanges e.2 else []))
    ++ (match m.plan with | some r => [(landingBase r, landingSlots r * 0x20_0000)] | none => [])
    ++ ((List.range (s.nranks c)).filterMap (s.rankCore c)).flatMap (fun p => [(storeBase p.1 p.2, 0x80_0000), (scratchBase p.1 p.2, 0x4_0000)])

/-- Whether a physical range meets what an active vitrine keeps. -/
def State.vitrineHit (s : State) (a n : Nat) : Bool :=
  s.cmpts.any (fun c => c.2.active && (s.vitrineRanges c.1).any (fun r => meets a n r.1 r.2))

/-- A PF request refused for a vitrine is counted and posted with its window number (R296). -/
def State.pfDenied (s : State) (w : Nat) : State :=
  ({ s with pci := { s.pci with denied := satAdd s.pci.denied 1 } } : State).event 0 0x7002 0 (BitVec.ofNat 64 w)

/-- A host request translated at arrival; the state counts a PF request that an active vitrine refuses. -/
def State.hostPlace (s : State) (fn off len : Nat) (w t : Bool) : State × HostPlace :=
  if !s.winAdmits fn off w || !s.bar2Open fn t then (s, .refused)
  else if fn ≠ 0 then (s, s.vfPlace fn off len w)
  else match s.pfPlace off len w with
    | .phys a => if s.vitrineHit a len then (s.pfDenied (bar2Win off), .refused) else (s, .phys a)
    | p => (s, p)

/-- A request refused: a read ends with Unsupported Request, a write is dropped, and the function's AER logs it (Table 14.6). -/
def State.hostRefuse (s : State) (fn : Nat) (w : Bool) : State :=
  let s := if w then s else s.emit (.completion fn false [] false)
  s.aerLog fn .unsupportedRequest

/-! ### Service (R297) -/

/-- The physical pieces of a place in memory. -/
def State.hostPieces (s : State) (fn : Nat) (p : HostPlace) (len : Nat) : List (Nat × Nat) :=
  match p with
  | .seg i x => s.physPieces fn i (s.seg fn i) x len
  | .phys a => [(a, len)]
  | _ => []

/-- Bytes of a die's registers. -/
def State.regBytes (s : State) (die off len : Nat) : List Byte :=
  (List.range len).map (fun k => BitVec.ofNat 8 (bits (s.regVal die ((off + k) / 8 * 8)) (8 * ((off + k) % 8) + 7) (8 * ((off + k) % 8))))

/-- Bytes written to a die's registers: each register takes the bytes given and keeps its others (log 24). -/
def State.regPut (s : State) (die off : Nat) (l : List Byte) : State :=
  let first := off / 8
  let last := (off + l.length - 1) / 8
  (List.range (last - first + 1)).foldl (fun s k =>
    let o := 8 * (first + k)
    let old := bvBytes (s.regVal die o)
    let v := (List.range 8).map (fun j => if off ≤ o + j ∧ o + j < off + l.length then (l[o + j - off]?).getD 0 else (old[j]?).getD 0)
    s.regStore .pf die o (BitVec.ofNat 64 (ofLe v))) s

/-- A read of a served place: its completion, with EP = 1 when it meets a poisoned sector. -/
def State.hostRead (s : State) (fn : Nat) (p : HostPlace) (len : Nat) : State :=
  match p with
  | .regs d o => let s := s.migAdvance; ({ s with tick := s.tick + 1 } : State).emit (.completion fn true (s.regBytes d o len) false)
  | .site k o => s.siteRequest k false o len [] true
  | .refused => s.hostRefuse fn false
  | p =>
    let (s, l, bad) := s.readPieces (s.hostPieces fn p len)
    s.emit (.completion fn true l (bad.any id))

/-- A write to a served place. Data that arrives poisoned is written poisoned and logged. -/
def State.hostWrite (s : State) (fn : Nat) (p : HostPlace) (l : List Byte) (ep : Bool) : State :=
  let s := if ep then s.aerLog fn .poisonedTlp else s
  match p with
  | .regs d o => if l.isEmpty || ep then s else s.regPut d o l
  | .site k o => s.siteRequest k true o l.length l true
  | .refused => s.hostRefuse fn true
  | p =>
    let s := (s.writePieces fn (s.hostPieces fn p l.length) l (l.map (fun _ => ep))).1
    match p with | .seg i x => s.markDirtySlots fn i (s.seg fn i) x l.length | _ => s

/-- A request of a compartment that is FALLOW: a read returns zero data and a write is dropped (Table 13.3). -/
def State.hostFallow (s : State) (fn len : Nat) (w : Bool) : State := if w then s else s.emit (.completion fn true (List.replicate len 0) false)

/-- The class a request travels in. -/
def State.winClass (s : State) (fn off : Nat) : Nat := bits (s.winEntry fn off) 58 56

/-- Whether a host request meets a sector that waits for its rebuild (R179). -/
def State.hostWaits (s : State) (fn : Nat) (p : HostPlace) (len : Nat) : Bool := s.readWaits (s.hostPieces fn p len)

/-- A host request kept until the rebuild that it meets has ended. -/
def State.hostHold (s : State) (i : Instr) : State := { s with pci := { s.pci with held := s.pci.held ++ [i] } }

/-- A host read served. -/
def State.serveRead (s : State) (fn off len : Nat) (t : Bool) (late : Nat) : State :=
  if s.cstate fn = .fallow then s.hostFallow fn len false
  else
    let (s, p) := s.hostPlace fn off len false t
    if p = .refused then s.hostRefuse fn false
    else if s.hostWaits fn p len then s.hostHold (.hostMemRead fn off len t late)
    else ((s.measure 0 (s.winClass fn off) len (s.conforming 0 (s.winClass fn off)) fn late).offer 0 2 (s.winClass fn off) fn false (s.hostPieces fn p len)).hostRead fn p len

/-- A host write served. -/
def State.serveWrite (s : State) (fn off : Nat) (l : List Byte) (ep t : Bool) (late : Nat) : State :=
  if s.cstate fn = .fallow then s.hostFallow fn l.length true
  else
    let (s, p) := s.hostPlace fn off l.length true t
    if p = .refused then s.hostRefuse fn true
    else if s.hostWaits fn p l.length then s.hostHold (.hostMemWrite fn off l ep t late)
    else ((s.measure 0 (s.winClass fn off) l.length (s.conforming 0 (s.winClass fn off)) fn late).offer 0 2 (s.winClass fn off) fn true (s.hostPieces fn p l.length)).hostWrite fn p l ep

/-- Whether requests wait: the device is in deep rest, enters it or leaves it (R431). -/
def State.resting (s : State) : Bool := s.pwr.state != .active

/-- A request that waits for the end of deep rest, and wakes the device. -/
def State.waitAwake (s : State) (i : Instr) : State := { s with pwr := { s.pwr with waiting := s.pwr.waiting ++ [i] } }.wake

/-- HOST_MEM_READ: `len` bytes at BAR2 offset `off`, with the TLP's T bit; `late` is its measured time in PCIe cycles (R252, R295). -/
def execHostMemRead (fn off len : Nat) (t : Bool) (late : Nat) (s : State) : Res :=
  upDo s (fun s =>
    if 64 ≤ fn then s
    else if s.resting then s.waitAwake (.hostMemRead fn off len t late)
    else s.serveRead fn off len t late)

/-- HOST_MEM_WRITE (R295). -/
def execHostMemWrite (fn off : Nat) (bytes : List Byte) (ep t : Bool) (late : Nat) (s : State) : Res :=
  upDo s (fun s =>
    if 64 ≤ fn then s
    else if s.resting then s.waitAwake (.hostMemWrite fn off bytes ep t late)
    else s.serveWrite fn off bytes ep t late)

/-- A request that waited, served. -/
def State.serveWaiting (s : State) (i : Instr) : State :=
  match i with
  | .hostMemRead fn off len t late => s.serveRead fn off len t late
  | .hostMemWrite fn off bytes ep t late => s.serveWrite fn off bytes ep t late
  | _ => s

/-- Requests that waited for a sector's rebuild are served from its result: coherent ones at their homes, those at the controller, remote ones, and host requests (R179). -/
def State.afterRebuild (s : State) (ls : Nat) : State :=
  let s := ((((s.drain ls).drain 32).memRetry ls).remoteRetryAll)
  s.pci.held.foldl State.serveWaiting { s with pci := { s.pci with held := [] } }

/-- STRIPE_REPLY: the reply is XORed in; with the last one the sector is formed and the held deltas are applied (R182). -/
def execStripeReply (n : Nat) (dec : Dec) (s : State) : Res :=
  upDo s (fun s =>
    match s.stripes[n]? with
    | none => s
    | some m =>
      match findPos (fun r => r.off == m.off && r.await.contains m.src) (s.stack m.dst).rebuilds with
      | none => s
      | some k =>
        if m.kind != 2 then s
        else
          let s := { s with stripes := s.stripes.eraseIdx n }
          let s := s.modStack m.dst (fun t => { t with rebuilds := modNth t.rebuilds k (fun r =>
            { r with await := r.await.filter (· != m.src), acc := r.acc ^^^ m.data, bad := if m.bad then r.bad ++ [m.src] else r.bad }) })
          match (s.stack m.dst).rebuilds[k]? with
          | none => s
          | some r =>
            if r.await.isEmpty then
              ((s.modStack m.dst (fun t => { t with rebuilds := t.rebuilds.eraseIdx k })).rebuildEnd m.dst r dec).afterRebuild (r.target.getD m.dst)
            else s)

/-- Whether a waiting request is a write of a function. -/
def isWriteOf (fn : Nat) (i : Instr) : Bool := match i with | .hostMemWrite f _ _ _ _ _ => f == fn | _ => false

/-- Writes of a function that wait for the end of deep rest take effect: they were received before the configuration write that resets it (R285). -/
def State.servePosted (s : State) (fn : Nat) : State :=
  (s.pwr.waiting.filter (isWriteOf fn)).foldl State.serveWaiting { s with pwr := { s.pwr with waiting := s.pwr.waiting.filter (fun i => !isWriteOf fn i) } }

/-- FLR of a VF: writes received before it take effect, its compartment goes fallow, and the PCIe controls of its MSI-X return to their reset values (R282, R281, R285). A BAR0 write held under R354 is dropped: what it would have set, step 5 returns to empty. -/
def execFlr (fn : Nat) (s : State) : Res :=
  upDo s (fun s =>
    if fn = 0 ∨ 64 ≤ fn then s
    else ((s.servePosted fn).modCmpt fn (fun c => { c with msixEn := false, fmask := false, msix := [], pba := [] })).fallowStart fn 0)

/-- VF_ENABLE_CLEAR: writes received before it take effect, and every READY compartment goes fallow (R292, R285). -/
def execVfEnableClear (s : State) : Res :=
  upDo s (fun s => ((List.range 64).drop 1).foldl (fun s c => (s.servePosted c).fallowStart c 1) { s with pci := { s.pci with vfEnable := false } })

/-- DEEP_REST_EXIT_DONE: tiles and stacks are back in service and the requests that waited are served in order (R430, R431). -/
def execDeepRestExitDone (s : State) : Res :=
  upDo s (fun s =>
    if s.pwr.state != .exiting then s
    else
      let l := s.pwr.waiting
      let s := s.selfRefresh false
      l.foldl State.serveWaiting { s with pwr := { s.pwr with state := .active, waiting := [] } })

end Sys2Proof.Machine
end

