-- ==== Sys2Proof/Machine/Dispatch.lean ====
section
/-! DEFINITION. The meaning of each command: one arm for each constructor, one direct call of its meaning. -/

namespace Sys2Proof.Machine

open Sys2Proof

/-- The effect of a command on everything but the queue. -/
def exec (i : Instr) (s : State) : Host.Outcome State Fault Refusal :=
  match i with
  | .registerWrite port bar0 die off val => Sys2Proof.Machine.execRegisterWrite port bar0 die off val s
  | .corTknWrite die core idx val posts => Sys2Proof.Machine.execCorTknWrite die core idx val posts s
  | .corTknPost die core idx val => Sys2Proof.Machine.execCorTknPost die core idx val s
  | .corWait die core val => Sys2Proof.Machine.execCorWait die core val s
  | .corQstatClear die core q val => Sys2Proof.Machine.execCorQstatClear die core q val s
  | .corRptWrite die core j val => Sys2Proof.Machine.execCorRptWrite die core j val s
  | .cmdPortStore die core q off bytes => Sys2Proof.Machine.execCmdPortStore die core q off bytes s
  | .kernelExit die core a7 a0 => Sys2Proof.Machine.execKernelExit die core a7 a0 s
  | .cpTrap die core cause tval => Sys2Proof.Machine.execCpTrap die core cause tval s
  | .fenceI die core => Sys2Proof.Machine.execFenceI die core s
  | .cpLoad die core addr size rd lr => Sys2Proof.Machine.execCpLoad die core addr size rd s lr
  | .cpStore die core addr bytes kind => Sys2Proof.Machine.execCpStore die core addr bytes s kind
  | .lineEviction agent line => Sys2Proof.Machine.execLineEviction agent line s
  | .tokenPost n => Sys2Proof.Machine.execTokenPost n s
  | .tokenStall unit age => Sys2Proof.Machine.execTokenStall unit age s
  | .hubTknStallLimitWrite port val => Sys2Proof.Machine.execHubTknStallLimitWrite port val s
  | .sqDoorbell fn k val => Sys2Proof.Machine.execSqDoorbell fn k val s
  | .ringCtrlWrite fn ring ctrl val => Sys2Proof.Machine.execRingCtrlWrite fn ring ctrl val s
  | .cmpCqHeadDoorbell fn val => Sys2Proof.Machine.execCmpCqHeadDoorbell fn val s
  | .cmpEqHeadDoorbell fn val => Sys2Proof.Machine.execCmpEqHeadDoorbell fn val s
  | .cmpTknPost fn j val => Sys2Proof.Machine.execCmpTknPost fn j val s
  | .descriptorEnqueue fn k => Sys2Proof.Machine.execDescriptorEnqueue fn k s
  | .descriptorStart fn k => Sys2Proof.Machine.execDescriptorStart fn k s
  | .descriptorComplete fn k index => Sys2Proof.Machine.execDescriptorComplete fn k index s
  | .rankStart fn k index => Sys2Proof.Machine.execRankStart fn k index s
  | .rankFinish die core => Sys2Proof.Machine.execRankFinish die core s
  | .movCopy die core => Sys2Proof.Machine.execMovCopy die core s
  | .movCopy2d die core => Sys2Proof.Machine.execMovCopy2d die core s
  | .movConvert die core => Sys2Proof.Machine.execMovConvert die core s
  | .movFill die core => Sys2Proof.Machine.execMovFill die core s
  | .moverCmdComplete die core => Sys2Proof.Machine.execMoverCmdComplete die core s
  | .wait die core q fault => Sys2Proof.Machine.execWait die core q s fault
  | .post die core q fault => Sys2Proof.Machine.execPost die core q s fault
  | .fence die core q fault => Sys2Proof.Machine.execFence die core q s fault
  | .rngSeed die core q fault => Sys2Proof.Machine.execRngSeed die core q s fault
  | .loadA die core q fault => Sys2Proof.Machine.execLoadA die core q s fault
  | .loadB die core q fault => Sys2Proof.Machine.execLoadB die core q s fault
  | .scaleSet die core q fault => Sys2Proof.Machine.execScaleSet die core q fault s
  | .mma die core q fault => Sys2Proof.Machine.execMma die core q fault s
  | .mmaSplit die core q fault => Sys2Proof.Machine.execMmaSplit die core q fault s
  | .accClear die core q fault => Sys2Proof.Machine.execAccClear die core q fault s
  | .accRead die core q fault => Sys2Proof.Machine.execAccRead die core q fault s
  | .storeC die core q fault => Sys2Proof.Machine.execStoreC die core q fault s
  | .engineCmdComplete die core q => Sys2Proof.Machine.execEngineCmdComplete die core q s
  | .eltwise die core => Sys2Proof.Machine.execEltwise die core s
  | .shpReduce die core => Sys2Proof.Machine.execShpReduce die core s
  | .softmax die core => Sys2Proof.Machine.execSoftmax die core s
  | .norm die core => Sys2Proof.Machine.execNorm die core s
  | .normL2 die core => Sys2Proof.Machine.execNormL2 die core s
  | .convert die core => Sys2Proof.Machine.execConvert die core s
  | .shpGather die core => Sys2Proof.Machine.execShpGather die core s
  | .ssuCmdStart ls fn k => Sys2Proof.Machine.execSsuCmdStart ls fn k s
  | .winOpen ls fn k => Sys2Proof.Machine.execWinOpen ls fn k s
  | .winClose ls fn k => Sys2Proof.Machine.execWinClose ls fn k s
  | .winFree ls fn k => Sys2Proof.Machine.execWinFree ls fn k s
  | .ssuReduce ls fn k => Sys2Proof.Machine.execSsuReduce ls fn k s
  | .clipNoise ls fn k => Sys2Proof.Machine.execClipNoise ls fn k s
  | .contribution ls n upTo => Sys2Proof.Machine.execContribution ls n upTo s
  | .optStep ls fn k => Sys2Proof.Machine.execOptStep ls fn k s
  | .ssuGather ls fn k => Sys2Proof.Machine.execSsuGather ls fn k s
  | .scatter ls fn k => Sys2Proof.Machine.execScatter ls fn k s
  | .parity ls fn k => Sys2Proof.Machine.execParity ls fn k s
  | .wipe ls fn k => Sys2Proof.Machine.execWipe ls fn k s
  | .migrate ls fn k => Sys2Proof.Machine.execMigrate ls fn k s
  | .migrateCopyDone ls => Sys2Proof.Machine.execMigrateCopyDone ls s
  | .noiseRekey ls => Sys2Proof.Machine.execNoiseRekey ls s
  | .attend ls fn k => Sys2Proof.Machine.execAttend ls fn k s
  | .merge ls fn k => Sys2Proof.Machine.execMerge ls fn k s
  | .memRead ls off mask decs cls prio => Sys2Proof.Machine.execMemRead ls off mask decs cls prio s
  | .memWrite ls off bytes pois dec cls prio => Sys2Proof.Machine.execMemWrite ls off bytes pois dec cls prio s
  | .controllerIssue die pc => Sys2Proof.Machine.execControllerIssue die pc s
  | .floorWindow die => Sys2Proof.Machine.execFloorWindow die s
  | .queueLevelBroadcast die => Sys2Proof.Machine.execQueueLevelBroadcast die s
  | .refresh die pc bank => Sys2Proof.Machine.execRefresh die pc bank s
  | .patrolScrub ls dec => Sys2Proof.Machine.execPatrolScrub ls dec s
  | .ceWindowEnd die => Sys2Proof.Machine.execCeWindowEnd die s
  | .memCeWindowWrite port die val => Sys2Proof.Machine.execMemCeWindowWrite port die val s
  | .parityDelta ls n dec => Sys2Proof.Machine.execParityDelta ls n s dec
  | .rebuild n => Sys2Proof.Machine.execRebuild n s
  | .stripeRead n dec => Sys2Proof.Machine.execStripeRead n dec s
  | .stripeReply n dec => Sys2Proof.Machine.execStripeReply n dec s
  | .rdShared n => Sys2Proof.Machine.execRdShared n s
  | .rdUnique n => Sys2Proof.Machine.execRdUnique n s
  | .upgrade n => Sys2Proof.Machine.execUpgrade n s
  | .markDirty n => Sys2Proof.Machine.execMarkDirty n s
  | .wrBack n => Sys2Proof.Machine.execWrBack n s
  | .evictClean n => Sys2Proof.Machine.execEvictClean n s
  | .rdNc n => Sys2Proof.Machine.execRdNc n s
  | .wrNc n => Sys2Proof.Machine.execWrNc n s
  | .snpShared n => Sys2Proof.Machine.execSnpShared n s
  | .snpInv n => Sys2Proof.Machine.execSnpInv n s
  | .push n => Sys2Proof.Machine.execPush n s
  | .grantS n => Sys2Proof.Machine.execGrantS n s
  | .grantE n => Sys2Proof.Machine.execGrantE n s
  | .ack n => Sys2Proof.Machine.execAck n s
  | .ackData n => Sys2Proof.Machine.execAckData n s
  | .dirtyAck n => Sys2Proof.Machine.execDirtyAck n s
  | .dirtyStale n => Sys2Proof.Machine.execDirtyStale n s
  | .wbAck n => Sys2Proof.Machine.execWbAck n s
  | .pushAck n => Sys2Proof.Machine.execPushAck n s
  | .pushDecline n => Sys2Proof.Machine.execPushDecline n s
  | .recoverDone n => Sys2Proof.Machine.execRecoverDone n s
  | .recoverAck n => Sys2Proof.Machine.execRecoverAck n s
  | .snoopLimitMiss die => Sys2Proof.Machine.execSnoopLimitMiss die s
  | .agentDeath die => Sys2Proof.Machine.execAgentDeath die s
  | .tilRlcFlush port die val => Sys2Proof.Machine.execTilRlcFlush port die val s
  | .hubScFlush port val => Sys2Proof.Machine.execHubScFlush port val s
  | .pageIn fn val => Sys2Proof.Machine.execPageIn fn val s
  | .pageInDone fn slot => Sys2Proof.Machine.execPageInDone fn slot s
  | .pageOut fn val => Sys2Proof.Machine.execPageOut fn val s
  | .pageOutDone fn slot => Sys2Proof.Machine.execPageOutDone fn slot s
  | .pageFail fn val => Sys2Proof.Machine.execPageFail fn val s
  | .faultTimeout fn index age => Sys2Proof.Machine.execFaultTimeout fn index age s
  | .hubUnmapReq port val => Sys2Proof.Machine.execHubUnmapReq port val s
  | .withdrawn fn seg => Sys2Proof.Machine.execWithdrawn fn seg s
  | .routerArrival n flips => Sys2Proof.Machine.execRouterArrival n flips s
  | .outputArbitration die out => Sys2Proof.Machine.execOutputArbitration die out s
  | .ageTick die vc index => Sys2Proof.Machine.execAgeTick die vc index s
  | .packetDelivery die n bad => Sys2Proof.Machine.execPacketDelivery die n bad s
  | .switch die set => Sys2Proof.Machine.execSwitch die set s
  | .flitCrcFail die link => Sys2Proof.Machine.execFlitCrcFail die link s
  | .crcWindow die link => Sys2Proof.Machine.execCrcWindow die link s
  | .linkResetExit die link => Sys2Proof.Machine.execLinkResetExit die link s
  | .linkTrainingEnd die link offered peer spares rate => Sys2Proof.Machine.execLinkTrainingEnd die link offered peer spares rate s
  | .mshLinkRetrain port die link val => Sys2Proof.Machine.execMshLinkRetrain port die link val s
  | .regulatorIssue die m => Sys2Proof.Machine.execRegulatorIssue die m s
  | .regulatorWindow die m => Sys2Proof.Machine.execRegulatorWindow die m s
  | .bedLoadCmd port val => Sys2Proof.Machine.execBedLoadCmd port val s
  | .bedLoad session persist image => Sys2Proof.Machine.execBedLoad session persist image s
  | .bedCheckComplete => Sys2Proof.Machine.execBedCheckComplete s
  | .bedAccepted => Sys2Proof.Machine.execBedAccepted s
  | .epochQuiesce => Sys2Proof.Machine.execEpochQuiesce s
  | .bedEpochTimeout => Sys2Proof.Machine.execBedEpochTimeout s
  | .epoch die => Sys2Proof.Machine.execEpoch die s
  | .epochDone => Sys2Proof.Machine.execEpochDone s
  | .cmpFallowReq port val => Sys2Proof.Machine.execCmpFallowReq port val s
  | .fallow session fn => Sys2Proof.Machine.execFallow session fn s
  | .fallowDrained fn => Sys2Proof.Machine.execFallowDrained fn s
  | .fallowCachesClean fn => Sys2Proof.Machine.execFallowCachesClean fn s
  | .fallowDone fn => Sys2Proof.Machine.execFallowDone fn s
  | .flr fn => Sys2Proof.Machine.execFlr fn s
  | .pfFlr => Sys2Proof.Machine.execPfFlr s
  | .vfEnableClear => Sys2Proof.Machine.execVfEnableClear s
  | .msixUnmask fn kind vector => Sys2Proof.Machine.execMsixUnmask fn kind vector s
  | .hostMemRead fn off len t late => Sys2Proof.Machine.execHostMemRead fn off len t late s
  | .hostMemWrite fn off bytes ep t late => Sys2Proof.Machine.execHostMemWrite fn off bytes ep t late s
  | .bar2WindowWrite fn w val => Sys2Proof.Machine.execBar2WindowWrite fn w val s
  | .hostCompletion fn tag status data ep => Sys2Proof.Machine.execHostCompletion fn tag status data ep s
  | .completionTimeout tag age => Sys2Proof.Machine.execCompletionTimeout tag age s
  | .surpriseDown => Sys2Proof.Machine.execSurpriseDown s
  | .ideCheckFailed stream => Sys2Proof.Machine.execIdeCheckFailed stream s
  | .driveInsertion d rate width good ns => Sys2Proof.Machine.execDriveInsertion d rate width good ns s
  | .driveDmaRequest d write addr bytes len => Sys2Proof.Machine.execDriveDmaRequest d write addr bytes len s
  | .driveRemoval d => Sys2Proof.Machine.execDriveRemoval d s
  | .stoNsWrite port k val => Sys2Proof.Machine.execStoNsWrite port k val s
  | .storageRead fn k index => Sys2Proof.Machine.execStorageRead fn k index s
  | .storageWrite fn k index => Sys2Proof.Machine.execStorageWrite fn k index s
  | .storageFlush fn k index => Sys2Proof.Machine.execStorageFlush fn k index s
  | .nvmeCompletion n status data tags late => Sys2Proof.Machine.execNvmeCompletion n status data tags late s
  | .nvmeTimeout n age => Sys2Proof.Machine.execNvmeTimeout n age s
  | .portEnable p => Sys2Proof.Machine.execPortEnable p s
  | .portDisable p => Sys2Proof.Machine.execPortDisable p s
  | .lanesLocked p rate nbr nbrPort version => Sys2Proof.Machine.execLanesLocked p rate nbr nbrPort version s
  | .trainingLockTimeout p => Sys2Proof.Machine.execTrainingLockTimeout p s
  | .attestResult p ok version => Sys2Proof.Machine.execAttestResult p ok version s
  | .refusedRetry p => Sys2Proof.Machine.execRefusedRetry p s
  | .fabPortRetrain port p val => Sys2Proof.Machine.execFabPortRetrain port p val s
  | .portLinkLoss p => Sys2Proof.Machine.execPortLinkLoss p s
  | .linkFlit p seq ok tag ack nak => Sys2Proof.Machine.execLinkFlit p seq ok tag ack nak s
  | .linkKeyRollover p => Sys2Proof.Machine.execLinkKeyRollover p s
  | .tagWindow p => Sys2Proof.Machine.execTagWindow p s
  | .adj p report => Sys2Proof.Machine.execAdj p report s
  | .adjFloodTimer => Sys2Proof.Machine.execAdjFloodTimer s
  | .adjReportExpiry id => Sys2Proof.Machine.execAdjReportExpiry id s
  | .routeRecompute => Sys2Proof.Machine.execRouteRecompute s
  | .routeTransitionEnd => Sys2Proof.Machine.execRouteTransitionEnd s
  | .fabricTransit p pkt => Sys2Proof.Machine.execFabricTransit p pkt s
  | .transitWaitExpiry p n => Sys2Proof.Machine.execTransitWaitExpiry p n s
  | .get p pkt late => Sys2Proof.Machine.execGet p pkt late s
  | .put p pkt late => Sys2Proof.Machine.execPut p pkt late s
  | .remotePost p pkt => Sys2Proof.Machine.execRemotePost p pkt s
  | .contrib p pkt => Sys2Proof.Machine.execContrib p pkt s
  | .batch p pkt => Sys2Proof.Machine.execBatch p pkt s
  | .tack peer cum seq => Sys2Proof.Machine.execTack peer cum seq s
  | .remoteResponse peer pkt => Sys2Proof.Machine.execRemoteResponse peer pkt s
  | .transportRetransmit peer seq age => Sys2Proof.Machine.execTransportRetransmit peer seq age s
  | .deliveryTimeout peer seq age => Sys2Proof.Machine.execDeliveryTimeout peer seq age s
  | .remoteMarkExpiry peer rank => Sys2Proof.Machine.execRemoteMarkExpiry peer rank s
  | .versionDowngrade version => Sys2Proof.Machine.execVersionDowngrade version s
  | .accession site step info => Sys2Proof.Machine.execAccession site step info s
  | .accessionTimeout site => Sys2Proof.Machine.execAccessionTimeout site s
  | .gateOffer site cls urg gap => Sys2Proof.Machine.execGateOffer site cls urg gap s
  | .slotReturn site n => Sys2Proof.Machine.execSlotReturn site n s
  | .gatePacket site pkt late => Sys2Proof.Machine.execGatePacket site pkt late s
  | .siteWindowRequest site write addr len data host => Sys2Proof.Machine.execSiteWindowRequest site write addr len data host s
  | .chipletAnswer site id data ok => Sys2Proof.Machine.execChipletAnswer site id data ok s
  | .graftTimeout site id age => Sys2Proof.Machine.execGraftTimeout site id age s
  | .sinkLimitMiss site => Sys2Proof.Machine.execSinkLimitMiss site s
  | .gftSiteReset port site val => Sys2Proof.Machine.execGftSiteReset port site val s
  | .siteResetTimer site => Sys2Proof.Machine.execSiteResetTimer site s
  | .gftWinWrite port site w hi val => Sys2Proof.Machine.execGftWinWrite port site w hi val s
  | .graftPowerWindow site power => Sys2Proof.Machine.execGraftPowerWindow site power s
  | .graftThermal site temp => Sys2Proof.Machine.execGraftThermal site temp s
  | .getVersion mgmt => Sys2Proof.Machine.execGetVersion mgmt s
  | .getCapabilities mgmt => Sys2Proof.Machine.execGetCapabilities mgmt s
  | .negotiateAlgorithms mgmt algs => Sys2Proof.Machine.execNegotiateAlgorithms mgmt algs s
  | .getDigests mgmt => Sys2Proof.Machine.execGetDigests mgmt s
  | .getCertificate mgmt slot off len => Sys2Proof.Machine.execGetCertificate mgmt slot off len s
  | .challenge mgmt slot nonce => Sys2Proof.Machine.execChallenge mgmt slot nonce s
  | .getMeasurements mgmt index nonce => Sys2Proof.Machine.execGetMeasurements mgmt index nonce s
  | .keyExchange mgmt req => Sys2Proof.Machine.execKeyExchange mgmt req s
  | .finish mgmt session ok => Sys2Proof.Machine.execFinish mgmt session ok s
  | .heartbeat session => Sys2Proof.Machine.execHeartbeat session s
  | .keyUpdate session => Sys2Proof.Machine.execKeyUpdate session s
  | .endSession session => Sys2Proof.Machine.execEndSession session s
  | .chunkSend mgmt last data => Sys2Proof.Machine.execChunkSend mgmt last data s
  | .chunkGet mgmt len => Sys2Proof.Machine.execChunkGet mgmt len s
  | .ideKm session stream => Sys2Proof.Machine.execIdeKm session stream s
  | .keyRelease session msg => Sys2Proof.Machine.execKeyRelease session msg s
  | .keyErase session msg => Sys2Proof.Machine.execKeyErase session msg s
  | .approve session msg => Sys2Proof.Machine.execApprove session msg s
  | .approveWithdraw session msg => Sys2Proof.Machine.execApproveWithdraw session msg s
  | .releaseFetch session msg => Sys2Proof.Machine.execReleaseFetch session msg s
  | .getTdispVersion session fn => Sys2Proof.Machine.execGetTdispVersion session fn s
  | .getTdispCapabilities session fn => Sys2Proof.Machine.execGetTdispCapabilities session fn s
  | .lockInterfaceRequest session fn stream => Sys2Proof.Machine.execLockInterfaceRequest session fn stream s
  | .startInterfaceRequest session fn nonce => Sys2Proof.Machine.execStartInterfaceRequest session fn nonce s
  | .stopInterfaceRequest session fn => Sys2Proof.Machine.execStopInterfaceRequest session fn s
  | .lockedRegisterWrite fn off val t => Sys2Proof.Machine.execLockedRegisterWrite fn off val t s
  | .tlsHandshake ok root => Sys2Proof.Machine.execTlsHandshake ok root s
  | .bind session ok => Sys2Proof.Machine.execBind session ok s
  | .sessionIdleTimeout session => Sys2Proof.Machine.execSessionIdleTimeout session s
  | .regRead session die off count => Sys2Proof.Machine.execRegRead session die off count s
  | .regWrite session die off val => Sys2Proof.Machine.execRegWrite session die off val s
  | .ownerClaim port val => Sys2Proof.Machine.execOwnerClaim port val s
  | .ownerSetAnchor session anchor => Sys2Proof.Machine.execOwnerSetAnchor session anchor s
  | .ownerSetOperatorKey session slot keys => Sys2Proof.Machine.execOwnerSetOperatorKey session slot keys s
  | .ownerSetUpdateLock session val => Sys2Proof.Machine.execOwnerSetUpdateLock session val s
  | .ownerSetEh1608Path session val => Sys2Proof.Machine.execOwnerSetEh1608Path session val s
  | .lcRequest port session val supply => Sys2Proof.Machine.execLcRequest port session val supply s
  | .lcStepDone => Sys2Proof.Machine.execLcStepDone s
  | .debugChallenge session scope => Sys2Proof.Machine.execDebugChallenge session scope s
  | .debugNonceExpiry => Sys2Proof.Machine.execDebugNonceExpiry s
  | .debugGrant session grant => Sys2Proof.Machine.execDebugGrant session grant s
  | .debugGranted => Sys2Proof.Machine.execDebugGranted s
  | .jtagInstruction op data => Sys2Proof.Machine.execJtagInstruction op data s
  | .eh1608Unlock => Sys2Proof.Machine.execEh1608Unlock s
  | .updBegin session total supply => Sys2Proof.Machine.execUpdBegin session total supply s
  | .updData session off data => Sys2Proof.Machine.execUpdData session off data s
  | .updEnd session => Sys2Proof.Machine.execUpdEnd session s
  | .activate session supply => Sys2Proof.Machine.execActivate session supply s
  | .standbyBootDone => Sys2Proof.Machine.execStandbyBootDone s
  | .healthOk => Sys2Proof.Machine.execHealthOk s
  | .healthCheckFail => Sys2Proof.Machine.execHealthCheckFail s
  | .confirm session => Sys2Proof.Machine.execConfirm session s
  | .abort session => Sys2Proof.Machine.execAbort session s
  | .status session => Sys2Proof.Machine.execStatus session s
  | .confirmWindowExpiry => Sys2Proof.Machine.execConfirmWindowExpiry s
  | .updMboxCmd port val => Sys2Proof.Machine.execUpdMboxCmd port val s
  | .coreError die core unit again => Sys2Proof.Machine.execCoreError die core unit again s
  | .tileFault die reason bad => Sys2Proof.Machine.execTileFault die reason bad s
  | .handoverDone ls => Sys2Proof.Machine.execHandoverDone ls s
  | .recoveryDone ls => Sys2Proof.Machine.execRecoveryDone ls s
  | .txnTimeout die => Sys2Proof.Machine.execTxnTimeout die s
  | .heartbeatMiss => Sys2Proof.Machine.execHeartbeatMiss s
  | .lockstepError => Sys2Proof.Machine.execLockstepError s
  | .standbyRestored => Sys2Proof.Machine.execStandbyRestored s
  | .curReplaceClear port val => Sys2Proof.Machine.execCurReplaceClear port val s
  | .curBistCmd port val => Sys2Proof.Machine.execCurBistCmd port val s
  | .bistDone results => Sys2Proof.Machine.execBistDone results s
  | .curRotate port val => Sys2Proof.Machine.execCurRotate port val s
  | .pwrOkRise a b strap => Sys2Proof.Machine.execPwrOkRise a b strap s
  | .perstN a b => Sys2Proof.Machine.execPerstN a b s
  | .hotReset a b => Sys2Proof.Machine.execHotReset a b s
  | .bootStepDone ms => Sys2Proof.Machine.execBootStepDone ms s
  | .powerLoss => Sys2Proof.Machine.execPowerLoss s
  | .refclkLoss b => Sys2Proof.Machine.execRefclkLoss b s
  | .refclkGoodTimer b => Sys2Proof.Machine.execRefclkGoodTimer b s
  | .restEntry die => Sys2Proof.Machine.execRestEntry die s
  | .restExit die => Sys2Proof.Machine.execRestExit die s
  | .pwrStateReqEnter port val => Sys2Proof.Machine.execPwrStateReqEnter port val s
  | .pwrStateReqExit port val => Sys2Proof.Machine.execPwrStateReqExit port val s
  | .pmcsrWrite d3 => Sys2Proof.Machine.execPmcsrWrite d3 s
  | .deepRestExitDone => Sys2Proof.Machine.execDeepRestExitDone s
  | .throttleWindow power hot temps drams => Sys2Proof.Machine.execThrottleWindow power hot temps drams s
  | .thermalTrip => Sys2Proof.Machine.execThermalTrip s
  | .pwrOkFall => Sys2Proof.Machine.execPwrOkFall s
  | .perstNRise => Sys2Proof.Machine.execPerstNRise s
  | .fabricLinkSend p waits => Sys2Proof.Machine.execFabricLinkSend p waits s
  | .deepRestEntered => Sys2Proof.Machine.execDeepRestEntered s
  | .memCeThreshWrite port die val => Sys2Proof.Machine.execMemCeThreshWrite port die val s

end Sys2Proof.Machine
end

