-- ==== Sys2Proof/Safety.lean ====
section
/-! DEFINITION. The terms that claims use: completion of a command, what stays the same, and the invariants of the state. -/

namespace Sys2Proof.Machine

/-- The command completes: `exec` answers a next state, and `P` holds of it. -/
def Completes (c : Instr) (s : State) (P : State → Prop) : Prop := ∃ t, exec c s = .next t ∧ P t

/-- Every byte of memory reads as before. -/
def SameMem (s t : State) : Prop := ∀ a, memGet t.mem a = memGet s.mem a

/-- Every byte of memory outside `[a, a + n)` reads as before. -/
def SameMemBut (s t : State) (a n : Nat) : Prop := ∀ b, (b < a ∨ a + n ≤ b) → memGet t.mem b = memGet s.mem b

/-- `s` with core `i` of die `d` holding `c`, and nothing else changed. -/
def State.withCore (s : State) (d i : Nat) (c : Core) : State :=
  { s with tiles := s.tiles.put d { s.tile d with cores := (s.tile d).cores.put i c } }

/-- `s` with compartment `c` holding `m`, and nothing else changed. -/
def State.withCmpt (s : State) (c : Nat) (m : Cmpt) : State := { s with cmpts := s.cmpts.put c m }

/-- `s` with logical stack `l` holding `k`, and nothing else changed. -/
def State.withStack (s : State) (l : Nat) (k : Stack) : State := { s with stk := s.stk.put l k }

/-- `s` with router `d` holding `r`, and nothing else changed. -/
def State.withRouter (s : State) (d : Nat) (r : Router) : State := { s with routers := s.routers.put d r }

/-- `s` with fabric port `p` holding `x`, and nothing else changed. -/
def State.withPort (s : State) (p : Nat) (x : FabPort) : State := { s with fab := { s.fab with ports := s.fab.ports.put p x } }

/-- `s` with graft site `k` holding `x`, and nothing else changed. -/
def State.withSite (s : State) (k : Nat) (x : Site) : State := { s with sites := s.sites.put k x }

/-- A write of function `fn` to BAR0 passes every gate: the compartment is not FALLOW, its TDI does not lock it, no write of it is held, and it is not a vitrine that waits for activation (Table 13.3, R354, R360). -/
def State.bar0Free (s : State) (fn : Nat) : Prop :=
  fn < 64 ∧ s.cstate fn ≠ .fallow ∧ (s.cmpt fn).tdi = .unlocked ∧ (s.cmpt fn).heldWr = [] ∧
    ((s.cmpt fn).vitrine = false ∨ (s.cmpt fn).active = true)

/-- Queue `q` of a core has `e` as its oldest command that no unit has issued; its opcode is `op`, its wait holds, its post may be made, and its unit may take it (R64, R85, R88, R89). -/
def State.readyCmd (s : State) (d i q op : Nat) (e : QEntry) : Prop :=
  isTileDie d = true ∧ i < 8 ∧ q < 6 ∧ (∃ p, oldestWaiting ((s.core d i).queue q) = some (p, e)) ∧ qop e.word = op ∧
    s.cmdWait d i e = true ∧ (q = 5 → (s.core d i).movSeed = none) ∧
    (qpostEn e.word = true → pwFormat (qpost e.word) = true ∧ s.corePostOk d i (s.coreCmpt d i) (qpost e.word) = true ∧
      (pwKind (qpost e.word) = 3 → s.hasFabric = true))

/-- From `s` to `t` dispatcher counter `i` has taken the value `v`, and the waits on it that `v` or its old value meets, of the descriptors first in their rings, are met; no other counter and nothing else of any ring or compartment has changed (R63, R64). -/
def State.dispSet (s t : State) (i : Nat) (v : BitVec 16) : Prop :=
  t.dispCnt = s.dispCnt.put i v ∧ ∀ c, t.cmpt c = { s.cmpt c with sq := (t.cmpt c).sq } ∧
    ∀ k, (t.cmpt c).ring k = ((s.cmpt c).ring k).latch i (s.dispCnt.look i 0) v

/-- The command `id` of a queue is done with a code. -/
def State.doneAs (t : State) (d i q id : Nat) (code : BitVec 16) : Prop :=
  ∃ e ∈ (t.core d i).queue q, e.id = id ∧ e.st = .done ∧ e.code = code

/-- From `s` to `t` only one core, memory, poison and the count of free values have changed; of memory, only `n` bytes of that core's store from offset `o`. -/
def State.storeOnly (s t : State) (d i o n : Nat) : Prop :=
  t = { s with tiles := t.tiles, mem := t.mem, poison := t.poison, tick := t.tick } ∧
    (∀ d' i', (d', i') ≠ (d, i) → t.core d' i' = s.core d' i') ∧ SameMemBut s t (storeBase d i + o) n

/-- No coherence message is on its way, and no cache and no directory holds a line that meets `n` bytes from `a`. -/
def State.uncached (s : State) (a n : Nat) : Prop :=
  s.coh = [] ∧ (∀ d u, ∀ e ∈ (s.cache d u).lines, lineIn a n e.1 = false) ∧ (∀ h, ∀ e ∈ (s.home h).dir, lineIn a n e.1 = false)

/-- The head command of a compartment's queue `k` at stack `l` is `e`; it has started, its opcode is `op`, its mappings hold and its checks pass (R118, R221). -/
def State.ssuGoing (s : State) (l c k op : Nat) (e : SsuCmd) : Prop :=
  s.ready l = true ∧ (∃ q, (s.stack l).queue c k = e :: q) ∧ e.st = .running ∧ e.op = op ∧ s.stale c e.xlats = false ∧ s.startCheck l c e = 0

/-- The virtual range of a compartment lies in one piece of memory at `a`, is present, and no cache holds a line of it. -/
def State.plainAt (s : State) (c va n a : Nat) : Prop :=
  s.vaPieces c va n = [(a, n)] ∧ s.vaAbsent c va n = none ∧ s.uncached a n ∧ (inStacks a = true → ∀ j, j < n → s.stripeOf (paLs (a + j)) (paOff (a + j)) = none)

/-- The poison list rises strictly. -/
def poisonWf (l : List Nat) : Bool := decide (l.Pairwise (· < ·))

/-- `s` with the messages `l` on the mesh, and nothing else changed. -/
def State.withCoh (s : State) (l : List CohMsg) : State := { s with coh := l }

/-- Message `m` of a live sender is the only coherence message on the mesh, its home serves no line, holds no request and waits for no recovery, with room in the line's directory set, and neither a rebuild nor an open aggregation window bars the line (R133, R179, R190, R197, R206, R207). -/
def State.soleMsg (s : State) (m : CohMsg) : Prop :=
  s.coh = [m] ∧ m.home ≤ 32 ∧ (s.home m.home).hq = [] ∧ (s.home m.home).txns = [] ∧ (s.home m.home).recover = [] ∧
    (s.setEntries m.home m.line).length < 16 ∧ m.dead = false ∧ m.done = false ∧
    s.readWaits [(128 * m.line, 128)] = false ∧ s.clipHit (128 * m.line) 128 = false

/-- From `s` to `t` only messages and one home have changed. -/
def State.onlyHome (s t : State) (h : Nat) : Prop :=
  t = { s with coh := t.coh, stk := t.stk, hubHome := t.hubHome } ∧ ∀ k, k ≠ h → t.home k = s.home k

/-- A whole sector of a stack at `a` that lies in no guarded area. -/
def State.plainSec (s : State) (a : Nat) : Prop := a < 0x0100_0000_0000 ∧ a % 32 = 0 ∧ s.stripeOf (paLs a) (paOff a) = none

/-- The state once the transport has accepted a request at port `p` as the next of its connection, and acknowledged it (R325). -/
def State.tookReq (s : State) (p : Nat) (k : FabPkt) : State :=
  (s.modConn k.src.toNat (fun c => { c with recvLow := c.recvLow + 1, recvd := [] })).tackSend p { k with port := p }

/-- A request with opcode `op` for this device arrives in sequence at an UP port, and it passes every check of R328. -/
def State.freshReq (s : State) (p op : Nat) (k : FabPkt) : Prop :=
  s.hasFabric = true ∧ s.portUp p = true ∧ k.crcOk = true ∧ k.dst = s.fab.id ∧ s.fab.id ≠ 0xFFFF ∧ k.op = BitVec.ofNat 8 op ∧ bit k.flags 0 = false ∧
    (k.dstInc = 0 ∨ k.dstInc = s.fab.inc) ∧ (s.conn k.src.toNat).theirInc = k.srcInc ∧ k.seq = (s.conn k.src.toNat).recvLow ∧ (s.conn k.src.toNat).recvd = [] ∧
    (s.tookReq p k).cstate (grCmpt ((s.tookReq p k).grantOf k)) ≠ .fallow ∧ (s.tookReq p k).remoteCode { k with port := p } = 0

/-- Commands that act on a device that is not up: power and clocks, start-up, link training, accession, the life cycle, JTAG, the recovery mailbox and the management network (R398, R420, R424, R427, R429). -/
def servedDown (c : Instr) : Bool :=
  match c with
  | .pwrOkRise .. | .pwrOkFall | .powerLoss | .perstN .. | .perstNRise | .hotReset .. | .bootStepDone .. | .refclkLoss .. | .refclkGoodTimer .. | .thermalTrip => true
  | .linkResetExit .. | .linkTrainingEnd .. | .accession .. | .accessionTimeout .. => true
  | .lcRequest .. | .lcStepDone | .eh1608Unlock | .jtagInstruction .. => true
  | .registerWrite .. | .updMboxCmd .. | .updBegin .. | .updData .. | .updEnd .. | .activate .. | .confirm .. | .abort .. | .status .. => true
  | .tlsHandshake .. | .bind .. | .sessionIdleTimeout .. => true
  | _ => false

/-- A scrapped package at rest: every bit of the codeword in force and of the fuse copies' majority is set, and start-up stands at its first step (R375, R378). -/
def State.scrapped (s : State) : Prop := s.lcWord = BitVec.allOnes 32 ∧ s.lcVote = BitVec.allOnes 32 ∧ s.pwr.bootStep = 1 ∧ s.pwr.recovery = false

end Sys2Proof.Machine
end

