-- ==== Sys2Proof/WellFormed.lean ====
section
/-! DEFINITION. Well-formed commands: every unit number an operand gives names a unit the device has, and every length fits its field. -/

namespace Sys2Proof.WellFormed

/-- A die number: hub 0, tiles 1 to 28, graft dies 29 to 32 (Table 0.3). -/
def dieOk (d : Nat) : Bool := decide (d ≤ 32)
/-- A tile die, 1 to 28 (Table 0.3). -/
def tileOk (d : Nat) : Bool := decide (1 ≤ d ∧ d ≤ 28)
/-- A core of a tile, 0 to 7. -/
def coreOk (c : Nat) : Bool := decide (c < 8)
/-- A command queue of a core, 0 to 5. -/
def queueOk (q : Nat) : Bool := decide (q < 6)
/-- A core counter, 0 to 63 (COR_TKN). -/
def counterOk (i : Nat) : Bool := decide (i < 64)
/-- An entry of COR_RPT, 0 to 15 (Table 3.6). -/
def rptOk (j : Nat) : Bool := decide (j < 16)
/-- A dispatcher counter that a VF posts to, 0 to 7 (R67). -/
def dispOk (j : Nat) : Bool := decide (j < 8)
/-- A logical stack, 0 to 31 (Table 3.6). -/
def stackOk (l : Nat) : Bool := decide (l < 32)
/-- A PCIe function: the PF 0 and VFs 1 to 63. -/
def fnOk (f : Nat) : Bool := decide (f < 64)
/-- A submission ring of a function, 0 to 3. -/
def ringOk (k : Nat) : Bool := decide (k < 4)
/-- A ring of a function with its completion ring 4 and event ring 5. -/
def ring6Ok (k : Nat) : Bool := decide (k < 6)
/-- A descriptor's place in the queue of its ring. -/
def indexOk (i : Nat) : Bool := decide (i < 65536)
/-- A graft site, 0 to 3. -/
def siteOk (x : Nat) : Bool := decide (x < 4)
/-- A fabric port, 0 to 27. -/
def portOk (p : Nat) : Bool := decide (p < 28)
/-- A drive, 0 to 3. -/
def driveOk (d : Nat) : Bool := decide (d < 4)
/-- An IDE stream. -/
def streamOk (x : Nat) : Bool := decide (x ≤ 16)
/-- A segment entry, 0 to 15. -/
def segOk (x : Nat) : Bool := decide (x < 16)
/-- A mesh link of a die. -/
def linkOk (l : Nat) : Bool := decide (l < 8)
/-- A router output: a link, or the die itself. -/
def outOk (o : Nat) : Bool := decide (o ≤ 8)
/-- A virtual channel of a router, by input. -/
def vcOk (v : Nat) : Bool := decide (v < 512)
/-- A detour set number. -/
def setOk (n : Nat) : Bool := decide (n < 256)
/-- What an MSIX_UNMASK acts on: 0 a vector, 1 Function Mask, 2 MSI-X Enable (R281). -/
def kindOk (k : Nat) : Bool := decide (k ≤ 2)
/-- An MSI-X vector (R281). -/
def vectorOk (v : Nat) : Bool := decide (v < 64)
/-- The destination of a load: 0 to 31 integer, 32 to 63 floating-point, 64 to 95 vector, 128 to 159 integer with sign extension (log 16). -/
def regOk (r : Nat) : Bool := decide (r < 96 ∨ 128 ≤ r ∧ r < 160)
/-- The bytes of a control-processor access: one vector register at most. -/
def sizeOk (n : Nat) : Bool := decide (1 ≤ n ∧ n ≤ 128)
/-- A store into the 32 bytes of a command port (R60). -/
def portSpan (off n : Nat) : Bool := decide (1 ≤ n ∧ off + n ≤ 32)
/-- A service class, 0 to 15. -/
def classOk (c : Nat) : Bool := decide (c < 16)
/-- A priority, 0 to 3. -/
def prioOk (p : Nat) : Bool := decide (p < 4)
/-- A step of accession, 1 to 6 (Table 16.2). -/
def stepOk (n : Nat) : Bool := decide (1 ≤ n ∧ n ≤ 6)
/-- A master of a die (Table 11.3). -/
def masterOk (m : Nat) : Bool := decide (m < 32)
/-- A pseudo-channel of a stack. -/
def pchOk (c : Nat) : Bool := decide (c < 32)
/-- A bank of a pseudo-channel. -/
def bankOk (b : Nat) : Bool := decide (b < 64)
/-- A graft site window, 0 to 15 (R349). -/
def winOk (w : Nat) : Bool := decide (w < 16)
/-- A BAR2 window, 0 to 255 (R294). -/
def bar2Ok (w : Nat) : Bool := decide (w < 256)
/-- An entry of STO_NS, 0 to 63 (R306). -/
def nsOk (k : Nat) : Bool := decide (k < 64)
/-- The words of a REG_READ, 1 to 512 (Table 18.3). -/
def countOk (n : Nat) : Bool := decide (1 ≤ n ∧ n ≤ 512)
/-- The bytes of one host request: 1 to 4,096. -/
def lenOk (n : Nat) : Bool := decide (1 ≤ n ∧ n ≤ 4096)
/-- The bytes of a stack write: one 128-byte line at most, in whole 32-byte sectors. -/
def bytesOk (n : Nat) : Bool := decide (1 ≤ n ∧ n ≤ 128)
/-- Readings by die: the hub and 28 tiles at most. -/
def fitsDies (l : List Nat) : Bool := decide (l.length ≤ 29)
/-- A certificate slot of SPDM, 0 to 7. -/
def slotOk (n : Nat) : Bool := decide (n < 8)
/-- A measurement index, 0 to 255. -/
def measOk (n : Nat) : Bool := decide (n < 256)
/-- An SPDM nonce: 32 bytes. -/
def nonceOk (n : Nat) : Bool := decide (n = 32)
/-- An operator key slot, 0 to 3 (Table 18.4). -/
def keySlotOk (n : Nat) : Bool := decide (n < 4)

end Sys2Proof.WellFormed

namespace Sys2Proof
open WellFormed

/-- The well-formed commands. -/
def Instr.wf : Instr → Bool
  | .registerWrite _ _ die _ _ => dieOk die
  | .corTknWrite die core idx _ _ => tileOk die && coreOk core && counterOk idx
  | .corTknPost die core idx _ => tileOk die && coreOk core && counterOk idx
  | .corWait die core _ => tileOk die && coreOk core
  | .corQstatClear die core q _ => tileOk die && coreOk core && queueOk q
  | .corRptWrite die core j _ => tileOk die && coreOk core && rptOk j
  | .cmdPortStore die core q off bytes => tileOk die && coreOk core && queueOk q && portSpan off bytes.length
  | .kernelExit die core _ _ => tileOk die && coreOk core
  | .cpTrap die core _ _ => tileOk die && coreOk core
  | .fenceI die core => tileOk die && coreOk core
  | .cpLoad die core _ size rd _ => tileOk die && coreOk core && sizeOk size && regOk rd
  | .cpStore die core _ bytes _ => tileOk die && coreOk core && sizeOk bytes.length
  | .lineEviction _ _ => true
  | .tokenPost _ => true
  | .tokenStall _ _ => true
  | .hubTknStallLimitWrite _ _ => true
  | .sqDoorbell fn k _ => fnOk fn && ringOk k
  | .ringCtrlWrite fn ring _ _ => fnOk fn && ring6Ok ring
  | .cmpCqHeadDoorbell fn _ => fnOk fn
  | .cmpEqHeadDoorbell fn _ => fnOk fn
  | .cmpTknPost fn j _ => fnOk fn && dispOk j
  | .descriptorEnqueue fn k => fnOk fn && ringOk k
  | .descriptorStart fn k => fnOk fn && ringOk k
  | .descriptorComplete fn k index => fnOk fn && ringOk k && indexOk index
  | .rankStart fn k index => fnOk fn && ringOk k && indexOk index
  | .rankFinish die core => tileOk die && coreOk core
  | .movCopy die core => tileOk die && coreOk core
  | .movCopy2d die core => tileOk die && coreOk core
  | .movConvert die core => tileOk die && coreOk core
  | .movFill die core => tileOk die && coreOk core
  | .moverCmdComplete die core => tileOk die && coreOk core
  | .wait die core q _ => tileOk die && coreOk core && queueOk q
  | .post die core q _ => tileOk die && coreOk core && queueOk q
  | .fence die core q _ => tileOk die && coreOk core && queueOk q
  | .rngSeed die core q _ => tileOk die && coreOk core && queueOk q
  | .loadA die core q _ => tileOk die && coreOk core && queueOk q
  | .loadB die core q _ => tileOk die && coreOk core && queueOk q
  | .scaleSet die core q _ => tileOk die && coreOk core && queueOk q
  | .mma die core q _ => tileOk die && coreOk core && queueOk q
  | .mmaSplit die core q _ => tileOk die && coreOk core && queueOk q
  | .accClear die core q _ => tileOk die && coreOk core && queueOk q
  | .accRead die core q _ => tileOk die && coreOk core && queueOk q
  | .storeC die core q _ => tileOk die && coreOk core && queueOk q
  | .engineCmdComplete die core q => tileOk die && coreOk core && queueOk q
  | .eltwise die core => tileOk die && coreOk core
  | .shpReduce die core => tileOk die && coreOk core
  | .softmax die core => tileOk die && coreOk core
  | .norm die core => tileOk die && coreOk core
  | .normL2 die core => tileOk die && coreOk core
  | .convert die core => tileOk die && coreOk core
  | .shpGather die core => tileOk die && coreOk core
  | .ssuCmdStart ls fn k => stackOk ls && fnOk fn && ringOk k
  | .winOpen ls fn k => stackOk ls && fnOk fn && ringOk k
  | .winClose ls fn k => stackOk ls && fnOk fn && ringOk k
  | .winFree ls fn k => stackOk ls && fnOk fn && ringOk k
  | .ssuReduce ls fn k => stackOk ls && fnOk fn && ringOk k
  | .clipNoise ls fn k => stackOk ls && fnOk fn && ringOk k
  | .contribution ls _ _ => stackOk ls
  | .optStep ls fn k => stackOk ls && fnOk fn && ringOk k
  | .ssuGather ls fn k => stackOk ls && fnOk fn && ringOk k
  | .scatter ls fn k => stackOk ls && fnOk fn && ringOk k
  | .parity ls fn k => stackOk ls && fnOk fn && ringOk k
  | .wipe ls fn k => stackOk ls && fnOk fn && ringOk k
  | .migrate ls fn k => stackOk ls && fnOk fn && ringOk k
  | .migrateCopyDone ls => stackOk ls
  | .noiseRekey ls => stackOk ls
  | .attend ls fn k => stackOk ls && fnOk fn && ringOk k
  | .merge ls fn k => stackOk ls && fnOk fn && ringOk k
  | .memRead ls _ _ decs cls prio => stackOk ls && classOk cls && prioOk prio && decide (decs.length = 4)
  | .memWrite ls _ bytes _ _ cls prio => stackOk ls && classOk cls && prioOk prio && bytesOk bytes.length
  | .controllerIssue die pc => dieOk die && pchOk pc
  | .floorWindow die => dieOk die
  | .queueLevelBroadcast die => dieOk die
  | .refresh die pc bank => dieOk die && pchOk pc && bankOk bank
  | .patrolScrub ls _ => stackOk ls
  | .ceWindowEnd die => dieOk die
  | .memCeWindowWrite _ die _ => dieOk die
  | .parityDelta ls _ _ => stackOk ls
  | .rebuild _ => true
  | .stripeRead _ _ => true
  | .stripeReply _ _ => true
  | .rdShared _ => true
  | .rdUnique _ => true
  | .upgrade _ => true
  | .markDirty _ => true
  | .wrBack _ => true
  | .evictClean _ => true
  | .rdNc _ => true
  | .wrNc _ => true
  | .snpShared _ => true
  | .snpInv _ => true
  | .push _ => true
  | .grantS _ => true
  | .grantE _ => true
  | .ack _ => true
  | .ackData _ => true
  | .dirtyAck _ => true
  | .dirtyStale _ => true
  | .wbAck _ => true
  | .pushAck _ => true
  | .pushDecline _ => true
  | .recoverDone _ => true
  | .recoverAck _ => true
  | .snoopLimitMiss die => dieOk die
  | .agentDeath die => dieOk die
  | .tilRlcFlush _ die _ => dieOk die
  | .hubScFlush _ _ => true
  | .pageIn fn _ => fnOk fn
  | .pageInDone fn _ => fnOk fn
  | .pageOut fn _ => fnOk fn
  | .pageOutDone fn _ => fnOk fn
  | .pageFail fn _ => fnOk fn
  | .faultTimeout fn _ _ => fnOk fn
  | .hubUnmapReq _ _ => true
  | .withdrawn fn seg => fnOk fn && segOk seg
  | .routerArrival _ _ => true
  | .outputArbitration die out => dieOk die && outOk out
  | .ageTick die vc _ => dieOk die && vcOk vc
  | .packetDelivery die _ _ => dieOk die
  | .switch die set => dieOk die && setOk set
  | .flitCrcFail die link => dieOk die && linkOk link
  | .crcWindow die link => dieOk die && linkOk link
  | .linkResetExit die link => dieOk die && linkOk link
  | .linkTrainingEnd die link _ _ _ _ => dieOk die && linkOk link
  | .mshLinkRetrain _ die link _ => dieOk die && linkOk link
  | .regulatorIssue die m => dieOk die && masterOk m
  | .regulatorWindow die m => dieOk die && masterOk m
  | .bedLoadCmd _ _ => true
  | .bedLoad _ _ _ => true
  | .bedCheckComplete => true
  | .bedAccepted => true
  | .epochQuiesce => true
  | .bedEpochTimeout => true
  | .epoch die => dieOk die
  | .epochDone => true
  | .cmpFallowReq _ _ => true
  | .fallow _ fn => fnOk fn
  | .fallowDrained fn => fnOk fn
  | .fallowCachesClean fn => fnOk fn
  | .fallowDone fn => fnOk fn
  | .flr fn => fnOk fn
  | .pfFlr => true
  | .vfEnableClear => true
  | .msixUnmask fn kind vector => fnOk fn && kindOk kind && vectorOk vector
  | .hostMemRead fn _ len _ _ => fnOk fn && lenOk len
  | .hostMemWrite fn _ bytes _ _ _ => fnOk fn && lenOk bytes.length
  | .bar2WindowWrite fn w _ => fnOk fn && bar2Ok w
  | .hostCompletion fn _ _ _ _ => fnOk fn
  | .completionTimeout _ _ => true
  | .surpriseDown => true
  | .ideCheckFailed stream => streamOk stream
  | .driveInsertion d _ _ _ _ => driveOk d
  | .driveDmaRequest d _ _ _ _ => driveOk d
  | .driveRemoval d => driveOk d
  | .stoNsWrite _ k _ => nsOk k
  | .storageRead fn k index => fnOk fn && ringOk k && indexOk index
  | .storageWrite fn k index => fnOk fn && ringOk k && indexOk index
  | .storageFlush fn k index => fnOk fn && ringOk k && indexOk index
  | .nvmeCompletion _ _ _ _ _ => true
  | .nvmeTimeout _ _ => true
  | .portEnable p => portOk p
  | .portDisable p => portOk p
  | .lanesLocked p _ _ _ _ => portOk p
  | .trainingLockTimeout p => portOk p
  | .attestResult p _ _ => portOk p
  | .refusedRetry p => portOk p
  | .fabPortRetrain _ p _ => portOk p
  | .portLinkLoss p => portOk p
  | .linkFlit p _ _ _ _ _ => portOk p
  | .linkKeyRollover p => portOk p
  | .tagWindow p => portOk p
  | .adj p _ => portOk p
  | .adjFloodTimer => true
  | .adjReportExpiry _ => true
  | .routeRecompute => true
  | .routeTransitionEnd => true
  | .fabricTransit p _ => portOk p
  | .transitWaitExpiry p _ => portOk p
  | .get p _ _ => portOk p
  | .put p _ _ => portOk p
  | .remotePost p _ => portOk p
  | .contrib p _ => portOk p
  | .batch p _ => portOk p
  | .tack _ _ _ => true
  | .remoteResponse _ _ => true
  | .transportRetransmit _ _ _ => true
  | .deliveryTimeout _ _ _ => true
  | .remoteMarkExpiry _ _ => true
  | .versionDowngrade _ => true
  | .accession site step _ => siteOk site && stepOk step
  | .accessionTimeout site => siteOk site
  | .gateOffer site cls _ _ => siteOk site && classOk cls
  | .slotReturn site _ => siteOk site
  | .gatePacket site _ _ => siteOk site
  | .siteWindowRequest site _ _ _ _ _ => siteOk site
  | .chipletAnswer site _ _ _ => siteOk site
  | .graftTimeout site _ _ => siteOk site
  | .sinkLimitMiss site => siteOk site
  | .gftSiteReset _ site _ => siteOk site
  | .siteResetTimer site => siteOk site
  | .gftWinWrite _ site w _ _ => siteOk site && winOk w
  | .graftPowerWindow site _ => siteOk site
  | .graftThermal site _ => siteOk site
  | .getVersion _ => true
  | .getCapabilities _ => true
  | .negotiateAlgorithms _ _ => true
  | .getDigests _ => true
  | .getCertificate _ slot _ _ => slotOk slot
  | .challenge _ slot nonce => slotOk slot && nonceOk nonce.length
  | .getMeasurements _ index nonce => measOk index && nonceOk nonce.length
  | .keyExchange _ _ => true
  | .finish _ _ _ => true
  | .heartbeat _ => true
  | .keyUpdate _ => true
  | .endSession _ => true
  | .chunkSend _ _ _ => true
  | .chunkGet _ _ => true
  | .ideKm _ stream => streamOk stream
  | .keyRelease _ _ => true
  | .keyErase _ _ => true
  | .approve _ _ => true
  | .approveWithdraw _ _ => true
  | .releaseFetch _ _ => true
  | .getTdispVersion _ fn => fnOk fn
  | .getTdispCapabilities _ fn => fnOk fn
  | .lockInterfaceRequest _ fn stream => fnOk fn && streamOk stream
  | .startInterfaceRequest _ fn _ => fnOk fn
  | .stopInterfaceRequest _ fn => fnOk fn
  | .lockedRegisterWrite fn _ _ _ => fnOk fn
  | .tlsHandshake _ _ => true
  | .bind _ _ => true
  | .sessionIdleTimeout _ => true
  | .regRead _ die _ count => dieOk die && countOk count
  | .regWrite _ die _ _ => dieOk die
  | .ownerClaim _ _ => true
  | .ownerSetAnchor _ _ => true
  | .ownerSetOperatorKey _ slot _ => keySlotOk slot
  | .ownerSetUpdateLock _ _ => true
  | .ownerSetEh1608Path _ _ => true
  | .lcRequest _ _ _ _ => true
  | .lcStepDone => true
  | .debugChallenge _ _ => true
  | .debugNonceExpiry => true
  | .debugGrant _ _ => true
  | .debugGranted => true
  | .jtagInstruction _ _ => true
  | .eh1608Unlock => true
  | .updBegin _ _ _ => true
  | .updData _ _ _ => true
  | .updEnd _ => true
  | .activate _ _ => true
  | .standbyBootDone => true
  | .healthOk => true
  | .healthCheckFail => true
  | .confirm _ => true
  | .abort _ => true
  | .status _ => true
  | .confirmWindowExpiry => true
  | .updMboxCmd _ _ => true
  | .coreError die core _ _ => tileOk die && coreOk core
  | .tileFault die _ _ => dieOk die
  | .handoverDone ls => stackOk ls
  | .recoveryDone ls => stackOk ls
  | .txnTimeout die => dieOk die
  | .heartbeatMiss => true
  | .lockstepError => true
  | .standbyRestored => true
  | .curReplaceClear _ _ => true
  | .curBistCmd _ _ => true
  | .bistDone _ => true
  | .curRotate _ _ => true
  | .pwrOkRise _ _ _ => true
  | .perstN _ _ => true
  | .hotReset _ _ => true
  | .bootStepDone _ => true
  | .powerLoss => true
  | .refclkLoss _ => true
  | .refclkGoodTimer _ => true
  | .restEntry die => dieOk die
  | .restExit die => dieOk die
  | .pwrStateReqEnter _ _ => true
  | .pwrStateReqExit _ _ => true
  | .pmcsrWrite _ => true
  | .deepRestExitDone => true
  | .throttleWindow _ _ temps drams => fitsDies temps && fitsDies drams
  | .thermalTrip => true
  | .pwrOkFall => true
  | .perstNRise => true
  | .fabricLinkSend p _ => portOk p
  | .deepRestEntered => true
  | .memCeThreshWrite _ die _ => dieOk die

end Sys2Proof
end

