-- ==== Sys2Proof/Certificates/Slice0/Obligations.lean ====
section
/-! DEFINITION. The statements for the provers, family by family: what each command leaves, where it completes, and what every step keeps. -/

open Sys2Proof Sys2Proof.Machine

/-- The core register page (R59, R60, R63, R64, R68): on a core whose kernel runs with no access of it waiting, each store has exactly its effect on that core and no other state changes; a counter's new value also meets the waits it satisfies of the commands first in their queues. The command ports (R60): a store short of byte 31 writes the staging register alone; the store of byte 31 enters the staged command behind the queue's others, or waits while the queue holds 32. -/
def Obligations.CoreStoresReachCountersAndQueues : Prop :=
  (∀ (s : State) (d i : Nat), s.isUp = true → s.cpReady d i = true →
    (∀ (k : Nat) (v : BitVec 64), k < 64 →
      exec (.corTknWrite d i k v []) s
        = .next (s.withCore d i { (s.core d i).latch k ((s.core d i).cnt.look k 0) (v.setWidth 16) with cnt := (s.core d i).cnt.put k (v.setWidth 16) })) ∧
    (∀ (k : Nat) (v : BitVec 64), k < 64 →
      exec (.corTknPost d i k v) s
        = .next (s.withCore d i { (s.core d i).latch k ((s.core d i).cnt.look k 0) ((s.core d i).cnt.look k 0 + v.setWidth 16) with
            cnt := (s.core d i).cnt.put k ((s.core d i).cnt.look k 0 + v.setWidth 16) })) ∧
    (∀ v : BitVec 64, waitMet ((s.core d i).cnt.look (bits v 5 0) 0) (BitVec.ofNat 16 (bits v 31 16)) = true →
      exec (.corWait d i v) s = .next (s.withCore d i { s.core d i with corWait := none, waitAge := 0, waitReported := false })) ∧
    (∀ v : BitVec 64, waitMet ((s.core d i).cnt.look (bits v 5 0) 0) (BitVec.ofNat 16 (bits v 31 16)) = false →
      exec (.corWait d i v) s = .next (s.withCore d i { s.core d i with corWait := some (v.setWidth 32), waitAge := 0, waitReported := false })) ∧
    (∀ (q : Nat) (v : BitVec 64), q < 6 → v.getLsbD 31 = true →
      exec (.corQstatClear d i q v) s = .next (s.withCore d i { s.core d i with qstat := (s.core d i).qstat.put q 0 })) ∧
    (∀ (j : Nat) (v : BitVec 64), j < 16 →
      exec (.corRptWrite d i j v) s = .next (s.withCore d i { s.core d i with
        rpt := (s.core d i).rpt.put j (BitVec.ofNat 64 (bits v 47 0 +
          (if v.getLsbD 63 && s.peerNamed (s.coreCmpt d i) (v.setWidth 16) then 2 ^ 63 else 0))) })) ∧
    exec (.fenceI d i) s = .next (s.withCore d i { s.core d i with icStale := [] })) ∧
  (∀ (s : State) (d i q o : Nat) (l : List Byte), s.isUp = true → s.cpReady d i = true → q < 6 → l ≠ [] → o + l.length ≤ 32 →
    (o + l.length < 32 →
      exec (.cmdPortStore d i q o l) s
        = .next (s.withCore d i { s.core d i with stage := (s.core d i).stage.put q (stageWrite ((s.core d i).stage.look q 0) o l) })) ∧
    (o + l.length = 32 → ((s.core d i).queue q).length < 32 →
      exec (.cmdPortStore d i q o l) s
        = .next (State.withCore { s with serial := s.serial + 1 } d i { s.core d i with
            stage := (s.core d i).stage.put q (stageWrite ((s.core d i).stage.look q 0) o l)
            queues := (s.core d i).queues.put q ((s.core d i).queue q ++
              [{ word := stageWrite ((s.core d i).stage.look q 0) o l, id := s.serial }]) })) ∧
    (o + l.length = 32 → 32 ≤ ((s.core d i).queue q).length →
      exec (.cmdPortStore d i q o l) s
        = .next (s.withCore d i { s.core d i with
            stage := (s.core d i).stage.put q (stageWrite ((s.core d i).stage.look q 0) o l)
            portWait := some (q, stageWrite ((s.core d i).stage.look q 0) o l) })))

/-- The end of a kernel (R56, R57, R79): ECALL with a7 = 0x5D, with another a7, and a trap; in each case the core leaves user mode, its waiting accesses and its reservation go, a trap also writes its status registers, and nothing outside the core changes. -/
def Obligations.KernelEndsOnExitOrTrap : Prop :=
  ∀ (s : State) (d i : Nat) (r : RankRun), s.isUp = true → isTileDie d = true → i < 8 → (s.core d i).user = true →
    (s.core d i).run = some r → r.exited = false →
    (s.cpReady d i = true → ∀ a0 : BitVec 64,
      exec (.kernelExit d i 0x5D a0) s = .next (s.withCore d i { s.core d i with
        user := false, corWait := none, portWait := none, portRest := none, pload := none, pstore := none, resv := none
        run := some { r with exited := true, code := if a0 = 0 then 0 else 0x100A, detail := a0 } })) ∧
    (s.cpReady d i = true → ∀ a7 a0 : BitVec 64, a7 ≠ 0x5D →
      exec (.kernelExit d i a7 a0) s = .next (s.withCore d i { (s.core d i).trap 8 0 with
        user := false, corWait := none, portWait := none, portRest := none, pload := none, pstore := none, resv := none
        run := some { r with exited := true, code := 0x1008, detail := BitVec.ofNat 64 (8 * 2 ^ 56) } })) ∧
    (∀ (cause : BitVec 8) (tval : BitVec 64),
      exec (.cpTrap d i cause tval) s = .next (s.withCore d i { (s.core d i).trap cause.toNat tval with
        user := false, corWait := none, portWait := none, portRest := none, pload := none, pstore := none, resv := none
        run := some { r with exited := true, code := 0x1008, detail := BitVec.ofNat 64 (cause.toNat * 2 ^ 56 + bits tval 55 0) } }))

/-- Uncached loads and stores of the control processor (R54): the core's scratch is read and written at its physical address, a load changes one register of that core alone, a store changes only the bytes it stores, and an access outside the listed ranges ends the kernel. -/
def Obligations.ControlProcessorReachesScratch : Prop :=
  ∀ (s : State) (d i o : Nat), s.isUp = true → s.cpReady d i = true →
    (∀ n rd, 1 ≤ n → o + n ≤ 0x4_0000 →
      exec (.cpLoad d i (BitVec.ofNat 64 (2 ^ 48 + 0x100_0000 + o)) n rd false) s
        = .next (s.withCore d i ((s.core d i).load rd n (ofLe (memGets s.mem (scratchBase d i + o) n))))) ∧
    (∀ n, 1 ≤ n → o + n ≤ 0x4_0000 → exec (.cpLoad d i (BitVec.ofNat 64 (2 ^ 48 + 0x100_0000 + o)) n 0 false) s = .next (s.withCore d i (s.core d i))) ∧
    (∀ l : List Byte, l ≠ [] → o + l.length ≤ 0x4_0000 →
      Completes (.cpStore d i (BitVec.ofNat 64 (2 ^ 48 + 0x100_0000 + o)) l .plain) s (fun t =>
        (t.core d i).icStale = ((s.icMark (scratchBase d i + o) l.length).core d i).icStale ∧
        t.core d i = { s.core d i with icStale := (t.core d i).icStale } ∧
        t = { s with mem := t.mem, poison := t.poison, tiles := t.tiles } ∧
        (memWf s.mem = true → SameMemBut s t (scratchBase d i + o) l.length) ∧
        (memWf s.mem = true → s.pois (scratchBase d i + o) l.length = false →
          memGets t.mem (scratchBase d i + o) l.length = l))) ∧
    (∀ (n rd : Nat) (l : List Byte) (a : BitVec 64), 1 ≤ n → 2 * 2 ^ 48 ≤ a.toNat → l ≠ [] →
      exec (.cpLoad d i a n rd false) s = .next (s.accessFault d i false a.toNat) ∧
      exec (.cpStore d i a l .plain) s = .next (s.accessFault d i true a.toNat))

/-- Token posts (R63, R69): a post that reaches the dispatcher adds its increment to one counter and leaves the mesh; one that its sender's high-water mark covers changes no counter; and CMP_TKN_POST adds to one of the function's eight counters. A counter's new value meets the waits it satisfies (R64). Stall reports (R71): the age of a COR_WAIT store is recorded; an age above a limit that is not 0 is reported once, and one at or below it is not; a changed limit is stored with every wait measured against it, and other ports than the PF and management are refused. -/
def Obligations.TokenPostsApplyOnceAndStallsAreReported : Prop :=
  (∀ s : State, s.isUp = true →
    (∀ (n : Nat) (p : PostMsg), s.posts[n]? = some p → p.rank = none → pwKind p.word = 2 → s.postFate p.cmpt p.word = 0 →
      (∀ q ∈ s.posts.take n, q.src ≠ p.src) →
      Completes (.tokenPost n) s (fun t =>
        s.dispSet t (pwCounter p.word) (s.dispCnt.look (pwCounter p.word) 0 + BitVec.ofNat 16 (pwInc p.word)) ∧
        t = { s with posts := s.posts.eraseIdx n, dispCnt := t.dispCnt, cmpts := t.cmpts })) ∧
    (∀ (n : Nat) (p : PostMsg) (u : CtrUnit) (r : Nat) (m : Mark), s.posts[n]? = some p → p.rank = some r →
      s.postUnit p.cmpt p.word = some u → s.mark u p.cmpt r = some m → m.launch = p.launch → p.idx ≤ m.idx →
      (∀ q ∈ s.posts.take n, q.src ≠ p.src) →
      Completes (.tokenPost n) s (fun t =>
        t = { s with posts := s.posts.eraseIdx n, marks := t.marks } ∧ t.mark u p.cmpt r = some m)) ∧
    (∀ (fn j : Nat) (v : BitVec 64), s.bar0Free fn → j < 8 →
      Completes (.cmpTknPost fn j v) s (fun t =>
        s.dispSet t (8 * fn + j) (s.dispCnt.look (8 * fn + j) 0 + v.setWidth 16) ∧ t = { s with dispCnt := t.dispCnt, cmpts := t.cmpts }))) ∧
  (∀ s : State, s.isUp = true →
    (∀ (d i age : Nat) (w : BitVec 32), isTileDie d = true → i < 8 → (s.core d i).corWait = some w →
      (s.core d i).waitReported = false → bits s.stallLimit 19 0 ≠ 0 → bits s.stallLimit 19 0 < age →
      exec (.tokenStall (.corWait d i) age) s
        = .next ((s.withCore d i { s.core d i with waitAge := age, waitReported := true }).stallReport (s.coreCmpt d i)
            (match (s.core d i).run with | some r => r.rank | none => 0)
            ((match (s.core d i).run with | some r => r.rank | none => 0) * 2 ^ 22 + bits w 5 0) (bits w 31 16))) ∧
    (∀ (d i age : Nat) (w : BitVec 32), isTileDie d = true → i < 8 → (s.core d i).corWait = some w →
      ((s.core d i).waitReported = true ∨ bits s.stallLimit 19 0 = 0 ∨ age ≤ bits s.stallLimit 19 0) →
      exec (.tokenStall (.corWait d i) age) s = .next (s.withCore d i { s.core d i with waitAge := age })) ∧
    (∀ (p : Port) (v : BitVec 64), (p = .pf ∨ p = .mgmt) →
      exec (.hubTknStallLimitWrite p v) s
        = .next (s.waits.foldl (fun t u => t.stall u (t.waitAge u)) { s with stallLimit := BitVec.ofNat 64 (bits v 19 0) })) ∧
    (∀ (p : Port) (v : BitVec 64), s.waits = [] → (p = .pf ∨ p = .mgmt) →
      exec (.hubTknStallLimitWrite p v) s = .next { s with stallLimit := BitVec.ofNat 64 (bits v 19 0) }) ∧
    (∀ (p : Port) (v : BitVec 64), p ≠ .pf → p ≠ .mgmt →
      exec (.hubTknStallLimitWrite p v) s = .next (s.portDenied p 0x1000)))

/-- The ring registers (R73, R75): a valid tail is taken and fetching follows; an invalid one raises RING_INDEX alone; setting ENABLE zeroes the indices; a size outside 4 to 16 is refused with RING_CONFIG; BASE and CTRL are closed while ENABLE is 1; a head doorbell frees entries. -/
def Obligations.RingRegistersPublishAndFree : Prop :=
  ∀ (s : State) (fn : Nat) (v : BitVec 64), s.isUp = true → s.bar0Free fn → s.pwr.state = .active →
    (∀ k, k < 4 → ringOn ((s.cmpt fn).ring k).ctrl = true →
      bits v 15 0 < ringSize ((s.cmpt fn).ring k).ctrl →
      (bits v 15 0 + ringSize ((s.cmpt fn).ring k).ctrl - ((s.cmpt fn).ring k).tail) % ringSize ((s.cmpt fn).ring k).ctrl
        + ringUsed ((s.cmpt fn).ring k).ctrl ((s.cmpt fn).ring k).head ((s.cmpt fn).ring k).tail ≤ ringSize ((s.cmpt fn).ring k).ctrl - 1 →
      exec (.sqDoorbell fn k v) s
        = .next ((s.withCmpt fn { s.cmpt fn with sq := (s.cmpt fn).sq.put k { (s.cmpt fn).ring k with tail := bits v 15 0 } }).fetch fn)) ∧
    (s.mayFetch fn = false → s.fetch fn = s) ∧
    (∀ k, k < 4 → ringOn ((s.cmpt fn).ring k).ctrl = true → ringSize ((s.cmpt fn).ring k).ctrl ≤ bits v 15 0 →
      exec (.sqDoorbell fn k v) s = .next (s.event fn 0x1006 0 (BitVec.ofNat 64 (k + 2 ^ 16 * (bits v 15 0))))) ∧
    (∀ k, k < 4 → ringOn ((s.cmpt fn).ring k).ctrl = false → s.cstate fn = .ready → v.getLsbD 8 = true → 4 ≤ bits v 4 0 → bits v 4 0 ≤ 16 →
      exec (.ringCtrlWrite fn k true v) s
        = .next (s.withCmpt fn { s.cmpt fn with sq := (s.cmpt fn).sq.put k { (s.cmpt fn).ring k with
            ctrl := BitVec.ofNat 64 (bits v 4 0 + 256), head := 0, tail := 0, asked := 0, fetched := [], bad := [], oldLive := 0 } })) ∧
    (∀ k, k < 4 → ringOn ((s.cmpt fn).ring k).ctrl = false → s.cstate fn = .ready → v.getLsbD 8 = true → (bits v 4 0 < 4 ∨ 16 < bits v 4 0) →
      exec (.ringCtrlWrite fn k true v) s
        = .next ((s.withCmpt fn { s.cmpt fn with sq := (s.cmpt fn).sq.put k { (s.cmpt fn).ring k with
            ctrl := BitVec.ofNat 64 (bits v 4 0) } }).event fn 0x1007 0 (BitVec.ofNat 64 (k + 2 ^ 16 * bits v 15 0)))) ∧
    (∀ k, k < 4 → ringOn ((s.cmpt fn).ring k).ctrl = false →
      exec (.ringCtrlWrite fn k false v) s
        = .next (s.withCmpt fn { s.cmpt fn with sq := (s.cmpt fn).sq.put k { (s.cmpt fn).ring k with base := BitVec.ofNat 64 (bits v 63 12 * 4096) } })) ∧
    (∀ k, k < 4 → ringOn ((s.cmpt fn).ring k).ctrl = true →
      exec (.ringCtrlWrite fn k false v) s = .next s ∧ (v.getLsbD 8 = true → s.cstate fn = .ready → exec (.ringCtrlWrite fn k true v) s = .next s)) ∧
    (ringOn (s.cmpt fn).eq.ctrl = true → bits v 15 0 < ringSize (s.cmpt fn).eq.ctrl →
      ringUsed (s.cmpt fn).eq.ctrl (s.cmpt fn).eq.head (bits v 15 0) ≤ ringUsed (s.cmpt fn).eq.ctrl (s.cmpt fn).eq.head (s.cmpt fn).eq.tail →
      exec (.cmpEqHeadDoorbell fn v) s = .next (s.withCmpt fn { s.cmpt fn with eq := { (s.cmpt fn).eq with head := bits v 15 0 } })) ∧
    (ringOn (s.cmpt fn).cq.ctrl = true → bits v 15 0 < ringSize (s.cmpt fn).cq.ctrl →
      ringUsed (s.cmpt fn).cq.ctrl (s.cmpt fn).cq.head (bits v 15 0) ≤ ringUsed (s.cmpt fn).cq.ctrl (s.cmpt fn).cq.head (s.cmpt fn).cq.tail →
      bits v 15 0 ≠ (s.cmpt fn).cq.head → (s.cmpt fn).cq.held = [] →
      exec (.cmpCqHeadDoorbell fn v) s
        = .next ((s.withCmpt fn { s.cmpt fn with cq := { (s.cmpt fn).cq with head := bits v 15 0 }, cqFull := false }).fetch fn)) ∧
    (ringOn (s.cmpt fn).cq.ctrl = true → ringSize (s.cmpt fn).cq.ctrl ≤ bits v 15 0 →
      exec (.cmpCqHeadDoorbell fn v) s = .next (s.event fn 0x1006 0 (BitVec.ofNat 64 (4 + 2 ^ 16 * bits v 15 0))))

/-- BAR2 windows, locked registers and interrupt masks (R281, R294, R360): an entry is stored with its reserved bits zero and nothing else changes; a write to a locked register of a locked TDI puts it into ERROR and starts a fallow; unmasking a vector sends its pending message. -/
def Obligations.HostWindowsLocksAndMasks : Prop :=
  ∀ (s : State) (fn : Nat), s.isUp = true →
    (∀ (w : Nat) (v : BitVec 64), s.bar0Free fn → w < (if fn = 0 then 256 else 16) →
      exec (.bar2WindowWrite fn w v) s
        = .next (s.withCmpt fn { s.cmpt fn with win := (s.cmpt fn).win.put w (v &&& (if fn = 0 then 0xE700FFFFFFFFF000#64 else 0xE7F00FFFFFFFF000#64)) })) ∧
    (∀ (o : Nat) (v : BitVec 64) (x : Bool), 1 ≤ fn → fn < 64 → s.cstate fn = .ready → (s.cmpt fn).tdi = .locked → lockedReg o = true →
      exec (.lockedRegisterWrite fn o v x) s = .next (s.tdiFallow fn) ∧
      ((s.tdiFallow fn).cmpt fn).tdi = .error ∧ ((s.tdiFallow fn).cmpt fn).state = .fallow ∧ (s.tdiFallow fn).mem = s.mem) ∧
    (∀ (o : Nat) (v : BitVec 64), s.bar0Free fn → fn ≠ 0 → lockedReg o = true →
      exec (.lockedRegisterWrite fn o v false) s = .next (s.bar0Write fn o v)) ∧
    (∀ v : Nat, fn < 64 → s.cstate fn ≠ .fallow → v < (if fn = 0 then 64 else 32) → (s.cmpt fn).msixEn = true → (s.cmpt fn).fmask = false →
      (s.cmpt fn).pba = [v] →
      exec (.msixUnmask fn 0 v) s = .next { s.withCmpt fn { s.cmpt fn with
          msix := (s.cmpt fn).msix.put v { (s.cmpt fn).msix.look v {} with mask := false }, pba := [] } with
        out := s.out ++ [.msix fn v ((s.cmpt fn).msix.look v {}).addr ((s.cmpt fn).msix.look v {}).data (s.tBit fn)] }) ∧
    (fn < 64 → s.cstate fn ≠ .fallow → (s.cmpt fn).pba = [] →
      (∀ v, exec (.msixUnmask fn 1 v) s = .next (s.withCmpt fn { s.cmpt fn with fmask := false })) ∧
      (∀ v, exec (.msixUnmask fn 2 v) s = .next (s.withCmpt fn { s.cmpt fn with msixEn := true })))

/-- Enqueue and start of descriptors (R74, R77, R78): a fetched descriptor takes its place behind the ring's others with the step and code of its checks; a malformed one is refused at step 1 with DESC_FORMAT; the first waiting one starts when its waits hold, a refused one at once completing with its code, an empty one being done, an SSU command entering its stack's queue. -/
def Obligations.DescriptorsEnqueueAndStartInOrder : Prop :=
  ∀ (s : State) (fn k : Nat), s.isUp = true → 1 ≤ fn → fn < 64 → k < 4 → s.cstate fn = .ready →
    (∀ (i : Nat) (b : BitVec 1024) (r : SubRing), ((s.cmpt fn).ring k).consume = some (i, b, r) → r.bad = [] →
      exec (.descriptorEnqueue fn k) s
        = .next ((State.modRing { s with serial := s.serial + 1 } fn k (fun _ => { r with bad := [], descs := r.descs ++ [{
            bytes := b, index := i, id := s.serial, step := (s.checkDesc fn b).1, code := (s.checkDesc fn b).2
            xlats := if (s.checkDesc fn b).1 = 0 then (descFields b).map (s.xlatOf fn) else [] }] })).fetch fn)) ∧
    (∀ b : BitVec 1024, s.checkForm fn b = 0x1001 → s.checkDesc fn b = (1, 0x1001)) ∧
    (∀ (d : Desc) (l : List Desc), ((s.cmpt fn).ring k).descs = d :: l → d.st = .waiting → s.stalledCopy fn k = none →
      s.descWaits d = true → s.epochHolds fn = false →
      (d.step ≠ 0 → exec (.descriptorStart fn k) s = .next (s.modDesc fn k d.id (fun d => { d with st := .done }))) ∧
      (d.step = 0 → s.stale fn d.xlats = true →
        exec (.descriptorStart fn k) s = .next (s.modDesc fn k d.id (fun d => { d with st := .done, code := 0x2003 }))) ∧
      (d.step = 0 → s.stale fn d.xlats = false → dtype d.bytes = 3 →
        exec (.descriptorStart fn k) s = .next (s.modDesc fn k d.id (fun d => { d with st := .done }))) ∧
      (d.step = 0 → s.stale fn d.xlats = false → dtype d.bytes = 4 → s.served (dls d.bytes) = true → s.queueRoom (dls d.bytes) fn = true →
        exec (.descriptorStart fn k) s
          = .next ((s.withStack (dls d.bytes) ((s.stack (dls d.bytes)).setQueue fn k ((s.stack (dls d.bytes)).queue fn k ++
              [{ ring := k, index := d.id, bytes := d.bytes, xlats := d.xlats }]))).modDesc fn k d.id (fun d => { d with st := .running })))) ∧
    (∀ (d : Desc) (l : List Desc), ((s.cmpt fn).ring k).descs = d :: l → d.st = .waiting → s.stalledCopy fn k = none →
      s.descWaits d = false → exec (.descriptorStart fn k) s = .next s)

/-- Completion of descriptors (R78, R81): a descriptor without enabled posts, or refused at steps 1 to 4 and so making none, leaves its ring, and its entry with code and detail goes to the completion ring with its vector, unless NO_CQE suppresses a success. Ranks (R56, R69, R70, R79): a rank with nothing to copy starts on its free core in user mode with its launch's numbers, COR_QSTAT clear, a0 and a1 giving its place and the launch's ranks, and the dispatcher's snapshot taken; it finishes when its kernel has ended and its queues are empty, freeing its core. -/
def Obligations.DescriptorsCompleteAndRanksRun : Prop :=
  (∀ (s : State) (fn k index : Nat) (d : Desc) (l : List Desc), s.isUp = true → 1 ≤ fn → fn < 64 → k < 4 → s.cstate fn = .ready → s.deltasOut fn = false →
    ((s.cmpt fn).ring k).descs = d :: l → d.index = index → d.st = .done → (∀ e ∈ l, e.id ≠ d.id) →
    (dposts d.bytes = [] ∨ (1 ≤ d.step ∧ d.step ≤ 4)) →
    ((dnoCqe d.bytes = false ∨ isFailure d.code = true) → s.sealedDetail fn = false →
      exec (.descriptorComplete fn k index) s
        = .next ((((s.modRing fn k (fun r => { r with descs := l })).dropSsu fn k d.id).complete fn
            { bytes := descEntry k d d.code d.detail, vector := if dirq d.bytes then some (dvector d.bytes) else none }).fetch fn)) ∧
    (dnoCqe d.bytes = true → isFailure d.code = false →
      exec (.descriptorComplete fn k index) s
        = .next (((s.modRing fn k (fun r => { r with descs := l })).dropSsu fn k d.id).fetch fn)) ∧
    ((s.cmpt fn).cq.held = [] → 2 ≤ (s.cmpt fn).cq.free → (s.cmpt fn).cq.head < ringSize (s.cmpt fn).cq.ctrl → (s.cmpt fn).cq.tail < ringSize (s.cmpt fn).cq.ctrl → ∀ e : CEnt, e.vector = none →
      s.complete fn e = { s.withCmpt fn { s.cmpt fn with cq := (s.cmpt fn).cq.advance } with
        out := s.out ++ [.ringEntry fn (bits (s.cmpt fn).cq.base 63 12 * 4096 + 32 * (s.cmpt fn).cq.tail)
          (e.bytes ||| BitVec.ofNat 256 (2 ^ 56 * b2n (s.cmpt fn).cq.phase)) (s.tBit fn)] })) ∧
  (∀ (s : State) (fn k index : Nat) (e : Desc) (l : List Desc) (r d i : Nat) (q : List Nat), s.isUp = true → 1 ≤ fn → fn < 64 → k < 4 → s.cstate fn = .ready →
    ((s.cmpt fn).ring k).descs = e :: l → e.index = index → e.st = .running → dtype e.bytes = 1 → e.left = r :: q → e.replay = [] →
    s.rankCore fn r = some (d, i) →
    (s.coreFree d i = true → s.stale fn e.xlats = false → dfield e.bytes 40 4 = 0 → dfield e.bytes 56 4 = 0 →
      s.rangeCode fn (dfield e.bytes 32 8 % 2 ^ 48) 0 false = 0 → s.rangeCode fn (dfield e.bytes 48 8 % 2 ^ 48) 0 false = 0 →
      s.absentOf fn [(dfield e.bytes 32 8 % 2 ^ 48, 0, false), (dfield e.bytes 48 8 % 2 ^ 48, 0, false)] = none →
      Completes (.rankStart fn k index) s (fun t =>
        (t.core d i).user = true ∧ (t.core d i).qstat = [] ∧ (t.core d i).icStale = [] ∧
        (t.core d i).run = some { cmpt := fn, ring := k, index := e.id, cls := BitVec.ofNat 3 (dclass e.bytes), rank := r, launch := e.launch } ∧
        (t.core d i).x.look 10 0 = BitVec.ofNat 64 (r - dfield e.bytes 60 2) ∧
        (t.core d i).x.look 11 0 = BitVec.ofNat 64 (dfield e.bytes 62 2) ∧
        (t.core d i).cnt = (if dflags e.bytes / 8 % 2 = 1 then [] else (s.core d i).cnt) ∧
        t.snaps.look (8 * d + i) {} = { snap := (t.core d i).cnt, tally := [] } ∧
        t = { s with tiles := t.tiles, tick := t.tick, cmpts := t.cmpts, snaps := t.snaps })) ∧
    (∀ u : RankRun, isTileDie d = true → i < 8 → (s.core d i).run = some u → u.exited = true → (s.core d i).portWait = none →
      (∀ j, j < 6 → (s.core d i).queue j = []) →
      exec (.rankFinish d i) s
        = .next (State.modDesc (State.withCore { s with snaps := s.snaps.put (8 * d + i) { snap := (s.core d i).cnt, tally := [] } }
            d i { s.core d i with run := none, user := false }) u.cmpt u.ring u.index
            (fun x => x.rankEnd u.rank ((s.core d i).rankCode u) (if u.code != 0 then u.detail else 0) u.sticky))) ∧
    (∀ u : RankRun, isTileDie d = true → i < 8 → (s.core d i).run = some u → u.exited = false → exec (.rankFinish d i) s = .next s))

/-- Commands of a queue that are malformed (R83, R85, R86): a command whose reserved words are not zero is refused with DESC_FORMAT and has no other effect, and so is one whose post word is malformed; one whose post names a counter it may not post to is refused with TOKEN_DENIED and makes no post, and one whose post goes to another device is refused with UNIT_ABSENT where there is no fabric (R3). Control commands (R41, R88, R89): WAIT and POST are done with no effect of their own; FENCE is done when no earlier command runs and waits otherwise; RNG_SEED seeds the named unit's generators alone. After a detected error an engine's command ends with ENGINE_FAULT (R106). -/
def Obligations.QueueCommandsAreRefusedOrControl : Prop :=
  (∀ (s : State) (d i q : Nat) (e : QEntry) (f : Bool), s.isUp = true → q < 5 →
    (s.readyCmd d i q 0x01 e → (restZero e.word = false ∨ e.word.getLsbD 8 = false) →
      exec (.wait d i q f) s = .next (s.refuse d i q e.id 0x1001)) ∧
    (s.readyCmd d i q 0x02 e → (restZero e.word = false ∨ e.word.getLsbD 9 = false) →
      exec (.post d i q f) s = .next (s.refuse d i q e.id 0x1001)) ∧
    (q < 4 → s.readyCmd d i q 0x10 e → qw e.word 2 ≠ 0 → exec (.loadA d i q f) s = .next (s.refuse d i q e.id 0x1001)) ∧
    (q < 4 → s.readyCmd d i q 0x18 e → qw e.word 3 ≠ 0 → exec (.mma d i q f) s = .next (s.refuse d i q e.id 0x1001)) ∧
    (∀ (bad : Bool) (rest : BitVec 16) (g : State → State), bad = false → qpostEn e.word = true → pwFormat (qpost e.word) = true →
      s.corePostOk d i (s.coreCmpt d i) (qpost e.word) = false → s.issueChecked d i q e bad rest g = s.refuse d i q e.id 0x1005) ∧
    (∀ (rest : BitVec 16) (g : State → State), qpostEn e.word = true → pwFormat (qpost e.word) = true →
      s.corePostOk d i (s.coreCmpt d i) (qpost e.word) = true → pwKind (qpost e.word) = 3 → s.hasFabric = false →
      s.issueChecked d i q e false rest g = s.refuse d i q e.id 0x1004) ∧
    (∀ c : BitVec 16, s.refuse d i q e.id c = s.modCore d i (fun x => x.setQueue q ((x.queue q).map (fun y =>
      if y.id = e.id then { y with st := .done, code := c, post := c != 0x1005 && s.postKept d i y.word } else y))))) ∧
  (∀ (s : State) (d i q : Nat) (e : QEntry) (f : Bool), s.isUp = true → q < 5 →
    (s.readyCmd d i q 0x01 e → restZero e.word = true → e.word.getLsbD 8 = true →
      exec (.wait d i q f) s = .next (s.finish d i q e.id (if f = true ∧ q < 4 then 0x4001 else 0) 0)) ∧
    (s.readyCmd d i q 0x02 e → restZero e.word = true → e.word.getLsbD 9 = true →
      exec (.post d i q f) s = .next (s.finish d i q e.id (if f = true ∧ q < 4 then 0x4001 else 0) 0)) ∧
    (s.readyCmd d i q 0x03 e → restZero e.word = true → (∀ x ∈ (s.core d i).queue q, x.st ≠ .running) →
      exec (.fence d i q f) s = .next (s.finish d i q e.id (if f = true ∧ q < 4 then 0x4001 else 0) 0)) ∧
    (s.readyCmd d i q 0x03 e → (∃ x ∈ (s.core d i).queue q, x.st = .running) → exec (.fence d i q f) s = .next s) ∧
    (s.readyCmd d i q 0x04 e → q < 4 → qw e.word 2 = 0 → qw e.word 3 = 0 →
      exec (.rngSeed d i q f) s
        = .next (State.finish { s.withCore d i { s.core d i with
            eng := (s.core d i).eng.put q { s.engine d i q with gens := GenBank.seed (if f then 0 else qw e.word 1) s.tick } } with tick := s.tick + genDraws }
            d i q e.id (if f then 0x4001 else 0) 0)) ∧
    (s.readyCmd d i 4 0x04 e → qw e.word 2 = 0 → qw e.word 3 = 0 →
      exec (.rngSeed d i 4 f) s
        = .next (State.finish { s.withCore d i { s.core d i with shpGens := GenBank.seed (qw e.word 1) s.tick } with tick := s.tick + genDraws } d i 4 e.id 0 0)))

/-- LOAD_A, LOAD_B, SCALE_SET and ACC_CLEAR (R84, R90, R91, R95, R106): each sets the engine slot, scale slot or banks that its fields name, leaves memory and every other engine alone, and ends its queue entry; after a detected error that ends with ENGINE_FAULT. -/
def Obligations.EngineSetupCommandsSetTheirSlots : Prop :=
  ∀ (s : State) (d i q : Nat) (e : QEntry), s.isUp = true → q < 4 → bits e.word 255 128 = 0 →
    (∀ b : Bool, s.readyCmd d i q (if b then 0x11 else 0x10) e → bits (qw e.word 1) 63 43 = 0 → loadOk (bits (qw e.word 1) 39 36) (bit (qw e.word 1) 40) = true →
      (bits (qw e.word 1) 35 18 = 0 ∨ vecBytes (bits (qw e.word 1) 39 36) ≤ 32 * bits (qw e.word 1) 35 18) →
      exec (if b then .loadB d i q false else .loadA d i q false) s
        = .next ((s.modEngine d i q (fun g =>
            let o : OpSlot := { off := BitVec.ofNat 18 (bits (qw e.word 1) 17 0), pitch := BitVec.ofNat 18 (bits (qw e.word 1) 35 18),
                                fmt := BitVec.ofNat 4 (bits (qw e.word 1) 39 36), mx := bit (qw e.word 1) 40, sslot := bits (qw e.word 1) 41 41 }
            if b then { g with slotB := g.slotB.put (bits (qw e.word 1) 42 42) o } else { g with slotA := g.slotA.put (bits (qw e.word 1) 42 42) o })).finish d i q e.id 0 0) ∧
      Completes (if b then .loadB d i q true else .loadA d i q true) s (fun t =>
        t = { s with tiles := t.tiles, tick := t.tick } ∧ (e.code = 0 → t.doneAs d i q e.id 0x4001) ∧
        (t.engine d i q).banks = (s.engine d i q).banks ∧ (∀ r, r ≠ q → t.engine d i r = s.engine d i r))) ∧
    (s.readyCmd d i q 0x12 e → bits (qw e.word 1) 63 27 = 0 → bits (qw e.word 1) 24 18 ≤ 64 →
      32 * bits (qw e.word 1) 17 0 + 64 * bits (qw e.word 1) 24 18 ≤ storeSize → s.poison = [] →
      Completes (.scaleSet d i q false) s (fun t =>
        (∀ j, j < 64 * bits (qw e.word 1) 24 18 →
          ((if bit (qw e.word 1) 25 then (t.engine d i q).scaleB else (t.engine d i q).scaleA).look (bits (qw e.word 1) 26 26) {}).codes.look j 0x7F
            = memGet s.mem (storeBase d i + 32 * bits (qw e.word 1) 17 0 + j)) ∧
        t = { s with tiles := t.tiles } ∧ (e.code = 0 → t.doneAs d i q e.id 0) ∧
        (t.engine d i q).banks = (s.engine d i q).banks ∧ (∀ r, r ≠ q → t.engine d i r = s.engine d i r))) ∧
    (∀ f : Bool, s.readyCmd d i q 0x1C e → bits (qw e.word 1) 63 5 = 0 →
      Completes (.accClear d i q f) s (fun t =>
        (∀ b, b < 4 → bit (qw e.word 1) b = true → (t.engine d i q).banks.look b {} = { isInt := bit (qw e.word 1) 4, elems := [], poisoned := f }) ∧
        (∀ b, b < 4 → bit (qw e.word 1) b = false → (t.engine d i q).banks.look b {} = (s.engine d i q).banks.look b {}) ∧
        t = { s with tiles := t.tiles } ∧ (e.code = 0 → t.doneAs d i q e.id (if f then 0x4001 else 0)) ∧
        (∀ r, r ≠ q → t.engine d i r = s.engine d i r)))

/-- MMA and MMA_SPLIT (R92 to R96, R105, R106): a product over K changes one bank of one engine and no memory; K = 0 with INIT leaves a bank of zeros, not poisoned; a detected error leaves the bank poisoned with code 0x4001; operands that disagree are refused with FORMAT_MISMATCH. -/
def Obligations.MatrixProductsChangeOneBank : Prop :=
  ∀ (s : State) (d i q : Nat) (e : QEntry) (f : Bool), s.isUp = true → q < 4 →
    (s.readyCmd d i q 0x18 e → bits (qw e.word 1) 63 37 = 0 → qw e.word 2 = 0 → qw e.word 3 = 0 → bits (qw e.word 1) 28 27 = 0 →
      bits (qw e.word 1) 36 35 = 0 → bits (qw e.word 1) 34 29 = 0 → bit (qw e.word 1) 26 = false → bit (qw e.word 1) 25 = true →
      ((s.engine d i q).slotA.look (bits (qw e.word 1) 21 21) {}) = ((s.engine d i q).slotB.look (bits (qw e.word 1) 22 22) {}) →
      kInside (32 * ((s.engine d i q).slotA.look (bits (qw e.word 1) 21 21) {}).off.toNat) ((s.engine d i q).slotA.look (bits (qw e.word 1) 21 21) {}) (bits (qw e.word 1) 20 0) = true →
      ((s.engine d i q).slotA.look (bits (qw e.word 1) 21 21) {}).mx = false →
      Completes (.mma d i q f) s (fun t =>
        t = { s with tiles := t.tiles, tick := t.tick } ∧
        (∀ b, b ≠ bits (qw e.word 1) 24 23 → (t.engine d i q).banks.look b {} = (s.engine d i q).banks.look b {}) ∧
        (∀ r, r ≠ q → t.engine d i r = s.engine d i r) ∧
        ((t.engine d i q).banks.look (bits (qw e.word 1) 24 23) {}).isInt = isIntFmt ((s.engine d i q).slotA.look (bits (qw e.word 1) 21 21) {}).fmt.toNat ∧
        (f = true → ((t.engine d i q).banks.look (bits (qw e.word 1) 24 23) {}).poisoned = true ∧ (e.code = 0 → t.doneAs d i q e.id 0x4001)) ∧
        (f = false → s.poison = [] → ((t.engine d i q).banks.look (bits (qw e.word 1) 24 23) {}).poisoned = false ∧ (e.code = 0 → t.doneAs d i q e.id 0)) ∧
        (f = false → bits (qw e.word 1) 20 0 = 0 → ((t.engine d i q).banks.look (bits (qw e.word 1) 24 23) {}).elems = []))) ∧
    (s.readyCmd d i q 0x18 e → bits (qw e.word 1) 63 37 = 0 → qw e.word 2 = 0 → qw e.word 3 = 0 → bits (qw e.word 1) 28 27 = 0 →
      bits (qw e.word 1) 36 35 = 0 → bits (qw e.word 1) 34 29 = 0 → bit (qw e.word 1) 26 = false →
      ((s.engine d i q).slotA.look (bits (qw e.word 1) 21 21) {}).fmt ≠ ((s.engine d i q).slotB.look (bits (qw e.word 1) 22 22) {}).fmt →
      exec (.mma d i q f) s = .next (s.refuse d i q e.id 0x1003)) ∧
    (s.readyCmd d i q 0x19 e → bits (qw e.word 1) 63 31 = 0 → bits (qw e.word 2) 63 36 = 0 → qw e.word 3 = 0 → bits (qw e.word 1) 28 25 = 1 → bits (qw e.word 1) 30 29 < 2 →
      ((s.engine d i q).slotA.look (bits (qw e.word 1) 21 21) {}) = ((s.engine d i q).slotB.look (bits (qw e.word 1) 22 22) {}) →
      ((s.engine d i q).slotA.look (bits (qw e.word 1) 21 21) {}).fmt = 1 → ((s.engine d i q).slotA.look (bits (qw e.word 1) 21 21) {}).mx = false →
      bits (qw e.word 1) 20 0 = 0 →
      Completes (.mmaSplit d i q f) s (fun t =>
        t = { s with tiles := t.tiles, tick := t.tick } ∧
        (∀ b, b ≠ bits (qw e.word 1) 24 23 → (t.engine d i q).banks.look b {} = (s.engine d i q).banks.look b {}) ∧
        ((t.engine d i q).banks.look (bits (qw e.word 1) 24 23) {}) = { isInt := false, elems := [], poisoned := f } ∧
        (e.code = 0 → t.doneAs d i q e.id (if f then 0x4001 else 0))))

/-- ACC_READ and STORE_C (R97 to R101, R105): a raw vector of a bank is copied to the core store element by element; a result is stored inside its extent alone, and the bank is zeroed when CLEAR asks for it. -/
def Obligations.ResultsOfABankReachTheCoreStore : Prop :=
  ∀ (s : State) (d i q : Nat) (e : QEntry), s.isUp = true → q < 4 → s.poison = [] → memWf s.mem = true → e.code = 0 →
    (s.readyCmd d i q 0x1D e → bits (qw e.word 1) 63 52 = 0 → qw e.word 2 = 0 → qw e.word 3 = 0 → bits (qw e.word 1) 35 18 = 0 → bits (qw e.word 1) 51 45 = 1 →
      bits (qw e.word 1) 44 39 < 64 → 32 * bits (qw e.word 1) 17 0 + 256 ≤ storeSize → bit (qw e.word 1) 38 = false →
      ((s.engine d i q).banks.look (bits (qw e.word 1) 37 36) {}).poisoned = false →
      Completes (.accRead d i q false) s (fun t =>
        memGets t.mem (storeBase d i + 32 * bits (qw e.word 1) 17 0) 256
          = (List.range 64).flatMap (fun x => bvBytes (((s.engine d i q).banks.look (bits (qw e.word 1) 37 36) {}).at (bits (qw e.word 1) 44 39) x)) ∧
        s.storeOnly t d i (32 * bits (qw e.word 1) 17 0) 256 ∧ t.doneAs d i q e.id 0)) ∧
    (s.readyCmd d i q 0x1E e → bits (qw e.word 1) 63 54 = 0 → qw e.word 2 = 0 → bits (qw e.word 3) 63 32 = 0 → bits (qw e.word 1) 52 43 = 0 → bits (qw e.word 1) 42 39 = 0 →
      bits (qw e.word 1) 35 18 = 0 → 32 * bits (qw e.word 1) 17 0 + 16384 ≤ storeSize →
      ((s.engine d i q).banks.look (bits (qw e.word 1) 37 36) {}).poisoned = false →
      Completes (.storeC d i q false) s (fun t =>
        s.storeOnly t d i (32 * bits (qw e.word 1) 17 0) 16384 ∧ t.doneAs d i q e.id 0 ∧
        (t.engine d i q).banks.look (bits (qw e.word 1) 37 36) {} = (if bit (qw e.word 1) 53
          then { isInt := ((s.engine d i q).banks.look (bits (qw e.word 1) 37 36) {}).isInt, elems := [], poisoned := false }
          else (s.engine d i q).banks.look (bits (qw e.word 1) 37 36) {})))

/-- The mover's commands between places of the core store (R62): MOV_COPY and a one-row MOV_COPY2D move the bytes, MOV_FILL repeats its pattern, MOV_CONVERT writes inside its extent; each leaves every other byte and every other unit alone and ends with DONE. A mover command that moves nothing, or that is malformed (R62, R80, R85): LEN or ROWS of zero completes with no byte written, and a reserved encoding is refused with DESC_FORMAT. The end of a queue's oldest command (R59, R60, R65, R87): a finished command without a post leaves its queue, its code and sticky byte enter COR_QSTAT and the rank's sticky byte, and nothing else changes; one that is still running stays. -/
def Obligations.MoverCommandsMoveBytesInTheCoreStore : Prop :=
  (∀ (s : State) (d i x y n : Nat) (e : QEntry), s.isUp = true → s.poison = [] → memWf s.mem = true →
    e.code = 0 → e.pend = 0 → e.prog = 0 → e.started = false → 1 ≤ n → n ≤ 4096 → x + n ≤ 0x80_0000 → y + n ≤ 0x80_0000 → (x + n ≤ y ∨ y + n ≤ x) →
    s.uncached (storeBase d i + x) n → s.uncached (storeBase d i + y) n →
    (s.readyCmd d i 5 0xC0 e → qw e.word 1 = BitVec.ofNat 64 (2 ^ 62 + x) → qw e.word 2 = BitVec.ofNat 64 (2 ^ 62 + y) → qw e.word 3 = BitVec.ofNat 64 n →
      Completes (.movCopy d i) s (fun t => memGets t.mem (storeBase d i + y) n = memGets s.mem (storeBase d i + x) n ∧
        s.storeOnly t d i y n ∧ t.doneAs d i 5 e.id 0)) ∧
    (s.readyCmd d i 5 0xC1 e → qw e.word 1 = BitVec.ofNat 64 (2 ^ 62 + x) → qw e.word 2 = BitVec.ofNat 64 (2 ^ 62 + y) →
      qw e.word 3 = BitVec.ofNat 64 (1 + 2 ^ 16 * n) →
      Completes (.movCopy2d d i) s (fun t => memGets t.mem (storeBase d i + y) n = memGets s.mem (storeBase d i + x) n ∧
        s.storeOnly t d i y n ∧ t.doneAs d i 5 e.id 0)) ∧
    (s.readyCmd d i 5 0xC3 e → qw e.word 2 = BitVec.ofNat 64 (2 ^ 62 + y) → qw e.word 3 = BitVec.ofNat 64 n →
      Completes (.movFill d i) s (fun t =>
        memGets t.mem (storeBase d i + y) n = (List.range n).map (fun j => (bvBytes (qw e.word 1))[j % 8]?.getD 0) ∧
        s.storeOnly t d i y n ∧ t.doneAs d i 5 e.id 0)) ∧
    (s.readyCmd d i 5 0xC2 e → qw e.word 1 = BitVec.ofNat 64 (2 ^ 62 + x) → qw e.word 2 = BitVec.ofNat 64 (2 ^ 62 + y) →
      4 * bits (qw e.word 3) 31 0 = n → bits (qw e.word 3) 63 32 = 0 →
      Completes (.movConvert d i) s (fun t => s.storeOnly t d i y n ∧ t.doneAs d i 5 e.id 0))) ∧
  (∀ (s : State) (d i x y : Nat) (e : QEntry), s.isUp = true → e.code = 0 → e.pend = 0 → e.prog = 0 → e.started = false → x < 0x80_0000 → y < 0x80_0000 →
    (s.readyCmd d i 5 0xC0 e → qw e.word 1 = BitVec.ofNat 64 (2 ^ 62 + x) → qw e.word 2 = BitVec.ofNat 64 (2 ^ 62 + y) → qw e.word 3 = 0 →
      Completes (.movCopy d i) s (fun t => t = { s with tiles := t.tiles } ∧ t.doneAs d i 5 e.id 0)) ∧
    (s.readyCmd d i 5 0xC1 e → qw e.word 1 = BitVec.ofNat 64 (2 ^ 62 + x) → qw e.word 2 = BitVec.ofNat 64 (2 ^ 62 + y) → bits (qw e.word 3) 15 0 = 0 →
      Completes (.movCopy2d d i) s (fun t => t = { s with tiles := t.tiles } ∧ t.doneAs d i 5 e.id 0)) ∧
    (s.readyCmd d i 5 0xC3 e → bits (qw e.word 3) 63 40 ≠ 0 → exec (.movFill d i) s = .next (s.refuse d i 5 e.id 0x1001)) ∧
    (s.readyCmd d i 5 0xC2 e → bits (qw e.word 3) 63 45 ≠ 0 → exec (.movConvert d i) s = .next (s.refuse d i 5 e.id 0x1001))) ∧
  (∀ (s : State) (d i q : Nat) (e : QEntry) (l : List QEntry), s.isUp = true → isTileDie d = true → i < 8 → q < 6 →
    (s.core d i).queue q = e :: l →
    (∀ c : Instr, (c = .engineCmdComplete d i q ∧ q < 5) ∨ (c = .moverCmdComplete d i ∧ q = 5) →
      (e.st = .done → s.deltasOut (s.coreCmpt d i) = false → (qpostEn e.word = false ∨ e.post = false) → (s.core d i).portWait = none → (s.core d i).movSeed = none →
        exec c s = .next (s.withCore d i { s.core d i with
          queues := (s.core d i).queues.put q l
          qstat := (s.core d i).qstat.put q (qstatAfter ((s.core d i).qstat.look q 0) e.code e.sticky)
          run := (s.core d i).run.map (fun r => { r with sticky := r.sticky ||| e.sticky }) })) ∧
      (e.st = .running → exec c s = .next s) ∧
      (e.st = .waiting → listedOp q (qop e.word) = true → exec c s = .next s)) ∧
    (∀ (w : BitVec 32) (c : BitVec 16), isFailure c = true → w.getLsbD 31 = false → bits w 15 0 = 0 →
      qstatAfter w c 0 = w ||| 0x80000000#32 ||| c.setWidth 32 ∧ qstatAfter (qstatAfter w c 0) (c + 1) 0 = qstatAfter w c 0))

/-- ELTWISE and GATHER of the shaping unit (R109, R112): an INT32 addition under WRAP stores the sum modulo 2^32, and a gathered row is copied from the table, or zeros when its index lies outside; nothing outside the result's bytes changes. -/
def Obligations.ShapingAddsIntegersAndGathersRows : Prop :=
  ∀ (s : State) (d i : Nat) (e : QEntry), s.isUp = true → s.poison = [] → memWf s.mem = true → e.code = 0 →
    (∀ a b o : Nat, s.readyCmd d i 4 0x40 e → a < 2 ^ 18 → b < 2 ^ 18 → o < 2 ^ 18 → (o = a ∨ 32 * a + 4 ≤ 32 * o ∨ 32 * o + 4 ≤ 32 * a) →
      qw e.word 1 = BitVec.ofNat 64 (a + 2 ^ 18 * b + 2 ^ 57) → qw e.word 2 = BitVec.ofNat 64 (o + 2 ^ 58) → qw e.word 3 = BitVec.ofNat 64 (2 ^ 32 + 2 ^ 56 * 0xBB) →
      Completes (.eltwise d i) s (fun t =>
        ofLe (memGets t.mem (storeBase d i + 32 * o) 4) = (ofLe (memGets s.mem (storeBase d i + 32 * a) 4) + ofLe (memGets s.mem (storeBase d i + 32 * b) 4)) % 2 ^ 32 ∧
        s.storeOnly t d i (32 * o) 4 ∧ t.doneAs d i 4 e.id 0)) ∧
    (∀ tab dst ix nrows l : Nat, s.readyCmd d i 4 0x46 e → tab < 2 ^ 18 → dst < 2 ^ 18 → ix < 2 ^ 18 → 1 ≤ nrows → nrows < 2 ^ 24 → 1 ≤ l → l < 2 ^ 16 →
      32 * tab + nrows * 32 * l ≤ storeSize → 32 * dst + 32 * l ≤ storeSize →
      (32 * tab + nrows * 32 * l ≤ 32 * dst ∨ 32 * dst + 32 * l ≤ 32 * tab) → (32 * ix + 4 ≤ 32 * dst ∨ 32 * dst + 32 * l ≤ 32 * ix) →
      qw e.word 1 = BitVec.ofNat 64 (tab + 2 ^ 18 * dst + 2 ^ 36 * ix) → qw e.word 2 = BitVec.ofNat 64 (l + 2 ^ 16) → qw e.word 3 = BitVec.ofNat 64 nrows →
      Completes (.shpGather d i) s (fun t =>
        memGets t.mem (storeBase d i + 32 * dst) (32 * l)
          = (if ofLe (memGets s.mem (storeBase d i + 32 * ix) 4) < nrows
             then memGets s.mem (storeBase d i + 32 * tab + ofLe (memGets s.mem (storeBase d i + 32 * ix) 4) * (32 * l)) (32 * l)
             else List.replicate (32 * l) 0) ∧
        s.storeOnly t d i (32 * dst) (32 * l) ∧ t.doneAs d i 4 e.id 0))

/-- The row commands and CONVERT (R107 to R111): one row of FP32 elements is reduced, normalised or converted, the result's bytes alone being written and the command ending with DONE. Shaping commands of no elements and malformed ones (R80, R85, R107): COUNT, ROWS or COLS of zero ends with DONE and writes no byte; a reserved field that is not zero is refused with DESC_FORMAT. -/
def Obligations.ShapingRowCommandsWriteOnlyTheirResult : Prop :=
  (∀ (s : State) (d i a o n : Nat) (e : QEntry), s.isUp = true → s.poison = [] → memWf s.mem = true → e.code = 0 → 1 ≤ n → n < 2 ^ 14 →
    32 * a + 4 * n ≤ storeSize → 32 * o + 4 * n ≤ storeSize →
    (s.readyCmd d i 4 0x41 e → qw e.word 1 = BitVec.ofNat 64 (a + 2 ^ 18 * o) → qw e.word 2 = BitVec.ofNat 64 (n + 2 ^ 20) → qw e.word 3 = 0 →
      Completes (.shpReduce d i) s (fun t => s.storeOnly t d i (32 * o) 4 ∧ t.doneAs d i 4 e.id 0)) ∧
    (s.readyCmd d i 4 0x42 e → qw e.word 1 = BitVec.ofNat 64 (a + 2 ^ 18 * o) → qw e.word 2 = BitVec.ofNat 64 (n + 2 ^ 20) → bits (qw e.word 3) 63 56 = 0 →
      Completes (.softmax d i) s (fun t => s.storeOnly t d i (32 * o) (4 * n) ∧ t.doneAs d i 4 e.id 0)) ∧
    (s.readyCmd d i 4 0x43 e → qw e.word 1 = BitVec.ofNat 64 (a + 2 ^ 18 * o) → qw e.word 2 = BitVec.ofNat 64 (2 ^ 38 * n) → bits (qw e.word 3) 63 32 = 1 →
      Completes (.norm d i) s (fun t => s.storeOnly t d i (32 * o) (4 * n) ∧ t.doneAs d i 4 e.id 0)) ∧
    (s.readyCmd d i 4 0x44 e → qw e.word 1 = BitVec.ofNat 64 (a + 2 ^ 18 * o) → qw e.word 2 = BitVec.ofNat 64 (n + 2 ^ 20 + 2 ^ 40) → bits (qw e.word 3) 63 32 = 0 →
      Completes (.normL2 d i) s (fun t => s.storeOnly t d i (32 * o) (4 * n) ∧ t.doneAs d i 4 e.id 0)) ∧
    (s.readyCmd d i 4 0x45 e → n % 32 = 0 → qw e.word 1 = BitVec.ofNat 64 (a + 2 ^ 18 * o) → qw e.word 2 = BitVec.ofNat 64 (n + 2 ^ 46) → qw e.word 3 = 0 →
      Completes (.convert d i) s (fun t => s.storeOnly t d i (32 * o) (2 * n) ∧ t.doneAs d i 4 e.id 0))) ∧
  (∀ (s : State) (d i : Nat) (e : QEntry), s.isUp = true → qw e.word 1 = 0 → qw e.word 2 = 0 →
    (s.readyCmd d i 4 0x40 e → qw e.word 3 = 0 → exec (.eltwise d i) s = .next (s.finish d i 4 e.id 0 0)) ∧
    (s.readyCmd d i 4 0x41 e → qw e.word 3 = 0 → exec (.shpReduce d i) s = .next (s.finish d i 4 e.id 0 0)) ∧
    (s.readyCmd d i 4 0x42 e → qw e.word 3 = 0 → exec (.softmax d i) s = .next (s.finish d i 4 e.id 0 0)) ∧
    (s.readyCmd d i 4 0x43 e → qw e.word 3 = 0 → exec (.norm d i) s = .next (s.finish d i 4 e.id 0 0)) ∧
    (s.readyCmd d i 4 0x44 e → qw e.word 3 = 0 → exec (.normL2 d i) s = .next (s.finish d i 4 e.id 0 0)) ∧
    (s.readyCmd d i 4 0x45 e → qw e.word 3 = 0 → exec (.convert d i) s = .next (s.finish d i 4 e.id 0 0)) ∧
    (s.readyCmd d i 4 0x46 e → qw e.word 3 = 0 → exec (.shpGather d i) s = .next (s.finish d i 4 e.id 0 0)) ∧
    (s.readyCmd d i 4 0x41 e → qw e.word 3 ≠ 0 → exec (.shpReduce d i) s = .next (s.refuse d i 4 e.id 0x1001)) ∧
    (s.readyCmd d i 4 0x45 e → qw e.word 3 ≠ 0 → exec (.convert d i) s = .next (s.refuse d i 4 e.id 0x1001)))

/-- SSU commands start (R118, R119, R148, R161): a head command whose wait holds and whose checks pass starts with its reserved SRAM; one whose mapping was withdrawn ends with STALE_MAP; one that fails a check is counted and ends with the check's code; one whose wait does not hold stays; ATTEND reads its catalogue's header at its start, and a malformed one ends it (R148). Windows (R121 to R124, R131): an open holds the window its fields describe, open and with an empty ledger; a close makes CLOSE_POST and leaves the window held; a free gives the window number back; none of them touches memory unless ZERO or an aggregation asks for it. -/
def Obligations.StackSideCommandsStartAndWindowsOpen : Prop :=
  (∀ (s : State) (l c k : Nat) (e : SsuCmd) (q : List SsuCmd), s.isUp = true → s.ready l = true → s.cstate c = .ready → s.epochHolds c = false →
    (s.stack l).queue c k = e :: q → e.st = .waiting →
    (s.waitHolds (.ssu l) (dssuWait e.bytes) 7 e.met = true → s.stale c e.xlats = false → s.startCheck l c e = 0 →
      (s.stack l).sramUsed + e.sramNeed 0 ≤ 1024 → (e.op = 0x0D → (s.stack l).mig = none) → (e.op = 0x10 → (attArgs e.bytes).rows = 0) →
      exec (.ssuCmdStart l c k) s
        = .next (s.withStack l ((s.stack l).setQueue c k ({ e with st := .running, sram := e.sramNeed 0, head := [] } :: q)))) ∧
    (∀ a : Nat, s.waitHolds (.ssu l) (dssuWait e.bytes) 7 e.met = true → s.stale c e.xlats = false → s.startCheck l c e = 0 →
      e.op = 0x10 → (attArgs e.bytes).rows ≠ 0 → s.poison = [] → s.plainAt c (attArgs e.bytes).cat 64 a →
      (catOk (attArgs e.bytes) (memGets s.mem a 64) = true → (s.stack l).sramUsed + e.sramNeed (fieldAt (memGets s.mem a 64) 15 1 % 16) ≤ 1024 →
        exec (.ssuCmdStart l c k) s = .next (s.withStack l ((s.stack l).setQueue c k
          ({ e with st := .running, sram := e.sramNeed (fieldAt (memGets s.mem a 64) 15 1 % 16), head := memGets s.mem a 64 } :: q)))) ∧
      (catOk (attArgs e.bytes) (memGets s.mem a 64) = false →
        exec (.ssuCmdStart l c k) s
          = .next ((s.withStack l { s.stack l with attStops := satAdd (s.stack l).attStops 1, refused := satAdd (s.stack l).refused 1 }).ssuEnd c e 0x400D 0 0))) ∧
    (s.waitHolds (.ssu l) (dssuWait e.bytes) 7 e.met = true → s.stale c e.xlats = true →
      exec (.ssuCmdStart l c k) s = .next (s.ssuEnd c e 0x2003 0 0)) ∧
    (s.waitHolds (.ssu l) (dssuWait e.bytes) 7 e.met = true → s.stale c e.xlats = false → s.startCheck l c e ≠ 0 →
      exec (.ssuCmdStart l c k) s
        = .next ((s.withStack l { s.stack l with refused := satAdd (s.stack l).refused 1 }).ssuEnd c e (s.startCheck l c e) 0 0)) ∧
    (s.waitHolds (.ssu l) (dssuWait e.bytes) 7 e.met = false → exec (.ssuCmdStart l c k) s = .next s)) ∧
  (∀ (s : State) (l c k : Nat) (e : SsuCmd), s.isUp = true →
    (∀ clip : Bool, s.ssuGoing l c k (if clip then 0x05 else 0x01) e → dfield e.bytes 61 1 / 128 % 2 = 0 → dfield e.bytes 64 4 ≠ 0 →
      s.vaAbsent c (dfield e.bytes 48 8 % 2 ^ 48) (max 1 (4 * dfield e.bytes 56 4)) = none →
      Completes (if clip then .clipNoise l c k else .winOpen l c k) s (fun t =>
        ((t.stack l).wins.look e.window {}).owner = c ∧ ((t.stack l).wins.look e.window {}).count = dfield e.bytes 56 4 ∧
        ((t.stack l).wins.look e.window {}).expected = dfield e.bytes 64 4 ∧ ((t.stack l).wins.look e.window {}).isOpen = true ∧
        ((t.stack l).wins.look e.window {}).clip = clip ∧ ((t.stack l).wins.look e.window {}).ledger = [] ∧
        (∀ n, n ≠ e.window → (t.stack l).wins.look n {} = (s.stack l).wins.look n {}) ∧
        t = { s with stk := t.stk, cmpts := t.cmpts })) ∧
    (s.ssuGoing l c k 0x02 e → (s.stack l).intake = [] → ((s.stack l).wins.look e.window {}).isOpen = true → ((s.stack l).wins.look e.window {}).clip = false →
      Completes (.winClose l c k) s (fun t =>
        ((t.stack l).wins.look e.window {}).isOpen = false ∧
        t.posts = s.posts ++ [{ cmpt := ((s.stack l).wins.look e.window {}).owner, word := ((s.stack l).wins.look e.window {}).closePost, src := 64 + l }] ∧
        t = { s with stk := t.stk, cmpts := t.cmpts, posts := t.posts })) ∧
    (s.ssuGoing l c k 0x02 e → (s.stack l).intake = [] → ((s.stack l).wins.look e.window {}).isOpen = false →
      exec (.winClose l c k) s = .next (s.ssuEnd c e 0 0 0)) ∧
    (s.ssuGoing l c k 0x03 e →
      exec (.winFree l c k) s = .next ((s.withStack l { s.stack l with wins := (s.stack l).wins.del e.window }).ssuEnd c e 0 0 0)))

/-- REDUCE and contributions (R125 to R129, R141): a REDUCE puts its source's bytes at the intake under its contributor and sequence; a contribution whose sequence the ledger holds changes no memory and is counted; one that names no held window is refused; one INT32 element is added into its place. -/
def Obligations.ContributionsAreAppliedOnce : Prop :=
  ∀ (s : State) (l : Nat), s.isUp = true → s.ready l = true →
    (∀ (c k a : Nat) (e : SsuCmd), s.ssuGoing l c k 0x04 e → dfield e.bytes 56 4 ≠ 0 → (s.stack l).intake = [] → s.poison = [] →
      s.plainAt c (dfield e.bytes 48 8 % 2 ^ 48) (dfield e.bytes 56 4 * (fmtBits ((s.stack l).wins.look e.window {}).srcFmt.toNat / 8)) a →
      exec (.ssuReduce l c k) s = .next (s.withStack l { s.stack l with intake := [{
        win := some e.window, cmpt := c, contributor := dfield e.bytes 64 2 % 4096, seq := dfield e.bytes 66 2, off := dfield e.bytes 60 4
        data := memGets s.mem a (dfield e.bytes 56 4 * (fmtBits ((s.stack l).wins.look e.window {}).srcFmt.toNat / 8))
        pois := [], origin := .desc c e.ring e.index, seg := some (vaSeg (dfield e.bytes 48 8 % 2 ^ 48)) }] })) ∧
    (∀ (c k : Nat) (e : SsuCmd), s.ssuGoing l c k 0x04 e → dfield e.bytes 56 4 = 0 → exec (.ssuReduce l c k) s = .next (s.ssuEnd c e 0 0 0)) ∧
    (∀ (x : Contrib) (q : List Contrib) (up : Nat), (s.stack l).intake = x :: q → s.winOf l x = none →
      exec (.contribution l 0 up) s
        = .next ((s.withStack l { s.stack l with intake := q, refused := satAdd (s.stack l).refused 1 }).contribEnd x 0x4004 0)) ∧
    (∀ (x : Contrib) (q : List Contrib) (w up cn : Nat), (s.stack l).intake = x :: q → s.winOf l x = some w → s.contribCode l x = 0 → x.mover = false → x.peer = none → x.origin = .none →
      ((s.stack l).wins.look w {}).contributor x = some cn → (((s.stack l).wins.look w {}).ledger.look cn {}).holds x.seq = true →
      Completes (.contribution l 0 up) s (fun t => t = { s with stk := t.stk } ∧ (t.stack l).intake = q ∧
        (t.stack l).dups = satAdd (s.stack l).dups 1 ∧ (t.stack l).applied = (s.stack l).applied)) ∧
    (∀ (x : Contrib) (q : List Contrib) (w cn : Nat), (s.stack l).intake = x :: q → s.winOf l x = some w → s.contribCode l x = 0 → x.mover = false → x.peer = none → x.origin = .none →
      ((s.stack l).wins.look w {}).contributor x = some cn → (((s.stack l).wins.look w {}).ledger.look cn {}).holds x.seq = false →
      (((s.stack l).wins.look w {}).ledger.look cn {}).partSeq ≠ x.seq → ((s.stack l).wins.look w {}).isOpen = true → ((s.stack l).wins.look w {}).clip = false →
      ((s.stack l).wins.look w {}).srcFmt = 11 → ((s.stack l).wins.look w {}).dstFmt = 11 → ((s.stack l).wins.look w {}).op = 0 → ((s.stack l).wins.look w {}).sat = 2 →
      ((s.stack l).wins.look w {}).accepted + 1 ≠ ((s.stack l).wins.look w {}).expected → x.data.length = 4 → x.win = some w → x.pois = [] → s.poison = [] → memWf s.mem = true →
      ((s.stack l).wins.look w {}).paged = false → ((s.stack l).wins.look w {}).dst % 4 = 0 → ((s.stack l).wins.look w {}).dst + 4 * x.off + 4 ≤ 0x8_0000_0000 → s.guarded = [] →
      s.uncached (lsBase l + ((s.stack l).wins.look w {}).dst + 4 * x.off) 4 →
      Completes (.contribution l 0 1) s (fun t =>
        ofLe (memGets t.mem (lsBase l + ((s.stack l).wins.look w {}).dst + 4 * x.off) 4)
          = (ofLe (memGets s.mem (lsBase l + ((s.stack l).wins.look w {}).dst + 4 * x.off) 4) + ofLe x.data) % 2 ^ 32 ∧
        SameMemBut s t (lsBase l + ((s.stack l).wins.look w {}).dst + 4 * x.off) 4 ∧
        ((t.stack l).wins.look w {}).accepted = ((s.stack l).wins.look w {}).accepted + 1 ∧ (t.stack l).intake = q ∧
        (t.stack l).applied = satAdd (s.stack l).applied 1))

/-- GATHER, SCATTER, WIPE and OPT_STEP (R134 to R138): one row is copied from the table to the far end, or from the far end to the table; a wiped range reads zero; an optimizer step changes only its three vectors; nothing else in memory changes. PARITY, MIGRATE and NOISE_REKEY (R132, R137, R139): a check of parity counts the stripes that differ and changes no memory; a recomputation gives every stripe of the range its parity; a migration gives the stack to the reserve tile with its copy at the start; 2^32 noise samples bring a fresh key. -/
def Obligations.StackSideCommandsMoveWipeAndMigrate : Prop :=
  (∀ (s : State) (l c k : Nat) (e : SsuCmd), s.isUp = true → s.poison = [] → memWf s.mem = true →
    (∀ pt pi pf v : Nat, s.ssuGoing l c k 0x09 e → dfield e.bytes 72 4 = 1 → dfield e.bytes 88 1 / 16 % 4 = 0 → e.group = 0 → e.normW = 0 →
      s.plainAt c (dfield e.bytes 56 8 % 2 ^ 48) 4 pi → ofLe (memGets s.mem pi 4) = v → v < 2 ^ 31 → v < dfield e.bytes 76 4 →
      s.plainAt c (dfield e.bytes 48 8 % 2 ^ 48 + v * (s.rowArgs c e.bytes).pitch) (dfield e.bytes 80 4) pt →
      dfield e.bytes 64 8 / 2 ^ 48 = 0 → s.plainAt c (dfield e.bytes 64 8) (dfield e.bytes 80 4) pf → 1 ≤ dfield e.bytes 80 4 →
      piecesMeet [(pf, dfield e.bytes 80 4)] (s.vaPieces c (dfield e.bytes 48 8 % 2 ^ 48) (tableLen (dfield e.bytes 76 4) (s.rowArgs c e.bytes).pitch (dfield e.bytes 80 4)) ++ [(pi, 4)]) = false →
      Completes (.ssuGather l c k) s (fun t => memGets t.mem pf (dfield e.bytes 80 4) = memGets s.mem pt (dfield e.bytes 80 4) ∧ SameMemBut s t pf (dfield e.bytes 80 4))) ∧
    (∀ pt pi pf v : Nat, s.ssuGoing l c k 0x0A e → dfield e.bytes 72 4 = 1 → dfield e.bytes 88 1 / 16 % 4 = 0 → e.group = 0 → e.normW = 0 →
      s.plainAt c (dfield e.bytes 56 8 % 2 ^ 48) 4 pi → ofLe (memGets s.mem pi 4) = v → v < 2 ^ 31 → v < dfield e.bytes 76 4 →
      s.plainAt c (dfield e.bytes 48 8 % 2 ^ 48 + v * (s.rowArgs c e.bytes).pitch) (dfield e.bytes 80 4) pt →
      dfield e.bytes 64 8 / 2 ^ 48 = 0 → s.plainAt c (dfield e.bytes 64 8) (dfield e.bytes 80 4) pf → 1 ≤ dfield e.bytes 80 4 →
      Completes (.scatter l c k) s (fun t => memGets t.mem pt (dfield e.bytes 80 4) = memGets s.mem pf (dfield e.bytes 80 4) ∧ SameMemBut s t pt (dfield e.bytes 80 4))) ∧
    (∀ a n : Nat, s.ssuGoing l c k 0x0C e → dfield e.bytes 56 8 = n → 1 ≤ n → s.plainAt c (dfield e.bytes 48 8 % 2 ^ 48) n a →
      Completes (.wipe l c k) s (fun t => (∀ j, j < n → memGet t.mem (a + j) = 0) ∧ SameMemBut s t a n)) ∧
    (∀ w g m n : Nat, s.ssuGoing l c k 0x08 e → dfield e.bytes 88 4 = n → 1 ≤ n → n ≤ 512 → dfield e.bytes 92 1 = 0 → dfield e.bytes 93 1 = 0 → dfield e.bytes 80 8 = 0 → e.group = 0 →
      s.plainAt c (dfield e.bytes 48 8 % 2 ^ 48) (4 * n) w → s.plainAt c (dfield e.bytes 56 8 % 2 ^ 48) (4 * n) g → s.plainAt c (dfield e.bytes 64 8 % 2 ^ 48) (4 * n) m →
      Completes (.optStep l c k) s (fun t => ∀ b, (b < w ∨ w + 4 * n ≤ b) → (b < m ∨ m + 4 * n ≤ b) → memGet t.mem b = memGet s.mem b)) ∧
    (s.ssuGoing l c k 0x08 e → dfield e.bytes 88 4 = 0 → exec (.optStep l c k) s = .next (s.ssuEnd c e 0 0 0)) ∧
    (s.ssuGoing l c k 0x09 e → dfield e.bytes 72 4 = 0 → e.group = 0 → e.normW = 0 → exec (.ssuGather l c k) s = .next (s.ssuEnd c e 0 0 0)) ∧
    (s.ssuGoing l c k 0x0A e → dfield e.bytes 72 4 = 0 → e.group = 0 → e.normW = 0 → exec (.scatter l c k) s = .next (s.ssuEnd c e 0 0 0))) ∧
  (∀ (s : State) (l c k : Nat) (e : SsuCmd), s.isUp = true →
    (s.ssuGoing l c k 0x0B e → dfield e.bytes 64 1 % 4 = 1 →
      exec (.parity l c k) s = .next (s.ssuEnd c e 0 0 (((s.parityPlan c e.bytes).2.1.filter (s.parityBad (s.parityPlan c e.bytes).1)).length % 2 ^ 32))) ∧
    (s.ssuGoing l c k 0x0B e → dfield e.bytes 64 1 % 4 = 0 →
      exec (.parity l c k) s
        = .next (((s.parityPlan c e.bytes).2.1.foldl (fun t o => t.recomputeParity (s.parityPlan c e.bytes).1 o) s).ssuEnd c e 0 0 0)) ∧
    (∀ (ms : List Nat) (b len p off : Nat), s.poison = [] → memWf s.mem = true → ms[(off - b) / 2048 % 8]? = some p → off % 32 = 0 → off + 32 ≤ 0x8_0000_0000 →
      ((s.recomputeParity (ms, b, len) off).memberSec p off = s.stripeXor ms p 99 off % 2 ^ 256 ∧
       SameMemBut s (s.recomputeParity (ms, b, len) off) (lsBase p + off) 32)) ∧
    (s.ssuGoing l c k 0x0D e → (s.stack l).mig = none →
      exec (.migrate l c k) s = .next (s.withStack l { s.stack l with
        die := dfield e.bytes 48 1 % 64, mig := some { src := (s.stack l).die, dst := dfield e.bytes 48 1 % 64, cursor := 0, planned := true } })) ∧
    (l < 32 → 2 ^ 32 ≤ (s.stack l).noise →
      exec (.noiseRekey l) s = .next { s.withStack l { s.stack l with noiseKey := s.tick, noise := (s.stack l).noise - 2 ^ 32 } with tick := s.tick + 1 }) ∧
    ((s.stack l).noise < 2 ^ 32 → exec (.noiseRekey l) s = .next s))

/-- ATTEND and MERGE (R149, R156 to R160): a command of no rows ends at once; rows that have seen no position, and a MERGE of one triple that has seen none, give +0 in every element of a final output; nothing else in memory changes. -/
def Obligations.AttentionOutputsOfUnseenRows : Prop :=
  ∀ (s : State) (l c k : Nat) (e : SsuCmd), s.isUp = true → e.second = false →
    (s.ssuGoing l c k 0x10 e → (attArgs e.bytes).rows = 0 → exec (.attend l c k) s = .next (s.ssuEnd c e 0 0 0)) ∧
    (s.ssuGoing l c k 0x11 e → (dfield e.bytes 44 1 % 32 = 0 ∨ dfield e.bytes 45 1 % 128 = 0) → exec (.merge l c k) s = .next (s.ssuEnd c e 0 0 0)) ∧
    (∀ pq po : Nat, s.ssuGoing l c k 0x10 e → s.poison = [] → memWf s.mem = true → (attArgs e.bytes).rows ≠ 0 → (attArgs e.bytes).final = true → (attArgs e.bytes).biasMode = 0 → (attArgs e.bytes).outFmt ≤ 1 →
      1 ≤ (attArgs e.bytes).dim →
      s.plainAt c (attArgs e.bytes).q ((attArgs e.bytes).rows * (attArgs e.bytes).dim * (fmtBits (attArgs e.bytes).qFmt / 8)) pq →
      s.plainAt c (attArgs e.bytes).out ((attArgs e.bytes).rows * (attArgs e.bytes).dim * (fmtBits (attArgs e.bytes).outFmt / 8)) po →
      s.vaAbsent c (attArgs e.bytes).bias 0 = none → s.opPeer c (.va (attArgs e.bytes).out) = none →
      (catHead e.head).count = 0 →
      Completes (.attend l c k) s (fun t =>
        (∀ j, j < (attArgs e.bytes).rows * (attArgs e.bytes).dim * (fmtBits (attArgs e.bytes).outFmt / 8) → memGet t.mem (po + j) = 0) ∧
        SameMemBut s t po ((attArgs e.bytes).rows * (attArgs e.bytes).dim * (fmtBits (attArgs e.bytes).outFmt / 8)))) ∧
    (∀ pi po d : Nat, s.ssuGoing l c k 0x11 e → s.poison = [] → memWf s.mem = true → dfield e.bytes 44 1 = 1 → dfield e.bytes 45 1 = 1 → d = 32 * (dfield e.bytes 46 1 % 16) → 1 ≤ d →
      dfield e.bytes 47 1 = 1 → s.plainAt c (dfield e.bytes 48 8 % 2 ^ 48) (32 + 4 * d) pi → s.plainAt c (dfield e.bytes 56 8 % 2 ^ 48) (4 * d) po →
      s.opPeer c (.va (dfield e.bytes 56 8 % 2 ^ 48)) = none →
      memGets s.mem pi 4 = [0x00, 0x00, 0x80, 0xFF] → memGets s.mem (pi + 4) (28 + 4 * d) = List.replicate (28 + 4 * d) 0 →
      Completes (.merge l c k) s (fun t => (∀ j, j < 4 * d → memGet t.mem (po + j) = 0) ∧ SameMemBut s t po (4 * d)))

/-- Requests of the memory system (R171 to R173, R176 to R178): a read of one sector joins the read queue, is decoded and completes, a corrected one counted and logged, a poisoned one with POISON; a whole-sector write stores its bytes, clears the sector's poison, joins the write queue and completes; either waits, changing nothing else, while its queue is full, and ends with ADDR_UNMAPPED where no stack is served; a cycle of the controller issues the only request there is, opening its row. -/
def Obligations.MemoryRequestsQueueAccessAndIssue : Prop :=
  ∀ (s : State) (ls o k cls prio : Nat), s.isUp = true → o % 128 = 0 → o < 0x8_0000_0000 → k < 4 →
    (s.served ls = true → isTileDie (s.stack ls).die = true → (s.stack ls).held = [] → s.clipHit (lsBase ls + o) 128 = false →
      s.rebuilding ls (o + 32 * k) = false → s.stripeOf ls (o + 32 * k) = none → (s.pch (s.stack ls).die (offPc o)).hasWrite ((o + 32 * k) / 32) = false →
      ((s.pch (s.stack ls).die (offPc o)).rq.length < 48 → ∀ d : Dec,
        Completes (.memRead ls o (BitVec.ofNat 4 (2 ^ k)) [d] cls prio) s (fun t =>
          (t.pch (s.stack ls).die (offPc o)).rq = (s.pch (s.stack ls).die (offPc o)).rq ++ [{ sector := (o + 32 * k) / 32, cls := cls % 8, prio := prio % 4 }] ∧
          (d = .clean → s.secPois ((lsBase ls + (o + 32 * k)) / 32) = false → t = { s with tiles := t.tiles, tick := t.tick, out := s.out ++ [.memEnd ls o 0] }) ∧
          (d = .clean → s.secPois ((lsBase ls + (o + 32 * k)) / 32) = true → bits (t.tile (s.stack ls).die).mem.errLog 63 62 = 3 ∧
            t = { s with tiles := t.tiles, tick := t.tick, out := s.out ++ [.memEnd ls o 0x3001] }) ∧
          (d = .corrected → s.secPois ((lsBase ls + (o + 32 * k)) / 32) = false → bits (s.tile (s.stack ls).die).mem.ceThresh 31 0 = 0 →
            (t.tile (s.stack ls).die).mem.ceCount = satAdd (s.tile (s.stack ls).die).mem.ceCount 1 ∧
            (t.tile (s.stack ls).die).mem.ceTotal = satAdd (s.tile (s.stack ls).die).mem.ceTotal 1 ∧
            bits (t.tile (s.stack ls).die).mem.errLog 63 62 = 1 ∧ t = { s with tiles := t.tiles, tick := t.tick, out := s.out ++ [.memEnd ls o 0] }) ∧
          (d = .uncorrectable → s.secPois ((lsBase ls + (o + 32 * k)) / 32) = false → t.secPois ((lsBase ls + (o + 32 * k)) / 32) = true ∧
            (t.tile (s.stack ls).die).mem.ueCount = satAdd (s.tile (s.stack ls).die).mem.ueCount 1 ∧ t.out.getLast? = some (.memEnd ls o 0x3001)))) ∧
      ((s.pch (s.stack ls).die (offPc o)).rq.length = 48 → ∀ d : List Dec,
        exec (.memRead ls o (BitVec.ofNat 4 (2 ^ k)) d cls prio) s
          = .next (s.withStack ls { s.stack ls with held := [{ off := o, mask := BitVec.ofNat 4 (2 ^ k), decs := d, cls := cls, prio := prio }] }))) ∧
    (∀ l : List Byte, l.length = 32 → s.served ls = true → isTileDie (s.stack ls).die = true → (s.stack ls).held = [] →
      s.clipHit (lsBase ls + (o + 32 * k)) 32 = false → s.rebuilding ls (o + 32 * k) = false → s.stripeOf ls (o + 32 * k) = none →
      ((s.pch (s.stack ls).die (offPc o)).wq.length < 32 → memWf s.mem = true →
        Completes (.memWrite ls (o + 32 * k) l 0 .clean cls prio) s (fun t =>
          memGets t.mem (lsBase ls + (o + 32 * k)) 32 = l ∧ SameMemBut s t (lsBase ls + (o + 32 * k)) 32 ∧
          t.secPois ((lsBase ls + (o + 32 * k)) / 32) = false ∧
          (t.pch (s.stack ls).die (offPc o)).wq = (s.pch (s.stack ls).die (offPc o)).wq ++ [{ write := true, sector := (o + 32 * k) / 32, cls := cls % 8, prio := prio % 4 }] ∧
          t = { s with mem := t.mem, poison := t.poison, tiles := t.tiles, out := s.out ++ [.memEnd ls (o + 32 * k) 0] })) ∧
      ((s.pch (s.stack ls).die (offPc o)).wq.length = 32 →
        exec (.memWrite ls (o + 32 * k) l 0 .clean cls prio) s
          = .next (s.withStack ls { s.stack ls with held := [{ write := true, off := o + 32 * k, bytes := l, pois := 0, dec := .clean, cls := cls, prio := prio }] }))) ∧
    (s.served ls = false → (s.stack ls).held = [] → (∀ (m : BitVec 4) (d : List Dec), exec (.memRead ls o m d cls prio) s = .next { s with out := s.out ++ [.memEnd ls o 0x3002] }) ∧
      ∀ (l : List Byte) (q : BitVec 4) (d : Dec), l ≠ [] → l.length ≤ 128 → exec (.memWrite ls o l q d cls prio) s = .next { s with out := s.out ++ [.memEnd ls o 0x3002] }) ∧
    (∀ (d p : Nat) (r : PcReq), p < 32 → isTileDie d = true → bit (s.tile d).mem.status 1 = false → (s.tile d).hotD ≤ 95 →
      (s.pch d p).rq = [r] → r.write = false → (s.pch d p).wq = [] → (s.pch d p).postponed = [] → (∀ l, s.lsOf d = some l → (s.stack l).held = []) →
      Completes (.controllerIssue d p) s (fun t =>
        (t.pch d p).rq = [] ∧ (t.pch d p).wq = [] ∧ (t.pch d p).served.look r.cls 0 = (s.pch d p).served.look r.cls 0 + 1 ∧
        (t.pch d p).rowOpen r = true ∧ (∀ q, q ≠ p → t.pch d q = s.pch d q) ∧ t = { s with tiles := t.tiles }))

/-- What passes with time at a stack's controller (R174, R175, R184, R185, R186): the served counts restart, the queue level min(7, floor(8 q / 2560)) reaches every regulator, a refresh interval adds one postponed refresh up to eight, the scrub moves to the next sector, the error window restarts, and the two error registers take their values. -/
def Obligations.ControllersCountRefreshAndScrub : Prop :=
  ∀ (s : State) (d : Nat), s.isUp = true → isTileDie d = true →
    (∀ p, Completes (.floorWindow d) s (fun t => (t.pch d p).served = [] ∧ (t.pch d p).rq = (s.pch d p).rq ∧ (t.pch d p).wq = (s.pch d p).wq ∧ t = { s with tiles := t.tiles })) ∧
    (∀ l, s.lsOf d = some l →
      Completes (.queueLevelBroadcast d) s (fun t => (t.tile d).mem.qlevel = BitVec.ofNat 64 (min 7 (8 * (s.tile d).mem.used / 2560)) ∧
        (∀ e ∈ t.masters, e.2.levels.look l 0 = min 7 (8 * (s.tile d).mem.used / 2560)) ∧ t = { s with tiles := t.tiles, masters := t.masters })) ∧
    (∀ p b, p < 32 → b < 64 → bit (s.tile d).mem.status 1 = false →
      Completes (.refresh d p b) s (fun t => (t.pch d p).postponed.look b 0 = min 8 ((s.pch d p).postponed.look b 0 + 1) ∧
        (∀ k, k ≠ b → (t.pch d p).postponed.look k 0 = (s.pch d p).postponed.look k 0) ∧ t = { s with tiles := t.tiles })) ∧
    (∀ ls o, s.served ls = true → (s.stack ls).die = d → (s.tile d).mem.scrub = BitVec.ofNat 64 (32 * o) → 32 * o < 0x8_0000_0000 →
      s.rebuilding ls (32 * o) = false → s.secPois ((lsBase ls + 32 * o) / 32) = false →
      Completes (.patrolScrub ls .clean) s (fun t => t = { s with tiles := t.tiles, tick := t.tick } ∧
        (t.tile d).mem = { (s.tile d).mem with scrub := BitVec.ofNat 64 ((32 * o + 32) % 0x8_0000_0000), odecc := (t.tile d).mem.odecc })) ∧
    (s.flt.ceHolds ≠ d → exec (.ceWindowEnd d) s = .next (s.modMem d (fun m => { m with ceCount := 0, reported := false })) ∧
      ∀ v : BitVec 64, 1 ≤ bits v 31 0 → bits v 31 0 ≤ 86400000 →
        exec (.memCeWindowWrite .pf d v) s = .next (s.modMem d (fun m => { m with ceWindow := BitVec.ofNat 64 (bits v 31 0), ceCount := 0, reported := false })) ∧
        exec (.memCeWindowWrite .mgmt d v) s = .next (s.modMem d (fun m => { m with ceWindow := BitVec.ofNat 64 (bits v 31 0), ceCount := 0, reported := false }))) ∧
    (∀ v : BitVec 64, bits v 31 0 = 0 ∨ 86400000 < bits v 31 0 → exec (.memCeWindowWrite .pf d v) s = .next s) ∧
    (∀ v : BitVec 64, bits v 31 0 = 0 ∨ (s.tile d).mem.ceCount.toNat < bits v 31 0 →
      exec (.memCeThreshWrite .pf d v) s = .next (s.modMem d (fun m => { m with ceThresh := BitVec.ofNat 64 (bits v 31 0) }))) ∧
    (∀ (f : Nat) (v : BitVec 64), exec (.memCeWindowWrite (.vf f) d v) s = .next (s.portDenied (.vf f) 0x500040) ∧
      exec (.memCeThreshWrite (.vf f) d v) s = .next (s.portDenied (.vf f) 0x500048))

/-- Parity of a guarded area (R182): a delta is XORed into its parity sector, which is counted when it reads as corrected and recomputed when it is uncorrectable; a rebuild asks each other data member, a member answers with its sector, and the last reply writes back the XOR of parity, replies and the member's deltas on their way, after which what waited for the sector goes on. -/
def Obligations.ParityAndRebuildFollowTheXor : Prop :=
  ∀ (s : State), s.isUp = true → memWf s.mem = true →
    (∀ (ls : Nat) (x : Delta) (l : List Delta), ls < 32 → x.pls < 32 → (s.stack ls).deltas = x :: l → (s.stack x.pls).rebuilds = [] → s.stripes = [] → x.off % 32 = 0 →
      Completes (.parityDelta ls 0 .clean) s (fun t => (t.stack ls).deltas = l ∧
        ofLe (t.rd (lsBase x.pls + x.off) 32) = ofLe (s.rd (lsBase x.pls + x.off) 32) ^^^ x.data.toNat ∧
        SameMemBut s t (lsBase x.pls + x.off) 32 ∧ t = { s with stk := t.stk, mem := t.mem, poison := t.poison }) ∧
      exec (.parityDelta ls 0 .corrected) s = .next (((s.withStack ls { s.stack ls with deltas := l }).ceRead x.pls x.off).applyDelta x) ∧
      ∀ ms, s.stripeOf x.pls x.off = some (x.pls, ms) → exec (.parityDelta ls 0 .uncorrectable) s
        = .next (((s.withStack ls { s.stack ls with deltas := l }).logErr x.pls x.off 2).parityRebuild x.pls x.off ms)) ∧
    (∀ (m : StripeMsg) (ms : List Nat), s.stripes = [m] → m.kind = 0 → m.dst < 32 → s.stripeOf m.dst m.off = some (m.dst, ms) → (s.stack m.dst).rebuilds = [] →
      Completes (.rebuild 0) s (fun t =>
        t.stripes = (ms.filter (fun x => x != m.dst && x != m.src)).map (fun x => { kind := 1, src := m.dst, dst := x, off := m.off }) ∧
        (t.stack m.dst).rebuilds = [{ area := s.areaOf m.dst m.off, off := m.off, target := some m.src, await := ms.filter (fun x => x != m.dst && x != m.src) }] ∧
        t = { s with stk := t.stk, stripes := t.stripes })) ∧
    (∀ (m : StripeMsg), s.stripes = [m] → m.kind = 1 → (s.stack m.dst).deltas = [] → s.secPois ((lsBase m.dst + m.off) / 32) = false →
      exec (.stripeRead 0 .clean) s = .next { s with stripes := [{ kind := 2, src := m.dst, dst := m.src, off := m.off, data := BitVec.ofNat 256 (ofLe (s.rd (lsBase m.dst + m.off) 32)), bad := false }] } ∧
      exec (.stripeRead 0 .uncorrectable) s = .next { s with stripes := [{ kind := 2, src := m.dst, dst := m.src, off := m.off, data := 0, bad := true }] }) ∧
    (∀ (m : StripeMsg) (r : RebuildTxn) (d : Dec), s.stripes = [m] → m.kind = 2 → m.dst < 32 → m.src < 32 → (s.stack m.dst).rebuilds = [r] → r.off = m.off → m.src ∈ r.await →
      (∃ x ∈ r.await, x ≠ m.src) →
      Completes (.stripeReply 0 d) s (fun t => t.stripes = [] ∧
        (t.stack m.dst).rebuilds = [{ r with await := r.await.filter (· != m.src), acc := r.acc ^^^ m.data, bad := if m.bad then r.bad ++ [m.src] else r.bad }] ∧
        t = { s with stk := t.stk, stripes := [] })) ∧
    (∀ (m : StripeMsg) (r : RebuildTxn) (g : Nat), s.stripes = [m] → m.kind = 2 → m.bad = false → m.dst < 32 → g < 32 → g ≠ m.dst → (s.stack m.dst).rebuilds = [r] → r.off = m.off → m.off % 32 = 0 →
      m.off < 0x8_0000_0000 → r.await = [m.src] → r.bad = [] → r.held = [] → r.target = some g → (s.stack g).deltas = [] →
      ∃ u : State, exec (.stripeReply 0 .clean) s = .next (u.afterRebuild g) ∧ (u.stack m.dst).rebuilds = [] ∧ u.stripes = [] ∧
        u.rd (lsBase g + m.off) 32 = leBytes 32 (s.memberSec m.dst m.off ^^^ r.acc.toNat ^^^ m.data.toNat) ∧ SameMemBut s u (lsBase g + m.off) 32)

/-- Coherent reads at their home (Table 8.4, R195): RD_SHARED takes an idle line to E, or to M with every sector dirty for a graft site (R192), and a shared one to S with the requester added, an owned one snoops its owner, RD_UNIQUE and UPGRADE make the requester owner, and each grant carries memory's line; memory does not change. -/
def Obligations.CoherentReadsGrantByDirectoryState : Prop :=
  ∀ (s : State) (m : CohMsg), s.isUp = true → s.soleMsg m → m.toAgent = false →
    (m.kind = .rdShared → (s.dirEnt m.home m.line).st = .i →
      Completes (.rdShared 0) s (fun t =>
        t.coh = [{ kind := .grantE, src := s.homeDie m.home, unit := m.unit, dst := m.src, home := m.home, line := m.line, mask := m.mask, data := s.memLine m.line, pois := s.memPois m.line, cmpt := m.cmpt, toAgent := true, cls := m.cls }] ∧
        (t.dirEnt m.home m.line).st = (if 29 ≤ m.src then .m else .e) ∧ (t.dirEnt m.home m.line).dirty = (if 29 ≤ m.src then 0xF else 0) ∧
        (t.dirEnt m.home m.line).sharers = dieBit m.src ∧ s.onlyHome t m.home ∧
        (∀ ln, ln ≠ m.line → t.dirEnt m.home ln = s.dirEnt m.home ln))) ∧
    (m.kind = .rdShared → m.mask = 0xF → (s.dirEnt m.home m.line).st = .s →
      Completes (.rdShared 0) s (fun t =>
        t.coh = [{ kind := .grantS, src := s.homeDie m.home, unit := m.unit, dst := m.src, home := m.home, line := m.line, mask := 0xF, data := s.memLine m.line, pois := s.memPois m.line, cmpt := m.cmpt, toAgent := true, cls := m.cls }] ∧
        (t.dirEnt m.home m.line).st = .s ∧ (t.dirEnt m.home m.line).sharers = (s.dirEnt m.home m.line).sharers ||| dieBit m.src ∧ s.onlyHome t m.home)) ∧
    (∀ o, o < 33 → (m.kind = .rdShared → m.mask = 0xF → ((s.dirEnt m.home m.line).st = .e ∨ (s.dirEnt m.home m.line).st = .m) → diesOf (s.dirEnt m.home m.line).sharers = [o] →
      Completes (.rdShared 0) s (fun t =>
        t.coh = [{ kind := .snpShared, src := s.homeDie m.home, unit := 8, dst := o, home := m.home, line := m.line, cmpt := m.cmpt, toAgent := true, cls := m.cls }] ∧
        t.busy m.home m.line = true ∧ t.dirEnt m.home m.line = s.dirEnt m.home m.line ∧ s.onlyHome t m.home))) ∧
    (m.kind = .rdUnique → (s.dirEnt m.home m.line).st = .i → diesOf (s.dirEnt m.home m.line).sharers = [] →
      Completes (.rdUnique 0) s (fun t =>
        t.coh = [{ kind := .grantE, src := s.homeDie m.home, unit := m.unit, dst := m.src, home := m.home, line := m.line, mask := m.mask, data := s.memLine m.line, pois := s.memPois m.line, cmpt := m.cmpt, toAgent := true, cls := m.cls }] ∧
        (t.dirEnt m.home m.line).st = (if 29 ≤ m.src then .m else .e) ∧ (t.dirEnt m.home m.line).dirty = (if 29 ≤ m.src then 0xF else 0) ∧
        (t.dirEnt m.home m.line).sharers = dieBit m.src ∧ s.onlyHome t m.home)) ∧
    (m.kind = .upgrade → m.src < 33 → (s.dirEnt m.home m.line).st = .s → (s.dirEnt m.home m.line).sharers = dieBit m.src →
      Completes (.upgrade 0) s (fun t =>
        t.coh = [{ kind := .grantE, src := s.homeDie m.home, unit := m.unit, dst := m.src, home := m.home, line := m.line, cmpt := m.cmpt, toAgent := true, cls := m.cls }] ∧
        (t.dirEnt m.home m.line).st = (if 29 ≤ m.src then .m else .e) ∧ (t.dirEnt m.home m.line).dirty = (if 29 ≤ m.src then 0xF else 0) ∧
        (t.dirEnt m.home m.line).sharers = dieBit m.src ∧ s.onlyHome t m.home))

/-- Writes of dirtiness, write-backs, evictions and non-coherent accesses at their home (Table 8.4, R192, R195): MARK_DIRTY from the owner records the sectors and is acknowledged, from another die it is answered DIRTY_STALE; WR_BACK from the owner writes its sectors and frees the line, from another writes nothing; EVICT_CLEAN frees the owner's line; RD_NC and WR_NC of an idle line take no copy. -/
def Obligations.OwnersMarkWriteBackAndEvict : Prop :=
  ∀ (s : State) (m : CohMsg), s.isUp = true → s.soleMsg m → m.toAgent = false →
    (m.kind = .markDirty → ((s.dirEnt m.home m.line).st = .e ∨ (s.dirEnt m.home m.line).st = .m) → (s.dirEnt m.home m.line).sharers = dieBit m.src →
      Completes (.markDirty 0) s (fun t =>
        t.coh = [{ kind := .dirtyAck, src := s.homeDie m.home, unit := m.unit, dst := m.src, home := m.home, line := m.line, mask := m.mask, cmpt := m.cmpt, toAgent := true, cls := m.cls }] ∧
        (t.dirEnt m.home m.line).st = .m ∧ (t.dirEnt m.home m.line).dirty = (s.dirEnt m.home m.line).dirty ||| m.mask ∧
        (t.dirEnt m.home m.line).sharers = dieBit m.src ∧ s.onlyHome t m.home)) ∧
    (m.kind = .markDirty → (s.dirEnt m.home m.line).sharers ≠ dieBit m.src →
      Completes (.markDirty 0) s (fun t =>
        t.coh = [{ kind := .dirtyStale, src := s.homeDie m.home, unit := m.unit, dst := m.src, home := m.home, line := m.line, mask := m.mask, cmpt := m.cmpt, toAgent := true, cls := m.cls }] ∧
        t.dirEnt m.home m.line = s.dirEnt m.home m.line ∧ s.onlyHome t m.home)) ∧
    (∀ k, k < 4 → m.kind = .wrBack → m.mask = BitVec.ofNat 4 (2 ^ k) → m.pois = 0 → memWf s.mem = true → s.plainSec (128 * m.line + 32 * k) →
      ((s.dirEnt m.home m.line).st = .e ∨ (s.dirEnt m.home m.line).st = .m) → (s.dirEnt m.home m.line).sharers = dieBit m.src →
      Completes (.wrBack 0) s (fun t =>
        t.coh = [{ kind := .wbAck, src := s.homeDie m.home, unit := m.unit, dst := m.src, home := m.home, line := m.line, mask := m.mask, cmpt := m.cmpt, toAgent := true, cls := m.cls }] ∧
        memGets t.mem (128 * m.line + 32 * k) 32 = ((lineBytes m.data).drop (32 * k)).take 32 ∧ SameMemBut s t (128 * m.line + 32 * k) 32 ∧
        (t.dirEnt m.home m.line).st = .i)) ∧
    (m.kind = .wrBack → (s.dirEnt m.home m.line).sharers ≠ dieBit m.src →
      Completes (.wrBack 0) s (fun t =>
        t.coh = [{ kind := .wbAck, src := s.homeDie m.home, unit := m.unit, dst := m.src, home := m.home, line := m.line, mask := m.mask, cmpt := m.cmpt, toAgent := true, cls := m.cls }] ∧
        t.dirEnt m.home m.line = s.dirEnt m.home m.line ∧ s.onlyHome t m.home)) ∧
    (m.kind = .evictClean → ((s.dirEnt m.home m.line).st = .e ∨ ((s.dirEnt m.home m.line).st = .m ∧ 29 ≤ m.src)) → (s.dirEnt m.home m.line).sharers = dieBit m.src →
      Completes (.evictClean 0) s (fun t =>
        t.coh = [{ kind := .ack, src := s.homeDie m.home, unit := m.unit, dst := m.src, home := m.home, line := m.line, cmpt := m.cmpt, toAgent := true, cls := m.cls }] ∧
        (t.dirEnt m.home m.line).st = .i ∧ s.onlyHome t m.home)) ∧
    (m.kind = .rdNc → m.src < 29 → (s.dirEnt m.home m.line).st = .i →
      Completes (.rdNc 0) s (fun t => t.coh = [] ∧ t.dirEnt m.home m.line = s.dirEnt m.home m.line ∧ t.busy m.home m.line = false ∧ s.onlyHome t m.home)) ∧
    (∀ k, k < 4 → m.kind = .wrNc → m.src < 29 → m.mask = BitVec.ofNat 4 (2 ^ k) → m.bytes = 0 → m.pois = 0 → m.hint = 0 → memWf s.mem = true → s.plainSec (128 * m.line + 32 * k) →
      (s.dirEnt m.home m.line).st = .i → diesOf (s.dirEnt m.home m.line).sharers = [] →
      Completes (.wrNc 0) s (fun t => t.coh = [] ∧ (t.dirEnt m.home m.line).st = .i ∧ t.busy m.home m.line = false ∧
        memGets t.mem (128 * m.line + 32 * k) 32 = ((lineBytes m.data).drop (32 * k)).take 32 ∧ SameMemBut s t (128 * m.line + 32 * k) 32))

/-- Snoops, grants, pushes and evictions at the hub's cache, and snoops of a graft site (R194, R202, Table 8.3): a snoop answers ACK or ACK_DATA with the dirty sectors and leaves the line in S or I, one of a site becomes a snoop of each half of the line for its chiplet, a grant fills it, a push into a line held in S is accepted, and a line leaves with EVICT_CLEAN from E and WR_BACK from M. -/
def Obligations.AgentsAnswerSnoopsAndTakeGrants : Prop :=
  ∀ (s : State) (m : CohMsg), s.isUp = true →
    (s.coh = [m] → m.dst = 0 → (s.line m.dst 8 m.line).st ≠ .i → (s.line m.dst 8 m.line).wb = 0 →
      (m.kind = .snpShared → Completes (.snpShared 0) s (fun t => (t.line m.dst 8 m.line).st = .s ∧ (t.line m.dst 8 m.line).dirty = 0 ∧
        t.coh = [{ kind := if (s.line m.dst 8 m.line).dirty = 0 then .ack else .ackData, src := m.dst, unit := 8, dst := m.src, home := m.home, line := m.line, mask := (s.line m.dst 8 m.line).dirty
                   data := mergeLine 0 (s.line m.dst 8 m.line).data (s.line m.dst 8 m.line).dirty, pois := (s.line m.dst 8 m.line).pois &&& (s.line m.dst 8 m.line).dirty, cmpt := m.cmpt, cls := m.cls }] ∧
        t = { s with coh := t.coh, sc := t.sc })) ∧
      (m.kind = .snpInv → Completes (.snpInv 0) s (fun t => (t.line m.dst 8 m.line).st = .i ∧
        t.coh = [{ kind := if (s.line m.dst 8 m.line).dirty = 0 then .ack else .ackData, src := m.dst, unit := 8, dst := m.src, home := m.home, line := m.line, mask := (s.line m.dst 8 m.line).dirty
                   data := mergeLine 0 (s.line m.dst 8 m.line).data (s.line m.dst 8 m.line).dirty, pois := (s.line m.dst 8 m.line).pois &&& (s.line m.dst 8 m.line).dirty, cmpt := m.cmpt, cls := m.cls }] ∧
        t = { s with coh := t.coh, sc := t.sc }))) ∧
    (∀ k : Nat, k < 4 → s.coh = [m] → m.dst = 29 + k → ∀ inv : Bool, m.kind = (if inv then .snpInv else .snpShared) →
      Completes (if inv then .snpInv 0 else .snpShared 0) s (fun t => (t.site k).snps = (s.site k).snps ++ [{ id := s.serial, msg := m, inv := inv }] ∧
        t = { s with coh := [], sites := t.sites, serial := s.serial + 2
                     out := s.out ++ [.gate k (if inv then 8 else 7) s.serial (leBytes 8 (128 * m.line)), .gate k (if inv then 8 else 7) (s.serial + 1) (leBytes 8 (128 * m.line + 64))] })) ∧
    (s.coh = [m] → m.dst = 0 → (s.line 0 8 m.line).st = .i → (s.line 0 8 m.line).dirty = 0 →
      (m.kind = .grantS → Completes (.grantS 0) s (fun t => (t.line 0 8 m.line).st = .s ∧ (t.line 0 8 m.line).valid = m.mask ∧ t.coh = [] ∧ t = { s with coh := [], sc := t.sc })) ∧
      (m.kind = .grantE → Completes (.grantE 0) s (fun t => (t.line 0 8 m.line).st = .e ∧ (t.line 0 8 m.line).valid = m.mask ∧ t.coh = [] ∧ t = { s with coh := [], sc := t.sc }))) ∧
    (s.coh = [m] → m.dst = 0 → (s.line 0 8 m.line).st = .s → m.kind = .pushLine → Completes (.push 0) s (fun t => (t.line 0 8 m.line).st = .e ∧ (t.line 0 8 m.line).data = m.data ∧
      t.coh = [{ kind := .pushAck, src := 0, unit := 8, dst := m.src, home := m.home, line := m.line, cmpt := m.cmpt, cls := m.cls }] ∧ t = { s with coh := t.coh, sc := t.sc })) ∧
    (∀ ln, (s.line 0 8 ln).marking = false → (s.line 0 8 ln).st ≠ .i →
      Completes (.lineEviction 8 ln) s (fun t => (t.line 0 8 ln).st = .i ∧ t = { s with coh := t.coh, sc := t.sc } ∧
        ((s.line 0 8 ln).st = .s → t.coh = s.coh) ∧
        ((s.line 0 8 ln).st = .e → t.coh = s.coh ++ [{ kind := .evictClean, src := 0, unit := 8, dst := s.homeDie (s.homeOf ln), home := s.homeOf ln, line := ln, cmpt := (s.line 0 8 ln).cmpt }]) ∧
        ((s.line 0 8 ln).st = .m → (s.line 0 8 ln).dirty ≠ 0 → (t.line 0 8 ln).wb = (s.line 0 8 ln).dirty ∧
          t.coh = s.coh ++ [{ kind := .wrBack, src := 0, unit := 8, dst := s.homeDie (s.homeOf ln), home := s.homeOf ln, line := ln, mask := (s.line 0 8 ln).dirty
                              data := (s.line 0 8 ln).data, pois := (s.line 0 8 ln).pois, cmpt := (s.line 0 8 ln).cmpt }])))

/-- Answers that end a transaction (Table 8.3, Table 8.4, R192, R195, R200): the last snoop answer of a recall frees the line, data returned reaching memory first; DIRTY_ACK and DIRTY_STALE settle the pending store's line; WB_ACK releases the buffer; PUSH_ACK makes the target owner and PUSH_DECLINE leaves the line idle; RECOVER_DONE takes the die off the home's list and RECOVER_ACK changes nothing. -/
def Obligations.AnswersEndTransactions : Prop :=
  ∀ (s : State) (m : CohMsg), s.isUp = true → s.coh = [m] →
    (m.toAgent = false → m.home ≤ 32 → m.src < 33 → (s.home m.home).hq = [] → (s.home m.home).recover = [] →
      (∀ r, (s.home m.home).txns = [(m.line, r)] → r.await = dieBit m.src → r.req = none →
        (m.kind = .ack → Completes (.ack 0) s (fun t => t.coh = [] ∧ (t.dirEnt m.home m.line).st = .i ∧ t.busy m.home m.line = false ∧ s.onlyHome t m.home)) ∧
        (∀ k, k < 4 → m.kind = .ackData → m.mask = BitVec.ofNat 4 (2 ^ k) → m.pois = 0 → memWf s.mem = true → s.plainSec (128 * m.line + 32 * k) →
          Completes (.ackData 0) s (fun t => t.coh = [] ∧ (t.dirEnt m.home m.line).st = .i ∧ t.busy m.home m.line = false ∧
            memGets t.mem (128 * m.line + 32 * k) 32 = ((lineBytes m.data).drop (32 * k)).take 32 ∧ SameMemBut s t (128 * m.line + 32 * k) 32))) ∧
      (∀ r, (s.home m.home).txns = [(m.line, r)] → r.pushing = true →
        (m.kind = .pushAck → Completes (.pushAck 0) s (fun t => t.coh = [] ∧ (t.dirEnt m.home m.line).st = .e ∧ (t.dirEnt m.home m.line).sharers = dieBit m.src ∧ t.busy m.home m.line = false ∧ s.onlyHome t m.home)) ∧
        (m.kind = .pushDecline → Completes (.pushDecline 0) s (fun t => t.coh = [] ∧ (t.dirEnt m.home m.line).st = .i ∧ t.busy m.home m.line = false ∧ s.onlyHome t m.home)))) ∧
    (m.toAgent = true → m.dst = 0 → m.unit = 8 → (s.line 0 8 m.line).marking = true →
      (m.kind = .dirtyAck → ((s.line 0 8 m.line).st = .e ∨ (s.line 0 8 m.line).st = .m) → Completes (.dirtyAck 0) s (fun t =>
        (t.line 0 8 m.line).st = .m ∧ (t.line 0 8 m.line).dirty = (s.line 0 8 m.line).dirty ||| m.mask ∧ (t.line 0 8 m.line).marking = false ∧ t = { s with coh := [], sc := t.sc })) ∧
      (m.kind = .dirtyStale → Completes (.dirtyStale 0) s (fun t => (t.line 0 8 m.line).st = .i ∧ t = { s with coh := [], sc := t.sc }))) ∧
    (m.toAgent = true → m.dst = 0 → m.kind = .wbAck → Completes (.wbAck 0) s (fun t => (t.line 0 m.unit m.line).wb = 0 ∧ (t.line 0 m.unit m.line).st = (s.line 0 m.unit m.line).st ∧ t = { s with coh := [], sc := t.sc })) ∧
    (m.toAgent = true → m.dst < 29 → m.kind = .ack → exec (.ack 0) s = .next (s.withCoh [])) ∧
    (m.kind = .recoverDone → m.home ≤ 32 → (s.home m.home).hq = [] → Completes (.recoverDone 0) s (fun t =>
      (t.home m.home).recover = (s.home m.home).recover.filter (· != m.src) ∧
      t.coh = [{ kind := .recoverAck, src := s.homeDie m.home, unit := 8, dst := m.src, home := m.home, line := m.line, toAgent := true }] ∧ s.onlyHome t m.home)) ∧
    (m.kind = .recoverAck → exec (.recoverAck 0) s = .next (s.withCoh []))

/-- Page commands of a compartment (R216, R217, Table 9.4): an accepted PAGE_IN takes its slot as moving and starts its read, its end makes the page resident and clean, PAGE_OUT blocks the page, its end frees the slot, PAGE_FAIL fails the record's accesses with PAGE_HOST_FAIL, and an invalid command ends with PAGE_CMD_INVALID. Fault limits and withdrawals (R218, R221, R222): a record pending for CMP_FAULT_LIMIT fails with FAULT_TIMEOUT and 0 means no limit; a withdrawal clears VALID, raises the generation by one and is answered by WITHDRAWN with segment and generation once it is quiet, and one that runs, or names no READY compartment, is ignored. -/
def Obligations.PageCommandsFaultLimitsAndWithdrawals : Prop :=
  (∀ (s : State) (fn slot sg page : Nat) (v : BitVec 64), s.isUp = true → s.bar0Free fn → 1 ≤ fn → s.cstate fn = .ready → (s.cmpt fn).pcmdsRunning < 4 →
    bits v 47 36 = slot → bits v 35 32 = sg → bits v 18 0 = page →
    (s.pageInvalid fn 1 sg page slot = false → s.pageDenied fn false = false →
      Completes (.pageIn fn v) s (fun t =>
        (t.cmpt fn).pcmds = (s.cmpt fn).pcmds ++ [{ op := 1, seg := sg, page := page, slot := slot }] ∧
        (t.cmpt fn).resmap.look slot 0 = resEntry false false true sg page ∧
        (s.pci.reads = [] → s.pci.dead = [] → t.pci.reads =
          [{ fn := fn, kind := 1, slot := slot, addr := (s.seg fn sg).iova + page * 0x20_0000, len := s.readSize, tag := s.pci.nextTag % 1024 }]) ∧
        t = { s with cmpts := t.cmpts, pci := t.pci, out := t.out })) ∧
    (s.pageInvalid fn 1 sg page slot = true → exec (.pageIn fn v) s = .next (s.pageEnd fn 0x2007)) ∧
    (s.pageInvalid fn 2 sg page slot = true → exec (.pageOut fn v) s = .next (s.pageEnd fn 0x2007)) ∧
    (s.pageInvalid fn 3 sg page slot = true → exec (.pageFail fn v) s = .next (s.pageEnd fn 0x2007)) ∧
    (s.pageInvalid fn 1 sg page slot = false → s.pageDenied fn false = true → exec (.pageIn fn v) s = .next (s.pageEnd fn 0x7002)) ∧
    (∀ k, s.pageInvalid fn 2 sg page slot = false → s.pageDenied fn true = false → (s.cmpt fn).slotHolding sg page = some k → s.slotClip fn k = false →
      Completes (.pageOut fn v) s (fun t => bit ((t.cmpt fn).resmap.look k 0) 61 = true ∧
        (t.cmpt fn).pcmds = (s.cmpt fn).pcmds ++ [{ op := 2, seg := sg, page := page, slot := k, force := bit v 59 }] ∧ t = { s with cmpts := t.cmpts })) ∧
    (∀ k, s.recordOf fn sg page = some k → s.pageInvalid fn 3 sg page slot = false →
      exec (.pageFail fn v) s = .next ((s.failRecord fn k 0x2005).pageEnd fn 0x2005)) ∧
    (∀ p, (s.cmpt fn).pcmds.find? (fun p => p.op == 1 && p.slot == slot) = some p → 0x20_0000 ≤ p.got → s.recordOf fn p.seg p.page = none →
      exec (.pageInDone fn slot) s = .next (State.pageEnd (s.withCmpt fn { s.cmpt fn with
        pcmds := (s.cmpt fn).pcmds.filter (fun x => !(x.op == 1 && x.slot == slot))
        resmap := (s.cmpt fn).resmap.put slot (resEntry true false false p.seg p.page) }) fn (if p.pois then 0x3001 else 0x0020))) ∧
    (∀ p r, (s.cmpt fn).pcmds.find? (fun p => p.op == 2 && p.slot == slot) = some p → (s.cmpt fn).plan = some r → s.slotBusy fn p.seg p.page (landingBase r + slot * 0x20_0000) = false →
      s.uncached (landingBase r + slot * 0x20_0000) 0x20_0000 → bit ((s.cmpt fn).resmap.look slot 0) 62 = false → p.force = false → p.withdraw = false →
      exec (.pageOutDone fn slot) s = .next (State.pageEnd (s.withCmpt fn { s.cmpt fn with
        pcmds := (s.cmpt fn).pcmds.filter (fun x => !(x.op == 2 && x.slot == slot))
        resmap := (s.cmpt fn).resmap.del slot }) fn 0x0021))) ∧
  (∀ (s : State) (fn sg : Nat), s.isUp = true → 1 ≤ fn → fn < 64 → sg < 16 →
    (∀ index age, (s.cmpt fn).faultLimit ≠ 0 → (s.cmpt fn).faultLimit.toNat ≤ age → (s.cmpt fn).frecs.has index = true →
      exec (.faultTimeout fn index age) s = .next ((s.failRecord fn index 0x2006).event fn 0x2006 index 0)) ∧
    (∀ index age, (s.cmpt fn).faultLimit = 0 ∨ age < (s.cmpt fn).faultLimit.toNat → exec (.faultTimeout fn index age) s = .next s) ∧
    (∀ (p : Port) (v : BitVec 64), p = .pf ∨ p = .mgmt → bits v 13 8 = fn → bits v 3 0 = sg → s.unmaps = [] → s.cstate fn = .ready → (s.cmpt fn).frecs = [] → (s.cmpt fn).pcmds = [] →
      (∀ l, l < 32 → (s.stack l).intake = []) → (s.seg fn sg).typ ≠ 3 →
      Completes (.hubUnmapReq p v) s (fun t => (t.seg fn sg).valid = false ∧ (t.seg fn sg).gen = ((s.seg fn sg).gen + 1) % 256 ∧
        t.unmaps = [{ cmpt := fn, seg := sg, old := s.seg fn sg, step := 5, byReg := true, toCmpt := true }] ∧
        (∀ k, k ≠ sg → t.seg fn k = s.seg fn k) ∧ t = { s with cmpts := t.cmpts, unmaps := t.unmaps })) ∧
    (∀ (p : Port) (v : BitVec 64), p = .pf ∨ p = .mgmt → bits v 13 8 = fn → (s.unmaps.any (·.byReg) = true ∨ s.cstate fn ≠ .ready) → exec (.hubUnmapReq p v) s = .next s) ∧
    (∀ (f : Nat) (v : BitVec 64), exec (.hubUnmapReq (.vf f) v) s = .next (s.portDenied (.vf f) 0x708000)) ∧
    (∀ u : Unmap, s.unmaps.find? (fun u => u.cmpt == fn && u.seg == sg) = some u → s.unmapQuiet fn sg = true → (s.cmpt fn).vitrine = false → u.toCmpt = true →
      exec (.withdrawn fn sg) s = .next ((State.event { s with unmaps := s.unmaps.filter (fun x => !(x.cmpt == fn && x.seg == sg)) } fn 0x0023 0
        (BitVec.ofNat 64 (sg + 256 * (s.seg fn sg).gen))).event 0 0x0023 fn (BitVec.ofNat 64 (sg + 256 * (s.seg fn sg).gen)))) ∧
    (s.unmapQuiet fn sg = false → exec (.withdrawn fn sg) s = .next s))

/-- What starts a fallow (R282, R283, R285, R292): CMP_FALLOW_REQ, the FALLOW operation, an FLR and a cleared VF Enable take a READY compartment to FALLOW with its cause, its work cancelled and memory as it was; any other state absorbs the trigger; a host write received before a reset takes effect first (R285). The steps of a fallow (R283, R284): drained, the caches give up the compartment's lines; clean, the wipe starts with its keys destroyed and both passes counted; done, its ranges hold zeros, the compartment is READY with one more fallow and FALLOW_DONE tells the PF the cause; a step out of turn changes nothing. A PF's FLR resets only the PF's rings and staging. -/
def Obligations.CompartmentsGoFallowAndReturn : Prop :=
  (∀ (s : State) (c : Nat), s.isUp = true → 1 ≤ c → c < 64 →
    (∀ cause, s.cstate c = .ready → (s.cmpt c).tdi = .unlocked →
      ((s.fallowStart c cause).cmpt c).state = .fallow ∧ ((s.fallowStart c cause).cmpt c).cause = cause ∧ ((s.fallowStart c cause).cmpt c).step = 2 ∧
      ((s.fallowStart c cause).cmpt c).pcmds = [] ∧ ((s.fallowStart c cause).cmpt c).frecs = [] ∧ ((s.fallowStart c cause).cmpt c).cq.held = [] ∧
      (∀ e ∈ (s.fallowStart c cause).pci.reads, e.fn ≠ c) ∧ (s.fallowStart c cause).mem = s.mem ∧ (s.fallowStart c cause).poison = s.poison ∧
      (∀ k, k ≠ c → (s.fallowStart c cause).cmpt k = s.cmpt k)) ∧
    (∀ cause, s.cstate c ≠ .ready → s.fallowStart c cause = s) ∧
    exec (.cmpFallowReq .pf (BitVec.ofNat 64 (2 ^ 63 + c))) s = .next (s.fallowStart c 2) ∧
    exec (.cmpFallowReq .mgmt (BitVec.ofNat 64 (2 ^ 63 + c))) s = .next (s.fallowStart c 2) ∧
    exec (.cmpFallowReq .pf (BitVec.ofNat 64 c)) s = .next s ∧
    (∀ (m : MgmtSession), s.auth.sessions.find? (fun x => x.id == m.id) = some m → m.clientBound = true →
      exec (.fallow m.id c) s = .next { s.fallowStart c 3 with out := (s.fallowStart c 3).out ++ [.frame m.id 0x0021 0 []] }) ∧
    ((∀ i ∈ s.pwr.waiting, isWriteOf c i = false) → exec (.flr c) s = .next (State.fallowStart (s.withCmpt c { s.cmpt c with msixEn := false, fmask := false, msix := [], pba := [] }) c 0)) ∧
    exec (.flr c) s = .next (State.fallowStart ((s.servePosted c).modCmpt c (fun m => { m with msixEn := false, fmask := false, msix := [], pba := [] })) c 0) ∧
    (s.pwr.waiting = [] → Completes .vfEnableClear s (fun t => t.pci.vfEnable = false ∧ (∀ k, 1 ≤ k → k < 64 → t.cstate k ≠ .ready) ∧ t.mem = s.mem ∧ t.poison = s.poison))) ∧
  (∀ (s : State) (c : Nat), s.isUp = true → 1 ≤ c → c < 64 →
    (s.cstate c = .fallow → (s.cmpt c).step = 2 → s.drained c = true →
      exec (.fallowDrained c) s = .next ((s.flushCmpt c).withCmpt c { (s.flushCmpt c).cmpt c with step := 3 })) ∧
    ((s.cmpt c).step ≠ 2 → exec (.fallowDrained c) s = .next s) ∧
    (s.cstate c = .fallow → (s.cmpt c).step = 3 → s.anyLine c = false → (s.cmpt c).role ≠ 1 →
      exec (.fallowCachesClean c) s = .next (s.withCmpt c { s.cmpt c with
        step := 4, wipeLeft := 2 * (((s.fallowRanges c).foldl (fun n r => n + r.2) 0 + 4095) / 4096), keys := [] })) ∧
    ((s.cmpt c).step ≠ 3 → exec (.fallowCachesClean c) s = .next s) ∧
    ((s.cmpt c).step ≠ 4 → exec (.fallowDone c) s = .next s) ∧
    (∀ r, s.cstate c = .fallow → (s.cmpt c).step = 4 → (s.cmpt c).plan = some r → r.ranks = [] → landingSlots r = 0 → (s.cmpt c).segs = [] → (s.cmpt c).active = false →
      (s.cmpt c).stopReq = false → s.deletedByEpoch c = false → (s.cmpt 0).eq.free = 0 →
      Completes (.fallowDone c) s (fun t => (t.cmpt c).state = .ready ∧ (t.cmpt c).step = 0 ∧ (t.cmpt c).fallows = satAdd (s.cmpt c).fallows 1 ∧
        (t.cmpt c).plan = some r ∧ (t.cmpt c).sq = [] ∧ (t.cmpt c).frecs = [] ∧ (t.cmpt c).wipeLeft = 0 ∧
        (∀ e ∈ t.dispCnt, e.1 / 8 ≠ c) ∧ (∀ l, l < 32 → ∀ w ∈ (t.stack l).wins, w.2.owner ≠ c) ∧
        (t.cmpt 0).eqLost = satAdd (s.cmpt 0).eqLost 1 ∧ t.mem = s.mem)) ∧
    Completes .pfFlr s (fun t => (t.cmpt 0).sq = [] ∧ (t.cmpt 0).cq = {} ∧ (t.cmpt 0).eq = {} ∧ (t.cmpt 0).win = [] ∧ t.bed.staged = [] ∧ t.upd.mbox = [] ∧
      (∀ e ∈ t.pci.reads, e.fn ≠ 0) ∧ (∀ k, k ≠ 0 → t.cmpt k = s.cmpt k) ∧ t.bed.plan = s.bed.plan ∧ t.bed.job = s.bed.job ∧
      t = { s with cmpts := t.cmpts, stk := t.stk, pci := t.pci, bed := t.bed, upd := t.upd }))

/-- Host requests to BAR2 (R294, R295, R297, Tables 13.3 and 14.6): an admitted PF read returns memory's bytes and an admitted PF write stores its bytes, with no other effect but their lines at the PCIe master's regulator; a request waits for the rebuild of a sector it meets (R179); what the window does not admit ends with Unsupported Request and is logged; a FALLOW compartment reads zero and drops writes; in deep rest a request waits and wakes the device. Device-issued host reads and link errors (R298 to R302, R359): a completed ring fetch holds its descriptor, a failed one disables the ring and posts its code, one of no read is logged as unexpected, a read is given up at the timeout value and not before, and a failed IDE check makes its stream Insecure and puts the TDIs bound to it fallow. -/
def Obligations.HostRequestsCompletionsAndLinkErrors : Prop :=
  (∀ (s : State) (off a late : Nat), s.isUp = true →
    (s.pwr.state = .active → s.bar2Open 0 false = true → bits (s.deadlines.look (s.winClass 0 off) {}).time 63 32 = 0 →
      (∀ n, 1 ≤ n → s.winAdmits 0 off false = true → s.pfPlace off n false = .phys a → s.vitrineHit a n = false → s.uncached a n → s.pois a n = false → s.readWaits [(a, n)] = false →
        exec (.hostMemRead 0 off n false late) s = .next { s.offer 0 2 (s.winClass 0 off) 0 false [(a, n)] with out := s.out ++ [.completion 0 true (memGets s.mem a n) false] }) ∧
      (∀ n, 1 ≤ n → s.winAdmits 0 off false = true → s.pfPlace off n false = .phys a → s.vitrineHit a n = false → s.readWaits [(a, n)] = true →
        exec (.hostMemRead 0 off n false late) s = .next { s with pci := { s.pci with held := s.pci.held ++ [.hostMemRead 0 off n false late] } }) ∧
      (∀ l : List Byte, l ≠ [] → s.winAdmits 0 off true = true → s.pfPlace off l.length true = .phys a → s.vitrineHit a l.length = false → s.uncached a l.length → s.poison = [] → memWf s.mem = true → s.readWaits [(a, l.length)] = false →
        (inStacks a = true → ∀ j, j < l.length → s.stripeOf (paLs (a + j)) (paOff (a + j)) = none) →
        Completes (.hostMemWrite 0 off l false false late) s (fun t => memGets t.mem a l.length = l ∧ SameMemBut s t a l.length ∧
          t = { s.offer 0 2 (s.winClass 0 off) 0 true [(a, l.length)] with mem := t.mem, poison := t.poison }))) ∧
    (∀ (fn n : Nat) (l : List Byte) (t : Bool), fn < 64 → s.pwr.state = .active → s.cstate fn ≠ .fallow →
      ((s.winAdmits fn off false = false ∨ s.bar2Open fn t = false) → exec (.hostMemRead fn off n t late) s = .next (s.hostRefuse fn false)) ∧
      ((s.winAdmits fn off true = false ∨ s.bar2Open fn t = false) → exec (.hostMemWrite fn off l false t late) s = .next (s.hostRefuse fn true))) ∧
    (∀ (fn n : Nat) (l : List Byte) (t : Bool), fn < 64 → s.pwr.state = .active → s.cstate fn = .fallow →
      exec (.hostMemRead fn off n t late) s = .next { s with out := s.out ++ [.completion fn true (List.replicate n 0) false] } ∧
      exec (.hostMemWrite fn off l false t late) s = .next s) ∧
    (∀ (fn n : Nat) (t : Bool), fn < 64 → s.pwr.state = .deepRest →
      exec (.hostMemRead fn off n t late) s = .next { s with pwr := { s.pwr with waiting := s.pwr.waiting ++ [.hostMemRead fn off n t late], state := .exiting } })) ∧
  (∀ (s : State), s.isUp = true →
    (∀ (r : HostRead) (data : List Byte), s.pci.reads = [r] → r.kind = 0 → r.fn < 64 → r.ring < 4 → data.length = r.len →
      exec (.hostCompletion r.fn r.tag 0 data false) s
        = .next (State.modRing { s with pci := { s.pci with reads := [] } } r.fn r.ring (fun x => { x with fetched := x.fetched.put (s.fetchIndex r) (BitVec.ofNat 1024 (ofLe data)) }))) ∧
    (∀ (r : HostRead) (status : Nat) (data : List Byte) (ep : Bool), s.hostReadOf r.fn r.tag = some r → status ≠ 0 →
      exec (.hostCompletion r.fn r.tag status data ep) s = .next (s.readFailed r 0x5201)) ∧
    (∀ (r : HostRead), r.kind = 0 → s.readFailed r 0x5201 = ((s.dropRead r).ringWrite r.fn r.ring true (setBit ((s.cmpt r.fn).ring r.ring).ctrl 8 false)).event r.fn 0x5201 0 (BitVec.ofNat 64 r.ring)) ∧
    (∀ (fn tag status : Nat) (data : List Byte) (ep : Bool), s.pci.reads = [] → tag ∉ s.pci.dead → fn < 64 →
      exec (.hostCompletion fn tag status data ep) s
        = .next { s.withCmpt fn { s.cmpt fn with aer := (s.cmpt fn).aer ++ [.unexpectedCompletion] } with out := s.out ++ [.error fn .unexpectedCompletion] }) ∧
    (∀ tag age, age < timeoutOf s.pci.toCode → exec (.completionTimeout tag age) s = .next s) ∧
    (∀ (r : HostRead) (age : Nat), timeoutOf s.pci.toCode ≤ age → s.pci.reads.find? (fun x => x.tag == r.tag) = some r →
      exec (.completionTimeout r.tag age) s = .next ((State.readFailed { s with pci := { s.pci with timeouts := satAdd s.pci.timeouts 1 } } r 0x5001).aerLog r.fn .completionTimeout)) ∧
    exec .surpriseDown s = .next { s.withCmpt 0 { s.cmpt 0 with aer := (s.cmpt 0).aer ++ [.surpriseDown] } with out := s.out ++ [.error 0 .surpriseDown] } ∧
    (∀ k, 1 ≤ k → k ≤ 16 → (∀ c ∈ s.cmpts, c.2.bound = false) →
      Completes (.ideCheckFailed k) s (fun t => t.streamSecure k = false ∧ (t.cmpt 0).aer = (s.cmpt 0).aer ++ [.ideCheckFailed] ∧
        t = { s with pci := t.pci, cmpts := t.cmpts, out := t.out })) ∧
    ((∀ c ∈ s.cmpts, c.2.bound = false) → Completes (.ideCheckFailed 0) s (fun t => t.pci.ideLink = false ∧ t.pci.ideSel = s.pci.ideSel)))

/-- Loading a bed plan (R268, R270, R274, R275, R276): GO starts the check of the staged image and a second load is refused with BUSY at step 1; a refused image changes nothing but the load registers; an accepted full plan puts every compartment fallow and takes force when all wipes have ended; an amendment waits for its compartments, is abandoned at its timeout, and takes force when every unit has answered. -/
def Obligations.BedPlansLoadAndTakeEffect : Prop :=
  ∀ (s : State), s.isUp = true →
    (∀ (p : Port) (v : BitVec 64), p = .pf ∨ p = .mgmt → v.getLsbD 63 = true → bits v 22 0 ≤ 4194304 → s.bed.job = none →
      exec (.bedLoadCmd p v) s = .next { s with bed := { s.bed with job := some { image := tabBytes (bits v 22 0) 0 s.bed.staged, persist := v.getLsbD 62 } } }) ∧
    (∀ (j : LoadJob) (v : BitVec 64), s.bed.job = some j → v.getLsbD 63 = true →
      exec (.bedLoadCmd .pf v) s = .next (State.event { s with bed := { s.bed with code := 0x600E, stepNo := 1, detail := BitVec.ofNat 64 (perr 1 0x600E 0xFFFF 0).detail } }
        0 0x600E 0 (BitVec.ofNat 64 (perr 1 0x600E 0xFFFF 0).detail))) ∧
    (∀ (m : MgmtSession) (persist : Bool) (image : List Byte), s.auth.sessions.find? (fun x => x.id == m.id) = some m → m.clientBound = true → s.bed.job = none →
      exec (.bedLoad m.id persist image) s = .next { s with bed := { s.bed with
        staged := (image.take 4194304).zipIdx.map (fun x => (x.2, x.1)), job := some { image := image, persist := persist, mgmt := true, session := m.id } } }) ∧
    (∀ (j : LoadJob) (e : PlanErr), s.bed.job = some j → j.stage = .checking → j.mgmt = false → s.planCheck j.image false j.persist = .error e →
      exec .bedCheckComplete s = .next (State.releaseHeld (State.event { s with bed := { s.bed with job := none, code := BitVec.ofNat 16 e.code, stepNo := e.step, detail := BitVec.ofNat 64 e.detail } }
        0 e.code 0 (BitVec.ofNat 64 e.detail)))) ∧
    (∀ (j : LoadJob) (p r : List PlanRec), s.bed.job = some j → j.stage = .checking → s.planCheck j.image false j.persist = .ok (p, r) →
      (imgKind j.image = 0 → Completes .bedCheckComplete s (fun t => t.bed.job = some { j with stage := .fallowing } ∧ t.bed.plan = s.bed.plan ∧ t.bed.code = 0 ∧
        ∀ c, 1 ≤ c → c < 64 → t.cstate c ≠ .ready)) ∧
      (imgKind j.image ≠ 0 → exec .bedCheckComplete s = .next { s with bed := { s.bed with code := 0, stepNo := 14, detail := 0
                                                                                           job := some { j with stage := .quiescing, affected := affectedOf r, deleted := deletedOf r } } })) ∧
    (∀ (j : LoadJob), s.bed.job = some j → j.stage = .fallowing → j.persist = false →
      ((∃ c ∈ s.cmpts, c.1 ≠ 0 ∧ c.2.state = .fallow) → exec .bedAccepted s = .next s) ∧
      ((∀ c ∈ s.cmpts, c.1 ≠ 0 → c.2.state ≠ .fallow) → exec .bedAccepted s = .next (((s.fullInForce j.image).event 0 0x0040 0 0).loadEnds j true) ∧
        (s.fullInForce j.image).bed.inForce = true ∧ (s.fullInForce j.image).bed.hash = imgHash j.image ∧ (s.fullInForce j.image).bed.plan = imageRecs j.image)) ∧
    (∀ (j : LoadJob), s.bed.job = some j → j.stage = .quiescing →
      (j.affected.all s.quiet = false → exec .epochQuiesce s = .next s) ∧
      (j.affected.all s.quiet = true → j.deleted = [] → s.changedSegs (imageRecs j.image) = [] →
        exec .epochQuiesce s = .next { s with bed := { s.bed with job := some { j with
          stage := .withdrawing, await := 0 :: ((List.range 29).drop 1).filter (fun d => invBit s.inv.active d && !invBit s.inv.fenced d) } } }) ∧
      (j.mgmt = false → exec .bedEpochTimeout s = .next (State.releaseHeld (State.event { s with bed := { s.bed with job := none, code := 0x6010, stepNo := 14, detail := 0 } } 0 0x6010 0 0)))) ∧
    (∀ (j : LoadJob) (d : Nat), s.bed.job = some j → j.stage = .withdrawing → d ∈ j.await → s.unmaps = [] → j.deleted = [] →
      Completes (.epoch d) s (fun t => t.bed.job = some { j with stage := .installing, await := j.await.filter (· != d) } ∧ t.bed.plan = s.bed.plan ∧
        ((d = 0 → ∀ c ∈ j.affected, (s.cmpt c).plan.isSome = true) → t.mem = s.mem))) ∧
    (∀ (j : LoadJob), s.bed.job = some j → j.stage = .installing → j.persist = false →
      (j.await ≠ [] → exec .epochDone s = .next s) ∧
      (j.await = [] → s.conf.held = [] → (∀ c, (s.cmpt c).heldWr = []) → Completes .epochDone s (fun t => t.bed.job = none ∧ t.bed.plan = amend s.bed.plan (imageRecs j.image) ∧ t.bed.epochs = s.bed.epochs + 1)))

/-- Storage descriptors and drive commands (R309, R311, R312, R313): a READ of at most 1 MiB in plain asks the drive for its blocks, a WRITE seals and sends its blocks, a FLUSH sends the flush and ends with its success, a failed command ends the descriptor with NVME_FAIL, and one past STO_CMD_TIMEOUT with DRIVE_TIMEOUT. -/
def Obligations.StorageDescriptorsUseTheDrive : Prop :=
  ∀ (s : State) (fn k index : Nat) (d : Desc), s.isUp = true → s.cstate fn = .ready → s.stoDesc fn k d.id = some d → s.stale fn d.xlats = false →
    (s.stoFind fn k (fun x => x.index == index && stOp x.bytes == 3) = some d → s.sto.cmds = [] →
      exec (.storageFlush fn k index) s = .next { s with
        out := s.out ++ [.drive (bits d.grant 61 60) 3 0 0 []]
        sto := { s.sto with
          cmds := [{ drive := bits d.grant 61 60, cmpt := fn, ring := k, index := d.id, op := 3, engine := s.engineFor fn k d.id }]
          queued := s.sto.queued.put (s.engineFor fn k d.id) (s.sto.queued.look (s.engineFor fn k d.id) 0) } }) ∧
    (s.stoFind fn k (fun x => x.index == index && stOp x.bytes == 1) = some d → d.prog = 0 → s.sto.cmds = [] → 1 ≤ stCount d.bytes → stCount d.bytes * stSeal d.bytes ≤ 0x10_0000 → 1 ≤ stSeal d.bytes → stPlain d.bytes = true →
      exec (.storageRead fn k index) s = .next { s with
        out := s.out ++ [.drive (bits d.grant 61 60) 1 (s.dataByte d (stBlk d.bytes) / (s.stoSpace d.grant).lba)
          (roundUp (s.dataByte d (stBlk d.bytes) % (s.stoSpace d.grant).lba + stCount d.bytes * stSeal d.bytes) (s.stoSpace d.grant).lba) []]
        sto := { s.sto with
          cmds := [{ drive := bits d.grant 61 60, cmpt := fn, ring := k, index := d.id, op := 1, lba := s.dataByte d (stBlk d.bytes) / (s.stoSpace d.grant).lba
                     blocks := 0, len := stCount d.bytes * stSeal d.bytes, tag := false, engine := s.engineFor fn k d.id }]
          queued := s.sto.queued.put (s.engineFor fn k d.id) (s.sto.queued.look (s.engineFor fn k d.id) 0 + stCount d.bytes * stSeal d.bytes) } }) ∧
    (s.stoFind fn k (fun x => x.index == index && stOp x.bytes == 2 && x.prog == 0) = some d → exec (.storageWrite fn k index) s = .next (s.storageWrite fn k d)) ∧
    (∀ (x : NvmeCmd), s.sto.cmds = [x] → x.back = false → x.cmpt = fn → x.ring = k → x.index = d.id → (s.drive x.drive).st = .ready →
      bits (s.deadlines.look (8 + dclass d.bytes) {}).time 63 32 = 0 →
      (∀ (late status : Nat) (data tags : List Byte), x.op ≠ 1 → status ≠ 0 →
        exec (.nvmeCompletion 0 status data tags late) s = .next (s.stoEnd fn k d.id 0x5304 (stoDetail (if x.op = 3 then 0 else stBlk d.bytes + x.blocks) status))) ∧
      (∀ (late : Nat) (data tags : List Byte), x.op = 3 →
        exec (.nvmeCompletion 0 0 data tags late) s = .next (State.stoEnd { s with sto := { s.sto with cmds := [], queued := s.sto.queued.put x.engine (s.sto.queued.look x.engine 0 - x.len) } } fn k d.id 0 0))) ∧
    (∀ (x : NvmeCmd) (n age : Nat), s.sto.cmds[n]? = some x → x.back = false → x.cmpt = fn → x.ring = k → x.index = d.id →
      (age < bits s.sto.cmdTimeout 31 0 → exec (.nvmeTimeout n age) s = .next s) ∧
      (bits s.sto.cmdTimeout 31 0 ≤ age →
        exec (.nvmeTimeout n age) s = .next (s.stoEnd fn k d.id 0x5305 (stoDetail (if x.op = 1 then stBlk d.bytes + d.prog else stBlk d.bytes + x.blocks) 0))))

/-- Drives at the root port (R303 to R306, R312): a good drive on an absent port becomes READY at no more than its port's width and the PF is told, another is left UNSUPPORTED; a removed drive is ABSENT and DRIVE_LOST posted; a bus-master request to staging is served and one elsewhere fences the drive and is counted; a namespace entry is stored, with VALID clear where it repeats a handle. -/
def Obligations.DrivesTrainServeAndFence : Prop :=
  ∀ (s : State) (d : Nat), s.isUp = true → d < 4 →
    (∀ rate width w, bifWidth s.sto.bifur d = some w → bit s.inv.units 3 = true → (s.drive d).st = .absent →
      (∀ ns, exec (.driveInsertion d rate width false ns) s
        = .next { s with sto := { s.sto with drives := s.sto.drives.put d { st := .unsupported, rate := min rate 6, width := min width w } } }) ∧
      (∀ x : NsInfo, exec (.driveInsertion d rate width true [x]) s
        = .next (State.event { s with sto := { s.sto with drives := s.sto.drives.put d { st := .ready, rate := min rate 6, width := min width w, ns := [(x.nsid, nsOf x)], busMaster := true } } } 0 0x0060 0 (BitVec.ofNat 64 d)))) ∧
    (bifWidth s.sto.bifur d = none → ∀ rate width good ns, exec (.driveInsertion d rate width good ns) s = .next s) ∧
    ((s.drive d).st ≠ .absent → s.cmpts = [] →
      exec (.driveRemoval d) s = .next (State.event { s with sto := { s.sto with drives := s.sto.drives.put d {} } } 0 0x0061 0 (BitVec.ofNat 64 d))) ∧
    ((s.drive d).st = .absent → exec (.driveRemoval d) s = .next s) ∧
    ((s.drive d).busMaster = true →
      (∀ addr len, addr + len ≤ 0x0200_0000 →
        exec (.driveDmaRequest d false addr [] len) s = .next { s with out := s.out ++ [.drive d 4 addr len ((List.range len).map (fun j => s.sto.staging.look (addr + j) 0))] }) ∧
      (∀ addr b, addr < 0x0200_0000 → ∀ n,
        Completes (.driveDmaRequest d true addr [b] n) s (fun t => t.sto.staging.look addr 0 = b ∧ (∀ k, k ≠ addr → t.sto.staging.look k 0 = s.sto.staging.look k 0) ∧
          t = { s with sto := t.sto })) ∧
      (∀ addr len, 0x0400_0000 ≤ addr → 1 ≤ len → s.cmpts = [] →
        Completes (.driveDmaRequest d false addr [] len) s (fun t => (t.drive d).st = .fenced ∧ (t.drive d).busMaster = false ∧
          t.sto.dmaDenied = satAdd s.sto.dmaDenied 1 ∧ t.auth.denied.look 7 0 = satAdd (s.auth.denied.look 7 0) 1 ∧ t.mem = s.mem))) ∧
    ((s.drive d).busMaster = false → ∀ w addr l n, exec (.driveDmaRequest d w addr l n) s = .next s) ∧
    (∀ (k : Nat) (v : BitVec 64), k < 64 →
      (s.sto.grants.any (fun e => e.1 != k && sameHandle e.2 (v &&& 0xFFFC0000FFFFFFFF#64)) = false →
        exec (.stoNsWrite .pf k v) s = .next { s with sto := { s.sto with grants := s.sto.grants.put k (v &&& 0xFFFC0000FFFFFFFF#64) } } ∧
        exec (.stoNsWrite .mgmt k v) s = .next { s with sto := { s.sto with grants := s.sto.grants.put k (v &&& 0xFFFC0000FFFFFFFF#64) } }) ∧
      (s.sto.grants.any (fun e => e.1 != k && sameHandle e.2 (v &&& 0xFFFC0000FFFFFFFF#64)) = true →
        exec (.stoNsWrite .pf k v) s = .next { s with sto := { s.sto with grants := s.sto.grants.put k (setBit (v &&& 0xFFFC0000FFFFFFFF#64) 63 false) } }))

/-- Packets at routers (R224, R225, R228, R229, R232): an arriving packet joins its channel and a corrected header is counted, a full channel or a link out of service holds it, one whose destination does not exist is dropped as a fault of its source and one with two bits changed as a fault of the router's die, no waiting packet goes before the one that an output grants, 64 cycles of waiting raise AGE to 31 at most, a delivered packet is checked and answered, and SWITCH installs a route set. Die-to-die links (R235, R236, R239, R250): a failed flit is counted and at the threshold quarantines the link, a window restarts the count, a link in reset trains, an end of training at full width brings it UP and at less than its least width fences it, a failed retrain is counted and the third without a working width fences the link, a retrain is taken from the PF and the management port on a link that carries traffic, and a quarantined link carries no flit. Regulators (R245, R247, R249, R250): one waiting transaction that may issue goes to its die's router with the next tag, one more outstanding and one less in a counted budget; a floor class within its floor and a deadline class may issue before the pool; with as many outstanding as the master may have nothing issues; a response ends one transaction; a window applies changed settings and replenishes every budget. -/
def Obligations.RoutersLinksAndRegulators : Prop :=
  (∀ (s : State) (d : Nat) (p : Packet), s.isUp = true → d ≤ 28 →
    (∀ n port, s.wires[n]? = some (d, port, p) → port ≠ localPort d → (s.wires.take n).any (fun x => x.1 == d && x.2.1 == port) = false →
      (s.carries d port = false → ∀ f, exec (.routerArrival n f) s = .next s) ∧
      (s.carries d port = true →
        (∀ f, f ≤ 1 → pkRouted p.header = true →
          (((s.router d).vcs.look (vcKey port (pkMClass p.header) (pkEsc p.header)) []).length < 8 →
            exec (.routerArrival n f) s = .next (State.withRouter { s with wires := s.wires.eraseIdx n, serial := s.serial + 1 } d { s.router d with
              links := (s.router d).links.put port { s.link d port with got := p.seq }
              hdrCe := if f = 1 then satAdd (s.router d).hdrCe 1 else (s.router d).hdrCe
              vcs := (s.router d).vcs.put (vcKey port (pkMClass p.header) (pkEsc p.header))
                ((s.router d).vcs.look (vcKey port (pkMClass p.header) (pkEsc p.header)) [] ++ [{ p with stamp := s.serial, wait := 0 }]) })) ∧
          (8 ≤ ((s.router d).vcs.look (vcKey port (pkMClass p.header) (pkEsc p.header)) []).length → exec (.routerArrival n f) s = .next s)) ∧
        (pkRouted p.header = false →
          exec (.routerArrival n 0) s = .next (((State.modLink { s with wires := s.wires.eraseIdx n, lost := s.lost ++ [p] } d port (fun k => { k with got := p.seq })).creditBack d port (pkVc p.header)).dieFault (pkSrc p.header))) ∧
        (∀ f, 2 ≤ f → exec (.routerArrival n f) s
          = .next (((((State.modLink { s with wires := s.wires.eraseIdx n } d port (fun k => { k with got := p.seq })).creditBack d port (pkVc p.header)).report 0x4015 0 d 0 0 0 0 0 0).dieFault d).fatal)))) ∧
    (∀ out, out ≤ linkCount d →
      (s.candidates d out = [] → exec (.outputArbitration d out) s = .next s) ∧
      (∀ key r, bestOf goesFirst (s.candidates d out) = some (key, r, p) →
        (∀ y ∈ s.candidates d out, goesFirst y (key, r, p) = false) ∧
        (out = localPort d → pkDst p.header = d → key / 10 ≠ localPort d →
          exec (.outputArbitration d out) s = .next { (s.withRouter d { s.router d with
            vcs := (s.router d).vcs.put key ((s.router d).vcs.look key []).tail
            rr := (s.router d).rr.put out (key / 10) }).creditBack d (key / 10) (key % 10) with
              wires := s.wires ++ [(d, out, { p with wait := 0 })] }) ∧
        (out ≠ localPort d → key / 10 ≠ localPort d → s.wantsOut d out p = some (pkEsc p.header) → ∀ n l, farEnd d out = some (n, l) →
          Completes (.outputArbitration d out) s (fun t => t.wires = s.wires ++ [(n, l, { p with wait := 0, seq := (s.link d out).sent + 1 })] ∧
            (t.router d).vcs = (s.router d).vcs.put key ((s.router d).vcs.look key []).tail ∧ (t.link d out).sent = (s.link d out).sent + 1 ∧
            (t.router d).credits.look (vcKey out 0 false + pkVc p.header) 0 = (s.router d).credits.look (vcKey out 0 false + pkVc p.header) 0 + 1 ∧
            t = { s with wires := t.wires, routers := t.routers })))) ∧
    (∀ v a b, (s.router d).vcs.look v [] = a ++ p :: b →
      Completes (.ageTick d v a.length) s (fun t =>
        (t.router d).vcs.look v [] = a ++ { p with header := pkSet p.header (min 31 (pkAge p.header + 1)) (pkEsc p.header), wait := 0 } :: b ∧
        (∀ w, w ≠ v → (t.router d).vcs.look w [] = (s.router d).vcs.look w []) ∧ t = { s with routers := t.routers })) ∧
    (∀ h a e, pkAge (pkSet h a e) = a % 32 ∧ pkDst (pkSet h a e) = pkDst h ∧ pkEsc (pkSet h a e) = e ∧ pkClass (pkSet h a e) = pkClass h) ∧
    (∀ a b bad, s.wires = a ++ (d, localPort d, p) :: b → a.any (fun x => x.1 == d && x.2.1 == localPort d) = false →
      ((sectorFates p bad).contains 2 = false → pkMClass p.header = 2 →
        exec (.packetDelivery d 0 bad) s = .next (State.txnEnd (State.withRouter { s with wires := a ++ b } d { s.router d with
          retries := (s.router d).retries.filter (fun x => x != 4096 * pkSrc p.header + pkTag p.header)
          inbox := (s.router d).inbox ++ [(p, (sectorFates p bad).map (fun x => x != 0))] }) d (pkDstPort p.header) (pkClass p.header) (pkPrio p.header))) ∧
      ((sectorFates p bad).contains 2 = false → pkMClass p.header = 0 →
        exec (.packetDelivery d 0 bad) s = .next (State.answerPacket (State.withRouter { s with wires := a ++ b } d { s.router d with
          retries := (s.router d).retries.filter (fun x => x != 4096 * pkSrc p.header + pkTag p.header)
          inbox := (s.router d).inbox ++ [(p, (sectorFates p bad).map (fun x => x != 0))] }) d p.header)) ∧
      ((sectorFates p bad).contains 2 = true → pkMClass p.header = 2 → pkOrd p.header = false →
        (s.router d).retries.contains (4096 * pkSrc p.header + pkTag p.header) = false →
        Completes (.packetDelivery d 0 bad) s (fun t => (t.router d).inbox = (s.router d).inbox ∧ t.wires = a ++ b ∧
          (t.router d).retries = (s.router d).retries ++ [4096 * pkSrc p.header + pkTag p.header]))) ∧
    (∀ n, (n = 0 ∨ s.detours.has n = true → exec (.switch d n) s = .next (s.withRouter d { s.router d with set := n })) ∧
      (n ≠ 0 → s.detours.has n = false → exec (.switch d n) s = .next s))) ∧
  (∀ (s : State) (d l : Nat), s.isUp = true → linkAt d l = true →
    (bits (s.router d).crcThresh 15 0 = 0 ∨ (s.link d l).crcWin + 1 < bits (s.router d).crcThresh 15 0 ∨ ((s.link d l).st ≠ .up ∧ (s.link d l).st ≠ .degraded) →
      exec (.flitCrcFail d l) s = .next (s.modLink d l (fun k => { k with crc := satAdd k.crc 1, crcWin := k.crcWin + 1 }))) ∧
    (1 ≤ bits (s.router d).crcThresh 15 0 → bits (s.router d).crcThresh 15 0 ≤ (s.link d l).crcWin + 1 → (s.link d l).st = .up ∨ (s.link d l).st = .degraded →
      exec (.flitCrcFail d l) s = .next ((s.modLink d l (fun k => { k with crc := satAdd k.crc 1, crcWin := k.crcWin + 1 })).quarantine d l)) ∧
    exec (.crcWindow d l) s = .next (s.modLink d l (fun k => { k with crcWin := 0 })) ∧
    ((s.link d l).st = .down → exec (.linkResetExit d l) s = .next (s.modLinks d l (fun k => { k with st := .training }))) ∧
    ((s.link d l).st = .up ∨ (s.link d l).st = .degraded → exec (.linkResetExit d l) s = .next (s.quarantine d l)) ∧
    ((s.link d l).st = .training → s.leastWidth d l ≤ s.fullWidth d l → ∀ r, 1 ≤ r → r ≤ s.rateCap →
      Completes (.linkTrainingEnd d l (s.fullWidth d l) (s.fullWidth d l) 0 r) s (fun t => (t.link d l).st = .up ∧ (t.link d l).width = s.fullWidth d l ∧ (t.link d l).rate = r ∧
        (t.link d l).offered = s.fullWidth d l ∧
        ((s.router d).set = 0 ∨ (s.router d).set ≠ s.setFor (linkElem d l) → t = { s with routers := t.routers }) ∧
        ((s.router d).set ≠ 0 → (s.router d).set = s.setFor (linkElem d l) → (t.outElems.filter (fun e => !sameElem e (linkElem d l))) = [] →
          t = { s with routers := t.routers, out := s.out ++ [.control 63 1 0] }))) ∧
    ((s.link d l).st = .training → (∀ n, neighbour d l = some n → n ≤ 28) → s.flt.routeFenced = [] → ∀ a r, a ≤ s.fullWidth d l → a < s.leastWidth d l → r ≤ s.rateCap →
      Completes (.linkTrainingEnd d l a a 0 r) s (fun t => (t.link d l).st = .fenced ∧ t.flt.routeFenced = [linkElem d l])) ∧
    ((s.link d l).st = .quarantined → ∀ a b r, a ≤ s.fullWidth d l → b ≤ s.fullWidth d l → r ≤ s.rateCap →
      (∀ n, neighbour d l = some n → if s.upstream d n = true then b < a else a < b) →
      ((s.link d l).retry < 2 →
        Completes (.linkTrainingEnd d l a b 0 r) s (fun t => (t.link d l).st = .quarantined ∧ (t.link d l).retry = (s.link d l).retry + 1 ∧ t = { s with routers := t.routers })) ∧
      (2 ≤ (s.link d l).retry → r = 0 → (∀ n, neighbour d l = some n → n ≤ 28) → s.flt.routeFenced = [] →
        Completes (.linkTrainingEnd d l a b 0 r) s (fun t => (t.link d l).st = .fenced ∧ t.flt.routeFenced = [linkElem d l]))) ∧
    (∀ a b lanes r, s.fullWidth d l < a ∨ s.fullWidth d l < b ∨ s.rateCap < r → exec (.linkTrainingEnd d l a b lanes r) s = .next s) ∧
    (∀ (q : Port) (v : BitVec 64), q = .pf ∨ q = .mgmt → v.getLsbD 0 = true →
      (((s.link d l).st = .up ∨ (s.link d l).st = .degraded) → exec (.mshLinkRetrain q d l v) s = .next (s.quarantine d l)) ∧
      ((s.link d l).st ≠ .up → (s.link d l).st ≠ .degraded → exec (.mshLinkRetrain q d l v) s = .next s)) ∧
    (∀ (f : Nat) (v : BitVec 64), exec (.mshLinkRetrain (.vf f) d l v) s = .next (s.portDenied (.vf f) (0x100118 + 64 * l))) ∧
    ((s.quarantine d l).link d l).st = .quarantined ∧ ((s.quarantine d l).link d l).retry = 0 ∧
    (∀ n k, farEnd d l = some (n, k) → (s.quarantine d l).wires.any (fun x => x.1 == n && x.2.1 == k) = false)) ∧
  (∀ (s : State) (d m : Nat), s.isUp = true → d ≤ 28 → m < 18 →
    (∀ cls (c : RegClass) (x : Txn) (rest : List Txn), (s.master d m).classes = [(cls, c)] → c.q = x :: rest →
      Master.mayIssue { s.master d m with urg := s.urgency d m } (realTime d m) c ≠ 0 → c.out < s.maxOt d m →
      exec (.regulatorIssue d m) s = .next (
        let up := realTime d m && decide (kindPrio (rcKind c.cls) < s.urgency d m) && decide ((s.master d m).urgOut < bits (s.master d m).cfg 63 52)
        State.inject { s with masters := s.masters.put (32 * d + m) { s.master d m with
          urg := s.urgency d m
          urgOut := if up then (s.master d m).urgOut + 1 else (s.master d m).urgOut
          tag := ((s.master d m).tag + 1) % 4096
          classes := [(cls, { c with q := rest, out := c.out + 1, budget := if rcBudget c.cls = 0 then c.budget else c.budget - 1 })] } } d
            (s.txnPacket d m cls (if up then s.urgency d m else kindPrio (rcKind c.cls)) (s.master d m).tag x))) ∧
    (∀ (y : Master) (rt : Bool) (c : RegClass) (x : Txn) (rest : List Txn), c.q = x :: rest → c.out < rcOt c.cls → 0 < c.budget → rcKind c.cls = 2 ∨ rcKind c.cls = 3 → y.mayIssue rt c = 2) ∧
    (∀ (y : Master) (rt : Bool) (c : RegClass), rcKind c.cls = 0 ∨ c.q = [] → y.mayIssue rt c = 0) ∧
    (s.maxOt d m ≤ (s.master d m).outAll → (s.master d m).urg = s.urgency d m → exec (.regulatorIssue d m) s = .next s) ∧
    (∀ port cls prio (c : RegClass), masterOf d port = [m] → (s.master d m).classes.look cls {} = c → 0 < c.out →
      ((s.txnEnd d port cls prio).master d m).classes.look cls {} = { c with out := c.out - 1 }) ∧
    (s.masters.has (32 * d + m) = true →
      Completes (.regulatorWindow d m) s (fun t => (∀ e ∈ (t.master d m).classes, e.2.newCls = none ∧ e.2.budget = rcBudget e.2.cls) ∧
        (t.master d m).classes.map (fun e => (e.1, e.2.cls, e.2.out)) = (s.master d m).classes.map (fun e => (e.1, e.2.newCls.getD e.2.cls, e.2.out)) ∧
        t = { s with masters := t.masters })) ∧
    (s.masters.has (32 * d + m) = false → exec (.regulatorWindow d m) s = .next s))

/-- Accession of a chiplet (R340, R341, R342, Table 16.2): with a chiplet present step 1 releases its reset and starts accession, each further step passes only in order and on what the plan admits, the last admits the site and tells the PF, a failed identity fences it with its reason, and 600 ms without step 6 fence it. Requests to a chiplet, the site reset and the site's windows (R3, R202, R349, R350, R352): a request joins an admitted site's queue, one to another site ends with GRAFT_FENCED, the answer completes it and the timeout ends it, a reset stops the gate and at its end clears it, a chiplet's snoop answers of both halves go to the home as one, and a window entry that names a vitrine is stored with VALID clear. -/
def Obligations.AccessionAndServiceOfGraftSites : Prop :=
  (∀ (s : State) (k : Nat) (i : ChipInfo), s.isUp = true → k < 4 → (s.site k).drain = false →
    ((s.site k).resetN = false → (s.site k).st ≠ .fenced → i.present = true →
      Completes (.accession k 1 i) s (fun t => (t.site k).st = .accession ∧ (t.site k).step = 1 ∧ (t.site k).resetN = true ∧ (t.site k).reason = 0 ∧ t = { s with sites := t.sites })) ∧
    ((s.site k).resetN = false → (s.site k).st ≠ .fenced → i.present = false →
      Completes (.accession k 1 i) s (fun t => (t.site k).st = .empty ∧ (t.site k).step = 0 ∧ t = { s with sites := t.sites })) ∧
    (∀ g, (s.site k).st = .accession → (s.site k).grec = some g →
      ((s.site k).step = 1 → exec (.accession k 2 i) s = .next (s.withSite k { s.site k with step := 2 })) ∧
      ((s.site k).step = 3 → i.vendor = g.vendor → i.product = g.product → g.revMin ≤ i.rev.toNat → i.rev.toNat ≤ g.revMax → i.power.toNat ≤ g.power →
        Completes (.accession k 4 i) s (fun t => (t.site k).step = 4 ∧ (t.site k).st = .accession ∧ t = { s with sites := t.sites })) ∧
      ((s.site k).step = 3 → i.vendor ≠ g.vendor → Completes (.accession k 4 i) s (fun t => (t.site k).st = .fenced ∧ (t.site k).reason = 0x03 ∧ (t.site k).accept = false ∧ (t.site k).resetN = false)) ∧
      ((s.site k).step = 4 → g.attest = false → exec (.accession k 5 i) s = .next (s.withSite k { s.site k with step := 5, meas := 0, certs := 0 })) ∧
      ((s.site k).step = 5 → Completes (.accession k 6 i) s (fun t => (t.site k).st = .admitted ∧ (t.site k).step = 6 ∧ (t.site k).accept = true ∧ bit t.inv.graft k = true ∧ t.mem = s.mem)) ∧
      (∀ n, n ≠ (s.site k).step + 1 → n ≠ 1 → exec (.accession k n i) s = .next s) ∧
      Completes (.accessionTimeout k) s (fun t => (t.site k).st = .fenced ∧ (t.site k).reason = 0x07)) ∧
    ((s.site k).st ≠ .accession → exec (.accessionTimeout k) s = .next s)) ∧
  (∀ (s : State) (k : Nat), s.isUp = true → k < 4 →
    (∀ w a n l h, bit s.inv.units 2 = true → (s.site k).st = .admitted → (s.site k).reqs.length < 512 →
      exec (.siteWindowRequest k w a n l h) s = .next { (State.withSite { s with serial := s.serial + 1 } k { s.site k with
        reqs := (s.site k).reqs ++ [{ id := s.serial, write := w, addr := a, data := l, size := n, host := h }] }) with out := s.out ++ [.gate k 4 s.serial l] }) ∧
    (∀ a n, bit s.inv.units 2 = false → exec (.siteWindowRequest k false a n [] false) s = .next { s with serial := s.serial + 1, out := s.out ++ [.gate k 2 0x1004 (List.replicate n 0)] }) ∧
    (∀ a n, (s.site k).st ≠ .admitted →
      exec (.siteWindowRequest k false a n [] true) s = .next { s with serial := s.serial + 1, out := s.out ++ [.completion 0 true (List.replicate n 0) true] }) ∧
    (∀ q, (s.site k).reqs = [q] →
      (∀ l, q.host = true → q.write = false → exec (.chipletAnswer k q.id l true) s
        = .next { s.withSite k { s.site k with reqs := [] } with out := s.out ++ [.completion 0 true (padTo q.size l) false] }) ∧
      (∀ n l b, n ≠ q.id → (s.site k).snps = [] → exec (.chipletAnswer k n l b) s = .next s) ∧
      (∀ age, age < (s.site k).timeout.toNat → exec (.graftTimeout k q.id age) s = .next s) ∧
      (∀ age, (s.site k).timeout.toNat ≤ age → q.host = true → q.write = false → exec (.graftTimeout k q.id age) s
        = .next { s.withSite k { s.site k with reqs := [] } with out := s.out ++ [.completion 0 true (List.replicate q.size 0) true] })) ∧
    (∀ q : SiteSnoop, (s.site k).reqs = [] → (s.site k).snps = [q] →
      (q.left = 1 → ∀ l, exec (.chipletAnswer k q.id l true) s = .next (State.snoopAnswer (s.withSite k { s.site k with snps := [] }) q.msg q.inv (q.dirty ||| 3) (mergeLine q.data (BitVec.ofNat 1024 (ofLe (padTo 64 l))) 3)) ∧
        exec (.chipletAnswer k q.id l false) s = .next (State.snoopAnswer (s.withSite k { s.site k with snps := [] }) q.msg q.inv q.dirty q.data)) ∧
      (q.left = 3 → ∀ l, exec (.chipletAnswer k q.id l false) s = .next (s.withSite k { s.site k with snps := [{ q with left := 2 }] }))) ∧
    (∀ v : BitVec 64, v.getLsbD 0 = true → Completes (.gftSiteReset .pf k v) s (fun t => (t.site k).st = .reset ∧ (t.site k).accept = false ∧ (t.site k).drain = true ∧
      bit t.inv.graft k = false ∧ bit t.inv.graft (4 + k) = false ∧ t.mem = s.mem)) ∧
    (∀ v : BitVec 64, v.getLsbD 0 = false → exec (.gftSiteReset .pf k v) s = .next s) ∧
    ((s.site k).drain = true → (s.site k).st = .reset → bit (s.site k).proto 2 = false → (s.site k).reqs = [] →
      Completes (.siteResetTimer k) s (fun t => (t.site k).drain = false ∧ (t.site k).step = 0 ∧ (t.site k).slots = [] ∧ (t.site k).proto = 0 ∧ (t.site k).id = 0 ∧ (t.site k).wins = (s.site k).wins ∧
        t = { s with sites := t.sites, masters := t.masters })) ∧
    ((s.site k).drain = false → exec (.siteResetTimer k) s = .next s) ∧
    (∀ (w : Nat) (v : BitVec 64), w < 16 →
      Completes (.gftWinWrite .pf k w false v) s (fun t => bit ((t.site k).wins.look w 0) 63 = (v.getLsbD 63 && !(s.cmpt (bits v 60 55)).vitrine) ∧
        bits ((t.site k).wins.look w 0) 127 64 = bits ((s.site k).wins.look w 0) 127 64 ∧ (∀ j, j ≠ w → (t.site k).wins.look j 0 = (s.site k).wins.look j 0) ∧ t = { s with sites := t.sites }) ∧
      Completes (.gftWinWrite .mgmt k w true v) s (fun t => bits ((t.site k).wins.look w 0) 95 64 = bits v 31 0 ∧
        bits ((t.site k).wins.look w 0) 63 0 = bits ((s.site k).wins.look w 0) 63 0 ∧ t = { s with sites := t.sites })))

/-- The gate of an admitted site (R339, R344, R345, R348, R351, R353): an offer within the class's budget opens slots and charges them, one of a class that the record does not allow opens none, an unused slot goes back, a packet without a slot and one on a tile link fence the site, a CXL.io request receives Unsupported Request, an unpermitted address is refused and counted, a missed sink limit, ten windows over POWER and more than 105 degrees fence it. -/
def Obligations.GatesGrantRefuseAndFence : Prop :=
  ∀ (s : State) (k : Nat) (g : GraftRec), s.isUp = true → k < 4 → (s.site k).st = .admitted → (s.site k).grec = some g →
    (∀ cls, 1 ≤ cls → cls < 8 → (s.site k).accept = true → (s.link 0 (hubLinkOf k)).st = .up ∨ (s.link 0 (hubLinkOf k)).st = .degraded → bit g.classes cls = true → (s.site k).throttled = false → 8 ≤ g.maxOt → (s.master 0 (4 + k)).outAll + 8 ≤ s.maxOt 0 (4 + k) →
      (s.master 0 (4 + k)).mayIssueN ((s.master 0 (4 + k)).classes.look cls {}) 0 8 = true →
      ∀ gap, Completes (.gateOffer k cls 3 gap) s (fun t => (t.site k).slots = (s.site k).slots ++ List.replicate 8 { cls := cls, wins := (s.site k).wins, conf := decide (0 < ((s.master 0 (4 + k)).classes.look cls {}).budget) } ∧
        ((t.master 0 (4 + k)).classes.look cls {}).out = ((s.master 0 (4 + k)).classes.look cls {}).out + 8 ∧ t.out = s.out ++ [.gate k 0 8 []] ∧
        t = { s with sites := t.sites, masters := t.masters, out := t.out })) ∧
    (∀ cls u gap, bit g.classes cls = false → Completes (.gateOffer k cls u gap) s (fun t => (t.master 0 (4 + k)).urg = u ∧ (t.site k).slots = (s.site k).slots ∧ t = { s with masters := t.masters })) ∧
    (∀ x, (s.site k).slots = [x] → Completes (.slotReturn k 0) s (fun t => (t.site k).slots = [] ∧
      ((t.master 0 (4 + k)).classes.look x.cls {}).out = ((s.master 0 (4 + k)).classes.look x.cls {}).out - 1 ∧ t = { s with sites := t.sites, masters := t.masters })) ∧
    (∀ (p : ChipPkt) late, p.op = .io → bit (s.site k).proto 1 = true → exec (.gatePacket k p late) s = .next (s.emit (.gate k 9 0 []))) ∧
    (∀ (p : ChipPkt) late, p.op ≠ .io → p.tile = true → exec (.gatePacket k p late) s = .next (s.fenceSite k 0x11)) ∧
    (∀ (p : ChipPkt) late, p.op ≠ .io → p.tile = false → (s.site k).slots = [] → exec (.gatePacket k p late) s = .next (s.fenceSite k 0x10)) ∧
    (∀ (p : ChipPkt) x late, p.tile = false → (s.site k).slots = [x] → x.cls = p.cls → x.wins = [] → p.op = .rdNc → bit (s.site k).proto 0 = true →
      Completes (.gatePacket k p late) s (fun t => (t.site k).denied = satAdd (s.site k).denied 1 ∧ (t.site k).slots = [] ∧ t.auth.denied.look 6 0 = satAdd (s.auth.denied.look 6 0) 1 ∧
        t.out = s.out ++ [.gateLine k 1 0x7001 (List.replicate 128 0) 0xF] ∧ t = { s with sites := t.sites, auth := t.auth, masters := t.masters, out := t.out })) ∧
    exec (.sinkLimitMiss k) s = .next (s.fenceSite k 0x12) ∧
    (∀ w, w ≤ g.power → exec (.graftPowerWindow k w) s = .next (s.withSite k { s.site k with power := w, overs := 0, throttled := false })) ∧
    (∀ w, g.power < w → (s.site k).overs < 9 → exec (.graftPowerWindow k w) s = .next (s.withSite k { s.site k with power := w, overs := (s.site k).overs + 1, throttled := true })) ∧
    (∀ w, g.power < w → 9 ≤ (s.site k).overs → Completes (.graftPowerWindow k w) s (fun t => (t.site k).st = .fenced ∧ (t.site k).reason = 0x14)) ∧
    (∀ c, c ≤ 105 → exec (.graftThermal k c) s = .next (s.withSite k { s.site k with temp := c })) ∧
    (∀ c, 105 < c → Completes (.graftThermal k c) s (fun t => (t.site k).st = .fenced ∧ (t.site k).reason = 0x15))

/-- Fabric ports (R314, R318, R319, R320, R337, Table 15.3): an enabled port trains with its flits numbered afresh, locked lanes lead to attestation and the device's evidence is sent, a verified neighbour within one version brings it UP with fresh keys and another is refused with its event, a lock timeout, a retry and FAB_PORT_RETRAIN train again, a lost link or a disable takes it out of UP, and every change of state floods a report. -/
def Obligations.FabricPortsTrainAttestAndDrop : Prop :=
  ∀ (s : State) (p : Nat), s.isUp = true → p < 28 →
    (s.portOn p = true → (s.fport p).st = .disabled → exec (.portEnable p) s = .next (s.train p)) ∧
    (s.portOn p = false → exec (.portEnable p) s = .next s) ∧
    (s.portOn p = false → (s.fport p).st = .training → exec (.portDisable p) s = .next (s.withPort p { s.fport p with st := .disabled, keyed := false }).flood) ∧
    (s.portOn p = true → exec (.portDisable p) s = .next s) ∧
    (∀ nbr np v rate, s.portOn p = true → (s.fport p).st = .training → rate = 1 ∨ rate = 2 →
      exec (.lanesLocked p rate nbr np v) s = .next (((s.withPort p { s.fport p with
        st := .attesting, rate := rate, nbr := nbr, nbrPort := BitVec.ofNat 8 np, version := BitVec.ofNat 16 (min v s.fab.version.toNat) }).flood).sendEvidence p)) ∧
    (s.portOn p = true → (s.fport p).st = .attesting →
      (∀ ok v, v + 1 < s.fab.version.toNat ∨ s.fab.version.toNat + 1 < v →
        exec (.attestResult p ok v) s = .next ((s.withPort p { s.fport p with st := .refused }).flood.event 0 0x5402 0 (BitVec.ofNat 64 p))) ∧
      (exec (.attestResult p false s.fab.version.toNat) s = .next ((s.withPort p { s.fport p with st := .refused }).flood.event 0 0x5403 0 (BitVec.ofNat 64 p))) ∧
      ((s.fport p).nbr ≠ s.fab.id → exec (.attestResult p true s.fab.version.toNat) s = .next (State.withPort { s with tick := s.tick + 1 } p { s.fport p with
        st := .up, keyed := true, keyDraw := s.tick, keyPhase := false, flits := 0, replays := 0, tagFails := 0, version := s.fab.version }).flood)) ∧
    (s.portOn p = true → (s.fport p).st = .training → exec (.trainingLockTimeout p) s = .next (s.train p)) ∧
    (s.portOn p = true → (s.fport p).st = .refused → exec (.refusedRetry p) s = .next (s.train p)) ∧
    (∀ (q : Port) (v : BitVec 64), q = .pf ∨ q = .mgmt → v.getLsbD 0 = true → s.portOn p = true → (s.fport p).st = .down → exec (.fabPortRetrain q p v) s = .next (s.train p)) ∧
    (∀ v : BitVec 64, (s.fport p).st = .disabled → exec (.fabPortRetrain .pf p v) s = .next s) ∧
    ((s.train p).fport p).st = .training ∧ ((s.train p).fport p).keyed = false ∧ ((s.train p).fport p).rate = 0 ∧ ((s.train p).fport p).nbr = 0 ∧
    ((s.train p).fport p).sendSeq = 0 ∧ ((s.train p).fport p).lastAcc = 0xFFFFFF#24 ∧ ((s.train p).fport p).retry = [] ∧ (s.train p).mem = s.mem ∧
    ((s.fport p).st ≠ .training → (s.train p).fab.mySeq = s.fab.mySeq + 1) ∧
    ((s.fport p).st = .up → Completes (.portLinkLoss p) s (fun t => (t.fport p).st = .down ∧ (t.fport p).keyed = false ∧ t.fab.mySeq = s.fab.mySeq + 1 ∧ t.mem = s.mem)) ∧
    ((s.fport p).st ≠ .up → exec (.portLinkLoss p) s = .next s)

/-- The link layer of an UP port (R316, R317, R324): a flit in sequence is accepted and acknowledged, one out of sequence is not, an undecodable one and one whose tag fails are counted and answered with NAK, acknowledged flits leave the retry buffer, a rollover takes fresh keys, and a waiting packet's bytes leave in numbered flits, encrypted and kept for retry, when the buffer has room for them. Discovery, routes and transit (R320 to R323): a newer report of another device is held and an old one is not, the timer floods the device's own report with the next sequence, an expired report is dropped, routes and domain values are recomputed, a transition ends, a packet for another device leaves by its route with one more hop or is dropped at 24, and a packet that waits in a transition may be dropped. -/
def Obligations.FabricLinksReportsAndRoutes : Prop :=
  (∀ (s : State) (p : Nat), s.isUp = true → p < 28 → (s.fport p).st = .up →
    (∀ t a n, exec (.linkFlit p (s.fport p).lastAcc false t a n) s
      = .next { s.withPort p { s.fport p with fecU := satAdd (s.fport p).fecU 1 } with out := s.out ++ [.linkCtl p 1 (s.fport p).lastAcc.toNat] }) ∧
    ((s.fport p).keyed = true → (s.fport p).tagFails < 7 → ∀ q a n, exec (.linkFlit p q true false a n) s
      = .next { s.withPort p { s.fport p with tagFails := (s.fport p).tagFails + 1, tagCt := satAdd (s.fport p).tagCt 1 } with out := s.out ++ [.linkCtl p 1 (s.fport p).lastAcc.toNat] }) ∧
    ((s.fport p).keyed = true → 7 ≤ (s.fport p).tagFails → ∀ q a n, Completes (.linkFlit p q true false a n) s (fun t => (t.fport p).st = .down)) ∧
    (∀ q a, q = (s.fport p).lastAcc + 1 → Completes (.linkFlit p q true true a false) s (fun t => (t.fport p).lastAcc = q ∧ (t.fport p).recv = (s.fport p).recv + 1 ∧
      (t.fport p).retry = keepAfter (s.fport p).retry a ∧ t.out = s.out ++ [.linkCtl p 0 q.toNat] ∧ t = { s with fab := { s.fab with ports := t.fab.ports }, out := t.out })) ∧
    (∀ q a, q ≠ (s.fport p).lastAcc + 1 → Completes (.linkFlit p q true true a false) s (fun t => (t.fport p).lastAcc = (s.fport p).lastAcc ∧ (t.fport p).recv = (s.fport p).recv ∧ t.out = s.out)) ∧
    (Completes (.linkKeyRollover p) s (fun t => (t.fport p).keyDraw = s.tick ∧ (t.fport p).keyPhase = !(s.fport p).keyPhase ∧ (t.fport p).flits = 0 ∧
      t = { s with fab := { s.fab with ports := t.fab.ports }, tick := s.tick + 1, out := t.out })) ∧
    exec (.tagWindow p) s = .next (s.withPort p { s.fport p with tagFails := 0 }) ∧
    (∀ (k : FabPkt), (s.fport p).egress = [k] → (s.fport p).keyed = true → (pktBytes k).length ≤ 1000 → (s.fport p).retry.length < 512 →
      let h := flitHeader (s.fport p).sendSeq (s.fport p).lastAcc 1 (s.fport p).keyPhase
      let x := Config.gcmSeal (BitVec.ofNat 256 (s.linkKey p).toNat) (leBytes 4 (bits (s.linkKey p) 287 256) ++ leBytes 8 (s.fport p).flits) (bvBytes h) (padTo 1000 (pktBytes k))
      exec (.fabricLinkSend p []) s = .next { s.withPort p { s.fport p with
        egress := [], bufs := (s.fport p).bufs - 1, sendSeq := (s.fport p).sendSeq + 1, flits := (s.fport p).flits + 1, sent := (s.fport p).sent + 1
        retry := (s.fport p).retry ++ [{ seq := (s.fport p).sendSeq, header := h, body := x.1, tag := x.2 }] } with out := s.out ++ [.flit p h x.1 x.2] }) ∧
    (∀ (k : FabPkt), (s.fport p).egress = [k] → 512 < (s.fport p).retry.length + (payloads (pktBytes k).length (pktBytes k)).length → exec (.fabricLinkSend p []) s = .next s)) ∧
  (∀ (s : State) (p : Nat), s.isUp = true → p < 28 → (s.fport p).st = .up → s.hasFabric = true →
    (∀ r : AdjReport, r.digest ≠ s.fabDigest → s.fab.reports = [] → Completes (.adj p r) s (fun t => t.fab.reports = [reportOf r] ∧ t.fab.transition = true ∧ t.fab.converged = false ∧
      t = { s with fab := { s.fab with reports := t.fab.reports, ignored := t.fab.ignored, transition := true, converged := false }, out := t.out })) ∧
    (∀ r : AdjReport, r.digest = s.fabDigest → exec (.adj p r) s = .next s) ∧
    (∀ r h, s.fab.reports.find? (fun x => x.id == (reportOf r).id && x.digest == (reportOf r).digest) = some h → seqBefore h.seq (reportOf r).seq = false → exec (.adj p r) s = .next s) ∧
    (Completes .adjFloodTimer s (fun t => t.fab.mySeq = s.fab.mySeq + 1 ∧ t.mem = s.mem ∧ t.fab.id = s.fab.id)) ∧
    (∀ id, (idsOf (s.fab.reports.filter (fun r => r.id != id || r.digest == s.fabDigest))).length ≤ 1024 →
      Completes (.adjReportExpiry id) s (fun t => t.fab.reports = s.fab.reports.filter (fun r => r.id != id || r.digest == s.fabDigest))) ∧
    exec .routeRecompute s = .next s.recompute.forwardAll ∧
    s.recompute.fab.floor = BitVec.ofNat 16 ((s.liveReports.map (fun r => r.version.toNat)).foldl min 65535) ∧
    exec .routeTransitionEnd s = .next { s with fab := { s.fab with transition := false, converged := true } } ∧
    (∀ k : FabPkt, k.dst ≠ s.fab.id → 23 ≤ k.hops → exec (.fabricTransit p k) s = .next { s with fab := { s.fab with drops := satAdd s.fab.drops 1 } }) ∧
    (∀ (k : FabPkt) q, k.dst ≠ s.fab.id → k.hops < 23 → pktEsc k = false → s.fab.adaptive = [(k.dst, [q])] → q < 28 →
      exec (.fabricTransit p k) s = .next (s.withPort q { s.fport q with egress := (s.fport q).egress ++ [{ k with hops := k.hops + 1, port := p }], bufs := (s.fport q).bufs + 1 })) ∧
    (∀ k : FabPkt, k.dst = s.fab.id → exec (.fabricTransit p k) s = .next s) ∧
    (∀ k, s.fab.transition = true → (s.fport p).egress = [k] →
      Completes (.transitWaitExpiry p 0) s (fun t => (t.fport p).egress = [] ∧ t.fab.drops = satAdd s.fab.drops 1 ∧ t = { s with fab := { s.fab with ports := t.fab.ports, drops := t.fab.drops } })) ∧
    (∀ n, s.fab.transition = false → exec (.transitWaitExpiry p n) s = .next s))

/-- Remote requests at their destination (R325 to R331, R333): a request in sequence is acknowledged and, passing the checks, GET and PUT reach memory, POST and BATCH are kept and performed in order, and a CONTRIB gathers; a refused one is answered with its code; one for another device or with a failed CRC changes nothing. -/
def Obligations.RemoteRequestsArePerformedInOrder : Prop :=
  ∀ (s : State) (p : Nat) (k : FabPkt), s.isUp = true →
    (∀ late, s.freshReq p 1 k → exec (.get p k late) s
      = .next ((((s.tookReq p k).measureReq p { k with port := p } late).remoteMem { k with port := p }).connFlush k.src.toNat)) ∧
    (∀ late, s.freshReq p 2 k → exec (.put p k late) s
      = .next ((((s.tookReq p k).measureReq p { k with port := p } late).remoteMem { k with port := p }).connFlush k.src.toNat)) ∧
    (s.freshReq p 3 k → exec (.remotePost p k) s = .next (((s.tookReq p k).keepReq { k with port := p }).connFlush k.src.toNat)) ∧
    (s.freshReq p 5 k → (s.tookReq p k).servesVersion 2 = true → exec (.batch p k) s = .next (((s.tookReq p k).keepReq { k with port := p }).connFlush k.src.toNat)) ∧
    (s.freshReq p 5 k → (s.tookReq p k).servesVersion 2 = false → exec (.batch p k) s = .next (((s.tookReq p k).reply (p + 1) { k with port := p } 0x5402 [] []).connFlush k.src.toNat)) ∧
    (∀ x, s.freshReq p 4 k → k.ext = [x] → ((s.tookReq p k).conn k.src.toNat).contribs = [] → k.len < bits x 127 96 →
      Completes (.contrib p k) s (fun t => t = ((s.tookReq p k).modConn k.src.toNat (fun c => { c with contribs := [(contribId x, [{ k with port := p }])] })).connFlush k.src.toNat)) ∧
    (s.hasFabric = true → s.portUp p = true → k.crcOk = true → k.dst = s.fab.id → s.fab.id ≠ 0xFFFF → bit k.flags 0 = false → k.dstInc ≠ 0 → k.dstInc ≠ s.fab.inc →
      (k.op = 3 → exec (.remotePost p k) s = .next (s.reply (p + 1) { k with port := p } 0x5002 [] [])) ∧
      (k.op = 1 → ∀ late, exec (.get p k late) s = .next (s.reply (p + 1) { k with port := p } 0x5002 [] []))) ∧
    (k.dst ≠ s.fab.id ∨ k.crcOk = false → ∀ late, exec (.get p k late) s = .next s ∧ exec (.put p k late) s = .next s ∧ exec (.remotePost p k) s = .next s ∧
      exec (.contrib p k) s = .next s ∧ exec (.batch p k) s = .next s)

/-- The transport at the source, and versions (R325, R329, R330, R333, R335): an acknowledgement marks its operations, a response gives the issuing command its status, an unacknowledged packet is sent again with its interval doubled up to 1 ms, an operation without a response ends with FABRIC_UNREACHABLE at the limit and not before, a rank's marks expire, and a lower version is flooded while the higher is still served. -/
def Obligations.OperationsAckRetryAndExpire : Prop :=
  ∀ (s : State) (peer : Nat), s.isUp = true → peer < 65536 →
    (∀ cum q, exec (.tack peer cum q) s = .next (s.modConn peer (fun c => { c with
      outstanding := c.outstanding.map (fun o => if seqBefore o.pkt.seq cum ∨ o.pkt.seq = q then { o with acked := true } else o) }))) ∧
    (∀ (o : OutOp) (k : FabPkt), (s.conn peer).outstanding = [o] → s.hasFabric = true → k.crcOk = true → k.dst = s.fab.id → k.src = BitVec.ofNat 16 peer → bit k.flags 0 = true → k.dstInc = s.fab.inc →
      (s.conn peer).theirInc = k.srcInc → o.pkt.seq = k.seq → o.pkt.op = k.op → k.op ≠ 1 →
      exec (.remoteResponse peer k) s = .next ((s.modConn peer (fun c => { c with outstanding := [] })).outcome o.issuer k.grant 0 false)) ∧
    (∀ (k : FabPkt), k.dst ≠ s.fab.id ∨ k.crcOk = false → exec (.remoteResponse peer k) s = .next s) ∧
    (∀ (o : OutOp) age, (s.conn peer).outstanding = [o] → o.acked = false →
      (age < o.interval → exec (.transportRetransmit peer o.pkt.seq age) s = .next s) ∧
      (o.interval ≤ age → Completes (.transportRetransmit peer o.pkt.seq age) s (fun t =>
        (t.conn peer).outstanding = [{ o with interval := min (2 * o.interval) 1000 }] ∧ t.fab.retrans = satAdd s.fab.retrans 1 ∧ t = { s with fab := { s.fab with conns := t.fab.conns, ports := t.fab.ports, retrans := t.fab.retrans } }))) ∧
    (∀ (o : OutOp) age, (s.conn peer).outstanding = [o] →
      (age < s.fab.limit.toNat → exec (.deliveryTimeout peer o.pkt.seq age) s = .next s) ∧
      (s.fab.limit.toNat ≤ age → exec (.deliveryTimeout peer o.pkt.seq age) s
        = .next ((s.modConn peer (fun c => { c with outstanding := [] })).outcome o.issuer 0x5002 0 false))) ∧
    (∀ rank, Completes (.remoteMarkExpiry peer rank) s (fun t => (∀ m ∈ (t.conn peer).marks, m.1 % 2 ^ 32 ≠ rank) ∧ (∀ m ∈ (s.conn peer).marks, m.1 % 2 ^ 32 ≠ rank → m ∈ (t.conn peer).marks) ∧
      t = { s with fab := { s.fab with conns := t.fab.conns } })) ∧
    (s.hasFabric = true → (∀ v, v.toNat < s.fab.version.toNat → Completes (.versionDowngrade v) s (fun t => t.fab.version = v ∧ t.fab.oldServe = some s.fab.version ∧ t.mem = s.mem)) ∧
      exec (.versionDowngrade s.fab.version) s = .next { s with fab := { s.fab with oldServe := none } } ∧
      (∀ v, s.fab.version.toNat < v.toNat → exec (.versionDowngrade v) s = .next s))

/-- The SPDM responder's negotiation and answers (R357, R358, Table 17.3): versions, capabilities and algorithms in their order, an answer or UnexpectedRequest before it and UnsupportedRequest for another suite; digests, slot 0's certificates, a signed challenge, signed measurement blocks, and the parts of a large message. SPDM sessions and IDE keys (R357, R359): a key exchange opens a session that FINISH makes live, at most eight on a transport; requests of a live session are answered, END_SESSION ends it, and one outside a session is answered SessionRequired; IDE_KM makes a stream Secure over the PF's DOE only. -/
def Obligations.SpdmSessionsNegotiateLiveAndEnd : Prop :=
  (∀ (s : State) (m : Bool), s.isUp = true →
    Completes (.getVersion m) s (fun t => t.conf.versioned = s.conf.versioned ||| trBit m ∧ t.conf.caps &&& trBit m = 0 ∧ t.conf.algs &&& trBit m = 0 ∧
      t.out = s.out ++ [.spdm m true [0x00, 0x13]] ∧ t = { s with conf := t.conf, out := t.out }) ∧
    (s.conf.versioned &&& trBit m = 0 → exec (.getCapabilities m) s = .next { s with out := s.out ++ [.spdm m false [0x04]] }) ∧
    (s.conf.versioned &&& trBit m ≠ 0 → Completes (.getCapabilities m) s (fun t => t.conf.caps = s.conf.caps ||| trBit m ∧ (∃ l, t.out = s.out ++ [.spdm m true l]) ∧
      t = { s with conf := t.conf, out := t.out, tick := s.tick + 1 })) ∧
    (∀ a : BitVec 32, s.conf.caps &&& trBit m ≠ 0 → a.toNat % 16 = 15 → Completes (.negotiateAlgorithms m a) s (fun t => t.conf.algs = s.conf.algs ||| trBit m ∧
      t.out = s.out ++ [.spdm m true [0x0F, 0, 0, 0]] ∧ t = { s with conf := t.conf, out := t.out })) ∧
    (∀ a : BitVec 32, s.conf.caps &&& trBit m ≠ 0 → a.toNat % 16 ≠ 15 → exec (.negotiateAlgorithms m a) s = .next { s with out := s.out ++ [.spdm m false [0x07]] }) ∧
    (s.conf.algs &&& trBit m = 0 → ∀ sl o n no i r, exec (.getDigests m) s = .next { s with out := s.out ++ [.spdm m false [0x04]] } ∧
      exec (.getCertificate m sl o n) s = .next { s with out := s.out ++ [.spdm m false [0x04]] } ∧ exec (.challenge m sl no) s = .next { s with out := s.out ++ [.spdm m false [0x04]] } ∧
      exec (.getMeasurements m i no) s = .next { s with out := s.out ++ [.spdm m false [0x04]] } ∧ exec (.keyExchange m r) s = .next { s with out := s.out ++ [.spdm m false [0x04]] }) ∧
    (s.conf.algs &&& trBit m ≠ 0 →
      exec (.getDigests m) s = .next (s.spdmOk m (bvBytes (Config.sha384 s.chain))) ∧
      (∀ o n, exec (.getCertificate m 0 o n) s = .next (s.spdmOk m ((s.chain.drop o).take n))) ∧
      (∀ no, exec (.challenge m 0 no) s = .next (s.spdmOk m (Config.sign s.alias (padTo 32 no ++ bvBytes (Config.sha384 s.chain))))) ∧
      (∀ sl o n no, sl ≠ 0 → exec (.getCertificate m sl o n) s = .next (s.spdmErr m 1) ∧ exec (.challenge m sl no) s = .next (s.spdmErr m 1)) ∧
      (∀ no, exec (.getMeasurements m 7 no) s = .next (s.spdmOk m (bvBytes (Config.sha384 (bvBytes s.bed.hash ++ bvBytes s.bed.seq ++ bvBytes s.bed.epochs)) ++
        Config.sign s.alias (padTo 32 no ++ bvBytes (Config.sha384 (bvBytes s.bed.hash ++ bvBytes s.bed.seq ++ bvBytes s.bed.epochs)))))) ∧
      (∀ no, exec (.getMeasurements m 0 no) s = .next (s.spdmErr m 1))) ∧
    (∀ l, exec (.chunkSend m false l) s = .next { s with conf := { s.conf with chunkIn := s.conf.chunkIn.put (b2n m) (s.conf.chunkIn.look (b2n m) [] ++ l) }, out := s.out ++ [.spdm m true []] } ∧
      exec (.chunkSend m true l) s = .next { s with conf := { s.conf with chunkIn := s.conf.chunkIn.put (b2n m) [] }, out := s.out ++ [.spdm m true []] }) ∧
    (∀ n, s.conf.chunkOut.look (b2n m) [] ≠ [] → exec (.chunkGet m n) s = .next { s with conf := { s.conf with chunkOut := s.conf.chunkOut.put (b2n m) ((s.conf.chunkOut.look (b2n m) []).drop n) }, out := s.out ++ [.spdm m true ((s.conf.chunkOut.look (b2n m) []).take n)] }) ∧
    (∀ n, s.conf.chunkOut.look (b2n m) [] = [] → exec (.chunkGet m n) s = .next { s with out := s.out ++ [.spdm m false [0x04]] })) ∧
  (∀ (s : State) (m : Bool), s.isUp = true →
    (∀ r, s.conf.algs &&& trBit m ≠ 0 → (s.conf.sessions.filter (fun x => x.mgmt == m)).length < 8 →
      Completes (.keyExchange m r) s (fun t => t.conf.sessions = s.conf.sessions ++ [{ id := s.conf.nextSession, mgmt := m }] ∧ t.conf.nextSession = s.conf.nextSession + 1 ∧
        t = { s with conf := t.conf, out := t.out, tick := s.tick + 1 })) ∧
    (∀ r, s.conf.algs &&& trBit m ≠ 0 → 8 ≤ (s.conf.sessions.filter (fun x => x.mgmt == m)).length → exec (.keyExchange m r) s = .next (s.spdmErr m 0x0A)) ∧
    (∀ x, s.conf.sessions = [x] → x.mgmt = m → x.live = false →
      exec (.finish m x.id true) s = .next (State.spdmOk { s with conf := { s.conf with sessions := [{ x with live := true }] } } m []) ∧
      exec (.finish m x.id false) s = .next (State.spdmErr { s with conf := { s.conf with sessions := [] } } m 0x06)) ∧
    (∀ (n : Nat) x, s.session n = some x →
      exec (.heartbeat n) s = .next (s.spdmOk x.mgmt []) ∧ exec (.keyUpdate n) s = .next (s.spdmOk x.mgmt []) ∧
      exec (.endSession n) s = .next (State.spdmOk { s with conf := { s.conf with sessions := s.conf.sessions.filter (fun y => y.id != n) } } x.mgmt []) ∧
      (x.mgmt = true → ∀ k, exec (.ideKm n k) s = .next (s.spdmErr true 1)) ∧
      (x.mgmt = false → ∀ k, 1 ≤ k → k ≤ 16 → Completes (.ideKm n k) s (fun t => t.streamSecure k = true ∧ t.pci.ideBy.look k 0 = n + 1 ∧ t = { s with pci := t.pci, conf := t.conf, out := t.out })) ∧
      (x.mgmt = false → Completes (.ideKm n 0) s (fun t => t.pci.ideLink = true ∧ t.pci.ideSel = s.pci.ideSel ∧ t = { s with pci := t.pci, conf := t.conf, out := t.out })) ∧
      (x.mgmt = false → ∀ k, 16 < k → exec (.ideKm n k) s = .next (s.spdmErr false 1))) ∧
    (∀ n : Nat, s.session n = none → ∀ k, exec (.heartbeat n) s = .next (s.spdmErr false 0x0B) ∧ exec (.keyUpdate n) s = .next (s.spdmErr false 0x0B) ∧
      exec (.endSession n) s = .next (s.spdmErr false 0x0B) ∧ exec (.ideKm n k) s = .next (s.spdmErr false 0x0B)))

/-- The key vault and the release quorum (R362, R363, R365, R366): a well-formed release loads its slot and tells both event rings, an erase empties it, a refused one changes no key; an approval is recorded for its party and completes the round at the quorum, a withdrawal removes it, and a fetch is answered only for the latest round and its recipient. -/
def Obligations.VaultAndQuorumKeepKeys : Prop :=
  ∀ (s : State) (n : Nat) (x : Session) (msg : List Byte), s.isUp = true → s.session n = some x →
    (s.keyCode x false msg = 0 → (s.cmpt (fieldAt msg 1 1)).vitrine = false → fieldAt msg 1 1 < 64 →
      Completes (.keyRelease n msg) s (fun t => (t.cmpt (fieldAt msg 1 1)).keys.look (fieldAt msg 2 1 % 8) {}
          = { loaded := true, key := BitVec.ofNat 256 (fieldAt msg 8 32), salt := BitVec.ofNat 32 (fieldAt msg 4 4), ctr := 0, relBy := 0 } ∧
        (∀ k, k ≠ fieldAt msg 2 1 % 8 → (t.cmpt (fieldAt msg 1 1)).keys.look k {} = (s.cmpt (fieldAt msg 1 1)).keys.look k {}) ∧
        t = { s with cmpts := t.cmpts, conf := t.conf, out := t.out })) ∧
    (s.keyCode x false msg ≠ 0 → exec (.keyRelease n msg) s = .next (s.vault x (s.keyCode x false msg) [])) ∧
    (s.keyCode x true msg = 0 → exec (.keyErase n msg) s = .next ((s.modCmpt (fieldAt msg 1 1) (fun c => { c with keys := c.keys.del (fieldAt msg 2 1 % 8) })).vault x 0 [])) ∧
    (s.keyCode x true msg ≠ 0 → exec (.keyErase n msg) s = .next (s.vault x (s.keyCode x true msg) [])) ∧
    (∀ e, keyMsgOk e msg = false → s.keyCode x e msg = 0x7003) ∧
    (s.approvalCode x false msg = 0 → polQuorum (s.policy.getD []) = 2 → s.conf.approvals = [] →
      Completes (.approve n msg) s (fun t => t.conf.approvals = [{ party := (s.approver x msg).getD 0, recipient := BitVec.ofNat 384 (fieldAt msg 104 48) }] ∧ t.conf.round = s.conf.round ∧
        t = { s with conf := t.conf, out := t.out })) ∧
    (s.approvalCode x false msg = 0 → polQuorum (s.policy.getD []) = 1 → s.conf.approvals = [] → polJoint (s.policy.getD []) < 64 →
      Completes (.approve n msg) s (fun t => t.conf.approvals = [] ∧ t.conf.round = s.conf.round + 1 ∧ t.conf.released = true ∧ t.conf.recipient = BitVec.ofNat 384 (fieldAt msg 104 48) ∧
        ((t.cmpt (polJoint (s.policy.getD []))).keys.look 7 {}).key = t.conf.relKey ∧ ((t.cmpt (polJoint (s.policy.getD []))).keys.look 7 {}).loaded = true)) ∧
    (s.approvalCode x false msg ≠ 0 → exec (.approve n msg) s = .next (s.vault x (s.approvalCode x false msg) [])) ∧
    (s.approvalCode x true msg = 0 → Completes (.approveWithdraw n msg) s (fun t => t.conf.approvals = s.conf.approvals.filter (fun a => a.party != (s.approver x msg).getD 0) ∧
      t = { s with conf := t.conf, out := t.out })) ∧
    (s.approvalCode x true msg ≠ 0 → exec (.approveWithdraw n msg) s = .next (s.vault x (s.approvalCode x true msg) [])) ∧
    (msg.length = 1224 → fieldAt msg 1 3 = 0 → s.conf.released = true → fieldAt msg 4 4 + 1 = s.conf.round.toNat → Config.sha384 (msg.drop 8) = s.conf.recipient →
      Completes (.releaseFetch n msg) s (fun t => (∃ k, t.conf.chunkOut.look (b2n x.mgmt) [] = [0, 0] ++ Config.wrap s.conf.recipient (bvBytes s.conf.relKey ++ bvBytes s.conf.relSalt ++ leBytes 4 (s.conf.round.toNat - 1) ++ k)) ∧
        t = { s with conf := t.conf, out := t.out, tick := s.tick + 1 })) ∧
    (msg.length = 1224 → fieldAt msg 1 3 = 0 → s.conf.released = false → exec (.releaseFetch n msg) s = .next (s.vault x 0x7006 []))

/-- The TDI of a vitrine (R360, R361, Table 17.5): every VF answers version and capabilities but a TDI in ERROR, LOCK binds a Secure stream and gives a nonce, START with that nonce runs it and with another does not, STOP takes it through a fallow, and a write to a locked register other than with T = 1 in RUN puts it into ERROR with its compartment fallow. -/
def Obligations.TdiLocksStartsAndStops : Prop :=
  ∀ (s : State) (n fn : Nat) (x : Session), s.isUp = true → s.session n = some x → 1 ≤ fn → fn < 64 →
    (¬(s.isTdi fn = true ∧ (s.cmpt fn).tdi = .error) → exec (.getTdispVersion n fn) s = .next (s.spdmOk false [1, 0x10])) ∧
    (s.isTdi fn = true → (s.cmpt fn).tdi = .error → exec (.getTdispVersion n fn) s = .next (s.spdmOk false [0]) ∧ exec (.getTdispCapabilities n fn) s = .next (s.spdmOk false [0])) ∧
    exec (.getTdispVersion n 0) s = .next (s.spdmOk false [0]) ∧
    (¬(s.isTdi fn = true ∧ (s.cmpt fn).tdi = .error) → Completes (.getTdispCapabilities n fn) s (fun t => (∃ l, t.conf.chunkOut.look 0 [] = 1 :: l) ∧ t = { s with conf := t.conf, out := t.out, tick := s.tick + 1 })) ∧
    (s.isTdi fn = false → exec (.startInterfaceRequest n fn 0) s = .next (s.spdmOk false [0]) ∧ exec (.stopInterfaceRequest n fn) s = .next (s.spdmOk false [0]) ∧
      ∀ k, exec (.lockInterfaceRequest n fn k) s = .next (s.spdmOk false [0])) ∧
    (s.isTdi fn = true →
      (∀ k, (s.cmpt fn).tdi = .unlocked → s.cstate fn = .ready → s.streamSecure k = true → (s.cmpt fn).active = true →
        Completes (.lockInterfaceRequest n fn k) s (fun t => (t.cmpt fn).tdi = .locked ∧ (t.cmpt fn).stream = k ∧ (t.cmpt fn).bound = true ∧
          t.conf.chunkOut.look 0 [] = 1 :: bvBytes (t.cmpt fn).nonce ∧ t.mem = s.mem ∧ t = { s with cmpts := t.cmpts, conf := t.conf, out := t.out, tick := s.tick + 1 })) ∧
      (∀ k, (s.cmpt fn).tdi ≠ .unlocked → exec (.lockInterfaceRequest n fn k) s = .next (s.spdmOk false [0])) ∧
      (∀ no, (s.cmpt fn).tdi = .locked → (s.cmpt fn).nonce = no → exec (.startInterfaceRequest n fn no) s = .next ((s.withCmpt fn { s.cmpt fn with tdi := .run }).spdmOk false [1])) ∧
      (∀ no, (s.cmpt fn).nonce ≠ no → exec (.startInterfaceRequest n fn no) s = .next (s.spdmOk false [0])) ∧
      ((s.cmpt fn).tdi = .unlocked → exec (.stopInterfaceRequest n fn) s = .next (s.spdmOk false [1])) ∧
      ((s.cmpt fn).tdi = .run → s.cstate fn = .ready → Completes (.stopInterfaceRequest n fn) s (fun t => (t.cmpt fn).state = .fallow ∧ (t.cmpt fn).stopReq = true ∧ (t.cmpt fn).tdi = .error ∧ t.mem = s.mem)) ∧
      ((s.cmpt fn).tdi = .error → s.cstate fn = .undef → exec (.stopInterfaceRequest n fn) s = .next ((s.withCmpt fn { s.cmpt fn with tdi := .unlocked, bound := false }).spdmOk false [1]))) ∧
    (∀ o v, lockedReg o = true → s.cstate fn = .ready → (s.cmpt fn).tdi = .run →
      Completes (.lockedRegisterWrite fn o v false) s (fun t => (t.cmpt fn).tdi = .error ∧ (t.cmpt fn).state = .fallow ∧ t.mem = s.mem)) ∧
    (∀ o v, lockedReg o = true → s.cstate fn = .ready → (s.cmpt fn).tdi = .unlocked → (s.cmpt fn).vitrine = false → (s.cmpt fn).heldWr = [] →
      exec (.lockedRegisterWrite fn o v false) s = .next (s.bar0Write fn o v))

/-- Management sessions and the owner (R371, R372, R374): a verified handshake under the owner's anchor opens a session with its BIND, at most four; a client's BIND binds it or ends it, an idle timeout ends it; an unclaimed device takes its claim once; OWNER_SET stores what it sets and answers DONE, a new anchor ending every session. -/
def Obligations.ManagementSessionsAndOwner : Prop :=
  ∀ (s : State), s.isUp = true →
    (∀ root, s.auth.anchor = some root → s.auth.sessions.length < 4 →
      exec (.tlsHandshake true root) s = .next { s with
        auth := { s.auth with sessions := s.auth.sessions ++ [{ id := s.auth.nextSession }], nextSession := s.auth.nextSession + 1 }
        out := s.out ++ [.frame s.auth.nextSession 1 0 (Config.sign s.alias (leBytes 8 s.auth.nextSession))] }) ∧
    (∀ root, s.auth.anchor ≠ some root ∨ 4 ≤ s.auth.sessions.length → exec (.tlsHandshake true root) s = .next s) ∧
    (∀ root, exec (.tlsHandshake false root) s = .next s) ∧
    (∀ m, s.auth.sessions = [m] →
      exec (.bind m.id true) s = .next { s with auth := { s.auth with sessions := [{ m with clientBound := true }] }, out := s.out ++ [.frame m.id 1 0 []] } ∧
      exec (.bind m.id false) s = .next { s with auth := { s.auth with sessions := [] } } ∧
      exec (.sessionIdleTimeout m.id) s = .next { s with auth := { s.auth with sessions := [] } } ∧
      (m.clientBound = false → ∀ a, exec (.ownerSetAnchor m.id a) s = .next { s with auth := { s.auth with sessions := [] } }) ∧
      (m.clientBound = true →
        (∀ a, exec (.ownerSetAnchor m.id a) s = .next { s with auth := { s.auth with anchor := some a, sessions := [] }, out := s.out ++ [.frame m.id 0x70 0 []] }) ∧
        (∀ k l, k < 4 → l.length = 1984 → exec (.ownerSetOperatorKey m.id k l) s = .next { s with
          auth := { s.auth with opKeys := s.auth.opKeys.put k (if allZero l then none else some l) }, out := s.out ++ [.frame m.id 0x70 0 []] }) ∧
        (∀ v, v < 2 → exec (.ownerSetUpdateLock m.id v) s = .next { s with auth := { s.auth with updLock := v == 1 }, out := s.out ++ [.frame m.id 0x70 0 []] }) ∧
        (∀ v, v < 2 → exec (.ownerSetEh1608Path m.id v) s = .next { s with auth := { s.auth with eh1608 := v == 1 }, out := s.out ++ [.frame m.id 0x70 0 []] }) ∧
        (∀ d o v, mayWrite .mgmt d o = true → exec (.regWrite m.id d o v) s = .next { s.regStore .mgmt d o v with out := (s.regStore .mgmt d o v).out ++ [.frame m.id 0x0011 0 []] }) ∧
        (∀ d o v, mayWrite .mgmt d o = false → exec (.regWrite m.id d o v) s
          = .next { s with auth := { s.auth with denied := s.auth.denied.put 2 (satAdd (s.auth.denied.look 2 0) 1) }, out := s.out ++ [.frame m.id 0x0011 0x7001 []] }) ∧
        (∀ d o n, 1 ≤ n → n ≤ 512 → (∀ k, k < n → pfOnly d (o + 8 * k) = false) → Completes (.regRead m.id d o n) s (fun t => (∃ l, t.out = s.out ++ [.frame m.id 0x0010 0 l] ∧ l.length = 8 * n) ∧ t = { s with out := t.out, tick := t.tick, stk := t.stk } ∧
          ((∀ e ∈ s.stk, e.2.mig = none) → t.stk = s.stk))))) ∧
    (∀ v : BitVec 64, v.getLsbD 0 = true → s.auth.anchor = none → exec (.ownerClaim .pf v) s = .next { s with auth := { s.auth with anchor := some s.auth.claim } }) ∧
    (∀ (v : BitVec 64) a, v.getLsbD 0 = true → s.auth.anchor = some a → exec (.ownerClaim .pf v) s = .next (s.event 0 0x700C 0 0)) ∧
    (∀ v : BitVec 64, v.getLsbD 0 = false → exec (.ownerClaim .pf v) s = .next s) ∧
    (∀ v : BitVec 64, exec (.ownerClaim .mgmt v) s = .next (s.portDenied .mgmt 0xF0_0270))

/-- Life cycle and debug access (R375 to R382, R384): a request the port may not make is refused by port authority, another codeword with LC_STATE, one without supply with its code, an accepted one begins step 2; each step leads to the next and the last records done and reads the codeword in force anew; a challenge draws a nonce unless its SCOPE has a reserved bit, its expiry clears it, a grant without one is refused and consumes it, and an open grant opens SCOPE when all fallows have ended. The steps of a life-cycle transition (R378): each LC_STEP_DONE takes the transition from its step to the next, one fuse copy at a time at step 6, and without a transition nothing changes. -/
def Obligations.LifeCycleTransitionsAndDebugAccess : Prop :=
  (∀ (s : State), s.isUp = true → s.auth.eraseIntent = false →
    (∀ n v b, s.lcState = 2 → exec (.lcRequest .pf n v b) s = .next { s.portDenied .pf 0xF0_0008 with auth := { (s.portDenied .pf 0xF0_0008).auth with lcCode := 0x7001 } }) ∧
    (∀ n b, s.lcState = 0 → exec (.lcRequest .jtag n (lcCode 2) b) s = .next { s with auth := { s.auth with lcCode := 0x7007, jtagStatus := 0x7007 }, out := s.out ++ [.jtag 0x7007 []] }) ∧
    (∀ n, s.lcState = 0 → exec (.lcRequest .jtag n (lcCode 1) false) s = .next { s with auth := { s.auth with lcCode := 0x7009, jtagStatus := 0x7009 }, out := s.out ++ [.jtag 0x7009 []] }) ∧
    (∀ n, s.lcState = 0 → s.upd.phase = .idle → exec (.lcRequest .jtag n (lcCode 1) true) s = .next { s with
      auth := { s.auth with lcCode := 0, jtagStatus := 0, lcStep := 2, lcTarget := 0, lcAtBoot := false }, out := s.out ++ [.jtag 0 []], pci := { s.pci with up := false, retry := true } }) ∧
    (∀ n, exec (.debugNonceExpiry) s = .next { s with auth := { s.auth with dbgNonce := none } } ∧ ∀ m, s.auth.sessions = [m] → m.clientBound = true →
      (∀ c, bits c 7 3 ≠ 0 → exec (.debugChallenge m.id c) s = .next { s with out := s.out ++ [.frame m.id 0x60 0x1001 []] }) ∧
      (∀ c, bits c 7 3 = 0 → Completes (.debugChallenge m.id c) s (fun t => (∃ k, t.auth.dbgNonce = some (k, c) ∧ t.auth.dbgRec = s.challengeRecord k c ∧ t.out = s.out ++ [.frame m.id 0x60 0 (s.challengeRecord k c)]) ∧
        t = { s with auth := t.auth, out := t.out, tick := s.tick + 1 })) ∧
      (s.auth.dbgNonce = none → exec (.debugGrant m.id n) s = .next { s with out := s.out ++ [.frame m.id 0x61 0x700B []] }) ∧
      (∀ k c, s.auth.dbgNonce = some (k, c) →
        ¬(n.take s.auth.dbgRec.length = s.auth.dbgRec ∧ Config.verify Config.debugAuthority s.auth.dbgRec (n.drop s.auth.dbgRec.length) = true) →
        exec (.debugGrant m.id n) s = .next { s with auth := { s.auth with dbgNonce := none }, out := s.out ++ [.frame m.id 0x61 0x700B []] })) ∧
    (s.auth.dbgPend = true → s.anyActive = false → (∀ c ∈ s.cmpts, c.1 ≠ 0 → c.2.state ≠ .fallow) →
      exec .debugGranted s = .next (State.event { s with auth := { s.auth with dbgPend := false, dbgOn := true, dbgScope := s.auth.dbgAsk } } 0 0x00A1 0 (BitVec.ofNat 64 s.auth.dbgAsk.toNat))) ∧
    (s.auth.dbgPend = false → exec .debugGranted s = .next s) ∧
    (s.lcState ≠ 2 ∨ s.auth.eh1608 = false → exec .eh1608Unlock s = .next { s with auth := { s.auth with jtagStatus := 0x7007 }, out := s.out ++ [.jtag 0x7007 []] }) ∧
    (s.lcState = 2 → s.auth.eh1608 = true → Completes .eh1608Unlock s (fun t => t.auth.eraseIntent = true ∧ t.auth.dbgPend = true ∧ (∀ c, 1 ≤ c → c < 64 → t.cstate c ≠ .ready) ∧ t.mem = s.mem)) ∧
    (∀ l, exec (.jtagInstruction .idcode l) s = .next { s with auth := { s.auth with jtagStatus := 0 }, out := s.out ++ [.jtag 0 (bvBytes s.idcode)] }) ∧
    (∀ l, s.lcState = 2 → s.auth.dbgOn = false → exec (.jtagInstruction .scan l) s = .next { s with auth := { s.auth with jtagStatus := 0x700A }, out := s.out ++ [.jtag 0x700A (l.map (fun _ => 0))] })) ∧
  (∀ (s : State), s.isOn = true →
    (s.auth.lcStep = 0 → exec .lcStepDone s = .next s) ∧
    (s.auth.lcStep = 2 → exec .lcStepDone s = .next { s with auth := { s.auth with lcStep := 3 } }) ∧
    (s.auth.lcStep = 3 → exec .lcStepDone s = .next { s with auth := { s.auth with lcStep := 4, journal := setBit s.auth.journal (2 * s.auth.lcTarget) true } }) ∧
    (s.auth.lcStep = 4 → Completes .lcStepDone s (fun t => t.auth.lcStep = 5 ∧ t.mem = [] ∧ t.cmpts = [] ∧ t.auth.sessions = [] ∧ t.auth.journal = s.auth.journal ∧ t.auth.lcCopies = s.auth.lcCopies ∧
      t.flt.boots = s.flt.boots ∧ t.pending = s.pending)) ∧
    (s.auth.lcStep = 5 → Completes .lcStepDone s (fun t => t.auth.lcStep = 6 ∧ (bit s.auth.journal 3 = true → bit s.auth.journal 5 = false → t.auth.anchor = none ∧ t.bed.seq = 0 ∧ t.bed.flashPlan = none) ∧
      (bit s.auth.journal 3 = false → t.auth.anchor = s.auth.anchor ∧ t.bed = s.bed))) ∧
    (∀ a b c, s.auth.lcStep = 6 → s.auth.lcCopies = [a, b, c] → a ||| lcCode (s.auth.lcTarget + 1) ≠ a →
      exec .lcStepDone s = .next { s with auth := { s.auth with lcCopies := [a ||| lcCode (s.auth.lcTarget + 1), b, c] } }) ∧
    (∀ w, w = lcCode (s.auth.lcTarget + 1) → s.auth.lcStep = 6 → s.auth.lcCopies = [w, w, w] → exec .lcStepDone s = .next { s with auth := { s.auth with lcStep := 7 } }) ∧
    (s.auth.lcStep = 7 → Completes .lcStepDone s (fun t => t.auth.lcStep = 0 ∧ bit t.auth.journal (2 * s.auth.lcTarget + 1) = (bit s.auth.journal (2 * s.auth.lcTarget + 1) || decide (s.auth.lcTarget < 4)) ∧ t.lcWord = s.lcVote ∧ t.mem = s.mem)))

/-- Staged slots discarded (R391): an accepted life-cycle transition, an accepted debug grant and an EH1608 erase each leave the slot that was STAGING or STAGED empty, with no bundle byte kept and the active slot as it was. -/
def Obligations.TransitionsGrantsAndErasesDiscardStagedSlots : Prop :=
  ∀ (s : State), s.isUp = true → (s.upd.phase = .staging ∨ s.upd.phase = .staged) →
    (∀ n v, s.lcCheck .jtag v true = 0 → Completes (.lcRequest .jtag n v true) s (fun t => t.auth.lcStep = 2 ∧
      t.upd.phase = .idle ∧ t.upd.slots.look s.spare {} = {} ∧ t.upd.got = [] ∧ t.upd.active = s.upd.active ∧ t.upd.slots.look s.upd.active {} = s.upd.slots.look s.upd.active {})) ∧
    (∀ m, s.auth.sessions = [m] → m.clientBound = true →
      (∀ v, s.lcCheck .mgmt v true = 0 → Completes (.lcRequest .mgmt m.id v true) s (fun t => t.auth.lcStep = 2 ∧
        t.upd.phase = .idle ∧ t.upd.slots.look s.spare {} = {} ∧ t.upd.got = [] ∧ t.upd.active = s.upd.active ∧ t.upd.slots.look s.upd.active {} = s.upd.slots.look s.upd.active {})) ∧
      (∀ k c g, s.auth.dbgNonce = some (k, c) → g.take s.auth.dbgRec.length = s.auth.dbgRec →
        Config.verify Config.debugAuthority s.auth.dbgRec (g.drop s.auth.dbgRec.length) = true →
        Completes (.debugGrant m.id g) s (fun t => t.auth.dbgPend = true ∧
          t.upd.phase = .idle ∧ t.upd.slots.look s.spare {} = {} ∧ t.upd.got = [] ∧ t.upd.active = s.upd.active ∧ t.upd.slots.look s.upd.active {} = s.upd.slots.look s.upd.active {}))) ∧
    (s.lcState = 2 → s.auth.eh1608 = true → Completes .eh1608Unlock s (fun t => t.auth.eraseIntent = true ∧
      t.upd.phase = .idle ∧ t.upd.slots.look s.spare {} = {} ∧ t.upd.got = [] ∧ t.upd.active = s.upd.active ∧ t.upd.slots.look s.upd.active {} = s.upd.slots.look s.upd.active {}))

/-- Caches flushed, snoop limits and dead agents (Tables 8.8 and 8.9, R198, R206): a flush is open to the PF and management, ignored while a vitrine is active, and empties the cache of its line; a missed snoop limit is a fault of the tile, a fence of the site, or outside the promise; the reclaim of a dead die empties its caches and takes it out of every directory entry. -/
def Obligations.CachesFlushAndDeadAgentsLeave : Prop :=
  ∀ (s : State), s.isUp = true →
    (∀ (p : Port) (d : Nat) (v : BitVec 64), p ≠ .pf → p ≠ .mgmt →
      exec (.tilRlcFlush p d v) s = .next (s.portDenied p 0x600020) ∧ exec (.hubScFlush p v) s = .next (s.portDenied p 0x600008)) ∧
    (∀ (p : Port) (d : Nat) (v : BitVec 64), p = .pf ∨ p = .mgmt → v.getLsbD 0 = false ∨ s.anyActive = true →
      exec (.tilRlcFlush p d v) s = .next s ∧ exec (.hubScFlush p v) s = .next s) ∧
    (∀ (p : Port) (d ln : Nat) (v : BitVec 64) (e : CacheLine), p = .pf ∨ p = .mgmt → v.getLsbD 0 = true → s.anyActive = false → isTileDie d = true →
      s.coh = [] → (s.cache d 8).lines = [(ln, e)] → e.st ≠ .i → e.wb = 0 →
      Completes (.tilRlcFlush p d v) s (fun t => (t.cache d 8).lines = [])) ∧
    (∀ (p : Port) (ln : Nat) (v : BitVec 64) (e : CacheLine), p = .pf ∨ p = .mgmt → v.getLsbD 0 = true → s.anyActive = false →
      s.coh = [] → (s.cache 0 8).lines = [(ln, e)] → e.st ≠ .i → e.wb = 0 →
      Completes (.hubScFlush p v) s (fun t => (t.cache 0 8).lines = [])) ∧
    (∀ d, isTileDie d = true → exec (.snoopLimitMiss d) s = .next (s.tileFault d 4 [])) ∧
    (∀ k, k < 4 → exec (.snoopLimitMiss (29 + k)) s = .next (s.fenceSite k 0x13)) ∧
    exec (.snoopLimitMiss 0) s = .next s.fatal ∧
    bit s.fatal.flt.replace 6 = true ∧
    (∀ d, 33 ≤ d → exec (.snoopLimitMiss d) s = .next s ∧ exec (.agentDeath d) s = .next s) ∧
    exec (.agentDeath 0) s = .next s ∧
    (∀ d, 1 ≤ d → d ≤ 32 → s.coh = [] → (∀ h, (s.home h).hq = [] ∧ (s.home h).txns = []) →
      Completes (.agentDeath d) s (fun t => (∀ u, u ≤ 8 → (t.cache d u).lines = []) ∧
        (∀ h ln, h ≤ 32 → (s.dirEnt h ln).st ≠ .i → bit (t.dirEnt h ln).sharers d = false)))

/-- Queue level (R175): a stack's broadcast is min(7, floor(8 q / 2,560)) of the entries q occupied in all its queues; the register shows it, every regulator holds it for that stack, and nothing else changes. -/
def Obligations.QueueLevelIsEightTimesOccupancyOver2560 : Prop :=
  ∀ (s : State) (d l q : Nat), s.isUp = true → isTileDie d = true → s.lsOf d = some l →
    q = ((s.tile d).mem.pcs.map (fun c => c.2.rq.length + c.2.wq.length)).sum →
    Completes (.queueLevelBroadcast d) s (fun t =>
      (t.tile d).mem = { (s.tile d).mem with qlevel := BitVec.ofNat 64 (min 7 (8 * q / 2560)) } ∧
      (∀ e ∈ t.masters, e.2.levels.look l 0 = min 7 (8 * q / 2560)) ∧ (∀ k, k ≠ l → ∀ i, ((t.masters.look i {}).levels.look k 0) = ((s.masters.look i {}).levels.look k 0)) ∧
      (∀ e, e ≠ d → t.tile e = s.tile e) ∧ (t.tile d).cores = (s.tile d).cores ∧ t = { s with tiles := t.tiles, masters := t.masters })

/-- Staging (Table 19.4, R389 to R391): BEGIN that no condition refuses starts staging with the inactive slot erased, a refused one changes only the code and answers UPDATE_REFUSED with its reason; DATA is taken without a gap and checked, a failure ends staging with its code; END makes the slot STAGED; ACTIVATE starts the swap; ABORT empties a staged slot; STATUS answers; and the mailbox is ignored outside recovery. -/
def Obligations.StagingChecksAndHoldsBundles : Prop :=
  ∀ (s : State) (m : MgmtSession), s.isUp = true → s.auth.sessions = [m] → m.clientBound = true →
    (∀ n x, s.updReason false x = 0 →
      exec (.updBegin m.id n x) s = .next { s with
        upd := { s.upd with phase := .staging, got := [], total := n, code := 0, slots := s.upd.slots.put s.spare {} }, out := s.out ++ [.frame m.id 0x40 0 []] }) ∧
    (∀ n x, s.updReason false x ≠ 0 →
      exec (.updBegin m.id n x) s = .next { s with upd := { s.upd with code := 0x8001 }, out := s.out ++ [.frame m.id 0x40 0x8001 (leBytes 2 (s.updReason false x))] }) ∧
    (∀ x, s.updReason true x ≠ 0 →
      exec (.activate m.id x) s = .next { s with upd := { s.upd with code := 0x8001 }, out := s.out ++ [.frame m.id 0x40 0x8001 (leBytes 2 (s.updReason true x))] }) ∧
    (∀ x, s.updReason true x = 0 →
      exec (.activate m.id x) s = .next { s with upd := { s.upd with phase := .swapping, code := 0 }, out := s.out ++ [.frame m.id 0x40 0 []] }) ∧
    (s.auth.updLock = true → ∀ a x, s.updReason a x = 1) ∧
    (s.auth.updLock = false → s.anyActive = false → ∀ a, s.updReason a false = 3) ∧
    (s.upd.phase = .staging →
      (∀ l, l.length ≤ 1048576 → s.partCode (s.upd.got ++ l) = 0 →
        exec (.updData m.id s.upd.got.length l) s = .next { s with upd := { s.upd with got := s.upd.got ++ l, code := 0 }, out := s.out ++ [.frame m.id 0x40 0 []] }) ∧
      (∀ l, l.length ≤ 1048576 → s.partCode (s.upd.got ++ l) ≠ 0 →
        exec (.updData m.id s.upd.got.length l) s = .next { s with
          upd := { s.upd with phase := .idle, got := [], total := 0, slots := s.upd.slots.put s.spare {}, code := s.partCode (s.upd.got ++ l) }
          out := s.out ++ [.frame m.id 0x40 (s.partCode (s.upd.got ++ l)) []] }) ∧
      (∀ o l, o ≠ s.upd.got.length →
        exec (.updData m.id o l) s = .next { s with
          upd := { s.upd with phase := .idle, got := [], total := 0, slots := s.upd.slots.put s.spare {}, code := 0x8002 }, out := s.out ++ [.frame m.id 0x40 0x8002 []] }) ∧
      (s.upd.got.length ≠ s.upd.total →
        exec (.updEnd m.id) s = .next { s with
          upd := { s.upd with phase := .idle, got := [], total := 0, slots := s.upd.slots.put s.spare {}, code := 0x8002 }, out := s.out ++ [.frame m.id 0x40 0x8002 []] }) ∧
      (s.upd.got.length = s.upd.total → s.bunCode s.upd.got ≠ 0 →
        exec (.updEnd m.id) s = .next { s with
          upd := { s.upd with phase := .idle, got := [], total := 0, slots := s.upd.slots.put s.spare {}, code := s.bunCode s.upd.got }
          out := s.out ++ [.frame m.id 0x40 (s.bunCode s.upd.got) []] }) ∧
      (s.upd.got.length = s.upd.total → s.bunCode s.upd.got = 0 →
        Completes (.updEnd m.id) s (fun t => t.upd.phase = .staged ∧ (t.upd.slots.look s.spare {}).st = .staged ∧ (t.upd.slots.look s.spare {}).sec = bunSec s.upd.got ∧
          (t.upd.slots.look s.spare {}).image = s.upd.got ∧ t.upd.active = s.upd.active ∧ t.out = s.out ++ [.frame m.id 0x40 0 []] ∧ t = { s with upd := t.upd, out := t.out }))) ∧
    (s.upd.phase = .staged →
      exec (.abort m.id) s = .next { s with
        upd := { s.upd with phase := .idle, got := [], total := 0, slots := s.upd.slots.put s.spare {}, code := 0 }, out := s.out ++ [.frame m.id 0x40 0 []] }) ∧
    exec (.status m.id) s = .next { s with out := s.out ++ [.frame m.id 0x40 0 (bvBytes s.updStatus ++ bvBytes (s.updSlotReg 0) ++ bvBytes (s.updSlotReg 1))] } ∧
    (∀ v, exec (.updMboxCmd .pf v) s = .next s) ∧
    (∀ (p : Port) v, p ≠ .pf → exec (.updMboxCmd p v) s = .next (s.portDenied p 0x0010_0200))

/-- Activation, trial and fallback (R393, R395, R396): a staged slot that fails the ROM's checks is FAILED with the code, one that passes becomes the active slot on trial and every session ends; HEALTH_OK is set in a trial; CONFIRM before it is refused with reason 8, with it the slot is CONFIRMED, the other EMPTY and the counter raised; window, health check, ABORT and a reset fall back to the other slot, mark the trial slot FAILED and never change the counter. -/
def Obligations.TrialsAreConfirmedOrFallBack : Prop :=
  ∀ (s : State), s.isUp = true → s.conf.held = [] → (∀ c, (s.cmpt c).heldWr = []) →
    (s.upd.phase ≠ .swapping → exec .standbyBootDone s = .next s) ∧
    (s.upd.phase = .swapping → s.standbyCode ≠ 0 →
      exec .standbyBootDone s = .next { s with upd := { s.upd with
        phase := .idle, code := s.standbyCode, slots := s.upd.slots.put s.spare { s.stagedSlot with st := .failed } } }) ∧
    (s.upd.phase = .swapping → s.standbyCode = 0 →
      Completes .standbyBootDone s (fun t => t.upd.phase = .trial ∧ t.upd.active = s.spare ∧ t.upd.health = false ∧ t.upd.left = bits s.upd.confirmWin 11 0 ∧
        (t.upd.slots.look s.spare {}).st = .trial ∧ t.upd.rollback = s.upd.rollback ∧ t.auth.sessions = [] ∧ t.conf.sessions = [] ∧ t.fab.version = s.stagedSlot.fab ∧ t.mem = s.mem)) ∧
    (s.upd.phase = .trial → exec .healthOk s = .next { s with upd := { s.upd with health := true } }) ∧
    (s.upd.phase ≠ .trial → exec .healthOk s = .next s ∧ exec .healthCheckFail s = .next s ∧ exec .confirmWindowExpiry s = .next s) ∧
    (s.upd.phase = .trial → ∀ c, c = Instr.healthCheckFail ∨ c = Instr.confirmWindowExpiry →
      Completes c s (fun t => t.upd.phase = .idle ∧ t.upd.active = s.spare ∧ t.upd.health = false ∧ (t.upd.slots.look s.upd.active {}).st = .failed ∧
        t.upd.slots.look s.spare {} = s.upd.slots.look s.spare {} ∧ t.upd.rollback = s.upd.rollback ∧ t.auth.sessions = [] ∧ t.conf.sessions = [] ∧ t.mem = s.mem)) ∧
    (∀ m, s.auth.sessions = [m] → m.clientBound = true →
      (s.upd.phase ≠ .trial ∨ s.upd.health = false →
        exec (.confirm m.id) s = .next { s with upd := { s.upd with code := 0x8001 }, out := s.out ++ [.frame m.id 0x40 0x8001 [8, 0]] }) ∧
      (s.upd.phase = .trial → s.upd.health = true →
        Completes (.confirm m.id) s (fun t => t.upd.phase = .idle ∧ t.upd.active = s.upd.active ∧ (t.upd.slots.look s.upd.active {}).st = .confirmed ∧
          t.upd.slots.look s.spare {} = {} ∧ t.upd.rollback = max s.upd.rollback (s.upd.slots.look s.upd.active {}).sec ∧ t.mem = s.mem)) ∧
      (s.upd.phase = .trial →
        Completes (.abort m.id) s (fun t => t.upd.phase = .idle ∧ t.upd.active = s.spare ∧ (t.upd.slots.look s.upd.active {}).st = .failed ∧ t.upd.rollback = s.upd.rollback ∧
          t.auth.sessions = [] ∧ t.mem = s.mem))) ∧
    ((s.upd.slots.look s.upd.active {}).st = .trial → s.pwr.perstN = true → ∀ a b,
      Completes (.perstN a b) s (fun t => t.upd.active = s.spare ∧ (t.upd.slots.look s.upd.active {}).st = .failed ∧ t.upd.rollback = s.upd.rollback))

/-- Faults of cores, tiles and Curators (R404, R405, R411, R413): the first error of a unit stops and replays its core, a second one within 24 hours is a tile fault with reason 1; a faulty reserve tile is fenced; the standby takes over from a failed Curator and every session ends, an activation keeps its slot staged and a trial falls back, and with no standby the fault is outside the promise; CUR_REPLACE_CLEAR clears just the named bits whose cause no longer holds. -/
def Obligations.FaultsOfCoresTilesAndCurators : Prop :=
  ∀ (s : State), s.isUp = true →
    (∀ d i u x, isTileDie d = false ∨ 8 ≤ i ∨ 7 ≤ u ∨ invBit s.inv.active d = false ∨ invBit s.inv.fenced d = true → exec (.coreError d i u x) s = .next s) ∧
    (∀ d i u, isTileDie d = true → i < 8 → u < 7 → invBit s.inv.active d = true → invBit s.inv.fenced d = false → s.cmpts = [] →
      Completes (.coreError d i u false) s (fun t => t.inv = s.inv ∧ t.stk = (State.zeroRange (State.zeroRange s (storeBase d i) 0x80_0000) (scratchBase d i) 0x4_0000).stk ∧
        (t.core d i).run = none ∧ (t.core d i).queues = [] ∧ (∀ k, k ≠ i → t.core d k = s.core d k) ∧ (∀ e, e ≠ d → t.tile e = s.tile e) ∧
        t.flt.head = s.flt.head + 1)) ∧
    (∀ d i u, isTileDie d = true → i < 8 → u < 7 → invBit s.inv.active d = true → invBit s.inv.fenced d = false → (s.core d i).errs.look u 0 ≠ 0 →
      Completes (.coreError d i u true) s (fun t => ∃ r, t = State.tileFault r d 1 [] ∧ r = { s with tiles := r.tiles } ∧
        (r.core d i).errs.look u 0 = (s.core d i).errs.look u 0 + 1)) ∧
    (∀ d r l, r = 0 ∨ 9 < r.toNat ∨ isTileDie d = false → exec (.tileFault d r l) s = .next s) ∧
    (∀ d r l, (∀ t ∈ s.stk, t.2.mig = none) → invBit s.inv.fenced d = true → exec (.tileFault d r l) s = .next s) ∧
    (∀ d r l, isTileDie d = true → 1 ≤ r.toNat → r.toNat ≤ 9 → (∀ t ∈ s.stk, t.2.mig = none) → invBit s.inv.fenced d = false → invBit s.inv.reserve d = true → s.lsOf d = none → s.flt.routeFenced = [] →
      Completes (.tileFault d r l) s (fun t => invBit t.inv.fenced d = true ∧ (t.tile d).faulted = true ∧ (t.tile d).reason = r ∧ t.flt.bist.busy = false)) ∧
    (s.flt.standby = false → exec .heartbeatMiss s = .next s.fatal ∧ exec .lockstepError s = .next s.fatal) ∧
    (∀ c, c = Instr.heartbeatMiss ∨ c = Instr.lockstepError → s.flt.standby = true →
      (s.upd.phase ≠ .swapping → s.upd.phase ≠ .trial →
        Completes c s (fun t => t.auth.sessions = [] ∧ t.conf.sessions = [] ∧ t.flt.standby = false ∧ bit t.flt.replace 2 = true ∧ t.upd = s.upd ∧ t.mem = s.mem ∧ t.tiles = s.tiles)) ∧
      (s.upd.phase = .swapping → s.conf.held = [] → (∀ k, (s.cmpt k).heldWr = []) → Completes c s (fun t => t.upd = { s.upd with phase := .staged } ∧ t.flt.standby = false)) ∧
      (s.upd.phase = .trial → exec c s = .next (s.takeover.fallBack 4))) ∧
    exec .standbyRestored s = .next { s with flt := { s.flt with standby := true, replace := setBit s.flt.replace 2 false } } ∧
    (∀ (p : Port) v, p ≠ .mgmt → exec (.curReplaceClear p v) s = .next (s.portDenied p 0xE4_0008)) ∧
    (∀ v : BitVec 64, Completes (.curReplaceClear .mgmt v) s (fun t => t = { s with flt := { s.flt with replace := t.flt.replace } } ∧
      (∀ b, b < 7 → bit t.flt.replace b = (bit s.flt.replace b && (!bit v b || s.causeHolds b))) ∧ (∀ b, 7 ≤ b → bit t.flt.replace b = bit s.flt.replace b)))

/-- Moves, promotions and self-test (R407, R409, R410, R416 to R419): the hand-over makes the reserve serve, and after a fault writes the substitution; a copy that ends powers the old island off, a planned move returns its tile to reserve; lost transactions end; a self-test starts only on a testable die, shows its blocks as done and fences a die that fails; a rotation starts with the move to the nearest reserve. -/
def Obligations.MovesPromotionsAndSelfTests : Prop :=
  ∀ (s : State), s.isUp = true →
    (∀ ls, (s.stack ls).mig = none → exec (.handoverDone ls) s = .next s ∧ exec (.recoveryDone ls) s = .next s ∧ exec (.migrateCopyDone ls) s = .next s) ∧
    (∀ ls m, ls < 32 → (s.stack ls).mig = some m → isTileDie m.src = true → isTileDie m.dst = true →
      (m.handed = true → exec (.handoverDone ls) s = .next s) ∧
      (m.handed = false → exec (.recoveryDone ls) s = .next s ∧ exec (.migrateCopyDone ls) s = .next s) ∧
      (m.planned = true → exec (.recoveryDone ls) s = .next s) ∧
      (m.planned = false → exec (.migrateCopyDone ls) s = .next s) ∧
      (m.handed = false → m.planned = true → m.rebuild = false →
        exec (.handoverDone ls) s = .next (s.withStack ls { s.stack ls with mig := some { m with handed := true }, queues := (s.stack ls).queues.each (fun _ q => q.map SsuCmd.restarted) })) ∧
      (m.handed = false → m.planned = false → m.rebuild = false → m.src ≠ m.dst →
        Completes (.handoverDone ls) s (fun t => (t.stack ls).mig = some { m with handed := true } ∧ t.bed.subst = s.bed.subst ++ [(m.src, m.dst)] ∧
          t.flt.place = s.flt.place ++ [(m.src, m.dst)] ∧ t.flt.die = m.src ∧ t.flt.step = 7 ∧ invBit t.inv.active m.dst = true ∧ invBit t.inv.active m.src = false)) ∧
      (m.handed = true → m.planned = false → m.rebuild = false →
        Completes (.recoveryDone ls) s (fun t => (t.stack ls).mig = none ∧ (t.tile m.src).islandUp = false ∧ t.mem = s.mem ∧ (s.flt.die = m.src → t.flt.die = 0 ∧ t.flt.step = 0))) ∧
      (m.handed = true → m.planned = true → m.retire = false → (s.stack ls).queues = [] → s.coresIdle m.src = true → s.flt.bist.rotating = false → m.src ≠ m.dst →
        Completes (.migrateCopyDone ls) s (fun t => (t.stack ls).mig = none ∧ t.flt.place = s.flt.place ++ [(m.src, m.dst)] ∧ invBit t.inv.active m.dst = true ∧
          invBit t.inv.active m.src = false ∧ invBit t.inv.reserve m.src = true))) ∧
    (∀ d, isTileDie d = false ∨ (s.tile d).islandUp = true → exec (.txnTimeout d) s = .next s) ∧
    (∀ d, isTileDie d = true → (s.tile d).islandUp = false → (∀ e i, (s.core e i).pload = none ∧ (s.core e i).pstore = none) →
      Completes (.txnTimeout d) s (fun t => (∀ g ∈ t.flt.gone, g.1 ≠ d) ∧ t.mem = s.mem)) ∧
    (∀ (p : Port) v, p ≠ .pf → p ≠ .mgmt → exec (.curBistCmd p v) s = .next (s.portDenied p 0xE4_0100) ∧ exec (.curRotate p v) s = .next (s.portDenied p 0xE4_0118)) ∧
    (∀ (p : Port) (v : BitVec 64), p = .pf ∨ p = .mgmt →
      (bit v 63 = false → exec (.curBistCmd p v) s = .next s ∧ exec (.curRotate p v) s = .next s) ∧
      (bit v 63 = true → s.flt.bist.busy = true ∨ s.flt.bist.rotating = true →
        exec (.curBistCmd p v) s = .next { s with flt := { s.flt with bist := { s.flt.bist with code := 0x4013 } } } ∧
        exec (.curRotate p v) s = .next { s with flt := { s.flt with bist := { s.flt.bist with code := 0x4013 } } }) ∧
      (bit v 63 = true → s.flt.bist.busy = false → s.flt.bist.rotating = false →
        (s.testable (bits v 37 32) = false ∨ s.blocksDenied (bits v 37 32) (BitVec.ofNat 16 (bits v 12 0)) = true →
          exec (.curBistCmd p v) s = .next { s with flt := { s.flt with bist := { s.flt.bist with code := 0x4012 } } }) ∧
        (s.testable (bits v 37 32) = true → s.blocksDenied (bits v 37 32) (BitVec.ofNat 16 (bits v 12 0)) = false →
          exec (.curBistCmd p v) s = .next { s with flt := { s.flt with
            bist := { busy := true, kind := bit v 62, die := bits v 37 32, mask := BitVec.ofNat 16 (bits v 12 0), patterns := bits v 31 16 } } }) ∧
        (s.nearestReserve (bits v 37 32) = none → exec (.curRotate p v) s = .next { s with flt := { s.flt with bist := { s.flt.bist with code := 0x4012 } } }) ∧
        (∀ r l, s.nearestReserve (bits v 37 32) = some r → invBit s.inv.active (bits v 37 32) = true → invBit s.inv.fenced (bits v 37 32) = false →
          s.lsOf (bits v 37 32) = some l → (s.stack l).mig = none → bits v 12 10 = 0 →
          Completes (.curRotate p v) s (fun t => t.flt.bist.rotating = true ∧ t.flt.bist.die = bits v 37 32 ∧ t.flt.bist.rotPhase = 1 ∧
            t.stack l = { s.stack l with die := r, mig := some { src := bits v 37 32, dst := r, planned := true } } ∧
            t = { s with flt := { s.flt with bist := t.flt.bist }, stk := t.stk, tick := t.tick })))) ∧
    (∀ l, s.flt.bist.busy = false → exec (.bistDone l) s = .next s) ∧
    (∀ l, s.flt.bist.busy = true → s.flt.bist.rotating = false → Completes (.bistDone l) s (fun t => t.flt.bist.busy = false ∧ t.flt.bist.done = s.flt.bist.mask)) ∧
    (s.flt.bist.busy = true → s.flt.bist.rotating = false → s.flt.bist.kind = true → s.flt.bist.mask = 1 → isTileDie s.flt.bist.die = true → s.flt.routeFenced = [] →
      Completes (.bistDone [0]) s (fun t => t.flt.bist.pass = 1 ∧ t.inv = s.inv) ∧
      Completes (.bistDone [2 ^ 32]) s (fun t => t.flt.bist.pass = 0 ∧ invBit t.inv.fenced s.flt.bist.die = true))

/-- Resets and start-up (R420, R421, R427 to R429, Tables 21.3 and 21.4): a rise of PWR_OK, PERST_N and a Hot Reset wipe everything volatile, keep fuses and flash and start step 1; power lost wipes without a boot; PWR_OK low asserts every site's reset; each BOOT_STEP_DONE leads to the next step, with recovery when no slot may boot, and step 8 ends with the device up. -/
def Obligations.ResetsWipeAndStartUpFollows : Prop :=
  ∀ (s : State),
    (∀ a b x, s.pwr.ok = false → Completes (.pwrOkRise a b x) s (fun t => t.pwr.ok = true ∧ t.pwr.bootStep = 1 ∧ t.pwr.cold = true ∧ t.pwr.refA = a ∧ t.pwr.refB = b ∧
      t.pwr.selB = !a ∧ t.pwr.switches = 0 ∧ t.sto.bifur = x ∧ t.mem = [] ∧ t.poison = [] ∧ t.tiles = [] ∧ t.cmpts = [] ∧ t.stk = [] ∧ t.auth.sessions = [] ∧
      t.auth.lcCopies = s.auth.lcCopies ∧ t.auth.anchor = s.auth.anchor ∧ t.bed.seq = s.bed.seq ∧ t.bed.flashPlan = s.bed.flashPlan ∧ t.upd.rollback = s.upd.rollback ∧
      t.flt.reports = s.flt.reports ∧ t.flt.boots = s.flt.boots + 1 ∧ t.inv.gen = 0 ∧ t.pending = s.pending)) ∧
    (∀ a b x, s.pwr.ok = true → exec (.pwrOkRise a b x) s = .next s) ∧
    (∀ a b, s.isOn = true → s.pwr.perstN = true → Completes (.perstN a b) s (fun t => t.pwr.perstN = false ∧ t.pwr.bootStep = 1 ∧ t.pwr.cold = false ∧ t.mem = [] ∧ t.tiles = [] ∧ t.cmpts = [] ∧
      t.auth.lcCopies = s.auth.lcCopies ∧ t.bed.flashPlan = s.bed.flashPlan ∧ t.flt.reports = s.flt.reports ∧ t.pwr.switches = s.pwr.switches ∧ t.flt.boots = s.flt.boots + 1)) ∧
    (∀ a b, s.isOn = true → s.pwr.perstN = true → Completes (.hotReset a b) s (fun t => t.pwr.perstN = true ∧ t.pwr.bootStep = 1 ∧ t.pwr.cold = false ∧ t.mem = [] ∧
      t.tiles = [] ∧ t.cmpts = [] ∧ t.auth.lcCopies = s.auth.lcCopies ∧ t.flt.boots = s.flt.boots + 1)) ∧
    (∀ a b, s.pwr.perstN = false → exec (.hotReset a b) s = .next s ∧ exec (.perstN a b) s = .next s) ∧
    (∀ a b, s.isOn = false → exec (.perstN a b) s = .next s ∧ exec .perstNRise s = .next s) ∧
    (s.isOn = true → exec .perstNRise s = .next { s with pwr := { s.pwr with perstN := true }, pci := { s.pci with up := true } }) ∧
    Completes .powerLoss s (fun t => t.pwr.ok = false ∧ t.mem = [] ∧ t.tiles = [] ∧ t.cmpts = [] ∧ t.auth.lcCopies = s.auth.lcCopies ∧ t.flt.boots = s.flt.boots) ∧
    Completes .pwrOkFall s (fun t => t.pwr = { s.pwr with ok := false, alert := false } ∧ (∀ k, k < 4 → t.site k = { s.site k with resetN := false }) ∧ t = { s with pwr := t.pwr, sites := t.sites }) ∧
    (∀ ms, s.isOn = true → s.auth.lcStep = 0 → s.pwr.recovery = false →
      (s.pwr.bootStep = 0 → exec (.bootStepDone ms) s = .next s) ∧
      (s.pwr.bootStep = 1 → (s.pwr.refA = true ∨ s.pwr.refB = true) → s.lcState ≠ 4 →
        exec (.bootStepDone ms) s = .next { s with pwr := { s.pwr with bootStep := if s.pwr.cold then 2 else 3 }, pci := { s.pci with up := s.pwr.perstN } }) ∧
      (s.pwr.bootStep = 1 → (s.pwr.refA = false ∧ s.pwr.refB = false) ∨ s.lcState = 4 → exec (.bootStepDone ms) s = .next s) ∧
      (s.pwr.bootStep = 2 → exec (.bootStepDone ms) s = .next { s with pwr := { s.pwr with bootStep := 3 } }) ∧
      (s.pwr.bootStep = 3 → s.bootable s.upd.active = true → Completes (.bootStepDone ms) s (fun t => t.pwr.bootStep = 4 ∧ t.upd.active = s.upd.active ∧
        t.fab.version = (s.upd.slots.look s.upd.active {}).fab ∧ t.upd.rollback = max s.upd.rollback (s.upd.slots.look s.upd.active {}).sec ∧ t.flt.standby = true ∧ t.mem = s.mem)) ∧
      (s.pwr.bootStep = 3 → s.bootable s.upd.active = false → s.bootable s.spare = true → Completes (.bootStepDone ms) s (fun t => t.pwr.bootStep = 4 ∧ t.upd.active = s.spare)) ∧
      (s.pwr.bootStep = 3 → s.bootable s.upd.active = false → s.bootable s.spare = false → Completes (.bootStepDone ms) s (fun t => t.pwr.recovery = true ∧ t.upd.phase = .recovery ∧ t.isUp = false)) ∧
      (s.pwr.bootStep = 4 → Completes (.bootStepDone ms) s (fun t => t.pwr.bootStep = 5 ∧ t.mem = s.mem)) ∧
      (s.pwr.bootStep = 5 → Completes (.bootStepDone ms) s (fun t => t.pwr.bootStep = 6 ∧ t.mem = s.mem)) ∧
      (s.pwr.bootStep = 6 → Completes (.bootStepDone ms) s (fun t => t.pwr.bootStep = 7)) ∧
      (s.pwr.bootStep = 7 → s.pwr.perstN = true → (∀ x ∈ s.sites, x.2.st ≠ .accession ∧ x.2.drain = false) →
        Completes (.bootStepDone ms) s (fun t => t.pwr.bootStep = 8 ∧ (∀ k, k < 4 → (s.site k).st = .empty → (t.site k).resetN = true))) ∧
      (s.pwr.bootStep = 7 → s.pwr.perstN = false → exec (.bootStepDone ms) s = .next s) ∧
      (s.pwr.bootStep = 8 → Completes (.bootStepDone ms) s (fun t => t.isUp = true ∧ t.pci.retry = false ∧ t.auth.notes = [] ∧ t.mem = s.mem)))

/-- Reference clocks, rest, throttling and the thermal trip (R424, R430 to R435): the device switches to the good reference when the selected one is lost, a lost reference raises REFCLK_SINGLE, a lost one good for 1 s ends REFCLK_SINGLE; idle tiles rest; deep rest is entered when its conditions hold, refused with its reason otherwise, and left on EXIT or D0; a hot hub or tile steps its clocks down within one window, a cool hub steps up after ten; a trip stops the package. -/
def Obligations.ClocksRestThrottleAndTrip : Prop :=
  ∀ (s : State), s.isOn = true →
    (s.pwr.refB = false → exec (.refclkLoss false) s = .next { s with pwr := { s.pwr with refA := false, therm := true, alert := true } }) ∧
    (s.pwr.refB = true → s.pwr.selB = true → Completes (.refclkLoss false) s (fun t => t.pwr = { s.pwr with refA := false } ∧ t.flt.refHolds = true ∧ bit t.flt.replace 3 = true ∧ t.mem = s.mem)) ∧
    (s.pwr.refB = true → s.pwr.selB = false → Completes (.refclkLoss false) s (fun t => t.pwr = { s.pwr with refA := false, selB := true, switches := s.pwr.switches + 1 } ∧
      t.flt.refHolds = true ∧ bit t.flt.replace 3 = true ∧ t.mem = s.mem)) ∧
    (s.pwr.refA = true → s.pwr.selB = true → Completes (.refclkLoss true) s (fun t => t.pwr = { s.pwr with refB := false, selB := false, switches := s.pwr.switches + 1 } ∧ t.flt.refHolds = true)) ∧
    (s.pwr.refB = true → exec (.refclkGoodTimer false) s = .next { s with pwr := { s.pwr with refA := true }, flt := { s.flt with refHolds := false } }) ∧
    (s.pwr.refB = false → exec (.refclkGoodTimer false) s = .next { s with pwr := { s.pwr with refA := true } }) ∧
    Completes .thermalTrip s (fun t => t = { s with pwr := { s.pwr with therm := true, tripped := true, tripLog := true } } ∧ t.isOn = false) ∧
    (s.isUp = true →
      (∀ d, isTileDie d = true → invBit s.inv.active d = true → invBit s.inv.fenced d = false → s.tileIdle d = true →
        exec (.restEntry d) s = .next { s with tiles := s.tiles.put d { s.tile d with rest := true } }) ∧
      (∀ d, s.tileIdle d = false → exec (.restEntry d) s = .next s) ∧
      (∀ d, isTileDie d = true → exec (.restExit d) s = .next { s with tiles := s.tiles.put d { s.tile d with rest := false } }) ∧
      (∀ (p : Port) v, p ≠ .pf → p ≠ .mgmt → exec (.pwrStateReqEnter p v) s = .next (s.portDenied p 0xE8_0008) ∧ exec (.pwrStateReqExit p v) s = .next (s.portDenied p 0xE8_0008)) ∧
      (∀ (p : Port) (v : BitVec 64), p = .pf ∨ p = .mgmt →
        (bit v 1 = false → bit v 0 = true → s.pwr.state = .active →
          (s.restRefusal = 0 → exec (.pwrStateReqEnter p v) s = .next { s with pwr := { s.pwr with state := .entering } }) ∧
          (s.restRefusal ≠ 0 → exec (.pwrStateReqEnter p v) s = .next { s with pwr := { s.pwr with refusal := s.restRefusal } })) ∧
        (bit v 1 = true → bit v 0 = false → s.pwr.state = .deepRest → exec (.pwrStateReqExit p v) s = .next { s with pwr := { s.pwr with state := .exiting } }) ∧
        (bit v 1 = bit v 0 → exec (.pwrStateReqEnter p v) s = .next s ∧ exec (.pwrStateReqExit p v) s = .next s)) ∧
      (s.pwr.state = .active → s.restRefusal = 0 → exec (.pmcsrWrite true) s = .next { s with pci := { s.pci with d3hot := true }, pwr := { s.pwr with state := .entering } }) ∧
      (s.pwr.state = .active → exec (.pmcsrWrite false) s = .next { s with pci := { s.pci with d3hot := false } }) ∧
      (s.pwr.state = .deepRest → exec (.pmcsrWrite false) s = .next { s with pci := { s.pci with d3hot := false }, pwr := { s.pwr with state := .exiting } }) ∧
      (s.pwr.state ≠ .entering → exec .deepRestEntered s = .next s) ∧
      (s.pwr.state = .entering → Completes .deepRestEntered s (fun t => t.pwr.state = .deepRest ∧ t.mem = s.mem ∧ (∀ d ∈ s.present, invBit s.inv.active d = true → (t.tile d).rest = true ∧ bit (t.tile d).mem.status 1 = true))) ∧
      (s.pwr.state ≠ .exiting → exec .deepRestExitDone s = .next s) ∧
      (s.pwr.state = .exiting → s.pwr.waiting = [] → Completes .deepRestExitDone s (fun t => t.pwr.state = .active ∧ t.mem = s.mem)) ∧
      (∀ power hot hub l drams, bits s.pwr.tj 7 0 < hub → 1800 < s.pwr.hubMesh →
        Completes (.throttleWindow power hot (hub :: l) drams) s (fun t => t.pwr.hubMesh = s.pwr.hubMesh - 100 ∧ t.pwr.hubCool = 0 ∧ t.mem = s.mem)) ∧
      (∀ power hot hub l drams, hub + 5 ≤ bits s.pwr.tj 7 0 → (bits s.pwr.limit 15 0 = 0 ∨ power ≤ bits s.pwr.limit 15 0) → 9 ≤ s.pwr.hubCool → s.pwr.hubMesh < 2000 →
        Completes (.throttleWindow power hot (hub :: l) drams) s (fun t => t.pwr.hubMesh = s.pwr.hubMesh + 100 ∧ t.mem = s.mem)) ∧
      (∀ power hot temps drams d x temp, s.tiles = [(d, x)] → isTileDie d = true → temps[d]? = some temp → bits s.pwr.tj 7 0 < temp → 1000 < x.arith → 1800 < x.mesh →
        Completes (.throttleWindow power hot temps drams) s (fun t => (t.tile d).arith = x.arith - 50 ∧ (t.tile d).mesh = x.mesh - 100 ∧ (t.tile d).cores = x.cores ∧ t.mem = s.mem)))

/-- The thermal trip (R435): THERM_N is asserted and no clock but the always-on one runs, so a command that needs a clock changes nothing; the trip is in flash, and once power has been removed and PWR_OK rises again, PWR_RESET_CAUSE shows it. -/
def Obligations.ThermalTripsStopClocksAndShowAtTheNextBoot : Prop :=
  ∀ (s : State), s.isOn = true →
    Completes .thermalTrip s (fun t => t = { s with pwr := { s.pwr with therm := true, tripped := true, tripLog := true } } ∧ t.isOn = false ∧
      (∀ c, servedDown c = false → exec c t = .next t) ∧ (∀ ms, exec (.bootStepDone ms) t = .next t) ∧
      (∀ a b x, Completes .powerLoss t (fun u => u.pwr.tripLog = true ∧
        Completes (.pwrOkRise a b x) u (fun v => v.isOn = true ∧ v.pwr.bootStep = 1 ∧ v.pwr.cause = 256 ∧ v.pwr.tripLog = false))))

/-- REGISTER_WRITE (R9, R368, R436, Tables 12.9, 18.8, 19.6, 20.7, 21.7): a write outside a port's authority is refused and changes no register; a register stores its bits and leaves others as they were; a value outside a register's range and a write to a read-only register are ignored; a register with a command of its own has that command's effect; a VF writes only through its BAR0. -/
def Obligations.RegisterWritesReachTheirRegister : Prop :=
  ∀ (s : State), s.isUp = true →
    (∀ (p : Port) d o v, mayWrite p d o = false → exec (.registerWrite p false d o v) s = .next (s.portDenied p o)) ∧
    (∀ n d o v, exec (.registerWrite (.vf n) false d o v) s = .next (s.portDenied (.vf n) o)) ∧
    (∀ n d o v, n ≠ 0 → exec (.registerWrite (.vf n) true d o v) s = .next (s.bar0T n o v)) ∧
    (∀ (p : Port) (v : BitVec 64), p = .pf ∨ p = .mgmt →
      exec (.registerWrite p false 0 0xE8_0038 v) s = .next { s with pwr := { s.pwr with limit := BitVec.ofNat 64 (bits v 15 0) } } ∧
      (85 ≤ bits v 7 0 → bits v 7 0 ≤ 105 → exec (.registerWrite p false 0 0xE8_0048 v) s = .next { s with pwr := { s.pwr with tj := BitVec.ofNat 64 (bits v 7 0) } }) ∧
      (bits v 7 0 < 85 ∨ 105 < bits v 7 0 → exec (.registerWrite p false 0 0xE8_0048 v) s = .next s) ∧
      (60 ≤ bits v 11 0 → bits v 11 0 ≤ 3600 → exec (.registerWrite p false 0 0xF8_0018 v) s = .next { s with upd := { s.upd with confirmWin := BitVec.ofNat 64 (bits v 11 0) } }) ∧
      (bits v 11 0 < 60 ∨ 3600 < bits v 11 0 → exec (.registerWrite p false 0 0xF8_0018 v) s = .next s) ∧
      exec (.registerWrite p false 0 0xE4_0020 v) s = .next { s with flt := { s.flt with sel := BitVec.ofNat 64 (bits v 31 0) } } ∧
      exec (.registerWrite p false 0 0xE4_0030 v) s = .next { s with flt := { s.flt with autoRetire := BitVec.ofNat 64 (bits v 0 0) } } ∧
      (∀ c, c < 64 → exec (.registerWrite p false 0 (0x70_8010 + 8 * c) v) s = .next (s.withCmpt c { s.cmpt c with faultLimit := v.setWidth 32 })) ∧
      (∀ d, isTileDie d = true → exec (.registerWrite p false d 0x50_0018 v) s = .next { s with tiles := s.tiles.put d { s.tile d with
        mem := { (s.tile d).mem with ageLimit := BitVec.ofNat 64 (max 256 (bits v 15 0)) } } }) ∧
      (∀ d, isTileDie d = true → exec (.registerWrite p false d 0 v) s = .next s) ∧
      exec (.registerWrite p false 0 0 v) s = .next s ∧
      (∀ d o, 29 ≤ d → exec (.registerWrite p false d o v) s = .next s) ∧
      exec (.registerWrite p false 0 0x90_0000 v) s = exec (.bedLoadCmd p v) s ∧
      exec (.registerWrite p false 0 0xE4_0100 v) s = exec (.curBistCmd p v) s ∧
      exec (.registerWrite p false 0 0xE8_0008 v) s = exec (.pwrStateReqEnter p v) s ∧
      exec (.registerWrite p false 0 0xA0_0600 v) s = exec (.cmpFallowReq p v) s ∧
      (∀ d, isTileDie d = true → exec (.registerWrite p false d 0x50_0048 v) s = exec (.memCeThreshWrite p d v) s)) ∧
    (∀ k d v, k < 0x8_0000 → exec (.registerWrite .pf true d (0x0200_0000 + 8 * k) v) s
      = .next { s with bed := { s.bed with staged := putBytes s.bed.staged (8 * k) (bvBytes v) } }) ∧
    (∀ k d v, k < 0x20_0000 → exec (.registerWrite .pf true d (0x0300_0000 + 8 * k) v) s = .next s) ∧
    (∀ d o v, exec (.registerWrite .mgmt true d o v) s = .next (s.portDenied .mgmt o)) ∧
    (∀ o v, 0xF0_0240 ≤ o → o ≤ 0xF0_0270 → exec (.registerWrite .mgmt false 0 o v) s = .next (s.portDenied .mgmt o)) ∧
    (∀ v, exec (.registerWrite .i3c false 0 0xE8_0038 v) s = .next { s with pwr := { s.pwr with limit := BitVec.ofNat 64 (bits v 15 0) } })

/-- One step: with a command at the front of the queue, a step is that command's effect on the state with the queue's rest; on an empty queue the device idles, which is the model's choice (log 10); and every command of the table answers a next state in every state, so every step does: none ends in a fault or a refusal. -/
def Obligations.StepRunsTheCommandAtTheFront : Prop :=
  (∀ (s : State) (c : Instr) (q : List Instr), s.pending = c :: q → step s = exec c { s with pending := q }) ∧
  (∀ s : State, s.pending = [] → step s = .next s) ∧
  (∀ (c : Instr) (s : State), ∃ t, exec c s = .next t) ∧
  (∀ s : State, ∃ t, step s = .next t)

/-- The state after a cold reset (R427, R429, Tables 3.8, 7.7, 19.6, 20.7, 21.7): start-up stands at step 1 and the device is not up; the registers of which the spec gives reset values hold them; memory lists nothing and is in its canonical form; nothing waits in the queue. -/
def Obligations.ResetHoldsTheStatedValues : Prop :=
  State.reset.pending = [] ∧ State.reset.mem = [] ∧ memWf State.reset.mem = true ∧ poisonWf State.reset.poison = true ∧
  State.reset.pwr.bootStep = 1 ∧ State.reset.pwr.cold = true ∧ State.reset.isOn = true ∧ State.reset.isUp = false ∧ State.reset.pci.retry = true ∧
  State.reset.stallLimit = 1000000 ∧ State.reset.flt.txnTimeout = 100 ∧ State.reset.flt.autoRetire = 1 ∧ State.reset.upd.confirmWin = 600 ∧ State.reset.pwr.limit = 0 ∧ State.reset.pwr.tj = 100 ∧
  (∀ d, (State.reset.tile d).mem.ageLimit = 2400 ∧ (State.reset.tile d).mem.ceWindow = 3600000 ∧ (State.reset.tile d).mem.ceThresh = 10000 ∧ (State.reset.tile d).mem.scrubPeriod = 24) ∧
  (∀ c, State.reset.cstate (c + 1) = .undef ∧ (State.reset.cmpt c).sq = []) ∧
  (∀ d u, (State.reset.cache d u).lines = []) ∧ (∀ h, (State.reset.home h).dir = [])

/-- Outside operation (R378, R398, R420, R429, R435): on a device that is not up, every command but those of power, clocks, start-up, link training, accession, life cycle, JTAG, the recovery mailbox and the management network changes nothing. Power (R420, R435): a package that is off or tripped stays so under every step except one that runs PWR_OK_RISE on a package without power, and such a step leaves memory unchanged unless power is lost. -/
def Obligations.CommandsOutsideOperationChangeNothing : Prop :=
  (∀ (s : State) (c : Instr), s.isUp = false → servedDown c = false → exec c s = .next s) ∧
  (∀ (s t : State), s.isOn = false → (∀ a b x q, s.pending ≠ .pwrOkRise a b x :: q) → step s = .next t →
    t.isOn = false ∧ t.pending = s.pending.tail ∧ t.auth.lcCopies = s.auth.lcCopies ∧ t.bed.flashPlan = s.bed.flashPlan ∧ (t.mem = s.mem ∨ t.mem = []))

/-- SCRAPPED is final (R375, R376, R378, R429): a package whose voted codeword has every bit set and whose start-up stands at its first step keeps both under every step, whatever the command; it never comes up and never serves the management port. -/
def Obligations.ScrappedPackagesNeverServe : Prop :=
  ∀ (s t : State), s.scrapped → step s = .next t → t.scrapped ∧ t.isUp = false ∧ t.mgmtServes = false

/-- Memory (R171, R177): every step keeps the canonical form of memory, addresses strictly rising and no byte listed at the value an unlisted one reads as, and the strictly rising list of poisoned sectors. -/
def Obligations.EveryStepKeepsMemoryCanonical : Prop :=
  ∀ (s t : State), memWf s.mem = true → poisonWf s.poison = true → step s = .next t → memWf t.mem = true ∧ poisonWf t.poison = true
end

