-- ==== Sys2Proof/Laws/State.lean ====
section
/-! SUPPORT. What the named updates of State leave alone, one simp lemma per field, so that no proof unfolds a record update. -/

namespace Sys2Proof.Machine

variable (s : State)

@[simp] theorem modTile_pending (d : Nat) (f : Tile → Tile) : (s.modTile d f).pending = s.pending := by unfold State.modTile; split <;> rfl
@[simp] theorem modTile_serial (d : Nat) (f : Tile → Tile) : (s.modTile d f).serial = s.serial := by unfold State.modTile; split <;> rfl
@[simp] theorem modTile_tick (d : Nat) (f : Tile → Tile) : (s.modTile d f).tick = s.tick := by unfold State.modTile; split <;> rfl
@[simp] theorem modTile_bootDraw (d : Nat) (f : Tile → Tile) : (s.modTile d f).bootDraw = s.bootDraw := by unfold State.modTile; split <;> rfl
@[simp] theorem modTile_out (d : Nat) (f : Tile → Tile) : (s.modTile d f).out = s.out := by unfold State.modTile; split <;> rfl
@[simp] theorem modTile_inv (d : Nat) (f : Tile → Tile) : (s.modTile d f).inv = s.inv := by unfold State.modTile; split <;> rfl
@[simp] theorem modTile_mem (d : Nat) (f : Tile → Tile) : (s.modTile d f).mem = s.mem := by unfold State.modTile; split <;> rfl
@[simp] theorem modTile_poison (d : Nat) (f : Tile → Tile) : (s.modTile d f).poison = s.poison := by unfold State.modTile; split <;> rfl
@[simp] theorem modTile_stk (d : Nat) (f : Tile → Tile) : (s.modTile d f).stk = s.stk := by unfold State.modTile; split <;> rfl
@[simp] theorem modTile_cmpts (d : Nat) (f : Tile → Tile) : (s.modTile d f).cmpts = s.cmpts := by unfold State.modTile; split <;> rfl
@[simp] theorem modTile_dispCnt (d : Nat) (f : Tile → Tile) : (s.modTile d f).dispCnt = s.dispCnt := by unfold State.modTile; split <;> rfl
@[simp] theorem modTile_marks (d : Nat) (f : Tile → Tile) : (s.modTile d f).marks = s.marks := by unfold State.modTile; split <;> rfl
@[simp] theorem modTile_snaps (d : Nat) (f : Tile → Tile) : (s.modTile d f).snaps = s.snaps := by unfold State.modTile; split <;> rfl
@[simp] theorem modTile_stallLimit (d : Nat) (f : Tile → Tile) : (s.modTile d f).stallLimit = s.stallLimit := by unfold State.modTile; split <;> rfl
@[simp] theorem modTile_posts (d : Nat) (f : Tile → Tile) : (s.modTile d f).posts = s.posts := by unfold State.modTile; split <;> rfl
@[simp] theorem modTile_unmaps (d : Nat) (f : Tile → Tile) : (s.modTile d f).unmaps = s.unmaps := by unfold State.modTile; split <;> rfl
@[simp] theorem modTile_coh (d : Nat) (f : Tile → Tile) : (s.modTile d f).coh = s.coh := by unfold State.modTile; split <;> rfl
@[simp] theorem modTile_sc (d : Nat) (f : Tile → Tile) : (s.modTile d f).sc = s.sc := by unfold State.modTile; split <;> rfl
@[simp] theorem modTile_graftCaches (d : Nat) (f : Tile → Tile) : (s.modTile d f).graftCaches = s.graftCaches := by unfold State.modTile; split <;> rfl
@[simp] theorem modTile_hubHome (d : Nat) (f : Tile → Tile) : (s.modTile d f).hubHome = s.hubHome := by unfold State.modTile; split <;> rfl
@[simp] theorem modTile_stripes (d : Nat) (f : Tile → Tile) : (s.modTile d f).stripes = s.stripes := by unfold State.modTile; split <;> rfl
@[simp] theorem modTile_guarded (d : Nat) (f : Tile → Tile) : (s.modTile d f).guarded = s.guarded := by unfold State.modTile; split <;> rfl
@[simp] theorem modTile_routers (d : Nat) (f : Tile → Tile) : (s.modTile d f).routers = s.routers := by unfold State.modTile; split <;> rfl
@[simp] theorem modTile_wires (d : Nat) (f : Tile → Tile) : (s.modTile d f).wires = s.wires := by unfold State.modTile; split <;> rfl
@[simp] theorem modTile_lost (d : Nat) (f : Tile → Tile) : (s.modTile d f).lost = s.lost := by unfold State.modTile; split <;> rfl
@[simp] theorem modTile_base (d : Nat) (f : Tile → Tile) : (s.modTile d f).base = s.base := by unfold State.modTile; split <;> rfl
@[simp] theorem modTile_detours (d : Nat) (f : Tile → Tile) : (s.modTile d f).detours = s.detours := by unfold State.modTile; split <;> rfl
@[simp] theorem modTile_masters (d : Nat) (f : Tile → Tile) : (s.modTile d f).masters = s.masters := by unfold State.modTile; split <;> rfl
@[simp] theorem modTile_deadlines (d : Nat) (f : Tile → Tile) : (s.modTile d f).deadlines = s.deadlines := by unfold State.modTile; split <;> rfl
@[simp] theorem modTile_urgHub (d : Nat) (f : Tile → Tile) : (s.modTile d f).urgHub = s.urgHub := by unfold State.modTile; split <;> rfl
@[simp] theorem modTile_clsCmpts (d : Nat) (f : Tile → Tile) : (s.modTile d f).clsCmpts = s.clsCmpts := by unfold State.modTile; split <;> rfl
@[simp] theorem modTile_clsKind (d : Nat) (f : Tile → Tile) : (s.modTile d f).clsKind = s.clsKind := by unfold State.modTile; split <;> rfl
@[simp] theorem modTile_pci (d : Nat) (f : Tile → Tile) : (s.modTile d f).pci = s.pci := by unfold State.modTile; split <;> rfl
@[simp] theorem modTile_sto (d : Nat) (f : Tile → Tile) : (s.modTile d f).sto = s.sto := by unfold State.modTile; split <;> rfl
@[simp] theorem modTile_bed (d : Nat) (f : Tile → Tile) : (s.modTile d f).bed = s.bed := by unfold State.modTile; split <;> rfl
@[simp] theorem modTile_fab (d : Nat) (f : Tile → Tile) : (s.modTile d f).fab = s.fab := by unfold State.modTile; split <;> rfl
@[simp] theorem modTile_sites (d : Nat) (f : Tile → Tile) : (s.modTile d f).sites = s.sites := by unfold State.modTile; split <;> rfl
@[simp] theorem modTile_conf (d : Nat) (f : Tile → Tile) : (s.modTile d f).conf = s.conf := by unfold State.modTile; split <;> rfl
@[simp] theorem modTile_auth (d : Nat) (f : Tile → Tile) : (s.modTile d f).auth = s.auth := by unfold State.modTile; split <;> rfl
@[simp] theorem modTile_upd (d : Nat) (f : Tile → Tile) : (s.modTile d f).upd = s.upd := by unfold State.modTile; split <;> rfl
@[simp] theorem modTile_flt (d : Nat) (f : Tile → Tile) : (s.modTile d f).flt = s.flt := by unfold State.modTile; split <;> rfl
@[simp] theorem modTile_pwr (d : Nat) (f : Tile → Tile) : (s.modTile d f).pwr = s.pwr := by unfold State.modTile; split <;> rfl

@[simp] theorem modCore_pending (d i : Nat) (f : Core → Core) : (s.modCore d i f).pending = s.pending := by unfold State.modCore; split <;> simp
@[simp] theorem modCore_serial (d i : Nat) (f : Core → Core) : (s.modCore d i f).serial = s.serial := by unfold State.modCore; split <;> simp
@[simp] theorem modCore_tick (d i : Nat) (f : Core → Core) : (s.modCore d i f).tick = s.tick := by unfold State.modCore; split <;> simp
@[simp] theorem modCore_bootDraw (d i : Nat) (f : Core → Core) : (s.modCore d i f).bootDraw = s.bootDraw := by unfold State.modCore; split <;> simp
@[simp] theorem modCore_out (d i : Nat) (f : Core → Core) : (s.modCore d i f).out = s.out := by unfold State.modCore; split <;> simp
@[simp] theorem modCore_inv (d i : Nat) (f : Core → Core) : (s.modCore d i f).inv = s.inv := by unfold State.modCore; split <;> simp
@[simp] theorem modCore_mem (d i : Nat) (f : Core → Core) : (s.modCore d i f).mem = s.mem := by unfold State.modCore; split <;> simp
@[simp] theorem modCore_poison (d i : Nat) (f : Core → Core) : (s.modCore d i f).poison = s.poison := by unfold State.modCore; split <;> simp
@[simp] theorem modCore_stk (d i : Nat) (f : Core → Core) : (s.modCore d i f).stk = s.stk := by unfold State.modCore; split <;> simp
@[simp] theorem modCore_cmpts (d i : Nat) (f : Core → Core) : (s.modCore d i f).cmpts = s.cmpts := by unfold State.modCore; split <;> simp
@[simp] theorem modCore_dispCnt (d i : Nat) (f : Core → Core) : (s.modCore d i f).dispCnt = s.dispCnt := by unfold State.modCore; split <;> simp
@[simp] theorem modCore_marks (d i : Nat) (f : Core → Core) : (s.modCore d i f).marks = s.marks := by unfold State.modCore; split <;> simp
@[simp] theorem modCore_snaps (d i : Nat) (f : Core → Core) : (s.modCore d i f).snaps = s.snaps := by unfold State.modCore; split <;> simp
@[simp] theorem modCore_stallLimit (d i : Nat) (f : Core → Core) : (s.modCore d i f).stallLimit = s.stallLimit := by unfold State.modCore; split <;> simp
@[simp] theorem modCore_posts (d i : Nat) (f : Core → Core) : (s.modCore d i f).posts = s.posts := by unfold State.modCore; split <;> simp
@[simp] theorem modCore_unmaps (d i : Nat) (f : Core → Core) : (s.modCore d i f).unmaps = s.unmaps := by unfold State.modCore; split <;> simp
@[simp] theorem modCore_coh (d i : Nat) (f : Core → Core) : (s.modCore d i f).coh = s.coh := by unfold State.modCore; split <;> simp
@[simp] theorem modCore_sc (d i : Nat) (f : Core → Core) : (s.modCore d i f).sc = s.sc := by unfold State.modCore; split <;> simp
@[simp] theorem modCore_graftCaches (d i : Nat) (f : Core → Core) : (s.modCore d i f).graftCaches = s.graftCaches := by unfold State.modCore; split <;> simp
@[simp] theorem modCore_hubHome (d i : Nat) (f : Core → Core) : (s.modCore d i f).hubHome = s.hubHome := by unfold State.modCore; split <;> simp
@[simp] theorem modCore_stripes (d i : Nat) (f : Core → Core) : (s.modCore d i f).stripes = s.stripes := by unfold State.modCore; split <;> simp
@[simp] theorem modCore_guarded (d i : Nat) (f : Core → Core) : (s.modCore d i f).guarded = s.guarded := by unfold State.modCore; split <;> simp
@[simp] theorem modCore_routers (d i : Nat) (f : Core → Core) : (s.modCore d i f).routers = s.routers := by unfold State.modCore; split <;> simp
@[simp] theorem modCore_wires (d i : Nat) (f : Core → Core) : (s.modCore d i f).wires = s.wires := by unfold State.modCore; split <;> simp
@[simp] theorem modCore_lost (d i : Nat) (f : Core → Core) : (s.modCore d i f).lost = s.lost := by unfold State.modCore; split <;> simp
@[simp] theorem modCore_base (d i : Nat) (f : Core → Core) : (s.modCore d i f).base = s.base := by unfold State.modCore; split <;> simp
@[simp] theorem modCore_detours (d i : Nat) (f : Core → Core) : (s.modCore d i f).detours = s.detours := by unfold State.modCore; split <;> simp
@[simp] theorem modCore_masters (d i : Nat) (f : Core → Core) : (s.modCore d i f).masters = s.masters := by unfold State.modCore; split <;> simp
@[simp] theorem modCore_deadlines (d i : Nat) (f : Core → Core) : (s.modCore d i f).deadlines = s.deadlines := by unfold State.modCore; split <;> simp
@[simp] theorem modCore_urgHub (d i : Nat) (f : Core → Core) : (s.modCore d i f).urgHub = s.urgHub := by unfold State.modCore; split <;> simp
@[simp] theorem modCore_clsCmpts (d i : Nat) (f : Core → Core) : (s.modCore d i f).clsCmpts = s.clsCmpts := by unfold State.modCore; split <;> simp
@[simp] theorem modCore_clsKind (d i : Nat) (f : Core → Core) : (s.modCore d i f).clsKind = s.clsKind := by unfold State.modCore; split <;> simp
@[simp] theorem modCore_pci (d i : Nat) (f : Core → Core) : (s.modCore d i f).pci = s.pci := by unfold State.modCore; split <;> simp
@[simp] theorem modCore_sto (d i : Nat) (f : Core → Core) : (s.modCore d i f).sto = s.sto := by unfold State.modCore; split <;> simp
@[simp] theorem modCore_bed (d i : Nat) (f : Core → Core) : (s.modCore d i f).bed = s.bed := by unfold State.modCore; split <;> simp
@[simp] theorem modCore_fab (d i : Nat) (f : Core → Core) : (s.modCore d i f).fab = s.fab := by unfold State.modCore; split <;> simp
@[simp] theorem modCore_sites (d i : Nat) (f : Core → Core) : (s.modCore d i f).sites = s.sites := by unfold State.modCore; split <;> simp
@[simp] theorem modCore_conf (d i : Nat) (f : Core → Core) : (s.modCore d i f).conf = s.conf := by unfold State.modCore; split <;> simp
@[simp] theorem modCore_auth (d i : Nat) (f : Core → Core) : (s.modCore d i f).auth = s.auth := by unfold State.modCore; split <;> simp
@[simp] theorem modCore_upd (d i : Nat) (f : Core → Core) : (s.modCore d i f).upd = s.upd := by unfold State.modCore; split <;> simp
@[simp] theorem modCore_flt (d i : Nat) (f : Core → Core) : (s.modCore d i f).flt = s.flt := by unfold State.modCore; split <;> simp
@[simp] theorem modCore_pwr (d i : Nat) (f : Core → Core) : (s.modCore d i f).pwr = s.pwr := by unfold State.modCore; split <;> simp

@[simp] theorem modMem_pending (d : Nat) (f : MemCtl → MemCtl) : (s.modMem d f).pending = s.pending := by unfold State.modMem; simp
@[simp] theorem modMem_serial (d : Nat) (f : MemCtl → MemCtl) : (s.modMem d f).serial = s.serial := by unfold State.modMem; simp
@[simp] theorem modMem_tick (d : Nat) (f : MemCtl → MemCtl) : (s.modMem d f).tick = s.tick := by unfold State.modMem; simp
@[simp] theorem modMem_bootDraw (d : Nat) (f : MemCtl → MemCtl) : (s.modMem d f).bootDraw = s.bootDraw := by unfold State.modMem; simp
@[simp] theorem modMem_out (d : Nat) (f : MemCtl → MemCtl) : (s.modMem d f).out = s.out := by unfold State.modMem; simp
@[simp] theorem modMem_inv (d : Nat) (f : MemCtl → MemCtl) : (s.modMem d f).inv = s.inv := by unfold State.modMem; simp
@[simp] theorem modMem_mem (d : Nat) (f : MemCtl → MemCtl) : (s.modMem d f).mem = s.mem := by unfold State.modMem; simp
@[simp] theorem modMem_poison (d : Nat) (f : MemCtl → MemCtl) : (s.modMem d f).poison = s.poison := by unfold State.modMem; simp
@[simp] theorem modMem_stk (d : Nat) (f : MemCtl → MemCtl) : (s.modMem d f).stk = s.stk := by unfold State.modMem; simp
@[simp] theorem modMem_cmpts (d : Nat) (f : MemCtl → MemCtl) : (s.modMem d f).cmpts = s.cmpts := by unfold State.modMem; simp
@[simp] theorem modMem_dispCnt (d : Nat) (f : MemCtl → MemCtl) : (s.modMem d f).dispCnt = s.dispCnt := by unfold State.modMem; simp
@[simp] theorem modMem_marks (d : Nat) (f : MemCtl → MemCtl) : (s.modMem d f).marks = s.marks := by unfold State.modMem; simp
@[simp] theorem modMem_snaps (d : Nat) (f : MemCtl → MemCtl) : (s.modMem d f).snaps = s.snaps := by unfold State.modMem; simp
@[simp] theorem modMem_stallLimit (d : Nat) (f : MemCtl → MemCtl) : (s.modMem d f).stallLimit = s.stallLimit := by unfold State.modMem; simp
@[simp] theorem modMem_posts (d : Nat) (f : MemCtl → MemCtl) : (s.modMem d f).posts = s.posts := by unfold State.modMem; simp
@[simp] theorem modMem_unmaps (d : Nat) (f : MemCtl → MemCtl) : (s.modMem d f).unmaps = s.unmaps := by unfold State.modMem; simp
@[simp] theorem modMem_coh (d : Nat) (f : MemCtl → MemCtl) : (s.modMem d f).coh = s.coh := by unfold State.modMem; simp
@[simp] theorem modMem_sc (d : Nat) (f : MemCtl → MemCtl) : (s.modMem d f).sc = s.sc := by unfold State.modMem; simp
@[simp] theorem modMem_graftCaches (d : Nat) (f : MemCtl → MemCtl) : (s.modMem d f).graftCaches = s.graftCaches := by unfold State.modMem; simp
@[simp] theorem modMem_hubHome (d : Nat) (f : MemCtl → MemCtl) : (s.modMem d f).hubHome = s.hubHome := by unfold State.modMem; simp
@[simp] theorem modMem_stripes (d : Nat) (f : MemCtl → MemCtl) : (s.modMem d f).stripes = s.stripes := by unfold State.modMem; simp
@[simp] theorem modMem_guarded (d : Nat) (f : MemCtl → MemCtl) : (s.modMem d f).guarded = s.guarded := by unfold State.modMem; simp
@[simp] theorem modMem_routers (d : Nat) (f : MemCtl → MemCtl) : (s.modMem d f).routers = s.routers := by unfold State.modMem; simp
@[simp] theorem modMem_wires (d : Nat) (f : MemCtl → MemCtl) : (s.modMem d f).wires = s.wires := by unfold State.modMem; simp
@[simp] theorem modMem_lost (d : Nat) (f : MemCtl → MemCtl) : (s.modMem d f).lost = s.lost := by unfold State.modMem; simp
@[simp] theorem modMem_base (d : Nat) (f : MemCtl → MemCtl) : (s.modMem d f).base = s.base := by unfold State.modMem; simp
@[simp] theorem modMem_detours (d : Nat) (f : MemCtl → MemCtl) : (s.modMem d f).detours = s.detours := by unfold State.modMem; simp
@[simp] theorem modMem_masters (d : Nat) (f : MemCtl → MemCtl) : (s.modMem d f).masters = s.masters := by unfold State.modMem; simp
@[simp] theorem modMem_deadlines (d : Nat) (f : MemCtl → MemCtl) : (s.modMem d f).deadlines = s.deadlines := by unfold State.modMem; simp
@[simp] theorem modMem_urgHub (d : Nat) (f : MemCtl → MemCtl) : (s.modMem d f).urgHub = s.urgHub := by unfold State.modMem; simp
@[simp] theorem modMem_clsCmpts (d : Nat) (f : MemCtl → MemCtl) : (s.modMem d f).clsCmpts = s.clsCmpts := by unfold State.modMem; simp
@[simp] theorem modMem_clsKind (d : Nat) (f : MemCtl → MemCtl) : (s.modMem d f).clsKind = s.clsKind := by unfold State.modMem; simp
@[simp] theorem modMem_pci (d : Nat) (f : MemCtl → MemCtl) : (s.modMem d f).pci = s.pci := by unfold State.modMem; simp
@[simp] theorem modMem_sto (d : Nat) (f : MemCtl → MemCtl) : (s.modMem d f).sto = s.sto := by unfold State.modMem; simp
@[simp] theorem modMem_bed (d : Nat) (f : MemCtl → MemCtl) : (s.modMem d f).bed = s.bed := by unfold State.modMem; simp
@[simp] theorem modMem_fab (d : Nat) (f : MemCtl → MemCtl) : (s.modMem d f).fab = s.fab := by unfold State.modMem; simp
@[simp] theorem modMem_sites (d : Nat) (f : MemCtl → MemCtl) : (s.modMem d f).sites = s.sites := by unfold State.modMem; simp
@[simp] theorem modMem_conf (d : Nat) (f : MemCtl → MemCtl) : (s.modMem d f).conf = s.conf := by unfold State.modMem; simp
@[simp] theorem modMem_auth (d : Nat) (f : MemCtl → MemCtl) : (s.modMem d f).auth = s.auth := by unfold State.modMem; simp
@[simp] theorem modMem_upd (d : Nat) (f : MemCtl → MemCtl) : (s.modMem d f).upd = s.upd := by unfold State.modMem; simp
@[simp] theorem modMem_flt (d : Nat) (f : MemCtl → MemCtl) : (s.modMem d f).flt = s.flt := by unfold State.modMem; simp
@[simp] theorem modMem_pwr (d : Nat) (f : MemCtl → MemCtl) : (s.modMem d f).pwr = s.pwr := by unfold State.modMem; simp

@[simp] theorem modStack_pending (l : Nat) (f : Stack → Stack) : (s.modStack l f).pending = s.pending := by unfold State.modStack; split <;> rfl
@[simp] theorem modStack_serial (l : Nat) (f : Stack → Stack) : (s.modStack l f).serial = s.serial := by unfold State.modStack; split <;> rfl
@[simp] theorem modStack_tick (l : Nat) (f : Stack → Stack) : (s.modStack l f).tick = s.tick := by unfold State.modStack; split <;> rfl
@[simp] theorem modStack_bootDraw (l : Nat) (f : Stack → Stack) : (s.modStack l f).bootDraw = s.bootDraw := by unfold State.modStack; split <;> rfl
@[simp] theorem modStack_out (l : Nat) (f : Stack → Stack) : (s.modStack l f).out = s.out := by unfold State.modStack; split <;> rfl
@[simp] theorem modStack_inv (l : Nat) (f : Stack → Stack) : (s.modStack l f).inv = s.inv := by unfold State.modStack; split <;> rfl
@[simp] theorem modStack_mem (l : Nat) (f : Stack → Stack) : (s.modStack l f).mem = s.mem := by unfold State.modStack; split <;> rfl
@[simp] theorem modStack_poison (l : Nat) (f : Stack → Stack) : (s.modStack l f).poison = s.poison := by unfold State.modStack; split <;> rfl
@[simp] theorem modStack_tiles (l : Nat) (f : Stack → Stack) : (s.modStack l f).tiles = s.tiles := by unfold State.modStack; split <;> rfl
@[simp] theorem modStack_cmpts (l : Nat) (f : Stack → Stack) : (s.modStack l f).cmpts = s.cmpts := by unfold State.modStack; split <;> rfl
@[simp] theorem modStack_dispCnt (l : Nat) (f : Stack → Stack) : (s.modStack l f).dispCnt = s.dispCnt := by unfold State.modStack; split <;> rfl
@[simp] theorem modStack_marks (l : Nat) (f : Stack → Stack) : (s.modStack l f).marks = s.marks := by unfold State.modStack; split <;> rfl
@[simp] theorem modStack_snaps (l : Nat) (f : Stack → Stack) : (s.modStack l f).snaps = s.snaps := by unfold State.modStack; split <;> rfl
@[simp] theorem modStack_stallLimit (l : Nat) (f : Stack → Stack) : (s.modStack l f).stallLimit = s.stallLimit := by unfold State.modStack; split <;> rfl
@[simp] theorem modStack_posts (l : Nat) (f : Stack → Stack) : (s.modStack l f).posts = s.posts := by unfold State.modStack; split <;> rfl
@[simp] theorem modStack_unmaps (l : Nat) (f : Stack → Stack) : (s.modStack l f).unmaps = s.unmaps := by unfold State.modStack; split <;> rfl
@[simp] theorem modStack_coh (l : Nat) (f : Stack → Stack) : (s.modStack l f).coh = s.coh := by unfold State.modStack; split <;> rfl
@[simp] theorem modStack_sc (l : Nat) (f : Stack → Stack) : (s.modStack l f).sc = s.sc := by unfold State.modStack; split <;> rfl
@[simp] theorem modStack_graftCaches (l : Nat) (f : Stack → Stack) : (s.modStack l f).graftCaches = s.graftCaches := by unfold State.modStack; split <;> rfl
@[simp] theorem modStack_hubHome (l : Nat) (f : Stack → Stack) : (s.modStack l f).hubHome = s.hubHome := by unfold State.modStack; split <;> rfl
@[simp] theorem modStack_stripes (l : Nat) (f : Stack → Stack) : (s.modStack l f).stripes = s.stripes := by unfold State.modStack; split <;> rfl
@[simp] theorem modStack_guarded (l : Nat) (f : Stack → Stack) : (s.modStack l f).guarded = s.guarded := by unfold State.modStack; split <;> rfl
@[simp] theorem modStack_routers (l : Nat) (f : Stack → Stack) : (s.modStack l f).routers = s.routers := by unfold State.modStack; split <;> rfl
@[simp] theorem modStack_wires (l : Nat) (f : Stack → Stack) : (s.modStack l f).wires = s.wires := by unfold State.modStack; split <;> rfl
@[simp] theorem modStack_lost (l : Nat) (f : Stack → Stack) : (s.modStack l f).lost = s.lost := by unfold State.modStack; split <;> rfl
@[simp] theorem modStack_base (l : Nat) (f : Stack → Stack) : (s.modStack l f).base = s.base := by unfold State.modStack; split <;> rfl
@[simp] theorem modStack_detours (l : Nat) (f : Stack → Stack) : (s.modStack l f).detours = s.detours := by unfold State.modStack; split <;> rfl
@[simp] theorem modStack_masters (l : Nat) (f : Stack → Stack) : (s.modStack l f).masters = s.masters := by unfold State.modStack; split <;> rfl
@[simp] theorem modStack_deadlines (l : Nat) (f : Stack → Stack) : (s.modStack l f).deadlines = s.deadlines := by unfold State.modStack; split <;> rfl
@[simp] theorem modStack_urgHub (l : Nat) (f : Stack → Stack) : (s.modStack l f).urgHub = s.urgHub := by unfold State.modStack; split <;> rfl
@[simp] theorem modStack_clsCmpts (l : Nat) (f : Stack → Stack) : (s.modStack l f).clsCmpts = s.clsCmpts := by unfold State.modStack; split <;> rfl
@[simp] theorem modStack_clsKind (l : Nat) (f : Stack → Stack) : (s.modStack l f).clsKind = s.clsKind := by unfold State.modStack; split <;> rfl
@[simp] theorem modStack_pci (l : Nat) (f : Stack → Stack) : (s.modStack l f).pci = s.pci := by unfold State.modStack; split <;> rfl
@[simp] theorem modStack_sto (l : Nat) (f : Stack → Stack) : (s.modStack l f).sto = s.sto := by unfold State.modStack; split <;> rfl
@[simp] theorem modStack_bed (l : Nat) (f : Stack → Stack) : (s.modStack l f).bed = s.bed := by unfold State.modStack; split <;> rfl
@[simp] theorem modStack_fab (l : Nat) (f : Stack → Stack) : (s.modStack l f).fab = s.fab := by unfold State.modStack; split <;> rfl
@[simp] theorem modStack_sites (l : Nat) (f : Stack → Stack) : (s.modStack l f).sites = s.sites := by unfold State.modStack; split <;> rfl
@[simp] theorem modStack_conf (l : Nat) (f : Stack → Stack) : (s.modStack l f).conf = s.conf := by unfold State.modStack; split <;> rfl
@[simp] theorem modStack_auth (l : Nat) (f : Stack → Stack) : (s.modStack l f).auth = s.auth := by unfold State.modStack; split <;> rfl
@[simp] theorem modStack_upd (l : Nat) (f : Stack → Stack) : (s.modStack l f).upd = s.upd := by unfold State.modStack; split <;> rfl
@[simp] theorem modStack_flt (l : Nat) (f : Stack → Stack) : (s.modStack l f).flt = s.flt := by unfold State.modStack; split <;> rfl
@[simp] theorem modStack_pwr (l : Nat) (f : Stack → Stack) : (s.modStack l f).pwr = s.pwr := by unfold State.modStack; split <;> rfl

@[simp] theorem modCmpt_pending (c : Nat) (f : Cmpt → Cmpt) : (s.modCmpt c f).pending = s.pending := by unfold State.modCmpt; split <;> rfl
@[simp] theorem modCmpt_serial (c : Nat) (f : Cmpt → Cmpt) : (s.modCmpt c f).serial = s.serial := by unfold State.modCmpt; split <;> rfl
@[simp] theorem modCmpt_tick (c : Nat) (f : Cmpt → Cmpt) : (s.modCmpt c f).tick = s.tick := by unfold State.modCmpt; split <;> rfl
@[simp] theorem modCmpt_bootDraw (c : Nat) (f : Cmpt → Cmpt) : (s.modCmpt c f).bootDraw = s.bootDraw := by unfold State.modCmpt; split <;> rfl
@[simp] theorem modCmpt_out (c : Nat) (f : Cmpt → Cmpt) : (s.modCmpt c f).out = s.out := by unfold State.modCmpt; split <;> rfl
@[simp] theorem modCmpt_inv (c : Nat) (f : Cmpt → Cmpt) : (s.modCmpt c f).inv = s.inv := by unfold State.modCmpt; split <;> rfl
@[simp] theorem modCmpt_mem (c : Nat) (f : Cmpt → Cmpt) : (s.modCmpt c f).mem = s.mem := by unfold State.modCmpt; split <;> rfl
@[simp] theorem modCmpt_poison (c : Nat) (f : Cmpt → Cmpt) : (s.modCmpt c f).poison = s.poison := by unfold State.modCmpt; split <;> rfl
@[simp] theorem modCmpt_tiles (c : Nat) (f : Cmpt → Cmpt) : (s.modCmpt c f).tiles = s.tiles := by unfold State.modCmpt; split <;> rfl
@[simp] theorem modCmpt_stk (c : Nat) (f : Cmpt → Cmpt) : (s.modCmpt c f).stk = s.stk := by unfold State.modCmpt; split <;> rfl
@[simp] theorem modCmpt_dispCnt (c : Nat) (f : Cmpt → Cmpt) : (s.modCmpt c f).dispCnt = s.dispCnt := by unfold State.modCmpt; split <;> rfl
@[simp] theorem modCmpt_marks (c : Nat) (f : Cmpt → Cmpt) : (s.modCmpt c f).marks = s.marks := by unfold State.modCmpt; split <;> rfl
@[simp] theorem modCmpt_snaps (c : Nat) (f : Cmpt → Cmpt) : (s.modCmpt c f).snaps = s.snaps := by unfold State.modCmpt; split <;> rfl
@[simp] theorem modCmpt_stallLimit (c : Nat) (f : Cmpt → Cmpt) : (s.modCmpt c f).stallLimit = s.stallLimit := by unfold State.modCmpt; split <;> rfl
@[simp] theorem modCmpt_posts (c : Nat) (f : Cmpt → Cmpt) : (s.modCmpt c f).posts = s.posts := by unfold State.modCmpt; split <;> rfl
@[simp] theorem modCmpt_unmaps (c : Nat) (f : Cmpt → Cmpt) : (s.modCmpt c f).unmaps = s.unmaps := by unfold State.modCmpt; split <;> rfl
@[simp] theorem modCmpt_coh (c : Nat) (f : Cmpt → Cmpt) : (s.modCmpt c f).coh = s.coh := by unfold State.modCmpt; split <;> rfl
@[simp] theorem modCmpt_sc (c : Nat) (f : Cmpt → Cmpt) : (s.modCmpt c f).sc = s.sc := by unfold State.modCmpt; split <;> rfl
@[simp] theorem modCmpt_graftCaches (c : Nat) (f : Cmpt → Cmpt) : (s.modCmpt c f).graftCaches = s.graftCaches := by unfold State.modCmpt; split <;> rfl
@[simp] theorem modCmpt_hubHome (c : Nat) (f : Cmpt → Cmpt) : (s.modCmpt c f).hubHome = s.hubHome := by unfold State.modCmpt; split <;> rfl
@[simp] theorem modCmpt_stripes (c : Nat) (f : Cmpt → Cmpt) : (s.modCmpt c f).stripes = s.stripes := by unfold State.modCmpt; split <;> rfl
@[simp] theorem modCmpt_guarded (c : Nat) (f : Cmpt → Cmpt) : (s.modCmpt c f).guarded = s.guarded := by unfold State.modCmpt; split <;> rfl
@[simp] theorem modCmpt_routers (c : Nat) (f : Cmpt → Cmpt) : (s.modCmpt c f).routers = s.routers := by unfold State.modCmpt; split <;> rfl
@[simp] theorem modCmpt_wires (c : Nat) (f : Cmpt → Cmpt) : (s.modCmpt c f).wires = s.wires := by unfold State.modCmpt; split <;> rfl
@[simp] theorem modCmpt_lost (c : Nat) (f : Cmpt → Cmpt) : (s.modCmpt c f).lost = s.lost := by unfold State.modCmpt; split <;> rfl
@[simp] theorem modCmpt_base (c : Nat) (f : Cmpt → Cmpt) : (s.modCmpt c f).base = s.base := by unfold State.modCmpt; split <;> rfl
@[simp] theorem modCmpt_detours (c : Nat) (f : Cmpt → Cmpt) : (s.modCmpt c f).detours = s.detours := by unfold State.modCmpt; split <;> rfl
@[simp] theorem modCmpt_masters (c : Nat) (f : Cmpt → Cmpt) : (s.modCmpt c f).masters = s.masters := by unfold State.modCmpt; split <;> rfl
@[simp] theorem modCmpt_deadlines (c : Nat) (f : Cmpt → Cmpt) : (s.modCmpt c f).deadlines = s.deadlines := by unfold State.modCmpt; split <;> rfl
@[simp] theorem modCmpt_urgHub (c : Nat) (f : Cmpt → Cmpt) : (s.modCmpt c f).urgHub = s.urgHub := by unfold State.modCmpt; split <;> rfl
@[simp] theorem modCmpt_clsCmpts (c : Nat) (f : Cmpt → Cmpt) : (s.modCmpt c f).clsCmpts = s.clsCmpts := by unfold State.modCmpt; split <;> rfl
@[simp] theorem modCmpt_clsKind (c : Nat) (f : Cmpt → Cmpt) : (s.modCmpt c f).clsKind = s.clsKind := by unfold State.modCmpt; split <;> rfl
@[simp] theorem modCmpt_pci (c : Nat) (f : Cmpt → Cmpt) : (s.modCmpt c f).pci = s.pci := by unfold State.modCmpt; split <;> rfl
@[simp] theorem modCmpt_sto (c : Nat) (f : Cmpt → Cmpt) : (s.modCmpt c f).sto = s.sto := by unfold State.modCmpt; split <;> rfl
@[simp] theorem modCmpt_bed (c : Nat) (f : Cmpt → Cmpt) : (s.modCmpt c f).bed = s.bed := by unfold State.modCmpt; split <;> rfl
@[simp] theorem modCmpt_fab (c : Nat) (f : Cmpt → Cmpt) : (s.modCmpt c f).fab = s.fab := by unfold State.modCmpt; split <;> rfl
@[simp] theorem modCmpt_sites (c : Nat) (f : Cmpt → Cmpt) : (s.modCmpt c f).sites = s.sites := by unfold State.modCmpt; split <;> rfl
@[simp] theorem modCmpt_conf (c : Nat) (f : Cmpt → Cmpt) : (s.modCmpt c f).conf = s.conf := by unfold State.modCmpt; split <;> rfl
@[simp] theorem modCmpt_auth (c : Nat) (f : Cmpt → Cmpt) : (s.modCmpt c f).auth = s.auth := by unfold State.modCmpt; split <;> rfl
@[simp] theorem modCmpt_upd (c : Nat) (f : Cmpt → Cmpt) : (s.modCmpt c f).upd = s.upd := by unfold State.modCmpt; split <;> rfl
@[simp] theorem modCmpt_flt (c : Nat) (f : Cmpt → Cmpt) : (s.modCmpt c f).flt = s.flt := by unfold State.modCmpt; split <;> rfl
@[simp] theorem modCmpt_pwr (c : Nat) (f : Cmpt → Cmpt) : (s.modCmpt c f).pwr = s.pwr := by unfold State.modCmpt; split <;> rfl

@[simp] theorem modRing_pending (c k : Nat) (f : SubRing → SubRing) : (s.modRing c k f).pending = s.pending := by unfold State.modRing; split <;> simp
@[simp] theorem modRing_serial (c k : Nat) (f : SubRing → SubRing) : (s.modRing c k f).serial = s.serial := by unfold State.modRing; split <;> simp
@[simp] theorem modRing_tick (c k : Nat) (f : SubRing → SubRing) : (s.modRing c k f).tick = s.tick := by unfold State.modRing; split <;> simp
@[simp] theorem modRing_bootDraw (c k : Nat) (f : SubRing → SubRing) : (s.modRing c k f).bootDraw = s.bootDraw := by unfold State.modRing; split <;> simp
@[simp] theorem modRing_out (c k : Nat) (f : SubRing → SubRing) : (s.modRing c k f).out = s.out := by unfold State.modRing; split <;> simp
@[simp] theorem modRing_inv (c k : Nat) (f : SubRing → SubRing) : (s.modRing c k f).inv = s.inv := by unfold State.modRing; split <;> simp
@[simp] theorem modRing_mem (c k : Nat) (f : SubRing → SubRing) : (s.modRing c k f).mem = s.mem := by unfold State.modRing; split <;> simp
@[simp] theorem modRing_poison (c k : Nat) (f : SubRing → SubRing) : (s.modRing c k f).poison = s.poison := by unfold State.modRing; split <;> simp
@[simp] theorem modRing_tiles (c k : Nat) (f : SubRing → SubRing) : (s.modRing c k f).tiles = s.tiles := by unfold State.modRing; split <;> simp
@[simp] theorem modRing_stk (c k : Nat) (f : SubRing → SubRing) : (s.modRing c k f).stk = s.stk := by unfold State.modRing; split <;> simp
@[simp] theorem modRing_dispCnt (c k : Nat) (f : SubRing → SubRing) : (s.modRing c k f).dispCnt = s.dispCnt := by unfold State.modRing; split <;> simp
@[simp] theorem modRing_marks (c k : Nat) (f : SubRing → SubRing) : (s.modRing c k f).marks = s.marks := by unfold State.modRing; split <;> simp
@[simp] theorem modRing_snaps (c k : Nat) (f : SubRing → SubRing) : (s.modRing c k f).snaps = s.snaps := by unfold State.modRing; split <;> simp
@[simp] theorem modRing_stallLimit (c k : Nat) (f : SubRing → SubRing) : (s.modRing c k f).stallLimit = s.stallLimit := by unfold State.modRing; split <;> simp
@[simp] theorem modRing_posts (c k : Nat) (f : SubRing → SubRing) : (s.modRing c k f).posts = s.posts := by unfold State.modRing; split <;> simp
@[simp] theorem modRing_unmaps (c k : Nat) (f : SubRing → SubRing) : (s.modRing c k f).unmaps = s.unmaps := by unfold State.modRing; split <;> simp
@[simp] theorem modRing_coh (c k : Nat) (f : SubRing → SubRing) : (s.modRing c k f).coh = s.coh := by unfold State.modRing; split <;> simp
@[simp] theorem modRing_sc (c k : Nat) (f : SubRing → SubRing) : (s.modRing c k f).sc = s.sc := by unfold State.modRing; split <;> simp
@[simp] theorem modRing_graftCaches (c k : Nat) (f : SubRing → SubRing) : (s.modRing c k f).graftCaches = s.graftCaches := by unfold State.modRing; split <;> simp
@[simp] theorem modRing_hubHome (c k : Nat) (f : SubRing → SubRing) : (s.modRing c k f).hubHome = s.hubHome := by unfold State.modRing; split <;> simp
@[simp] theorem modRing_stripes (c k : Nat) (f : SubRing → SubRing) : (s.modRing c k f).stripes = s.stripes := by unfold State.modRing; split <;> simp
@[simp] theorem modRing_guarded (c k : Nat) (f : SubRing → SubRing) : (s.modRing c k f).guarded = s.guarded := by unfold State.modRing; split <;> simp
@[simp] theorem modRing_routers (c k : Nat) (f : SubRing → SubRing) : (s.modRing c k f).routers = s.routers := by unfold State.modRing; split <;> simp
@[simp] theorem modRing_wires (c k : Nat) (f : SubRing → SubRing) : (s.modRing c k f).wires = s.wires := by unfold State.modRing; split <;> simp
@[simp] theorem modRing_lost (c k : Nat) (f : SubRing → SubRing) : (s.modRing c k f).lost = s.lost := by unfold State.modRing; split <;> simp
@[simp] theorem modRing_base (c k : Nat) (f : SubRing → SubRing) : (s.modRing c k f).base = s.base := by unfold State.modRing; split <;> simp
@[simp] theorem modRing_detours (c k : Nat) (f : SubRing → SubRing) : (s.modRing c k f).detours = s.detours := by unfold State.modRing; split <;> simp
@[simp] theorem modRing_masters (c k : Nat) (f : SubRing → SubRing) : (s.modRing c k f).masters = s.masters := by unfold State.modRing; split <;> simp
@[simp] theorem modRing_deadlines (c k : Nat) (f : SubRing → SubRing) : (s.modRing c k f).deadlines = s.deadlines := by unfold State.modRing; split <;> simp
@[simp] theorem modRing_urgHub (c k : Nat) (f : SubRing → SubRing) : (s.modRing c k f).urgHub = s.urgHub := by unfold State.modRing; split <;> simp
@[simp] theorem modRing_clsCmpts (c k : Nat) (f : SubRing → SubRing) : (s.modRing c k f).clsCmpts = s.clsCmpts := by unfold State.modRing; split <;> simp
@[simp] theorem modRing_clsKind (c k : Nat) (f : SubRing → SubRing) : (s.modRing c k f).clsKind = s.clsKind := by unfold State.modRing; split <;> simp
@[simp] theorem modRing_pci (c k : Nat) (f : SubRing → SubRing) : (s.modRing c k f).pci = s.pci := by unfold State.modRing; split <;> simp
@[simp] theorem modRing_sto (c k : Nat) (f : SubRing → SubRing) : (s.modRing c k f).sto = s.sto := by unfold State.modRing; split <;> simp
@[simp] theorem modRing_bed (c k : Nat) (f : SubRing → SubRing) : (s.modRing c k f).bed = s.bed := by unfold State.modRing; split <;> simp
@[simp] theorem modRing_fab (c k : Nat) (f : SubRing → SubRing) : (s.modRing c k f).fab = s.fab := by unfold State.modRing; split <;> simp
@[simp] theorem modRing_sites (c k : Nat) (f : SubRing → SubRing) : (s.modRing c k f).sites = s.sites := by unfold State.modRing; split <;> simp
@[simp] theorem modRing_conf (c k : Nat) (f : SubRing → SubRing) : (s.modRing c k f).conf = s.conf := by unfold State.modRing; split <;> simp
@[simp] theorem modRing_auth (c k : Nat) (f : SubRing → SubRing) : (s.modRing c k f).auth = s.auth := by unfold State.modRing; split <;> simp
@[simp] theorem modRing_upd (c k : Nat) (f : SubRing → SubRing) : (s.modRing c k f).upd = s.upd := by unfold State.modRing; split <;> simp
@[simp] theorem modRing_flt (c k : Nat) (f : SubRing → SubRing) : (s.modRing c k f).flt = s.flt := by unfold State.modRing; split <;> simp
@[simp] theorem modRing_pwr (c k : Nat) (f : SubRing → SubRing) : (s.modRing c k f).pwr = s.pwr := by unfold State.modRing; split <;> simp

@[simp] theorem modRouter_pending (d : Nat) (f : Router → Router) : (s.modRouter d f).pending = s.pending := by unfold State.modRouter; split <;> rfl
@[simp] theorem modRouter_serial (d : Nat) (f : Router → Router) : (s.modRouter d f).serial = s.serial := by unfold State.modRouter; split <;> rfl
@[simp] theorem modRouter_tick (d : Nat) (f : Router → Router) : (s.modRouter d f).tick = s.tick := by unfold State.modRouter; split <;> rfl
@[simp] theorem modRouter_bootDraw (d : Nat) (f : Router → Router) : (s.modRouter d f).bootDraw = s.bootDraw := by unfold State.modRouter; split <;> rfl
@[simp] theorem modRouter_out (d : Nat) (f : Router → Router) : (s.modRouter d f).out = s.out := by unfold State.modRouter; split <;> rfl
@[simp] theorem modRouter_inv (d : Nat) (f : Router → Router) : (s.modRouter d f).inv = s.inv := by unfold State.modRouter; split <;> rfl
@[simp] theorem modRouter_mem (d : Nat) (f : Router → Router) : (s.modRouter d f).mem = s.mem := by unfold State.modRouter; split <;> rfl
@[simp] theorem modRouter_poison (d : Nat) (f : Router → Router) : (s.modRouter d f).poison = s.poison := by unfold State.modRouter; split <;> rfl
@[simp] theorem modRouter_tiles (d : Nat) (f : Router → Router) : (s.modRouter d f).tiles = s.tiles := by unfold State.modRouter; split <;> rfl
@[simp] theorem modRouter_stk (d : Nat) (f : Router → Router) : (s.modRouter d f).stk = s.stk := by unfold State.modRouter; split <;> rfl
@[simp] theorem modRouter_cmpts (d : Nat) (f : Router → Router) : (s.modRouter d f).cmpts = s.cmpts := by unfold State.modRouter; split <;> rfl
@[simp] theorem modRouter_dispCnt (d : Nat) (f : Router → Router) : (s.modRouter d f).dispCnt = s.dispCnt := by unfold State.modRouter; split <;> rfl
@[simp] theorem modRouter_marks (d : Nat) (f : Router → Router) : (s.modRouter d f).marks = s.marks := by unfold State.modRouter; split <;> rfl
@[simp] theorem modRouter_snaps (d : Nat) (f : Router → Router) : (s.modRouter d f).snaps = s.snaps := by unfold State.modRouter; split <;> rfl
@[simp] theorem modRouter_stallLimit (d : Nat) (f : Router → Router) : (s.modRouter d f).stallLimit = s.stallLimit := by unfold State.modRouter; split <;> rfl
@[simp] theorem modRouter_posts (d : Nat) (f : Router → Router) : (s.modRouter d f).posts = s.posts := by unfold State.modRouter; split <;> rfl
@[simp] theorem modRouter_unmaps (d : Nat) (f : Router → Router) : (s.modRouter d f).unmaps = s.unmaps := by unfold State.modRouter; split <;> rfl
@[simp] theorem modRouter_coh (d : Nat) (f : Router → Router) : (s.modRouter d f).coh = s.coh := by unfold State.modRouter; split <;> rfl
@[simp] theorem modRouter_sc (d : Nat) (f : Router → Router) : (s.modRouter d f).sc = s.sc := by unfold State.modRouter; split <;> rfl
@[simp] theorem modRouter_graftCaches (d : Nat) (f : Router → Router) : (s.modRouter d f).graftCaches = s.graftCaches := by unfold State.modRouter; split <;> rfl
@[simp] theorem modRouter_hubHome (d : Nat) (f : Router → Router) : (s.modRouter d f).hubHome = s.hubHome := by unfold State.modRouter; split <;> rfl
@[simp] theorem modRouter_stripes (d : Nat) (f : Router → Router) : (s.modRouter d f).stripes = s.stripes := by unfold State.modRouter; split <;> rfl
@[simp] theorem modRouter_guarded (d : Nat) (f : Router → Router) : (s.modRouter d f).guarded = s.guarded := by unfold State.modRouter; split <;> rfl
@[simp] theorem modRouter_wires (d : Nat) (f : Router → Router) : (s.modRouter d f).wires = s.wires := by unfold State.modRouter; split <;> rfl
@[simp] theorem modRouter_lost (d : Nat) (f : Router → Router) : (s.modRouter d f).lost = s.lost := by unfold State.modRouter; split <;> rfl
@[simp] theorem modRouter_base (d : Nat) (f : Router → Router) : (s.modRouter d f).base = s.base := by unfold State.modRouter; split <;> rfl
@[simp] theorem modRouter_detours (d : Nat) (f : Router → Router) : (s.modRouter d f).detours = s.detours := by unfold State.modRouter; split <;> rfl
@[simp] theorem modRouter_masters (d : Nat) (f : Router → Router) : (s.modRouter d f).masters = s.masters := by unfold State.modRouter; split <;> rfl
@[simp] theorem modRouter_deadlines (d : Nat) (f : Router → Router) : (s.modRouter d f).deadlines = s.deadlines := by unfold State.modRouter; split <;> rfl
@[simp] theorem modRouter_urgHub (d : Nat) (f : Router → Router) : (s.modRouter d f).urgHub = s.urgHub := by unfold State.modRouter; split <;> rfl
@[simp] theorem modRouter_clsCmpts (d : Nat) (f : Router → Router) : (s.modRouter d f).clsCmpts = s.clsCmpts := by unfold State.modRouter; split <;> rfl
@[simp] theorem modRouter_clsKind (d : Nat) (f : Router → Router) : (s.modRouter d f).clsKind = s.clsKind := by unfold State.modRouter; split <;> rfl
@[simp] theorem modRouter_pci (d : Nat) (f : Router → Router) : (s.modRouter d f).pci = s.pci := by unfold State.modRouter; split <;> rfl
@[simp] theorem modRouter_sto (d : Nat) (f : Router → Router) : (s.modRouter d f).sto = s.sto := by unfold State.modRouter; split <;> rfl
@[simp] theorem modRouter_bed (d : Nat) (f : Router → Router) : (s.modRouter d f).bed = s.bed := by unfold State.modRouter; split <;> rfl
@[simp] theorem modRouter_fab (d : Nat) (f : Router → Router) : (s.modRouter d f).fab = s.fab := by unfold State.modRouter; split <;> rfl
@[simp] theorem modRouter_sites (d : Nat) (f : Router → Router) : (s.modRouter d f).sites = s.sites := by unfold State.modRouter; split <;> rfl
@[simp] theorem modRouter_conf (d : Nat) (f : Router → Router) : (s.modRouter d f).conf = s.conf := by unfold State.modRouter; split <;> rfl
@[simp] theorem modRouter_auth (d : Nat) (f : Router → Router) : (s.modRouter d f).auth = s.auth := by unfold State.modRouter; split <;> rfl
@[simp] theorem modRouter_upd (d : Nat) (f : Router → Router) : (s.modRouter d f).upd = s.upd := by unfold State.modRouter; split <;> rfl
@[simp] theorem modRouter_flt (d : Nat) (f : Router → Router) : (s.modRouter d f).flt = s.flt := by unfold State.modRouter; split <;> rfl
@[simp] theorem modRouter_pwr (d : Nat) (f : Router → Router) : (s.modRouter d f).pwr = s.pwr := by unfold State.modRouter; split <;> rfl

@[simp] theorem modSite_pending (k : Nat) (f : Site → Site) : (s.modSite k f).pending = s.pending := by unfold State.modSite; split <;> rfl
@[simp] theorem modSite_serial (k : Nat) (f : Site → Site) : (s.modSite k f).serial = s.serial := by unfold State.modSite; split <;> rfl
@[simp] theorem modSite_tick (k : Nat) (f : Site → Site) : (s.modSite k f).tick = s.tick := by unfold State.modSite; split <;> rfl
@[simp] theorem modSite_bootDraw (k : Nat) (f : Site → Site) : (s.modSite k f).bootDraw = s.bootDraw := by unfold State.modSite; split <;> rfl
@[simp] theorem modSite_out (k : Nat) (f : Site → Site) : (s.modSite k f).out = s.out := by unfold State.modSite; split <;> rfl
@[simp] theorem modSite_inv (k : Nat) (f : Site → Site) : (s.modSite k f).inv = s.inv := by unfold State.modSite; split <;> rfl
@[simp] theorem modSite_mem (k : Nat) (f : Site → Site) : (s.modSite k f).mem = s.mem := by unfold State.modSite; split <;> rfl
@[simp] theorem modSite_poison (k : Nat) (f : Site → Site) : (s.modSite k f).poison = s.poison := by unfold State.modSite; split <;> rfl
@[simp] theorem modSite_tiles (k : Nat) (f : Site → Site) : (s.modSite k f).tiles = s.tiles := by unfold State.modSite; split <;> rfl
@[simp] theorem modSite_stk (k : Nat) (f : Site → Site) : (s.modSite k f).stk = s.stk := by unfold State.modSite; split <;> rfl
@[simp] theorem modSite_cmpts (k : Nat) (f : Site → Site) : (s.modSite k f).cmpts = s.cmpts := by unfold State.modSite; split <;> rfl
@[simp] theorem modSite_dispCnt (k : Nat) (f : Site → Site) : (s.modSite k f).dispCnt = s.dispCnt := by unfold State.modSite; split <;> rfl
@[simp] theorem modSite_marks (k : Nat) (f : Site → Site) : (s.modSite k f).marks = s.marks := by unfold State.modSite; split <;> rfl
@[simp] theorem modSite_snaps (k : Nat) (f : Site → Site) : (s.modSite k f).snaps = s.snaps := by unfold State.modSite; split <;> rfl
@[simp] theorem modSite_stallLimit (k : Nat) (f : Site → Site) : (s.modSite k f).stallLimit = s.stallLimit := by unfold State.modSite; split <;> rfl
@[simp] theorem modSite_posts (k : Nat) (f : Site → Site) : (s.modSite k f).posts = s.posts := by unfold State.modSite; split <;> rfl
@[simp] theorem modSite_unmaps (k : Nat) (f : Site → Site) : (s.modSite k f).unmaps = s.unmaps := by unfold State.modSite; split <;> rfl
@[simp] theorem modSite_coh (k : Nat) (f : Site → Site) : (s.modSite k f).coh = s.coh := by unfold State.modSite; split <;> rfl
@[simp] theorem modSite_sc (k : Nat) (f : Site → Site) : (s.modSite k f).sc = s.sc := by unfold State.modSite; split <;> rfl
@[simp] theorem modSite_graftCaches (k : Nat) (f : Site → Site) : (s.modSite k f).graftCaches = s.graftCaches := by unfold State.modSite; split <;> rfl
@[simp] theorem modSite_hubHome (k : Nat) (f : Site → Site) : (s.modSite k f).hubHome = s.hubHome := by unfold State.modSite; split <;> rfl
@[simp] theorem modSite_stripes (k : Nat) (f : Site → Site) : (s.modSite k f).stripes = s.stripes := by unfold State.modSite; split <;> rfl
@[simp] theorem modSite_guarded (k : Nat) (f : Site → Site) : (s.modSite k f).guarded = s.guarded := by unfold State.modSite; split <;> rfl
@[simp] theorem modSite_routers (k : Nat) (f : Site → Site) : (s.modSite k f).routers = s.routers := by unfold State.modSite; split <;> rfl
@[simp] theorem modSite_wires (k : Nat) (f : Site → Site) : (s.modSite k f).wires = s.wires := by unfold State.modSite; split <;> rfl
@[simp] theorem modSite_lost (k : Nat) (f : Site → Site) : (s.modSite k f).lost = s.lost := by unfold State.modSite; split <;> rfl
@[simp] theorem modSite_base (k : Nat) (f : Site → Site) : (s.modSite k f).base = s.base := by unfold State.modSite; split <;> rfl
@[simp] theorem modSite_detours (k : Nat) (f : Site → Site) : (s.modSite k f).detours = s.detours := by unfold State.modSite; split <;> rfl
@[simp] theorem modSite_masters (k : Nat) (f : Site → Site) : (s.modSite k f).masters = s.masters := by unfold State.modSite; split <;> rfl
@[simp] theorem modSite_deadlines (k : Nat) (f : Site → Site) : (s.modSite k f).deadlines = s.deadlines := by unfold State.modSite; split <;> rfl
@[simp] theorem modSite_urgHub (k : Nat) (f : Site → Site) : (s.modSite k f).urgHub = s.urgHub := by unfold State.modSite; split <;> rfl
@[simp] theorem modSite_clsCmpts (k : Nat) (f : Site → Site) : (s.modSite k f).clsCmpts = s.clsCmpts := by unfold State.modSite; split <;> rfl
@[simp] theorem modSite_clsKind (k : Nat) (f : Site → Site) : (s.modSite k f).clsKind = s.clsKind := by unfold State.modSite; split <;> rfl
@[simp] theorem modSite_pci (k : Nat) (f : Site → Site) : (s.modSite k f).pci = s.pci := by unfold State.modSite; split <;> rfl
@[simp] theorem modSite_sto (k : Nat) (f : Site → Site) : (s.modSite k f).sto = s.sto := by unfold State.modSite; split <;> rfl
@[simp] theorem modSite_bed (k : Nat) (f : Site → Site) : (s.modSite k f).bed = s.bed := by unfold State.modSite; split <;> rfl
@[simp] theorem modSite_fab (k : Nat) (f : Site → Site) : (s.modSite k f).fab = s.fab := by unfold State.modSite; split <;> rfl
@[simp] theorem modSite_conf (k : Nat) (f : Site → Site) : (s.modSite k f).conf = s.conf := by unfold State.modSite; split <;> rfl
@[simp] theorem modSite_auth (k : Nat) (f : Site → Site) : (s.modSite k f).auth = s.auth := by unfold State.modSite; split <;> rfl
@[simp] theorem modSite_upd (k : Nat) (f : Site → Site) : (s.modSite k f).upd = s.upd := by unfold State.modSite; split <;> rfl
@[simp] theorem modSite_flt (k : Nat) (f : Site → Site) : (s.modSite k f).flt = s.flt := by unfold State.modSite; split <;> rfl
@[simp] theorem modSite_pwr (k : Nat) (f : Site → Site) : (s.modSite k f).pwr = s.pwr := by unfold State.modSite; split <;> rfl

@[simp] theorem modFport_pending (p : Nat) (f : FabPort → FabPort) : (s.modFport p f).pending = s.pending := by unfold State.modFport; split <;> rfl
@[simp] theorem modFport_serial (p : Nat) (f : FabPort → FabPort) : (s.modFport p f).serial = s.serial := by unfold State.modFport; split <;> rfl
@[simp] theorem modFport_tick (p : Nat) (f : FabPort → FabPort) : (s.modFport p f).tick = s.tick := by unfold State.modFport; split <;> rfl
@[simp] theorem modFport_bootDraw (p : Nat) (f : FabPort → FabPort) : (s.modFport p f).bootDraw = s.bootDraw := by unfold State.modFport; split <;> rfl
@[simp] theorem modFport_out (p : Nat) (f : FabPort → FabPort) : (s.modFport p f).out = s.out := by unfold State.modFport; split <;> rfl
@[simp] theorem modFport_inv (p : Nat) (f : FabPort → FabPort) : (s.modFport p f).inv = s.inv := by unfold State.modFport; split <;> rfl
@[simp] theorem modFport_mem (p : Nat) (f : FabPort → FabPort) : (s.modFport p f).mem = s.mem := by unfold State.modFport; split <;> rfl
@[simp] theorem modFport_poison (p : Nat) (f : FabPort → FabPort) : (s.modFport p f).poison = s.poison := by unfold State.modFport; split <;> rfl
@[simp] theorem modFport_tiles (p : Nat) (f : FabPort → FabPort) : (s.modFport p f).tiles = s.tiles := by unfold State.modFport; split <;> rfl
@[simp] theorem modFport_stk (p : Nat) (f : FabPort → FabPort) : (s.modFport p f).stk = s.stk := by unfold State.modFport; split <;> rfl
@[simp] theorem modFport_cmpts (p : Nat) (f : FabPort → FabPort) : (s.modFport p f).cmpts = s.cmpts := by unfold State.modFport; split <;> rfl
@[simp] theorem modFport_dispCnt (p : Nat) (f : FabPort → FabPort) : (s.modFport p f).dispCnt = s.dispCnt := by unfold State.modFport; split <;> rfl
@[simp] theorem modFport_marks (p : Nat) (f : FabPort → FabPort) : (s.modFport p f).marks = s.marks := by unfold State.modFport; split <;> rfl
@[simp] theorem modFport_snaps (p : Nat) (f : FabPort → FabPort) : (s.modFport p f).snaps = s.snaps := by unfold State.modFport; split <;> rfl
@[simp] theorem modFport_stallLimit (p : Nat) (f : FabPort → FabPort) : (s.modFport p f).stallLimit = s.stallLimit := by unfold State.modFport; split <;> rfl
@[simp] theorem modFport_posts (p : Nat) (f : FabPort → FabPort) : (s.modFport p f).posts = s.posts := by unfold State.modFport; split <;> rfl
@[simp] theorem modFport_unmaps (p : Nat) (f : FabPort → FabPort) : (s.modFport p f).unmaps = s.unmaps := by unfold State.modFport; split <;> rfl
@[simp] theorem modFport_coh (p : Nat) (f : FabPort → FabPort) : (s.modFport p f).coh = s.coh := by unfold State.modFport; split <;> rfl
@[simp] theorem modFport_sc (p : Nat) (f : FabPort → FabPort) : (s.modFport p f).sc = s.sc := by unfold State.modFport; split <;> rfl
@[simp] theorem modFport_graftCaches (p : Nat) (f : FabPort → FabPort) : (s.modFport p f).graftCaches = s.graftCaches := by unfold State.modFport; split <;> rfl
@[simp] theorem modFport_hubHome (p : Nat) (f : FabPort → FabPort) : (s.modFport p f).hubHome = s.hubHome := by unfold State.modFport; split <;> rfl
@[simp] theorem modFport_stripes (p : Nat) (f : FabPort → FabPort) : (s.modFport p f).stripes = s.stripes := by unfold State.modFport; split <;> rfl
@[simp] theorem modFport_guarded (p : Nat) (f : FabPort → FabPort) : (s.modFport p f).guarded = s.guarded := by unfold State.modFport; split <;> rfl
@[simp] theorem modFport_routers (p : Nat) (f : FabPort → FabPort) : (s.modFport p f).routers = s.routers := by unfold State.modFport; split <;> rfl
@[simp] theorem modFport_wires (p : Nat) (f : FabPort → FabPort) : (s.modFport p f).wires = s.wires := by unfold State.modFport; split <;> rfl
@[simp] theorem modFport_lost (p : Nat) (f : FabPort → FabPort) : (s.modFport p f).lost = s.lost := by unfold State.modFport; split <;> rfl
@[simp] theorem modFport_base (p : Nat) (f : FabPort → FabPort) : (s.modFport p f).base = s.base := by unfold State.modFport; split <;> rfl
@[simp] theorem modFport_detours (p : Nat) (f : FabPort → FabPort) : (s.modFport p f).detours = s.detours := by unfold State.modFport; split <;> rfl
@[simp] theorem modFport_masters (p : Nat) (f : FabPort → FabPort) : (s.modFport p f).masters = s.masters := by unfold State.modFport; split <;> rfl
@[simp] theorem modFport_deadlines (p : Nat) (f : FabPort → FabPort) : (s.modFport p f).deadlines = s.deadlines := by unfold State.modFport; split <;> rfl
@[simp] theorem modFport_urgHub (p : Nat) (f : FabPort → FabPort) : (s.modFport p f).urgHub = s.urgHub := by unfold State.modFport; split <;> rfl
@[simp] theorem modFport_clsCmpts (p : Nat) (f : FabPort → FabPort) : (s.modFport p f).clsCmpts = s.clsCmpts := by unfold State.modFport; split <;> rfl
@[simp] theorem modFport_clsKind (p : Nat) (f : FabPort → FabPort) : (s.modFport p f).clsKind = s.clsKind := by unfold State.modFport; split <;> rfl
@[simp] theorem modFport_pci (p : Nat) (f : FabPort → FabPort) : (s.modFport p f).pci = s.pci := by unfold State.modFport; split <;> rfl
@[simp] theorem modFport_sto (p : Nat) (f : FabPort → FabPort) : (s.modFport p f).sto = s.sto := by unfold State.modFport; split <;> rfl
@[simp] theorem modFport_bed (p : Nat) (f : FabPort → FabPort) : (s.modFport p f).bed = s.bed := by unfold State.modFport; split <;> rfl
@[simp] theorem modFport_sites (p : Nat) (f : FabPort → FabPort) : (s.modFport p f).sites = s.sites := by unfold State.modFport; split <;> rfl
@[simp] theorem modFport_conf (p : Nat) (f : FabPort → FabPort) : (s.modFport p f).conf = s.conf := by unfold State.modFport; split <;> rfl
@[simp] theorem modFport_auth (p : Nat) (f : FabPort → FabPort) : (s.modFport p f).auth = s.auth := by unfold State.modFport; split <;> rfl
@[simp] theorem modFport_upd (p : Nat) (f : FabPort → FabPort) : (s.modFport p f).upd = s.upd := by unfold State.modFport; split <;> rfl
@[simp] theorem modFport_flt (p : Nat) (f : FabPort → FabPort) : (s.modFport p f).flt = s.flt := by unfold State.modFport; split <;> rfl
@[simp] theorem modFport_pwr (p : Nat) (f : FabPort → FabPort) : (s.modFport p f).pwr = s.pwr := by unfold State.modFport; split <;> rfl

@[simp] theorem modDrive_pending (d : Nat) (f : Drive → Drive) : (s.modDrive d f).pending = s.pending := by unfold State.modDrive; split <;> rfl
@[simp] theorem modDrive_serial (d : Nat) (f : Drive → Drive) : (s.modDrive d f).serial = s.serial := by unfold State.modDrive; split <;> rfl
@[simp] theorem modDrive_tick (d : Nat) (f : Drive → Drive) : (s.modDrive d f).tick = s.tick := by unfold State.modDrive; split <;> rfl
@[simp] theorem modDrive_bootDraw (d : Nat) (f : Drive → Drive) : (s.modDrive d f).bootDraw = s.bootDraw := by unfold State.modDrive; split <;> rfl
@[simp] theorem modDrive_out (d : Nat) (f : Drive → Drive) : (s.modDrive d f).out = s.out := by unfold State.modDrive; split <;> rfl
@[simp] theorem modDrive_inv (d : Nat) (f : Drive → Drive) : (s.modDrive d f).inv = s.inv := by unfold State.modDrive; split <;> rfl
@[simp] theorem modDrive_mem (d : Nat) (f : Drive → Drive) : (s.modDrive d f).mem = s.mem := by unfold State.modDrive; split <;> rfl
@[simp] theorem modDrive_poison (d : Nat) (f : Drive → Drive) : (s.modDrive d f).poison = s.poison := by unfold State.modDrive; split <;> rfl
@[simp] theorem modDrive_tiles (d : Nat) (f : Drive → Drive) : (s.modDrive d f).tiles = s.tiles := by unfold State.modDrive; split <;> rfl
@[simp] theorem modDrive_stk (d : Nat) (f : Drive → Drive) : (s.modDrive d f).stk = s.stk := by unfold State.modDrive; split <;> rfl
@[simp] theorem modDrive_cmpts (d : Nat) (f : Drive → Drive) : (s.modDrive d f).cmpts = s.cmpts := by unfold State.modDrive; split <;> rfl
@[simp] theorem modDrive_dispCnt (d : Nat) (f : Drive → Drive) : (s.modDrive d f).dispCnt = s.dispCnt := by unfold State.modDrive; split <;> rfl
@[simp] theorem modDrive_marks (d : Nat) (f : Drive → Drive) : (s.modDrive d f).marks = s.marks := by unfold State.modDrive; split <;> rfl
@[simp] theorem modDrive_snaps (d : Nat) (f : Drive → Drive) : (s.modDrive d f).snaps = s.snaps := by unfold State.modDrive; split <;> rfl
@[simp] theorem modDrive_stallLimit (d : Nat) (f : Drive → Drive) : (s.modDrive d f).stallLimit = s.stallLimit := by unfold State.modDrive; split <;> rfl
@[simp] theorem modDrive_posts (d : Nat) (f : Drive → Drive) : (s.modDrive d f).posts = s.posts := by unfold State.modDrive; split <;> rfl
@[simp] theorem modDrive_unmaps (d : Nat) (f : Drive → Drive) : (s.modDrive d f).unmaps = s.unmaps := by unfold State.modDrive; split <;> rfl
@[simp] theorem modDrive_coh (d : Nat) (f : Drive → Drive) : (s.modDrive d f).coh = s.coh := by unfold State.modDrive; split <;> rfl
@[simp] theorem modDrive_sc (d : Nat) (f : Drive → Drive) : (s.modDrive d f).sc = s.sc := by unfold State.modDrive; split <;> rfl
@[simp] theorem modDrive_graftCaches (d : Nat) (f : Drive → Drive) : (s.modDrive d f).graftCaches = s.graftCaches := by unfold State.modDrive; split <;> rfl
@[simp] theorem modDrive_hubHome (d : Nat) (f : Drive → Drive) : (s.modDrive d f).hubHome = s.hubHome := by unfold State.modDrive; split <;> rfl
@[simp] theorem modDrive_stripes (d : Nat) (f : Drive → Drive) : (s.modDrive d f).stripes = s.stripes := by unfold State.modDrive; split <;> rfl
@[simp] theorem modDrive_guarded (d : Nat) (f : Drive → Drive) : (s.modDrive d f).guarded = s.guarded := by unfold State.modDrive; split <;> rfl
@[simp] theorem modDrive_routers (d : Nat) (f : Drive → Drive) : (s.modDrive d f).routers = s.routers := by unfold State.modDrive; split <;> rfl
@[simp] theorem modDrive_wires (d : Nat) (f : Drive → Drive) : (s.modDrive d f).wires = s.wires := by unfold State.modDrive; split <;> rfl
@[simp] theorem modDrive_lost (d : Nat) (f : Drive → Drive) : (s.modDrive d f).lost = s.lost := by unfold State.modDrive; split <;> rfl
@[simp] theorem modDrive_base (d : Nat) (f : Drive → Drive) : (s.modDrive d f).base = s.base := by unfold State.modDrive; split <;> rfl
@[simp] theorem modDrive_detours (d : Nat) (f : Drive → Drive) : (s.modDrive d f).detours = s.detours := by unfold State.modDrive; split <;> rfl
@[simp] theorem modDrive_masters (d : Nat) (f : Drive → Drive) : (s.modDrive d f).masters = s.masters := by unfold State.modDrive; split <;> rfl
@[simp] theorem modDrive_deadlines (d : Nat) (f : Drive → Drive) : (s.modDrive d f).deadlines = s.deadlines := by unfold State.modDrive; split <;> rfl
@[simp] theorem modDrive_urgHub (d : Nat) (f : Drive → Drive) : (s.modDrive d f).urgHub = s.urgHub := by unfold State.modDrive; split <;> rfl
@[simp] theorem modDrive_clsCmpts (d : Nat) (f : Drive → Drive) : (s.modDrive d f).clsCmpts = s.clsCmpts := by unfold State.modDrive; split <;> rfl
@[simp] theorem modDrive_clsKind (d : Nat) (f : Drive → Drive) : (s.modDrive d f).clsKind = s.clsKind := by unfold State.modDrive; split <;> rfl
@[simp] theorem modDrive_pci (d : Nat) (f : Drive → Drive) : (s.modDrive d f).pci = s.pci := by unfold State.modDrive; split <;> rfl
@[simp] theorem modDrive_bed (d : Nat) (f : Drive → Drive) : (s.modDrive d f).bed = s.bed := by unfold State.modDrive; split <;> rfl
@[simp] theorem modDrive_fab (d : Nat) (f : Drive → Drive) : (s.modDrive d f).fab = s.fab := by unfold State.modDrive; split <;> rfl
@[simp] theorem modDrive_sites (d : Nat) (f : Drive → Drive) : (s.modDrive d f).sites = s.sites := by unfold State.modDrive; split <;> rfl
@[simp] theorem modDrive_conf (d : Nat) (f : Drive → Drive) : (s.modDrive d f).conf = s.conf := by unfold State.modDrive; split <;> rfl
@[simp] theorem modDrive_auth (d : Nat) (f : Drive → Drive) : (s.modDrive d f).auth = s.auth := by unfold State.modDrive; split <;> rfl
@[simp] theorem modDrive_upd (d : Nat) (f : Drive → Drive) : (s.modDrive d f).upd = s.upd := by unfold State.modDrive; split <;> rfl
@[simp] theorem modDrive_flt (d : Nat) (f : Drive → Drive) : (s.modDrive d f).flt = s.flt := by unfold State.modDrive; split <;> rfl
@[simp] theorem modDrive_pwr (d : Nat) (f : Drive → Drive) : (s.modDrive d f).pwr = s.pwr := by unfold State.modDrive; split <;> rfl

@[simp] theorem setCounter_pending (u : CtrUnit) (i : Nat) (v : BitVec 16) : (s.setCounter u i v).pending = s.pending := by cases u <;> unfold State.setCounter <;> split <;> simp
@[simp] theorem setCounter_serial (u : CtrUnit) (i : Nat) (v : BitVec 16) : (s.setCounter u i v).serial = s.serial := by cases u <;> unfold State.setCounter <;> split <;> simp
@[simp] theorem setCounter_tick (u : CtrUnit) (i : Nat) (v : BitVec 16) : (s.setCounter u i v).tick = s.tick := by cases u <;> unfold State.setCounter <;> split <;> simp
@[simp] theorem setCounter_bootDraw (u : CtrUnit) (i : Nat) (v : BitVec 16) : (s.setCounter u i v).bootDraw = s.bootDraw := by cases u <;> unfold State.setCounter <;> split <;> simp
@[simp] theorem setCounter_out (u : CtrUnit) (i : Nat) (v : BitVec 16) : (s.setCounter u i v).out = s.out := by cases u <;> unfold State.setCounter <;> split <;> simp
@[simp] theorem setCounter_inv (u : CtrUnit) (i : Nat) (v : BitVec 16) : (s.setCounter u i v).inv = s.inv := by cases u <;> unfold State.setCounter <;> split <;> simp
@[simp] theorem setCounter_mem (u : CtrUnit) (i : Nat) (v : BitVec 16) : (s.setCounter u i v).mem = s.mem := by cases u <;> unfold State.setCounter <;> split <;> simp
@[simp] theorem setCounter_poison (u : CtrUnit) (i : Nat) (v : BitVec 16) : (s.setCounter u i v).poison = s.poison := by cases u <;> unfold State.setCounter <;> split <;> simp
@[simp] theorem setCounter_marks (u : CtrUnit) (i : Nat) (v : BitVec 16) : (s.setCounter u i v).marks = s.marks := by cases u <;> unfold State.setCounter <;> split <;> simp
@[simp] theorem setCounter_snaps (u : CtrUnit) (i : Nat) (v : BitVec 16) : (s.setCounter u i v).snaps = s.snaps := by cases u <;> unfold State.setCounter <;> split <;> simp
@[simp] theorem setCounter_stallLimit (u : CtrUnit) (i : Nat) (v : BitVec 16) : (s.setCounter u i v).stallLimit = s.stallLimit := by cases u <;> unfold State.setCounter <;> split <;> simp
@[simp] theorem setCounter_posts (u : CtrUnit) (i : Nat) (v : BitVec 16) : (s.setCounter u i v).posts = s.posts := by cases u <;> unfold State.setCounter <;> split <;> simp
@[simp] theorem setCounter_unmaps (u : CtrUnit) (i : Nat) (v : BitVec 16) : (s.setCounter u i v).unmaps = s.unmaps := by cases u <;> unfold State.setCounter <;> split <;> simp
@[simp] theorem setCounter_coh (u : CtrUnit) (i : Nat) (v : BitVec 16) : (s.setCounter u i v).coh = s.coh := by cases u <;> unfold State.setCounter <;> split <;> simp
@[simp] theorem setCounter_sc (u : CtrUnit) (i : Nat) (v : BitVec 16) : (s.setCounter u i v).sc = s.sc := by cases u <;> unfold State.setCounter <;> split <;> simp
@[simp] theorem setCounter_graftCaches (u : CtrUnit) (i : Nat) (v : BitVec 16) : (s.setCounter u i v).graftCaches = s.graftCaches := by cases u <;> unfold State.setCounter <;> split <;> simp
@[simp] theorem setCounter_hubHome (u : CtrUnit) (i : Nat) (v : BitVec 16) : (s.setCounter u i v).hubHome = s.hubHome := by cases u <;> unfold State.setCounter <;> split <;> simp
@[simp] theorem setCounter_stripes (u : CtrUnit) (i : Nat) (v : BitVec 16) : (s.setCounter u i v).stripes = s.stripes := by cases u <;> unfold State.setCounter <;> split <;> simp
@[simp] theorem setCounter_guarded (u : CtrUnit) (i : Nat) (v : BitVec 16) : (s.setCounter u i v).guarded = s.guarded := by cases u <;> unfold State.setCounter <;> split <;> simp
@[simp] theorem setCounter_routers (u : CtrUnit) (i : Nat) (v : BitVec 16) : (s.setCounter u i v).routers = s.routers := by cases u <;> unfold State.setCounter <;> split <;> simp
@[simp] theorem setCounter_wires (u : CtrUnit) (i : Nat) (v : BitVec 16) : (s.setCounter u i v).wires = s.wires := by cases u <;> unfold State.setCounter <;> split <;> simp
@[simp] theorem setCounter_lost (u : CtrUnit) (i : Nat) (v : BitVec 16) : (s.setCounter u i v).lost = s.lost := by cases u <;> unfold State.setCounter <;> split <;> simp
@[simp] theorem setCounter_base (u : CtrUnit) (i : Nat) (v : BitVec 16) : (s.setCounter u i v).base = s.base := by cases u <;> unfold State.setCounter <;> split <;> simp
@[simp] theorem setCounter_detours (u : CtrUnit) (i : Nat) (v : BitVec 16) : (s.setCounter u i v).detours = s.detours := by cases u <;> unfold State.setCounter <;> split <;> simp
@[simp] theorem setCounter_masters (u : CtrUnit) (i : Nat) (v : BitVec 16) : (s.setCounter u i v).masters = s.masters := by cases u <;> unfold State.setCounter <;> split <;> simp
@[simp] theorem setCounter_deadlines (u : CtrUnit) (i : Nat) (v : BitVec 16) : (s.setCounter u i v).deadlines = s.deadlines := by cases u <;> unfold State.setCounter <;> split <;> simp
@[simp] theorem setCounter_urgHub (u : CtrUnit) (i : Nat) (v : BitVec 16) : (s.setCounter u i v).urgHub = s.urgHub := by cases u <;> unfold State.setCounter <;> split <;> simp
@[simp] theorem setCounter_clsCmpts (u : CtrUnit) (i : Nat) (v : BitVec 16) : (s.setCounter u i v).clsCmpts = s.clsCmpts := by cases u <;> unfold State.setCounter <;> split <;> simp
@[simp] theorem setCounter_clsKind (u : CtrUnit) (i : Nat) (v : BitVec 16) : (s.setCounter u i v).clsKind = s.clsKind := by cases u <;> unfold State.setCounter <;> split <;> simp
@[simp] theorem setCounter_pci (u : CtrUnit) (i : Nat) (v : BitVec 16) : (s.setCounter u i v).pci = s.pci := by cases u <;> unfold State.setCounter <;> split <;> simp
@[simp] theorem setCounter_sto (u : CtrUnit) (i : Nat) (v : BitVec 16) : (s.setCounter u i v).sto = s.sto := by cases u <;> unfold State.setCounter <;> split <;> simp
@[simp] theorem setCounter_bed (u : CtrUnit) (i : Nat) (v : BitVec 16) : (s.setCounter u i v).bed = s.bed := by cases u <;> unfold State.setCounter <;> split <;> simp
@[simp] theorem setCounter_fab (u : CtrUnit) (i : Nat) (v : BitVec 16) : (s.setCounter u i v).fab = s.fab := by cases u <;> unfold State.setCounter <;> split <;> simp
@[simp] theorem setCounter_sites (u : CtrUnit) (i : Nat) (v : BitVec 16) : (s.setCounter u i v).sites = s.sites := by cases u <;> unfold State.setCounter <;> split <;> simp
@[simp] theorem setCounter_conf (u : CtrUnit) (i : Nat) (v : BitVec 16) : (s.setCounter u i v).conf = s.conf := by cases u <;> unfold State.setCounter <;> split <;> simp
@[simp] theorem setCounter_auth (u : CtrUnit) (i : Nat) (v : BitVec 16) : (s.setCounter u i v).auth = s.auth := by cases u <;> unfold State.setCounter <;> split <;> simp
@[simp] theorem setCounter_upd (u : CtrUnit) (i : Nat) (v : BitVec 16) : (s.setCounter u i v).upd = s.upd := by cases u <;> unfold State.setCounter <;> split <;> simp
@[simp] theorem setCounter_flt (u : CtrUnit) (i : Nat) (v : BitVec 16) : (s.setCounter u i v).flt = s.flt := by cases u <;> unfold State.setCounter <;> split <;> simp
@[simp] theorem setCounter_pwr (u : CtrUnit) (i : Nat) (v : BitVec 16) : (s.setCounter u i v).pwr = s.pwr := by cases u <;> unfold State.setCounter <;> split <;> simp

@[simp] theorem addCounter_pending (u : CtrUnit) (i n : Nat) : (s.addCounter u i n).pending = s.pending := by simp [State.addCounter]
@[simp] theorem addCounter_serial (u : CtrUnit) (i n : Nat) : (s.addCounter u i n).serial = s.serial := by simp [State.addCounter]
@[simp] theorem addCounter_tick (u : CtrUnit) (i n : Nat) : (s.addCounter u i n).tick = s.tick := by simp [State.addCounter]
@[simp] theorem addCounter_bootDraw (u : CtrUnit) (i n : Nat) : (s.addCounter u i n).bootDraw = s.bootDraw := by simp [State.addCounter]
@[simp] theorem addCounter_out (u : CtrUnit) (i n : Nat) : (s.addCounter u i n).out = s.out := by simp [State.addCounter]
@[simp] theorem addCounter_inv (u : CtrUnit) (i n : Nat) : (s.addCounter u i n).inv = s.inv := by simp [State.addCounter]
@[simp] theorem addCounter_mem (u : CtrUnit) (i n : Nat) : (s.addCounter u i n).mem = s.mem := by simp [State.addCounter]
@[simp] theorem addCounter_poison (u : CtrUnit) (i n : Nat) : (s.addCounter u i n).poison = s.poison := by simp [State.addCounter]
@[simp] theorem addCounter_marks (u : CtrUnit) (i n : Nat) : (s.addCounter u i n).marks = s.marks := by simp [State.addCounter]
@[simp] theorem addCounter_snaps (u : CtrUnit) (i n : Nat) : (s.addCounter u i n).snaps = s.snaps := by simp [State.addCounter]
@[simp] theorem addCounter_stallLimit (u : CtrUnit) (i n : Nat) : (s.addCounter u i n).stallLimit = s.stallLimit := by simp [State.addCounter]
@[simp] theorem addCounter_posts (u : CtrUnit) (i n : Nat) : (s.addCounter u i n).posts = s.posts := by simp [State.addCounter]
@[simp] theorem addCounter_unmaps (u : CtrUnit) (i n : Nat) : (s.addCounter u i n).unmaps = s.unmaps := by simp [State.addCounter]
@[simp] theorem addCounter_coh (u : CtrUnit) (i n : Nat) : (s.addCounter u i n).coh = s.coh := by simp [State.addCounter]
@[simp] theorem addCounter_sc (u : CtrUnit) (i n : Nat) : (s.addCounter u i n).sc = s.sc := by simp [State.addCounter]
@[simp] theorem addCounter_graftCaches (u : CtrUnit) (i n : Nat) : (s.addCounter u i n).graftCaches = s.graftCaches := by simp [State.addCounter]
@[simp] theorem addCounter_hubHome (u : CtrUnit) (i n : Nat) : (s.addCounter u i n).hubHome = s.hubHome := by simp [State.addCounter]
@[simp] theorem addCounter_stripes (u : CtrUnit) (i n : Nat) : (s.addCounter u i n).stripes = s.stripes := by simp [State.addCounter]
@[simp] theorem addCounter_guarded (u : CtrUnit) (i n : Nat) : (s.addCounter u i n).guarded = s.guarded := by simp [State.addCounter]
@[simp] theorem addCounter_routers (u : CtrUnit) (i n : Nat) : (s.addCounter u i n).routers = s.routers := by simp [State.addCounter]
@[simp] theorem addCounter_wires (u : CtrUnit) (i n : Nat) : (s.addCounter u i n).wires = s.wires := by simp [State.addCounter]
@[simp] theorem addCounter_lost (u : CtrUnit) (i n : Nat) : (s.addCounter u i n).lost = s.lost := by simp [State.addCounter]
@[simp] theorem addCounter_base (u : CtrUnit) (i n : Nat) : (s.addCounter u i n).base = s.base := by simp [State.addCounter]
@[simp] theorem addCounter_detours (u : CtrUnit) (i n : Nat) : (s.addCounter u i n).detours = s.detours := by simp [State.addCounter]
@[simp] theorem addCounter_masters (u : CtrUnit) (i n : Nat) : (s.addCounter u i n).masters = s.masters := by simp [State.addCounter]
@[simp] theorem addCounter_deadlines (u : CtrUnit) (i n : Nat) : (s.addCounter u i n).deadlines = s.deadlines := by simp [State.addCounter]
@[simp] theorem addCounter_urgHub (u : CtrUnit) (i n : Nat) : (s.addCounter u i n).urgHub = s.urgHub := by simp [State.addCounter]
@[simp] theorem addCounter_clsCmpts (u : CtrUnit) (i n : Nat) : (s.addCounter u i n).clsCmpts = s.clsCmpts := by simp [State.addCounter]
@[simp] theorem addCounter_clsKind (u : CtrUnit) (i n : Nat) : (s.addCounter u i n).clsKind = s.clsKind := by simp [State.addCounter]
@[simp] theorem addCounter_pci (u : CtrUnit) (i n : Nat) : (s.addCounter u i n).pci = s.pci := by simp [State.addCounter]
@[simp] theorem addCounter_sto (u : CtrUnit) (i n : Nat) : (s.addCounter u i n).sto = s.sto := by simp [State.addCounter]
@[simp] theorem addCounter_bed (u : CtrUnit) (i n : Nat) : (s.addCounter u i n).bed = s.bed := by simp [State.addCounter]
@[simp] theorem addCounter_fab (u : CtrUnit) (i n : Nat) : (s.addCounter u i n).fab = s.fab := by simp [State.addCounter]
@[simp] theorem addCounter_sites (u : CtrUnit) (i n : Nat) : (s.addCounter u i n).sites = s.sites := by simp [State.addCounter]
@[simp] theorem addCounter_conf (u : CtrUnit) (i n : Nat) : (s.addCounter u i n).conf = s.conf := by simp [State.addCounter]
@[simp] theorem addCounter_auth (u : CtrUnit) (i n : Nat) : (s.addCounter u i n).auth = s.auth := by simp [State.addCounter]
@[simp] theorem addCounter_upd (u : CtrUnit) (i n : Nat) : (s.addCounter u i n).upd = s.upd := by simp [State.addCounter]
@[simp] theorem addCounter_flt (u : CtrUnit) (i n : Nat) : (s.addCounter u i n).flt = s.flt := by simp [State.addCounter]
@[simp] theorem addCounter_pwr (u : CtrUnit) (i n : Nat) : (s.addCounter u i n).pwr = s.pwr := by simp [State.addCounter]

@[simp] theorem poisonSec_pending (n : Nat) : (s.poisonSec n).pending = s.pending := by simp only [State.poisonSec]
@[simp] theorem poisonSec_serial (n : Nat) : (s.poisonSec n).serial = s.serial := by simp only [State.poisonSec]
@[simp] theorem poisonSec_tick (n : Nat) : (s.poisonSec n).tick = s.tick := by simp only [State.poisonSec]
@[simp] theorem poisonSec_bootDraw (n : Nat) : (s.poisonSec n).bootDraw = s.bootDraw := by simp only [State.poisonSec]
@[simp] theorem poisonSec_out (n : Nat) : (s.poisonSec n).out = s.out := by simp only [State.poisonSec]
@[simp] theorem poisonSec_inv (n : Nat) : (s.poisonSec n).inv = s.inv := by simp only [State.poisonSec]
@[simp] theorem poisonSec_tiles (n : Nat) : (s.poisonSec n).tiles = s.tiles := by simp only [State.poisonSec]
@[simp] theorem poisonSec_stk (n : Nat) : (s.poisonSec n).stk = s.stk := by simp only [State.poisonSec]
@[simp] theorem poisonSec_cmpts (n : Nat) : (s.poisonSec n).cmpts = s.cmpts := by simp only [State.poisonSec]
@[simp] theorem poisonSec_dispCnt (n : Nat) : (s.poisonSec n).dispCnt = s.dispCnt := by simp only [State.poisonSec]
@[simp] theorem poisonSec_marks (n : Nat) : (s.poisonSec n).marks = s.marks := by simp only [State.poisonSec]
@[simp] theorem poisonSec_snaps (n : Nat) : (s.poisonSec n).snaps = s.snaps := by simp only [State.poisonSec]
@[simp] theorem poisonSec_stallLimit (n : Nat) : (s.poisonSec n).stallLimit = s.stallLimit := by simp only [State.poisonSec]
@[simp] theorem poisonSec_posts (n : Nat) : (s.poisonSec n).posts = s.posts := by simp only [State.poisonSec]
@[simp] theorem poisonSec_unmaps (n : Nat) : (s.poisonSec n).unmaps = s.unmaps := by simp only [State.poisonSec]
@[simp] theorem poisonSec_coh (n : Nat) : (s.poisonSec n).coh = s.coh := by simp only [State.poisonSec]
@[simp] theorem poisonSec_sc (n : Nat) : (s.poisonSec n).sc = s.sc := by simp only [State.poisonSec]
@[simp] theorem poisonSec_graftCaches (n : Nat) : (s.poisonSec n).graftCaches = s.graftCaches := by simp only [State.poisonSec]
@[simp] theorem poisonSec_hubHome (n : Nat) : (s.poisonSec n).hubHome = s.hubHome := by simp only [State.poisonSec]
@[simp] theorem poisonSec_stripes (n : Nat) : (s.poisonSec n).stripes = s.stripes := by simp only [State.poisonSec]
@[simp] theorem poisonSec_guarded (n : Nat) : (s.poisonSec n).guarded = s.guarded := by simp only [State.poisonSec]
@[simp] theorem poisonSec_routers (n : Nat) : (s.poisonSec n).routers = s.routers := by simp only [State.poisonSec]
@[simp] theorem poisonSec_wires (n : Nat) : (s.poisonSec n).wires = s.wires := by simp only [State.poisonSec]
@[simp] theorem poisonSec_lost (n : Nat) : (s.poisonSec n).lost = s.lost := by simp only [State.poisonSec]
@[simp] theorem poisonSec_base (n : Nat) : (s.poisonSec n).base = s.base := by simp only [State.poisonSec]
@[simp] theorem poisonSec_detours (n : Nat) : (s.poisonSec n).detours = s.detours := by simp only [State.poisonSec]
@[simp] theorem poisonSec_masters (n : Nat) : (s.poisonSec n).masters = s.masters := by simp only [State.poisonSec]
@[simp] theorem poisonSec_deadlines (n : Nat) : (s.poisonSec n).deadlines = s.deadlines := by simp only [State.poisonSec]
@[simp] theorem poisonSec_urgHub (n : Nat) : (s.poisonSec n).urgHub = s.urgHub := by simp only [State.poisonSec]
@[simp] theorem poisonSec_clsCmpts (n : Nat) : (s.poisonSec n).clsCmpts = s.clsCmpts := by simp only [State.poisonSec]
@[simp] theorem poisonSec_clsKind (n : Nat) : (s.poisonSec n).clsKind = s.clsKind := by simp only [State.poisonSec]
@[simp] theorem poisonSec_pci (n : Nat) : (s.poisonSec n).pci = s.pci := by simp only [State.poisonSec]
@[simp] theorem poisonSec_sto (n : Nat) : (s.poisonSec n).sto = s.sto := by simp only [State.poisonSec]
@[simp] theorem poisonSec_bed (n : Nat) : (s.poisonSec n).bed = s.bed := by simp only [State.poisonSec]
@[simp] theorem poisonSec_fab (n : Nat) : (s.poisonSec n).fab = s.fab := by simp only [State.poisonSec]
@[simp] theorem poisonSec_sites (n : Nat) : (s.poisonSec n).sites = s.sites := by simp only [State.poisonSec]
@[simp] theorem poisonSec_conf (n : Nat) : (s.poisonSec n).conf = s.conf := by simp only [State.poisonSec]
@[simp] theorem poisonSec_auth (n : Nat) : (s.poisonSec n).auth = s.auth := by simp only [State.poisonSec]
@[simp] theorem poisonSec_upd (n : Nat) : (s.poisonSec n).upd = s.upd := by simp only [State.poisonSec]
@[simp] theorem poisonSec_flt (n : Nat) : (s.poisonSec n).flt = s.flt := by simp only [State.poisonSec]
@[simp] theorem poisonSec_pwr (n : Nat) : (s.poisonSec n).pwr = s.pwr := by simp only [State.poisonSec]

@[simp] theorem wrSec_pending (a : Nat) (l : List Byte) : (s.wrSec a l).pending = s.pending := by unfold State.wrSec; repeat (first | rfl | split)
@[simp] theorem wrSec_serial (a : Nat) (l : List Byte) : (s.wrSec a l).serial = s.serial := by unfold State.wrSec; repeat (first | rfl | split)
@[simp] theorem wrSec_tick (a : Nat) (l : List Byte) : (s.wrSec a l).tick = s.tick := by unfold State.wrSec; repeat (first | rfl | split)
@[simp] theorem wrSec_bootDraw (a : Nat) (l : List Byte) : (s.wrSec a l).bootDraw = s.bootDraw := by unfold State.wrSec; repeat (first | rfl | split)
@[simp] theorem wrSec_out (a : Nat) (l : List Byte) : (s.wrSec a l).out = s.out := by unfold State.wrSec; repeat (first | rfl | split)
@[simp] theorem wrSec_inv (a : Nat) (l : List Byte) : (s.wrSec a l).inv = s.inv := by unfold State.wrSec; repeat (first | rfl | split)
@[simp] theorem wrSec_tiles (a : Nat) (l : List Byte) : (s.wrSec a l).tiles = s.tiles := by unfold State.wrSec; repeat (first | rfl | split)
@[simp] theorem wrSec_stk (a : Nat) (l : List Byte) : (s.wrSec a l).stk = s.stk := by unfold State.wrSec; repeat (first | rfl | split)
@[simp] theorem wrSec_cmpts (a : Nat) (l : List Byte) : (s.wrSec a l).cmpts = s.cmpts := by unfold State.wrSec; repeat (first | rfl | split)
@[simp] theorem wrSec_dispCnt (a : Nat) (l : List Byte) : (s.wrSec a l).dispCnt = s.dispCnt := by unfold State.wrSec; repeat (first | rfl | split)
@[simp] theorem wrSec_marks (a : Nat) (l : List Byte) : (s.wrSec a l).marks = s.marks := by unfold State.wrSec; repeat (first | rfl | split)
@[simp] theorem wrSec_snaps (a : Nat) (l : List Byte) : (s.wrSec a l).snaps = s.snaps := by unfold State.wrSec; repeat (first | rfl | split)
@[simp] theorem wrSec_stallLimit (a : Nat) (l : List Byte) : (s.wrSec a l).stallLimit = s.stallLimit := by unfold State.wrSec; repeat (first | rfl | split)
@[simp] theorem wrSec_posts (a : Nat) (l : List Byte) : (s.wrSec a l).posts = s.posts := by unfold State.wrSec; repeat (first | rfl | split)
@[simp] theorem wrSec_unmaps (a : Nat) (l : List Byte) : (s.wrSec a l).unmaps = s.unmaps := by unfold State.wrSec; repeat (first | rfl | split)
@[simp] theorem wrSec_coh (a : Nat) (l : List Byte) : (s.wrSec a l).coh = s.coh := by unfold State.wrSec; repeat (first | rfl | split)
@[simp] theorem wrSec_sc (a : Nat) (l : List Byte) : (s.wrSec a l).sc = s.sc := by unfold State.wrSec; repeat (first | rfl | split)
@[simp] theorem wrSec_graftCaches (a : Nat) (l : List Byte) : (s.wrSec a l).graftCaches = s.graftCaches := by unfold State.wrSec; repeat (first | rfl | split)
@[simp] theorem wrSec_hubHome (a : Nat) (l : List Byte) : (s.wrSec a l).hubHome = s.hubHome := by unfold State.wrSec; repeat (first | rfl | split)
@[simp] theorem wrSec_stripes (a : Nat) (l : List Byte) : (s.wrSec a l).stripes = s.stripes := by unfold State.wrSec; repeat (first | rfl | split)
@[simp] theorem wrSec_guarded (a : Nat) (l : List Byte) : (s.wrSec a l).guarded = s.guarded := by unfold State.wrSec; repeat (first | rfl | split)
@[simp] theorem wrSec_routers (a : Nat) (l : List Byte) : (s.wrSec a l).routers = s.routers := by unfold State.wrSec; repeat (first | rfl | split)
@[simp] theorem wrSec_wires (a : Nat) (l : List Byte) : (s.wrSec a l).wires = s.wires := by unfold State.wrSec; repeat (first | rfl | split)
@[simp] theorem wrSec_lost (a : Nat) (l : List Byte) : (s.wrSec a l).lost = s.lost := by unfold State.wrSec; repeat (first | rfl | split)
@[simp] theorem wrSec_base (a : Nat) (l : List Byte) : (s.wrSec a l).base = s.base := by unfold State.wrSec; repeat (first | rfl | split)
@[simp] theorem wrSec_detours (a : Nat) (l : List Byte) : (s.wrSec a l).detours = s.detours := by unfold State.wrSec; repeat (first | rfl | split)
@[simp] theorem wrSec_masters (a : Nat) (l : List Byte) : (s.wrSec a l).masters = s.masters := by unfold State.wrSec; repeat (first | rfl | split)
@[simp] theorem wrSec_deadlines (a : Nat) (l : List Byte) : (s.wrSec a l).deadlines = s.deadlines := by unfold State.wrSec; repeat (first | rfl | split)
@[simp] theorem wrSec_urgHub (a : Nat) (l : List Byte) : (s.wrSec a l).urgHub = s.urgHub := by unfold State.wrSec; repeat (first | rfl | split)
@[simp] theorem wrSec_clsCmpts (a : Nat) (l : List Byte) : (s.wrSec a l).clsCmpts = s.clsCmpts := by unfold State.wrSec; repeat (first | rfl | split)
@[simp] theorem wrSec_clsKind (a : Nat) (l : List Byte) : (s.wrSec a l).clsKind = s.clsKind := by unfold State.wrSec; repeat (first | rfl | split)
@[simp] theorem wrSec_pci (a : Nat) (l : List Byte) : (s.wrSec a l).pci = s.pci := by unfold State.wrSec; repeat (first | rfl | split)
@[simp] theorem wrSec_sto (a : Nat) (l : List Byte) : (s.wrSec a l).sto = s.sto := by unfold State.wrSec; repeat (first | rfl | split)
@[simp] theorem wrSec_bed (a : Nat) (l : List Byte) : (s.wrSec a l).bed = s.bed := by unfold State.wrSec; repeat (first | rfl | split)
@[simp] theorem wrSec_fab (a : Nat) (l : List Byte) : (s.wrSec a l).fab = s.fab := by unfold State.wrSec; repeat (first | rfl | split)
@[simp] theorem wrSec_sites (a : Nat) (l : List Byte) : (s.wrSec a l).sites = s.sites := by unfold State.wrSec; repeat (first | rfl | split)
@[simp] theorem wrSec_conf (a : Nat) (l : List Byte) : (s.wrSec a l).conf = s.conf := by unfold State.wrSec; repeat (first | rfl | split)
@[simp] theorem wrSec_auth (a : Nat) (l : List Byte) : (s.wrSec a l).auth = s.auth := by unfold State.wrSec; repeat (first | rfl | split)
@[simp] theorem wrSec_upd (a : Nat) (l : List Byte) : (s.wrSec a l).upd = s.upd := by unfold State.wrSec; repeat (first | rfl | split)
@[simp] theorem wrSec_flt (a : Nat) (l : List Byte) : (s.wrSec a l).flt = s.flt := by unfold State.wrSec; repeat (first | rfl | split)
@[simp] theorem wrSec_pwr (a : Nat) (l : List Byte) : (s.wrSec a l).pwr = s.pwr := by unfold State.wrSec; repeat (first | rfl | split)

@[simp] theorem emit_pending (o : Out) : (s.emit o).pending = s.pending := rfl
@[simp] theorem emit_serial (o : Out) : (s.emit o).serial = s.serial := rfl
@[simp] theorem emit_tick (o : Out) : (s.emit o).tick = s.tick := rfl
@[simp] theorem emit_bootDraw (o : Out) : (s.emit o).bootDraw = s.bootDraw := rfl
@[simp] theorem emit_inv (o : Out) : (s.emit o).inv = s.inv := rfl
@[simp] theorem emit_mem (o : Out) : (s.emit o).mem = s.mem := rfl
@[simp] theorem emit_poison (o : Out) : (s.emit o).poison = s.poison := rfl
@[simp] theorem emit_tiles (o : Out) : (s.emit o).tiles = s.tiles := rfl
@[simp] theorem emit_stk (o : Out) : (s.emit o).stk = s.stk := rfl
@[simp] theorem emit_cmpts (o : Out) : (s.emit o).cmpts = s.cmpts := rfl
@[simp] theorem emit_dispCnt (o : Out) : (s.emit o).dispCnt = s.dispCnt := rfl
@[simp] theorem emit_marks (o : Out) : (s.emit o).marks = s.marks := rfl
@[simp] theorem emit_snaps (o : Out) : (s.emit o).snaps = s.snaps := rfl
@[simp] theorem emit_stallLimit (o : Out) : (s.emit o).stallLimit = s.stallLimit := rfl
@[simp] theorem emit_posts (o : Out) : (s.emit o).posts = s.posts := rfl
@[simp] theorem emit_unmaps (o : Out) : (s.emit o).unmaps = s.unmaps := rfl
@[simp] theorem emit_coh (o : Out) : (s.emit o).coh = s.coh := rfl
@[simp] theorem emit_sc (o : Out) : (s.emit o).sc = s.sc := rfl
@[simp] theorem emit_graftCaches (o : Out) : (s.emit o).graftCaches = s.graftCaches := rfl
@[simp] theorem emit_hubHome (o : Out) : (s.emit o).hubHome = s.hubHome := rfl
@[simp] theorem emit_stripes (o : Out) : (s.emit o).stripes = s.stripes := rfl
@[simp] theorem emit_guarded (o : Out) : (s.emit o).guarded = s.guarded := rfl
@[simp] theorem emit_routers (o : Out) : (s.emit o).routers = s.routers := rfl
@[simp] theorem emit_wires (o : Out) : (s.emit o).wires = s.wires := rfl
@[simp] theorem emit_lost (o : Out) : (s.emit o).lost = s.lost := rfl
@[simp] theorem emit_base (o : Out) : (s.emit o).base = s.base := rfl
@[simp] theorem emit_detours (o : Out) : (s.emit o).detours = s.detours := rfl
@[simp] theorem emit_masters (o : Out) : (s.emit o).masters = s.masters := rfl
@[simp] theorem emit_deadlines (o : Out) : (s.emit o).deadlines = s.deadlines := rfl
@[simp] theorem emit_urgHub (o : Out) : (s.emit o).urgHub = s.urgHub := rfl
@[simp] theorem emit_clsCmpts (o : Out) : (s.emit o).clsCmpts = s.clsCmpts := rfl
@[simp] theorem emit_clsKind (o : Out) : (s.emit o).clsKind = s.clsKind := rfl
@[simp] theorem emit_pci (o : Out) : (s.emit o).pci = s.pci := rfl
@[simp] theorem emit_sto (o : Out) : (s.emit o).sto = s.sto := rfl
@[simp] theorem emit_bed (o : Out) : (s.emit o).bed = s.bed := rfl
@[simp] theorem emit_fab (o : Out) : (s.emit o).fab = s.fab := rfl
@[simp] theorem emit_sites (o : Out) : (s.emit o).sites = s.sites := rfl
@[simp] theorem emit_conf (o : Out) : (s.emit o).conf = s.conf := rfl
@[simp] theorem emit_auth (o : Out) : (s.emit o).auth = s.auth := rfl
@[simp] theorem emit_upd (o : Out) : (s.emit o).upd = s.upd := rfl
@[simp] theorem emit_flt (o : Out) : (s.emit o).flt = s.flt := rfl
@[simp] theorem emit_pwr (o : Out) : (s.emit o).pwr = s.pwr := rfl

@[simp] theorem withCore_pending (d i : Nat) (c : Core) : (s.withCore d i c).pending = s.pending := rfl
@[simp] theorem withCore_serial (d i : Nat) (c : Core) : (s.withCore d i c).serial = s.serial := rfl
@[simp] theorem withCore_tick (d i : Nat) (c : Core) : (s.withCore d i c).tick = s.tick := rfl
@[simp] theorem withCore_bootDraw (d i : Nat) (c : Core) : (s.withCore d i c).bootDraw = s.bootDraw := rfl
@[simp] theorem withCore_out (d i : Nat) (c : Core) : (s.withCore d i c).out = s.out := rfl
@[simp] theorem withCore_inv (d i : Nat) (c : Core) : (s.withCore d i c).inv = s.inv := rfl
@[simp] theorem withCore_mem (d i : Nat) (c : Core) : (s.withCore d i c).mem = s.mem := rfl
@[simp] theorem withCore_poison (d i : Nat) (c : Core) : (s.withCore d i c).poison = s.poison := rfl
@[simp] theorem withCore_stk (d i : Nat) (c : Core) : (s.withCore d i c).stk = s.stk := rfl
@[simp] theorem withCore_cmpts (d i : Nat) (c : Core) : (s.withCore d i c).cmpts = s.cmpts := rfl
@[simp] theorem withCore_dispCnt (d i : Nat) (c : Core) : (s.withCore d i c).dispCnt = s.dispCnt := rfl
@[simp] theorem withCore_marks (d i : Nat) (c : Core) : (s.withCore d i c).marks = s.marks := rfl
@[simp] theorem withCore_snaps (d i : Nat) (c : Core) : (s.withCore d i c).snaps = s.snaps := rfl
@[simp] theorem withCore_stallLimit (d i : Nat) (c : Core) : (s.withCore d i c).stallLimit = s.stallLimit := rfl
@[simp] theorem withCore_posts (d i : Nat) (c : Core) : (s.withCore d i c).posts = s.posts := rfl
@[simp] theorem withCore_unmaps (d i : Nat) (c : Core) : (s.withCore d i c).unmaps = s.unmaps := rfl
@[simp] theorem withCore_coh (d i : Nat) (c : Core) : (s.withCore d i c).coh = s.coh := rfl
@[simp] theorem withCore_sc (d i : Nat) (c : Core) : (s.withCore d i c).sc = s.sc := rfl
@[simp] theorem withCore_graftCaches (d i : Nat) (c : Core) : (s.withCore d i c).graftCaches = s.graftCaches := rfl
@[simp] theorem withCore_hubHome (d i : Nat) (c : Core) : (s.withCore d i c).hubHome = s.hubHome := rfl
@[simp] theorem withCore_stripes (d i : Nat) (c : Core) : (s.withCore d i c).stripes = s.stripes := rfl
@[simp] theorem withCore_guarded (d i : Nat) (c : Core) : (s.withCore d i c).guarded = s.guarded := rfl
@[simp] theorem withCore_routers (d i : Nat) (c : Core) : (s.withCore d i c).routers = s.routers := rfl
@[simp] theorem withCore_wires (d i : Nat) (c : Core) : (s.withCore d i c).wires = s.wires := rfl
@[simp] theorem withCore_lost (d i : Nat) (c : Core) : (s.withCore d i c).lost = s.lost := rfl
@[simp] theorem withCore_base (d i : Nat) (c : Core) : (s.withCore d i c).base = s.base := rfl
@[simp] theorem withCore_detours (d i : Nat) (c : Core) : (s.withCore d i c).detours = s.detours := rfl
@[simp] theorem withCore_masters (d i : Nat) (c : Core) : (s.withCore d i c).masters = s.masters := rfl
@[simp] theorem withCore_deadlines (d i : Nat) (c : Core) : (s.withCore d i c).deadlines = s.deadlines := rfl
@[simp] theorem withCore_urgHub (d i : Nat) (c : Core) : (s.withCore d i c).urgHub = s.urgHub := rfl
@[simp] theorem withCore_clsCmpts (d i : Nat) (c : Core) : (s.withCore d i c).clsCmpts = s.clsCmpts := rfl
@[simp] theorem withCore_clsKind (d i : Nat) (c : Core) : (s.withCore d i c).clsKind = s.clsKind := rfl
@[simp] theorem withCore_pci (d i : Nat) (c : Core) : (s.withCore d i c).pci = s.pci := rfl
@[simp] theorem withCore_sto (d i : Nat) (c : Core) : (s.withCore d i c).sto = s.sto := rfl
@[simp] theorem withCore_bed (d i : Nat) (c : Core) : (s.withCore d i c).bed = s.bed := rfl
@[simp] theorem withCore_fab (d i : Nat) (c : Core) : (s.withCore d i c).fab = s.fab := rfl
@[simp] theorem withCore_sites (d i : Nat) (c : Core) : (s.withCore d i c).sites = s.sites := rfl
@[simp] theorem withCore_conf (d i : Nat) (c : Core) : (s.withCore d i c).conf = s.conf := rfl
@[simp] theorem withCore_auth (d i : Nat) (c : Core) : (s.withCore d i c).auth = s.auth := rfl
@[simp] theorem withCore_upd (d i : Nat) (c : Core) : (s.withCore d i c).upd = s.upd := rfl
@[simp] theorem withCore_flt (d i : Nat) (c : Core) : (s.withCore d i c).flt = s.flt := rfl
@[simp] theorem withCore_pwr (d i : Nat) (c : Core) : (s.withCore d i c).pwr = s.pwr := rfl

@[simp] theorem withCmpt_pending (c : Nat) (m : Cmpt) : (s.withCmpt c m).pending = s.pending := rfl
@[simp] theorem withCmpt_serial (c : Nat) (m : Cmpt) : (s.withCmpt c m).serial = s.serial := rfl
@[simp] theorem withCmpt_tick (c : Nat) (m : Cmpt) : (s.withCmpt c m).tick = s.tick := rfl
@[simp] theorem withCmpt_bootDraw (c : Nat) (m : Cmpt) : (s.withCmpt c m).bootDraw = s.bootDraw := rfl
@[simp] theorem withCmpt_out (c : Nat) (m : Cmpt) : (s.withCmpt c m).out = s.out := rfl
@[simp] theorem withCmpt_inv (c : Nat) (m : Cmpt) : (s.withCmpt c m).inv = s.inv := rfl
@[simp] theorem withCmpt_mem (c : Nat) (m : Cmpt) : (s.withCmpt c m).mem = s.mem := rfl
@[simp] theorem withCmpt_poison (c : Nat) (m : Cmpt) : (s.withCmpt c m).poison = s.poison := rfl
@[simp] theorem withCmpt_tiles (c : Nat) (m : Cmpt) : (s.withCmpt c m).tiles = s.tiles := rfl
@[simp] theorem withCmpt_stk (c : Nat) (m : Cmpt) : (s.withCmpt c m).stk = s.stk := rfl
@[simp] theorem withCmpt_dispCnt (c : Nat) (m : Cmpt) : (s.withCmpt c m).dispCnt = s.dispCnt := rfl
@[simp] theorem withCmpt_marks (c : Nat) (m : Cmpt) : (s.withCmpt c m).marks = s.marks := rfl
@[simp] theorem withCmpt_snaps (c : Nat) (m : Cmpt) : (s.withCmpt c m).snaps = s.snaps := rfl
@[simp] theorem withCmpt_stallLimit (c : Nat) (m : Cmpt) : (s.withCmpt c m).stallLimit = s.stallLimit := rfl
@[simp] theorem withCmpt_posts (c : Nat) (m : Cmpt) : (s.withCmpt c m).posts = s.posts := rfl
@[simp] theorem withCmpt_unmaps (c : Nat) (m : Cmpt) : (s.withCmpt c m).unmaps = s.unmaps := rfl
@[simp] theorem withCmpt_coh (c : Nat) (m : Cmpt) : (s.withCmpt c m).coh = s.coh := rfl
@[simp] theorem withCmpt_sc (c : Nat) (m : Cmpt) : (s.withCmpt c m).sc = s.sc := rfl
@[simp] theorem withCmpt_graftCaches (c : Nat) (m : Cmpt) : (s.withCmpt c m).graftCaches = s.graftCaches := rfl
@[simp] theorem withCmpt_hubHome (c : Nat) (m : Cmpt) : (s.withCmpt c m).hubHome = s.hubHome := rfl
@[simp] theorem withCmpt_stripes (c : Nat) (m : Cmpt) : (s.withCmpt c m).stripes = s.stripes := rfl
@[simp] theorem withCmpt_guarded (c : Nat) (m : Cmpt) : (s.withCmpt c m).guarded = s.guarded := rfl
@[simp] theorem withCmpt_routers (c : Nat) (m : Cmpt) : (s.withCmpt c m).routers = s.routers := rfl
@[simp] theorem withCmpt_wires (c : Nat) (m : Cmpt) : (s.withCmpt c m).wires = s.wires := rfl
@[simp] theorem withCmpt_lost (c : Nat) (m : Cmpt) : (s.withCmpt c m).lost = s.lost := rfl
@[simp] theorem withCmpt_base (c : Nat) (m : Cmpt) : (s.withCmpt c m).base = s.base := rfl
@[simp] theorem withCmpt_detours (c : Nat) (m : Cmpt) : (s.withCmpt c m).detours = s.detours := rfl
@[simp] theorem withCmpt_masters (c : Nat) (m : Cmpt) : (s.withCmpt c m).masters = s.masters := rfl
@[simp] theorem withCmpt_deadlines (c : Nat) (m : Cmpt) : (s.withCmpt c m).deadlines = s.deadlines := rfl
@[simp] theorem withCmpt_urgHub (c : Nat) (m : Cmpt) : (s.withCmpt c m).urgHub = s.urgHub := rfl
@[simp] theorem withCmpt_clsCmpts (c : Nat) (m : Cmpt) : (s.withCmpt c m).clsCmpts = s.clsCmpts := rfl
@[simp] theorem withCmpt_clsKind (c : Nat) (m : Cmpt) : (s.withCmpt c m).clsKind = s.clsKind := rfl
@[simp] theorem withCmpt_pci (c : Nat) (m : Cmpt) : (s.withCmpt c m).pci = s.pci := rfl
@[simp] theorem withCmpt_sto (c : Nat) (m : Cmpt) : (s.withCmpt c m).sto = s.sto := rfl
@[simp] theorem withCmpt_bed (c : Nat) (m : Cmpt) : (s.withCmpt c m).bed = s.bed := rfl
@[simp] theorem withCmpt_fab (c : Nat) (m : Cmpt) : (s.withCmpt c m).fab = s.fab := rfl
@[simp] theorem withCmpt_sites (c : Nat) (m : Cmpt) : (s.withCmpt c m).sites = s.sites := rfl
@[simp] theorem withCmpt_conf (c : Nat) (m : Cmpt) : (s.withCmpt c m).conf = s.conf := rfl
@[simp] theorem withCmpt_auth (c : Nat) (m : Cmpt) : (s.withCmpt c m).auth = s.auth := rfl
@[simp] theorem withCmpt_upd (c : Nat) (m : Cmpt) : (s.withCmpt c m).upd = s.upd := rfl
@[simp] theorem withCmpt_flt (c : Nat) (m : Cmpt) : (s.withCmpt c m).flt = s.flt := rfl
@[simp] theorem withCmpt_pwr (c : Nat) (m : Cmpt) : (s.withCmpt c m).pwr = s.pwr := rfl

@[simp] theorem withStack_pending (l : Nat) (k : Stack) : (s.withStack l k).pending = s.pending := rfl
@[simp] theorem withStack_serial (l : Nat) (k : Stack) : (s.withStack l k).serial = s.serial := rfl
@[simp] theorem withStack_tick (l : Nat) (k : Stack) : (s.withStack l k).tick = s.tick := rfl
@[simp] theorem withStack_bootDraw (l : Nat) (k : Stack) : (s.withStack l k).bootDraw = s.bootDraw := rfl
@[simp] theorem withStack_out (l : Nat) (k : Stack) : (s.withStack l k).out = s.out := rfl
@[simp] theorem withStack_inv (l : Nat) (k : Stack) : (s.withStack l k).inv = s.inv := rfl
@[simp] theorem withStack_mem (l : Nat) (k : Stack) : (s.withStack l k).mem = s.mem := rfl
@[simp] theorem withStack_poison (l : Nat) (k : Stack) : (s.withStack l k).poison = s.poison := rfl
@[simp] theorem withStack_tiles (l : Nat) (k : Stack) : (s.withStack l k).tiles = s.tiles := rfl
@[simp] theorem withStack_cmpts (l : Nat) (k : Stack) : (s.withStack l k).cmpts = s.cmpts := rfl
@[simp] theorem withStack_dispCnt (l : Nat) (k : Stack) : (s.withStack l k).dispCnt = s.dispCnt := rfl
@[simp] theorem withStack_marks (l : Nat) (k : Stack) : (s.withStack l k).marks = s.marks := rfl
@[simp] theorem withStack_snaps (l : Nat) (k : Stack) : (s.withStack l k).snaps = s.snaps := rfl
@[simp] theorem withStack_stallLimit (l : Nat) (k : Stack) : (s.withStack l k).stallLimit = s.stallLimit := rfl
@[simp] theorem withStack_posts (l : Nat) (k : Stack) : (s.withStack l k).posts = s.posts := rfl
@[simp] theorem withStack_unmaps (l : Nat) (k : Stack) : (s.withStack l k).unmaps = s.unmaps := rfl
@[simp] theorem withStack_coh (l : Nat) (k : Stack) : (s.withStack l k).coh = s.coh := rfl
@[simp] theorem withStack_sc (l : Nat) (k : Stack) : (s.withStack l k).sc = s.sc := rfl
@[simp] theorem withStack_graftCaches (l : Nat) (k : Stack) : (s.withStack l k).graftCaches = s.graftCaches := rfl
@[simp] theorem withStack_hubHome (l : Nat) (k : Stack) : (s.withStack l k).hubHome = s.hubHome := rfl
@[simp] theorem withStack_stripes (l : Nat) (k : Stack) : (s.withStack l k).stripes = s.stripes := rfl
@[simp] theorem withStack_guarded (l : Nat) (k : Stack) : (s.withStack l k).guarded = s.guarded := rfl
@[simp] theorem withStack_routers (l : Nat) (k : Stack) : (s.withStack l k).routers = s.routers := rfl
@[simp] theorem withStack_wires (l : Nat) (k : Stack) : (s.withStack l k).wires = s.wires := rfl
@[simp] theorem withStack_lost (l : Nat) (k : Stack) : (s.withStack l k).lost = s.lost := rfl
@[simp] theorem withStack_base (l : Nat) (k : Stack) : (s.withStack l k).base = s.base := rfl
@[simp] theorem withStack_detours (l : Nat) (k : Stack) : (s.withStack l k).detours = s.detours := rfl
@[simp] theorem withStack_masters (l : Nat) (k : Stack) : (s.withStack l k).masters = s.masters := rfl
@[simp] theorem withStack_deadlines (l : Nat) (k : Stack) : (s.withStack l k).deadlines = s.deadlines := rfl
@[simp] theorem withStack_urgHub (l : Nat) (k : Stack) : (s.withStack l k).urgHub = s.urgHub := rfl
@[simp] theorem withStack_clsCmpts (l : Nat) (k : Stack) : (s.withStack l k).clsCmpts = s.clsCmpts := rfl
@[simp] theorem withStack_clsKind (l : Nat) (k : Stack) : (s.withStack l k).clsKind = s.clsKind := rfl
@[simp] theorem withStack_pci (l : Nat) (k : Stack) : (s.withStack l k).pci = s.pci := rfl
@[simp] theorem withStack_sto (l : Nat) (k : Stack) : (s.withStack l k).sto = s.sto := rfl
@[simp] theorem withStack_bed (l : Nat) (k : Stack) : (s.withStack l k).bed = s.bed := rfl
@[simp] theorem withStack_fab (l : Nat) (k : Stack) : (s.withStack l k).fab = s.fab := rfl
@[simp] theorem withStack_sites (l : Nat) (k : Stack) : (s.withStack l k).sites = s.sites := rfl
@[simp] theorem withStack_conf (l : Nat) (k : Stack) : (s.withStack l k).conf = s.conf := rfl
@[simp] theorem withStack_auth (l : Nat) (k : Stack) : (s.withStack l k).auth = s.auth := rfl
@[simp] theorem withStack_upd (l : Nat) (k : Stack) : (s.withStack l k).upd = s.upd := rfl
@[simp] theorem withStack_flt (l : Nat) (k : Stack) : (s.withStack l k).flt = s.flt := rfl
@[simp] theorem withStack_pwr (l : Nat) (k : Stack) : (s.withStack l k).pwr = s.pwr := rfl

@[simp] theorem withRouter_pending (d : Nat) (r : Router) : (s.withRouter d r).pending = s.pending := rfl
@[simp] theorem withRouter_serial (d : Nat) (r : Router) : (s.withRouter d r).serial = s.serial := rfl
@[simp] theorem withRouter_tick (d : Nat) (r : Router) : (s.withRouter d r).tick = s.tick := rfl
@[simp] theorem withRouter_bootDraw (d : Nat) (r : Router) : (s.withRouter d r).bootDraw = s.bootDraw := rfl
@[simp] theorem withRouter_out (d : Nat) (r : Router) : (s.withRouter d r).out = s.out := rfl
@[simp] theorem withRouter_inv (d : Nat) (r : Router) : (s.withRouter d r).inv = s.inv := rfl
@[simp] theorem withRouter_mem (d : Nat) (r : Router) : (s.withRouter d r).mem = s.mem := rfl
@[simp] theorem withRouter_poison (d : Nat) (r : Router) : (s.withRouter d r).poison = s.poison := rfl
@[simp] theorem withRouter_tiles (d : Nat) (r : Router) : (s.withRouter d r).tiles = s.tiles := rfl
@[simp] theorem withRouter_stk (d : Nat) (r : Router) : (s.withRouter d r).stk = s.stk := rfl
@[simp] theorem withRouter_cmpts (d : Nat) (r : Router) : (s.withRouter d r).cmpts = s.cmpts := rfl
@[simp] theorem withRouter_dispCnt (d : Nat) (r : Router) : (s.withRouter d r).dispCnt = s.dispCnt := rfl
@[simp] theorem withRouter_marks (d : Nat) (r : Router) : (s.withRouter d r).marks = s.marks := rfl
@[simp] theorem withRouter_snaps (d : Nat) (r : Router) : (s.withRouter d r).snaps = s.snaps := rfl
@[simp] theorem withRouter_stallLimit (d : Nat) (r : Router) : (s.withRouter d r).stallLimit = s.stallLimit := rfl
@[simp] theorem withRouter_posts (d : Nat) (r : Router) : (s.withRouter d r).posts = s.posts := rfl
@[simp] theorem withRouter_unmaps (d : Nat) (r : Router) : (s.withRouter d r).unmaps = s.unmaps := rfl
@[simp] theorem withRouter_coh (d : Nat) (r : Router) : (s.withRouter d r).coh = s.coh := rfl
@[simp] theorem withRouter_sc (d : Nat) (r : Router) : (s.withRouter d r).sc = s.sc := rfl
@[simp] theorem withRouter_graftCaches (d : Nat) (r : Router) : (s.withRouter d r).graftCaches = s.graftCaches := rfl
@[simp] theorem withRouter_hubHome (d : Nat) (r : Router) : (s.withRouter d r).hubHome = s.hubHome := rfl
@[simp] theorem withRouter_stripes (d : Nat) (r : Router) : (s.withRouter d r).stripes = s.stripes := rfl
@[simp] theorem withRouter_guarded (d : Nat) (r : Router) : (s.withRouter d r).guarded = s.guarded := rfl
@[simp] theorem withRouter_wires (d : Nat) (r : Router) : (s.withRouter d r).wires = s.wires := rfl
@[simp] theorem withRouter_lost (d : Nat) (r : Router) : (s.withRouter d r).lost = s.lost := rfl
@[simp] theorem withRouter_base (d : Nat) (r : Router) : (s.withRouter d r).base = s.base := rfl
@[simp] theorem withRouter_detours (d : Nat) (r : Router) : (s.withRouter d r).detours = s.detours := rfl
@[simp] theorem withRouter_masters (d : Nat) (r : Router) : (s.withRouter d r).masters = s.masters := rfl
@[simp] theorem withRouter_deadlines (d : Nat) (r : Router) : (s.withRouter d r).deadlines = s.deadlines := rfl
@[simp] theorem withRouter_urgHub (d : Nat) (r : Router) : (s.withRouter d r).urgHub = s.urgHub := rfl
@[simp] theorem withRouter_clsCmpts (d : Nat) (r : Router) : (s.withRouter d r).clsCmpts = s.clsCmpts := rfl
@[simp] theorem withRouter_clsKind (d : Nat) (r : Router) : (s.withRouter d r).clsKind = s.clsKind := rfl
@[simp] theorem withRouter_pci (d : Nat) (r : Router) : (s.withRouter d r).pci = s.pci := rfl
@[simp] theorem withRouter_sto (d : Nat) (r : Router) : (s.withRouter d r).sto = s.sto := rfl
@[simp] theorem withRouter_bed (d : Nat) (r : Router) : (s.withRouter d r).bed = s.bed := rfl
@[simp] theorem withRouter_fab (d : Nat) (r : Router) : (s.withRouter d r).fab = s.fab := rfl
@[simp] theorem withRouter_sites (d : Nat) (r : Router) : (s.withRouter d r).sites = s.sites := rfl
@[simp] theorem withRouter_conf (d : Nat) (r : Router) : (s.withRouter d r).conf = s.conf := rfl
@[simp] theorem withRouter_auth (d : Nat) (r : Router) : (s.withRouter d r).auth = s.auth := rfl
@[simp] theorem withRouter_upd (d : Nat) (r : Router) : (s.withRouter d r).upd = s.upd := rfl
@[simp] theorem withRouter_flt (d : Nat) (r : Router) : (s.withRouter d r).flt = s.flt := rfl
@[simp] theorem withRouter_pwr (d : Nat) (r : Router) : (s.withRouter d r).pwr = s.pwr := rfl

@[simp] theorem withPort_pending (p : Nat) (x : FabPort) : (s.withPort p x).pending = s.pending := rfl
@[simp] theorem withPort_serial (p : Nat) (x : FabPort) : (s.withPort p x).serial = s.serial := rfl
@[simp] theorem withPort_tick (p : Nat) (x : FabPort) : (s.withPort p x).tick = s.tick := rfl
@[simp] theorem withPort_bootDraw (p : Nat) (x : FabPort) : (s.withPort p x).bootDraw = s.bootDraw := rfl
@[simp] theorem withPort_out (p : Nat) (x : FabPort) : (s.withPort p x).out = s.out := rfl
@[simp] theorem withPort_inv (p : Nat) (x : FabPort) : (s.withPort p x).inv = s.inv := rfl
@[simp] theorem withPort_mem (p : Nat) (x : FabPort) : (s.withPort p x).mem = s.mem := rfl
@[simp] theorem withPort_poison (p : Nat) (x : FabPort) : (s.withPort p x).poison = s.poison := rfl
@[simp] theorem withPort_tiles (p : Nat) (x : FabPort) : (s.withPort p x).tiles = s.tiles := rfl
@[simp] theorem withPort_stk (p : Nat) (x : FabPort) : (s.withPort p x).stk = s.stk := rfl
@[simp] theorem withPort_cmpts (p : Nat) (x : FabPort) : (s.withPort p x).cmpts = s.cmpts := rfl
@[simp] theorem withPort_dispCnt (p : Nat) (x : FabPort) : (s.withPort p x).dispCnt = s.dispCnt := rfl
@[simp] theorem withPort_marks (p : Nat) (x : FabPort) : (s.withPort p x).marks = s.marks := rfl
@[simp] theorem withPort_snaps (p : Nat) (x : FabPort) : (s.withPort p x).snaps = s.snaps := rfl
@[simp] theorem withPort_stallLimit (p : Nat) (x : FabPort) : (s.withPort p x).stallLimit = s.stallLimit := rfl
@[simp] theorem withPort_posts (p : Nat) (x : FabPort) : (s.withPort p x).posts = s.posts := rfl
@[simp] theorem withPort_unmaps (p : Nat) (x : FabPort) : (s.withPort p x).unmaps = s.unmaps := rfl
@[simp] theorem withPort_coh (p : Nat) (x : FabPort) : (s.withPort p x).coh = s.coh := rfl
@[simp] theorem withPort_sc (p : Nat) (x : FabPort) : (s.withPort p x).sc = s.sc := rfl
@[simp] theorem withPort_graftCaches (p : Nat) (x : FabPort) : (s.withPort p x).graftCaches = s.graftCaches := rfl
@[simp] theorem withPort_hubHome (p : Nat) (x : FabPort) : (s.withPort p x).hubHome = s.hubHome := rfl
@[simp] theorem withPort_stripes (p : Nat) (x : FabPort) : (s.withPort p x).stripes = s.stripes := rfl
@[simp] theorem withPort_guarded (p : Nat) (x : FabPort) : (s.withPort p x).guarded = s.guarded := rfl
@[simp] theorem withPort_routers (p : Nat) (x : FabPort) : (s.withPort p x).routers = s.routers := rfl
@[simp] theorem withPort_wires (p : Nat) (x : FabPort) : (s.withPort p x).wires = s.wires := rfl
@[simp] theorem withPort_lost (p : Nat) (x : FabPort) : (s.withPort p x).lost = s.lost := rfl
@[simp] theorem withPort_base (p : Nat) (x : FabPort) : (s.withPort p x).base = s.base := rfl
@[simp] theorem withPort_detours (p : Nat) (x : FabPort) : (s.withPort p x).detours = s.detours := rfl
@[simp] theorem withPort_masters (p : Nat) (x : FabPort) : (s.withPort p x).masters = s.masters := rfl
@[simp] theorem withPort_deadlines (p : Nat) (x : FabPort) : (s.withPort p x).deadlines = s.deadlines := rfl
@[simp] theorem withPort_urgHub (p : Nat) (x : FabPort) : (s.withPort p x).urgHub = s.urgHub := rfl
@[simp] theorem withPort_clsCmpts (p : Nat) (x : FabPort) : (s.withPort p x).clsCmpts = s.clsCmpts := rfl
@[simp] theorem withPort_clsKind (p : Nat) (x : FabPort) : (s.withPort p x).clsKind = s.clsKind := rfl
@[simp] theorem withPort_pci (p : Nat) (x : FabPort) : (s.withPort p x).pci = s.pci := rfl
@[simp] theorem withPort_sto (p : Nat) (x : FabPort) : (s.withPort p x).sto = s.sto := rfl
@[simp] theorem withPort_bed (p : Nat) (x : FabPort) : (s.withPort p x).bed = s.bed := rfl
@[simp] theorem withPort_sites (p : Nat) (x : FabPort) : (s.withPort p x).sites = s.sites := rfl
@[simp] theorem withPort_conf (p : Nat) (x : FabPort) : (s.withPort p x).conf = s.conf := rfl
@[simp] theorem withPort_auth (p : Nat) (x : FabPort) : (s.withPort p x).auth = s.auth := rfl
@[simp] theorem withPort_upd (p : Nat) (x : FabPort) : (s.withPort p x).upd = s.upd := rfl
@[simp] theorem withPort_flt (p : Nat) (x : FabPort) : (s.withPort p x).flt = s.flt := rfl
@[simp] theorem withPort_pwr (p : Nat) (x : FabPort) : (s.withPort p x).pwr = s.pwr := rfl

@[simp] theorem withSite_pending (k : Nat) (x : Site) : (s.withSite k x).pending = s.pending := rfl
@[simp] theorem withSite_serial (k : Nat) (x : Site) : (s.withSite k x).serial = s.serial := rfl
@[simp] theorem withSite_tick (k : Nat) (x : Site) : (s.withSite k x).tick = s.tick := rfl
@[simp] theorem withSite_bootDraw (k : Nat) (x : Site) : (s.withSite k x).bootDraw = s.bootDraw := rfl
@[simp] theorem withSite_out (k : Nat) (x : Site) : (s.withSite k x).out = s.out := rfl
@[simp] theorem withSite_inv (k : Nat) (x : Site) : (s.withSite k x).inv = s.inv := rfl
@[simp] theorem withSite_mem (k : Nat) (x : Site) : (s.withSite k x).mem = s.mem := rfl
@[simp] theorem withSite_poison (k : Nat) (x : Site) : (s.withSite k x).poison = s.poison := rfl
@[simp] theorem withSite_tiles (k : Nat) (x : Site) : (s.withSite k x).tiles = s.tiles := rfl
@[simp] theorem withSite_stk (k : Nat) (x : Site) : (s.withSite k x).stk = s.stk := rfl
@[simp] theorem withSite_cmpts (k : Nat) (x : Site) : (s.withSite k x).cmpts = s.cmpts := rfl
@[simp] theorem withSite_dispCnt (k : Nat) (x : Site) : (s.withSite k x).dispCnt = s.dispCnt := rfl
@[simp] theorem withSite_marks (k : Nat) (x : Site) : (s.withSite k x).marks = s.marks := rfl
@[simp] theorem withSite_snaps (k : Nat) (x : Site) : (s.withSite k x).snaps = s.snaps := rfl
@[simp] theorem withSite_stallLimit (k : Nat) (x : Site) : (s.withSite k x).stallLimit = s.stallLimit := rfl
@[simp] theorem withSite_posts (k : Nat) (x : Site) : (s.withSite k x).posts = s.posts := rfl
@[simp] theorem withSite_unmaps (k : Nat) (x : Site) : (s.withSite k x).unmaps = s.unmaps := rfl
@[simp] theorem withSite_coh (k : Nat) (x : Site) : (s.withSite k x).coh = s.coh := rfl
@[simp] theorem withSite_sc (k : Nat) (x : Site) : (s.withSite k x).sc = s.sc := rfl
@[simp] theorem withSite_graftCaches (k : Nat) (x : Site) : (s.withSite k x).graftCaches = s.graftCaches := rfl
@[simp] theorem withSite_hubHome (k : Nat) (x : Site) : (s.withSite k x).hubHome = s.hubHome := rfl
@[simp] theorem withSite_stripes (k : Nat) (x : Site) : (s.withSite k x).stripes = s.stripes := rfl
@[simp] theorem withSite_guarded (k : Nat) (x : Site) : (s.withSite k x).guarded = s.guarded := rfl
@[simp] theorem withSite_routers (k : Nat) (x : Site) : (s.withSite k x).routers = s.routers := rfl
@[simp] theorem withSite_wires (k : Nat) (x : Site) : (s.withSite k x).wires = s.wires := rfl
@[simp] theorem withSite_lost (k : Nat) (x : Site) : (s.withSite k x).lost = s.lost := rfl
@[simp] theorem withSite_base (k : Nat) (x : Site) : (s.withSite k x).base = s.base := rfl
@[simp] theorem withSite_detours (k : Nat) (x : Site) : (s.withSite k x).detours = s.detours := rfl
@[simp] theorem withSite_masters (k : Nat) (x : Site) : (s.withSite k x).masters = s.masters := rfl
@[simp] theorem withSite_deadlines (k : Nat) (x : Site) : (s.withSite k x).deadlines = s.deadlines := rfl
@[simp] theorem withSite_urgHub (k : Nat) (x : Site) : (s.withSite k x).urgHub = s.urgHub := rfl
@[simp] theorem withSite_clsCmpts (k : Nat) (x : Site) : (s.withSite k x).clsCmpts = s.clsCmpts := rfl
@[simp] theorem withSite_clsKind (k : Nat) (x : Site) : (s.withSite k x).clsKind = s.clsKind := rfl
@[simp] theorem withSite_pci (k : Nat) (x : Site) : (s.withSite k x).pci = s.pci := rfl
@[simp] theorem withSite_sto (k : Nat) (x : Site) : (s.withSite k x).sto = s.sto := rfl
@[simp] theorem withSite_bed (k : Nat) (x : Site) : (s.withSite k x).bed = s.bed := rfl
@[simp] theorem withSite_fab (k : Nat) (x : Site) : (s.withSite k x).fab = s.fab := rfl
@[simp] theorem withSite_conf (k : Nat) (x : Site) : (s.withSite k x).conf = s.conf := rfl
@[simp] theorem withSite_auth (k : Nat) (x : Site) : (s.withSite k x).auth = s.auth := rfl
@[simp] theorem withSite_upd (k : Nat) (x : Site) : (s.withSite k x).upd = s.upd := rfl
@[simp] theorem withSite_flt (k : Nat) (x : Site) : (s.withSite k x).flt = s.flt := rfl
@[simp] theorem withSite_pwr (k : Nat) (x : Site) : (s.withSite k x).pwr = s.pwr := rfl

end Sys2Proof.Machine
end

