-- ==== Sys2Proof/Laws/Tables.lean ====
section
/-! SUPPORT. Reading a table after a write, and lists after a change at one place. -/

namespace Sys2Proof

variable {α : Type}

/-- What was written is read. -/
@[simp] theorem Tab.look_put_same (t : Tab α) (k : Nat) (v d : α) : Tab.look (Tab.put t k v) k d = v := by
  induction t with
  | nil => simp [Tab.put, Tab.look]
  | cons e t ih =>
    obtain ⟨k', v'⟩ := e
    simp only [Tab.put]
    split
    · simp [Tab.look]
    · split
      · simp [Tab.look]
      · have h1 : k' ≠ k := by omega
        have h2 : ¬ k < k' := by omega
        simp [Tab.look, h1, h2, ih]

/-- Every other entry reads as before. -/
@[simp] theorem Tab.look_put_ne (t : Tab α) {k j : Nat} (h : j ≠ k) (v d : α) : Tab.look (Tab.put t k v) j d = Tab.look t j d := by
  induction t with
  | nil =>
    have h1 : k ≠ j := by omega
    simp [Tab.put, Tab.look, h1]
  | cons e t ih =>
    obtain ⟨k', v'⟩ := e
    have h1 : k ≠ j := by omega
    simp only [Tab.put]
    split
    · rename_i hlt
      simp only [Tab.look, h1, if_false]
      split
      · have h2 : k' ≠ j := by omega
        have h3 : j < k' := by omega
        simp [h2, h3]
      · rfl
    · split
      · rename_i _ he
        subst he
        simp [Tab.look, h1]
      · simp [Tab.look, ih]

/-- Only the last of two writes to one entry stays. -/
@[simp] theorem Tab.put_put (t : Tab α) (k : Nat) (v w : α) : Tab.put (Tab.put t k v) k w = Tab.put t k w := by
  induction t with
  | nil => simp [Tab.put]
  | cons e t ih =>
    obtain ⟨k', v'⟩ := e
    simp only [Tab.put]
    split
    · simp [Tab.put]
    · split
      · simp [Tab.put]
      · rename_i h1 h2
        simp [Tab.put, h1, h2, ih]

@[simp] theorem Tab.look_nil (k : Nat) (d : α) : Tab.look ([] : Tab α) k d = d := rfl

/-- A list keeps its length when one element changes. -/
@[simp] theorem length_modNth (l : List α) (n : Nat) (f : α → α) : (modNth l n f).length = l.length := by
  induction l generalizing n with
  | nil => simp [modNth]
  | cons x t ih => cases n <;> simp [modNth, ih]

/-- The changed element. -/
theorem getElem?_modNth_same (l : List α) (n : Nat) (f : α → α) : (modNth l n f)[n]? = (l[n]?).map f := by
  induction l generalizing n with
  | nil => simp [modNth]
  | cons x t ih => cases n <;> simp [modNth, ih]

/-- Every other element is as before. -/
theorem getElem?_modNth_ne (l : List α) {n k : Nat} (f : α → α) (h : k ≠ n) : (modNth l n f)[k]? = l[k]? := by
  induction l generalizing n k with
  | nil => simp [modNth]
  | cons x t ih =>
    cases n with
    | zero => cases k with
      | zero => exact absurd rfl h
      | succ k => simp [modNth]
    | succ n => cases k with
      | zero => simp [modNth]
      | succ k => simpa [modNth] using ih (by omega)

end Sys2Proof
end

