-- ==== Sys2Proof/Laws/Gates.lean ====
section
/-! SUPPORT. What the gates of a command do, and what the named updates of one unit do, each said once. -/

namespace Sys2Proof.Machine

variable {s : State}

/-- A command of a device that is up has its effect. -/
theorem upDo_up (h : s.isUp = true) (f : State → State) : upDo s f = .next (f s) := by simp [upDo, h]

/-- A command of a device that is not up changes nothing. -/
theorem upDo_down (h : s.isUp = false) (f : State → State) : upDo s f = .next s := by simp [upDo, h]

theorem onDo_on (h : s.isOn = true) (f : State → State) : onDo s f = .next (f s) := by simp [onDo, h]

theorem onDo_off (h : s.isOn = false) (f : State → State) : onDo s f = .next s := by simp [onDo, h]

/-- A device that is up is on. -/
theorem isOn_of_isUp (h : s.isUp = true) : s.isOn = true := by
  simp only [State.isUp, Bool.and_eq_true] at h
  exact h.1.1.1

theorem isUp_of_not_isOn (h : s.isOn = false) : s.isUp = false := by simp [State.isUp, h]

/-- An access of a running kernel has its effect. -/
theorem cpDo_ready {d i : Nat} (h : s.isUp = true) (hr : s.cpReady d i = true) (f : State → State) : cpDo s d i f = .next (f s) := by
  simp [cpDo, upDo, h, hr]

theorem cpReady_tile {d i : Nat} (h : s.cpReady d i = true) : isTileDie d = true ∧ i < 8 := by
  simp only [State.cpReady, Bool.and_eq_true, decide_eq_true_eq] at h
  exact ⟨h.1.1.1.1.1.1.1, h.1.1.1.1.1.1.2⟩

theorem modCore_eq {d i : Nat} (hd : isTileDie d = true) (hi : i < 8) (f : Core → Core) :
    s.modCore d i f = s.withCore d i (f (s.core d i)) := by
  simp [State.modCore, State.modTile, State.withCore, State.core, hd, hi]

/-- A core just written is read back. -/
@[simp] theorem core_withCore (d i : Nat) (c : Core) : (s.withCore d i c).core d i = c := by
  simp [State.withCore, State.core, State.tile]

/-- Only the last of two writes to one core stays. -/
@[simp] theorem withCore_withCore (d i : Nat) (c e : Core) : (s.withCore d i c).withCore d i e = s.withCore d i e := by
  simp [State.withCore, State.tile]

theorem modCmpt_eq {c : Nat} (hc : c < 64) (f : Cmpt → Cmpt) : s.modCmpt c f = s.withCmpt c (f (s.cmpt c)) := by
  simp [State.modCmpt, State.withCmpt, hc]

theorem modStack_eq {l : Nat} (h : l < 32) (f : Stack → Stack) : s.modStack l f = s.withStack l (f (s.stack l)) := by
  simp [State.modStack, State.withStack, h]

theorem modRouter_eq {d : Nat} (h : d ≤ 28) (f : Router → Router) : s.modRouter d f = s.withRouter d (f (s.router d)) := by
  simp [State.modRouter, State.withRouter, h]

theorem modFport_eq {p : Nat} (h : p < 28) (f : FabPort → FabPort) : s.modFport p f = s.withPort p (f (s.fport p)) := by
  simp [State.modFport, State.withPort, h]

theorem modSite_eq {k : Nat} (h : k < 4) (f : Site → Site) : s.modSite k f = s.withSite k (f (s.site k)) := by
  simp [State.modSite, State.withSite, h]

/-- A BAR0 write that passes every gate is performed by its register. -/
theorem bar0T_free {fn : Nat} (h : s.bar0Free fn) (o : Nat) (x : BitVec 64) : s.bar0T fn o x = s.bar0Write fn o x := by
  obtain ⟨h1, h2, h3, h4, h5⟩ := h
  rcases h5 with h5 | h5 <;> simp [State.bar0T, State.bar0, State.bar0Open, h1, h2, h3, h4, h5]

@[simp] theorem cmpt_withCmpt (c : Nat) (m : Cmpt) : (s.withCmpt c m).cmpt c = m := by simp [State.cmpt, State.withCmpt]

theorem cmpt_withCmpt_ne {c k : Nat} (h : k ≠ c) (m : Cmpt) : (s.withCmpt c m).cmpt k = s.cmpt k := by
  simp [State.cmpt, State.withCmpt, h]

@[simp] theorem stack_withStack (l : Nat) (k : Stack) : (s.withStack l k).stack l = k := by simp [State.stack, State.withStack]

theorem stack_withStack_ne {l j : Nat} (h : j ≠ l) (k : Stack) : (s.withStack l k).stack j = s.stack j := by
  simp [State.stack, State.withStack, h]

@[simp] theorem router_withRouter (d : Nat) (r : Router) : (s.withRouter d r).router d = r := by simp [State.router, State.withRouter]

@[simp] theorem fport_withPort (p : Nat) (x : FabPort) : (s.withPort p x).fport p = x := by simp [State.fport, State.withPort]

@[simp] theorem site_withSite (k : Nat) (x : Site) : (s.withSite k x).site k = x := by simp [State.site, State.withSite]

end Sys2Proof.Machine
end

