-- ==== Sys2Proof/Laws/Memory.lean ====
section
/-! SUPPORT. Memory: a read after a write, and the canonical form that every operation on memory keeps. -/

namespace Sys2Proof.Machine

theorem risingFrom_cons {a k : Nat} {v : Byte} {t : List Host.Cell} :
    risingFrom a ((k, v) :: t) = true ↔ a ≤ k ∧ v ≠ 0 ∧ risingFrom (k + 1) t = true := by
  simp only [risingFrom, Bool.and_eq_true, decide_eq_true_eq, bne_iff_ne, and_assoc]

theorem risingFrom_mono {m : List Host.Cell} : ∀ {a b : Nat}, b ≤ a → risingFrom a m = true → risingFrom b m = true := by
  intro a b h hr
  cases m with
  | nil => rfl
  | cons c t =>
    obtain ⟨k, v⟩ := c
    simp only [risingFrom, Bool.and_eq_true, decide_eq_true_eq] at hr ⊢
    exact ⟨⟨by omega, hr.1.2⟩, hr.2⟩

theorem memGet_of_lt {m : List Host.Cell} : ∀ {a b : Nat}, risingFrom b m = true → a < b → memGet m a = 0 := by
  intro a b hr h
  cases m with
  | nil => rfl
  | cons c t =>
    obtain ⟨k, v⟩ := c
    simp only [risingFrom, Bool.and_eq_true, decide_eq_true_eq] at hr
    have h1 : k ≠ a := by omega
    have h2 : a < k := by omega
    simp [memGet, h1, h2]

/-- One byte written keeps the canonical form above any bound below it. -/
theorem risingFrom_memPut {m : List Host.Cell} {a : Nat} (v : Byte) : ∀ {b : Nat}, b ≤ a → risingFrom b m = true → risingFrom b (memPut m a v) = true := by
  induction m with
  | nil =>
    intro b h _
    simp only [memPut]
    split
    · rfl
    · simp_all [risingFrom]
  | cons c t ih =>
    obtain ⟨k, w⟩ := c
    intro b h hr
    obtain ⟨h1, h2, h3⟩ := risingFrom_cons.mp hr
    simp only [memPut]
    split
    · rename_i hlt
      split
      · exact hr
      · rename_i hv
        exact risingFrom_cons.mpr ⟨h, hv, risingFrom_cons.mpr ⟨hlt, h2, h3⟩⟩
    · split
      · rename_i _ he
        subst he
        split
        · exact risingFrom_mono (by omega) h3
        · rename_i hv
          exact risingFrom_cons.mpr ⟨h1, hv, h3⟩
      · exact risingFrom_cons.mpr ⟨h1, h2, ih (b := k + 1) (by omega) h3⟩

/-- One byte written keeps the canonical form. -/
@[simp] theorem memWf_memPut {m : List Host.Cell} (h : memWf m = true) (a : Nat) (v : Byte) : memWf (memPut m a v) = true :=
  risingFrom_memPut v (Nat.zero_le a) h

/-- Bytes written keep the canonical form. -/
@[simp] theorem memWf_memPuts {l : List Byte} : ∀ {m : List Host.Cell} (_ : memWf m = true) (a : Nat), memWf (memPuts m a l) = true := by
  induction l with
  | nil => intro m h _; exact h
  | cons b t ih => intro m h a; exact ih (memWf_memPut h a b) (a + 1)

/-- Memory with entries left out keeps the canonical form. -/
theorem risingFrom_filter (p : Host.Cell → Bool) {m : List Host.Cell} : ∀ {b : Nat}, risingFrom b m = true → risingFrom b (m.filter p) = true := by
  induction m with
  | nil => intro b _; rfl
  | cons c t ih =>
    obtain ⟨k, v⟩ := c
    intro b hr
    obtain ⟨h1, h2, h3⟩ := risingFrom_cons.mp hr
    simp only [List.filter_cons]
    split
    · exact risingFrom_cons.mpr ⟨h1, h2, ih h3⟩
    · exact risingFrom_mono (by omega) (ih h3)

@[simp] theorem memWf_filter (p : Host.Cell → Bool) {m : List Host.Cell} (h : memWf m = true) : memWf (m.filter p) = true :=
  risingFrom_filter p h

/-- The byte written is read. -/
@[simp] theorem memGet_memPut_same {m : List Host.Cell} (a : Nat) (v : Byte) : ∀ {b : Nat}, risingFrom b m = true → memGet (memPut m a v) a = v := by
  induction m with
  | nil =>
    intro b _
    simp only [memPut]
    split
    · simp_all [memGet]
    · simp [memGet]
  | cons c t ih =>
    obtain ⟨k, w⟩ := c
    intro b hr
    simp only [risingFrom, Bool.and_eq_true, decide_eq_true_eq] at hr
    simp only [memPut]
    split
    · rename_i hlt
      split
      · have : k ≠ a := by omega
        simp_all [memGet]
      · simp [memGet]
    · split
      · rename_i _ he
        subst he
        split
        · rename_i hv
          rw [hv]; exact memGet_of_lt hr.2 (by omega)
        · simp [memGet]
      · have h1 : k ≠ a := by omega
        have h2 : ¬ a < k := by omega
        simp [memGet, h1, h2, ih hr.2]

/-- Every other byte reads as before. -/
@[simp] theorem memGet_memPut_ne {m : List Host.Cell} {a c : Nat} (v : Byte) (hne : c ≠ a) : ∀ {b : Nat}, risingFrom b m = true → memGet (memPut m a v) c = memGet m c := by
  induction m with
  | nil =>
    intro b _
    simp only [memPut]
    split
    · rfl
    · have : a ≠ c := by omega
      simp [memGet, this]
  | cons e t ih =>
    obtain ⟨k, w⟩ := e
    intro b hr
    simp only [risingFrom, Bool.and_eq_true, decide_eq_true_eq] at hr
    have hne' : a ≠ c := by omega
    simp only [memPut]
    split
    · rename_i hlt
      split
      · rfl
      · simp only [memGet, hne', if_false]
        split
        · have h1 : k ≠ c := by omega
          have h2 : c < k := by omega
          simp [h1, h2]
        · rfl
    · split
      · rename_i _ he
        subst he
        split
        · simp only [memGet, hne', if_false]
          split
          · exact memGet_of_lt hr.2 (by omega)
          · rfl
        · simp [memGet, hne']
      · simp [memGet, ih hr.2]

/-- Bytes outside a written range read as before. -/
theorem memGet_memPuts_ne {l : List Byte} : ∀ {m : List Host.Cell} {a c : Nat}, memWf m = true → (c < a ∨ a + l.length ≤ c) → memGet (memPuts m a l) c = memGet m c := by
  induction l with
  | nil => intro m a c _ _; rfl
  | cons b t ih =>
    intro m a c hm h
    simp only [List.length_cons] at h
    simp only [memPuts]
    rw [ih (memWf_memPut hm a b) (by omega)]
    exact memGet_memPut_ne b (by omega) hm

/-- The bytes written are read. -/
theorem memGets_memPuts {l : List Byte} : ∀ {m : List Host.Cell} {a : Nat}, memWf m = true → memGets (memPuts m a l) a l.length = l := by
  induction l with
  | nil => intro m a _; rfl
  | cons b t ih =>
    intro m a hm
    simp only [memPuts, List.length_cons, memGets, ih (memWf_memPut hm a b)]
    rw [memGet_memPuts_ne (memWf_memPut hm a b) (by omega), memGet_memPut_same a b hm]

/-- A poisoned sector is written in canonical form. -/
theorem memWf_poisonSec {s : State} (h : memWf s.mem = true) (n : Nat) : memWf (s.poisonSec n).mem = true := by
  simp only [State.poisonSec]
  exact memWf_memPuts h _

/-- Bytes written within one sector keep the canonical form. -/
theorem memWf_wrSec {s : State} (h : memWf s.mem = true) (a : Nat) (l : List Byte) : memWf (s.wrSec a l).mem = true := by
  unfold State.wrSec
  split
  · exact memWf_memPuts h a
  · split
    · exact h
    · exact memWf_memPuts h a

theorem memWf_wrGo : ∀ (fuel : Nat) {s : State} (_ : memWf s.mem = true) (a : Nat) (l : List Byte), memWf (State.wrGo fuel s a l).mem = true := by
  intro fuel
  induction fuel with
  | zero => intro s h _ _; exact h
  | succ n ih =>
    intro s h a l
    simp only [State.wrGo]
    split
    · exact h
    · exact ih (memWf_wrSec h _ _) _ _

/-- A write of any length keeps the canonical form. -/
theorem memWf_wr {s : State} (h : memWf s.mem = true) (a : Nat) (l : List Byte) : memWf (s.wr a l).mem = true :=
  memWf_wrGo _ h a l

/-- Marking a range poisoned keeps the canonical form. -/
theorem memWf_poisonRange {s : State} (h : memWf s.mem = true) (a n : Nat) : memWf (s.poisonRange a n).mem = true := by
  unfold State.poisonRange
  generalize sectors a n = l
  induction l generalizing s with
  | nil => exact h
  | cons x t ih =>
    simp only [List.foldl_cons]
    exact ih (memWf_poisonSec h x)

/-- Clearing a range keeps the canonical form. -/
theorem memWf_zeroRange {s : State} (h : memWf s.mem = true) (a n : Nat) : memWf (s.zeroRange a n).mem = true := by
  unfold State.zeroRange
  simp only []
  split
  · rw [modStack_mem]
    exact memWf_filter _ h
  · exact memWf_filter _ h

end Sys2Proof.Machine
end

