-- ==== Sys2Proof/Tests/Slice0.lean ====
section
/-! SUPPORT. The model's own tests: ill-formed commands that WellFormed refuses, and for the hypotheses of each statement a small state that meets them, at the ends of the ranges the clauses name. -/

set_option Elab.async false

namespace Sys2Proof.Tests

open Sys2Proof Sys2Proof.Machine

/-! ### Small states -/

/-- A device that has started up. -/
def up : State := { State.reset with pwr := { State.reset.pwr with bootStep := 0 } }

/-- `up` with one core, core 0 of die 1. -/
def withCore0 (c : Core) : State := { up with tiles := [(1, { cores := [(0, c)] })] }

/-- A kernel of compartment 1 that runs. -/
def kernel : Core := { user := true, run := some { cmpt := 1 } }

/-- A queue word from its four 64-bit words. -/
def cw (w0 w1 w2 w3 : Nat) : BitVec 256 := BitVec.ofNat 256 (w0 + 2 ^ 64 * w1 + 2 ^ 128 * w2 + 2 ^ 192 * w3)

/-- A core with one command in queue `q`. -/
def queued (q : Nat) (w : BitVec 256) : State := withCore0 { kernel with queues := [(q, [{ word := w }])] }

/-- `up` with compartment 1. -/
def withCmpt1 (m : Cmpt) : State := { up with cmpts := [(1, m)] }

/-- What `readyCmd` asks, as a test. -/
def readyB (s : State) (d i q op : Nat) (e : QEntry) : Bool :=
  isTileDie d && decide (i < 8) && decide (q < 6) && (match oldestWaiting ((s.core d i).queue q) with | some x => x.2 == e | none => false) && qop e.word == op &&
    s.cmdWait d i e && (q != 5 || (s.core d i).movSeed.isNone) &&
    (!qpostEn e.word || (pwFormat (qpost e.word) && s.corePostOk d i (s.coreCmpt d i) (qpost e.word) && (pwKind (qpost e.word) != 3 || s.hasFabric)))

theorem ready_of_readyB {s : State} {d i q op : Nat} {e : QEntry} (h : readyB s d i q op e = true) : s.readyCmd d i q op e := by
  simp only [readyB, Bool.and_eq_true, decide_eq_true_eq, beq_iff_eq] at h
  obtain ⟨⟨⟨⟨⟨⟨⟨h1, h2⟩, h3⟩, h4⟩, h5⟩, h6⟩, h7⟩, h8⟩ := h
  refine ⟨h1, h2, h3, ?_, h5, h6, ?_, ?_⟩
  · cases hx : oldestWaiting ((s.core d i).queue q) with
    | none => simp [hx] at h4
    | some x =>
      simp only [hx, beq_iff_eq] at h4
      exact ⟨x.1, by rw [← h4]⟩
  · intro hq
    simpa [hq] using h7
  · intro hp
    simp only [hp, Bool.not_true, Bool.false_or, Bool.and_eq_true, Bool.or_eq_true, bne_iff_ne] at h8
    exact ⟨h8.1.1, h8.1.2, fun h => h8.2.resolve_left (fun g => g h)⟩

/-- The readiness of the only command of a queue of core 0 of die 1. -/
def ready0 (s : State) (q op : Nat) (w : BitVec 256) : Prop := s.readyCmd 1 0 q op { word := w }

theorem ready0_of (s : State) (q op : Nat) (w : BitVec 256) (h : readyB s 1 0 q op { word := w } = true) : ready0 s q op w := ready_of_readyB h

/-- A table reads its default or an entry it holds. -/
theorem look_mem {α : Type} (t : Tab α) (k : Nat) (d : α) : Tab.look t k d = d ∨ ∃ e ∈ t, Tab.look t k d = e.2 := by
  induction t with
  | nil => exact .inl rfl
  | cons e t ih =>
    obtain ⟨k', v⟩ := e
    simp only [Tab.look]
    split
    · exact .inr ⟨_, .head _, rfl⟩
    · split
      · exact .inl rfl
      · rcases ih with h | ⟨e, h, g⟩
        · exact .inl h
        · exact .inr ⟨e, .tail _ h, g⟩

/-- With no coherence message and empty caches and directories, no line is cached anywhere. -/
theorem uncached_empty {s : State} (a n : Nat) (h : s.coh = [] ∧ s.sc.lines = [] ∧ s.graftCaches = [] ∧ (∀ t ∈ s.tiles, t.2.rlc.lines = [] ∧ t.2.cpc = []) ∧
    s.hubHome.dir = [] ∧ ∀ t ∈ s.stk, t.2.dir = []) : s.uncached a n := by
  obtain ⟨h1, h2, h3, h4, h5, h6⟩ := h
  refine ⟨h1, fun d u e he => ?_, fun k e he => ?_⟩
  · have hl : (s.cache d u).lines = [] := by
      simp only [State.cache, h3, Tab.look_nil]
      split
      · rfl
      · split
        · exact h2
        · have := look_mem s.tiles d {}
          split
          · simp only [State.tile]
            rcases this with g | ⟨x, hx, g⟩
            · rw [g]; rfl
            · rw [g, (h4 x hx).2]; rfl
          · simp only [State.tile]
            rcases this with g | ⟨x, hx, g⟩
            · rw [g]
            · rw [g, (h4 x hx).1]
    simp [hl] at he
  · have hl : (s.home k).dir = [] := by
      simp only [State.home]
      split
      · exact h5
      · simp only [State.stack]
        rcases look_mem s.stk k {} with g | ⟨x, hx, g⟩
        · rw [g]
        · rw [g, h6 x hx]
    simp [hl] at he

/-- A post word to dispatcher counter 8 of compartment 1 with increment 1. -/
def post8 : BitVec 32 := BitVec.ofNat 32 (2 ^ 31 + 2 ^ 14 + 8)

/-- Compartment 1 as a plan sets it. -/
def cm1 : Cmpt := { state := .ready, plan := some {} }

/-- A segment of 1 MiB with every permission at the start of stack 0. -/
def seg0 : Seg := { w0 := 0x8078000000100000, w2 := 0x100000 }

/-- A descriptor from fields: byte offset and value. -/
def db (l : List (Nat × Nat)) : BitVec 1024 := BitVec.ofNat 1024 (l.foldl (fun n p => n + 2 ^ (8 * p.1) * p.2) 0)

/-- One management session, bound or not. -/
def managed (b : Bool) : State := { up with auth := { up.auth with sessions := [{ id := 2, clientBound := b }], anchor := some 5 } }

/-- A device in MANUFACTURING, PERSONALISED and so on, by the three copies of its code. -/
def lifeCycle (n : Nat) : State := { up with auth := { (managed true).auth with lcCopies := [lcCode n, lcCode n, lcCode n], lcRead := lcCode n } }

/-- Stack 0 served by tile 1, whose memory controller is `m`. -/
def withMem (m : MemCtl) : State := { up with stk := [(0, { die := 1 })], tiles := [(1, { mem := m })] }

/-! ### Cores, tokens and rings -/

/-- Witness of CoreStoresReachCountersAndQueues: a running kernel; waits met and not; a queue of none and of 32 entries. -/
theorem witness_core_stores :
    (withCore0 kernel).isUp = true ∧ (withCore0 kernel).cpReady 1 0 = true ∧
    waitMet (((withCore0 kernel).core 1 0).cnt.look (bits (63 : BitVec 64) 5 0) 0) (BitVec.ofNat 16 (bits (63 : BitVec 64) 31 16)) = true ∧
    waitMet (((withCore0 kernel).core 1 0).cnt.look (bits (0x10000 : BitVec 64) 5 0) 0) (BitVec.ofNat 16 (bits (0x10000 : BitVec 64) 31 16)) = false ∧
    (0x80000000 : BitVec 64).getLsbD 31 = true ∧ (withCore0 kernel).coreCmpt 1 0 = 1 ∧ (0 + [(0 : Byte)].length < 32) ∧ (31 + [(0 : Byte)].length = 32) ∧
    (((withCore0 kernel).core 1 0).queue 5).length < 32 ∧
    (withCore0 { kernel with queues := [(5, List.replicate 32 {})] }).cpReady 1 0 = true ∧
    32 ≤ (((withCore0 { kernel with queues := [(5, List.replicate 32 {})] }).core 1 0).queue 5).length := by decide

/-- Witness of KernelEndsOnExitOrTrap. -/
theorem witness_kernel_ends :
    (withCore0 kernel).isUp = true ∧ isTileDie 1 = true ∧ ((withCore0 kernel).core 1 0).user = true ∧
    ((withCore0 kernel).core 1 0).run = some { cmpt := 1 } ∧ (withCore0 kernel).cpReady 1 0 = true := by decide

/-- Witness of ControlProcessorReachesScratch: both ends of the scratch, and the first address outside the listed ranges. -/
theorem witness_scratch :
    (withCore0 kernel).cpReady 1 0 = true ∧ 0 + 8 ≤ 0x4_0000 ∧ 0x3FFFF + [(7 : Byte)].length ≤ 0x4_0000 ∧ 2 * 2 ^ 48 ≤ (0x2000000000000 : BitVec 64).toNat ∧
    memWf (withCore0 kernel).mem = true ∧ (withCore0 kernel).pois (scratchBase 1 0 + 0x3FFFF) 1 = false := by decide

/-- Witness of TokenPostsApplyOnceAndStallsAreReported: a post to the dispatcher, a post that a mark covers, a BAR0 that is open, a wait beyond and at the limit. -/
theorem witness_token_posts :
    (let s : State := { withCmpt1 cm1 with posts := [{ cmpt := 1, word := post8 }] }
     s.isUp = true ∧ s.posts[0]? = some { cmpt := 1, word := post8 } ∧ pwKind post8 = 2 ∧ s.postFate 1 post8 = 0) ∧
    (let s : State := { withCmpt1 cm1 with posts := [{ cmpt := 1, word := post8, rank := some 0, launch := 3, idx := 5 }], marks := [{ unit := .disp, cmpt := 1, rank := 0, mark := { launch := 3, idx := 5 } }] }
     s.postUnit 1 post8 = some .disp ∧ s.mark .disp 1 0 = some { launch := 3, idx := 5 }) ∧
    (1 < 64 ∧ (withCmpt1 cm1).cstate 1 ≠ .fallow ∧ ((withCmpt1 cm1).cmpt 1).tdi = .unlocked ∧ ((withCmpt1 cm1).cmpt 1).heldWr = [] ∧ ((withCmpt1 cm1).cmpt 1).vitrine = false) ∧
    (let s := withCore0 { kernel with corWait := some 0x10000 }
     (s.core 1 0).corWait = some 0x10000 ∧ (s.core 1 0).waitReported = false ∧ bits s.stallLimit 19 0 ≠ 0 ∧ bits s.stallLimit 19 0 < 1000001 ∧ 1000000 ≤ bits s.stallLimit 19 0) ∧
    up.waits = [] := by decide

/-- Witness of RingRegistersPublishAndFree: rings off and on at both ends of the size, a tail at the last slot and one beyond it, head doorbells that free. -/
theorem witness_rings :
    (let s := withCmpt1 { cm1 with sq := [(0, { ctrl := 0x104 })], cq := { ctrl := 0x110, tail := 2 }, eq := { ctrl := 0x104, tail := 3 } }
     s.pwr.state = .active ∧ ringOn ((s.cmpt 1).ring 0).ctrl = true ∧ bits (15 : BitVec 64) 15 0 < ringSize ((s.cmpt 1).ring 0).ctrl ∧
     (bits (15 : BitVec 64) 15 0 + ringSize ((s.cmpt 1).ring 0).ctrl - ((s.cmpt 1).ring 0).tail) % ringSize ((s.cmpt 1).ring 0).ctrl
        + ringUsed ((s.cmpt 1).ring 0).ctrl ((s.cmpt 1).ring 0).head ((s.cmpt 1).ring 0).tail ≤ ringSize ((s.cmpt 1).ring 0).ctrl - 1 ∧
     ringSize ((s.cmpt 1).ring 0).ctrl ≤ bits (16 : BitVec 64) 15 0 ∧ ringOn ((s.cmpt 1).ring 3).ctrl = false ∧ s.cstate 1 = .ready ∧
     (0x104 : BitVec 64).getLsbD 8 = true ∧ bits (0x104 : BitVec 64) 4 0 = 4 ∧ bits (0x110 : BitVec 64) 4 0 = 16 ∧ bits (0x103 : BitVec 64) 4 0 < 4 ∧ 16 < bits (0x111 : BitVec 64) 4 0 ∧
     ringOn (s.cmpt 1).eq.ctrl = true ∧ bits (3 : BitVec 64) 15 0 < ringSize (s.cmpt 1).eq.ctrl ∧ ringUsed (s.cmpt 1).eq.ctrl (s.cmpt 1).eq.head 3 ≤ ringUsed (s.cmpt 1).eq.ctrl (s.cmpt 1).eq.head (s.cmpt 1).eq.tail ∧
     ringOn (s.cmpt 1).cq.ctrl = true ∧ ringUsed (s.cmpt 1).cq.ctrl (s.cmpt 1).cq.head 2 ≤ ringUsed (s.cmpt 1).cq.ctrl (s.cmpt 1).cq.head (s.cmpt 1).cq.tail ∧ 2 ≠ (s.cmpt 1).cq.head ∧ (s.cmpt 1).cq.held = []) ∧
    ringSize (withCmpt1 { cm1 with cq := { ctrl := 0x104 } } |>.cmpt 1).cq.ctrl ≤ bits (16 : BitVec 64) 15 0 ∧ up.mayFetch 1 = false := by decide

/-- Witness of HostWindowsLocksAndMasks. -/
theorem witness_windows_locks :
    (withCmpt1 cm1).cstate 1 ≠ .fallow ∧ ((withCmpt1 cm1).cmpt 1).tdi = .unlocked ∧ 255 < (if 0 = 0 then 256 else 16) ∧ 15 < (if 1 = 0 then 256 else 16) ∧
    (withCmpt1 { cm1 with tdi := .locked }).cstate 1 = .ready ∧ ((withCmpt1 { cm1 with tdi := .locked }).cmpt 1).tdi = .locked ∧
    lockedReg 0x1000 = true ∧ lockedReg 0x90078 = true ∧ lockedReg 0x801F8 = true ∧
    (let s := withCmpt1 { cm1 with msixEn := true, pba := [31] }
     (s.cmpt 1).msixEn = true ∧ (s.cmpt 1).fmask = false ∧ (s.cmpt 1).pba = [31] ∧ 31 < (if 1 = 0 then 64 else 32)) := by decide

/-! ### Descriptors, ranks and queue commands -/

/-- A descriptor from its 64-bit words. -/
def dw (l : List Nat) : BitVec 1024 := BitVec.ofNat 1024 (l.foldr (fun x n => x + 2 ^ 64 * n) 0)

/-- Compartment 1 with one descriptor in ring 3. -/
def withDesc (d : Desc) : State := withCmpt1 { cm1 with sq := [(3, { ctrl := 0x104, descs := [d] })] }

/-- Witness of DescriptorsEnqueueAndStartInOrder: a fetched descriptor, one with an unknown type, and waiting ones of each kind. -/
theorem witness_descriptors_start :
    (let s := withCmpt1 { cm1 with sq := [(0, { ctrl := 0x104, fetched := [(0, 3)] })] }
     s.isUp = true ∧ s.cstate 1 = .ready ∧ ((s.cmpt 1).ring 0).consume = some (0, 3, { ctrl := 0x104, head := 1 }) ∧ ({ ctrl := 0x104, head := 1 } : SubRing).bad = []) ∧
    up.checkForm 1 (dw [0xFF]) = 0x1001 ∧
    (∀ d ∈ [({ bytes := dw [3] } : Desc), { bytes := dw [3], step := 1, code := 0x1001 }, { bytes := dw [3], xlats := [{ entry := { w0 := 0x8000000000000000 } }] }, { bytes := dw [4] }],
      ((withDesc d).cmpt 1).ring 3 = { ctrl := 0x104, descs := [d] } ∧ d.st = .waiting ∧ (withDesc d).stalledCopy 1 3 = none ∧ (withDesc d).descWaits d = true ∧ (withDesc d).epochHolds 1 = false) ∧
    (withDesc {}).stale 1 [] = false ∧ (withDesc {}).stale 1 [{ entry := { w0 := 0x8000000000000000 } }] = true ∧ dtype (dw [3]) = 3 ∧ dtype (dw [4]) = 4 ∧
    (let s : State := { withDesc { bytes := dw [4] } with stk := [(0, { die := 1, allot := [(1, 4)] })] }
     s.served (dls (dw [4])) = true ∧ s.queueRoom (dls (dw [4])) 1 = true) ∧
    up.descWaits { bytes := dw [0, 0x18000] } = false := by decide +kernel

/-- Witness of DescriptorsCompleteAndRanksRun: a finished descriptor with and without an entry, an empty completion ring, a rank to start, one that has ended and one that runs. -/
theorem witness_descriptors_complete :
    (let s := withDesc { bytes := dw [3], st := .done }
     s.isUp = true ∧ s.cstate 1 = .ready ∧ s.deltasOut 1 = false ∧ dposts (dw [3]) = [] ∧ dnoCqe (dw [3]) = false ∧ dnoCqe (dw [0x203]) = true ∧ isFailure 0 = false ∧ isFailure 0x1001 = true ∧
     s.sealedDetail 1 = false) ∧
    (let m : Cmpt := { cm1 with cq := { ctrl := 0x104 } }
     m.cq.held = [] ∧ 2 ≤ m.cq.free ∧ m.cq.head < ringSize m.cq.ctrl ∧ m.cq.tail < ringSize m.cq.ctrl) ∧
    (let e : Desc := { bytes := dw [1], st := .running, left := [0] }
     let s : State := { withCmpt1 { state := .ready, plan := some { ranks := [8] }, sq := [(3, { ctrl := 0x104, descs := [e] })] } with tiles := [(1, {})] }
     s.isUp = true ∧ dtype e.bytes = 1 ∧ s.rankCore 1 0 = some (1, 0) ∧ s.coreFree 1 0 = true ∧ s.stale 1 e.xlats = false ∧ dfield e.bytes 40 4 = 0 ∧ dfield e.bytes 56 4 = 0 ∧
     s.unserved 1 (dfield e.bytes 32 8 % 2 ^ 48) 0 false = false ∧ s.unserved 1 (dfield e.bytes 48 8 % 2 ^ 48) 0 false = false ∧
     s.absentOf 1 [(dfield e.bytes 32 8 % 2 ^ 48, 0, false), (dfield e.bytes 48 8 % 2 ^ 48, 0, false)] = none) ∧
    ((withCore0 { kernel with run := some { cmpt := 1, exited := true } }).core 1 0).portWait = none ∧ (∀ j, j < 6 → ((withCore0 kernel).core 1 0).queue j = []) := by decide +kernel

/-- Witness of QueueCommandsAreRefusedOrControl: control commands with WAIT_EN or POST_EN set, and with a reserved word or bit. -/
theorem witness_queue_commands :
    up.isUp = true ∧ ready0 (queued 4 (cw 0x101 0 0 0)) 4 0x01 (cw 0x101 0 0 0) ∧ restZero (cw 0x101 0 0 0) = true ∧ (cw 0x101 0 0 0).getLsbD 8 = true ∧
    ready0 (queued 0 (cw 0x01 0 0 0)) 0 0x01 (cw 0x01 0 0 0) ∧ (cw 0x01 0 0 0).getLsbD 8 = false ∧
    ready0 (queued 0 (cw 0x02 1 0 0)) 0 0x02 (cw 0x02 1 0 0) ∧ restZero (cw 0x02 1 0 0) = false ∧
    ready0 (queued 0 (cw 0x03 0 0 0)) 0 0x03 (cw 0x03 0 0 0) ∧ (∀ x ∈ ((queued 0 (cw 0x03 0 0 0)).core 1 0).queue 0, x.st ≠ .running) ∧
    ready0 (queued 0 (cw 0x04 9 0 0)) 0 0x04 (cw 0x04 9 0 0) ∧ ready0 (queued 4 (cw 0x04 9 0 0)) 4 0x04 (cw 0x04 9 0 0) ∧ qw (cw 0x04 9 0 0) 2 = 0 ∧ qw (cw 0x04 9 0 0) 3 = 0 ∧
    ready0 (queued 0 (cw 0x10 0 1 0)) 0 0x10 (cw 0x10 0 1 0) ∧ qw (cw 0x10 0 1 0) 2 ≠ 0 ∧ ready0 (queued 3 (cw 0x18 0 0 1)) 3 0x18 (cw 0x18 0 0 1) ∧ qw (cw 0x18 0 0 1) 3 ≠ 0 ∧
    qpostEn (cw (0x201 + 2 ^ 32 * 0x4000) 0 0 0) = true ∧ pwFormat (qpost (cw (0x201 + 2 ^ 32 * 0x4000) 0 0 0)) = true ∧
    up.corePostOk 1 0 1 (qpost (cw (0x201 + 2 ^ 32 * 0x4000) 0 0 0)) = false := by
  refine ⟨by decide +kernel, ready0_of _ _ _ _ (by decide +kernel), by decide +kernel, by decide +kernel, ready0_of _ _ _ _ (by decide +kernel), by decide +kernel, ready0_of _ _ _ _ (by decide +kernel), by decide +kernel,
    ready0_of _ _ _ _ (by decide +kernel), by decide +kernel, ready0_of _ _ _ _ (by decide +kernel), ready0_of _ _ _ _ (by decide +kernel), by decide +kernel, by decide +kernel,
    ready0_of _ _ _ _ (by decide +kernel), by decide +kernel, ready0_of _ _ _ _ (by decide +kernel), by decide +kernel, by decide +kernel, by decide +kernel, by decide +kernel⟩

/-- A POST with a post word the core may make: its own counter 0 in a compartment of one rank. -/
def postState : State := { queued 0 (cw (0x202 + 2 ^ 32 * 0x4000) 0 0 0) with cmpts := [(1, { state := .ready, plan := some { ranks := [8] } })] }

/-- Witness of the POST clause of QueueCommandsAreRefusedOrControl, and of its FENCE clause behind a running command. -/
theorem witness_post_fence :
    readyB postState 1 0 0 0x02 { word := cw (0x202 + 2 ^ 32 * 0x4000) 0 0 0 } = true ∧ (cw (0x202 + 2 ^ 32 * 0x4000) 0 0 0).getLsbD 9 = true ∧ restZero (cw (0x202 + 2 ^ 32 * 0x4000) 0 0 0) = true ∧
    (let s := withCore0 { kernel with queues := [(0, [{ word := cw 0x18 0 0 0, st := .running }, { word := cw 0x03 0 0 0, id := 1 }])] }
     readyB s 1 0 0 0x03 { word := cw 0x03 0 0 0, id := 1 } = true ∧ ∃ x ∈ (s.core 1 0).queue 0, x.st = .running) := by decide +kernel

/-- Witness of EngineSetupCommandsSetTheirSlots: both LOADs of a BF16 operand, a scale load at the end of the store, and an ACC_CLEAR of bank 3. -/
theorem witness_engine_setup :
    (∀ b : Bool, readyB (queued 3 (cw (if b then 0x11 else 0x10) (2 ^ 36) 0 0)) 1 0 3 (if b then 0x11 else 0x10) { word := cw (if b then 0x11 else 0x10) (2 ^ 36) 0 0 } = true ∧
      bits (qw (cw (if b then 0x11 else 0x10) (2 ^ 36) 0 0) 1) 63 43 = 0 ∧ bits (cw (if b then 0x11 else 0x10) (2 ^ 36) 0 0) 255 128 = 0 ∧
      loadOk (bits (qw (cw (if b then 0x11 else 0x10) (2 ^ 36) 0 0) 1) 39 36) (bit (qw (cw (if b then 0x11 else 0x10) (2 ^ 36) 0 0) 1) 40) = true ∧
      bits (qw (cw (if b then 0x11 else 0x10) (2 ^ 36) 0 0) 1) 35 18 = 0) ∧
    (let w := cw 0x12 (0x3FF80 + 2 ^ 18 * 64) 0 0
     readyB (queued 0 w) 1 0 0 0x12 { word := w } = true ∧ bits (qw w 1) 63 27 = 0 ∧ bits (qw w 1) 24 18 ≤ 64 ∧ 32 * bits (qw w 1) 17 0 + 64 * bits (qw w 1) 24 18 ≤ storeSize ∧ (queued 0 w).poison = []) ∧
    (let w := cw 0x1C 8 0 0
     readyB (queued 0 w) 1 0 0 0x1C { word := w } = true ∧ bits (qw w 1) 63 5 = 0 ∧ bit (qw w 1) 3 = true ∧ bit (qw w 1) 0 = false) := by decide +kernel

/-- Witness of MatrixProductsChangeOneBank: a product of K = 1 and of K = 0, operands of two formats, and split passes of K = 0. -/
theorem witness_matrix_products :
    (∀ k ∈ [0, 1], let w := cw 0x18 (2 ^ 25 + k) 0 0
      let o : OpSlot := { fmt := 1 }
      let s := withCore0 { kernel with queues := [(0, [{ word := w }])], eng := [(0, { slotA := [(0, o)], slotB := [(0, o)] })] }
      s.isUp = true ∧ readyB s 1 0 0 0x18 { word := w } = true ∧ bits (qw w 1) 63 37 = 0 ∧ qw w 2 = 0 ∧ qw w 3 = 0 ∧ bits (qw w 1) 28 27 = 0 ∧ bits (qw w 1) 36 35 = 0 ∧ bits (qw w 1) 34 29 = 0 ∧
      bit (qw w 1) 26 = false ∧ bit (qw w 1) 25 = true ∧ (s.engine 1 0 0).slotA.look (bits (qw w 1) 21 21) {} = (s.engine 1 0 0).slotB.look (bits (qw w 1) 22 22) {} ∧
      kInside (32 * ((s.engine 1 0 0).slotA.look (bits (qw w 1) 21 21) {}).off.toNat) ((s.engine 1 0 0).slotA.look (bits (qw w 1) 21 21) {}) (bits (qw w 1) 20 0) = true ∧
      ((s.engine 1 0 0).slotA.look (bits (qw w 1) 21 21) {}).mx = false) ∧
    (let w := cw 0x18 0 0 0
     let s := withCore0 { kernel with queues := [(0, [{ word := w }])], eng := [(0, { slotA := [(0, { fmt := 1 })], slotB := [(0, { fmt := 2 })] })] }
     readyB s 1 0 0 0x18 { word := w } = true ∧ ((s.engine 1 0 0).slotA.look (bits (qw w 1) 21 21) {}).fmt ≠ ((s.engine 1 0 0).slotB.look (bits (qw w 1) 22 22) {}).fmt) ∧
    (let w := cw 0x19 (2 ^ 25) 0 0
     let o : OpSlot := { fmt := 1 }
     let s := withCore0 { kernel with queues := [(0, [{ word := w }])], eng := [(0, { slotA := [(0, o)], slotB := [(0, o)] })] }
     readyB s 1 0 0 0x19 { word := w } = true ∧ bits (qw w 1) 63 31 = 0 ∧ bits (qw w 2) 63 36 = 0 ∧ qw w 3 = 0 ∧ bits (qw w 1) 28 25 = 1 ∧ bits (qw w 1) 30 29 < 2 ∧
     (s.engine 1 0 0).slotA.look (bits (qw w 1) 21 21) {} = (s.engine 1 0 0).slotB.look (bits (qw w 1) 22 22) {} ∧ ((s.engine 1 0 0).slotA.look (bits (qw w 1) 21 21) {}).fmt = 1 ∧ bits (qw w 1) 20 0 = 0) := by decide +kernel

/-- Witness of ResultsOfABankReachTheCoreStore: the last vector of a bank to the last place that holds it, and a result at the end of the store. -/
theorem witness_results :
    (let w := cw 0x1D (262136 + 2 ^ 39 * 63 + 2 ^ 45) 0 0
     readyB (queued 0 w) 1 0 0 0x1D { word := w } = true ∧ (queued 0 w).poison = [] ∧ memWf (queued 0 w).mem = true ∧ bits (qw w 1) 63 52 = 0 ∧ qw w 2 = 0 ∧ qw w 3 = 0 ∧ bits (qw w 1) 35 18 = 0 ∧ bits (qw w 1) 51 45 = 1 ∧
     bits (qw w 1) 44 39 < 64 ∧ 32 * bits (qw w 1) 17 0 + 256 ≤ storeSize ∧ bit (qw w 1) 38 = false ∧ (((queued 0 w).engine 1 0 0).banks.look (bits (qw w 1) 37 36) {}).poisoned = false) ∧
    (let w := cw 0x1E 261632 0 0
     readyB (queued 0 w) 1 0 0 0x1E { word := w } = true ∧ bits (qw w 1) 63 54 = 0 ∧ qw w 2 = 0 ∧ bits (qw w 3) 63 32 = 0 ∧ bits (qw w 1) 52 43 = 0 ∧ bits (qw w 1) 42 39 = 0 ∧ bits (qw w 1) 35 18 = 0 ∧
     32 * bits (qw w 1) 17 0 + 16384 ≤ storeSize) := by decide +kernel

/-- Witness of MoverCommandsMoveBytesInTheCoreStore: one row of 4,096 bytes, the last byte of the store, commands of no bytes and malformed ones. -/
theorem witness_mover :
    (∀ a n, (queued 5 0).uncached a n) ∧
    ([cw 0xC0 (2 ^ 62) (2 ^ 62 + 0x7F_F000) 4096, cw 0xC1 (2 ^ 62) (2 ^ 62 + 0x7F_F000) (1 + 2 ^ 16 * 4096), cw 0xC3 5 (2 ^ 62 + 0x7F_FFFF) 1, cw 0xC2 (2 ^ 62) (2 ^ 62 + 0x7F_F000) 1024,
        cw 0xC0 (2 ^ 62) (2 ^ 62) 0, cw 0xC1 (2 ^ 62) (2 ^ 62) 0, cw 0xC3 0 0 (2 ^ 40), cw 0xC2 0 0 (2 ^ 45)].all
      (fun w => readyB (queued 5 w) 1 0 5 (qop w) { word := w }) = true) ∧
    qw (cw 0xC0 (2 ^ 62) (2 ^ 62 + 0x7F_F000) 4096) 2 = BitVec.ofNat 64 (2 ^ 62 + 0x7F_F000) ∧ 4 * bits (qw (cw 0xC2 (2 ^ 62) (2 ^ 62 + 0x7F_F000) 1024) 3) 31 0 = 4096 ∧
    bits (qw (cw 0xC3 0 0 (2 ^ 40)) 3) 63 40 ≠ 0 ∧ bits (qw (cw 0xC2 0 0 (2 ^ 45)) 3) 63 45 ≠ 0 ∧ bits (qw (cw 0xC1 (2 ^ 62) (2 ^ 62) 0) 3) 15 0 = 0 ∧
    (let e : QEntry := { st := .done }
     let s := withCore0 { kernel with queues := [(5, [e])] }
     (s.core 1 0).queue 5 = [e] ∧ s.deltasOut (s.coreCmpt 1 0) = false ∧ qpostEn e.word = false ∧ (s.core 1 0).portWait = none ∧ (s.core 1 0).movSeed = none) ∧
    listedOp 5 (qop (cw 0xC0 0 0 0)) = true ∧ isFailure 0x1001 = true := by
  refine ⟨fun a n => uncached_empty a n (by decide +kernel), ?_⟩
  decide +kernel

/-- Witness of ShapingAddsIntegersAndGathersRows and of ShapingRowCommandsWriteOnlyTheirResult: one element at the end of the store, one row, and commands of no elements. -/
theorem witness_shaping :
    ([cw 0x40 (262143 + 2 ^ 57) (262142 + 2 ^ 58) (2 ^ 32 + 2 ^ 56 * 0xBB), cw 0x46 (2 ^ 18 * 262143) (1 + 2 ^ 16) 1,
        cw 0x41 (2 ^ 18 * 262143) (1 + 2 ^ 20) 0, cw 0x42 (2 ^ 18 * 262143) (1 + 2 ^ 20) 0, cw 0x43 (2 ^ 18 * 262143) (2 ^ 38) (2 ^ 32), cw 0x44 (2 ^ 18 * 262143) (1 + 2 ^ 20 + 2 ^ 40) 0, cw 0x45 (2 ^ 18 * 8) (32 + 2 ^ 46) 0,
        cw 0x40 0 0 0, cw 0x41 0 0 0, cw 0x42 0 0 0, cw 0x43 0 0 0, cw 0x44 0 0 0, cw 0x45 0 0 0, cw 0x46 0 0 0, cw 0x41 0 0 1, cw 0x45 0 0 1].all
      (fun w => readyB (queued 4 w) 1 0 4 (qop w) { word := w }) = true) ∧
    memWf (queued 4 0).mem = true ∧ (queued 4 0).poison = [] ∧ 32 * 262143 + 4 * 1 ≤ storeSize ∧ 32 * 0 + 1 * 32 * 1 ≤ storeSize ∧ 32 * 262143 + 32 * 1 ≤ storeSize ∧
    qw (cw 0x40 (262143 + 2 ^ 57) (262142 + 2 ^ 58) (2 ^ 32 + 2 ^ 56 * 0xBB)) 1 = BitVec.ofNat 64 (262143 + 2 ^ 18 * 0 + 2 ^ 57) ∧ bits (qw (cw 0x43 (2 ^ 18 * 262143) (2 ^ 38) (2 ^ 32)) 3) 63 32 = 1 := by decide +kernel

/-! ### Stack-side units -/

/-- Stack 0 served by tile 1, with one command of compartment 1 in its queue 0 and compartment 1 with segment 0 there. -/
def withSsu (k : Stack) (e : SsuCmd) (mem : List (Nat × Byte)) : State :=
  { withCmpt1 { cm1 with segs := [(0, seg0)] } with stk := [(0, { k with die := 1, queues := [(4, [e])] })], mem := mem }

/-- A command under way with the given opcode and fields. -/
def ssuCmd (op : Nat) (l : List (Nat × Nat)) : SsuCmd := { bytes := db ((32, op) :: l), st := .running }

/-- What `ssuGoing` asks, as a test. -/
def goingB (s : State) (l c k op : Nat) (e : SsuCmd) : Bool :=
  s.ready l && (match (s.stack l).queue c k with | x :: _ => x == e | [] => false) && e.st == .running && e.op == op && !s.stale c e.xlats && s.startCheck l c e == 0

theorem going_of {s : State} {l c k op : Nat} {e : SsuCmd} (h : goingB s l c k op e = true) : s.ssuGoing l c k op e := by
  simp only [goingB, Bool.and_eq_true, beq_iff_eq, Bool.not_eq_true'] at h
  obtain ⟨⟨⟨⟨⟨h1, h2⟩, h3⟩, h4⟩, h5⟩, h6⟩ := h
  refine ⟨h1, ?_, h3, h4, h5, h6⟩
  cases hx : (s.stack l).queue c k with
  | nil => simp [hx] at h2
  | cons x q =>
    simp only [hx, beq_iff_eq] at h2
    exact ⟨q, by rw [h2]⟩

/-- What `plainAt` asks of a state without coherence traffic, caches or guarded areas, as a test. -/
def plainB (s : State) (c va n a : Nat) : Bool := s.vaPieces c va n == [(a, n)] && (s.vaAbsent c va n).isNone && s.guarded.isEmpty

theorem plain_of {s : State} {c va n a : Nat} (h : plainB s c va n a = true)
    (hc : s.coh = [] ∧ s.sc.lines = [] ∧ s.graftCaches = [] ∧ (∀ t ∈ s.tiles, t.2.rlc.lines = [] ∧ t.2.cpc = []) ∧ s.hubHome.dir = [] ∧ ∀ t ∈ s.stk, t.2.dir = []) :
    s.plainAt c va n a := by
  simp only [plainB, Bool.and_eq_true, beq_iff_eq, Option.isNone_iff_eq_none, List.isEmpty_iff] at h
  obtain ⟨⟨h1, h2⟩, h3⟩ := h
  exact ⟨h1, h2, uncached_empty a n hc, fun _ j _ => by simp [State.stripeOf, h3]⟩

/-- Witness of StackSideCommandsStartAndWindowsOpen, start: a wait that holds, one that does not, a withdrawn mapping and a failing check. -/
theorem witness_ssu_start :
    (let e : SsuCmd := { bytes := db [(32, 2), (34, 7)] }
     let s := withSsu { wins := [(7, { owner := 1 })] } e []
     s.isUp = true ∧ s.ready 0 = true ∧ s.cstate 1 = .ready ∧ s.epochHolds 1 = false ∧ (s.stack 0).queue 1 0 = [e] ∧ e.st = .waiting ∧ s.waitHolds (.ssu 0) (dssuWait e.bytes) 7 e.met = true ∧
       s.stale 1 e.xlats = false ∧ s.startCheck 0 1 e = 0 ∧ (s.stack 0).sramUsed + e.sramNeed 0 ≤ 1024 ∧ e.op ≠ 0x10 ∧ (s.stack 0).mig = none) ∧
    (withSsu {} { xlats := [{ entry := {} }] } []).stale 1 [{ entry := {} }] = true ∧
    (withSsu {} { bytes := db [(32, 2)] } []).startCheck 0 1 { bytes := db [(32, 2)] } ≠ 0 ∧
    (withSsu {} {} []).waitHolds (.ssu 0) (dssuWait (db [(36, 0x18000)])) 7 false = false := by decide +kernel

/-- A WIN_OPEN of window 3, or a CLIP_NOISE with one contribution at least. -/
def openCmd (clip : Bool) : SsuCmd :=
  if clip then ssuCmd 5 [(34, 3), (44, 0x3F800000), (56, 4), (60, 0x00), (62, 1), (64, 2)] else ssuCmd 1 [(34, 3), (56, 4), (60, 0x00), (64, 2)]

/-- Witness of StackSideCommandsStartAndWindowsOpen, windows: an open of both kinds, a close of an open and of a closed window, and a free. -/
theorem witness_windows :
    (∀ clip : Bool, let e := openCmd clip
      goingB (withSsu {} e []) 0 1 0 (if clip then 0x05 else 0x01) e = true ∧ dfield e.bytes 61 1 / 128 % 2 = 0 ∧ dfield e.bytes 64 4 ≠ 0 ∧
      (withSsu {} e []).vaAbsent 1 (dfield e.bytes 48 8 % 2 ^ 48) (max 1 (4 * dfield e.bytes 56 4)) = none) ∧
    (∀ b : Bool, let e := ssuCmd 2 [(34, 3)]
      let s := withSsu { wins := [(3, { owner := 1, isOpen := b })] } e []
      goingB s 0 1 0 0x02 e = true ∧ (s.stack 0).intake = [] ∧ ((s.stack 0).wins.look e.window {}).isOpen = b ∧ ((s.stack 0).wins.look e.window {}).clip = false) ∧
    (let e := ssuCmd 3 [(34, 3)]
     goingB (withSsu { wins := [(3, { owner := 1 })] } e []) 0 1 0 0x03 e = true) := by decide +kernel

/-- A held window 3 of compartment 1 that sums INT32 elements into stack 0 at 0x1000 from 16 contributors. -/
def win3 : Window := { owner := 1, dst := 0x1000, count := 4, srcFmt := 11, dstFmt := 11, sat := 2, expected := 2, isOpen := true, slots := [0x810000] }

/-- Witness of ContributionsAreAppliedOnce: a REDUCE of one element and of none, a contribution to no window, a repeated one and a new one. -/
theorem witness_contributions :
    (let e := ssuCmd 4 [(34, 3), (56, 1), (66, 1)]
     let s := withSsu { wins := [(3, win3)] } e []
     goingB s 0 1 0 0x04 e = true ∧ dfield e.bytes 56 4 ≠ 0 ∧ (s.stack 0).intake = [] ∧ s.poison = [] ∧
     plainB s 1 (dfield e.bytes 48 8 % 2 ^ 48) (dfield e.bytes 56 4 * (fmtBits ((s.stack 0).wins.look e.window {}).srcFmt.toNat / 8)) 0 = true) ∧
    (let e := ssuCmd 4 [(34, 3)]
     goingB (withSsu { wins := [(3, win3)] } e []) 0 1 0 0x04 e = true ∧ dfield e.bytes 56 4 = 0) ∧
    (let x : Contrib := { win := some 2, cmpt := 1, seq := 1, data := [1, 0, 0, 0] }
     (withSsu { wins := [(3, win3)], intake := [x] } {} []).winOf 0 x = none) ∧
    (∀ old : Bool, let x : Contrib := { win := some 3, cmpt := 1, seq := 64, data := [1, 0, 0, 0] }
      let w : Window := { win3 with ledger := if old then [(0, { high := 64, seen := 1 })] else [] }
      let s := withSsu { wins := [(3, w)], intake := [x] } {} []
      s.isUp = true ∧ s.ready 0 = true ∧ (s.stack 0).intake = [x] ∧ s.winOf 0 x = some 3 ∧ s.contribCode 0 x = 0 ∧ x.mover = false ∧ x.peer = none ∧ x.origin = .none ∧
      (w.contributor x).isSome = true ∧ (((w.contributor x).map (fun cn => (w.ledger.look cn {}).holds x.seq)) = some old) ∧
      ((w.contributor x).map (fun cn => (w.ledger.look cn {}).partSeq != x.seq) = some true) ∧ x.data.length = 4 ∧ x.pois = [] ∧ s.poison = [] ∧
      memWf s.mem = true ∧ w.dst % 4 = 0 ∧ w.dst + 4 * x.off + 4 ≤ 0x8_0000_0000 ∧ s.guarded = [] ∧ w.paged = false ∧ w.accepted + 1 ≠ w.expected) := by decide +kernel

/-- Row commands of stack 0: table at 0x1000, one index at 0x2000 whose value is 1, the far end at 0x3000. -/
def rowCmd (op n : Nat) : SsuCmd := ssuCmd op [(48, 0x1000), (56, 0x2000), (64, 0x3000), (72, n), (76, 2), (80, 32)]

/-- Witness of StackSideCommandsMoveWipeAndMigrate, rows: one row and none, both ways. -/
theorem witness_rows :
    (∀ b : Bool, let op := if b then 0x09 else 0x0A
      let e := rowCmd op 1
      let s := withSsu {} e [(0x2000, 1)]
      s.isUp = true ∧ s.poison = [] ∧ memWf s.mem = true ∧ goingB s 0 1 0 op e = true ∧ dfield e.bytes 72 4 = 1 ∧ dfield e.bytes 88 1 / 16 % 4 = 0 ∧ e.group = 0 ∧ e.normW = 0 ∧
      plainB s 1 (dfield e.bytes 56 8 % 2 ^ 48) 4 0x2000 = true ∧ ofLe (memGets s.mem 0x2000 4) = 1 ∧ 1 < dfield e.bytes 76 4 ∧
      plainB s 1 (dfield e.bytes 48 8 % 2 ^ 48 + 1 * (s.rowArgs 1 e.bytes).pitch) (dfield e.bytes 80 4) 0x1020 = true ∧ dfield e.bytes 64 8 / 2 ^ 48 = 0 ∧
      plainB s 1 (dfield e.bytes 64 8) (dfield e.bytes 80 4) 0x3000 = true ∧ 1 ≤ dfield e.bytes 80 4 ∧
      piecesMeet [(0x3000, dfield e.bytes 80 4)] (s.vaPieces 1 (dfield e.bytes 48 8 % 2 ^ 48) (tableLen (dfield e.bytes 76 4) (s.rowArgs 1 e.bytes).pitch (dfield e.bytes 80 4)) ++ [(0x2000, 4)]) = false) ∧
    (∀ b : Bool, let op := if b then 0x09 else 0x0A
      goingB (withSsu {} (rowCmd op 0) []) 0 1 0 op (rowCmd op 0) = true ∧ dfield (rowCmd op 0).bytes 72 4 = 0) := by decide +kernel

/-- Witness of StackSideCommandsMoveWipeAndMigrate, ranges: a wiped range, an optimizer step of one parameter and of none, both parity modes, a migration to the reserve tile and noise at the limit. -/
theorem witness_ranges :
    (let e := ssuCmd 0x0C [(48, 0x1000), (56, 33)]
     goingB (withSsu {} e [(0x1020, 5)]) 0 1 0 0x0C e = true ∧ dfield e.bytes 56 8 = 33 ∧ plainB (withSsu {} e [(0x1020, 5)]) 1 (dfield e.bytes 48 8 % 2 ^ 48) 33 0x1000 = true) ∧
    (∀ b : Bool, let n := if b then 1 else 0
      let e := ssuCmd 0x08 [(48, 0x1000), (56, 0x2000), (64, 0x3000), (88, n)]
      let s := withSsu {} e []
      goingB s 0 1 0 0x08 e = true ∧ dfield e.bytes 88 4 = n ∧ n ≤ 512 ∧ dfield e.bytes 92 1 = 0 ∧ dfield e.bytes 93 1 = 0 ∧ dfield e.bytes 80 8 = 0 ∧
      (b = true → plainB s 1 (dfield e.bytes 48 8 % 2 ^ 48) (4 * n) 0x1000 = true ∧ plainB s 1 (dfield e.bytes 56 8 % 2 ^ 48) (4 * n) 0x2000 = true ∧ plainB s 1 (dfield e.bytes 64 8 % 2 ^ 48) (4 * n) 0x3000 = true)) ∧
    (∀ m ∈ [0, 1], let e := ssuCmd 0x0B [(64, m)]
      goingB (withSsu {} e []) 0 1 0 0x0B e = true ∧ dfield e.bytes 64 1 % 4 = m) ∧
    (let e := ssuCmd 0x0D [(48, 2)]
     let s : State := { up with stk := [(0, { die := 1, queues := [(0, [e])] })] }
     goingB s 0 0 0 0x0D e = true ∧ (s.stack 0).mig = none) ∧
    2 ^ 32 ≤ (withSsu { noise := 4294967296 } {} [] |>.stack 0).noise ∧ (withSsu { noise := 4294967295 } {} [] |>.stack 0).noise < 2 ^ 32 ∧
    ([0, 1, 2, 3, 4, 5, 6, 7][(0x7800 - 0x4000) / 2048 % 8]? = some 7 ∧ 0x7800 % 32 = 0 ∧ 0x7800 + 32 ≤ 0x8_0000_0000) := by decide +kernel

/-- An ATTEND of `rows` rows of dimension 32 in FP32, with a catalogue of no positions. -/
def attCmd (rows : Nat) : SsuCmd :=
  ssuCmd 0x10 [(44, rows * 2 ^ 23), (48, 0x1000), (72, 0x2000), (80, 0x3000), (95, 1), (110, 0x11), (111, 1), (120, 128)]

/-- A catalogue header of one layer and one group, no positions, and dimension 32. -/
def catMem : List (Nat × Byte) := [(0x100C, 1), (0x100E, 1), (0x100F, 1), (0x1010, 32)]

/-- Witness of AttentionOutputsOfUnseenRows, ATTEND: no rows, and a row over a catalogue of no positions. -/
theorem witness_attend :
    goingB (withSsu {} (attCmd 0) []) 0 1 0 0x10 (attCmd 0) = true ∧ (attArgs (attCmd 0).bytes).rows = 0 ∧
    (let e : SsuCmd := { attCmd 1 with head := memGets catMem 0x1000 64 }
     let s := withSsu {} e catMem
     goingB s 0 1 0 0x10 e = true ∧ e.second = false ∧ s.poison = [] ∧ memWf s.mem = true ∧ (attArgs e.bytes).rows ≠ 0 ∧ (attArgs e.bytes).final = true ∧ (attArgs e.bytes).biasMode = 0 ∧ (attArgs e.bytes).outFmt ≤ 1 ∧
     1 ≤ (attArgs e.bytes).dim ∧
     plainB s 1 (attArgs e.bytes).q ((attArgs e.bytes).rows * (attArgs e.bytes).dim * (fmtBits (attArgs e.bytes).qFmt / 8)) 0x2000 = true ∧
     plainB s 1 (attArgs e.bytes).out ((attArgs e.bytes).rows * (attArgs e.bytes).dim * (fmtBits (attArgs e.bytes).outFmt / 8)) 0x3000 = true ∧
     s.vaAbsent 1 (attArgs e.bytes).bias 0 = none ∧ s.opPeer 1 (.va (attArgs e.bytes).out) = none ∧
     (catHead e.head).count = 0) := by decide +kernel

/-- Witness of StackSideCommandsStartAndWindowsOpen, ATTEND: a well-formed header and one of zeros. -/
theorem witness_att_start :
    (∀ b : Bool, let e : SsuCmd := { attCmd 1 with st := .waiting }
      let s := withSsu {} e (if b then catMem else [])
      s.isUp = true ∧ s.ready 0 = true ∧ s.cstate 1 = .ready ∧ s.epochHolds 1 = false ∧ (s.stack 0).queue 1 0 = [e] ∧ e.st = .waiting ∧ s.waitHolds (.ssu 0) (dssuWait e.bytes) 7 e.met = true ∧
      s.stale 1 e.xlats = false ∧ s.startCheck 0 1 e = 0 ∧ e.op = 0x10 ∧ (attArgs e.bytes).rows ≠ 0 ∧ s.poison = [] ∧ plainB s 1 (attArgs e.bytes).cat 64 0x1000 = true ∧
      catOk (attArgs e.bytes) (memGets s.mem 0x1000 64) = b ∧ (s.stack 0).sramUsed + e.sramNeed (fieldAt (memGets s.mem 0x1000 64) 15 1 % 16) ≤ 1024) := by decide +kernel

/-- Witness of AttentionOutputsOfUnseenRows, MERGE: no rows, no triples, and one triple that has seen nothing. -/
theorem witness_merge :
    (∀ b : Bool, let e := ssuCmd 0x11 (if b then [(44, 0), (45, 1)] else [(44, 1), (45, 0)])
      goingB (withSsu {} e []) 0 1 0 0x11 e = true) ∧
    (let e := ssuCmd 0x11 [(44, 1), (45, 1), (46, 1), (47, 1), (48, 0x1000), (56, 0x2000)]
     let s := withSsu {} e [(0x1002, 0x80), (0x1003, 0xFF)]
     goingB s 0 1 0 0x11 e = true ∧ dfield e.bytes 44 1 = 1 ∧ dfield e.bytes 45 1 = 1 ∧ 32 = 32 * (dfield e.bytes 46 1 % 16) ∧ dfield e.bytes 47 1 = 1 ∧
     plainB s 1 (dfield e.bytes 48 8 % 2 ^ 48) (32 + 4 * 32) 0x1000 = true ∧ plainB s 1 (dfield e.bytes 56 8 % 2 ^ 48) (4 * 32) 0x2000 = true ∧ s.opPeer 1 (.va (dfield e.bytes 56 8 % 2 ^ 48)) = none ∧
     memGets s.mem 0x1000 4 = [0x00, 0x00, 0x80, 0xFF] ∧ memGets s.mem (0x1000 + 4) (28 + 4 * 32) = List.replicate (28 + 4 * 32) 0) := by decide +kernel

/-! ### Memory and coherence -/

/-- Stack 0 served by tile 1 with a full queue of every kind in the channel of offset 0. -/
def fullQueues : State := withMem { pcs := [(offPc 0, { rq := List.replicate 48 {}, wq := List.replicate 32 { write := true, sector := 5 } })] }

/-- Witness of MemoryRequestsQueueAccessAndIssue: the first sector of a stack and the last, full queues, a poisoned sector, a stack that nothing serves, and a channel with one read. -/
theorem witness_memory_requests :
    (∀ b : Bool, let o := if b then 0 else 0x7_FFFF_FF80
      let k := if b then 0 else 3
      let s := withMem { ceThresh := 0 }
      s.isUp = true ∧ s.served 0 = true ∧ o % 128 = 0 ∧ o < 0x8_0000_0000 ∧ k < 4 ∧ isTileDie (s.stack 0).die = true ∧ (s.stack 0).held = [] ∧ s.clipHit (lsBase 0 + o) 128 = false ∧ s.rebuilding 0 (o + 32 * k) = false ∧
      s.stripeOf 0 (o + 32 * k) = none ∧ (s.pch 1 (offPc o)).rq.length < 48 ∧ (s.pch 1 (offPc o)).hasWrite ((o + 32 * k) / 32) = false ∧ s.secPois ((lsBase 0 + (o + 32 * k)) / 32) = false ∧
      State.secPois { s with poison := [(lsBase 0 + (o + 32 * k)) / 32] } ((lsBase 0 + (o + 32 * k)) / 32) = true ∧
      bits (s.tile 1).mem.ceThresh 31 0 = 0 ∧ (s.pch 1 (offPc o)).wq.length < 32 ∧ s.clipHit (lsBase 0 + (o + 32 * k)) 32 = false ∧ memWf s.mem = true ∧ s.served 1 = false ∧ (s.stack 1).held = []) ∧
    (fullQueues.pch 1 (offPc 0)).rq.length = 48 ∧ (fullQueues.pch 1 (offPc 0)).hasWrite 0 = false ∧ (fullQueues.pch 1 (offPc 0)).wq.length = 32 ∧
    (let r : PcReq := { sector := 3, cls := 7 }
     let s := withMem { pcs := [(31, { rq := [r] })] }
     isTileDie 1 = true ∧ bit (s.tile 1).mem.status 1 = false ∧ (s.tile 1).hotD ≤ 95 ∧ (s.pch 1 31).rq = [r] ∧ (s.pch 1 31).wq = [] ∧ (s.pch 1 31).postponed = [] ∧ s.lsOf 1 = some 0 ∧ (s.stack 0).held = []) := by
  decide +kernel

/-- Witness of ControllersCountRefreshAndScrub: the last bank and channel, the last sector, and both ends of the window register. -/
theorem witness_controllers :
    (let s := withMem { scrub := 0x7FFFFFFE0 }
     s.isUp = true ∧ isTileDie 1 = true ∧ s.lsOf 1 = some 0 ∧ bit (s.tile 1).mem.status 1 = false ∧ s.served 0 = true ∧ (s.stack 0).die = 1 ∧ (s.tile 1).mem.scrub = BitVec.ofNat 64 (32 * 0x3FFFFFFF) ∧
     32 * 0x3FFFFFFF < 0x8_0000_0000 ∧ s.rebuilding 0 (32 * 0x3FFFFFFF) = false ∧ s.secPois ((lsBase 0 + 32 * 0x3FFFFFFF) / 32) = false ∧ s.flt.ceHolds ≠ 1) ∧
    1 ≤ bits (1 : BitVec 64) 31 0 ∧ bits (86400000 : BitVec 64) 31 0 ≤ 86400000 ∧ bits (0x100000000 : BitVec 64) 31 0 = 0 ∧ 86400000 < bits (86400001 : BitVec 64) 31 0 ∧
    ((withMem {}).tile 1).mem.ceCount.toNat < bits (1 : BitVec 64) 31 0 := by decide +kernel

/-- Eight stacks of tiles 1 to 8 with one guarded area at their start. -/
def guardedState : State := { up with stk := (List.range 8).map (fun l => (l, { die := l + 1 })), guarded := [(1, [0, 1, 2, 3, 4, 5, 6, 7], 0, 0x4000)] }

/-- Witness of ParityAndRebuildFollowTheXor: a delta, a rebuild request at the parity member, a stripe read, a reply of several and the last reply. -/
theorem witness_parity :
    (let x : Delta := { src := 1, pls := 0, off := 0, data := 5 }
     let s : State := { up with stk := [(0, { die := 1 }), (1, { die := 2, deltas := [x] })] }
     s.isUp = true ∧ memWf s.mem = true ∧ (s.stack 1).deltas = [x] ∧ (s.stack x.pls).rebuilds = [] ∧ s.stripes = [] ∧ x.off % 32 = 0) ∧
    (guardedState.stripeOf 7 0x3FE0 = some (7, [0, 1, 2, 3, 4, 5, 6, 7])) ∧
    (let m : StripeMsg := { kind := 0, src := 1, dst := 7, off := 0x3FE0 }
     let s : State := { guardedState with stripes := [m] }
     s.stripeOf m.dst m.off = some (m.dst, [0, 1, 2, 3, 4, 5, 6, 7]) ∧ (s.stack m.dst).rebuilds = [] ∧ m.dst < 32) ∧
    (let m : StripeMsg := { kind := 1, src := 7, dst := 2, off := 0x3FE0 }
     let s : State := { guardedState with stripes := [m] }
     (s.stack m.dst).deltas = [] ∧ s.secPois ((lsBase m.dst + m.off) / 32) = false) ∧
    (let m : StripeMsg := { kind := 2, src := 2, dst := 0, data := 9 }
     let r : RebuildTxn := { target := some 1, await := [2, 3] }
     let s : State := { up with stk := [(0, { die := 1, rebuilds := [r] })], stripes := [m] }
     (s.stack m.dst).rebuilds = [r] ∧ r.off = m.off ∧ m.src ∈ r.await ∧ ∃ x ∈ r.await, x ≠ m.src) ∧
    (let m : StripeMsg := { kind := 2, src := 2, dst := 0, data := 9 }
     let r : RebuildTxn := { target := some 1, await := [2] }
     let s : State := { up with stk := [(0, { die := 1, rebuilds := [r] }), (1, { die := 2 })], stripes := [m] }
     (s.stack m.dst).rebuilds = [r] ∧ r.off = m.off ∧ m.off % 32 = 0 ∧ m.off < 0x8_0000_0000 ∧ r.await = [m.src] ∧ r.bad = [] ∧ r.held = [] ∧ r.target = some 1 ∧ 1 ≠ m.dst ∧ (s.stack 1).deltas = []) := by
  decide +kernel

/-- Stack 0 with one directory entry for its line 32, and one message for its home. -/
def withLine (e : DirEnt) (m : CohMsg) : State := { up with stk := [(0, { die := 1, dir := if e.st = .i then [] else [(32, e)] })], coh := [m] }

/-- What `soleMsg` asks, as a test. -/
def soleB (s : State) (m : CohMsg) : Bool :=
  s.coh == [m] && decide (m.home ≤ 32) && (s.home m.home).hq.isEmpty && (s.home m.home).txns.isEmpty && (s.home m.home).recover.isEmpty &&
    decide ((s.setEntries m.home m.line).length < 16) && !m.dead && !m.done && !s.readWaits [(128 * m.line, 128)] && !s.clipHit (128 * m.line) 128

theorem sole_of {s : State} {m : CohMsg} (h : soleB s m = true) : s.soleMsg m := by
  simp only [soleB, Bool.and_eq_true, beq_iff_eq, decide_eq_true_eq, List.isEmpty_iff, Bool.not_eq_true'] at h
  obtain ⟨⟨⟨⟨⟨⟨⟨⟨⟨h1, h2⟩, h3⟩, h4⟩, h5⟩, h6⟩, h7⟩, h8⟩, h9⟩, h10⟩ := h
  exact ⟨h1, h2, h3, h4, h5, h6, h7, h8, h9, h10⟩

/-- Witness of CoherentReadsGrantByDirectoryState: an idle line, a shared one, one that each of the first and last die owns, and an upgrade. -/
theorem witness_coherent_reads :
    (let m : CohMsg := { kind := .rdShared, src := 3, line := 32, mask := 0xF }
     let s := withLine {} m
     s.isUp = true ∧ soleB s m = true ∧ m.toAgent = false ∧ (s.dirEnt 0 32).st = .i) ∧
    (let m : CohMsg := { kind := .rdShared, src := 3, line := 32, mask := 0xF }
     let s := withLine { st := .s, sharers := dieBit 4 } m
     soleB s m = true ∧ (s.dirEnt 0 32).st = .s) ∧
    (∀ b : Bool, let m : CohMsg := { kind := .rdShared, src := 3, line := 32, mask := 0xF }
      let s := withLine { st := if b then .e else .m, sharers := dieBit (if b then 0 else 32) } m
      soleB s m = true ∧ (s.dirEnt 0 32).st = (if b then .e else .m) ∧ diesOf (s.dirEnt 0 32).sharers = [if b then 0 else 32]) ∧
    (let m : CohMsg := { kind := .rdUnique, src := 3, line := 32, mask := 0xF }
     let s := withLine {} m
     soleB s m = true ∧ (s.dirEnt 0 32).st = .i ∧ diesOf (s.dirEnt 0 32).sharers = []) ∧
    (let m : CohMsg := { kind := .upgrade, src := 32, line := 32 }
     let s := withLine { st := .s, sharers := dieBit 32 } m
     soleB s m = true ∧ m.src < 33 ∧ (s.dirEnt 0 32).st = .s ∧ (s.dirEnt 0 32).sharers = dieBit m.src) := by
  decide +kernel

/-- Witness of OwnersMarkWriteBackAndEvict: the owner in E and in M, another die, the last sector of the line, and an idle line. -/
theorem witness_owners :
    (∀ b : Bool, ∀ k ∈ [CohKind.markDirty, CohKind.wrBack], let m : CohMsg := { kind := k, src := 3, line := 32, mask := BitVec.ofNat 4 (2 ^ 3) }
      let s := withLine { st := if b then .e else .m, sharers := dieBit 3 } m
      s.isUp = true ∧ soleB s m = true ∧ m.toAgent = false ∧ memWf s.mem = true ∧ s.plainSec (128 * m.line + 32 * 3) ∧ (s.dirEnt 0 32).st = (if b then .e else .m) ∧ (s.dirEnt 0 32).sharers = dieBit m.src) ∧
    (∀ k ∈ [CohKind.markDirty, CohKind.wrBack], let m : CohMsg := { kind := k, src := 3, line := 32, mask := 1 }
      let s := withLine { st := .e, sharers := dieBit 4 } m
      soleB s m = true ∧ (s.dirEnt 0 32).sharers ≠ dieBit m.src) ∧
    (let m : CohMsg := { kind := .evictClean, src := 3, line := 32 }
     let s := withLine { st := .e, sharers := dieBit 3 } m
     soleB s m = true ∧ (s.dirEnt 0 32).st = .e ∧ (s.dirEnt 0 32).sharers = dieBit m.src) ∧
    (let m : CohMsg := { kind := .evictClean, src := 29, line := 32 }
     let s := withLine { st := .m, dirty := 0xF, sharers := dieBit 29 } m
     soleB s m = true ∧ (s.dirEnt 0 32).st = .m ∧ (s.dirEnt 0 32).sharers = dieBit m.src) ∧
    (∀ k ∈ [CohKind.rdNc, CohKind.wrNc], let m : CohMsg := { kind := k, src := 28, line := 32, mask := BitVec.ofNat 4 (2 ^ 0) }
      let s := withLine {} m
      soleB s m = true ∧ m.src < 29 ∧ (s.dirEnt 0 32).st = .i ∧ diesOf (s.dirEnt 0 32).sharers = [] ∧ s.plainSec (128 * m.line + 32 * 0)) := by
  unfold State.plainSec
  decide +kernel

/-- The hub's cache with one line, and messages on the mesh. -/
def withHubLine (l : CacheLine) (q : List CohMsg) : State := { up with sc := { lines := [(32, l)] }, coh := q }

/-- Witness of AgentsAnswerSnoopsAndTakeGrants: the hub with a clean and a dirty line, the last site, a line in I, S, E and M. -/
theorem witness_agents :
    (∀ b : Bool, ∀ k ∈ [CohKind.snpShared, CohKind.snpInv], let m : CohMsg := { kind := k, line := 32, toAgent := true }
      let s := withHubLine { st := if b then .s else .m, valid := 0xF, dirty := if b then 0 else 8 } [m]
      s.isUp = true ∧ s.coh = [m] ∧ m.dst = 0 ∧ (s.line 0 8 32).st ≠ .i ∧ (s.line 0 8 32).wb = 0) ∧
    (let m : CohMsg := { kind := .snpShared, dst := 32, line := 32, toAgent := true }
     let s : State := { up with coh := [m] }
     s.coh = [m] ∧ m.dst = 29 + 3) ∧
    (up.line 0 8 32).st = .i ∧ (up.line 0 8 32).dirty = 0 ∧
    (∀ st ∈ [LineSt.s, LineSt.e, LineSt.m], let s := withHubLine { st := st, dirty := 1 } []
      (s.line 0 8 32).marking = false ∧ (s.line 0 8 32).st = st) := by
  decide +kernel

/-- Witness of AnswersEndTransactions: a recall that awaits the first or last die, a push, a pending MARK_DIRTY, and a recovery. -/
theorem witness_answers :
    (∀ b : Bool, ∀ k ∈ [CohKind.ack, CohKind.ackData], let m : CohMsg := { kind := k, src := if b then 0 else 32, line := 32, mask := BitVec.ofNat 4 (2 ^ 1) }
      let r : HomeTxn := { await := dieBit (if b then 0 else 32), isRecall := true }
      let s : State := { up with stk := [(0, { die := 1, txns := [(32, r)], dir := [(32, { st := .e, sharers := dieBit m.src })] })], coh := [m] }
      s.isUp = true ∧ s.coh = [m] ∧ m.home ≤ 32 ∧ m.src < 33 ∧ (s.home m.home).hq = [] ∧ (s.home m.home).recover = [] ∧ (s.home m.home).txns = [(m.line, r)] ∧ r.await = dieBit m.src ∧ r.req = none ∧
      memWf s.mem = true ∧ s.plainSec (128 * m.line + 32 * 1)) ∧
    (∀ k ∈ [CohKind.pushAck, CohKind.pushDecline], let m : CohMsg := { kind := k, src := 3, line := 32 }
      let r : HomeTxn := { pushing := true }
      let s : State := { up with stk := [(0, { die := 1, txns := [(32, r)] })], coh := [m] }
      (s.home m.home).txns = [(m.line, r)] ∧ r.pushing = true) ∧
    (∀ b : Bool, let s := withHubLine { st := if b then .e else .m, marking := true } []
      (s.line 0 8 32).marking = true ∧ (s.line 0 8 32).st = (if b then .e else .m)) ∧
    (let m : CohMsg := { kind := .recoverDone, src := 3, home := 32 }
     let s : State := { up with hubHome := { up.hubHome with recover := [3, 4] }, coh := [m] }
     m.home ≤ 32 ∧ (s.home m.home).hq = [] ∧ (s.home m.home).recover = [3, 4]) := by
  unfold State.plainSec
  decide +kernel

/-! ### Paging and compartments -/

/-- Compartment 1 with a host-backed segment 0 of four pages and a landing area of two slots in stack 0. -/
def paged (m : Cmpt) : State :=
  { withCmpt1 { m with state := .ready, plan := some { landing := 0x8000000000000002 }, segs := [(0, { w0 := 0x807B000000800000 })] } with stk := [(0, { die := 1 })] }

/-- A page-command word: slot, segment 0 and page. -/
def pageWord (slot page : Nat) : BitVec 64 := BitVec.ofNat 64 (slot * 2 ^ 36 + page)

/-- Witness of PageCommandsFaultLimitsAndWithdrawals, page commands: the last slot and page, a slot beyond, a resident page, a fault record, and both ends. -/
theorem witness_pages :
    (let s := paged {}
     s.isUp = true ∧ s.bar0Free 1 ∧ s.cstate 1 = .ready ∧ (s.cmpt 1).pcmdsRunning < 4 ∧ bits (pageWord 1 3) 47 36 = 1 ∧ bits (pageWord 1 3) 35 32 = 0 ∧ bits (pageWord 1 3) 18 0 = 3 ∧
     s.pageInvalid 1 1 0 3 1 = false ∧ s.pageDenied 1 false = false ∧ s.pci.reads = [] ∧ s.pci.dead = [] ∧ s.pageInvalid 1 1 0 3 2 = true ∧ s.pageInvalid 1 1 0 4 1 = true ∧
     s.pageInvalid 1 2 0 3 1 = true ∧ s.pageInvalid 1 3 0 3 1 = true) ∧
    (let m : Cmpt := { resmap := [(1, resEntry true false false 0 3)] }
     (paged m).pageInvalid 1 2 0 3 1 = false ∧ (paged m).pageDenied 1 true = false ∧ ((paged m).cmpt 1).slotHolding 0 3 = some 1 ∧ (paged m).slotClip 1 1 = false) ∧
    (let m : Cmpt := { frecs := [(5, { seg := 0, page := 3 })] }
     (paged m).recordOf 1 0 3 = some 5 ∧ (paged m).pageInvalid 1 3 0 3 1 = false) ∧
    (let s := withCmpt1 { cm1 with plan := some { landing := 0x8000000000000002, mode := 5 }, segs := [(0, { w0 := 0x807B000000800000 })] }
     s.pageInvalid 1 1 0 3 1 = false ∧ s.pageDenied 1 false = true) ∧
    (let p : PageCmd := { op := 1, page := 3, slot := 1, got := 0x20_0000 }
     let s := paged { pcmds := [p] }
     (s.cmpt 1).pcmds.find? (fun p => p.op == 1 && p.slot == 1) = some p ∧ 0x20_0000 ≤ p.got ∧ s.recordOf 1 p.seg p.page = none) ∧
    (let p : PageCmd := { op := 2, page := 3, slot := 1 }
     let s := paged { pcmds := [p], resmap := [(1, resEntry true false true 0 3)] }
     (s.cmpt 1).pcmds.find? (fun p => p.op == 2 && p.slot == 1) = some p ∧ (s.cmpt 1).plan = some { landing := 0x8000000000000002 } ∧ s.slotBusy 1 p.seg p.page (landingBase { landing := 0x8000000000000002 } + 1 * 0x20_0000) = false ∧
     bit ((s.cmpt 1).resmap.look 1 0) 62 = false ∧ p.force = false ∧ p.withdraw = false) := by
  unfold State.bar0Free
  decide +kernel

theorem witness_page_out_uncached (a n : Nat) : (paged { pcmds := [{ op := 2, page := 3, slot := 1 }], resmap := [(1, resEntry true false true 0 3)] }).uncached a n :=
  uncached_empty a n (by decide +kernel)

/-- Witness of PageCommandsFaultLimitsAndWithdrawals, limits and withdrawals: the first and last compartment, a record at the limit and below, a withdrawal and its end. -/
theorem witness_fault_limits :
    (∀ fn ∈ [1, 63], let s : State := { up with cmpts := [(fn, { state := .ready, frecs := [(5, {})] })] }
      (s.cmpt fn).faultLimit ≠ 0 ∧ (s.cmpt fn).faultLimit.toNat ≤ 1000000 ∧ 999999 < (s.cmpt fn).faultLimit.toNat ∧ (s.cmpt fn).frecs.has 5 = true) ∧
    (∀ sg ∈ [0, 15], let s := withCmpt1 { state := .ready, segs := [(sg, seg0)] }
      let v : BitVec 64 := BitVec.ofNat 64 (256 + sg)
      bits v 13 8 = 1 ∧ bits v 3 0 = sg ∧ s.unmaps = [] ∧ s.cstate 1 = .ready ∧ (s.cmpt 1).frecs = [] ∧ (s.cmpt 1).pcmds = [] ∧ (∀ l, l < 32 → (s.stack l).intake = []) ∧ (s.seg 1 sg).typ ≠ 3) ∧
    (let u : Unmap := { cmpt := 1, seg := 0, old := seg0, step := 5, byReg := true, toCmpt := true }
     let s : State := { withCmpt1 { state := .ready } with unmaps := [u] }
     s.unmaps.any (·.byReg) = true ∧ s.unmaps.find? (fun u => u.cmpt == 1 && u.seg == 0) = some u ∧ s.unmapQuiet 1 0 = true ∧ (s.cmpt 1).vitrine = false) ∧
    (paged { pcmds := [{ op := 2, withdraw := true }] }).unmapQuiet 1 0 = false := by decide +kernel

/-- Witness of CompartmentsGoFallowAndReturn: a READY compartment at both ends of the numbers, one that is not, a bound session, and each step of a fallow. -/
theorem witness_fallow :
    (∀ c ∈ [1, 63], let s : State := { up with cmpts := [(c, { state := .ready })] }
      s.isUp = true ∧ s.cstate c = .ready ∧ (s.cmpt c).tdi = .unlocked) ∧ up.cstate 1 ≠ .ready ∧ (∀ i ∈ up.pwr.waiting, isWriteOf 1 i = false) ∧ isWriteOf 1 (.hostMemWrite 1 0 [0] false false 0) = true ∧ up.pwr.waiting = [] ∧
    (let m : MgmtSession := { id := 2, clientBound := true }
     let s : State := { up with auth := { up.auth with sessions := [m] } }
     s.auth.sessions.find? (fun x => x.id == m.id) = some m) ∧
    (let s := withCmpt1 { state := .fallow, step := 2 }
     s.cstate 1 = .fallow ∧ (s.cmpt 1).step = 2 ∧ s.drained 1 = true) ∧
    (let s := withCmpt1 { state := .fallow, step := 3 }
     s.cstate 1 = .fallow ∧ (s.cmpt 1).step = 3 ∧ s.anyLine 1 = false ∧ (s.cmpt 1).role ≠ 1) ∧
    (let s := withCmpt1 { state := .fallow, step := 4, plan := some {} }
     s.cstate 1 = .fallow ∧ (s.cmpt 1).step = 4 ∧ (s.cmpt 1).plan = some {} ∧ ({} : CmptRec).ranks = [] ∧ landingSlots {} = 0 ∧ (s.cmpt 1).segs = [] ∧ (s.cmpt 1).active = false ∧
     (s.cmpt 1).stopReq = false ∧ s.deletedByEpoch 1 = false ∧ (s.cmpt 0).eq.free = 0) := by decide +kernel

/-! ### Host and storage -/

/-- The PF with one window: readable, writable, at the start of memory, and stack 0 served. -/
def hostState : State :=
  { up with cmpts := [(0, { win := [(0, 0xE000000000000000)] }), (1, { state := .fallow }), (2, { state := .ready, segs := [] })], clsCmpts := [(0, 1)], stk := [(0, { die := 1 })] }

/-- Witness of HostRequestsCompletionsAndLinkErrors, requests: the first byte and the last of the stack that a host may reach, a write, windows that do not admit, and the three kinds of compartment. -/
theorem witness_host_requests :
    hostState.isUp = true ∧ hostState.pwr.state = .active ∧ hostState.bar2Open 0 false = true ∧ bits (hostState.deadlines.look (hostState.winClass 0 0) {}).time 63 32 = 0 ∧
    hostState.winAdmits 0 0 false = true ∧ hostState.winAdmits 0 0xFFFFFFF true = true ∧ hostState.pfPlace 0 1 false = .phys 0 ∧ hostState.pfPlace 0xFFFFFFF 1 true = .phys 0xFFFFFFF ∧
    hostState.vitrineHit 0 1 = false ∧ hostState.pois 0 1 = false ∧ hostState.poison = [] ∧ memWf hostState.mem = true ∧ hostState.readWaits [(0, 1)] = false ∧
    State.readWaits { hostState with guarded := [(1, [0, 1, 2, 3, 4, 5, 6, 7], 0, 0x4000)], stripes := [{ kind := 0, src := 0, dst := 7, off := 0 }] } [(0, 1)] = true ∧
    hostState.winAdmits 0 0x10000000 false = false ∧ hostState.winAdmits 63 0 true = false ∧ hostState.cstate 1 = .fallow ∧ hostState.cstate 63 ≠ .fallow ∧
    ({ up with pwr := { up.pwr with state := .deepRest } } : State).isUp = true := by decide +kernel

theorem witness_host_uncached (a n : Nat) : hostState.uncached a n := uncached_empty a n (by decide +kernel)

/-- Witness of HostRequestsCompletionsAndLinkErrors, completions: the last ring of the last function, a read of no ring, ages at the timeout value and below, and streams 0, 15 and the link's. -/
theorem witness_host_completions :
    (let r : HostRead := { tag := 1023, fn := 63, ring := 3, len := 128 }
     let s : State := { up with pci := { up.pci with reads := [r] } }
     s.isUp = true ∧ s.pci.reads = [r] ∧ r.kind = 0 ∧ r.fn < 64 ∧ r.ring < 4 ∧ (List.replicate 128 (0 : Byte)).length = r.len ∧ s.hostReadOf r.fn r.tag = some r ∧
     s.pci.reads.find? (fun x => x.tag == r.tag) = some r ∧ timeoutOf s.pci.toCode ≤ 40000 ∧ 39999 < timeoutOf s.pci.toCode) ∧
    up.pci.reads = [] ∧ 5 ∉ up.pci.dead ∧ (0 < 16 ∧ 15 < 16) ∧ ∀ c ∈ up.cmpts, c.2.bound = false := by decide +kernel

/-- `up` with a load under way. -/
def loading (j : LoadJob) : State := { up with bed := { up.bed with job := some j } }

/-- Witness of BedPlansLoadAndTakeEffect but for an accepted check, which the free signature function decides: each stage of a load. -/
theorem witness_bed :
    (BitVec.ofNat 64 (2 ^ 63 + 4194304)).getLsbD 63 = true ∧ bits (BitVec.ofNat 64 (2 ^ 63 + 4194304) : BitVec 64) 22 0 ≤ 4194304 ∧ up.bed.job = none ∧
    (let m : MgmtSession := { id := 2, clientBound := true }
     let s : State := { up with auth := { up.auth with sessions := [m] } }
     s.auth.sessions.find? (fun x => x.id == m.id) = some m ∧ s.bed.job = none) ∧
    (match (loading { image := [1] }).planCheck [1] false false with | .error _ => true | .ok _ => false) = true ∧
    (let s : State := { loading { stage := .fallowing } with cmpts := [(1, { state := .fallow })] }
     ∃ c ∈ s.cmpts, c.1 ≠ 0 ∧ c.2.state = .fallow) ∧
    (∀ c ∈ (loading { stage := .fallowing }).cmpts, c.1 ≠ 0 → c.2.state ≠ .fallow) ∧
    (let j : LoadJob := { stage := .quiescing, affected := [1] }
     (loading j).bed.job = some j ∧ j.affected.all (loading j).quiet = true ∧ j.deleted = [] ∧ (loading j).changedSegs (imageRecs j.image) = [] ∧
     j.affected.all (State.quiet { loading j with cmpts := [(1, { state := .fallow })] }) = false ∧ j.mgmt = false) ∧
    (let j : LoadJob := { stage := .withdrawing, await := [0, 28] }
     (loading j).bed.job = some j ∧ 28 ∈ j.await ∧ (loading j).unmaps = [] ∧ j.deleted = [] ∧ (∀ c ∈ [1], (State.cmpt { loading j with cmpts := [(1, { plan := some {} })] } c).plan.isSome = true)) ∧
    (let j : LoadJob := { stage := .installing }
     (loading j).bed.job = some j ∧ j.await = [] ∧ j.persist = false ∧ (loading j).conf.held = []) := by decide +kernel

/-- Compartment 1 with one running STORAGE descriptor in ring 3. -/
def storing (d : Desc) (q : List NvmeCmd) : State :=
  { withCmpt1 { cm1 with sq := [(3, { ctrl := 0x104, descs := [d] })] } with sto := { up.sto with cmds := q, drives := [(0, { st := .ready, busMaster := true })] } }

/-- A STORAGE descriptor of the given operation: one sealing block of 4 KiB, in plain. -/
def stoCmd (op : Nat) : Desc := { bytes := db [(0, 5), (32, op), (34, 0x80), (35, 12), (36, 1)], st := .running }

/-- Witness of StorageDescriptorsUseTheDrive: a FLUSH, a READ of one block and of a whole MiB, a WRITE, a completion, and ages at the limit and below. -/
theorem witness_storage :
    (∀ op ∈ [1, 2, 3], let d := stoCmd op
      (storing d []).isUp = true ∧ (storing d []).cstate 1 = .ready ∧ (storing d []).stoDesc 1 3 d.id = some d ∧ (storing d []).stoFind 1 3 (fun x => x.index == 0 && stOp x.bytes == op && x.prog == 0) = some d ∧ (storing d []).stoFind 1 3 (fun x => x.index == 0 && stOp x.bytes == op) = some d ∧ (storing d []).stale 1 d.xlats = false ∧ stOp d.bytes = op ∧ d.index = 0 ∧ d.prog = 0) ∧
    1 ≤ stCount (stoCmd 1).bytes ∧ stCount (stoCmd 1).bytes * stSeal (stoCmd 1).bytes ≤ 0x10_0000 ∧ 1 ≤ stSeal (stoCmd 1).bytes ∧ stPlain (stoCmd 1).bytes = true ∧
    stCount (db [(0, 5), (32, 1), (34, 0x80), (35, 18), (36, 4)]) * stSeal (db [(0, 5), (32, 1), (34, 0x80), (35, 18), (36, 4)]) = 0x10_0000 ∧
    (∀ op ∈ [2, 3], let x : NvmeCmd := { cmpt := 1, ring := 3, op := op }
      let s := storing (stoCmd op) [x]
      s.sto.cmds = [x] ∧ x.back = false ∧ x.cmpt = 1 ∧ x.ring = 3 ∧ x.index = (stoCmd op).id ∧ (s.drive x.drive).st = .ready ∧ bits (s.deadlines.look (8 + dclass (stoCmd op).bytes) {}).time 63 32 = 0 ∧
      s.sto.cmds[0]? = some x ∧ 999 < bits s.sto.cmdTimeout 31 0 ∧ bits s.sto.cmdTimeout 31 0 ≤ 4294967295) := by decide +kernel

/-- Witness of DrivesTrainServeAndFence: ports 0 and 3, a port that the bifurcation leaves out, and the ends of staging. -/
theorem witness_drives :
    (∀ d ∈ [0, 3], let s : State := { up with inv := { up.inv with units := 8 }, sto := { up.sto with bifur := 2 } }
      s.isUp = true ∧ bifWidth s.sto.bifur d = some 2 ∧ bit s.inv.units 3 = true ∧ (s.drive d).st = .absent) ∧ bifWidth 0 3 = none ∧
    (let s : State := { up with cmpts := [], sto := { up.sto with drives := [(3, { st := .ready, busMaster := true })] } }
     (s.drive 3).st ≠ .absent ∧ s.cmpts = [] ∧ (s.drive 3).busMaster = true ∧ (s.drive 0).busMaster = false) ∧
    0x1FF_FFFF + 1 ≤ 0x0200_0000 ∧
    up.sto.grants.any (fun e => e.1 != 63 && sameHandle e.2 (0x8000000000000000 &&& 0xFFFC0000FFFFFFFF#64)) = false ∧
    (let s : State := { up with sto := { up.sto with grants := [(0, 0x8000000000000000)] } }
     s.sto.grants.any (fun e => e.1 != 63 && sameHandle e.2 (0x8000000000000000 &&& 0xFFFC0000FFFFFFFF#64)) = true) := by decide +kernel

/-! ### Mesh and graft sites -/

/-- One router with a link in service and its channels as given. -/
def routed (d port : Nat) (vcs : Tab (List Packet)) (wires : List (Nat × Nat × Packet)) : State :=
  { up with routers := [(d, { links := [(port, { st := .up })], vcs := vcs })], wires := wires, base := [(0, [(9, 1)])] }

/-- Witness of RoutersLinksAndRegulators, arrivals: at the hub and at the last tile, with room and in a full channel, over a link out of service, and a destination that does not exist. -/
theorem witness_arrivals :
    (∀ d ∈ [0, 28], let port := if d = 0 then 0 else 3
      let p : Packet := { header := BitVec.ofNat 128 d }
      let s := routed d port [] [(d, port, p)]
      s.isUp = true ∧ s.wires[0]? = some (d, port, p) ∧ port ≠ localPort d ∧ (s.wires.take 0).any (fun x => x.1 == d && x.2.1 == port) = false ∧ s.carries d port = true ∧
      State.carries { s with routers := [] } d port = false ∧ pkRouted p.header = true ∧ ((s.router d).vcs.look (vcKey port (pkMClass p.header) (pkEsc p.header)) []).length < 8 ∧
      8 ≤ (((routed d port [(vcKey port 0 false, List.replicate 8 p)] []).router d).vcs.look (vcKey port (pkMClass p.header) (pkEsc p.header)) []).length) ∧
    pkRouted 63 = false ∧ (2 ≤ 2) := by decide +kernel

/-- Witness of RoutersLinksAndRegulators, outputs and deliveries: nothing to grant, a packet for its own die and one that goes on, a waiting packet, an answer clean and failed, a request, and route sets. -/
theorem witness_outputs :
    (routed 0 0 [] []).candidates 0 8 = [] ∧
    (∀ d ∈ [0, 28], let port := if d = 0 then 0 else 3
      let p : Packet := { header := BitVec.ofNat 128 d, wait := 63 }
      let s := routed d port [(vcKey port 4 false, [p])] []
      (bestOf goesFirst (s.candidates d (localPort d))).map (fun x => (x.1, x.2.2)) = some (vcKey port 4 false, p) ∧ pkDst p.header = d ∧ vcKey port 4 false / 10 ≠ localPort d ∧
      (s.router d).vcs.look (vcKey port 4 false) [] = [] ++ p :: []) ∧
    (let p : Packet := { header := 9 }
     let s := routed 0 0 [(vcKey 7 0 false, [p])] []
     (bestOf goesFirst (s.candidates 0 0)).map (fun x => (x.1, x.2.2)) = some (vcKey 7 0 false, p) ∧ s.wantsOut 0 0 p = some (pkEsc p.header) ∧ (farEnd 0 0).isSome = true) ∧
    (∀ d ∈ [0, 28], let q : Packet := { header := BitVec.ofNat 128 (d + 2 * 2 ^ 33 + 2 ^ 106), payload := [(0, 0)] }
      let s := routed d 0 [] [(d, localPort d, q)]
      s.wires = [] ++ (d, localPort d, q) :: [] ∧ (sectorFates { q with payload := [] } []).contains 2 = false ∧ (sectorFates q [true]).contains 2 = true ∧ pkMClass q.header = 2 ∧ pkOrd q.header = false ∧
      (s.router d).retries.contains (4096 * pkSrc q.header + pkTag q.header) = false ∧ pkMClass (BitVec.ofNat 128 d) = 0) ∧
    (0 = 0 ∨ up.detours.has 0 = true) ∧ 1 ≠ 0 ∧ up.detours.has 1 = false := by decide +kernel

/-- Die 0 with link 7 as given. -/
def withLink (l : Link) (thresh : BitVec 64) : State := { up with routers := [(0, { links := [(7, l)], crcThresh := thresh })] }

/-- Witness of RoutersLinksAndRegulators, links: a threshold of 0, one above the count and one met; each state of the link; widths and rates at and beyond their limits. -/
theorem witness_links :
    linkAt 0 7 = true ∧ linkAt 28 3 = true ∧
    bits ((withLink {} 0).router 0).crcThresh 15 0 = 0 ∧ ((withLink { crcWin := 3 } 5).link 0 7).crcWin + 1 < bits ((withLink { crcWin := 3 } 5).router 0).crcThresh 15 0 ∧
    1 ≤ bits ((withLink { crcWin := 3, st := .up } 4).router 0).crcThresh 15 0 ∧ bits ((withLink { crcWin := 3, st := .up } 4).router 0).crcThresh 15 0 ≤ ((withLink { crcWin := 3, st := .up } 4).link 0 7).crcWin + 1 ∧
    (∀ st ∈ [LinkSt.down, .training, .quarantined, .up, .degraded], let s := withLink { st := st } 0
      (s.link 0 7).st = st ∧ s.leastWidth 0 7 ≤ s.fullWidth 0 7 ∧ (s.link 0 7).retry < 2 ∧ (s.router 0).set = 0 ∧ s.fullWidth 0 7 = 4 ∧ s.rateCap = 2 ∧ s.flt.routeFenced = [] ∧
      (∀ n ∈ [neighbour 0 7], n = some 13) ∧ s.upstream 0 13 = true) ∧
    2 ≤ ((withLink { st := .quarantined, retry := 2 } 0).link 0 7).retry ∧
    (let s : State := { up with routers := [(0, { links := [(7, { st := .training })], set := 1 })], detours := [(1, linkElem 0 7, [])] }
     (s.link 0 7).st = .training ∧ (s.router 0).set ≠ 0 ∧ (s.router 0).set = s.setFor (linkElem 0 7) ∧ s.flt.routeFenced = [] ∧ s.outElems = []) ∧
    (let s := withLink { st := .training, minWidth := 3 } 0
     (s.link 0 7).st = .training ∧ s.flt.routeFenced = [] ∧ 2 ≤ s.fullWidth 0 7 ∧ 2 < s.leastWidth 0 7) := by decide +kernel

/-- Witness of RoutersLinksAndRegulators, regulators: a floor within its budget at the first and last master of a tile, a master whose transactions are all out, a response, and a window. -/
theorem witness_regulators :
    (∀ m ∈ [0, 17], let c : RegClass := { cls := BitVec.ofNat 64 (2 * 2 ^ 62 + 1 * 2 ^ 42 + 1), budget := 1, q := [{}] }
      let s : State := { up with masters := [(32 * 28 + m, { classes := [(3, c)] })] }
      s.isUp = true ∧ (s.master 28 m).classes = [(3, c)] ∧ c.q = {} :: [] ∧ Master.mayIssue { s.master 28 m with urg := s.urgency 28 m } (realTime 28 m) c ≠ 0 ∧ rcKind c.cls = 2 ∧ c.out < rcOt c.cls ∧
      0 < c.budget ∧ c.out < s.maxOt 28 m ∧ s.masters.has (32 * 28 + m) = true ∧ s.masters.has 0 = false) ∧
    (let c : RegClass := { out := 128 }
     let s : State := { up with masters := [(0, { classes := [(3, c)] })] }
     s.maxOt 0 0 ≤ (s.master 0 0).outAll ∧ (s.master 0 0).urg = s.urgency 0 0 ∧ masterOf 0 0 = [0] ∧ (s.master 0 0).classes.look 3 {} = c ∧ 0 < c.out ∧ rcKind c.cls = 0) := by decide +kernel

/-- `up` with site `k` as given. -/
def withSite' (k : Nat) (x : Site) : State := { up with sites := [(k, x)] }

/-- Witness of AccessionAndServiceOfGraftSites, accession: sites 0 and 3, each step, and identities at the ends of the ranges and outside them. -/
theorem witness_accession :
    (∀ k ∈ [0, 3], ((withSite' k {}).site k).resetN = false ∧ ((withSite' k {}).site k).st ≠ .fenced ∧ ((withSite' k {}).site k).drain = false ∧ ((withSite' k {}).site k).st ≠ .accession ∧
      ∀ n ∈ [1, 3, 4, 5], let g : GraftRec := { vendor := 7, revMin := 2, revMax := 2, power := 9 }
        let x : Site := { st := .accession, step := n, grec := some g, resetN := true }
        ((withSite' k x).site k).st = .accession ∧ ((withSite' k x).site k).grec = some g ∧ ((withSite' k x).site k).step = n ∧ g.attest = false) ∧
    (let i : ChipInfo := { present := true, vendor := 7, rev := 2, power := 9 }
     i.vendor = 7 ∧ i.product = 0 ∧ 2 ≤ i.rev.toNat ∧ i.rev.toNat ≤ 2 ∧ i.power.toNat ≤ 9) ∧ (8 : BitVec 16) ≠ 7 := by decide +kernel

/-- An admitted site 3 whose class 7 has its floor in the regulator of its gate. -/
def gated (x : Site) : State :=
  { up with sites := [(3, { x with st := .admitted, accept := true, grec := some { classes := 0x80, maxOt := 8, power := 9 } })],
            routers := [(0, { links := [(hubLinkOf 3, { st := .up })] })],
            masters := [(7, { classes := [(7, { cls := BitVec.ofNat 64 (2 * 2 ^ 62 + 8 * 2 ^ 42), budget := 8, out := if x.slots = [] then 0 else 1 })] })] }

/-- Witness of GatesGrantRefuseAndFence: an offer that just fits, a slot, the packets, and power and temperature at and beyond their limits. -/
theorem witness_gates :
    (gated {}).isUp = true ∧ ((gated {}).site 3).st = .admitted ∧ ((gated {}).site 3).grec = some { classes := 0x80, maxOt := 8, power := 9 } ∧ ((gated {}).site 3).accept = true ∧
    ((gated {}).link 0 (hubLinkOf 3)).st = .up ∧ 1 ≤ 7 ∧ bit (0x80 : BitVec 8) 7 = true ∧ ((gated {}).site 3).throttled = false ∧ ((gated {}).master 0 (4 + 3)).outAll + 8 ≤ (gated {}).maxOt 0 (4 + 3) ∧
    ((gated {}).master 0 (4 + 3)).mayIssueN (((gated {}).master 0 (4 + 3)).classes.look 7 {}) 0 8 = true ∧ ((gated {}).site 3).slots = [] ∧
    (let x : GateSlot := { cls := 7 }
     ((gated { slots := [x], proto := 1 }).site 3).slots = [x] ∧ x.wins = [] ∧ bit ((gated { slots := [x], proto := 1 }).site 3).proto 0 = true ∧
     ({ cls := 7, op := .rdNc } : ChipPkt).tile = false ∧ ({ tile := true } : ChipPkt).tile = true ∧ ({ tile := true } : ChipPkt).op ≠ .io ∧ bit ((gated { proto := 2 }).site 3).proto 1 = true ∧ bit (0x80 : BitVec 8) 6 = false) ∧
    ((gated { overs := 8 }).site 3).overs < 9 ∧ 9 ≤ ((gated { overs := 9 }).site 3).overs := by decide +kernel

/-- Witness of AccessionAndServiceOfGraftSites, service: an admitted site with a free queue, one that is not, an open request, a snoop with one half left and with both, a reset, and the first and last window. -/
theorem witness_sites :
    ((gated {}).site 3).reqs.length < 512 ∧ ((withSite' 3 {}).site 3).st ≠ .admitted ∧ (∀ b : Bool, let s : State := { gated {} with inv := { up.inv with units := if b then 4 else 0 } }
      bit s.inv.units 2 = b ∧ (s.site 3).st = .admitted) ∧
    (∀ l ∈ [(1 : BitVec 2), 3], let q : SiteSnoop := { id := 8, left := l }
      ((gated { snps := [q] }).site 3).reqs = [] ∧ ((gated { snps := [q] }).site 3).snps = [q] ∧ q.left = l) ∧ ((gated {}).site 3).snps = [] ∧
    (let q : SiteReq := { id := 5, size := 4, host := true }
     ((gated { reqs := [q] }).site 3).reqs = [q] ∧ 6 ≠ q.id ∧ 9999 < ((gated { reqs := [q] }).site 3).timeout.toNat ∧ ((gated { reqs := [q] }).site 3).timeout.toNat ≤ 10000) ∧
    (1 : BitVec 64).getLsbD 0 = true ∧ (2 : BitVec 64).getLsbD 0 = false ∧
    (let x : Site := { st := .reset, drain := true }
     ((withSite' 3 x).site 3).drain = true ∧ ((withSite' 3 x).site 3).st = .reset ∧ bit ((withSite' 3 x).site 3).proto 2 = false ∧ ((withSite' 3 x).site 3).reqs = []) ∧
    (0 < 16 ∧ 15 < 16) := by decide +kernel

/-! ### Fabric -/

/-- A fabric device 5 of incarnation 9 whose bonded port `p` is as given. -/
def fabric (p : Nat) (x : FabPort) : State :=
  { withCmpt1 { cm1 with segs := [(0, seg0)] } with
    stk := [(0, { die := 1 })], inv := { up.inv with units := 1, ports := BitVec.allOnes 64, fenced := 0 },
    fab := { up.fab with id := 5, inc := 9, ports := [(p, x)], conns := [(7, { theirInc := 3 })], grants := [(2, BitVec.ofNat 128 (7 + 2 ^ 16 + 7 * 2 ^ 40))] } }

/-- A fabric whose ports are not bonded. -/
def unbonded (p : Nat) (x : FabPort) : State := { fabric p x with inv := { (fabric p x).inv with ports := 0 } }

/-- Witness of FabricPortsTrainAttestAndDrop: ports 0 and 27 in each state, bonded and not, and versions next to the device's and beyond. -/
theorem witness_ports :
    (∀ p ∈ [0, 27], ∀ st ∈ [FabSt.disabled, .training, .attesting, .refused, .down, .up], let s := fabric p { st := st }
      s.isUp = true ∧ s.portOn p = true ∧ (s.fport p).st = st ∧ (s.fport p).nbr ≠ s.fab.id ∧ (unbonded p { st := st }).portOn p = false ∧ ((unbonded p { st := st }).fport p).st = st) ∧
    0 + 1 < up.fab.version.toNat ∧ up.fab.version.toNat + 1 < 4 := by decide +kernel

/-- Witness of FabricLinksReportsAndRoutes, links: the seventh and eighth failed tag of a keyed link, and a packet of one flit with room in the retry buffer and none. -/
theorem witness_fabric_links :
    ((fabric 27 { st := .up, keyed := true }).fport 27).keyed = true ∧ ((fabric 27 { st := .up, tagFails := 6 }).fport 27).tagFails < 7 ∧ 7 ≤ ((fabric 27 { st := .up, tagFails := 7 }).fport 27).tagFails ∧
    (0 : BitVec 24) = ((fabric 27 { st := .up }).fport 27).lastAcc + 1 ∧ (5 : BitVec 24) ≠ ((fabric 27 { st := .up }).fport 27).lastAcc + 1 ∧
    (let k : FabPkt := { dst := 7, data := List.replicate 32 1 }
     ((fabric 27 { st := .up, egress := [k] }).fport 27).egress = [k] ∧ (pktBytes k).length ≤ 1000 ∧ ((fabric 27 { st := .up, egress := [k], retry := List.replicate 511 {} }).fport 27).retry.length < 512 ∧
     512 < ((fabric 27 { st := .up, egress := [k], retry := List.replicate 512 {} }).fport 27).retry.length + (payloads (pktBytes k).length (pktBytes k)).length) := by decide +kernel

/-- Witness of FabricLinksReportsAndRoutes, reports and transit: hops at the limit and below, a route, and a transition. -/
theorem witness_transit :
    (let s := fabric 0 { st := .up, egress := [{}] }
     s.hasFabric = true ∧ s.fab.reports = [] ∧ (6 : BitVec 16) ≠ s.fab.id ∧ 23 ≤ ({ dst := 6, hops := 23 } : FabPkt).hops ∧ ({ dst := 6, hops := 22 } : FabPkt).hops < 23 ∧ pktEsc { dst := 6, hops := 22 } = false ∧
     (idsOf (s.fab.reports.filter (fun r => r.id != 7))).length ≤ 1024 ∧ (s.fport 0).egress = [{}] ∧ s.fab.transition = false) ∧
    (let s : State := { fabric 0 { st := .up } with fab := { (fabric 0 { st := .up }).fab with adaptive := [(6, [27])], transition := true } }
     s.fab.adaptive = [(6, [27])] ∧ s.fab.transition = true) ∧
    (let r : Report := { id := 7, seq := 8 }
     seqBefore r.seq (reportOf { id := 7, seq := 8 }).seq = false ∧ seqBefore r.seq (reportOf { id := 7, seq := 7 }).seq = false ∧ [r].find? (fun x => x.id == 7 && x.digest == 0) = some r) := by decide +kernel

/-- Reports of another device and of the device itself, whatever its digest is. -/
theorem witness_reports (s : State) : ({ digest := s.fabDigest + 1 } : AdjReport).digest ≠ s.fabDigest ∧ ({ digest := s.fabDigest } : AdjReport).digest = s.fabDigest :=
  ⟨by simp, rfl⟩

/-- A request of device 7 for device 5, of 32 bytes through grant 2. -/
def request (op : Nat) : FabPkt := { dst := 5, src := 7, srcInc := 3, dstInc := 9, op := BitVec.ofNat 8 op, grant := 2, len := 32, ext := [BitVec.ofNat 128 (2 ^ 96 * 64)], data := List.replicate 32 1 }

/-- Witness of RemoteRequestsArePerformedInOrder: a request of each opcode that passes every check, BATCH served and not, a stale incarnation, and a request for another device. -/
theorem witness_remote :
    (∀ op ∈ [1, 2, 3, 4, 5], (fabric 0 { st := .up }).freshReq 0 op (request op)) ∧
    ((fabric 0 { st := .up }).tookReq 0 (request 5)).servesVersion 2 = true ∧
    (let s : State := { fabric 0 { st := .up } with fab := { (fabric 0 { st := .up }).fab with version := 1 } }
     s.freshReq 0 5 (request 5) ∧ (s.tookReq 0 (request 5)).servesVersion 2 = false) ∧
    (((fabric 0 { st := .up }).tookReq 0 (request 4)).conn 7).contribs = [] ∧ (request 4).len < bits (BitVec.ofNat 128 (2 ^ 96 * 64)) 127 96 ∧
    (let k : FabPkt := { request 3 with dstInc := 8 }
     k.dstInc ≠ 0 ∧ k.dstInc ≠ (fabric 0 { st := .up }).fab.inc) ∧ ({ request 3 with dst := 6 } : FabPkt).dst ≠ (fabric 0 { st := .up }).fab.id := by
  unfold State.freshReq
  decide +kernel

/-- A fabric with one operation outstanding toward device 65535. -/
def waiting (o : OutOp) : State := { fabric 0 { st := .up } with fab := { (fabric 0 { st := .up }).fab with conns := [(65535, { outstanding := [o], theirInc := 3, marks := [(7, {})] })] } }

/-- Witness of OperationsAckRetryAndExpire: a response, ages at and below the interval and the limit, and versions below and above. -/
theorem witness_operations :
    (let o : OutOp := { pkt := { seq := 4, op := 3 } }
     let k : FabPkt := { dst := 5, src := 65535, flags := 1, dstInc := 9, srcInc := 3, seq := 4, op := 3 }
     let s := waiting o
     s.isUp = true ∧ (s.conn 65535).outstanding = [o] ∧ s.hasFabric = true ∧ k.dst = s.fab.id ∧ k.src = BitVec.ofNat 16 65535 ∧ bit k.flags 0 = true ∧ k.dstInc = s.fab.inc ∧
     (s.conn 65535).theirInc = k.srcInc ∧ o.pkt.seq = k.seq ∧ o.pkt.op = k.op ∧ k.op ≠ 1 ∧ o.acked = false ∧ 19 < o.interval ∧ o.interval ≤ 20 ∧ 1999 < s.fab.limit.toNat ∧ s.fab.limit.toNat ≤ 2000 ∧
     (1 : BitVec 16).toNat < s.fab.version.toNat ∧ s.fab.version.toNat < (3 : BitVec 16).toNat) := by decide +kernel

/-! ### Attestation, keys, management and the life cycle -/

/-- Witness of SpdmSessionsNegotiateLiveAndEnd: each stage of a negotiation on both transports, sessions at and below the limit, one not yet live and one live, and streams 15, 16 and 17. -/
theorem witness_spdm :
    (∀ m : Bool, up.isUp = true ∧ up.conf.versioned &&& trBit m = 0 ∧ up.conf.algs &&& trBit m = 0 ∧ up.conf.chunkOut.look (b2n m) [] = [] ∧
      (let s : State := { up with conf := { up.conf with versioned := 3, caps := 3, algs := 3, chunkOut := [(0, [1]), (1, [2])], sessions := List.replicate 7 { mgmt := m } } }
       s.conf.versioned &&& trBit m ≠ 0 ∧ s.conf.caps &&& trBit m ≠ 0 ∧ s.conf.algs &&& trBit m ≠ 0 ∧ s.conf.chunkOut.look (b2n m) [] ≠ [] ∧ (s.conf.sessions.filter (fun x => x.mgmt == m)).length < 8) ∧
      (let s : State := { up with conf := { up.conf with sessions := List.replicate 8 { mgmt := m } } }
       8 ≤ (s.conf.sessions.filter (fun x => x.mgmt == m)).length) ∧
      (let x : Session := { id := 4, mgmt := m, live := true }
       let s : State := { up with conf := { up.conf with sessions := [x] } }
       s.session 4 = some x ∧ s.session 5 = none ∧ x.mgmt = m)) ∧
    (15 : BitVec 32).toNat % 16 = 15 ∧ (7 : BitVec 32).toNat % 16 ≠ 15 ∧ 15 < 16 ∧ 16 < 17 := by decide +kernel

/-- A live session on the PF's transport, and compartment `c` as given. -/
def session4 (c : Nat) (m : Cmpt) : State := { up with conf := { up.conf with sessions := [{ id := 4, live := true }], round := 1, released := true }, cmpts := [(c, m)] }

/-- A KEY_RELEASE or KEY_ERASE of slot 7 of compartment 63. -/
def keyMsg : List Byte := [0, 63, 7, 0] ++ List.replicate 5393 0

theorem keyMsg_length : keyMsg.length = 5397 := by
  rw [keyMsg, List.length_append, List.length_replicate]
  rfl

theorem keyMsg_ok (e : Bool) : keyMsgOk e keyMsg = true := by
  simp only [keyMsgOk, keyMsg_length]
  cases e <;> decide +kernel

/-- Witness of VaultAndQuorumKeepKeys but for approvals, which the free signature function decides: a release into an empty slot, an erase of a loaded one, a malformed message, and a fetch without a release. -/
theorem witness_vault :
    (session4 63 { state := .ready, plan := some {} }).session 4 = some { id := 4, live := true } ∧ (session4 63 { state := .ready, plan := some {} }).isUp = true ∧
    (session4 63 { state := .ready, plan := some {} }).keyCode { id := 4, live := true } false keyMsg = 0 ∧ ((session4 63 { state := .ready, plan := some {} }).cmpt (fieldAt keyMsg 1 1)).vitrine = false ∧ fieldAt keyMsg 1 1 < 64 ∧
    (session4 63 { state := .ready, plan := some {}, keys := [(7, { loaded := true })] }).keyCode { id := 4, live := true } true keyMsg = 0 ∧
    up.keyCode {} false [] ≠ 0 ∧ up.keyCode {} true [] ≠ 0 ∧ keyMsgOk false [] = false ∧ up.approvalCode {} false [] ≠ 0 ∧ up.approvalCode {} true [] ≠ 0 ∧ up.conf.released = false := by
  refine ⟨by decide +kernel, by decide +kernel, ?_, by decide +kernel, by decide +kernel, ?_, by decide +kernel, by decide +kernel, by decide +kernel, by decide +kernel, by decide +kernel, by decide +kernel⟩
  · simp only [State.keyCode, keyMsg_ok]
    decide +kernel
  · simp only [State.keyCode, keyMsg_ok]
    decide +kernel

/-- A fetch for the latest round and its recipient, whatever the hash is. -/
theorem witness_release_fetch :
    let msg : List Byte := List.replicate 1224 0
    let s : State := { session4 63 {} with conf := { (session4 63 {}).conf with recipient := Config.sha384 (msg.drop 8) } }
    msg.length = 1224 ∧ fieldAt msg 1 3 = 0 ∧ s.conf.released = true ∧ fieldAt msg 4 4 + 1 = s.conf.round.toNat ∧ Config.sha384 (msg.drop 8) = s.conf.recipient :=
  ⟨List.length_replicate, by decide +kernel, rfl, by decide +kernel, rfl⟩

/-- Witness of TdiLocksStartsAndStops: compartments 1 and 63 as a vitrine in each state, one that is no vitrine, and locked registers at the ends of their ranges. -/
theorem witness_tdi :
    (∀ c ∈ [1, 63], ∀ t ∈ [Tdi.unlocked, .locked, .run, .error], let m : Cmpt := { state := .ready, plan := some { mode := 1 }, tdi := t, active := true, nonce := 5 }
      let s : State := { session4 c m with pci := { up.pci with ideSel := 0x8000 } }
      s.isUp = true ∧ s.session 4 = some { id := 4, live := true } ∧ s.isTdi c = true ∧ (s.cmpt c).tdi = t ∧ s.cstate c = .ready ∧ s.streamSecure 16 = true ∧ (s.cmpt c).active = true ∧ (s.cmpt c).nonce = 5 ∧
      (s.cmpt c).nonce ≠ 6 ∧ (s.cmpt c).heldWr = []) ∧
    (session4 1 { state := .ready, plan := some {} }).isTdi 1 = false ∧ ((session4 1 { state := .ready, plan := some {} }).cmpt 1).vitrine = false ∧
    (session4 1 { plan := some { mode := 1 }, tdi := .error }).cstate 1 = .undef ∧ lockedReg 0x1000 = true ∧ lockedReg 0x801FF = true := by decide +kernel

/-- Witness of ManagementSessionsAndOwner: with and without an anchor, below and at four sessions, a bound session and another, values at the ends of their ranges, a register that management writes and one it does not. -/
theorem witness_management :
    (managed true).isUp = true ∧ (managed true).auth.anchor = some 5 ∧ (managed true).auth.sessions.length < 4 ∧ (managed true).auth.anchor ≠ some 6 ∧ up.auth.anchor = none ∧
    4 ≤ ({ up with auth := { up.auth with sessions := List.replicate 4 {} } } : State).auth.sessions.length ∧
    (∀ b : Bool, (managed b).auth.sessions = [{ id := 2, clientBound := b }]) ∧ mayWrite .mgmt 0 0x708000 = true ∧ mayWrite .mgmt 0 0xF00270 = false ∧
    (∀ k, k < 512 → pfOnly 0 (0x100000 + 8 * k) = false) := by
  decide +kernel

/-- Witness of LifeCycleTransitionsAndDebugAccess, requests and access, but for a grant that verifies: the first and third states, a nonce and none, and a grant that is opening. -/
theorem witness_life_cycle :
    (lifeCycle 2).isUp = true ∧ (lifeCycle 2).auth.eraseIntent = false ∧ (lifeCycle 2).lcState = 2 ∧ (lifeCycle 0).isUp = true ∧ (lifeCycle 0).lcState = 0 ∧ (lifeCycle 0).upd.phase = .idle ∧
    (lifeCycle 2).auth.sessions = [{ id := 2, clientBound := true }] ∧ (lifeCycle 2).auth.dbgNonce = none ∧ (lifeCycle 2).auth.dbgPend = false ∧ (lifeCycle 2).auth.eh1608 = true ∧ (lifeCycle 2).auth.dbgOn = false ∧
    (let s : State := { lifeCycle 2 with auth := { (lifeCycle 2).auth with dbgPend := true, dbgNonce := some (3, 1) } }
     s.auth.dbgPend = true ∧ s.auth.dbgNonce = some (3, 1) ∧ s.anyActive = false ∧ ∀ c ∈ s.cmpts, c.1 ≠ 0 → c.2.state ≠ .fallow) ∧
    bits (8 : BitVec 8) 7 3 ≠ 0 ∧ bits (7 : BitVec 8) 7 3 = 0 := by decide +kernel

/-- A grant of no bytes repeats no challenge, whatever the free functions answer. -/
theorem witness_empty_grant (s : State) (k : BitVec 256) (c : BitVec 8)
    (hr : s.auth.dbgRec = s.challengeRecord k c) :
    ¬(([] : List Byte).take s.auth.dbgRec.length = s.auth.dbgRec ∧
      Config.verify Config.debugAuthority s.auth.dbgRec (([] : List Byte).drop s.auth.dbgRec.length) = true) := by
  intro h
  have := congrArg List.length h.1
  simp [hr, State.challengeRecord] at this

/-- Witness of LifeCycleTransitionsAndDebugAccess, steps: each step of a transition, a copy to write and all three written. -/
theorem witness_lc_steps :
    (∀ n ∈ [0, 2, 3, 4, 5, 6, 7], let s : State := { lifeCycle 0 with auth := { (lifeCycle 0).auth with lcStep := n } }
      s.isOn = true ∧ s.auth.lcStep = n ∧ s.auth.lcCopies = [lcCode 0, lcCode 0, lcCode 0] ∧ lcCode 0 ||| lcCode (s.auth.lcTarget + 1) ≠ lcCode 0) ∧
    (let s : State := { lifeCycle 1 with auth := { (lifeCycle 1).auth with lcStep := 6 } }
     s.auth.lcCopies = [lcCode (s.auth.lcTarget + 1), lcCode (s.auth.lcTarget + 1), lcCode (s.auth.lcTarget + 1)]) := by decide +kernel

/-- Witness of CachesFlushAndDeadAgentsLeave: a line in the hub's cache and in a tile's, no vitrine and an active one, and dies 1, 32 and 33. -/
theorem witness_caches :
    (∀ st ∈ [LineSt.s, LineSt.e, LineSt.m], let e : CacheLine := { st := st, dirty := 1 }
      let s : State := { up with sc := { lines := [(32, e)] }, tiles := [(28, { rlc := { lines := [(32, e)] } })] }
      s.isUp = true ∧ s.anyActive = false ∧ isTileDie 28 = true ∧ s.coh = [] ∧ (s.cache 28 8).lines = [(32, e)] ∧ (s.cache 0 8).lines = [(32, e)] ∧ e.st ≠ .i ∧ e.wb = 0) ∧
    ({ up with cmpts := [(1, { active := true })] } : State).anyActive = true ∧ (1 : BitVec 64).getLsbD 0 = true ∧ (2 : BitVec 64).getLsbD 0 = false ∧ up.coh = [] := by
  decide +kernel

/-- No home of an idle device holds a request or a transaction. -/
theorem witness_homes (h : Nat) : (up.home h).hq = [] ∧ (up.home h).txns = [] := by
  simp only [State.home]
  split
  · exact ⟨rfl, rfl⟩
  · simp only [State.stack]
    rcases look_mem up.stk h {} with g | ⟨x, hx, g⟩
    · rw [g]
      exact ⟨rfl, rfl⟩
    · have : ∀ e ∈ up.stk, e.2.hq = [] ∧ e.2.txns = [] := by decide +kernel
      rw [g]
      exact this x hx

/-! ### Update, faults, power and registers -/

/-- One bound management session and an update in the given phase, with the bytes received. -/
def updating (p : UpdPhase) (got : List Byte) : State := { managed true with upd := { up.upd with phase := p, got := got, total := 3, health := true } }

/-- Witness of StagingChecksAndHoldsBundles but for a complete bundle, which the free signature function decides: no reason and each reason it names, bytes in place and with a gap, and an end before and at the total. -/
theorem witness_staging :
    (updating .idle []).isUp = true ∧ (updating .idle []).auth.sessions = [{ id := 2, clientBound := true }] ∧ (updating .idle []).updReason false true = 0 ∧ (updating .idle []).updReason true true ≠ 0 ∧
    (updating .idle []).updReason false false ≠ 0 ∧ (updating .idle []).auth.updLock = false ∧ (updating .idle []).anyActive = false ∧
    ({ updating .idle [] with auth := { (managed true).auth with updLock := true } } : State).auth.updLock = true ∧
    (updating .staged []).upd.phase = .staged ∧ (updating .staging [1, 2]).upd.phase = .staging ∧ [(3 : Byte)].length ≤ 1048576 ∧ (updating .staging [1, 2]).partCode ([1, 2] ++ [3]) = 0 ∧
    (updating .staging [1, 2]).partCode ([1, 2] ++ List.replicate 62 0) ≠ 0 ∧ 1 ≠ (updating .staging [1, 2]).upd.got.length ∧ (updating .staging [1, 2]).upd.got.length ≠ (updating .staging [1, 2]).upd.total ∧
    (updating .staging [1, 2, 3]).upd.got.length = (updating .staging [1, 2, 3]).upd.total ∧ (updating .staging [1, 2, 3]).bunCode [1, 2, 3] ≠ 0 := by decide +kernel

theorem witness_activate : (updating .staged []).updReason true true = 0 := by decide +kernel

/-- Witness of TrialsAreConfirmedOrFallBack but for a slot that passes the ROM's checks, which the free signature function decides. -/
theorem witness_trials :
    (∀ p ∈ [UpdPhase.idle, .staged, .swapping, .trial], (updating p []).isUp = true ∧ (updating p []).conf.held = [] ∧ (updating p []).upd.phase = p ∧
      (updating p []).auth.sessions = [{ id := 2, clientBound := true }] ∧ (updating p []).upd.health = true ∧ (updating p []).cmpts = up.cmpts) ∧
    ({ updating .trial [] with upd := { (updating .trial []).upd with health := false } } : State).upd.health = false ∧
    (let s : State := { updating .trial [] with pwr := { up.pwr with perstN := true }, upd := { (updating .trial []).upd with slots := [(0, { st := .trial })] } }
     s.isUp = true ∧ s.pwr.perstN = true ∧ (s.upd.slots.look s.upd.active {}).st = .trial) := by decide +kernel

/-- A slot without an image fails the ROM's checks, whatever the signature function answers. -/
theorem witness_standby_code : (updating .swapping []).standbyCode ≠ 0 := by
  simp only [State.standbyCode]
  split
  · decide
  · have : (updating .swapping []).bunBound (updating .swapping []).stagedSlot.image = false := by decide +kernel
    simp [this]

/-- No write of a compartment is held on an idle device. -/
theorem witness_no_held (c : Nat) : (up.cmpt c).heldWr = [] := by
  simp only [State.cmpt]
  rcases look_mem up.cmpts c {} with g | ⟨x, hx, g⟩
  · rw [g]
  · have : ∀ e ∈ up.cmpts, e.2.heldWr = [] := by decide +kernel
    rw [g]
    exact this x hx

/-- Witness of FaultsOfCoresTilesAndCurators: the first and last die, core and unit, a unit with an error behind it, a reserve tile, and Curators with and without a standby. -/
theorem witness_faults :
    up.isUp = true ∧ (∀ d ∈ [1, 28], isTileDie d = true ∧ invBit up.inv.active d = true ∧ invBit up.inv.fenced d = false) ∧ isTileDie 29 = false ∧ up.cmpts = [] ∧
    ((withCore0 { errs := [(6, 1)] }).core 1 0).errs.look 6 0 ≠ 0 ∧
    (isTileDie 2 = true ∧ 1 ≤ (9 : BitVec 8).toNat ∧ (9 : BitVec 8).toNat ≤ 9 ∧ (∀ t ∈ up.stk, t.2.mig = none) ∧ invBit up.inv.fenced 2 = false ∧ invBit up.inv.reserve 2 = true ∧ up.lsOf 2 = none ∧ up.flt.routeFenced = []) ∧
    (let s : State := { up with inv := { up.inv with fenced := 2 } }
     invBit s.inv.fenced 2 = true) ∧
    (∀ b : Bool, ({ up with flt := { up.flt with standby := b } } : State).flt.standby = b) ∧ up.upd.phase ≠ .swapping ∧ up.upd.phase ≠ .trial := by decide +kernel

/-- Stack 0 on its way from tile 1 to tile 2. -/
def moving (m : Migration) : State := { up with stk := [(0, { die := 2, mig := some { m with src := 1, dst := 2 } })] }

/-- Witness of MovesPromotionsAndSelfTests: a promotion and a planned move before and after the hand-over, an island that is down, a testable die and one that is not, a rotation, and a running test. -/
theorem witness_moves :
    (∀ a b : Bool, let m : Migration := { src := 1, dst := 2, planned := a, handed := b }
      ((moving m).stack 0).mig = some m ∧ isTileDie m.src = true ∧ isTileDie m.dst = true ∧ m.handed = b ∧ m.planned = a ∧ m.rebuild = false ∧ m.retire = false ∧ m.src ≠ m.dst ∧
      ((moving m).stack 0).queues = [] ∧ (moving m).coresIdle m.src = true ∧ (moving m).flt.bist.rotating = false) ∧ (up.stack 0).mig = none ∧
    (let s : State := { up with tiles := [(28, { islandUp := false })] }
     (s.tile 28).islandUp = false) ∧ (up.tile 28).islandUp = true ∧
    (bit (BitVec.ofNat 64 (2 ^ 63 + 2 ^ 33)) 63 = true ∧ up.testable (bits (BitVec.ofNat 64 (2 ^ 63 + 2 ^ 33)) 37 32) = true ∧
      up.blocksDenied (bits (BitVec.ofNat 64 (2 ^ 63 + 2 ^ 33)) 37 32) (BitVec.ofNat 16 (bits (BitVec.ofNat 64 (2 ^ 63 + 2 ^ 33)) 12 0)) = false) ∧
    (bit (BitVec.ofNat 64 (2 ^ 63 + 2 ^ 33 + 1023)) 63 = true ∧
      up.blocksDenied (bits (BitVec.ofNat 64 (2 ^ 63 + 2 ^ 33 + 1023)) 37 32) (BitVec.ofNat 16 (bits (BitVec.ofNat 64 (2 ^ 63 + 2 ^ 33 + 1023)) 12 0)) = false) ∧
    up.testable 1 = false ∧ up.flt.bist.busy = false ∧ up.flt.bist.rotating = false ∧
    (let s : State := { up with stk := [(0, { die := 1 })] }
     (s.nearestReserve 1).isSome = true ∧ s.lsOf 1 = some 0 ∧ (s.stack 0).mig = none ∧ invBit s.inv.active 1 = true ∧ invBit s.inv.fenced 1 = false) ∧
    ({ up with inv := { up.inv with reserve := 0 } } : State).nearestReserve 1 = none ∧
    (let s : State := { up with flt := { up.flt with bist := { busy := true, kind := true, mask := 1, die := 2 } } }
     s.flt.bist.busy = true ∧ s.flt.bist.rotating = false ∧ s.flt.bist.kind = true ∧ s.flt.bist.mask = 1 ∧ isTileDie s.flt.bist.die = true ∧ s.flt.routeFenced = []) := by decide +kernel

/-- No load or store of a control processor waits on an idle device. -/
theorem witness_no_waiting_access (e i : Nat) : (up.core e i).pload = none ∧ (up.core e i).pstore = none := by
  have h : ∀ t ∈ up.tiles, t.2.cores = [] := by decide +kernel
  simp only [State.core, State.tile]
  rcases look_mem up.tiles e {} with g | ⟨x, hx, g⟩
  · rw [g]
    exact ⟨rfl, rfl⟩
  · rw [g, h x hx]
    exact ⟨rfl, rfl⟩

/-- The state after reset with start-up at the given step. -/
def booting (n : Nat) : State := { State.reset with pwr := { State.reset.pwr with bootStep := n, perstN := true } }

/-- Witness of ResetsWipeAndStartUpFollows: a package without power, one that is on, every step, and slots of which one, the other and none may boot. -/
theorem witness_start_up :
    ({ State.reset with pwr := { State.reset.pwr with ok := false } } : State).pwr.ok = false ∧ ({ State.reset with pwr := { State.reset.pwr with ok := false } } : State).isOn = false ∧
    (∀ n ∈ [0, 1, 2, 3, 4, 5, 6, 7, 8], (booting n).isOn = true ∧ (booting n).auth.lcStep = 0 ∧ (booting n).pwr.recovery = false ∧ (booting n).pwr.bootStep = n ∧ (booting n).pwr.perstN = true ∧
      (booting n).pwr.refA = true ∧ (booting n).lcState ≠ 4 ∧ (booting n).bootable (booting n).upd.active = true ∧ ∀ x ∈ (booting n).sites, x.2.st ≠ .accession ∧ x.2.drain = false) ∧ State.reset.pwr.perstN = false ∧
    (let s : State := { booting 3 with upd := { (booting 3).upd with slots := [(0, { st := .failed }), (1, { st := .confirmed })] } }
     s.bootable s.upd.active = false ∧ s.bootable s.spare = true) ∧
    (let s : State := { booting 3 with upd := { (booting 3).upd with slots := [] } }
     s.bootable s.upd.active = false ∧ s.bootable s.spare = false) ∧
    (let s : State := { booting 1 with pwr := { (booting 1).pwr with refA := false, refB := false } }
     s.pwr.refA = false ∧ s.pwr.refB = false) := by decide +kernel

/-- `up`, with both Curators serving, in a power state. -/
def powered (p : PwrState) : State := { up with pwr := { up.pwr with state := p }, flt := { up.flt with standby := true } }

/-- Witness of ClocksRestThrottleAndTrip: each reference lost and good, idle tiles and a busy one, each power state, and temperatures at the setting and 5 below. -/
theorem witness_clocks :
    up.isOn = true ∧ (∀ a b c : Bool, let s : State := { up with pwr := { up.pwr with refA := a, refB := b, selB := c } }
      s.pwr.refA = a ∧ s.pwr.refB = b ∧ s.pwr.selB = c) ∧
    isTileDie 28 = true ∧ invBit up.inv.active 28 = true ∧ invBit up.inv.fenced 28 = false ∧ up.tileIdle 28 = true ∧ (withCore0 kernel).tileIdle 1 = false ∧
    (∀ p ∈ [PwrState.active, .entering, .deepRest, .exiting], (powered p).isUp = true ∧ (powered p).pwr.state = p ∧ (powered p).restRefusal = 0 ∧ (powered p).pwr.waiting = []) ∧
    (withCmpt1 { eq := { ctrl := 0x104 } }).restRefusal ≠ 0 ∧
    (let s : State := { up with pwr := { up.pwr with hubMesh := 1900, hubCool := 9 }, tiles := [(28, { arith := 1050, mesh := 1900 })] }
     bits s.pwr.tj 7 0 < 101 ∧ 1800 < s.pwr.hubMesh ∧ 95 + 5 ≤ bits s.pwr.tj 7 0 ∧ bits s.pwr.limit 15 0 = 0 ∧ 9 ≤ s.pwr.hubCool ∧ s.pwr.hubMesh < 2000 ∧
     s.tiles = [(28, { arith := 1050, mesh := 1900 })] ∧ (List.replicate 29 101)[28]? = some 101) := by decide +kernel

/-- Witness of RegisterWritesReachTheirRegister: a register outside a port's authority, values at the ends of the ranges and beyond, and the last word of the staging area. -/
theorem witness_registers :
    up.isUp = true ∧ mayWrite .i3c 0 0x90_0000 = false ∧ (85 ≤ bits (85 : BitVec 64) 7 0 ∧ bits (105 : BitVec 64) 7 0 ≤ 105) ∧ (bits (84 : BitVec 64) 7 0 < 85 ∧ 105 < bits (106 : BitVec 64) 7 0) ∧
    (60 ≤ bits (60 : BitVec 64) 11 0 ∧ bits (3600 : BitVec 64) 11 0 ≤ 3600) ∧ (bits (59 : BitVec 64) 11 0 < 60 ∧ 3600 < bits (3601 : BitVec 64) 11 0) ∧ 63 < 64 ∧ 29 ≤ 32 ∧ 0x7_FFFF < 0x8_0000 ∧
    0xF0_0240 ≤ 0xF0_0270 := by decide +kernel

/-- Witness of StepRunsTheCommandAtTheFront: a queue of two commands and an empty one. -/
theorem witness_step : ({ up with pending := [.confirm 2, .abort 2] } : State).pending = .confirm 2 :: [.abort 2] ∧ up.pending = [] := by decide +kernel

/-- Witness of CommandsOutsideOperationChangeNothing: the state after reset, a command that is not served, and a package without power with a command that does not restore it. -/
theorem witness_outside_operation :
    State.reset.isUp = false ∧ servedDown (.confirmWindowExpiry) = false ∧
    (let s : State := { State.reset with pwr := { State.reset.pwr with ok := false }, pending := [.powerLoss] }
     s.isOn = false ∧ (∃ t, step s = .next t) ∧ s.pending = [.powerLoss]) :=
  ⟨by decide +kernel, by decide +kernel, by decide +kernel, ⟨_, rfl⟩, rfl⟩

/-- Witness of ScrappedPackagesNeverServe, whose command is the request for another transition. -/
theorem witness_scrapped :
    (let s : State := { State.reset with auth := { State.reset.auth with lcCopies := [0xFFFFFFFF, 0xFFFFFFFF, 0xFFFFFFFF], lcRead := 0xFFFFFFFF }, pending := [.lcStepDone] }
     s.scrapped ∧ step s = .next { s with pending := [] }) := by
  unfold State.scrapped
  exact ⟨by decide +kernel, rfl⟩

/-- Witness of EveryStepKeepsMemoryCanonical: memory and poison that are not empty, with a step that answers. -/
theorem witness_memory_canonical :
    (let s : State := { up with mem := [(0, 1), (64, 255)], poison := [1, 7], pending := [.confirmWindowExpiry] }
     memWf s.mem = true ∧ poisonWf s.poison = true ∧ step s = .next { s with pending := [] }) := by
  exact ⟨by decide +kernel, by decide +kernel, rfl⟩

/-- Witness of TransitionsGrantsAndErasesDiscardStagedSlots but for a grant that verifies: a staged slot, requests of both ports that pass, and the EH1608 path. -/
theorem witness_discard :
    (let s : State := { lifeCycle 0 with upd := { up.upd with phase := .staged } }
     s.isUp = true ∧ s.upd.phase = .staged ∧ s.lcCheck .jtag (lcCode 1) true = 0) ∧
    (let s : State := { lifeCycle 2 with upd := { up.upd with phase := .staging } }
     s.isUp = true ∧ s.upd.phase = .staging ∧ s.lcCheck .mgmt (lcCode 3) true = 0 ∧ s.auth.sessions = [{ id := 2, clientBound := true }] ∧ s.lcState = 2 ∧ s.auth.eh1608 = true) := by decide +kernel

/-- Witness of QueueLevelIsEightTimesOccupancyOver2560: an empty stack and one with entries in two channels. -/
theorem witness_queue_level :
    (withMem {}).isUp = true ∧ isTileDie 1 = true ∧ (withMem {}).lsOf 1 = some 0 ∧ 0 = (((withMem {}).tile 1).mem.pcs.map (fun c => c.2.rq.length + c.2.wq.length)).sum ∧
    (let m : MemCtl := { pcs := [(0, { rq := [{}, {}] }), (31, { wq := [{}] })] }
     3 = (((withMem m).tile 1).mem.pcs.map (fun c => c.2.rq.length + c.2.wq.length)).sum) := by decide +kernel

/-- Witness of ThermalTripsStopClocksAndShowAtTheNextBoot: a device in operation and one in start-up. -/
theorem witness_trip : up.isOn = true ∧ State.reset.isOn = true := by decide +kernel

/-! ### Commands that WellFormed refuses, one term for each check -/

theorem test_wf_dies : Instr.wf (.restEntry 32) = true ∧ Instr.wf (.restEntry 33) = false ∧ Instr.wf (.fenceI 0 0) = false ∧ Instr.wf (.fenceI 29 0) = false ∧ Instr.wf (.fenceI 28 7) = true := by decide
theorem test_wf_core_queue : Instr.wf (.fenceI 1 8) = false ∧ Instr.wf (.wait 1 0 6 false) = false ∧ Instr.wf (.corTknPost 1 0 64 0) = false ∧ Instr.wf (.corRptWrite 1 0 16 0) = false := by decide
theorem test_wf_port_store : Instr.wf (.cmdPortStore 1 0 0 24 (List.replicate 8 0)) = true ∧ Instr.wf (.cmdPortStore 1 0 0 25 (List.replicate 8 0)) = false ∧
    Instr.wf (.cpStore 1 0 0 [] .plain) = false ∧ Instr.wf (.cpLoad 1 0 0 129 0 false) = false ∧ Instr.wf (.cpLoad 1 0 0 8 96 false) = false ∧ Instr.wf (.cpLoad 1 0 0 8 160 false) = false := by decide
theorem test_wf_functions_rings : Instr.wf (.cmpTknPost 3 8 0) = false ∧ Instr.wf (.flr 64) = false ∧ Instr.wf (.sqDoorbell 1 4 0) = false ∧ Instr.wf (.ringCtrlWrite 1 6 true 0) = false ∧
    Instr.wf (.rankStart 1 0 65536) = false ∧ Instr.wf (.withdrawn 1 16) = false ∧ Instr.wf (.msixUnmask 1 3 0) = false ∧ Instr.wf (.msixUnmask 1 0 64) = false := by decide
theorem test_wf_stacks_memory : Instr.wf (.noiseRekey 32) = false ∧ Instr.wf (.memWrite 0 0 [] 0 .clean 16 0) = false ∧ Instr.wf (.memRead 0 0 0 [] 0 4) = false ∧
    Instr.wf (.memWrite 0 0 [] 0 .clean 0 0) = false ∧ Instr.wf (.controllerIssue 1 32) = false ∧ Instr.wf (.refresh 1 0 64) = false := by decide
theorem test_wf_host : Instr.wf (.hostMemRead 1 0 4097 false 0) = false ∧ Instr.wf (.bar2WindowWrite 1 256 0) = false ∧ Instr.wf (.stoNsWrite .pf 64 0) = false ∧
    Instr.wf (.driveRemoval 4) = false ∧ Instr.wf (.ideCheckFailed 17) = false := by decide
theorem test_wf_mesh : Instr.wf (.crcWindow 1 8) = false ∧ Instr.wf (.outputArbitration 1 9) = false ∧ Instr.wf (.ageTick 1 512 0) = false ∧ Instr.wf (.switch 1 256) = false ∧
    Instr.wf (.regulatorWindow 1 32) = false := by decide
theorem test_wf_sites_fabric : Instr.wf (.accessionTimeout 4) = false ∧ Instr.wf (.accession 0 0 {}) = false ∧ Instr.wf (.accession 0 7 {}) = false ∧ Instr.wf (.gateOffer 0 16 0 0) = false ∧
    Instr.wf (.gftWinWrite .pf 0 16 false 0) = false ∧ Instr.wf (.portEnable 28) = false := by decide
theorem test_wf_management : Instr.wf (.regRead 2 0 0 0) = false ∧ Instr.wf (.regRead 2 0 0 513) = false ∧ Instr.wf (.ownerSetOperatorKey 2 4 []) = false ∧ Instr.wf (.getCertificate true 8 0 0) = false ∧
    Instr.wf (.challenge true 0 []) = false ∧ Instr.wf (.getMeasurements true 256 (List.replicate 32 0)) = false ∧ Instr.wf (.throttleWindow 0 0 (List.replicate 30 0) []) = false := by decide

/-- Whether a meaning answers a next state in which a check holds. -/
def after (r : Res) (p : State → Bool) : Bool := match r with | .next t => p t | _ => false

/-! ### Values from the spec's worked examples -/

/-- The pieces of the FP32 triple split (Table 2.7). -/
theorem test_triple_split : splitF32 (f32 0x40490FDB) = [0x4049, 0x3A7D, 0x3630] ∧ splitF32 (f32 0x402DF854) = [0x402D, 0x3C78, 0x37A8] := by decide +kernel

/-- The split product after six passes, each one addend (Table 2.8): 0x4108_A2C0, from the pieces above. -/
theorem test_split_product :
    (toF32 {} ([((0x3630, 0x402D) : Nat × Nat), (0x3A7D, 0x3C78), (0x4049, 0x37A8), (0x3A7D, 0x402D), (0x4049, 0x3C78), (0x4049, 0x402D)].foldl
      (fun acc p => (addF {} acc (FP.mul (decodeFP 1 p.1) (decodeFP 1 p.2)).1).1) FP.zero)).1 = 0x4108A2C0 := by decide +kernel

/-- The MX-FP4 block of the worked example: 1.5 by 3.0 in 32 products under scales 0x7E and 0x81 gives 288, BF16 0x4390. -/
theorem test_mx_block :
    (writeElem 1 {} 0 (alignedAdd 0 (List.replicate 32 (FP.mul (mxElem 0x7E (decodeFP 7 3)) (mxElem 0x81 (decodeFP 7 5))).1)).1).1 = 0x4390 := by decide +kernel

/-- The power limit against the floor: over the limit tiles fall one step per window and stop at 1,000 MHz, where UNMET is set and ALERT_N falls (the worked example of R433 and R434). -/
theorem test_power_limit :
    (let s : State := { up with pwr := { up.pwr with limit := 3400 }, tiles := [(1, { arith := 1050 })] }
     after (execThrottleWindow 3630 0 (List.replicate 29 60) [] s) (fun t => decide ((t.tile 1).arith = 1000)) = true) ∧
    (let s : State := { up with pwr := { up.pwr with limit := 3400 }, tiles := [(1, { arith := 1000 })] }
     after (execThrottleWindow 3455 0 (List.replicate 29 60) [] s) (fun t => decide ((t.tile 1).arith = 1000) && t.pwr.unmet && t.pwr.alert) = true) := by decide +kernel

/-- Fuse copies of the cut-short return: their majority is no codeword (Table 18.10). -/
theorem test_cut_return : (lifeCycle 2).lcState = 2 ∧
    ({ up with auth := { up.auth with lcCopies := [0xFFFFFF00, 0x0FFFFF00, 0x00FFFF00] } } : State).lcLatch.lcState = 4 := by decide +kernel

/-- A post adds to a core counter modulo 2^16 (R63). -/
theorem test_token_post :
    after (exec (.corTknPost 1 0 63 5) (withCore0 kernel)) (fun t => (t.core 1 0).cnt.look 63 0 == 5) = true ∧
    after (exec (.corTknPost 1 0 63 5) (withCore0 { kernel with cnt := [(63, 0xFFFE)] })) (fun t => (t.core 1 0).cnt.look 63 0 == 3) = true := by decide +kernel

end Sys2Proof.Tests
end

section
/-! PROOFS. Register writes: what reaches a window, what each access code of a window does, and the PF's buffers in BAR0 (R9, R368, R436). -/

namespace Sys2Proof.Machine

variable {s : State} {p : Port}

/-! ### The gates of REGISTER_WRITE -/

theorem exec_registerWrite (p : Port) (b : Bool) (d o : Nat) (v : BitVec 64) (s : State) :
    exec (.registerWrite p b d o v) s = execRegisterWrite p b d o v s := rfl

theorem recovery_of_isUp (h : s.isUp = true) : s.pwr.recovery = false := by
  simp only [State.isUp, Bool.and_eq_true, Bool.not_eq_true'] at h
  exact h.2

theorem exec_registerWrite_window (h : s.isUp = true) (p : Port) (d o : Nat) (v : BitVec 64) :
    exec (.registerWrite p false d o v) s = .next (s.regStore p d o v) := by
  rw [exec_registerWrite, execRegisterWrite, onDo_on (isOn_of_isUp h)]
  simp [h]

theorem exec_registerWrite_pfBar0 (h : s.isUp = true) (d o : Nat) (v : BitVec 64) :
    exec (.registerWrite .pf true d o v) s = .next (s.pfBar0 o v) := by
  rw [exec_registerWrite, execRegisterWrite, onDo_on (isOn_of_isUp h)]
  simp [h]

theorem exec_registerWrite_vfBar0 (h : s.isUp = true) {n : Nat} (hn : n ≠ 0) (d o : Nat) (v : BitVec 64) :
    exec (.registerWrite (.vf n) true d o v) s = .next (s.bar0T n o v) := by
  rw [exec_registerWrite, execRegisterWrite, onDo_on (isOn_of_isUp h)]
  simp [h, hn]

/-- The management port has no BAR0. -/
theorem exec_registerWrite_mgmtBar0 (h : s.isUp = true) (d o : Nat) (v : BitVec 64) :
    exec (.registerWrite .mgmt true d o v) s = .next (s.portDenied .mgmt o) := by
  rw [exec_registerWrite, execRegisterWrite, onDo_on (isOn_of_isUp h)]
  simp [h]

/-! ### Authority (R368, Table 18.1) -/

/-- The PF and the management port may write every register but the PF's own. -/
theorem mayWrite_pf_or_mgmt (hp : p = .pf ∨ p = .mgmt) {d o : Nat} (ho : pfOnly d o = false) : mayWrite p d o = true := by
  rcases hp with rfl | rfl
  · rfl
  · simp [mayWrite, ho]

theorem pfOnly_of_ne_zero {d : Nat} (hd : d ≠ 0) (o : Nat) : pfOnly d o = false := by simp [pfOnly, hd]

theorem pfOnly_of_lt {o : Nat} (ho : o < 0xF0_0240) (d : Nat) : pfOnly d o = false := by
  have : ¬ 0xF0_0240 ≤ o := by omega
  simp [pfOnly, this]

theorem mayWrite_mgmt_pfOnly {o : Nat} (h1 : 0xF0_0240 ≤ o) (h2 : o ≤ 0xF0_0270) : mayWrite .mgmt 0 o = false := by
  simp [mayWrite, pfOnly, h1, h2]

/-! ### A write to a die's window by its register's access code (R9) -/

theorem regStore_denied {d o : Nat} (h : mayWrite p d o = false) (v : BitVec 64) : s.regStore p d o v = s.portDenied p o := by
  simp [State.regStore, h]

theorem regStore_hubAct {o : Nat} {v : BitVec 64} {t : State} (hm : mayWrite p 0 o = true) (ha : s.hubAct p o v = some t) :
    s.regStore p 0 o v = t := by
  simp [State.regStore, hm, ha]

theorem regStore_hubStore {o : Nat} {v : BitVec 64} (hm : mayWrite p 0 o = true) (ha : s.hubAct p o v = none) :
    s.regStore p 0 o v = s.hubStore o v := by
  simp [State.regStore, hm, ha]

theorem ne_zero_of_isTileDie {d : Nat} (hd : isTileDie d = true) : d ≠ 0 := by
  simp only [isTileDie, Bool.and_eq_true, decide_eq_true_eq] at hd
  omega

theorem regStore_tile {d : Nat} (hd : isTileDie d = true) {o : Nat} (hm : mayWrite p d o = true) (v : BitVec 64) :
    s.regStore p d o v = s.tileWrite p d o v := by
  simp [State.regStore, hm, hd, ne_zero_of_isTileDie hd]

/-- No die has a number above 28, so its window has no register. -/
theorem regStore_no_die {d : Nat} (hd : 29 ≤ d) {o : Nat} (hm : mayWrite p d o = true) (v : BitVec 64) : s.regStore p d o v = s := by
  have h0 : d ≠ 0 := by omega
  have ht : isTileDie d = false := by simp [isTileDie]; omega
  simp [State.regStore, hm, ht, h0]

/-- A command of a device that is up answers the state it leaves. -/
theorem next_leaves_upDo (f : State → State) : Host.Outcome.next (leaves (upDo s f) s) = upDo s f := rfl

/-! ### The windows as the PF and the management port write them -/

theorem exec_registerWrite_hubStore (h : s.isUp = true) {o : Nat} {v : BitVec 64} (hm : mayWrite p 0 o = true)
    (ha : s.hubAct p o v = none) : exec (.registerWrite p false 0 o v) s = .next (s.hubStore o v) := by
  rw [exec_registerWrite_window h, regStore_hubStore hm ha]

theorem exec_registerWrite_hubAct (h : s.isUp = true) {o : Nat} {v : BitVec 64} {t : State} (hm : mayWrite p 0 o = true)
    (ha : s.hubAct p o v = some t) : exec (.registerWrite p false 0 o v) s = .next t := by
  rw [exec_registerWrite_window h, regStore_hubAct hm ha]

theorem exec_registerWrite_tile (h : s.isUp = true) (hp : p = .pf ∨ p = .mgmt) {d : Nat} (hd : isTileDie d = true) {o : Nat}
    {v : BitVec 64} {t : State} (ht : s.tileWrite p d o v = t) : exec (.registerWrite p false d o v) s = .next t := by
  rw [exec_registerWrite_window h, regStore_tile hd (mayWrite_pf_or_mgmt hp (pfOnly_of_ne_zero (ne_zero_of_isTileDie hd) o)), ht]

/-! ### Registers that store a value -/

theorem hubStore_pwrLimit (s : State) (v : BitVec 64) :
    s.hubStore 0xE8_0038 v = { s with pwr := { s.pwr with limit := BitVec.ofNat 64 (bits v 15 0) } } := rfl

theorem hubStore_tj (s : State) (v : BitVec 64) :
    s.hubStore 0xE8_0048 v
      = if inRange (bits v 7 0) 85 105 then { s with pwr := { s.pwr with tj := BitVec.ofNat 64 (bits v 7 0) } } else s := rfl

theorem hubStore_confirmWin (s : State) (v : BitVec 64) :
    s.hubStore 0xF8_0018 v
      = if inRange (bits v 11 0) 60 3600 then { s with upd := { s.upd with confirmWin := BitVec.ofNat 64 (bits v 11 0) } } else s := rfl

theorem inRange_of_le {n lo hi : Nat} (h1 : lo ≤ n) (h2 : n ≤ hi) : inRange n lo hi = true := by simp [inRange, h1, h2]

theorem inRange_of_out {n lo hi : Nat} (h : n < lo ∨ hi < n) : inRange n lo hi = false := by
  simp only [inRange, Bool.and_eq_false_iff, decide_eq_false_iff_not]
  omega

theorem arrIdx_none {o base : Nat} (stride n : Nat) (h : o < base ∨ base + stride * n ≤ o) : arrIdx o base stride n = none := by
  simp only [arrIdx, ite_eq_right_iff, reduceCtorEq, imp_false]
  omega

/-- Element `k` of an array of registers. -/
theorem arrIdx_elem {stride n k : Nat} (base : Nat) (hk : k < n) (hs : 0 < stride) : arrIdx (base + stride * k) base stride n = some k := by
  have hlt : stride * k < stride * n := Nat.mul_lt_mul_of_pos_left hk hs
  simp [arrIdx, hlt, Nat.mul_div_cancel_left k hs]

/-- Between the unmap request and the bed plan's load command no register has a command of its own. -/
theorem hubAct_none_of_mem_Ioo {o : Nat} (h1 : 0x70_8000 < o) (h2 : o < 0x90_0000) (v : BitVec 64) : s.hubAct p o v = none := by
  have hg : ¬ (0xD0_0000 ≤ o ∧ o < 0xD0_4000) := by omega
  unfold State.hubAct
  split
  case h_12 =>
    rw [arrIdx_none 8 64 (by omega), arrIdx_none 0x40 8 (by omega), arrIdx_none 0x1000 4 (by omega), if_neg hg]
    rfl
  all_goals omega

theorem hubStore_faultLimit {c : Nat} (hc : c < 64) (v : BitVec 64) :
    s.hubStore (0x70_8010 + 8 * c) v = s.withCmpt c { s.cmpt c with faultLimit := v.setWidth 32 } := by
  unfold State.hubStore
  split
  case h_13 =>
    rw [arrIdx_elem 0x70_8010 hc (by decide)]
    exact modCmpt_eq hc _
  all_goals omega

theorem tileWrite_ageLimit {d : Nat} (hd : isTileDie d = true) (v : BitVec 64) :
    s.tileWrite p d 0x50_0018 v = { s with tiles := s.tiles.put d { s.tile d with
      mem := { (s.tile d).mem with ageLimit := BitVec.ofNat 64 (max 256 (bits v 15 0)) } } } := by
  have heq : s.tileWrite p d 0x50_0018 v = s.modMem d (fun m => { m with ageLimit := BitVec.ofNat 64 (max 256 (bits v 15 0)) }) := rfl
  rw [heq, State.modMem, State.modTile, if_pos hd]

/-! ### The PF's buffers in BAR0 (Tables 12.9, 19.7) -/

theorem pfBar0_staging (hr : s.pwr.recovery = false) {k : Nat} (hk : k < 0x8_0000) (v : BitVec 64) :
    s.pfBar0 (0x0200_0000 + 8 * k) v = { s with bed := { s.bed with staged := putBytes s.bed.staged (8 * k) (bvBytes v) } } := by
  have h1 : ¬ 0x0300_0000 ≤ 0x0200_0000 + 8 * k := by omega
  have h2 : ¬ 0x0200_0000 + 8 * k = 0x0010_0200 := by omega
  have h3 : 0x0200_0000 + 8 * k < 0x0240_0000 := by omega
  simp [State.pfBar0, hr, h1, h2, h3]

/-- Outside recovery the mailbox is ignored (R398). -/
theorem pfBar0_mbox (hr : s.pwr.recovery = false) {k : Nat} (hk : k < 0x20_0000) (v : BitVec 64) :
    s.pfBar0 (0x0300_0000 + 8 * k) v = s := by
  have h1 : 0x0300_0000 + 8 * k < 0x0400_0000 := by omega
  simp [State.pfBar0, hr, h1]

/-! ### The obligation -/

/-- Settles O55: each clause is the gate of its port, the access code of its register and that register's own rule. -/
theorem registerWritesReachTheirRegister : Obligations.RegisterWritesReachTheirRegister := by
  unfold Obligations.RegisterWritesReachTheirRegister
  intro s h
  have hr := recovery_of_isUp h
  have denied (p : Port) (d o : Nat) (v : BitVec 64) (hm : mayWrite p d o = false) :
      exec (.registerWrite p false d o v) s = .next (s.portDenied p o) := by
    rw [exec_registerWrite_window h, regStore_denied hm]
  refine ⟨denied, fun n d o v => denied _ d o v rfl, fun n d o v hn => exec_registerWrite_vfBar0 h hn d o v, ?_,
    fun k d v hk => by rw [exec_registerWrite_pfBar0 h, pfBar0_staging hr hk],
    fun k d v hk => by rw [exec_registerWrite_pfBar0 h, pfBar0_mbox hr hk],
    exec_registerWrite_mgmtBar0 h, fun o v h1 h2 => denied _ 0 o v (mayWrite_mgmt_pfOnly h1 h2),
    fun v => exec_registerWrite_hubStore h rfl rfl⟩
  intro p v hp
  have may {o : Nat} (ho : pfOnly 0 o = false) : mayWrite p 0 o = true := mayWrite_pf_or_mgmt hp ho
  have stores {o : Nat} (ho : pfOnly 0 o = false) (ha : s.hubAct p o v = none) :
      exec (.registerWrite p false 0 o v) s = .next (s.hubStore o v) := exec_registerWrite_hubStore h (may ho) ha
  have acts {o : Nat} {t : State} (ho : pfOnly 0 o = false) (ha : s.hubAct p o v = some t) :
      exec (.registerWrite p false 0 o v) s = .next t := exec_registerWrite_hubAct h (may ho) ha
  have tile {d o : Nat} {t : State} (hd : isTileDie d = true) (ht : s.tileWrite p d o v = t) :
      exec (.registerWrite p false d o v) s = .next t := exec_registerWrite_tile h hp hd ht
  refine ⟨?limit, ?tjIn, ?tjOut, ?winIn, ?winOut, ?sel, ?autoRetire, ?faultLimit, ?ageLimit, ?tileReadOnly, ?hubReadOnly, ?noDie,
    ?bedLoad, ?bist, ?pwrReq, ?fallowReq, ?ceThresh⟩
  case limit => rw [stores rfl rfl, hubStore_pwrLimit]
  case tjIn =>
    intro h1 h2
    rw [stores rfl rfl, hubStore_tj, if_pos (inRange_of_le h1 h2)]
  case tjOut =>
    intro ho
    rw [stores rfl rfl, hubStore_tj, inRange_of_out ho, if_neg Bool.false_ne_true]
  case winIn =>
    intro h1 h2
    rw [stores rfl rfl, hubStore_confirmWin, if_pos (inRange_of_le h1 h2)]
  case winOut =>
    intro ho
    rw [stores rfl rfl, hubStore_confirmWin, inRange_of_out ho, if_neg Bool.false_ne_true]
  case sel => exact stores rfl rfl
  case autoRetire => exact stores rfl rfl
  case faultLimit =>
    intro c hc
    rw [stores (pfOnly_of_lt (by omega) 0) (hubAct_none_of_mem_Ioo (by omega) (by omega) v), hubStore_faultLimit hc]
  case ageLimit => exact fun d hd => tile hd (tileWrite_ageLimit hd v)
  case tileReadOnly => exact fun d hd => tile hd rfl
  case hubReadOnly => exact stores rfl rfl
  case noDie =>
    intro d o hd
    rw [exec_registerWrite_window h, regStore_no_die hd (mayWrite_pf_or_mgmt hp (pfOnly_of_ne_zero (by omega) o))]
  case bedLoad => exact (acts rfl rfl).trans (next_leaves_upDo _)
  case bist => exact (acts rfl rfl).trans (next_leaves_upDo _)
  case pwrReq => exact (acts rfl rfl).trans (upDo_up h (fun s => s.pwrStateReq p v)).symm
  case fallowReq => exact (acts rfl rfl).trans (next_leaves_upDo _)
  case ceThresh => exact fun d hd => (tile hd (t := leaves (execMemCeThreshWrite p d v s) s) rfl).trans (next_leaves_upDo _)

end Sys2Proof.Machine
end

section
/-! PROOFS. The control processor: what a running kernel's stores do to its core (R59, R60, R63, R64, R68, R449). -/

namespace Sys2Proof.Machine

variable {s : State} {d i : Nat}

/-! ### Fields and widths -/

/-- A field cut from the low bits of a word that keeps it. -/
theorem bits_setWidth {n w hi lo : Nat} (x : BitVec n) (h : hi < w) : bits (x.setWidth w) hi lo = bits x hi lo := by
  apply Nat.eq_of_testBit_eq
  intro j
  simp only [bits, Nat.testBit_mod_two_pow, Nat.testBit_shiftRight, BitVec.toNat_setWidth]
  by_cases hj : j < hi + 1 - lo
  · have : lo + j < w := by omega
    simp [hj, this]
  · simp [hj]

theorem ofNat_bits_low {n : Nat} (x : BitVec n) (w : Nat) : BitVec.ofNat (w + 1) (bits x w 0) = x.setWidth (w + 1) := by
  apply BitVec.eq_of_toNat_eq
  simp [bits]

/-! ### The core that a running kernel finds -/

theorem corWait_of_cpReady (h : s.cpReady d i = true) : (s.core d i).corWait = none := by
  simp only [State.cpReady, Bool.and_eq_true, Option.isNone_iff_eq_none] at h
  tauto

theorem recheck_corWait_none {c : Core} (h : c.corWait = none) : c.recheck = c := by simp [Core.recheck, h]

/-- A COR_WAIT store that the counter meets retires, and another stays (R64). -/
theorem recheck_corWait_some {c : Core} {w : BitVec 32} (h : c.corWait = some w) :
    c.recheck = if waitMet (c.cnt.look (bits w 5 0) 0) (BitVec.ofNat 16 (bits w 31 16)) then
      { c with corWait := none, waitAge := 0, waitReported := false } else c := by
  simp [Core.recheck, h]

theorem modCore_ready (h : s.cpReady d i = true) (f : Core → Core) : s.modCore d i f = s.withCore d i (f (s.core d i)) :=
  modCore_eq (cpReady_tile h).1 (cpReady_tile h).2 f

/-! ### Counters -/

/-- A counter of a core without a waiting COR_WAIT store is set, and the waits of its queues with it (R63, R64). -/
theorem setCounter_core_ready (h : s.cpReady d i = true) {k : Nat} (hk : k < 64) (v : BitVec 16) :
    s.setCounter (.core d i) k v
      = s.withCore d i { (s.core d i).latch k ((s.core d i).cnt.look k 0) v with cnt := (s.core d i).cnt.put k v } := by
  have hk' : k < ctrCount (.core d i) := hk
  simp only [State.setCounter, if_pos hk', modCore_ready h]
  exact congrArg (s.withCore d i) (recheck_corWait_none (corWait_of_cpReady h))

/-! ### Command ports (R60) -/

/-- What a store into a command port writes to the staging register, and where it completes a command. -/
theorem portStore_ready {q o : Nat} {l : List Byte} (h : s.cpReady d i = true) (hq : q < 6) (hl : l ≠ []) (ho : o + l.length ≤ 32) :
    s.portStore d i q o l =
      let w := stageWrite ((s.core d i).stage.look q 0) o l
      let t := s.withCore d i { s.core d i with stage := (s.core d i).stage.put q w }
      if o + l.length = 32 then
        if ((s.core d i).queue q).length < 32 then t.enterCmd d i q w
        else t.modCore d i (fun c => { c with portWait := some (q, w) })
      else t := by
  have h0 : 0 < l.length := List.length_pos_iff.mpr hl
  have h1 : o < 32 := by omega
  have h2 : l.take (32 - o) = l := List.take_of_length_le (by omega)
  simp only [State.portStore, h2, if_pos (show q < 6 ∧ o < 32 ∧ l ≠ [] from ⟨hq, h1, hl⟩), modCore_ready h, core_withCore]
  rfl

theorem enterCmd_eq (hd : isTileDie d = true) (hi : i < 8) (s : State) (q : Nat) (w : BitVec 256) :
    s.enterCmd d i q w = State.withCore { s with serial := s.serial + 1 } d i
      ((s.core d i).setQueue q ((s.core d i).queue q ++ [{ word := w, id := s.serial }])) := by
  simp only [State.enterCmd, State.nextSerial, modCore_eq hd hi]
  rfl

/-- A store short of byte 31 of a port writes the staging register alone. -/
theorem portStore_short {q o : Nat} {l : List Byte} (h : s.cpReady d i = true) (hq : q < 6) (hl : l ≠ []) (ho : o + l.length < 32) :
    s.portStore d i q o l
      = s.withCore d i { s.core d i with stage := (s.core d i).stage.put q (stageWrite ((s.core d i).stage.look q 0) o l) } := by
  have hne : o + l.length ≠ 32 := by omega
  rw [portStore_ready h hq hl (by omega)]
  exact if_neg hne

/-- The store of byte 31 enters the staged command behind the queue's others. -/
theorem portStore_enters {q o : Nat} {l : List Byte} (h : s.cpReady d i = true) (hq : q < 6) (hl : l ≠ []) (ho : o + l.length = 32)
    (hroom : ((s.core d i).queue q).length < 32) :
    s.portStore d i q o l
      = State.withCore { s with serial := s.serial + 1 } d i { s.core d i with
          stage := (s.core d i).stage.put q (stageWrite ((s.core d i).stage.look q 0) o l)
          queues := (s.core d i).queues.put q ((s.core d i).queue q ++
            [{ word := stageWrite ((s.core d i).stage.look q 0) o l, id := s.serial }]) } := by
  obtain ⟨hd, hi⟩ := cpReady_tile h
  rw [portStore_ready h hq hl (by omega)]
  simp only [if_pos ho, if_pos hroom, enterCmd_eq hd hi, core_withCore]
  exact withCore_withCore (s := { s with serial := s.serial + 1 }) d i _ _

/-- While the queue is full the store of byte 31 waits. -/
theorem portStore_waits {q o : Nat} {l : List Byte} (h : s.cpReady d i = true) (hq : q < 6) (hl : l ≠ []) (ho : o + l.length = 32)
    (hfull : 32 ≤ ((s.core d i).queue q).length) :
    s.portStore d i q o l
      = s.withCore d i { s.core d i with
          stage := (s.core d i).stage.put q (stageWrite ((s.core d i).stage.look q 0) o l)
          portWait := some (q, stageWrite ((s.core d i).stage.look q 0) o l) } := by
  obtain ⟨hd, hi⟩ := cpReady_tile h
  have hroom : ¬ ((s.core d i).queue q).length < 32 := by omega
  rw [portStore_ready h hq hl (by omega)]
  simp only [if_pos ho, if_neg hroom, modCore_eq hd hi, core_withCore, withCore_withCore]

/-! ### The core register page -/

/-- A COR_WAIT store retires at once when its counter meets it, and otherwise waits (R64). -/
theorem corWaitOn_ready (h : s.cpReady d i = true) (v : BitVec 64) :
    s.corWaitOn d i (BitVec.ofNat 32 v.toNat) =
      if waitMet ((s.core d i).cnt.look (bits v 5 0) 0) (BitVec.ofNat 16 (bits v 31 16)) then
        s.withCore d i { s.core d i with corWait := none, waitAge := 0, waitReported := false }
      else s.withCore d i { s.core d i with corWait := some (v.setWidth 32), waitAge := 0, waitReported := false } := by
  have hw : BitVec.ofNat 32 v.toNat = v.setWidth 32 := rfl
  rw [State.corWaitOn, modCore_ready h, hw, recheck_corWait_some rfl, bits_setWidth v (by decide), bits_setWidth v (by decide)]
  split <;> rfl

/-- COR_RPT[j] keeps VALID only for a fabric identifier that a peer segment names (R68). -/
theorem rptWrite_ready (h : s.cpReady d i = true) {j : Nat} (hj : j < 16) (v : BitVec 64) :
    s.rptWrite d i j v = s.withCore d i { s.core d i with
      rpt := (s.core d i).rpt.put j (BitVec.ofNat 64 (bits v 47 0 +
        (if v.getLsbD 63 && s.peerNamed (s.coreCmpt d i) (v.setWidth 16) then 2 ^ 63 else 0))) } := by
  simp only [State.rptWrite, if_pos hj, modCore_ready h, bit, ofNat_bits_low, b2n, mul_ite, mul_one, mul_zero]

/-! ### The obligation -/

/-- Settles O1: each store is its register's own rule on the core that a running kernel finds. -/
theorem coreStoresReachCountersAndQueues : Obligations.CoreStoresReachCountersAndQueues := by
  unfold Obligations.CoreStoresReachCountersAndQueues
  refine ⟨fun s d i hup h => ?page, fun s d i q o l hup h hq hl ho => ?port⟩
  case page =>
    refine ⟨fun k v hk => ?write, fun k v hk => ?post, fun v hm => ?met, fun v hm => ?unmet, fun q v hq hv => ?clear,
      fun j v hj => ?rpt, ?fence⟩
    case write =>
      have run : exec (.corTknWrite d i k v []) s = .next (s.tknWrite d i k (bits v 15 0) []) := cpDo_ready hup h _
      rw [run, State.tknWrite, if_pos hk, List.foldl_nil, ofNat_bits_low, setCounter_core_ready h hk]
    case post =>
      have run : exec (.corTknPost d i k v) s = .next (s.addCounter (.core d i) k (bits v 15 0)) := cpDo_ready hup h _
      rw [run, State.addCounter, ofNat_bits_low, setCounter_core_ready h hk]
      rfl
    case met =>
      have run : exec (.corWait d i v) s = .next (s.corWaitOn d i (BitVec.ofNat 32 v.toNat)) := cpDo_ready hup h _
      rw [run, corWaitOn_ready h, if_pos hm]
    case unmet =>
      have run : exec (.corWait d i v) s = .next (s.corWaitOn d i (BitVec.ofNat 32 v.toNat)) := cpDo_ready hup h _
      rw [run, corWaitOn_ready h, hm, if_neg Bool.false_ne_true]
    case clear =>
      have run : exec (.corQstatClear d i q v) s = .next (s.qstatClear d i q v) := cpDo_ready hup h _
      rw [run, State.qstatClear, bit, hv, modCore_ready h]
      simp [hq]
    case rpt =>
      have run : exec (.corRptWrite d i j v) s = .next (s.rptWrite d i j v) := cpDo_ready hup h _
      rw [run, rptWrite_ready h hj]
    case fence =>
      have run : exec (.fenceI d i) s = .next (s.modCore d i (fun c => { c with icStale := [] })) := cpDo_ready hup h _
      rw [run, modCore_ready h]
  case port =>
    have run : exec (.cmdPortStore d i q o l) s = .next (s.portStore d i q o l) := cpDo_ready hup h _
    rw [run]
    exact ⟨fun hlt => by rw [portStore_short h hq hl hlt], fun heq hroom => by rw [portStore_enters h hq hl heq hroom],
      fun heq hfull => by rw [portStore_waits h hq hl heq hfull]⟩

end Sys2Proof.Machine
end

section
/-! PROOFS. The end of a kernel (R56, R57, R79). -/

namespace Sys2Proof.Machine

variable {s : State} {d i : Nat}

/-- A core whose kernel, on rank `r`, has ended with a code and DETAIL: it has left user mode, and what it had waiting is gone (R56, R79). -/
def Core.ended (c : Core) (r : RankRun) (code : BitVec 16) (detail : BitVec 64) : Core :=
  { c with
    user := false, corWait := none, portWait := none, portRest := none, pload := none, pstore := none, resv := none
    run := some { r with exited := true, code := code, detail := detail } }

theorem endKernel_running (hd : isTileDie d = true) (hi : i < 8) {r : RankRun} (hr : (s.core d i).run = some r) (hx : r.exited = false)
    (code : BitVec 16) (detail : BitVec 64) : s.endKernel d i code detail = s.withCore d i ((s.core d i).ended r code detail) := by
  simp [State.endKernel, modCore_eq hd hi, hr, hx, Core.ended]

theorem trap_run (c : Core) (cause : Nat) (tval : BitVec 64) : (c.trap cause tval).run = c.run := rfl

/-- A trap writes the core's status registers and ends its kernel with CP_TRAP (R56). -/
theorem cpTrap_running (hd : isTileDie d = true) (hi : i < 8) {r : RankRun} (hr : (s.core d i).run = some r) (hx : r.exited = false)
    (cause : Nat) (tval : BitVec 64) :
    s.cpTrap d i cause tval = s.withCore d i (((s.core d i).trap cause tval).ended r 0x1008 (BitVec.ofNat 64 (cause * 2 ^ 56 + bits tval 55 0))) := by
  have hr' : ((s.withCore d i ((s.core d i).trap cause tval)).core d i).run = some r := by rw [core_withCore, trap_run, hr]
  rw [State.cpTrap, modCore_eq hd hi, endKernel_running hd hi hr' hx, core_withCore, withCore_withCore]

theorem exec_kernelExit_ready (hup : s.isUp = true) (h : s.cpReady d i = true) (a7 a0 : BitVec 64) :
    exec (.kernelExit d i a7 a0) s = .next (if a7 = 0x5D then (if a0 = 0 then s.endKernel d i 0 0 else s.endKernel d i 0x100A a0)
      else s.cpTrap d i 8 0) := by
  have heq : exec (.kernelExit d i a7 a0) s = execKernelExit d i a7 a0 s := rfl
  rw [heq, execKernelExit, cpDo_ready hup h]

/-- Settles O2: both ends of a kernel are the same end, a trap with its status registers written first. -/
theorem kernelEndsOnExitOrTrap : Obligations.KernelEndsOnExitOrTrap := by
  unfold Obligations.KernelEndsOnExitOrTrap
  intro s d i r hup hd hi huser hr hx
  refine ⟨fun h a0 => ?exit, fun h a7 a0 h7 => ?ecall, fun cause tval => ?trap⟩
  case exit =>
    rw [exec_kernelExit_ready hup h, if_pos rfl, endKernel_running hd hi hr hx, endKernel_running hd hi hr hx]
    by_cases h0 : a0 = 0
    · rw [if_pos h0, if_pos h0, h0]; rfl
    · rw [if_neg h0, if_neg h0]; rfl
  case ecall =>
    rw [exec_kernelExit_ready hup h, if_neg h7, cpTrap_running hd hi hr hx]
    rfl
  case trap =>
    have run : exec (.cpTrap d i cause tval) s
        = .next (if isTileDie d && decide (i < 8) && (s.core d i).user then s.cpTrap d i cause.toNat tval else s) := upDo_up hup _
    rw [run, hd, huser, decide_eq_true hi, cpTrap_running hd hi hr hx]
    rfl

end Sys2Proof.Machine
end

section
/-! PROOFS. Writes to physical memory: the bytes they store, what they leave alone, and where they show (R171, R177, R449). -/

namespace Sys2Proof.Machine

variable {s : State} {d i : Nat}

/-! ### Bytes written in pieces -/

theorem memPuts_append (l r : List Byte) (m : List Host.Cell) (a : Nat) :
    memPuts m a (l ++ r) = memPuts (memPuts m a l) (a + l.length) r := by
  induction l generalizing m a with
  | nil => rfl
  | cons b t ih => simp only [List.cons_append, memPuts, ih, List.length_cons, Nat.add_assoc, Nat.add_comm 1]

/-! ### One sector -/

theorem wrSec_only_memory (s : State) (a : Nat) (l : List Byte) : ∃ m p, s.wrSec a l = { s with mem := m, poison := p } := by
  unfold State.wrSec
  split
  · exact ⟨_, _, rfl⟩
  · split
    · exact ⟨s.mem, s.poison, rfl⟩
    · exact ⟨_, s.poison, rfl⟩

/-- Writing clears poison and never adds it. -/
theorem secPois_wrSec {a k : Nat} {l : List Byte} (h : s.secPois k = false) : (s.wrSec a l).secPois k = false := by
  simp only [State.secPois, List.contains_eq_mem, decide_eq_false_iff_not] at h ⊢
  unfold State.wrSec
  split
  · simp only [setPois, Bool.false_eq_true, if_false, List.mem_filter]
    exact fun hk => h hk.1
  · split <;> exact h

theorem wrSec_mem_of_clean {a : Nat} (h : s.secPois (a / 32) = false) (l : List Byte) : (s.wrSec a l).mem = memPuts s.mem a l := by
  unfold State.wrSec
  split
  · rfl
  · rw [if_neg (by rw [h]; exact Bool.false_ne_true)]

theorem memGet_wrSec_ne {a b : Nat} {l : List Byte} (hm : memWf s.mem = true) (h : b < a ∨ a + l.length ≤ b) :
    memGet (s.wrSec a l).mem b = memGet s.mem b := by
  unfold State.wrSec
  split
  · exact memGet_memPuts_ne hm h
  · split
    · rfl
    · exact memGet_memPuts_ne hm h

/-! ### Any range -/

theorem wrGo_only_memory (fuel : Nat) (s : State) (a : Nat) (l : List Byte) :
    ∃ m p, State.wrGo fuel s a l = { s with mem := m, poison := p } := by
  induction fuel generalizing s a l with
  | zero => exact ⟨s.mem, s.poison, rfl⟩
  | succ n ih =>
    simp only [State.wrGo]
    split
    · exact ⟨s.mem, s.poison, rfl⟩
    · obtain ⟨m, p, h⟩ := wrSec_only_memory s a (l.take (min l.length (32 - a % 32)))
      obtain ⟨m', p', h'⟩ := ih (s.wrSec a (l.take (min l.length (32 - a % 32)))) (a + min l.length (32 - a % 32)) (l.drop (min l.length (32 - a % 32)))
      exact ⟨m', p', by rw [h', h]⟩

/-- A write changes memory and poison only. -/
theorem wr_only_memory (s : State) (a : Nat) (l : List Byte) : ∃ m p, s.wr a l = { s with mem := m, poison := p } := wrGo_only_memory _ s a l

@[simp] theorem wr_core (s : State) (a : Nat) (l : List Byte) (d i : Nat) : (s.wr a l).core d i = s.core d i := by
  obtain ⟨m, p, h⟩ := wr_only_memory s a l
  rw [h]
  rfl

theorem memGet_wrGo_ne (fuel : Nat) {a b : Nat} {l : List Byte} (hm : memWf s.mem = true) (h : b < a ∨ a + l.length ≤ b) :
    memGet (State.wrGo fuel s a l).mem b = memGet s.mem b := by
  induction fuel generalizing s a l with
  | zero => rfl
  | succ n ih =>
    simp only [State.wrGo]
    split
    · rfl
    · rw [ih (memWf_wrSec hm a _) (by simp only [List.length_drop]; omega), memGet_wrSec_ne hm (by simp only [List.length_take]; omega)]

/-- Bytes outside a written range read as before. -/
theorem sameMemBut_wr (hm : memWf s.mem = true) (a : Nat) (l : List Byte) : SameMemBut s (s.wr a l) a l.length :=
  fun _ hb => memGet_wrGo_ne _ hm hb

/-- A range is clean when the sector of each of its bytes is. -/
theorem secPois_of_pois_eq_false {a n b : Nat} (h : s.pois a n = false) (h1 : a ≤ b) (h2 : b < a + n) : s.secPois (b / 32) = false := by
  have hn : n ≠ 0 := by omega
  simp only [State.pois, sectors, if_neg hn, List.any_map, List.any_eq_false, List.mem_range, Function.comp] at h
  have hlo : a / 32 ≤ b / 32 := Nat.div_le_div_right h1
  have hhi : b / 32 ≤ (a + n - 1) / 32 := Nat.div_le_div_right (by omega)
  have hb := h (b / 32 - a / 32) (by omega)
  rw [Nat.sub_add_cancel hlo] at hb
  exact Bool.eq_false_iff.mpr hb

theorem wrGo_mem_of_clean (fuel : Nat) {a : Nat} {l : List Byte} (hf : l.length < fuel)
    (h : ∀ b, a ≤ b → b < a + l.length → s.secPois (b / 32) = false) : (State.wrGo fuel s a l).mem = memPuts s.mem a l := by
  induction fuel generalizing s a l with
  | zero => omega
  | succ n ih =>
    simp only [State.wrGo, List.isEmpty_iff]
    split
    next h0 => rw [h0]; rfl
    next h0 =>
      have hpos : 0 < l.length := List.length_pos_iff.mpr h0
      generalize hk : min l.length (32 - a % 32) = k
      have hk1 : 1 ≤ k ∧ k ≤ l.length := by omega
      rw [ih (by simp only [List.length_drop]; omega)
        (fun b h1 h2 => secPois_wrSec (h b (by omega) (by simp only [List.length_drop] at h2; omega))),
        wrSec_mem_of_clean (h a (Nat.le_refl a) (by omega))]
      have hlen : (l.take k).length = k := by simp only [List.length_take]; omega
      have happ := memPuts_append (l.take k) (l.drop k) s.mem a
      rw [hlen, List.take_append_drop] at happ
      exact happ.symm

/-- A write that meets no poison stores its bytes. -/
theorem wr_mem_of_clean {a : Nat} {l : List Byte} (h : s.pois a l.length = false) : (s.wr a l).mem = memPuts s.mem a l :=
  wrGo_mem_of_clean _ (Nat.lt_succ_self _) (fun _ => secPois_of_pois_eq_false h)

theorem memGets_wr {a : Nat} {l : List Byte} (hm : memWf s.mem = true) (h : s.pois a l.length = false) :
    memGets (s.wr a l).mem a l.length = l := by
  rw [wr_mem_of_clean h, memGets_memPuts hm]

/-! ### Cores -/

theorem core_modCore (s : State) (d i d' i' : Nat) (f : Core → Core) :
    (s.modCore d i f).core d' i' = if d' = d ∧ i' = i ∧ isTileDie d = true ∧ i < 8 then f (s.core d i) else s.core d' i' := by
  by_cases hi : i < 8
  · by_cases hd : isTileDie d = true
    · simp only [State.modCore, State.modTile, State.core, State.tile, hi, hd, and_true, if_true]
      by_cases h1 : d' = d
      · by_cases h2 : i' = i
        · simp [h1, h2]
        · simp [h1, h2]
      · simp [h1]
    · simp [State.modCore, State.modTile, hd]
  · simp [State.modCore, hi]

theorem modCore_only_tiles (s : State) (d i : Nat) (f : Core → Core) : ∃ x, s.modCore d i f = { s with tiles := x } := by
  unfold State.modCore State.modTile
  split
  · split
    · exact ⟨_, rfl⟩
    · exact ⟨s.tiles, rfl⟩
  · exact ⟨s.tiles, rfl⟩

/-! ### Scratch bytes that a fetch may still see (R449) -/

theorem icMark_only_tiles (s : State) (a n : Nat) : ∃ x, s.icMark a n = { s with tiles := x } := by
  unfold State.icMark
  split
  · exact modCore_only_tiles ..
  · exact ⟨s.tiles, rfl⟩

/-- Of a core, only the scratch bytes that a fetch may still see are marked. -/
theorem core_icMark (s : State) (a n d i : Nat) :
    (s.icMark a n).core d i = { s.core d i with icStale := ((s.icMark a n).core d i).icStale } := by
  unfold State.icMark
  split
  · simp only [core_modCore]
    split
    next h => rw [h.1, h.2.1]
    next => rfl
  · rfl

/-! ### Stores to scratch -/

/-- What a store to scratch or the core store changes (R54, R449). -/
theorem cpPut_only_memory (s : State) (p : Nat) (l : List Byte) : ∃ m k x, s.cpPut p l = { s with mem := m, poison := k, tiles := x } := by
  obtain ⟨x, hx⟩ := icMark_only_tiles s p l.length
  obtain ⟨m, k, hm⟩ := wr_only_memory (s.icMark p l.length) p l
  exact ⟨m, k, x, by rw [State.cpPut, hm, hx]⟩

theorem icMark_mem (s : State) (a n : Nat) : (s.icMark a n).mem = s.mem := by
  obtain ⟨x, hx⟩ := icMark_only_tiles s a n
  rw [hx]

theorem icMark_pois (s : State) (a n b k : Nat) : (s.icMark a n).pois b k = s.pois b k := by
  obtain ⟨x, hx⟩ := icMark_only_tiles s a n
  rw [hx]
  rfl

theorem sameMemBut_cpPut (hm : memWf s.mem = true) (p : Nat) (l : List Byte) : SameMemBut s (s.cpPut p l) p l.length := by
  have hm' : memWf (s.icMark p l.length).mem = true := by rw [icMark_mem, hm]
  intro b hb
  rw [State.cpPut, sameMemBut_wr hm' p l b hb, icMark_mem]

theorem memGets_cpPut {p : Nat} {l : List Byte} (hm : memWf s.mem = true) (h : s.pois p l.length = false) :
    memGets (s.cpPut p l).mem p l.length = l :=
  memGets_wr (by rw [icMark_mem, hm]) (by rw [icMark_pois, h])

/-! ### Where an address of the control processor lies (Table 3.1) -/

theorem cpSpace_scratch {o n : Nat} (hn : 1 ≤ n) (ho : o + n ≤ 0x4_0000) (d i : Nat) :
    cpSpace d i (2 ^ 48 + 0x100_0000 + o) n = .scratch o := by
  have h0 : (2 ^ 48 + 0x100_0000 + o) / 2 ^ 48 = 1 := by omega
  have h1 : ¬ 2 ^ 48 + 0x100_0000 + o - 2 ^ 48 + n ≤ 0x80_0000 := by omega
  have h2 : 0x100_0000 ≤ 2 ^ 48 + 0x100_0000 + o - 2 ^ 48 ∧ 2 ^ 48 + 0x100_0000 + o - 2 ^ 48 + n ≤ 0x104_0000 := by omega
  have h3 : 2 ^ 48 + 0x100_0000 + o - 2 ^ 48 - 0x100_0000 = o := by omega
  simp only [cpSpace, h0, if_neg h1, if_pos h2, h3]
  rfl

/-- The listed ranges end below 2^49. -/
theorem cpSpace_none {a : Nat} (ha : 2 * 2 ^ 48 ≤ a) (d i n : Nat) : cpSpace d i a n = .none := by
  have h0 : a / 2 ^ 48 ≠ 0 := by omega
  have h1 : a / 2 ^ 48 ≠ 1 := by omega
  simp only [cpSpace, if_neg h0, if_pos h1]

theorem scratch_toNat {o n : Nat} (ho : o + n ≤ 0x4_0000) :
    (BitVec.ofNat 64 (2 ^ 48 + 0x100_0000 + o)).toNat = 2 ^ 48 + 0x100_0000 + o := by
  rw [BitVec.toNat_ofNat]
  omega

theorem exec_cpLoad_ready (hup : s.isUp = true) (h : s.cpReady d i = true) (a : BitVec 64) (n rd : Nat) :
    exec (.cpLoad d i a n rd false) s = .next (s.cpLoad d i a.toNat n rd) := by
  have heq : exec (.cpLoad d i a n rd false) s = execCpLoad d i a n rd s := rfl
  rw [heq, execCpLoad, cpDo_ready hup h, if_neg Bool.false_ne_true]

theorem exec_cpStore_ready (hup : s.isUp = true) (h : s.cpReady d i = true) (a : BitVec 64) (l : List Byte) :
    exec (.cpStore d i a l .plain) s = .next (s.cpStore d i a.toNat l) := by
  have heq : exec (.cpStore d i a l .plain) s = execCpStore d i a l s := rfl
  rw [heq, execCpStore, cpDo_ready hup h]

theorem cpLoad_scratch (h : s.cpReady d i = true) {o n : Nat} (hn : 1 ≤ n) (ho : o + n ≤ 0x4_0000) (rd : Nat) :
    s.cpLoad d i (2 ^ 48 + 0x100_0000 + o) n rd
      = s.withCore d i ((s.core d i).load rd n (ofLe (memGets s.mem (scratchBase d i + o) n))) := by
  rw [State.cpLoad, if_neg (by omega : ¬ n = 0), cpSpace_scratch hn ho]
  exact modCore_ready h _

theorem cpStore_scratch {o : Nat} {l : List Byte} (hl : l ≠ []) (ho : o + l.length ≤ 0x4_0000) :
    s.cpStore d i (2 ^ 48 + 0x100_0000 + o) l = s.cpPut (scratchBase d i + o) l := by
  rw [State.cpStore, if_neg (by simp [hl]), cpSpace_scratch (List.length_pos_iff.mpr hl) ho]

/-- Settles O3: a scratch address names its bytes of memory, and no address from 2^49 up is listed. -/
theorem controlProcessorReachesScratch : Obligations.ControlProcessorReachesScratch := by
  unfold Obligations.ControlProcessorReachesScratch
  intro s d i o hup h
  refine ⟨fun n rd hn ho => ?load, fun n hn ho => ?loadZero, fun l hl ho => ?store, fun n rd l a hn ha hl => ⟨?loadFault, ?storeFault⟩⟩
  case load => rw [exec_cpLoad_ready hup h, scratch_toNat ho, cpLoad_scratch h hn ho]
  case loadZero =>
    rw [exec_cpLoad_ready hup h, scratch_toNat ho, cpLoad_scratch h hn ho]
    rfl
  case store =>
    have run := exec_cpStore_ready hup h (BitVec.ofNat 64 (2 ^ 48 + 0x100_0000 + o)) l
    rw [scratch_toNat ho, cpStore_scratch hl ho] at run
    have hcore : (s.cpPut (scratchBase d i + o) l).core d i = (s.icMark (scratchBase d i + o) l.length).core d i := wr_core ..
    obtain ⟨m, p, x, hput⟩ := cpPut_only_memory s (scratchBase d i + o) l
    refine ⟨_, run, ?stale, ?core, ?frame, fun hm => sameMemBut_cpPut hm _ l, fun hm hp => memGets_cpPut hm hp⟩
    case stale => rw [hcore]
    case core => rw [hcore]; exact core_icMark ..
    case frame => rw [hput]
  case loadFault =>
    rw [exec_cpLoad_ready hup h, State.cpLoad, if_neg (by omega : ¬ n = 0), cpSpace_none ha]
  case storeFault =>
    rw [exec_cpStore_ready hup h, State.cpStore, if_neg (by simp [hl]), cpSpace_none ha]

end Sys2Proof.Machine
end

section
/-! PROOFS. Token posts that reach the dispatcher, high-water marks and stall reports (R63, R64, R69, R71). -/

namespace Sys2Proof

/-- An entry of a table of which every entry was changed, where the change keeps the default. -/
theorem Tab.look_each {α : Type} (t : Tab α) (f : Nat → α → α) (k : Nat) {e : α} (h : f k e = e) :
    Tab.look (Tab.each t f) k e = f k (Tab.look t k e) := by
  induction t with
  | nil => exact h.symm
  | cons x t ih =>
    obtain ⟨k', v⟩ := x
    simp only [Tab.each, List.map_cons, Tab.look] at ih ⊢
    split
    next he => rw [he]
    next =>
      split
      · exact h.symm
      · exact ih

namespace Machine

variable {s : State} {d i : Nat}

/-! ### The dispatcher's counters (R63, R64) -/

theorem setCounter_disp {i : Nat} (hi : i < 512) (s : State) (v : BitVec 16) :
    s.setCounter .disp i v = { s with
      dispCnt := s.dispCnt.put i v
      cmpts := s.cmpts.each (fun _ m => { m with sq := m.sq.each (fun _ r => r.latch i (s.dispCnt.look i 0) v) }) } := if_pos hi

/-- A dispatcher counter set, with the waits of every ring's first waiting descriptor. -/
theorem dispSet_setCounter {i : Nat} (hi : i < 512) (s : State) (v : BitVec 16) : s.dispSet (s.setCounter .disp i v) i v := by
  rw [setCounter_disp hi]
  refine ⟨rfl, fun c => ?_⟩
  have hc := Tab.look_each s.cmpts (fun _ m => { m with sq := m.sq.each (fun _ r => r.latch i (s.dispCnt.look i 0) v) }) c (e := ({} : Cmpt)) rfl
  simp only [State.cmpt, hc, true_and]
  exact fun k => Tab.look_each (s.cmpts.look c {}).sq (fun _ r => r.latch i (s.dispCnt.look i 0) v) k (e := ({} : SubRing)) rfl

theorem setCounter_disp_only (s : State) (i : Nat) (v : BitVec 16) :
    s.setCounter .disp i v = { s with dispCnt := (s.setCounter .disp i v).dispCnt, cmpts := (s.setCounter .disp i v).cmpts } := by
  unfold State.setCounter
  split <;> rfl

/-! ### Delivery (R69) -/

/-- A post that no earlier one of its source precedes is applied, and leaves the mesh. -/
theorem deliver_first {n : Nat} {p : PostMsg} (hp : s.posts[n]? = some p) (hf : ∀ q ∈ s.posts.take n, q.src ≠ p.src) :
    s.deliver n = State.applyPost { s with posts := s.posts.eraseIdx n } p := by
  have hany : (s.posts.take n).any (fun q => q.src == p.src && s.postUnit q.cmpt q.word == s.postUnit p.cmpt p.word) = false := by
    rw [List.any_eq_false]
    intro q hq
    simp [hf q hq]
  simp only [State.deliver, hp, hany, if_neg Bool.false_ne_true]

/-- A post without a number to a ready compartment's counter of the dispatcher is added. -/
theorem applyPost_disp {p : PostMsg} (hr : p.rank = none) (hk : pwKind p.word = 2) (hf : s.postFate p.cmpt p.word = 0) :
    s.applyPost p = s.addCounter .disp (pwCounter p.word) (pwInc p.word) := by
  have hu : s.postUnit p.cmpt p.word = some .disp := by simp only [State.postUnit, hk]
  simp only [State.applyPost, hu, hr, hf]
  rfl

theorem pwCounter_lt (w : BitVec 32) : pwCounter w < 512 := Nat.mod_lt _ (by decide)

/-- A post that its sender's mark covers changes the marks alone. -/
theorem applyPost_covered {p : PostMsg} {u : CtrUnit} {r : Nat} {m : Mark} (hr : p.rank = some r) (hu : s.postUnit p.cmpt p.word = some u)
    (hm : s.mark u p.cmpt r = some m) (hl : m.launch = p.launch) (hx : p.idx ≤ m.idx) : s.applyPost p = s.setMark u p.cmpt r m := by
  have hstep : markStep (some m) p.launch p.idx = (false, m) := by simp only [markStep, hl, if_pos hx, if_true]
  simp only [State.applyPost, hu, hr, hm, hstep]
  rfl

theorem mark_setMark (s : State) (u : CtrUnit) (c r : Nat) (m : Mark) : (s.setMark u c r m).mark u c r = some m := by
  have hnone : (s.marks.filter (fun x => !(x.unit == u && x.cmpt == c && x.rank == r))).find?
      (fun x => x.unit == u && x.cmpt == c && x.rank == r) = none := by
    rw [List.find?_eq_none]
    intro x hx hm
    have := (List.mem_filter.mp hx).2
    rw [hm] at this
    cases this
  simp only [State.mark, State.setMark, List.find?_append, hnone, Option.none_or]
  simp

/-! ### CMP_TKN_POST (R67) -/

theorem bar0Write_tknPost {j : Nat} (hj : j < 8) (fn : Nat) (v : BitVec 64) :
    s.bar0Write fn (0x1140 + 8 * j) v = s.addCounter .disp (8 * fn + j) (bits v 15 0) := by
  have h0 : ¬ (0x1140 + 8 * j) % 8 ≠ 0 := by omega
  have h1 : ¬ (0x1000 ≤ 0x1140 + 8 * j ∧ 0x1140 + 8 * j < 0x1080) := by omega
  have h2 : 0x1140 ≤ 0x1140 + 8 * j ∧ 0x1140 + 8 * j < 0x1180 := by omega
  have h3 : (0x1140 + 8 * j - 0x1140) / 8 = j := by omega
  simp only [State.bar0Write, if_neg h0, if_neg h1, if_pos h2, h3]
  simp (disch := omega) only [if_neg]

/-! ### Stall reports (R71) -/

theorem stalled_eq (s : State) (age : Nat) : s.stalled age = true ↔ bits s.stallLimit 19 0 ≠ 0 ∧ bits s.stallLimit 19 0 < age := by
  simp [State.stalled]

/-- The rank whose kernel runs on a core, 0 where none runs. -/
def Core.rankNo (c : Core) : Nat := match c.run with | some r => r.rank | none => 0

/-- The age of a COR_WAIT store is recorded, and reported when it exceeds the limit for the first time. -/
theorem stall_corWait (hd : isTileDie d = true) (hi : i < 8) {w : BitVec 32} (hw : (s.core d i).corWait = some w) (age : Nat) :
    s.stall (.corWait d i) age =
      if s.stalled age && !(s.core d i).waitReported then
        (s.withCore d i { s.core d i with waitAge := age, waitReported := true }).stallReport (s.coreCmpt d i) (s.core d i).rankNo
          ((s.core d i).rankNo * 2 ^ 22 + bits w 5 0) (bits w 31 16)
      else s.withCore d i { s.core d i with waitAge := age } := by
  simp only [State.stall, hw, modCore_eq hd hi]
  split
  next h => simp only [h, Bool.or_true]; rfl
  next h => simp only [Bool.not_eq_true] at h; simp only [h, Bool.or_false]

/-- A changed limit is stored with every wait measured against it. -/
theorem exec_hubTknStallLimitWrite (hup : s.isUp = true) {p : Port} (hp : p = .pf ∨ p = .mgmt) (v : BitVec 64) :
    exec (.hubTknStallLimitWrite p v) s
      = .next (s.waits.foldl (fun t u => t.stall u (t.waitAge u)) { s with stallLimit := BitVec.ofNat 64 (bits v 19 0) }) := by
  have heq : exec (.hubTknStallLimitWrite p v) s = execHubTknStallLimitWrite p v s := rfl
  rw [heq, execHubTknStallLimitWrite, upDo_up hup]
  rcases hp with rfl | rfl <;> rfl

/-! ### The obligation -/

/-- Settles O4: a post is applied at its unit unless its mark covers it, and each wait's age is measured against the limit. -/
theorem tokenPostsApplyOnceAndStallsAreReported : Obligations.TokenPostsApplyOnceAndStallsAreReported := by
  unfold Obligations.TokenPostsApplyOnceAndStallsAreReported
  refine ⟨fun s hup => ⟨fun n p hp hr hk hf hq => ?applied, fun n p u r m hp hr hu hm hl hx hq => ?covered, fun fn j v hfree hj => ?tknPost⟩,
    fun s hup => ⟨fun d i age w hd hi hw hrep hl0 hla => ?reported, fun d i age w hd hi hw hno => ?unreported, ?limit, fun p v hno hp => ?limitAlone,
      fun p v h1 h2 => ?denied⟩⟩
  case applied =>
    have run : exec (.tokenPost n) s = .next (s.deliver n) := upDo_up hup (fun s => s.deliver n)
    rw [deliver_first hp hq, applyPost_disp (s := { s with posts := s.posts.eraseIdx n }) hr hk hf] at run
    exact ⟨_, run, dispSet_setCounter (s := { s with posts := s.posts.eraseIdx n }) (pwCounter_lt _) _, setCounter_disp_only ..⟩
  case covered =>
    have run : exec (.tokenPost n) s = .next (s.deliver n) := upDo_up hup (fun s => s.deliver n)
    rw [deliver_first hp hq, applyPost_covered (s := { s with posts := s.posts.eraseIdx n }) hr hu hm hl hx] at run
    exact ⟨_, run, rfl, mark_setMark ..⟩
  case tknPost =>
    have run : exec (.cmpTknPost fn j v) s = .next (if j < 8 then s.bar0T fn (0x1140 + 8 * j) v else s) := upDo_up hup _
    have hi : 8 * fn + j < 512 := by have := hfree.1; omega
    rw [if_pos hj, bar0T_free hfree, bar0Write_tknPost hj, State.addCounter, ofNat_bits_low] at run
    exact ⟨_, run, dispSet_setCounter hi s _, setCounter_disp_only ..⟩
  case reported =>
    have run : exec (.tokenStall (.corWait d i) age) s = .next (s.stall (.corWait d i) age) := upDo_up hup (fun s => s.stall _ age)
    have hgo : (s.stalled age && !(s.core d i).waitReported) = true := by rw [(stalled_eq s age).mpr ⟨hl0, hla⟩, hrep]; rfl
    rw [run, stall_corWait hd hi hw, if_pos hgo]
    rfl
  case unreported =>
    have run : exec (.tokenStall (.corWait d i) age) s = .next (s.stall (.corWait d i) age) := upDo_up hup (fun s => s.stall _ age)
    have hgo : ¬ (s.stalled age && !(s.core d i).waitReported) = true := by
      rw [Bool.and_eq_true, stalled_eq, Bool.not_eq_true']
      rintro ⟨⟨h0, ha⟩, hr⟩
      rcases hno with h | h | h
      · rw [h] at hr; cases hr
      · exact h0 h
      · omega
    rw [run, stall_corWait hd hi hw, if_neg hgo]
  case limit => exact fun p v hp => exec_hubTknStallLimitWrite hup hp v
  case limitAlone => rw [exec_hubTknStallLimitWrite hup hp v, hno, List.foldl_nil]
  case denied =>
    have heq : exec (.hubTknStallLimitWrite p v) s = execHubTknStallLimitWrite p v s := rfl
    rw [heq, execHubTknStallLimitWrite, upDo_up hup]
    simp [h1, h2]

end Machine
end Sys2Proof
end

section
/-! PROOFS. The ring registers of a function's BAR0: doorbells, BASE and CTRL (R73, R75). -/

namespace Sys2Proof.Machine

variable {s : State} {fn k : Nat} {v : BitVec 64}

theorem modRing_eq (hc : fn < 64) (hk : k < 4) (f : SubRing → SubRing) :
    s.modRing fn k f = s.withCmpt fn { s.cmpt fn with sq := (s.cmpt fn).sq.put k (f ((s.cmpt fn).ring k)) } := by
  rw [State.modRing, if_pos hk, modCmpt_eq hc]

/-! ### The offsets of the ring registers (Table 3.8) -/

theorem bar0Write_sqDoorbell (hk : k < 4) : s.bar0Write fn (0x1018 + 32 * k) v = s.sqDoorbell fn k (bits v 15 0) := by
  have h0 : ¬ (0x1018 + 32 * k) % 8 ≠ 0 := by omega
  have h1 : 0x1000 ≤ 0x1018 + 32 * k ∧ 0x1018 + 32 * k < 0x1080 := by omega
  have h2 : (0x1018 + 32 * k - 0x1000) / 32 = k := by omega
  have h3 : (0x1018 + 32 * k - 0x1000) % 32 = 24 := by omega
  simp only [State.bar0Write, if_neg h0, if_pos h1, h2, h3]

theorem bar0Write_sqRing (hk : k < 4) (c : Bool) : s.bar0Write fn (0x1000 + 32 * k + 8 * b2n c) v = s.ringWrite fn k c v := by
  have hc : b2n c ≤ 1 := by cases c <;> decide
  have h0 : ¬ (0x1000 + 32 * k + 8 * b2n c) % 8 ≠ 0 := by omega
  have h1 : 0x1000 ≤ 0x1000 + 32 * k + 8 * b2n c ∧ 0x1000 + 32 * k + 8 * b2n c < 0x1080 := by omega
  have h2 : (0x1000 + 32 * k + 8 * b2n c - 0x1000) / 32 = k := by omega
  have h3 : (0x1000 + 32 * k + 8 * b2n c - 0x1000) % 32 = 8 * b2n c := by omega
  simp only [State.bar0Write, if_neg h0, if_pos h1, h2, h3]
  cases c <;> rfl

/-! ### The commands on a function that no gate holds back -/

theorem exec_sqDoorbell_free (hup : s.isUp = true) (hfree : s.bar0Free fn) (hact : s.pwr.state = .active) (hk : k < 4) :
    exec (.sqDoorbell fn k v) s = .next (s.sqDoorbell fn k (bits v 15 0)) := by
  have heq : exec (.sqDoorbell fn k v) s = execSqDoorbell fn k v s := rfl
  have hwake : s.wake = s := by simp [State.wake, hact]
  rw [heq, execSqDoorbell, upDo_up hup, if_pos hk, hwake, bar0T_free hfree, bar0Write_sqDoorbell hk]

theorem exec_ringCtrlWrite_free (hup : s.isUp = true) (hfree : s.bar0Free fn) (hk : k < 4) (c : Bool) :
    exec (.ringCtrlWrite fn k c v) s = .next (s.ringWrite fn k c v) := by
  have heq : exec (.ringCtrlWrite fn k c v) s = execRingCtrlWrite fn k c v s := rfl
  rw [heq, execRingCtrlWrite, upDo_up hup, if_pos (by omega : k < 6), if_pos hk, bar0T_free hfree, bar0Write_sqRing hk]

theorem exec_cmpCqHeadDoorbell_free (hup : s.isUp = true) (hfree : s.bar0Free fn) :
    exec (.cmpCqHeadDoorbell fn v) s = .next (s.headDoorbell fn false (bits v 15 0)) := by
  have heq : exec (.cmpCqHeadDoorbell fn v) s = execCmpCqHeadDoorbell fn v s := rfl
  rw [heq, execCmpCqHeadDoorbell, upDo_up hup, bar0T_free hfree]
  rfl

theorem exec_cmpEqHeadDoorbell_free (hup : s.isUp = true) (hfree : s.bar0Free fn) :
    exec (.cmpEqHeadDoorbell fn v) s = .next (s.headDoorbell fn true (bits v 15 0)) := by
  have heq : exec (.cmpEqHeadDoorbell fn v) s = execCmpEqHeadDoorbell fn v s := rfl
  rw [heq, execCmpEqHeadDoorbell, upDo_up hup, bar0T_free hfree]
  rfl

/-! ### Doorbells -/

theorem bits_lt {n : Nat} (x : BitVec n) (hi lo : Nat) : bits x hi lo < 2 ^ (hi + 1 - lo) := Nat.mod_lt _ (Nat.two_pow_pos _)

theorem ringEvent_bits (s : State) (fn code k : Nat) (v : BitVec 64) :
    s.ringEvent fn code k (bits v 15 0) = s.event fn code 0 (BitVec.ofNat 64 (k + 2 ^ 16 * bits v 15 0)) := by
  rw [State.ringEvent, Nat.mod_eq_of_lt (show bits v 15 0 < 65536 from bits_lt v 15 0)]

/-- A function that may not fetch fetches nothing (R75). -/
theorem fetch_of_not_mayFetch (h : s.mayFetch fn = false) : s.fetch fn = s := by
  have hone : s.fetchOne fn = none := by simp [State.fetchOne, h]
  simp only [State.fetch, State.fetchGo, hone]

/-- With nothing held, a release of the completion ring is a fetch. -/
theorem release_of_held_nil (h : (s.cmpt fn).cq.held = []) : s.release fn = s.fetch fn := by
  rw [State.release, h]
  rfl

/-! ### BASE and CTRL -/

/-- ENABLE is bit 8 of CTRL, above LOG2_SIZE. -/
theorem ringOn_ofNat {n : Nat} (hn : n < 32) (b : Bool) : ringOn (BitVec.ofNat 64 (n + 256 * b2n b)) = b := by
  have hdiv : (n + 256 * b2n b) / 2 ^ 8 = b2n b := by omega
  rw [ringOn, bit, BitVec.getLsbD_ofNat, Nat.testBit_eq_decide_div_mod_eq, hdiv]
  cases b <;> rfl

theorem ringWrite_base (hk : k < 4) (hoff : ringOn ((s.cmpt fn).ring k).ctrl = false) :
    s.ringWrite fn k false v = s.modRing fn k (fun r => { r with base := BitVec.ofNat 64 (bits v 63 12 * 4096) }) := by
  have h5 : ¬ 5 < k := by omega
  simp [State.ringWrite, hk, hoff, h5]

/-- While ENABLE is 1, BASE is closed. -/
theorem ringWrite_base_on (hk : k < 4) (hon : ringOn ((s.cmpt fn).ring k).ctrl = true) : s.ringWrite fn k false v = s := by
  simp [State.ringWrite, hk, hon]

/-- While ENABLE is 1, a write of CTRL that leaves it set is closed. -/
theorem ringWrite_ctrl_on (hk : k < 4) (hon : ringOn ((s.cmpt fn).ring k).ctrl = true) (hv : v.getLsbD 8 = true) :
    s.ringWrite fn k true v = s := by
  simp [State.ringWrite, hk, hon, bit, hv]

/-- Setting ENABLE with a size in range zeroes the indices. -/
theorem ringWrite_enable (hk : k < 4) (hoff : ringOn ((s.cmpt fn).ring k).ctrl = false) (hst : s.cstate fn = .ready)
    (hv : v.getLsbD 8 = true) (hlo : 4 ≤ bits v 4 0) (hhi : bits v 4 0 ≤ 16) :
    s.ringWrite fn k true v = s.modRing fn k (fun r => { r with
      ctrl := BitVec.ofNat 64 (bits v 4 0 + 256), head := 0, tail := 0, asked := 0, fetched := [], bad := [], oldLive := 0 }) := by
  have hon : ringOn (BitVec.ofNat 64 (bits v 4 0 + 256)) = true := ringOn_ofNat (bits_lt v 4 0) true
  have h5 : ¬ 5 < k := by omega
  have h4 : k ≠ 4 := by omega
  have hlo' : ¬ bits v 4 0 < 4 := by omega
  have hhi' : ¬ 16 < bits v 4 0 := by omega
  simp [State.ringWrite, hk, hoff, hst, bit, hv, b2n, hon, h5, h4, hlo', hhi']

/-- A size out of range is stored with ENABLE clear and refused with RING_CONFIG. -/
theorem ringWrite_badSize (hk : k < 4) (hoff : ringOn ((s.cmpt fn).ring k).ctrl = false) (hst : s.cstate fn = .ready)
    (hv : v.getLsbD 8 = true) (hbad : bits v 4 0 < 4 ∨ 16 < bits v 4 0) :
    s.ringWrite fn k true v
      = (s.modRing fn k (fun r => { r with ctrl := BitVec.ofNat 64 (bits v 4 0) })).ringEvent fn 0x1007 k (bits v 15 0) := by
  have hon : ringOn (BitVec.ofNat 64 (bits v 4 0)) = false := ringOn_ofNat (bits_lt v 4 0) false
  have h5 : ¬ 5 < k := by omega
  simp [State.ringWrite, hk, hoff, hst, bit, hv, hon, h5, hbad]

/-! ### The obligation -/

/-- Settles O5: each write is its register's rule, in the cases that ENABLE and the value's range make. -/
theorem ringRegistersPublishAndFree : Obligations.RingRegistersPublishAndFree := by
  unfold Obligations.RingRegistersPublishAndFree
  intro s fn v hup hfree hact
  have hfn : fn < 64 := hfree.1
  refine ⟨fun k hk hon hlt hroom => ?tail, fetch_of_not_mayFetch, fun k hk hon hge => ?badTail, fun k hk hoff hst hv hlo hhi => ?enable,
    fun k hk hoff hst hv hbad => ?badSize, fun k hk hoff => ?base, fun k hk hon => ⟨?baseOn, fun hv _ => ?ctrlOn⟩,
    fun hon hlt hused => ?eqHead, fun hon hlt hused hne hheld => ?cqHead, fun hon hge => ?badHead⟩
  case tail =>
    have hok : ¬ (ringSize ((s.cmpt fn).ring k).ctrl ≤ bits v 15 0 ∨ ringSize ((s.cmpt fn).ring k).ctrl - 1 <
      (bits v 15 0 + ringSize ((s.cmpt fn).ring k).ctrl - ((s.cmpt fn).ring k).tail) % ringSize ((s.cmpt fn).ring k).ctrl
        + ringUsed ((s.cmpt fn).ring k).ctrl ((s.cmpt fn).ring k).head ((s.cmpt fn).ring k).tail) := by omega
    rw [exec_sqDoorbell_free hup hfree hact hk, State.sqDoorbell, if_neg (by simp [hk, hon]), if_neg hok, modRing_eq hfn hk]
  case badTail =>
    rw [exec_sqDoorbell_free hup hfree hact hk, State.sqDoorbell, if_neg (by simp [hk, hon]), if_pos (Or.inl hge), ringEvent_bits]
  case enable => rw [exec_ringCtrlWrite_free hup hfree hk, ringWrite_enable hk hoff hst hv hlo hhi, modRing_eq hfn hk]
  case badSize => rw [exec_ringCtrlWrite_free hup hfree hk, ringWrite_badSize hk hoff hst hv hbad, modRing_eq hfn hk, ringEvent_bits]
  case base => rw [exec_ringCtrlWrite_free hup hfree hk, ringWrite_base hk hoff, modRing_eq hfn hk]
  case baseOn => rw [exec_ringCtrlWrite_free hup hfree hk, ringWrite_base_on hk hon]
  case ctrlOn => rw [exec_ringCtrlWrite_free hup hfree hk, ringWrite_ctrl_on hk hon hv]
  case eqHead =>
    have hok : ¬ (ringSize (s.cmpt fn).eq.ctrl ≤ bits v 15 0 ∨ ringUsed (s.cmpt fn).eq.ctrl (s.cmpt fn).eq.head (s.cmpt fn).eq.tail <
      ringUsed (s.cmpt fn).eq.ctrl (s.cmpt fn).eq.head (bits v 15 0)) := by omega
    rw [exec_cmpEqHeadDoorbell_free hup hfree]
    simp [State.headDoorbell, hon, hok, modCmpt_eq hfn]
  case cqHead =>
    have hok : ¬ (ringSize (s.cmpt fn).cq.ctrl ≤ bits v 15 0 ∨ ringUsed (s.cmpt fn).cq.ctrl (s.cmpt fn).cq.head (s.cmpt fn).cq.tail <
      ringUsed (s.cmpt fn).cq.ctrl (s.cmpt fn).cq.head (bits v 15 0)) := by omega
    rw [exec_cmpCqHeadDoorbell_free hup hfree]
    simp only [State.headDoorbell, hon, hok, hne, modCmpt_eq hfn, if_false, Bool.false_eq_true, Bool.not_true]
    rw [release_of_held_nil (by rw [cmpt_withCmpt]; exact hheld)]
  case badHead =>
    rw [exec_cmpCqHeadDoorbell_free hup hfree]
    simp [State.headDoorbell, hon, hge, ringEvent_bits]

end Sys2Proof.Machine
end

section
/-! PROOFS. The dispatcher: enqueue and start of descriptors (R74, R77, R78). -/

namespace Sys2Proof.Machine

variable {s : State} {fn k : Nat}

/-! ### Enqueue -/

/-- A descriptor fetched without poison takes its place behind the ring's others, with what its checks found. -/
theorem enqueue_consumed (hst : s.cstate fn = .ready) (hfn : fn < 64) (hk : k < 4) {i : Nat} {b : BitVec 1024} {r : SubRing}
    (hc : ((s.cmpt fn).ring k).consume = some (i, b, r)) (hbad : r.bad = []) :
    s.enqueue fn k = (State.modRing { s with serial := s.serial + 1 } fn k (fun _ => { r with bad := [], descs := r.descs ++ [{
      bytes := b, index := i, id := s.serial, step := (s.checkDesc fn b).1, code := (s.checkDesc fn b).2
      xlats := if (s.checkDesc fn b).1 = 0 ∧ fn ≠ 0 then (descFields b).map (s.xlatOf fn) else [] }] })).fetch fn := by
  have hgate : ¬ (s.cstate fn != .ready || decide (64 ≤ fn) || decide (4 ≤ k)) = true := by simp [hst]; omega
  simp only [State.enqueue, if_neg hgate, hc, hbad, List.filter_nil]
  rfl

/-- A descriptor refused by its form stops at step 1. -/
theorem checkDesc_malformed {b : BitVec 1024} (h : s.checkForm fn b = 0x1001) : s.checkDesc fn b = (1, 0x1001) := by
  unfold State.checkDesc
  rw [h]
  rfl

/-! ### Start -/

/-- The first waiting descriptor of a ring with none before it starts once its waits hold and no epoch holds its compartment back. -/
theorem startDesc_head (hst : s.cstate fn = .ready) (hfn : fn < 64) (hk : k < 4) {d : Desc} {l : List Desc}
    (hd : ((s.cmpt fn).ring k).descs = d :: l) (hw : d.st = .waiting) (hcopy : s.stalledCopy fn k = none) :
    s.startDesc fn k =
      if !s.descWaits d || s.epochHolds fn then s
      else if d.step ≠ 0 then s.modDesc fn k d.id (fun d => { d with st := .done })
      else if s.stale fn d.xlats then s.modDesc fn k d.id (fun d => { d with st := .done, code := 0x2003 })
      else s.beginDesc fn k d := by
  have hgate : ¬ (s.cstate fn != .ready || decide (64 ≤ fn) || decide (4 ≤ k)) = true := by simp [hst]; omega
  have hpos : findPos (fun d => d.st == .waiting) (d :: l) = some 0 := by simp [findPos, hw]
  simp only [State.startDesc, if_neg hgate, hcopy, hd, hpos, List.getElem?_cons_zero, List.take_zero, List.any_nil, Bool.false_or,
    ne_eq, not_true_eq_false, decide_false, Bool.and_false]

/-- An empty descriptor has no effect and is done. -/
theorem beginDesc_empty {d : Desc} (ht : dtype d.bytes = 3) : s.beginDesc fn k d = s.modDesc fn k d.id (fun d => { d with st := .done }) := by
  simp only [State.beginDesc, ht]

/-- An SSU command enters its stack's queue (R118). -/
theorem beginDesc_ssu {d : Desc} (ht : dtype d.bytes = 4) (hs : s.served (dls d.bytes) = true) (hroom : s.queueRoom (dls d.bytes) fn = true) :
    s.beginDesc fn k d = (s.withStack (dls d.bytes) ((s.stack (dls d.bytes)).setQueue fn k ((s.stack (dls d.bytes)).queue fn k ++
      [{ ring := k, index := d.id, bytes := d.bytes, xlats := d.xlats }]))).modDesc fn k d.id (fun d => { d with st := .running }) := by
  have hl : dls d.bytes < 32 := by
    simp only [State.served, Bool.and_eq_true, decide_eq_true_eq] at hs
    exact hs.1
  simp only [State.beginDesc, ht, hs, hroom, if_true, modStack_eq hl, Bool.not_true, if_neg Bool.false_ne_true]

/-! ### The obligation -/

theorem exec_descriptorStart_up (hup : s.isUp = true) : exec (.descriptorStart fn k) s = .next (s.startDesc fn k) :=
  upDo_up hup (fun s => s.startDesc fn k)

/-- Settles O7: enqueue is the consumed descriptor with its checks, and start is the case of the first waiting one. -/
theorem descriptorsEnqueueAndStartInOrder : Obligations.DescriptorsEnqueueAndStartInOrder := by
  unfold Obligations.DescriptorsEnqueueAndStartInOrder
  intro s fn k hup h1 hfn hk hst
  refine ⟨fun i b r hc hbad => ?enqueue, fun b h => checkDesc_malformed h, fun d l hd hw hcopy hwaits hepoch => ?start,
    fun d l hd hw hcopy hwaits => ?waits⟩
  case enqueue =>
    have run : exec (.descriptorEnqueue fn k) s = .next (s.enqueue fn k) := upDo_up hup (fun s => s.enqueue fn k)
    have h0 : fn ≠ 0 := by omega
    rw [run, enqueue_consumed hst hfn hk hc hbad]
    simp only [ne_eq, h0, not_false_eq_true, and_true]
  case start =>
    have hgo : ¬ (!s.descWaits d || s.epochHolds fn) = true := by rw [hwaits, hepoch]; exact Bool.false_ne_true
    rw [exec_descriptorStart_up hup, startDesc_head hst hfn hk hd hw hcopy, if_neg hgo]
    refine ⟨fun hs => by rw [if_pos hs], fun hs hstale => by rw [if_neg (not_not.mpr hs), if_pos hstale], fun hs hstale ht => ?empty,
      fun hs hstale ht hserved hroom => ?ssu⟩
    case empty => rw [if_neg (not_not.mpr hs), hstale, if_neg Bool.false_ne_true, beginDesc_empty ht]
    case ssu => rw [if_neg (not_not.mpr hs), hstale, if_neg Bool.false_ne_true, beginDesc_ssu ht hserved hroom]
  case waits =>
    have hno : (!s.descWaits d || s.epochHolds fn) = true := by rw [hwaits]; rfl
    rw [exec_descriptorStart_up hup, startDesc_head hst hfn hk hd hw hcopy, if_pos hno]

end Sys2Proof.Machine
end

section
/-! PROOFS. The dispatcher: completion of descriptors and the start and end of ranks (R56, R70, R75, R78, R79, R81). -/

namespace Sys2Proof.Machine

variable {s : State} {fn k : Nat}

/-! ### Completion (R78, R81) -/

theorem sealedDetail_congr {t : State} (h : (t.cmpt fn).plan = (s.cmpt fn).plan) : t.sealedDetail fn = s.sealedDetail fn := by
  simp only [State.sealedDetail, Cmpt.vitrine, Cmpt.role, h]

theorem dropSsu_cmpts (s : State) (fn k id : Nat) : (s.dropSsu fn k id).cmpts = s.cmpts := by
  unfold State.dropSsu
  generalize List.range 32 = ls
  induction ls generalizing s with
  | nil => rfl
  | cons l ls ih =>
    rw [List.foldl_cons, ih]
    split
    · rw [modStack_cmpts]
    · rfl

theorem dropSsu_modRing_plan (hfn : fn < 64) (hk : k < 4) (s : State) (id : Nat) (f : SubRing → SubRing) :
    (((s.modRing fn k f).dropSsu fn k id).cmpt fn).plan = (s.cmpt fn).plan := by
  rw [State.cmpt, dropSsu_cmpts, ← State.cmpt, modRing_eq hfn hk, cmpt_withCmpt]

/-- The descriptor at a ring's head that has ended leaves it; with no post to make, its entry follows unless NO_CQE suppresses it. -/
theorem completeDesc_head (hfn : fn < 64) (hk : k < 4) (hst : s.cstate fn = .ready) (hdel : s.deltasOut fn = false) {d : Desc} {l : List Desc}
    (hd : ((s.cmpt fn).ring k).descs = d :: l) (hdone : d.st = .done) (hid : ∀ e ∈ l, e.id ≠ d.id)
    (hposts : dposts d.bytes = [] ∨ (1 ≤ d.step ∧ d.step ≤ 4)) :
    s.completeDesc fn k d.index =
      (if dnoCqe d.bytes && !isFailure d.code then (s.modRing fn k (fun r => { r with descs := l })).dropSsu fn k d.id
        else ((s.modRing fn k (fun r => { r with descs := l })).dropSsu fn k d.id).complete fn
          { bytes := descEntry k d d.code (if s.sealedDetail fn then 0 else d.detail)
            vector := if dirq d.bytes then some (dvector d.bytes) else none }).fetch fn := by
  have hfind : (d :: l).find? (fun x => x.index == d.index && x.st == .done) = some d := List.find?_cons_of_pos (by simp [hdone])
  have hgate : ¬ (s.cstate fn != .ready || s.deltasOut fn) = true := by simp [hst, hdel]
  have hleft : (d :: l).filter (fun x => !(x.id == d.id && x.st == .done)) = l := by
    rw [List.filter_cons_of_neg (by simp [hdone]), List.filter_eq_self]
    exact fun x hx => by simp [hid x hx]
  have hring : s.modRing fn k (fun r => { r with descs := r.descs.filter (fun x => !(x.id == d.id && x.st == .done)) })
      = s.modRing fn k (fun r => { r with descs := l }) := by
    rw [modRing_eq hfn hk, modRing_eq hfn hk, hd, hleft]
  have hps : (if 1 ≤ d.step ∧ d.step ≤ 4 then [] else dposts d.bytes) = [] := by
    rcases hposts with h | h
    · rw [h, ite_self]
    · rw [if_pos h]
  simp only [State.completeDesc, hd, hfind, if_neg hgate, hring, hps, List.foldl_nil, sealedDetail_congr (dropSsu_modRing_plan hfn hk s d.id _)]

/-! ### The completion ring (R75) -/

theorem ringUsed_succ {c : BitVec 64} {h t : Nat} (hh : h < ringSize c) (ht : t < ringSize c) (hu : ringUsed c h t + 1 < ringSize c) :
    ringUsed c h ((t + 1) % ringSize c) = ringUsed c h t + 1 := by
  unfold ringUsed at hu ⊢
  generalize ringSize c = n at *
  have hadd (x y : Nat) (hy : y < n) (hx : x = y ∨ x = y + n) : x % n = y := by
    rcases hx with rfl | rfl
    · exact Nat.mod_eq_of_lt hy
    · rw [Nat.add_mod_right, Nat.mod_eq_of_lt hy]
  by_cases hle : h ≤ t
  · rw [hadd (t + n - h) (t - h) (by omega) (by omega)] at hu ⊢
    by_cases hw : t + 1 = n
    · rw [hw, Nat.mod_self, hadd (0 + n - h) (t - h + 1) (by omega) (by omega)]
    · rw [Nat.mod_eq_of_lt (by omega : t + 1 < n), hadd (t + 1 + n - h) (t - h + 1) (by omega) (by omega)]
  · rw [hadd (t + n - h) (t + n - h) (by omega) (by omega)] at hu ⊢
    rw [Nat.mod_eq_of_lt (by omega : t + 1 < n), hadd (t + 1 + n - h) (t + n - h + 1) (by omega) (by omega)]

/-- A ring with two free entries has one free after the device has written one. -/
theorem free_advance_ne_zero {r : DevRing} (hfree : 2 ≤ r.free) (hh : r.head < ringSize r.ctrl) (ht : r.tail < ringSize r.ctrl) :
    r.advance.free ≠ 0 := by
  unfold DevRing.free at hfree
  split at hfree
  next hon =>
    have hu := ringUsed_succ hh ht (by omega)
    simp only [DevRing.free, DevRing.advance, if_pos hon, hu]
    omega
  next => omega

/-- An entry without a vector is written at the ring's tail with its phase, while another entry stays free. -/
theorem complete_written (hfn : fn < 64) (hst : s.cstate fn ≠ .fallow) (hheld : (s.cmpt fn).cq.held = []) (hfree : 2 ≤ (s.cmpt fn).cq.free)
    (hh : (s.cmpt fn).cq.head < ringSize (s.cmpt fn).cq.ctrl) (ht : (s.cmpt fn).cq.tail < ringSize (s.cmpt fn).cq.ctrl) {e : CEnt} (he : e.vector = none) :
    s.complete fn e = { s.withCmpt fn { s.cmpt fn with cq := (s.cmpt fn).cq.advance } with
      out := s.out ++ [.ringEntry fn (bits (s.cmpt fn).cq.base 63 12 * 4096 + 32 * (s.cmpt fn).cq.tail)
        (e.bytes ||| BitVec.ofNat 256 (2 ^ 56 * b2n (s.cmpt fn).cq.phase)) (s.tBit fn)] } := by
  have hroom : ¬ ((s.cmpt fn).cq.free = 0 ∨ (s.cmpt fn).cq.held ≠ []) := by
    rintro (h | h)
    · omega
    · exact h hheld
  have hne : ¬ (s.cmpt fn).cq.advance.free = 0 := free_advance_ne_zero hfree hh ht
  have hnext : ∀ o, ((s.emit o).modCmpt fn (fun c => { c with cq := c.cq.advance }))
      = (s.emit o).withCmpt fn { s.cmpt fn with cq := (s.cmpt fn).cq.advance } := fun o => modCmpt_eq hfn _
  simp only [State.complete, if_neg hst, if_neg hroom, State.writeCqe, he, hnext, cmpt_withCmpt, if_neg hne]
  rfl

/-! ### Ranks (R56, R70, R79) -/

theorem opPieces_zero (s : State) (c : Nat) (a : MovAddr) (x : Nat) : s.opPieces c a x 0 = [] := by
  cases a with
  | va v => rfl
  | loc b n o => rfl
  | unplaced => rfl

theorem vaPieces_zero (s : State) (c va : Nat) : s.vaPieces c va 0 = [] := opPieces_zero s c _ 0

/-- Reading no bytes changes nothing. -/
theorem vaRead_zero (s : State) (c va : Nat) : s.vaRead c va 0 = (s, [], []) := by
  rw [State.vaRead, vaPieces_zero]
  rfl

/-- No pieces wait for a rebuild. -/
theorem readWaits_nil (s : State) : s.readWaits [] = false := by simp [State.readWaits, State.meetsSec]

/-- A core on which a rank of a descriptor's launch has started, its registers as the kernel finds them (R56, R70, R79). -/
def Core.started (c : Core) (fn k : Nat) (e : Desc) (r t : Nat) : Core :=
  { kernelRegs e.bytes r t { c with qstat := [], cnt := if dflags e.bytes / 8 % 2 = 1 then [] else c.cnt } with
    run := some { cmpt := fn, ring := k, index := e.id, cls := BitVec.ofNat 3 (dclass e.bytes), rank := r, launch := e.launch } }

theorem core_withCore_tick (s : State) (d i t : Nat) (c : Core) : State.core { s.withCore d i c with tick := t } d i = c :=
  core_withCore (s := { s with tick := t }) d i c

theorem withCore_tick_withCore (s : State) (d i t : Nat) (c e : Core) :
    State.withCore { s.withCore d i c with tick := t } d i e = State.withCore { s with tick := t } d i e :=
  withCore_withCore (s := { s with tick := t }) d i c e

/-- A rank whose kernel and arguments are empty starts on its core with nothing to copy. -/
theorem startRank_empty {d i : Nat} (hd : isTileDie d = true) (hi : i < 8) {e : Desc} {r : Nat} (hrep : e.replay = [])
    (hstale : s.stale fn e.xlats = false) (hkl : dfield e.bytes 40 4 = 0) (hal : dfield e.bytes 56 4 = 0)
    (hkr : s.rangeCode fn (dfield e.bytes 32 8 % 2 ^ 48) 0 false = 0) (har : s.rangeCode fn (dfield e.bytes 48 8 % 2 ^ 48) 0 false = 0)
    (habs : s.absentOf fn [(dfield e.bytes 32 8 % 2 ^ 48, 0, false), (dfield e.bytes 48 8 % 2 ^ 48, 0, false)] = none) :
    s.startRank fn k e r d i =
      (State.modDesc (State.withCore { s with tick := s.tick + kernelDraws } d i ((s.core d i).started fn k e r s.tick)) fn k e.id
        (fun x => { x with left := x.left.filter (· != r), replay := x.replay.filter (· != r), going := x.going ++ [r] })).snapshot d i := by
  have hcode : ¬ (orElse [s.rangeCode fn (dfield e.bytes 32 8 % 2 ^ 48) 0 false, s.rangeCode fn (dfield e.bytes 48 8 % 2 ^ 48) 0 false] != 0) = true := by
    rw [hkr, har]
    decide
  have hwaits : ¬ s.readWaits ([] ++ []) = true := by
    rw [List.append_nil, readWaits_nil]
    exact Bool.false_ne_true
  have hoffer (m : Nat) : s.offer 0 0 m fn false ([] ++ []) = s := rfl
  simp only [State.startRank, hstale, if_neg Bool.false_ne_true, hkl, hal, if_neg hcode, habs, vaPieces_zero, if_neg hwaits, hoffer, modCore_eq hd hi,
    vaRead_zero, if_true, State.writePieces, hrep, List.contains_nil, Bool.not_false, and_true,
    core_withCore_tick, withCore_tick_withCore]
  rfl

theorem modRing_only_cmpts (s : State) (c k : Nat) (f : SubRing → SubRing) : ∃ x, s.modRing c k f = { s with cmpts := x } := by
  unfold State.modRing State.modCmpt
  split
  · split
    · exact ⟨_, rfl⟩
    · exact ⟨s.cmpts, rfl⟩
  · exact ⟨s.cmpts, rfl⟩

theorem modDesc_only_cmpts (s : State) (c k id : Nat) (f : Desc → Desc) : ∃ x, s.modDesc c k id f = { s with cmpts := x } :=
  modRing_only_cmpts s c k _

theorem core_modDesc (s : State) (c k id : Nat) (f : Desc → Desc) (d i : Nat) : (s.modDesc c k id f).core d i = s.core d i := by
  obtain ⟨x, hx⟩ := modDesc_only_cmpts s c k id f
  rw [hx]
  rfl

/-- The first rank of a launch whose core is free starts. -/
theorem rankStart_head (hst : s.cstate fn = .ready) {e : Desc} {l : List Desc} {r d i : Nat} {q : List Nat}
    (hd : ((s.cmpt fn).ring k).descs = e :: l) (hrun : e.st = .running) (hty : dtype e.bytes = 1) (hleft : e.left = r :: q)
    (hcore : s.rankCore fn r = some (d, i)) (hfree : s.coreFree d i = true) :
    s.rankStart fn k e.index = s.startRank fn k e r d i := by
  have hgate : ¬ (s.cstate fn != .ready) = true := by simp [hst]
  have hfind : (e :: l).find? (fun e' => e'.index == e.index && e'.st == .running && dtype e'.bytes == 1 && !e'.left.isEmpty) = some e :=
    List.find?_cons_of_pos (by simp [hrun, hty, hleft])
  simp only [State.rankStart, if_neg hgate, hd, hfind, hleft, List.find?_cons, hcore, hfree]

theorem coreFree_tile {d i : Nat} (h : s.coreFree d i = true) : isTileDie d = true ∧ i < 8 := by
  simp only [State.coreFree, Bool.and_eq_true, decide_eq_true_eq] at h
  exact ⟨h.1.1.1, h.1.1.2⟩

/-- What a started kernel finds in a0 and a1: its place in the launch and the launch's ranks (R79). -/
theorem started_args (c : Core) (fn k : Nat) (e : Desc) (r t : Nat) :
    (c.started fn k e r t).x.look 10 0 = BitVec.ofNat 64 (r - dfield e.bytes 60 2) ∧
    (c.started fn k e r t).x.look 11 0 = BitVec.ofNat 64 (dfield e.bytes 62 2) := by
  constructor <;> simp [Core.started, kernelRegs]

/-- A rank whose kernel has ended and whose queues are empty frees its core (R79). -/
theorem rankFinish_ended {d i : Nat} (hd : isTileDie d = true) (hi : i < 8) {u : RankRun} (hu : (s.core d i).run = some u) (hx : u.exited = true)
    (hport : (s.core d i).portWait = none) (hq : ∀ j, j < 6 → (s.core d i).queue j = []) :
    s.rankFinish d i = State.modDesc (State.withCore { s with snaps := s.snaps.put (8 * d + i) { snap := (s.core d i).cnt, tally := [] } }
        d i { s.core d i with run := none, user := false }) u.cmpt u.ring u.index
        (fun x => x.rankEnd u.rank ((s.core d i).rankCode u) (if u.code != 0 then u.detail else 0) u.sticky) := by
  have hempty : (List.range 6).all (fun q => ((s.core d i).queue q).isEmpty) = true := by
    rw [List.all_eq_true]
    intro j hj
    rw [hq j (List.mem_range.mp hj)]
    rfl
  have hgo : ¬ (!u.exited || (s.core d i).portWait.isSome || !(List.range 6).all (fun q => ((s.core d i).queue q).isEmpty)) = true := by
    rw [hx, hport, hempty]
    exact Bool.false_ne_true
  simp only [State.rankFinish, hu, if_neg hgo, modCore_eq hd hi]
  rfl

theorem rankFinish_running {d i : Nat} {u : RankRun} (hu : (s.core d i).run = some u) (hx : u.exited = false) : s.rankFinish d i = s := by
  simp [State.rankFinish, hu, hx]

/-! ### The obligation -/

theorem exec_rankFinish_up {d i : Nat} (hup : s.isUp = true) (hd : isTileDie d = true) (hi : i < 8) :
    exec (.rankFinish d i) s = .next (s.rankFinish d i) := by
  have heq : exec (.rankFinish d i) s = execRankFinish d i s := rfl
  rw [heq, execRankFinish, upDo_up hup, if_pos ⟨hd, hi⟩]

/-- Settles O8: completion is the case of the ring's head, and a rank is the launch stub's steps with nothing to copy. -/
theorem descriptorsCompleteAndRanksRun : Obligations.DescriptorsCompleteAndRanksRun := by
  unfold Obligations.DescriptorsCompleteAndRanksRun
  refine ⟨?complete, ?ranks⟩
  case complete =>
    rintro s fn k _ d l hup h1 hfn hk hst hdel hd rfl hdone hid hposts
    have run : exec (.descriptorComplete fn k d.index) s = .next (s.completeDesc fn k d.index) := upDo_up hup (fun s => s.completeDesc fn k d.index)
    rw [completeDesc_head hfn hk hst hdel hd hdone hid hposts] at run
    refine ⟨fun hcqe hseal => ?entry, fun hcqe hok => ?noEntry, fun hheld hfree hh ht e he => ?ring⟩
    case entry =>
      have hshow : ¬ (dnoCqe d.bytes && !isFailure d.code) = true := by
        rcases hcqe with h | h <;> simp [h]
      rw [run, if_neg hshow, hseal, if_neg Bool.false_ne_true]
    case noEntry =>
      have hhide : (dnoCqe d.bytes && !isFailure d.code) = true := by rw [hcqe, hok]; rfl
      rw [run, if_pos hhide]
    case ring => exact complete_written hfn (by rw [hst]; decide) hheld hfree hh ht he
  case ranks =>
    rintro s fn k _ e l r d i q hup h1 hfn hk hst hd rfl hrun hty hleft hrep hcore
    refine ⟨fun hfree hstale hkl hal hkr har habs => ?start, fun u ht hi hu hx hport hq => ?finish, fun u ht hi hu hx => ?goesOn⟩
    case start =>
      obtain ⟨ht, hi⟩ := coreFree_tile hfree
      have run : exec (.rankStart fn k e.index) s = .next (s.rankStart fn k e.index) := upDo_up hup (fun s => s.rankStart fn k e.index)
      rw [rankStart_head hst hd hrun hty hleft hcore hfree, startRank_empty ht hi hrep hstale hkl hal hkr har habs] at run
      generalize hu : State.modDesc _ _ _ _ _ = u at run
      have hc : u.core d i = (s.core d i).started fn k e r s.tick := by
        rw [← hu, core_modDesc, core_withCore]
      have honly : u = { s with tiles := u.tiles, tick := u.tick, cmpts := u.cmpts } := by
        obtain ⟨x, hx⟩ := modDesc_only_cmpts _ fn k e.id _
        rw [← hu, hx]
        rfl
      obtain ⟨ha0, ha1⟩ := started_args (s.core d i) fn k e r s.tick
      have hsnap : (u.snapshot d i).core d i = u.core d i := rfl
      refine ⟨_, run, ?_⟩
      beta_reduce
      rw [hsnap, hc]
      refine ⟨rfl, rfl, rfl, rfl, ha0, ha1, rfl, (Tab.look_put_same ..).trans (by rw [hc]), ?_⟩
      rw [State.snapshot, honly]
    case finish => rw [exec_rankFinish_up hup ht hi, rankFinish_ended ht hi hu hx hport hq]
    case goesOn => rw [exec_rankFinish_up hup ht hi, rankFinish_running hu hx]

end Sys2Proof.Machine
end

section
/-! PROOFS. A range of a core's store that no cache holds: a mover's read and write of it are those of plain memory (R62, R168, R178). -/

namespace Sys2Proof

theorem foldl_eq_self {α β : Type} {f : α → β → α} {a : α} {l : List β} (h : ∀ b ∈ l, f a b = a) : l.foldl f a = a := by
  induction l with
  | nil => rfl
  | cons b l ih =>
    rw [List.foldl_cons, h b List.mem_cons_self]
    exact ih (fun c hc => h c (List.mem_cons_of_mem b hc))

namespace Machine

variable {s : State} {d i : Nat}

/-! ### Addresses of a core's store (Table 7.3) -/

/-- The `n` bytes from `a` lie in the store of a core. -/
def StoreRange (a n : Nat) : Prop := ∃ d i x, isTileDie d = true ∧ i < 8 ∧ x + n ≤ 0x80_0000 ∧ a = storeBase d i + x

theorem storeRange_storeBase (hd : isTileDie d = true) (hi : i < 8) {x n : Nat} (hx : x + n ≤ 0x80_0000) : StoreRange (storeBase d i + x) n :=
  ⟨d, i, x, hd, hi, hx, rfl⟩

theorem inStacks_of_le {a b : Nat} (h : 0x0100_0000_0000 ≤ a) (hab : a ≤ b) : inStacks b = false := decide_eq_false (by omega)

theorem inStacks_storeRange {a n : Nat} (h : StoreRange a n) {b : Nat} (hab : a ≤ b) : inStacks b = false := by
  obtain ⟨d, i, x, -, -, -, rfl⟩ := h
  exact inStacks_of_le (by unfold storeBase; omega) hab

/-- Every address of a store fits 64 bits. -/
theorem storeRange_lt {a n : Nat} (h : StoreRange a n) : a < 2 ^ 64 := by
  obtain ⟨d, i, x, hd, hi, hx, rfl⟩ := h
  simp only [isTileDie, Bool.and_eq_true, decide_eq_true_eq] at hd
  unfold storeBase
  omega

/-- No byte of a store is scratch, so none is marked for an instruction fetch. -/
theorem icMark_storeRange {a n : Nat} (h : StoreRange a n) (hn : 1 ≤ n) (s : State) (m : Nat) : s.icMark a m = s := by
  obtain ⟨d, i, x, -, -, hx, rfl⟩ := h
  have hlow : ¬ 0x0080_0000 ≤ (storeBase d i + x) % 0x0100_0000 := by unfold storeBase; omega
  rw [State.icMark, decide_eq_false hlow, Bool.and_false, Bool.false_and, if_neg Bool.false_ne_true]

/-! ### Caches and homes -/

theorem lineIn_mono {a m n ln : Nat} (hmn : m ≤ n) (h : lineIn a n ln = false) : lineIn a m ln = false := by
  simp only [lineIn, Bool.and_eq_false_iff, decide_eq_false_iff_not] at h ⊢
  omega

theorem uncached_mono {a m n : Nat} (hmn : m ≤ n) (h : s.uncached a n) : s.uncached a m :=
  ⟨h.1, fun d u e he => lineIn_mono hmn (h.2.1 d u e he), fun k e he => lineIn_mono hmn (h.2.2 k e he)⟩

theorem cache_modCore (s : State) (d i e u : Nat) (f : Core → Core) : (s.modCore d i f).cache e u = s.cache e u := by
  have htile : ((s.modCore d i f).tile e).cpc = (s.tile e).cpc ∧ ((s.modCore d i f).tile e).rlc = (s.tile e).rlc := by
    unfold State.modCore State.modTile State.tile
    split
    · split
      · by_cases h : e = d
        · simp [h]
        · simp [h]
      · exact ⟨rfl, rfl⟩
    · exact ⟨rfl, rfl⟩
  simp only [State.cache, htile.1, htile.2, modCore_graftCaches, modCore_sc]

theorem home_modCore (s : State) (d i h : Nat) (f : Core → Core) : (s.modCore d i f).home h = s.home h := by
  simp only [State.home, State.stack, modCore_hubHome, modCore_stk]

/-- A core's own state holds no line. -/
theorem uncached_modCore {a n : Nat} (h : s.uncached a n) (d i : Nat) (f : Core → Core) : (s.modCore d i f).uncached a n := by
  obtain ⟨hcoh, hcache, hdir⟩ := h
  exact ⟨by rw [modCore_coh, hcoh], fun e u x hx => hcache e u x (by rwa [cache_modCore] at hx), fun k x hx => hdir k x (by rwa [home_modCore] at hx)⟩

theorem withCoh_self (h : s.coh = []) : { s with coh := [] } = s := by rw [← h]

/-- Nothing of an uncached range has to reach memory first. -/
theorem settle_uncached {a n : Nat} (h : s.uncached a n) (inv : Bool) : s.settle a n inv = s := by
  obtain ⟨hcoh, hcache, hdir⟩ := h
  have hlines (e : Nat) : (unitsOf e).flatMap (fun u => ((s.cache e u).lines.filter (fun x => lineIn a n x.1)).map (·.1)) = [] := by
    rw [List.flatMap_eq_nil_iff]
    intro u _
    rw [List.filter_eq_nil_iff.mpr (fun x hx => by rw [hcache e u x hx]; exact Bool.false_ne_true), List.map_nil]
  have hhome (k : Nat) (g : State → Nat × DirEnt → State) (b : State → Nat × DirEnt → Bool) :
      (s.home k).dir.foldl (fun t x => if lineIn a n x.1 && b t x then g t x else t) s = s :=
    foldl_eq_self (fun x hx => by rw [hdir k x hx, Bool.false_and, if_neg Bool.false_ne_true])
  simp only [State.settle, hcoh, List.foldl_nil, List.map_nil, withCoh_self hcoh]
  rw [List.foldl_fixed' (a := s) (fun e => by rw [hlines, List.dedup_nil, List.foldl_nil])]
  simp only [Bool.and_assoc]
  exact List.foldl_fixed' (a := s) (fun k => hhome k _ _) _

/-! ### Reads -/

theorem readWaits_outside {a n : Nat} (h : inStacks a = false) (s : State) : s.readWaits [(a, n)] = false := by
  simp [State.readWaits, State.meetsSec, h]

theorem readGate_outside {a n : Nat} (h : inStacks a = false) (s : State) (o : Origin) : s.readGate o [(a, n)] = (s, false) := by
  have hnone : [(a, n)].filter (fun p => inStacks p.1 && decide (0 < p.2) && s.isGuarded (paLs p.1) (paOff p.1)) = [] := by
    rw [List.filter_eq_nil_iff]
    simp [h]
  simp only [State.readGate, readWaits_outside h, State.readRebuilt, hnone]
  rfl

/-- No line outside the stacks waits at a regulator. -/
theorem movOffer_outside {a n : Nat} (h : inStacks a = false) (s : State) (o : Origin) (c : Nat) (w : Bool) : s.movOffer o c w [(a, n)] = s := by
  have hnone (m : Nat) : txnsOf m w [(a, n)] = [] := by simp [txnsOf, h]
  cases o <;> simp [State.movOffer, State.offer, hnone]

theorem secPois_of_poison_nil (h : s.poison = []) (k : Nat) : s.secPois k = false := by rw [State.secPois, h]; rfl

/-- Bytes of an uncached range read from memory without poison. -/
theorem readPieces_uncached {a n : Nat} (h : s.uncached a n) (hp : s.poison = []) :
    s.readPieces [(a, n)] = (s, memGets s.mem a n, List.replicate n false) := by
  simp only [State.readPieces, List.foldl_cons, List.foldl_nil, State.ncSettle, settle_uncached h, List.flatMap_cons, List.flatMap_nil, List.append_nil,
    secPois_of_poison_nil hp, List.map_const', List.length_range]
  rfl

theorem getD_replicate_false (n j : Nat) : (List.replicate n false)[j]?.getD false = false := by
  rw [List.getElem?_replicate]
  split <;> rfl

theorem any_replicate_false (n : Nat) : (List.replicate n false).any id = false := by simp

@[simp] theorem length_memGets (m : List Host.Cell) (a n : Nat) : (memGets m a n).length = n := by
  induction n generalizing a with
  | zero => rfl
  | succ n ih => rw [memGets, List.length_cons, ih]

theorem pois_of_poison_nil (h : s.poison = []) (a n : Nat) : s.pois a n = false := by
  rw [State.pois, List.any_eq_false]
  exact fun k _ => by rw [secPois_of_poison_nil h]; exact Bool.false_ne_true

/-! ### Writes -/

theorem ssuSec_outside {a : Nat} (h : inStacks a = false) (s : State) (c : Nat) (l : List Byte) : s.ssuSec c a l = s.wrSec a l := by
  simp only [State.ssuSec, h, if_neg Bool.false_ne_true]

/-- Outside the stacks there is no parity to keep. -/
theorem ssuGo_outside (fuel : Nat) {a : Nat} (h : 0x0100_0000_0000 ≤ a) (s : State) (c : Nat) (l : List Byte) :
    State.ssuGo fuel s c a l = State.wrGo fuel s a l := by
  induction fuel generalizing s a l with
  | zero => rfl
  | succ n ih =>
    have hrest (t : State) (r : List Byte) (m : Nat) : State.ssuGo n t c (a + m) r = State.wrGo n t (a + m) r := ih (by omega) t r
    simp only [State.ssuGo, State.wrGo, ssuSec_outside (inStacks_of_le h (Nat.le_refl a)), hrest]

theorem ssuWrPois_clean {a : Nat} (h : 0x0100_0000_0000 ≤ a) (s : State) (c : Nat) (l : List Byte) {bad : Nat → Bool} (hbad : ∀ j, bad j = false) :
    s.ssuWrPois c a l bad = s.wr a l := by
  have hwr : s.ssuWr c a l = s.wr a l := ssuGo_outside _ h s c l
  have hany (m k : Nat) : (List.range m).any (fun i => bad (k + i)) = false := List.any_eq_false.mpr (fun i _ => by rw [hbad]; exact Bool.false_ne_true)
  simp only [State.ssuWrPois, hwr]
  exact List.foldl_fixed' (fun sec => if_neg (by rw [hany]; exact Bool.false_ne_true)) _

theorem partPois_of_poison_nil (h : s.poison = []) (a n : Nat) : s.partPois a n = false := by
  rw [State.partPois, List.any_eq_false]
  exact fun k _ => by rw [secPois_of_poison_nil h, Bool.false_and]; exact Bool.false_ne_true

/-- Bytes written to an uncached range of a store, from a source without poison, are written to memory and nowhere else. -/
theorem writePieces_store {a n : Nat} (hs : StoreRange a n) (hn : 1 ≤ n) (h : s.uncached a n) (hp : s.poison = []) (c : Nat) (l : List Byte) {bad : List Bool}
    (hbad : ∀ j : Nat, bad[j]?.getD false = false) : s.writePieces c [(a, n)] l bad = (s.wr a (l.take n), false) := by
  have hlow : 0x0100_0000_0000 ≤ a := by
    obtain ⟨d, i, x, -, -, -, rfl⟩ := hs
    unfold storeBase
    omega
  have hlen : (l.take n).length ≤ n := List.length_take_le n l
  have hcoh : (s.wr a (l.take n)).coh = [] := by
    obtain ⟨m, p, hw⟩ := wr_only_memory s a (l.take n)
    rw [hw]
    exact h.1
  have hrefresh (m : Nat) : (s.wr a (l.take n)).refresh a m = s.wr a (l.take n) := by
    rw [State.refresh, hcoh]
    exact withCoh_self hcoh
  simp only [State.writePieces, icMark_storeRange hs hn, State.ncWrite, settle_uncached (uncached_mono hlen h), ssuWrPois_clean hlow s c _ hbad, hrefresh,
    partPois_of_poison_nil hp, Bool.or_false]

end Machine
end Sys2Proof
end

section
/-! PROOFS. The mover: commands that begin, what they change of their queue, and their completion (R59, R60, R62, R65, R85, R87, R88). -/

namespace Sys2Proof.Machine

variable {s t : State} {d i q : Nat} {e : QEntry}

/-! ### The issue of a ready command (R85, R88) -/

theorem readyCmd_tile {op : Nat} (h : s.readyCmd d i q op e) : isTileDie d = true ∧ i < 8 := ⟨h.1, h.2.1⟩

theorem mem_of_oldestWaiting {l : List QEntry} {p : Nat} (h : oldestWaiting l = some (p, e)) : e ∈ l := by
  unfold oldestWaiting at h
  split at h
  next k _ =>
    obtain ⟨x, hx, heq⟩ := Option.map_eq_some_iff.mp h
    cases heq
    exact List.mem_of_getElem? hx
  next => cases h

theorem mem_queue_of_readyCmd {op : Nat} (h : s.readyCmd d i q op e) : e ∈ (s.core d i).queue q := by
  obtain ⟨-, -, -, ⟨p, hp⟩, -⟩ := h
  exact mem_of_oldestWaiting hp

/-- A ready command is the one its unit issues. -/
theorem issue_ready {op : Nat} (h : s.readyCmd d i q op e) (f : State → QEntry → State) : s.issue d i q op f = f s e := by
  obtain ⟨hd, hi, hq, ⟨p, hp⟩, hop, hwait, hseed, -⟩ := h
  have hgo : qop e.word = op ∧ s.cmdWait d i e ∧ (q ≠ 5 ∨ e.started ∨ (s.core d i).movSeed = none) :=
    ⟨hop, hwait, by by_cases h5 : q = 5
                    · exact Or.inr (Or.inr (hseed h5))
                    · exact Or.inl h5⟩
  simp only [State.issue, hd, hi, hq, hp, if_pos hgo, decide_true, Bool.and_self, if_true]

/-- A ready command that is well formed passes every check on its post. -/
theorem checkCmd_ready {op : Nat} (h : s.readyCmd d i q op e) (rest : BitVec 16) : s.checkCmd d i e.word false rest = rest := by
  obtain ⟨-, -, -, -, -, -, -, hpost⟩ := h
  by_cases hen : qpostEn e.word = true
  · obtain ⟨hform, hok, hfab⟩ := hpost hen
    by_cases hk : pwKind (qpost e.word) = 3
    · simp [State.checkCmd, hform, hok, hk, hfab hk]
    · simp [State.checkCmd, hform, hok, hk]
  · simp [State.checkCmd, hen]

/-- A malformed command is refused with DESC_FORMAT. -/
theorem checkCmd_malformed (s : State) (d i : Nat) (w : BitVec 256) (rest : BitVec 16) : s.checkCmd d i w true rest = 0x1001 := by
  simp [State.checkCmd]

/-- An entry once the mover has begun it, with the translations it keeps. -/
def QEntry.begun (e : QEntry) (l : List XLat) : QEntry := { e with started := true, xlats := l }

/-- The state once the mover has begun a command. -/
def State.begun (s : State) (d i id : Nat) (l : List XLat) : State := s.modEntry d i 5 id (fun x => x.begun l)

/-- A ready mover command that has no virtual operand, and whose checks pass, begins. -/
theorem movBegin_ready {op : Nat} (h : s.readyCmd d i 5 op e) (hst : e.started = false) {ops : List MovAddr} {rest clip : BitVec 16}
    (hops : s.movXlats (s.coreCmpt d i) ops = []) (hrest : rest = 0) (hclip : clip = 0) (f : State → State) :
    s.movBegin d i e ops false rest clip f = f (s.begun d i e.id []) := by
  have hcode : ¬ (s.checkCmd d i e.word false (orElse [rest, clip]) != 0) = true := by
    rw [checkCmd_ready h, hrest, hclip]
    decide
  simp only [State.movBegin, hst, if_neg Bool.false_ne_true, State.issueChecked, if_neg hcode, hops]
  rfl

/-- A malformed mover command is refused. -/
theorem movBegin_malformed (hst : e.started = false) (s : State) (d i : Nat) (ops : List MovAddr) (rest clip : BitVec 16) (f : State → State) :
    s.movBegin d i e ops true rest clip f = s.refuse d i 5 e.id 0x1001 := by
  simp only [State.movBegin, hst, if_neg Bool.false_ne_true, State.issueChecked, checkCmd_malformed]
  rfl

/-! ### Queue entries -/

theorem queue_modEntry (hd : isTileDie d = true) (hi : i < 8) (s : State) (q id : Nat) (f : QEntry → QEntry) :
    ((s.modEntry d i q id f).core d i).queue q = ((s.core d i).queue q).map (fun e => if e.id = id then f e else e) := by
  rw [State.modEntry, modCore_eq hd hi, core_withCore, Core.queue, Core.setQueue, Tab.look_put_same]

theorem mem_queue_modEntry (hd : isTileDie d = true) (hi : i < 8) (h : e ∈ (s.core d i).queue q) (f : QEntry → QEntry) :
    f e ∈ ((s.modEntry d i q e.id f).core d i).queue q := by
  rw [queue_modEntry hd hi]
  exact List.mem_map.mpr ⟨e, h, if_pos rfl⟩

/-- A command whose entry its unit ends is done with the code that is recorded. -/
theorem doneAs_modEntry (hd : isTileDie d = true) (hi : i < 8) (h : e ∈ (t.core d i).queue q) {f : QEntry → QEntry} {code : BitVec 16}
    (hid : (f e).id = e.id) (hst : (f e).st = .done) (hcode : (f e).code = code) : (t.modEntry d i q e.id f).doneAs d i q e.id code :=
  ⟨f e, mem_queue_modEntry hd hi h f, hid, hst, hcode⟩

/-- The end of a mover command that has performed all of its chunks and awaits nothing. -/
theorem doneAs_entryAfter (hd : isTileDie d = true) (hi : i < 8) (h : e ∈ (t.core d i).queue q) (hcode : e.code = 0) (hpend : e.pend = 0) (n : Nat) (st : Sticky) :
    (t.entryAfter d i q e.id n n 0 0 st).doneAs d i q e.id 0 := by
  refine doneAs_modEntry hd hi h ?_ ?_ ?_ <;> simp [hpend, hcode, firstCode]

theorem doneAs_finish (hd : isTileDie d = true) (hi : i < 8) (h : e ∈ (t.core d i).queue q) (hcode : e.code = 0) (st : Sticky) :
    (t.finish d i q e.id 0 st).doneAs d i q e.id 0 := by
  refine doneAs_modEntry hd hi h rfl rfl ?_
  simp [hcode, firstCode]

/-! ### What a command in the core store changes -/

theorem storeOnly_self (s : State) (d i y n : Nat) : s.storeOnly s d i y n := ⟨rfl, fun _ _ _ => rfl, fun _ _ => rfl⟩

theorem storeOnly_modCore {y n : Nat} (h : s.storeOnly t d i y n) (f : Core → Core) : s.storeOnly (t.modCore d i f) d i y n := by
  obtain ⟨honly, hcores, hmem⟩ := h
  refine ⟨?_, fun d' i' hne => ?_, fun b hb => ?_⟩
  · obtain ⟨x, hx⟩ := modCore_only_tiles t d i f
    rw [hx, honly]
  · rw [core_modCore, if_neg (fun h => hne (by rw [h.1, h.2.1])), hcores d' i' hne]
  · rw [modCore_mem, hmem b hb]

theorem storeOnly_wr {y n : Nat} {l : List Byte} (h : s.storeOnly t d i y n) (hm : memWf t.mem = true) (hl : l.length ≤ n) :
    s.storeOnly (t.wr (storeBase d i + y) l) d i y n := by
  obtain ⟨honly, hcores, hmem⟩ := h
  refine ⟨?_, fun d' i' hne => ?_, fun b hb => ?_⟩
  · obtain ⟨m, p, hw⟩ := wr_only_memory t (storeBase d i + y) l
    rw [hw, honly]
  · rw [wr_core, hcores d' i' hne]
  · rw [sameMemBut_wr hm _ l b (by omega), hmem b hb]

/-! ### A command just begun -/

section
variable (s : State) (d i id : Nat) (l : List XLat)

theorem begun_mem : (s.begun d i id l).mem = s.mem := modCore_mem ..

theorem begun_poison : (s.begun d i id l).poison = s.poison := modCore_poison ..

theorem storeOnly_begun (y n : Nat) : s.storeOnly (s.begun d i id l) d i y n := by
  rw [State.begun, State.modEntry]
  exact storeOnly_modCore (storeOnly_self s d i y n) _

end

theorem uncached_begun {a n : Nat} (h : s.uncached a n) (d i id : Nat) (l : List XLat) : (s.begun d i id l).uncached a n := uncached_modCore h d i _

/-- A ready command that has begun still stands in the mover's queue. -/
theorem begun_mem_queue {op : Nat} (h : s.readyCmd d i 5 op e) (l : List XLat) : e.begun l ∈ ((s.begun d i e.id l).core d i).queue 5 := by
  obtain ⟨hd, hi⟩ := readyCmd_tile h
  exact mem_queue_modEntry hd hi (mem_queue_of_readyCmd h) _

end Sys2Proof.Machine
end

section
/-! PROOFS. The mover's commands between places of a core's store, and the end of a queue's oldest command (R59, R60, R62, R65, R87). -/

namespace Sys2Proof.Machine

variable {s : State} {d i : Nat} {e : QEntry}

/-! ### Fields of the mover's words (Tables 3.5, 3.5a) -/

theorem bits_ofNat {n : Nat} (hn : n < 2 ^ 64) (hi lo : Nat) : bits (BitVec.ofNat 64 n) hi lo = n / 2 ^ lo % 2 ^ (hi + 1 - lo) := by
  rw [bits, BitVec.toNat_ofNat, Nat.mod_eq_of_lt hn, Nat.shiftRight_eq_div_pow]

/-- The fields above bit 31 of a word are zero when its upper half is. -/
theorem bits_of_upper_zero {w : BitVec 64} (h : bits w 63 32 = 0) {hi lo : Nat} (hlo : 32 ≤ lo) : bits w hi lo = 0 := by
  have hlt : w.toNat < 2 ^ 32 := by
    have := w.isLt
    simp only [bits, Nat.shiftRight_eq_div_pow] at h
    omega
  rw [bits, Nat.shiftRight_eq_div_pow, Nat.div_eq_of_lt (Nat.lt_of_lt_of_le hlt (Nat.pow_le_pow_right (by decide) hlo)), Nat.zero_mod]

/-- SPACE 1 with an offset names a place in the core's own store. -/
theorem movAddr_store {w : BitVec 64} {x : Nat} (hw : w = BitVec.ofNat 64 (2 ^ 62 + x)) (hx : x < 2 ^ 48) (s : State) (d i c : Nat) :
    s.movAddr d i c w = (0, .loc (storeBase d i) 0x80_0000 x) := by
  have hn : 2 ^ 62 + x < 2 ^ 64 := by omega
  have h1 : bits w 63 62 = 1 := by rw [hw, bits_ofNat hn]; omega
  have h2 : bits w 61 54 = 0 := by rw [hw, bits_ofNat hn]; omega
  have h3 : bits w 53 48 = 0 := by rw [hw, bits_ofNat hn]; omega
  have h4 : bits w 47 0 = x := by rw [hw, bits_ofNat hn]; omega
  simp only [State.movAddr, h1, h2, h3, h4]
  rfl

/-! ### Operands in a core's store -/

section
variable (s : State) (c b size o : Nat)

@[simp] theorem opAbsent_loc (x n : Nat) : s.opAbsent c (.loc b size o) x n = none := rfl

@[simp] theorem opPeer_loc : s.opPeer c (.loc b size o) = none := rfl

@[simp] theorem isRed_loc : s.isRed c (.loc b size o) = false := rfl

@[simp] theorem movXlat_loc (need : Nat → Bool) (n : Nat) : s.movXlat c (.loc b size o) need n = 0 := rfl

@[simp] theorem movClip_loc (n : Nat) (w red : Bool) : s.movClip c (.loc b size o) n w red = 0 := rfl

theorem opPieces_loc {n : Nat} (hn : 1 ≤ n) : s.opPieces c (.loc b size o) 0 n = [(b + o, n)] := if_neg (by omega)

end

theorem movLen_loc {b size x n : Nat} (h : x + n ≤ size) (s : State) (c : Nat) : s.movLen c (.loc b size x) n = 0 := if_pos h

/-- A range of `n` bytes is one chunk while it is no longer than 4 KiB. -/
theorem cut4k_one {n : Nat} (h1 : 1 ≤ n) (hn : n ≤ 4096) : cut4k (n / 4096 + 1) 0 n = [(0, n)] := by
  have h0 : n ≠ 0 := by omega
  have hmin : min n 4096 = n := Nat.min_eq_left hn
  cases hf : n / 4096 with
  | zero => simp only [cut4k, if_neg h0, hmin]
  | succ m => simp only [cut4k, if_neg h0, hmin, Nat.sub_self, if_true]

/-! ### MOV_COPY and MOV_COPY2D -/

/-- Ranges that do not meet leave no byte of a copy open (log 18). -/
theorem overlapFree_disjoint {a b n : Nat} (hb : b < 2 ^ 64) (h : a + n ≤ b ∨ b + n ≤ a) (s : State) (l : List Byte) :
    s.overlapFree [(a, n)] [(b, n)] l = (s, l) := by
  have hlo : min (2 ^ 64) b = b := Nat.min_eq_right (by omega)
  simp only [State.overlapFree, List.foldl_cons, List.foldl_nil, List.any_cons, List.any_nil, hlo, Nat.zero_max, Bool.or_false]
  rw [if_neg]
  simp only [Bool.and_eq_true, decide_eq_true_eq]
  omega

/-- One chunk copied between places of stores that no cache holds. -/
theorem copyChunk_store {b b' x y n : Nat} (hs : StoreRange (b + x) n) (hd : StoreRange (b' + y) n) (hn : 1 ≤ n)
    (hdis : b + x + n ≤ b' + y ∨ b' + y + n ≤ b + x) (hus : s.uncached (b + x) n) (hud : s.uncached (b' + y) n) (hp : s.poison = [])
    (die c : Nat) (o : Origin) (size hint : Nat) :
    (s.copyChunk die c o (.loc b size x) (.loc b' size y) [(b' + y, n)] hint (0, 0, n)).1 = some (s.wr (b' + y) (memGets s.mem (b + x) n), false, 0) := by
  have hfar {a m : Nat} (h : StoreRange a m) : inStacks a = false := inStacks_storeRange h (Nat.le_refl a)
  have hlen : (memGets s.mem (b + x) n).take n = memGets s.mem (b + x) n := List.take_of_length_le (by rw [length_memGets])
  have hne : ([(b + x, n)] == [(b' + y, n)]) = false := by
    rw [beq_eq_false_iff_ne]
    simp only [ne_eq, List.cons.injEq, Prod.mk.injEq]
    omega
  unfold State.copyChunk
  simp only [opAbsent_loc, opPeer_loc, opPieces_loc _ _ _ _ _ hn, readGate_outside (hfar hs), if_neg Bool.false_ne_true, movOffer_outside (hfar hs),
    movOffer_outside (hfar hd), readPieces_uncached hus hp, hne, overlapFree_disjoint (storeRange_lt hd) hdis,
    writePieces_store hd hn hud hp c _ (getD_replicate_false n), hlen, List.foldl_cons, List.foldl_nil, hfar hd, any_replicate_false, Bool.or_false]

/-- A row of at most 4 KiB is copied as one chunk. -/
theorem chunksOf_one {n : Nat} (h1 : 1 ≤ n) (hn : n ≤ 4096) (ss ds : Nat) : chunksOf 1 n ss ds = [(0, 0, n)] := by
  rw [chunksOf, cut4k_one h1 hn]
  simp

/-- A copy of no bytes has no chunk. -/
theorem chunksOf_zero {rows n : Nat} (h : rows = 0 ∨ n = 0) (ss ds : Nat) : chunksOf rows n ss ds = [] := by
  rcases h with rfl | rfl <;> simp [chunksOf, cut4k]

/-- A copy of one chunk between places of stores that no cache holds. -/
theorem copyFrom_store {b b' x y n : Nat} (hs : StoreRange (b + x) n) (hd : StoreRange (b' + y) n) (hn : 1 ≤ n)
    (hdis : b + x + n ≤ b' + y ∨ b' + y + n ≤ b + x) (hus : s.uncached (b + x) n) (hud : s.uncached (b' + y) n) (hp : s.poison = [])
    (die c : Nat) (o : Origin) (size hint : Nat) :
    s.copyFrom die c o (.loc b size x) (.loc b' size y) [(0, 0, n)] 0 hint = { st := s.wr (b' + y) (memGets s.mem (b + x) n), done := 1 } := by
  have hone := copyChunk_store hs hd hn hdis hus hud hp die c o size hint
  have hall : [(0, 0, n)].flatMap (fun ch : Nat × Nat × Nat => s.opPieces c (.loc b' size y) ch.2.1 ch.2.2) = [(b' + y, n)] := by
    rw [List.flatMap_singleton, opPieces_loc _ _ _ _ _ hn]
  rw [State.copyFrom, hall, List.drop_zero, copyChunks]
  split
  next heq =>
    rw [heq] at hone
    cases hone
    rfl
  next heq =>
    rw [heq] at hone
    cases hone

end Sys2Proof.Machine
end

section
/-! PROOFS. The mover's commands between places of a core's store (R62). -/

namespace Sys2Proof.Machine

variable {s : State} {d i op x y n : Nat} {e : QEntry}

/-! ### The end of a command that stores once -/

/-- A command of the mover begun, its bytes stored once in its core's store, and its entry done. -/
def State.storedOnce (s : State) (d i id y : Nat) (l : List Byte) : State :=
  ((s.begun d i id []).wr (storeBase d i + y) l).entryAfter d i 5 id 1 1 0 0 0

section
variable (hready : s.readyCmd d i 5 op e) (hcode : e.code = 0) (hpend : e.pend = 0)
include hready hcode hpend

/-- The entry of a command that the mover has begun and that awaits nothing is done once its chunks are. -/
theorem doneAs_begun {t : State} (ht : t.core d i = (s.begun d i e.id []).core d i) (m : Nat) : (t.entryAfter d i 5 e.id m m 0 0 0).doneAs d i 5 e.id 0 := by
  obtain ⟨hd, hi⟩ := readyCmd_tile hready
  have hmem : e.begun [] ∈ (t.core d i).queue 5 := by
    rw [ht]
    exact begun_mem_queue hready []
  exact doneAs_entryAfter hd hi hmem hcode hpend m 0

theorem storedOnce_spec (hp : s.poison = []) (hm : memWf s.mem = true) {l : List Byte} (hl : l.length = n) :
    memGets (s.storedOnce d i e.id y l).mem (storeBase d i + y) n = l ∧ s.storeOnly (s.storedOnce d i e.id y l) d i y n ∧
      (s.storedOnce d i e.id y l).doneAs d i 5 e.id 0 := by
  have hpois : (s.begun d i e.id []).poison = [] := (begun_poison ..).trans hp
  have hmem : memWf (s.begun d i e.id []).mem = true := by rw [begun_mem, hm]
  refine ⟨?_, ?_, doneAs_begun hready hcode hpend (wr_core ..) 1⟩
  · rw [State.storedOnce, State.entryAfter, State.modEntry, modCore_mem, ← hl]
    exact memGets_wr hmem (pois_of_poison_nil hpois _ _)
  · rw [State.storedOnce, State.entryAfter, State.modEntry]
    exact storeOnly_modCore (storeOnly_wr (storeOnly_begun ..) hmem (Nat.le_of_eq hl)) _

/-- A command of no bytes changes only its own entry. -/
theorem begun_entryAfter_spec :
    ((s.begun d i e.id []).entryAfter d i 5 e.id 0 0 0 0 0) = { s with tiles := ((s.begun d i e.id []).entryAfter d i 5 e.id 0 0 0 0 0).tiles } ∧
      ((s.begun d i e.id []).entryAfter d i 5 e.id 0 0 0 0 0).doneAs d i 5 e.id 0 := by
  refine ⟨?_, doneAs_begun hready hcode hpend rfl 0⟩
  obtain ⟨v, hv⟩ := modCore_only_tiles s d i (fun c => c.setQueue 5 ((c.queue 5).map (fun x => if x.id = e.id then x.begun [] else x)))
  rw [State.begun, State.modEntry, hv, State.entryAfter, State.modEntry]
  obtain ⟨w, hw⟩ := modCore_only_tiles { s with tiles := v } d i _
  rw [hw]

end

/-! ### MOV_COPY and MOV_COPY2D -/

/-- The bytes that a copy of rows covers on one side. -/
def rowsLen (rows rowBytes stride : Nat) : Nat := if rows ≠ 0 ∧ rowBytes ≠ 0 then (rows - 1) * stride + rowBytes else 0

/-- Chunks copied from offset `x` to offset `y` of a core's store for its mover's command `id`, of compartment `c`. -/
def State.copyRows (s : State) (d i c id x y : Nat) (chunks : List (Nat × Nat × Nat)) : State :=
  let k := s.copyFrom d c (.queue d i 5 id) (.loc (storeBase d i) 0x80_0000 x) (.loc (storeBase d i) 0x80_0000 y) chunks 0 0
  k.st.entryAfter d i 5 id k.done chunks.length k.ops (if k.pois then 0x3001 else 0) 0

/-- A copy of rows between places of a core's store passes its checks and copies its chunks. -/
theorem movRows_store (h : s.readyCmd d i 5 op e) (hst : e.started = false) (hprog : e.prog = 0)
    (h1 : qw e.word 1 = BitVec.ofNat 64 (2 ^ 62 + x)) (h2 : qw e.word 2 = BitVec.ofNat 64 (2 ^ 62 + y)) {rows rowBytes ss ds : Nat}
    (hx : x + rowsLen rows rowBytes ss ≤ 0x80_0000) (hy : y + rowsLen rows rowBytes ds ≤ 0x80_0000) (red : Bool) :
    s.movRows d i e rows rowBytes ss ds 0 false red = (s.begun d i e.id []).copyRows d i (s.coreCmpt d i) e.id x y (chunksOf rows rowBytes ss ds) := by
  have hcodes : orElse [0, 0, 0, s.movLen (s.coreCmpt d i) (.loc (storeBase d i) 0x80_0000 x) (rowsLen rows rowBytes ss),
      s.movLen (s.coreCmpt d i) (.loc (storeBase d i) 0x80_0000 y) (rowsLen rows rowBytes ds)] = 0 := by
    rw [movLen_loc hx, movLen_loc hy]
    rfl
  have hbegin := movBegin_ready h hst (ops := [.loc (storeBase d i) 0x80_0000 x, .loc (storeBase d i) 0x80_0000 y]) rfl hcodes (clip := 0) rfl
    (fun t => t.copyRows d i (s.coreCmpt d i) e.id x y (chunksOf rows rowBytes ss ds))
  unfold State.movRows
  simp only [movAddr_store h1 (by omega), movAddr_store h2 (by omega), opPeer_loc, isRed_loc, movXlat_loc, movClip_loc, hprog, Bool.and_false, Bool.false_and,
    if_neg Bool.false_ne_true]
  exact hbegin

/-- No bytes are copied by no chunks. -/
theorem copyRows_nil (s : State) (d i c id x y : Nat) : s.copyRows d i c id x y [] = s.entryAfter d i 5 id 0 0 0 0 0 := rfl

section
variable (hd : isTileDie d = true) (hi : i < 8) (hp : s.poison = []) (hn : 1 ≤ n) (hx : x + n ≤ 0x80_0000) (hy : y + n ≤ 0x80_0000)
  (hdis : x + n ≤ y ∨ y + n ≤ x) (hus : s.uncached (storeBase d i + x) n) (hud : s.uncached (storeBase d i + y) n)
include hd hi hp hn hx hy hdis hus hud

/-- One chunk is copied from one place of a core's store to another, and the command is done. -/
theorem begun_copyRows_one (c id : Nat) :
    (s.begun d i id []).copyRows d i c id x y [(0, 0, n)] = s.storedOnce d i id y (memGets s.mem (storeBase d i + x) n) := by
  have hpois : (s.begun d i id []).poison = [] := (begun_poison ..).trans hp
  have hcopy := copyFrom_store (storeRange_storeBase hd hi hx) (storeRange_storeBase hd hi hy) hn (by omega) (uncached_begun hus d i id [])
    (uncached_begun hud d i id []) hpois d c (.queue d i 5 id) 0x80_0000 0
  rw [State.copyRows, hcopy, begun_mem]
  rfl

end

/-- MOV_COPY of LEN bytes with no hint. -/
theorem exec_movCopy_ready (hup : s.isUp = true) (h : s.readyCmd d i 5 0xC0 e) (hn : n < 2 ^ 40) (h3 : qw e.word 3 = BitVec.ofNat 64 n) :
    exec (.movCopy d i) s = .next (s.movRows d i e 1 n 0 0 0 false true) := by
  have hlen : bits (BitVec.ofNat 64 n) 39 0 = n := by rw [bits_ofNat (by omega)]; omega
  have hhint : bits (BitVec.ofNat 64 n) 43 40 = 0 := by rw [bits_ofNat (by omega)]; omega
  have hrest : bits (BitVec.ofNat 64 n) 63 44 = 0 := by rw [bits_ofNat (by omega)]; omega
  have heq : exec (.movCopy d i) s = execMovCopy d i s := rfl
  rw [heq, execMovCopy, upDo_up hup, issue_ready h]
  simp only [h3, hlen, hhint, hrest, bne_self_eq_false]

/-- MOV_COPY2D of the rows and pitches of its word 3. -/
theorem exec_movCopy2d_ready (hup : s.isUp = true) (h : s.readyCmd d i 5 0xC1 e) :
    exec (.movCopy2d d i) s = .next (s.movRows d i e (bits (qw e.word 3) 15 0) (bits (qw e.word 3) 35 16) (64 * bits (qw e.word 3) 49 36)
      (64 * bits (qw e.word 3) 63 50) 0 false false) := by
  have heq : exec (.movCopy2d d i) s = execMovCopy2d d i s := rfl
  rw [heq, execMovCopy2d, upDo_up hup, issue_ready h]

/-- One row without pitches in word 3 of MOV_COPY2D (Table 3.5). -/
theorem bits_one_row (hn : n < 2 ^ 20) :
    bits (BitVec.ofNat 64 (1 + 2 ^ 16 * n)) 15 0 = 1 ∧ bits (BitVec.ofNat 64 (1 + 2 ^ 16 * n)) 35 16 = n ∧
      bits (BitVec.ofNat 64 (1 + 2 ^ 16 * n)) 49 36 = 0 ∧ bits (BitVec.ofNat 64 (1 + 2 ^ 16 * n)) 63 50 = 0 := by
  have hlt : 1 + 2 ^ 16 * n < 2 ^ 64 := by omega
  simp only [bits_ofNat hlt]
  omega

theorem rowsLen_one (hn : 1 ≤ n) (stride : Nat) : rowsLen 1 n stride = n := by
  have h0 : n ≠ 0 := by omega
  simp [rowsLen, h0]

theorem rowsLen_zero {rows : Nat} (h : rows = 0 ∨ n = 0) (stride : Nat) : rowsLen rows n stride = 0 :=
  if_neg (fun ⟨hr, hn⟩ => h.elim hr hn)

end Sys2Proof.Machine
end

section
/-! PROOFS. Fills and conversions in a core's store (R39, R62). -/

namespace Sys2Proof.Machine

variable {s : State} {d i x y n : Nat} {e : QEntry}

/-! ### MOV_FILL -/

/-- The bytes of a fill: its pattern from the first byte on. -/
def fillBytes (pat : BitVec 64) (n : Nat) : List Byte := (List.range n).map (fun j => (bvBytes pat)[j % 8]?.getD 0)

theorem length_fillBytes (pat : BitVec 64) (n : Nat) : (fillBytes pat n).length = n := by simp [fillBytes]

/-- A fill of one chunk in a store that no cache holds. -/
theorem fillChunks_store {b y : Nat} (hd : StoreRange (b + y) n) (hn : 1 ≤ n) (hud : s.uncached (b + y) n) (hp : s.poison = [])
    (die c : Nat) (o : Origin) (pat : BitVec 64) (size : Nat) :
    fillChunks die c o pat (.loc b size y) [(0, n)] { st := s } = { st := s.wr (b + y) (fillBytes pat n), done := 1 } := by
  have hlen : (fillBytes pat n).take n = fillBytes pat n := List.take_of_length_le (Nat.le_of_eq (length_fillBytes pat n))
  have hbytes : (List.range n).map (fun j => (bvBytes pat)[(0 + j) % 8]?.getD 0) = fillBytes pat n := by simp only [Nat.zero_add, fillBytes]
  have hwrite := writePieces_store hd hn hud hp c (fillBytes pat n) (bad := []) (fun _ => rfl)
  simp only [fillChunks, opAbsent_loc, opPieces_loc _ _ _ _ _ hn, movOffer_outside (inStacks_storeRange hd (Nat.le_refl _)), hbytes, hwrite, hlen]
  rfl

/-- MOV_FILL of LEN bytes in a core's store. -/
theorem exec_movFill_ready (hup : s.isUp = true) (hp : s.poison = []) (h : s.readyCmd d i 5 0xC3 e) (hst : e.started = false) (hprog : e.prog = 0)
    (hn : 1 ≤ n) (hn4 : n ≤ 4096) (hy : y + n ≤ 0x80_0000) (hud : s.uncached (storeBase d i + y) n)
    (h2 : qw e.word 2 = BitVec.ofNat 64 (2 ^ 62 + y)) (h3 : qw e.word 3 = BitVec.ofNat 64 n) :
    exec (.movFill d i) s = .next (s.storedOnce d i e.id y (fillBytes (qw e.word 1) n)) := by
  have hlen : bits (BitVec.ofNat 64 n) 39 0 = n := by rw [bits_ofNat (by omega)]; omega
  have hrest : bits (BitVec.ofNat 64 n) 63 40 = 0 := by rw [bits_ofNat (by omega)]; omega
  obtain ⟨hd, hi⟩ := readyCmd_tile h
  have hpois : (s.begun d i e.id []).poison = [] := (begun_poison ..).trans hp
  have hfill := fillChunks_store (storeRange_storeBase hd hi hy) hn (uncached_begun hud d i e.id []) hpois d (s.coreCmpt d i)
    (.queue d i 5 e.id) (qw e.word 1) 0x80_0000
  have hcodes : orElse [0, s.movLen (s.coreCmpt d i) (.loc (storeBase d i) 0x80_0000 y) n] = 0 := by
    rw [movLen_loc hy]
    rfl
  have hbegin := movBegin_ready h hst (ops := [.loc (storeBase d i) 0x80_0000 y]) rfl hcodes (clip := 0) rfl
  have heq : exec (.movFill d i) s = execMovFill d i s := rfl
  rw [heq, execMovFill, upDo_up hup, issue_ready h]
  unfold State.movFill
  simp only [h3, hlen, hrest, movAddr_store h2 (by omega), opPeer_loc, movXlat_loc, movClip_loc, hprog, cut4k_one hn hn4, List.drop_zero, bne_self_eq_false,
    Option.isSome_none, Bool.or_false]
  refine congrArg Host.Outcome.next ((hbegin _).trans ?_)
  rw [hfill]
  rfl

/-- A fill whose reserved field is not zero is refused. -/
theorem exec_movFill_malformed (hup : s.isUp = true) (h : s.readyCmd d i 5 0xC3 e) (hst : e.started = false) (h3 : bits (qw e.word 3) 63 40 ≠ 0) :
    exec (.movFill d i) s = .next (s.refuse d i 5 e.id 0x1001) := by
  have heq : exec (.movFill d i) s = execMovFill d i s := rfl
  rw [heq, execMovFill, upDo_up hup, issue_ready h, State.movFill, bne_iff_ne.mpr h3, Bool.true_or, Bool.true_or, movBegin_malformed hst]

/-! ### MOV_CONVERT -/

theorem elemPois_clean (f n k : Nat) : elemPois f (List.replicate n false) k = false := by
  simp [elemPois]

theorem bytePois_clean {p : Nat → Bool} (hp : ∀ k, p k = false) (f n j : Nat) : bytePois f n p j = false := by
  simp [bytePois, hp]

/-- No byte of a result is poisoned when none of its source is. -/
theorem bytePois_list_clean (f m n j : Nat) : ((List.range n).map (bytePois f m (elemPois f (List.replicate n false))))[j]?.getD false = false := by
  rw [List.getElem?_map]
  cases (List.range n)[j]? with
  | none => rfl
  | some k => exact bytePois_clean (elemPois_clean f n) f m k

theorem packLen_fp32 (n : Nat) : packLen 0 n = 4 * n := by
  simp only [packLen, fmtBits]
  omega

/-- Operands that do not meet leave no element of a conversion open (log 18). -/
theorem convFree_disjoint {a b m k : Nat} (h : a + m ≤ b ∨ b + k ≤ a) (s : State) (sf df n : Nat) (l : List Byte) :
    s.convFree sf df n [(a, m)] [(b, k)] l = (s, l) := by
  have hno : meets a m b k = false := by
    simp only [meets, Bool.and_eq_false_iff, bne_eq_false_iff_eq, decide_eq_false_iff_not]
    omega
  simp [State.convFree, hno]

theorem exec_movConvert (hup : s.isUp = true) (h : s.readyCmd d i 5 0xC2 e) : exec (.movConvert d i) s = .next (s.movConvert d i e) := by
  have heq : exec (.movConvert d i) s = execMovConvert d i s := rfl
  rw [heq, execMovConvert, upDo_up hup, issue_ready h]

/-- MOV_CONVERT of FP32 elements to FP32 within a core's store writes their bytes once. -/
theorem movConvert_store (hp : s.poison = []) (h : s.readyCmd d i 5 0xC2 e) (hst : e.started = false)
    (hn : 1 ≤ n) (hx : x + n ≤ 0x80_0000) (hy : y + n ≤ 0x80_0000) (hdis : x + n ≤ y ∨ y + n ≤ x)
    (hus : s.uncached (storeBase d i + x) n) (hud : s.uncached (storeBase d i + y) n)
    (h1 : qw e.word 1 = BitVec.ofNat 64 (2 ^ 62 + x)) (h2 : qw e.word 2 = BitVec.ofNat 64 (2 ^ 62 + y))
    (hlen : 4 * bits (qw e.word 3) 31 0 = n) (hupper : bits (qw e.word 3) 63 32 = 0) :
    ∃ (g : GenBank) (l : List Byte) (st : Sticky), s.movConvert d i e =
      (((s.begun d i e.id []).modCore d i (fun c => { c with movGens := c.movGens.after g })).wr (storeBase d i + y) (l.take n)).finish d i 5 e.id 0 st := by
  obtain ⟨hd, hi⟩ := readyCmd_tile h
  have hz {hi lo : Nat} (hlo : 32 ≤ lo) : bits (qw e.word 3) hi lo = 0 := bits_of_upper_zero hupper hlo
  have hsrc := storeRange_storeBase hd hi hx
  have hdst := storeRange_storeBase hd hi hy
  have hfar {a m : Nat} (h : StoreRange a m) : inStacks a = false := inStacks_storeRange h (Nat.le_refl a)
  have hpois : (s.begun d i e.id []).poison = [] := (begun_poison ..).trans hp
  have husB : (s.begun d i e.id []).uncached (storeBase d i + x) n := uncached_begun hus d i e.id []
  have hudB : (s.begun d i e.id []).uncached (storeBase d i + y) n := uncached_begun hud d i e.id []
  have hcodes : orElse [0, 0, s.movLen (s.coreCmpt d i) (.loc (storeBase d i) 0x80_0000 x) n, s.movLen (s.coreCmpt d i) (.loc (storeBase d i) 0x80_0000 y) n] = 0 := by
    rw [movLen_loc hx, movLen_loc hy]
    rfl
  have hbegin := movBegin_ready h hst (ops := [.loc (storeBase d i) 0x80_0000 x, .loc (storeBase d i) 0x80_0000 y]) rfl hcodes (clip := orElse [0, 0]) rfl
  have hwrite (g : GenBank) (l : List Byte) {bad : List Bool} (hbad : ∀ j : Nat, bad[j]?.getD false = false) :
      ((s.begun d i e.id []).modCore d i (fun c => { c with movGens := c.movGens.after g })).writePieces (s.coreCmpt d i) [(storeBase d i + y, n)] l bad
        = (((s.begun d i e.id []).modCore d i (fun c => { c with movGens := c.movGens.after g })).wr (storeBase d i + y) (l.take n), false) :=
    writePieces_store hdst hn (uncached_modCore hudB d i _) (by rw [modCore_poison, hpois]) _ l hbad
  unfold State.movConvert
  simp only [hz (Nat.le_refl 32), hz (show 32 ≤ 36 by decide), hz (show 32 ≤ 40 by decide), hz (show 32 ≤ 42 by decide), hz (show 32 ≤ 45 by decide), packLen_fp32, hlen,
    movAddr_store h1 (by omega), movAddr_store h2 (by omega), opPeer_loc, movXlat_loc, movClip_loc, opPieces_loc _ _ _ _ _ hn, opAbsent_loc, show movFmt 0 = true from rfl,
    show convOk 0 0 0 = true from rfl, show ((0 : BitVec 16) == 0x1001) = false from rfl, bne_self_eq_false, Option.isSome_none, Bool.not_true, Bool.or_false]
  rw [hbegin]
  simp only [readGate_outside (hfar hsrc), if_neg Bool.false_ne_true, movOffer_outside (hfar hsrc), movOffer_outside (hfar hdst), readPieces_uncached husB hpois,
    convFree_disjoint (show storeBase d i + x + n ≤ storeBase d i + y ∨ storeBase d i + y + n ≤ storeBase d i + x by omega),
    hwrite _ _ (bytePois_list_clean _ _ n), any_replicate_false]
  exact ⟨_, _, _, rfl⟩

/-- A conversion whose reserved field is not zero is refused. -/
theorem exec_movConvert_malformed (hup : s.isUp = true) (h : s.readyCmd d i 5 0xC2 e) (hst : e.started = false) (h3 : bits (qw e.word 3) 63 45 ≠ 0) :
    exec (.movConvert d i) s = .next (s.refuse d i 5 e.id 0x1001) := by
  rw [exec_movConvert hup h]
  simp only [State.movConvert, bne_iff_ne.mpr h3, Bool.true_or, movBegin_malformed hst]

/-- A conversion changes its core and its result's bytes alone, and the command is done. -/
theorem movConvert_spec (hm : memWf s.mem = true) (h : s.readyCmd d i 5 0xC2 e) (hcode : e.code = 0) {g : GenBank} {l : List Byte} {st : Sticky}
    (ht : s.movConvert d i e =
      (((s.begun d i e.id []).modCore d i (fun c => { c with movGens := c.movGens.after g })).wr (storeBase d i + y) (l.take n)).finish d i 5 e.id 0 st) :
    s.storeOnly (s.movConvert d i e) d i y n ∧ (s.movConvert d i e).doneAs d i 5 e.id 0 := by
  obtain ⟨hd, hi⟩ := readyCmd_tile h
  rw [ht]
  constructor
  · have hmem : memWf ((s.begun d i e.id []).modCore d i (fun c => { c with movGens := c.movGens.after g })).mem = true := by
      rw [modCore_mem, begun_mem, hm]
    rw [State.finish, State.modEntry]
    exact storeOnly_modCore (storeOnly_wr (storeOnly_modCore (storeOnly_begun ..) _) hmem (List.length_take_le n l)) _
  · refine doneAs_finish (e := e.begun []) hd hi ?_ hcode st
    rw [wr_core, core_modCore, if_pos ⟨rfl, rfl, hd, hi⟩]
    exact begun_mem_queue h []

end Sys2Proof.Machine
end

section
/-! PROOFS. The end of a queue's oldest command (R59, R60, R65, R87). -/

namespace Sys2Proof.Machine

variable {s : State} {d i q : Nat} {e : QEntry} {l : List QEntry}

/-- A command that has not ended, and whose opcode is listed or whose wait is not met, stays. -/
theorem cmdComplete_stays (hq : (s.core d i).queue q = e :: l) (hst : e.st ≠ .done) (hlisted : e.st = .waiting → listedOp q (qop e.word) = true) :
    s.cmdComplete d i q = s := by
  have hkeep : ¬ (e.st = .waiting ∧ (!listedOp q (qop e.word)) = true ∧ s.cmdWait d i e) := fun ⟨hw, hno, _⟩ => by
    rw [hlisted hw] at hno
    exact Bool.false_ne_true hno
  simp only [State.cmdComplete, hq, if_neg hkeep, ne_eq, hst, not_false_eq_true, true_or, if_true, ite_self]

/-- A code without a failing post after it is recorded as it is. -/
theorem firstCode_zero (c : BitVec 16) : firstCode c 0 = c := by
  rcases eq_or_ne c 0 with rfl | hc
  · rfl
  · rw [firstCode, show isFailure 0 = false from rfl, if_neg Bool.false_ne_true, bne_iff_ne.mpr hc, if_pos rfl, ite_self]

/-- A finished command that makes no post leaves its queue. -/
theorem cmdComplete_done (hd : isTileDie d = true) (hi : i < 8) (hq6 : q < 6) (hq : (s.core d i).queue q = e :: l) (hst : e.st = .done)
    (hdelta : s.deltasOut (s.coreCmpt d i) = false) (hpost : qpostEn e.word = false ∨ e.post = false) : s.cmdComplete d i q = (s.popHead d i q e).applySeed d i := by
  have hno : (qpostEn e.word && e.post) = false := Bool.and_eq_false_iff.mpr hpost
  simp [State.cmdComplete, hd, hi, hq6, hq, hst, hdelta, hno]

theorem portFree_none {s : State} (h : (s.core d i).portWait = none) (q : Nat) : s.portFree d i q = s := by
  simp only [State.portFree, h]

theorem applySeed_none {s : State} (h : (s.core d i).movSeed = none) : s.applySeed d i = s := by
  simp only [State.applySeed, h]

/-- The head that makes no post leaves its queue, and its code and sticky byte are recorded. -/
theorem popHead_no_post (hd : isTileDie d = true) (hi : i < 8) (hq : (s.core d i).queue q = e :: l) (hpost : qpostEn e.word = false ∨ e.post = false)
    (hport : (s.core d i).portWait = none) :
    s.popHead d i q e = s.withCore d i { s.core d i with
      queues := (s.core d i).queues.put q l
      qstat := (s.core d i).qstat.put q (qstatAfter ((s.core d i).qstat.look q 0) e.code e.sticky)
      run := (s.core d i).run.map (fun r => { r with sticky := r.sticky ||| e.sticky }) } := by
  have hno : (qpostEn e.word && e.post) = false := Bool.and_eq_false_iff.mpr hpost
  simp only [State.popHead, hno, Bool.false_and, if_neg Bool.false_ne_true, firstCode_zero, modCore_eq hd hi, Core.setQueue, hq, List.tail_cons]
  exact portFree_none (by rw [core_withCore]; exact hport) q

/-! ### COR_QSTAT (R59) -/

theorem bit_or_valid (w : BitVec 32) (v : BitVec 32) : bit (w ||| 0x80000000#32 ||| v) 31 = true := by
  simp [bit]

/-- The first failure is recorded with VALID. -/
theorem qstatAfter_first {w : BitVec 32} {c : BitVec 16} (hc : isFailure c = true) (hw : w.getLsbD 31 = false) :
    qstatAfter w c 0 = w ||| 0x80000000#32 ||| c.setWidth 32 := by
  have hset : BitVec.ofNat 32 c.toNat = c.setWidth 32 := by rw [← BitVec.ofNat_toNat]
  have hbit : bit w 31 = false := hw
  simp [qstatAfter, hc, hbit, hset]

/-- A recorded failure stays. -/
theorem qstatAfter_valid {w : BitVec 32} (hw : bit w 31 = true) (c : BitVec 16) : qstatAfter w c 0 = w := by
  simp [qstatAfter, hw]

end Sys2Proof.Machine
end

section
/-! PROOFS. O13: the mover's commands in a core's store, and the end of a queue's oldest command. -/

namespace Sys2Proof.Machine

variable {s : State} {d i q x y n : Nat} {e : QEntry}

/-- One row copied between places of a core's store that do not meet. -/
theorem movRows_one_row {op : Nat} (hp : s.poison = []) (h : s.readyCmd d i 5 op e) (hst : e.started = false) (hprog : e.prog = 0)
    (hn : 1 ≤ n) (hn4 : n ≤ 4096) (hx : x + n ≤ 0x80_0000) (hy : y + n ≤ 0x80_0000) (hdis : x + n ≤ y ∨ y + n ≤ x)
    (hus : s.uncached (storeBase d i + x) n) (hud : s.uncached (storeBase d i + y) n)
    (h1 : qw e.word 1 = BitVec.ofNat 64 (2 ^ 62 + x)) (h2 : qw e.word 2 = BitVec.ofNat 64 (2 ^ 62 + y)) (ss ds : Nat) (red : Bool) :
    s.movRows d i e 1 n ss ds 0 false red = s.storedOnce d i e.id y (memGets s.mem (storeBase d i + x) n) := by
  obtain ⟨hd, hi⟩ := readyCmd_tile h
  rw [movRows_store h hst hprog h1 h2 (by rwa [rowsLen_one hn]) (by rwa [rowsLen_one hn]), chunksOf_one hn hn4,
    begun_copyRows_one hd hi hp hn hx hy hdis hus hud]

/-- A copy of no bytes ends without a chunk. -/
theorem movRows_no_bytes {op rows rowBytes : Nat} (h : s.readyCmd d i 5 op e) (hst : e.started = false) (hprog : e.prog = 0) (hx : x < 0x80_0000) (hy : y < 0x80_0000)
    (h1 : qw e.word 1 = BitVec.ofNat 64 (2 ^ 62 + x)) (h2 : qw e.word 2 = BitVec.ofNat 64 (2 ^ 62 + y)) (hzero : rows = 0 ∨ rowBytes = 0) (ss ds : Nat) (red : Bool) :
    s.movRows d i e rows rowBytes ss ds 0 false red = (s.begun d i e.id []).entryAfter d i 5 e.id 0 0 0 0 0 := by
  rw [movRows_store h hst hprog h1 h2 (by rw [rowsLen_zero hzero]; omega) (by rw [rowsLen_zero hzero]; omega), chunksOf_zero hzero, copyRows_nil]

/-- The completion instruction of a queue is that of its unit. -/
theorem exec_cmdComplete (hup : s.isUp = true) {c : Instr} (hc : (c = .engineCmdComplete d i q ∧ q < 5) ∨ (c = .moverCmdComplete d i ∧ q = 5)) :
    exec c s = .next (s.cmdComplete d i q) := by
  rcases hc with ⟨rfl, hq⟩ | ⟨rfl, rfl⟩
  · have heq : exec (.engineCmdComplete d i q) s = execEngineCmdComplete d i q s := rfl
    rw [heq, execEngineCmdComplete, upDo_up hup, if_pos hq]
  · have heq : exec (.moverCmdComplete d i) s = execMoverCmdComplete d i s := rfl
    rw [heq, execMoverCmdComplete, upDo_up hup]

/-- Settles O13: a copy, a fill and a conversion in a core's store are one write there; a command of no bytes changes its entry alone. -/
theorem moverCommandsMoveBytesInTheCoreStore : Obligations.MoverCommandsMoveBytesInTheCoreStore := by
  unfold Obligations.MoverCommandsMoveBytesInTheCoreStore
  refine ⟨?_, ?_, ?_⟩
  · intro s d i x y n e hup hp hm hcode hpend hprog hst hn hn4 hx hy hdis hus hud
    refine ⟨fun h h1 h2 h3 => ⟨_, ?_, storedOnce_spec h hcode hpend hp hm (length_memGets ..)⟩,
      fun h h1 h2 h3 => ⟨_, ?_, storedOnce_spec h hcode hpend hp hm (length_memGets ..)⟩,
      fun h h2 h3 => ⟨_, exec_movFill_ready hup hp h hst hprog hn hn4 hy hud h2 h3, storedOnce_spec h hcode hpend hp hm (length_fillBytes ..)⟩,
      fun h h1 h2 hlen hupper => ?_⟩
    · rw [exec_movCopy_ready hup h (by omega) h3, movRows_one_row hp h hst hprog hn hn4 hx hy hdis hus hud h1 h2]
    · obtain ⟨hrows, hbytes, hss, hds⟩ := bits_one_row (show n < 2 ^ 20 by omega)
      rw [exec_movCopy2d_ready hup h, h3, hrows, hbytes, movRows_one_row hp h hst hprog hn hn4 hx hy hdis hus hud h1 h2]
    · obtain ⟨g, l, st, ht⟩ := movConvert_store hp h hst hn hx hy hdis hus hud h1 h2 hlen hupper
      exact ⟨_, exec_movConvert hup h, movConvert_spec hm h hcode ht⟩
  · intro s d i x y e hup hcode hpend hprog hst hx hy
    refine ⟨fun h h1 h2 h3 => ⟨_, ?_, begun_entryAfter_spec h hcode hpend⟩, fun h h1 h2 h3 => ⟨_, ?_, begun_entryAfter_spec h hcode hpend⟩,
      fun h h3 => exec_movFill_malformed hup h hst h3, fun h h3 => exec_movConvert_malformed hup h hst h3⟩
    · rw [exec_movCopy_ready hup h (n := 0) (by decide) h3, movRows_no_bytes h hst hprog hx hy h1 h2 (Or.inr rfl)]
    · rw [exec_movCopy2d_ready hup h, movRows_no_bytes h hst hprog hx hy h1 h2 (Or.inl h3)]
  · intro s d i q e l hup hd hi hq6 hq
    refine ⟨fun c hc => ⟨fun hst hdelta hpost hport hseed => ?_, fun hst => ?_, fun hst hlisted => ?_⟩, fun w c hc hw _ => ?_⟩
    · rw [exec_cmdComplete hup hc, cmdComplete_done hd hi hq6 hq hst hdelta hpost, popHead_no_post hd hi hq hpost hport,
        applySeed_none (by rw [core_withCore]; exact hseed)]
    · rw [exec_cmdComplete hup hc, cmdComplete_stays hq (by rw [hst]; decide) (fun hw => by rw [hst] at hw; cases hw)]
    · rw [exec_cmdComplete hup hc, cmdComplete_stays hq (by rw [hst]; decide) (fun _ => hlisted)]
    · rw [qstatAfter_first hc hw]
      exact ⟨rfl, qstatAfter_valid (bit_or_valid w (c.setWidth 32)) (c + 1)⟩

end Sys2Proof.Machine
end

section
/-! PROOFS. Commands of the engine and shaping queues: their issue, their refusal, and what their end changes (R83 to R88, R106). -/

namespace Sys2Proof.Machine

variable {s : State} {d i q op : Nat} {e : QEntry}

/-! ### Issue and refusal (R85, R86) -/

/-- A ready command that passes its checks is performed. -/
theorem issueChecked_ready (h : s.readyCmd d i q op e) {bad : Bool} {rest : BitVec 16} (hbad : bad = false) (hrest : rest = 0) (f : State → State) :
    s.issueChecked d i q e bad rest f = f s := by
  have hcode : ¬ (s.checkCmd d i e.word bad rest != 0) = true := by
    rw [hbad, checkCmd_ready h, hrest]
    decide
  exact if_neg hcode

/-- A command whose checks give a code is refused with it. -/
theorem issueChecked_refused {bad : Bool} {rest code : BitVec 16} (hcode : s.checkCmd d i e.word bad rest = code) (hne : code ≠ 0) (f : State → State) :
    s.issueChecked d i q e bad rest f = s.refuse d i q e.id code := by
  simp only [State.issueChecked, hcode, bne_iff_ne.mpr hne, if_true]

theorem issueChecked_malformed {bad : Bool} (hbad : bad = true) (rest : BitVec 16) (f : State → State) :
    s.issueChecked d i q e bad rest f = s.refuse d i q e.id 0x1001 := by
  rw [hbad]
  exact issueChecked_refused (checkCmd_malformed s d i e.word rest) (by decide) f

section
variable (hen : qpostEn e.word = true) (hform : pwFormat (qpost e.word) = true)
include hen hform

/-- A post to a counter that its compartment may not post to (R67). -/
theorem checkCmd_post_denied (hok : s.corePostOk d i (s.coreCmpt d i) (qpost e.word) = false) (rest : BitVec 16) :
    s.checkCmd d i e.word false rest = 0x1005 := by
  simp [State.checkCmd, hen, hform, hok]

/-- A post to another device where there is no fabric (R3). -/
theorem checkCmd_no_fabric (hok : s.corePostOk d i (s.coreCmpt d i) (qpost e.word) = true) (hk : pwKind (qpost e.word) = 3)
    (hfab : s.hasFabric = false) (rest : BitVec 16) : s.checkCmd d i e.word false rest = 0x1004 := by
  simp [State.checkCmd, hen, hform, hok, hk, hfab]

end

theorem engineDo_ready (hup : s.isUp = true) (hq : q < 4) (h : s.readyCmd d i q op e) (f : State → QEntry → State) :
    engineDo s d i q op f = .next (f s e) := by
  rw [engineDo, upDo_up hup, if_pos hq, issue_ready h]

theorem shpDo_ready (hup : s.isUp = true) (h : s.readyCmd d i 4 op e) (f : State → QEntry → State) : shpDo s d i op f = .next (f s e) := by
  rw [shpDo, upDo_up hup, issue_ready h]

/-- The control commands stand in the engine and the shaping queues. -/
theorem controlDo_ready (hup : s.isUp = true) (hq : q < 5) (h : s.readyCmd d i q op e) (f : State → QEntry → State) :
    upDo s (fun s => if q < 5 then s.issue d i q op f else s) = .next (f s e) := by
  rw [upDo_up hup, if_pos hq, issue_ready h]

theorem engFault_eq (q : Nat) (f : Bool) : engFault q f = if f = true ∧ q < 4 then 0x4001 else 0 := by
  simp only [engFault, Bool.and_eq_true, decide_eq_true_eq]

theorem engFault_engine (hq : q < 4) (f : Bool) : engFault q f = if f then 0x4001 else 0 := by simp [engFault, hq]

theorem engFault_shaping (f : Bool) : engFault 4 f = 0 := by simp [engFault]

/-! ### What the end of a command changes -/

theorem modEntry_only_tiles (s : State) (d i q id : Nat) (f : QEntry → QEntry) : ∃ x, s.modEntry d i q id f = { s with tiles := x } :=
  modCore_only_tiles s d i _

theorem finish_only_tiles (s : State) (d i q id : Nat) (code : BitVec 16) (st : Sticky) : ∃ x, s.finish d i q id code st = { s with tiles := x } :=
  modEntry_only_tiles s d i q id _

theorem modEngine_only_tiles (s : State) (d i q : Nat) (f : Engine → Engine) : ∃ x, s.modEngine d i q f = { s with tiles := x } :=
  modCore_only_tiles s d i _

/-- A finished command has the first code that is a failure, its own or that of an earlier fault. -/
theorem doneAs_finish_code (hd : isTileDie d = true) (hi : i < 8) (h : e ∈ (s.core d i).queue q) (hcode : e.code = 0) {code : BitVec 16}
    (hc : firstCode 0 code = code) (st : Sticky) : (s.finish d i q e.id code st).doneAs d i q e.id code := by
  refine doneAs_modEntry hd hi h rfl rfl ?_
  rw [hcode, hc]

/-- The end of a command leaves every engine as it was. -/
theorem engine_finish (s : State) (d i q id : Nat) (code : BitVec 16) (st : Sticky) (r : Nat) :
    (s.finish d i q id code st).engine d i r = s.engine d i r := by
  rw [State.engine, State.finish, State.modEntry, core_modCore]
  split <;> rfl

theorem engine_modEngine_same (hd : isTileDie d = true) (hi : i < 8) (s : State) (q : Nat) (f : Engine → Engine) :
    (s.modEngine d i q f).engine d i q = f (s.engine d i q) := by
  rw [State.modEngine, modCore_eq hd hi, State.engine, core_withCore]
  exact Tab.look_put_same ..

theorem engine_modEngine_ne {r : Nat} (hr : r ≠ q) (s : State) (d i : Nat) (f : Engine → Engine) :
    (s.modEngine d i q f).engine d i r = s.engine d i r := by
  rw [State.modEngine, State.engine, core_modCore]
  split
  · exact Tab.look_put_ne _ hr _ _
  · rfl

theorem queue_modEngine (s : State) (d i q k : Nat) (f : Engine → Engine) : ((s.modEngine d i q f).core d i).queue k = (s.core d i).queue k := by
  rw [State.modEngine, core_modCore]
  split <;> rfl

end Sys2Proof.Machine
end

section
/-! PROOFS. O9: malformed commands of the queues, and the control commands (R41, R83, R85, R86, R88, R89, R106). -/

namespace Sys2Proof.Machine

variable {s : State} {d i q : Nat} {e : QEntry}

/-! ### What each instruction issues -/

section
variable (hup : s.isUp = true) (hq : q < 5) (f : Bool)
include hup hq

theorem exec_wait_ready (h : s.readyCmd d i q 0x01 e) :
    exec (.wait d i q f) s = .next (s.issueChecked d i q e (!restZero e.word || !bit e.word 8) 0 (fun s => s.finish d i q e.id (engFault q f) 0)) :=
  controlDo_ready hup hq h _

theorem exec_post_ready (h : s.readyCmd d i q 0x02 e) :
    exec (.post d i q f) s = .next (s.issueChecked d i q e (!restZero e.word || !bit e.word 9) 0 (fun s => s.finish d i q e.id (engFault q f) 0)) :=
  controlDo_ready hup hq h _

theorem exec_fence_ready (h : s.readyCmd d i q 0x03 e) :
    exec (.fence d i q f) s = .next (if ((s.core d i).queue q).any (fun x => x.st == .running) then s
      else s.issueChecked d i q e (!restZero e.word) 0 (fun s => s.finish d i q e.id (engFault q f) 0)) :=
  controlDo_ready hup hq h _

/-- RNG_SEED for the generators of the unit that issues it. -/
theorem exec_rngSeed_own (h : s.readyCmd d i q 0x04 e) (h2 : qw e.word 2 = 0) (h3 : qw e.word 3 = 0) :
    exec (.rngSeed d i q f) s = .next ((s.seedUnit d i q (if engFault q f = 0 then qw e.word 1 else 0) false).finish d i q e.id (engFault q f) 0) := by
  refine (controlDo_ready hup hq h _).trans (congrArg _ ?_)
  have hown : bit (qw e.word 2) 0 = false := by rw [h2]; rfl
  dsimp only
  rw [issueChecked_ready h (by rw [hown, h2, h3]; rfl) rfl, hown]

end

/-- Seeding an engine's generators leaves its other state and every other unit alone. -/
theorem seedUnit_engine (hd : isTileDie d = true) (hi : i < 8) (hq : q ≠ 4) (s : State) (v : BitVec 64) :
    s.seedUnit d i q v false = { s.withCore d i { s.core d i with
      eng := (s.core d i).eng.put q { s.engine d i q with gens := GenBank.seed v s.tick } } with tick := s.tick + genDraws } := by
  simp only [State.seedUnit, if_neg Bool.false_ne_true, if_neg hq, modCore_eq hd hi]
  rfl

theorem seedUnit_shaping (hd : isTileDie d = true) (hi : i < 8) (s : State) (v : BitVec 64) :
    s.seedUnit d i 4 v false = { s.withCore d i { s.core d i with shpGens := GenBank.seed v s.tick } with tick := s.tick + genDraws } := by
  simp only [State.seedUnit, if_neg Bool.false_ne_true, if_true, modCore_eq hd hi]
  rfl

theorem any_running_iff {l : List QEntry} : l.any (fun x => x.st == .running) = true ↔ ∃ x ∈ l, x.st = .running := by
  simp only [List.any_eq_true, beq_iff_eq]

/-- A control command whose enable bit is clear, or whose reserved words are not zero, is malformed. -/
theorem control_malformed {w : BitVec 256} {n : Nat} (h : restZero w = false ∨ w.getLsbD n = false) : (!restZero w || !bit w n) = true := by
  have hbit : bit w n = w.getLsbD n := rfl
  rcases h with h | h
  · rw [h, Bool.not_false, Bool.true_or]
  · rw [hbit, h, Bool.not_false, Bool.or_true]

theorem control_wellFormed {w : BitVec 256} {n : Nat} (hrest : restZero w = true) (hen : w.getLsbD n = true) : (!restZero w || !bit w n) = false := by
  have hbit : bit w n = w.getLsbD n := rfl
  rw [hrest, hbit, hen]
  rfl

/-- Settles O9: a malformed command fails the first check, a denied post the second or third, and a control command that passes them ends. -/
theorem queueCommandsAreRefusedOrControl : Obligations.QueueCommandsAreRefusedOrControl := by
  unfold Obligations.QueueCommandsAreRefusedOrControl
  constructor
  · intro s d i q e f hup hq
    refine ⟨fun h hbad => ?wait, fun h hbad => ?post, fun hq4 h h2 => ?loadA, fun hq4 h h3 => ?mma, ?denied, ?noFabric, fun c => rfl⟩
    case wait => rw [exec_wait_ready hup hq f h, issueChecked_malformed (control_malformed hbad)]
    case post => rw [exec_post_ready hup hq f h, issueChecked_malformed (control_malformed hbad)]
    case loadA =>
      have run : exec (.loadA d i q f) s = .next (s.loadSlot d i q e false f) := engineDo_ready hup hq4 h _
      rw [run, State.loadSlot, issueChecked_malformed]
      simp only [bne_iff_ne.mpr h2, Bool.or_true, Bool.true_or]
    case mma =>
      have run : exec (.mma d i q f) s = .next (s.mma d i q e f) := engineDo_ready hup hq4 h _
      rw [run, State.mma, issueChecked_malformed]
      simp only [bne_iff_ne.mpr h3, Bool.or_true, Bool.true_or]
    case denied =>
      rintro _ rest g rfl hen hform hok
      exact issueChecked_refused (checkCmd_post_denied hen hform hok rest) (by decide) g
    case noFabric =>
      intro rest g hen hform hok hk hfab
      exact issueChecked_refused (checkCmd_no_fabric hen hform hok hk hfab rest) (by decide) g
  · intro s d i q e f hup hq
    refine ⟨fun h hrest hen => ?wait, fun h hrest hen => ?post, fun h hrest hidle => ?fence, fun h hrun => ?fenceWaits,
      fun h hq4 h2 h3 => ?seed, fun h h2 h3 => ?seedShaping⟩
    case wait => rw [exec_wait_ready hup hq f h, issueChecked_ready h (control_wellFormed hrest hen) rfl, engFault_eq]
    case post => rw [exec_post_ready hup hq f h, issueChecked_ready h (control_wellFormed hrest hen) rfl, engFault_eq]
    case fence =>
      have hno : ¬ ((s.core d i).queue q).any (fun x => x.st == .running) = true := fun hany =>
        have ⟨x, hx, hst⟩ := any_running_iff.mp hany
        hidle x hx hst
      rw [exec_fence_ready hup hq f h, if_neg hno, issueChecked_ready h (by rw [hrest, Bool.not_true]) rfl, engFault_eq]
    case fenceWaits => rw [exec_fence_ready hup hq f h, if_pos (any_running_iff.mpr hrun)]
    case seed =>
      obtain ⟨hd, hi⟩ := readyCmd_tile h
      rw [exec_rngSeed_own hup hq f h h2 h3, seedUnit_engine hd hi (by omega), engFault_engine hq4]
      cases f <;> rfl
    case seedShaping =>
      obtain ⟨hd, hi⟩ := readyCmd_tile h
      rw [exec_rngSeed_own hup (by decide) f h h2 h3, seedUnit_shaping hd hi, engFault_shaping, if_pos rfl]

end Sys2Proof.Machine
end

section
/-! PROOFS. O10: commands that set an engine's slots and banks (R84, R90, R91, R95, R106). -/

namespace Sys2Proof

/-! ### Tables filled from a list -/

/-- Values written at rising keys: each is read back, and the keys outside keep their entry. -/
theorem Tab.look_foldl_put_zipIdx {α : Type} (l : List α) (k : Nat) (t : Tab α) (j : Nat) (v : α) :
    Tab.look ((l.zipIdx k).foldl (fun t x => Tab.put t x.2 x.1) t) j v = if k ≤ j then l[j - k]?.getD (Tab.look t j v) else Tab.look t j v := by
  induction l generalizing k t with
  | nil => simp
  | cons x l ih =>
    rw [List.zipIdx_cons, List.foldl_cons, ih]
    rcases Nat.lt_trichotomy j k with hlt | rfl | hgt
    · rw [if_neg (by omega), if_neg (by omega), Tab.look_put_ne _ (by omega)]
    · simp
    · obtain ⟨m, rfl⟩ : ∃ m, j = k + 1 + m := ⟨j - (k + 1), by omega⟩
      rw [if_pos (by omega), if_pos (by omega), Tab.look_put_ne _ (by omega), Nat.add_sub_cancel_left,
        show k + 1 + m - k = m + 1 by omega, List.getElem?_cons_succ]

/-- One value written at the keys of a list that meet a test. -/
theorem Tab.look_foldl_put_if {α : Type} (l : List Nat) (p : Nat → Bool) (w : α) (t : Tab α) (j : Nat) (v : α) :
    Tab.look (l.foldl (fun t b => if p b then Tab.put t b w else t) t) j v = if j ∈ l ∧ p j = true then w else Tab.look t j v := by
  induction l generalizing t with
  | nil => simp
  | cons b l ih =>
    rw [List.foldl_cons, ih]
    by_cases hj : j ∈ l ∧ p j = true
    · rw [if_pos hj, if_pos ⟨List.mem_cons_of_mem b hj.1, hj.2⟩]
    · rw [if_neg hj]
      by_cases hb : j = b
      · subst hb
        by_cases hp : p j = true
        · simp [hp]
        · simp [hp]
      · have hmem : ¬ (j ∈ b :: l ∧ p j = true) := fun ⟨hm, hp⟩ => hj ⟨(List.mem_cons.mp hm).resolve_left hb, hp⟩
        rw [if_neg hmem]
        split
        · exact Tab.look_put_ne _ hb _ _
        · rfl

namespace Machine

variable {s : State} {d i q : Nat} {e : QEntry}

theorem getElem?_memGets (m : List Host.Cell) {a n j : Nat} (hj : j < n) : (memGets m a n)[j]? = some (memGet m (a + j)) := by
  induction n generalizing a j with
  | zero => omega
  | succ n ih =>
    cases j with
    | zero => rfl
    | succ j => rw [memGets, List.getElem?_cons_succ, ih (by omega), Nat.add_assoc, Nat.add_comm 1 j]

/-- A field above the highest set bit is zero. -/
theorem bits_of_lt {n lo : Nat} {x : BitVec n} (h : x.toNat < 2 ^ lo) (hi : Nat) : bits x hi lo = 0 := by
  rw [bits, Nat.shiftRight_eq_div_pow, Nat.div_eq_of_lt h, Nat.zero_mod]

/-- Words 2 and 3 are zero when the upper half of the command is. -/
theorem qw_of_upper_zero {w : BitVec 256} (h : bits w 255 128 = 0) : qw w 2 = 0 ∧ qw w 3 = 0 := by
  have hlt : w.toNat < 2 ^ 128 := by
    have := w.isLt
    rw [bits, Nat.shiftRight_eq_div_pow] at h
    omega
  have hzero (k : Nat) (hk : 128 ≤ 64 * k) : qw w k = 0 := by
    rw [qw, bits_of_lt (Nat.lt_of_lt_of_le hlt (Nat.pow_le_pow_right (by decide) hk))]
    rfl
  exact ⟨hzero 2 (by decide), hzero 3 (by decide)⟩

/-! ### A command that sets state of one engine -/

/-- One engine changed by a command, which is then done with a code; `n` values have been drawn so far. -/
def State.engineSet (s : State) (d i q id n : Nat) (f : Engine → Engine) (code : BitVec 16) : State :=
  (State.modEngine { s with tick := n } d i q f).finish d i q id code 0

section
variable (hd : isTileDie d = true) (hi : i < 8) (s : State) (n : Nat) (f : Engine → Engine) (code : BitVec 16)

theorem engineSet_only_tiles (d i q id : Nat) : s.engineSet d i q id n f code = { s with tiles := (s.engineSet d i q id n f code).tiles, tick := n } := by
  obtain ⟨x, hx⟩ := modEngine_only_tiles { s with tick := n } d i q f
  obtain ⟨y, hy⟩ := finish_only_tiles { s with tick := n, tiles := x } d i q id code 0
  rw [State.engineSet, hx, hy]

theorem engine_engineSet_ne {r : Nat} (hr : r ≠ q) (d i id : Nat) : (s.engineSet d i q id n f code).engine d i r = s.engine d i r := by
  rw [State.engineSet, engine_finish, engine_modEngine_ne hr]
  rfl

include hd hi

theorem engine_engineSet_same (q id : Nat) : (s.engineSet d i q id n f code).engine d i q = f (s.engine d i q) := by
  rw [State.engineSet, engine_finish, engine_modEngine_same hd hi]
  rfl

end

theorem doneAs_engineSet {op : Nat} (h : s.readyCmd d i q op e) (hcode : e.code = 0) {code : BitVec 16} (hc : firstCode 0 code = code) (n : Nat) (f : Engine → Engine) :
    (s.engineSet d i q e.id n f code).doneAs d i q e.id code := by
  obtain ⟨hd, hi⟩ := readyCmd_tile h
  refine doneAs_finish_code hd hi ?_ hcode hc 0
  rw [queue_modEngine]
  exact mem_queue_of_readyCmd h

/-- The code of a command that a detected error may end. -/
theorem firstCode_fault (f : Bool) : firstCode 0 (if f then 0x4001 else 0) = if f then 0x4001 else 0 := by cases f <;> decide

/-! ### LOAD_A and LOAD_B (R90) -/

/-- An engine with operand slot `k` of B or of A set. -/
def Engine.withSlot (g : Engine) (isB : Bool) (k : Nat) (o : OpSlot) : Engine :=
  if isB then { g with slotB := g.slotB.put k o } else { g with slotA := g.slotA.put k o }

theorem withSlot_banks (g : Engine) (isB : Bool) (k : Nat) (o : OpSlot) : (g.withSlot isB k o).banks = g.banks := by
  cases isB <;> rfl

theorem exec_load_ready (hup : s.isUp = true) (hq : q < 4) {b : Bool} (h : s.readyCmd d i q (if b then 0x11 else 0x10) e) (f : Bool) :
    exec (if b then .loadB d i q f else .loadA d i q f) s = .next (s.loadSlot d i q e b f) := by
  cases b
  · exact engineDo_ready hup hq h _
  · exact engineDo_ready hup hq h _

section
variable {op : Nat} (h : s.readyCmd d i q op e) (hupper : bits e.word 255 128 = 0) (h1 : bits (qw e.word 1) 63 43 = 0)
  (hfmt : loadOk (bits (qw e.word 1) 39 36) (bit (qw e.word 1) 40) = true)
  (hpitch : bits (qw e.word 1) 35 18 = 0 ∨ vecBytes (bits (qw e.word 1) 39 36) ≤ 32 * bits (qw e.word 1) 35 18)
include h hupper h1 hfmt hpitch

/-- A well-formed LOAD sets its slot; after a detected error the place that the slot names is drawn. -/
theorem loadSlot_ready (hq : q < 4) (isB fault : Bool) : ∃ off pitch : Nat, (fault = false → off = bits (qw e.word 1) 17 0 ∧ pitch = bits (qw e.word 1) 35 18) ∧
    s.loadSlot d i q e isB fault = s.engineSet d i q e.id (s.tick + b2n fault)
      (fun g => g.withSlot isB (bits (qw e.word 1) 42 42)
        { off := BitVec.ofNat 18 off, pitch := BitVec.ofNat 18 pitch, fmt := BitVec.ofNat 4 (bits (qw e.word 1) 39 36), mx := bit (qw e.word 1) 40,
          sslot := bits (qw e.word 1) 41 41 }) (if fault then 0x4001 else 0) := by
  obtain ⟨h2, h3⟩ := qw_of_upper_zero hupper
  have hdense : (bits (qw e.word 1) 35 18 != 0 && decide (32 * bits (qw e.word 1) 35 18 < vecBytes (bits (qw e.word 1) 39 36))) = false := by
    rcases hpitch with hp | hp
    · rw [hp]; rfl
    · rw [decide_eq_false (Nat.not_lt.mpr hp), Bool.and_false]
  have hbad : (bits (qw e.word 1) 63 43 != 0 || qw e.word 2 != 0 || qw e.word 3 != 0 || !loadOk (bits (qw e.word 1) 39 36) (bit (qw e.word 1) 40) ||
      (bits (qw e.word 1) 35 18 != 0 && decide (32 * bits (qw e.word 1) 35 18 < vecBytes (bits (qw e.word 1) 39 36)))) = false := by
    rw [hdense, h1, h2, h3, hfmt]
    rfl
  cases fault
  · refine ⟨_, _, fun _ => ⟨rfl, rfl⟩, ?_⟩
    rw [State.loadSlot, issueChecked_ready h hbad rfl, engFault_engine hq]
    rfl
  · refine ⟨Config.free s.tick, Config.free s.tick / 2 ^ 18, fun hf => absurd hf (by decide), ?_⟩
    rw [State.loadSlot, issueChecked_ready h hbad rfl, engFault_engine hq]
    rfl

end

/-! ### SCALE_SET (R95) -/

theorem csPois_of_poison_nil (h : s.poison = []) (d i o n : Nat) : s.csPois d i o n = false := pois_of_poison_nil h _ _

/-- A scale slot with its first `n` entries loaded from bytes without poison. -/
def ScaleSlot.loaded (c : ScaleSlot) (n : Nat) (l : List Byte) : ScaleSlot :=
  { codes := l.zipIdx.foldl (fun t x => t.put x.2 x.1) c.codes, pois := c.pois.filter (fun b => decide (n ≤ b)) }

/-- An engine with scale slot `k` of B or of A changed. -/
def Engine.withScale (g : Engine) (isB : Bool) (k : Nat) (f : ScaleSlot → ScaleSlot) : Engine :=
  if isB then { g with scaleB := g.scaleB.put k (f (g.scaleB.look k {})) } else { g with scaleA := g.scaleA.put k (f (g.scaleA.look k {})) }

theorem withScale_banks (g : Engine) (isB : Bool) (k : Nat) (f : ScaleSlot → ScaleSlot) : (g.withScale isB k f).banks = g.banks := by
  cases isB <;> rfl

theorem look_withScale (g : Engine) (isB : Bool) (k : Nat) (f : ScaleSlot → ScaleSlot) :
    (if isB then (g.withScale isB k f).scaleB else (g.withScale isB k f).scaleA).look k {} = f ((if isB then g.scaleB else g.scaleA).look k {}) := by
  cases isB
  · exact Tab.look_put_same ..
  · exact Tab.look_put_same ..

theorem codes_loaded (c : ScaleSlot) (m : List Host.Cell) (a : Nat) {n j : Nat} (hj : j < 64 * n) :
    (c.loaded n (memGets m a (64 * n))).codes.look j 0x7F = memGet m (a + j) := by
  have hl := Tab.look_foldl_put_zipIdx (memGets m a (64 * n)) 0 c.codes j (0x7F : BitVec 8)
  rw [if_pos (Nat.zero_le j), Nat.sub_zero, getElem?_memGets m hj] at hl
  exact hl

theorem inStore_of_le {o n : Nat} (h : o + n ≤ storeSize) : inStore o n = true := decide_eq_true h

/-- A well-formed SCALE_SET loads its slot from bytes of the core store without poison. -/
theorem scaleSet_ready {op : Nat} (h : s.readyCmd d i q op e) (hupper : bits e.word 255 128 = 0) (h1 : bits (qw e.word 1) 63 27 = 0)
    (hn : bits (qw e.word 1) 24 18 ≤ 64) (hin : 32 * bits (qw e.word 1) 17 0 + 64 * bits (qw e.word 1) 24 18 ≤ storeSize) (hp : s.poison = []) :
    s.scaleSet d i q e false = s.engineSet d i q e.id s.tick (fun g => g.withScale (bit (qw e.word 1) 25) (bits (qw e.word 1) 26 26)
      (fun c => c.loaded (bits (qw e.word 1) 24 18)
        (memGets s.mem (storeBase d i + 32 * bits (qw e.word 1) 17 0) (64 * bits (qw e.word 1) 24 18)))) 0 := by
  obtain ⟨h2, h3⟩ := qw_of_upper_zero hupper
  have hbad : (bits (qw e.word 1) 63 27 != 0 || qw e.word 2 != 0 || qw e.word 3 != 0) = false := by rw [h1, h2, h3]; rfl
  have hrest : (if (decide (64 < bits (qw e.word 1) 24 18) || !inStore (32 * bits (qw e.word 1) 17 0) (64 * bits (qw e.word 1) 24 18)) = true
      then (0x1002 : BitVec 16) else 0) = 0 := by
    rw [decide_eq_false (Nat.not_lt.mpr hn), inStore_of_le hin]
    rfl
  rw [State.scaleSet, issueChecked_ready h hbad hrest]
  simp only [if_neg Bool.false_ne_true, csPois_of_poison_nil hp, List.filter_false, List.append_nil]
  rfl

/-! ### ACC_CLEAR (R91) -/

/-- A well-formed ACC_CLEAR zeroes the banks of its mask. -/
theorem accClear_ready {op : Nat} (h : s.readyCmd d i q op e) (hupper : bits e.word 255 128 = 0) (h1 : bits (qw e.word 1) 63 5 = 0) (f : Bool) :
    s.accClear d i q e f = s.engineSet d i q e.id s.tick (fun g => { g with banks := (List.range 4).foldl (fun t b =>
      if bit (qw e.word 1) b then t.put b { isInt := bit (qw e.word 1) 4, elems := [], poisoned := f } else t) g.banks }) (if f then 0x4001 else 0) := by
  obtain ⟨h2, h3⟩ := qw_of_upper_zero hupper
  have hbad : (bits (qw e.word 1) 63 5 != 0 || qw e.word 2 != 0 || qw e.word 3 != 0) = false := by rw [h1, h2, h3]; rfl
  rw [State.accClear, issueChecked_ready h hbad rfl]
  rfl

/-! ### The obligation -/

/-- Settles O10: each command is one change of one engine, whose slots and banks the tables read back. -/
theorem engineSetupCommandsSetTheirSlots : Obligations.EngineSetupCommandsSetTheirSlots := by
  unfold Obligations.EngineSetupCommandsSetTheirSlots
  intro s d i q e hup hq hupper
  refine ⟨fun b h h1 hfmt hpitch => ⟨?load, ?loadFault⟩, fun h h1 hn hin hp => ?scale, fun f h h1 => ?clear⟩
  case load =>
    obtain ⟨_, _, hplace, heq⟩ := loadSlot_ready h hupper h1 hfmt hpitch hq b false
    obtain ⟨rfl, rfl⟩ := hplace rfl
    have run := exec_load_ready hup hq h false
    rw [heq] at run
    exact run
  case loadFault =>
    obtain ⟨hd, hi⟩ := readyCmd_tile h
    obtain ⟨_, _, -, heq⟩ := loadSlot_ready h hupper h1 hfmt hpitch hq b true
    have run := exec_load_ready hup hq h true
    rw [heq] at run
    refine ⟨_, run, ?frame, fun hcode => doneAs_engineSet h hcode (firstCode_fault true) _ _, ?banks, fun r hr => engine_engineSet_ne _ _ _ _ hr d i _⟩
    case frame => rw [engineSet_only_tiles]
    case banks => rw [engine_engineSet_same hd hi, withSlot_banks]
  case scale =>
    obtain ⟨hd, hi⟩ := readyCmd_tile h
    have run : exec (.scaleSet d i q false) s = .next (s.scaleSet d i q e false) := engineDo_ready hup hq h _
    rw [scaleSet_ready h hupper h1 hn hin hp] at run
    refine ⟨_, run, fun j hj => ?codes, ?frame, fun hcode => doneAs_engineSet h hcode (by decide) _ _, ?banks, fun r hr => engine_engineSet_ne _ _ _ _ hr d i _⟩
    case codes => rw [engine_engineSet_same hd hi, look_withScale, codes_loaded _ _ _ hj]
    case frame => exact engineSet_only_tiles ..
    case banks => rw [engine_engineSet_same hd hi, withScale_banks]
  case clear =>
    obtain ⟨hd, hi⟩ := readyCmd_tile h
    have run : exec (.accClear d i q f) s = .next (s.accClear d i q e f) := engineDo_ready hup hq h _
    rw [accClear_ready h hupper h1] at run
    refine ⟨_, run, fun b hb hon => ?on, fun b hb hoff => ?off, ?frame, fun hcode => doneAs_engineSet h hcode (firstCode_fault f) _ _,
      fun r hr => engine_engineSet_ne _ _ _ _ hr d i _⟩
    case on => rw [engine_engineSet_same hd hi, Tab.look_foldl_put_if, if_pos ⟨List.mem_range.mpr hb, hon⟩]
    case off => rw [engine_engineSet_same hd hi, Tab.look_foldl_put_if, if_neg (fun hon => by rw [hoff] at hon; exact Bool.false_ne_true hon.2)]
    case frame => exact engineSet_only_tiles ..

end Machine
end Sys2Proof
end

section
/-! PROOFS. Results that an engine or the shaping unit writes to its core's store (R84, R101, R105, R107, R177). -/

namespace Sys2Proof.Machine

variable {s t : State} {d i q op o n : Nat} {e : QEntry}

/-! ### Bytes and fields -/

@[simp] theorem length_leBytes (n v : Nat) : (leBytes n v).length = n := by
  induction n generalizing v with
  | zero => rfl
  | succ n ih => rw [leBytes, List.length_cons, ih]

@[simp] theorem length_bvBytes {w : Nat} (x : BitVec w) : (bvBytes x).length = w / 8 := length_leBytes ..

theorem length_pack (f : Nat) (l : List Nat) : (pack f l).length = packLen f l.length := length_leBytes ..

/-- Pieces of one length side by side. -/
theorem length_flatMap_of_const {α β : Type} {l : List α} {f : α → List β} {k : Nat} (h : ∀ x ∈ l, (f x).length = k) :
    (l.flatMap f).length = l.length * k := by
  rw [List.length_flatMap, List.map_congr_left h, List.map_const', List.sum_replicate, smul_eq_mul]

theorem testBit_bits {n : Nat} (x : BitVec n) (hi lo j : Nat) : (bits x hi lo).testBit j = (decide (j < hi + 1 - lo) && x.getLsbD (lo + j)) := by
  simp only [bits, Nat.testBit_mod_two_pow, Nat.testBit_shiftRight, BitVec.getLsbD]

/-- A bit of a field that is zero. -/
theorem bit_of_bits_zero {n hi lo : Nat} {x : BitVec n} (h : bits x hi lo = 0) (k : Nat) (hlo : lo ≤ k := by decide) (hhi : k ≤ hi := by decide) :
    bit x k = false := by
  have hk := testBit_bits x hi lo (k - lo)
  rw [h, Nat.zero_testBit, decide_eq_true (by omega), Nat.add_sub_cancel' hlo, Bool.true_and] at hk
  exact hk.symm

/-- A part of a field. -/
theorem bits_of_bits {w hi lo v : Nat} {x : BitVec w} (h : bits x hi lo = v) (hi' lo' : Nat) (hlo : lo ≤ lo' := by decide) (hhi : hi' ≤ hi := by decide) :
    bits x hi' lo' = v / 2 ^ (lo' - lo) % 2 ^ (hi' + 1 - lo') := by
  apply Nat.eq_of_testBit_eq
  intro j
  rw [← h, testBit_bits, Nat.testBit_mod_two_pow, Nat.testBit_div_two_pow, testBit_bits]
  by_cases hj : j < hi' + 1 - lo'
  · rw [decide_eq_true (show j + (lo' - lo) < hi + 1 - lo by omega), Bool.true_and, show lo + (j + (lo' - lo)) = lo' + j by omega]
  · rw [decide_eq_false hj, Bool.false_and, Bool.false_and]

/-- A part of a zero field. -/
theorem bits_of_bits_zero {n hi lo : Nat} {x : BitVec n} (h : bits x hi lo = 0) (hi' lo' : Nat) (hlo : lo ≤ lo' := by decide) (hhi : hi' ≤ hi := by decide) :
    bits x hi' lo' = 0 := by
  rw [bits_of_bits h hi' lo' hlo hhi, Nat.zero_div, Nat.zero_mod]

/-! ### Writes to the core store -/

/-- A write to the core store without poison stores its bytes and meets no sector that stays poisoned. -/
theorem csWrite_clean (hp : s.poison = []) {bad : Nat → Bool} (hbad : ∀ j, bad j = false) (d i o : Nat) (l : List Byte) :
    s.csWrite d i o l bad = (s.wr (storeBase d i + o) l, false) := by
  rw [State.csWrite, ssuWrPois_clean (by unfold storeBase; omega) s 0 l hbad, partPois_of_poison_nil hp]

/-- Dense vectors without poison are written as one range. -/
theorem putVecs_dense (hp : s.poison = []) {l : List (List Byte × (Nat → Bool))} (hbad : ∀ v ∈ l, ∀ j, v.2 j = false) (d i o len : Nat) :
    s.putVecs d i o len len l = (s.wr (storeBase d i + o) (l.flatMap (·.1)), false) := by
  rw [State.putVecs, if_pos rfl]
  refine csWrite_clean hp (fun j => ?_) d i o _
  split
  next v hv => exact hbad v (List.mem_of_getElem? hv) _
  next => rfl

/-! ### A command at work -/

/-- From `s` to `t` the unit of queue `q` of a core has worked on its command `e`: no other core and no memory has changed, and the command stands in its queue. -/
def State.worksOn (s t : State) (d i q : Nat) (e : QEntry) : Prop :=
  t = { s with tiles := t.tiles, tick := t.tick } ∧ (∀ d' i', (d', i') ≠ (d, i) → t.core d' i' = s.core d' i') ∧ e ∈ (t.core d i).queue q

theorem worksOn_self (h : s.readyCmd d i q op e) : s.worksOn s d i q e := ⟨rfl, fun _ _ _ => rfl, mem_queue_of_readyCmd h⟩

theorem worksOn_tick (h : s.worksOn t d i q e) (n : Nat) : s.worksOn { t with tick := n } d i q e := by
  obtain ⟨honly, hcores, hqueue⟩ := h
  exact ⟨by rw [honly], hcores, hqueue⟩

theorem worksOn_modCore (h : s.worksOn t d i q e) {f : Core → Core} (hf : ∀ c, (f c).queue q = c.queue q) : s.worksOn (t.modCore d i f) d i q e := by
  obtain ⟨honly, hcores, hqueue⟩ := h
  refine ⟨?_, fun d' i' hne => ?_, ?_⟩
  · obtain ⟨x, hx⟩ := modCore_only_tiles t d i f
    rw [hx, honly]
  · rw [core_modCore, if_neg (fun h => hne (by rw [h.1, h.2.1])), hcores d' i' hne]
  · rw [core_modCore]
    split
    · rwa [hf]
    · exact hqueue

theorem worksOn_mem (h : s.worksOn t d i q e) : t.mem = s.mem := by rw [h.1]

theorem worksOn_poison (h : s.worksOn t d i q e) : t.poison = s.poison := by rw [h.1]

/-- A command that stores its bytes in its core's store and ends changes those bytes alone, and is done. -/
theorem worksOn_wr_finish (h : s.worksOn t d i q e) (hd : isTileDie d = true) (hi : i < 8) (hp : s.poison = []) (hm : memWf s.mem = true) (hcode : e.code = 0)
    {l : List Byte} (hl : l.length = n) (o : Nat) (st : Sticky) :
    let u := (t.wr (storeBase d i + o) l).finish d i q e.id 0 st
    memGets u.mem (storeBase d i + o) n = l ∧ s.storeOnly u d i o n ∧ u.doneAs d i q e.id 0 := by
  have hmem : memWf t.mem = true := by rw [worksOn_mem h, hm]
  have hpois : t.poison = [] := by rw [worksOn_poison h, hp]
  refine ⟨?_, ?_, ?_⟩
  · rw [State.finish, State.modEntry, modCore_mem, ← hl]
    exact memGets_wr hmem (pois_of_poison_nil hpois _ _)
  · have hstore : s.storeOnly t d i o n := ⟨by rw [h.1], h.2.1, fun b _ => by rw [worksOn_mem h]⟩
    rw [State.finish, State.modEntry]
    exact storeOnly_modCore (storeOnly_wr hstore hmem (Nat.le_of_eq hl)) _
  · refine doneAs_finish (e := e) hd hi ?_ hcode st
    rw [wr_core]
    exact h.2.2

end Sys2Proof.Machine
end

section
/-! PROOFS. O12: ACC_READ and STORE_C (R97 to R101, R105). -/

namespace Sys2Proof.Machine

variable {s : State} {d i q : Nat} {e : QEntry}

/-! ### ACC_READ (R97, R98) -/

/-- The bytes of stored vector `v` of a bank, row by row. -/
def Bank.rowBytes (b : Bank) (v : Nat) : List Byte := (List.range 64).flatMap (fun x => bvBytes (b.at v x))

theorem length_rowBytes (b : Bank) (v : Nat) : (b.rowBytes v).length = 256 := by
  rw [Bank.rowBytes, length_flatMap_of_const (fun x _ => length_bvBytes _), List.length_range]

/-- ACC_READ of one row of a bank without poison writes its bytes to the core store. -/
theorem accRead_row {op : Nat} (hp : s.poison = []) (h : s.readyCmd d i q op e) (hres : bits (qw e.word 1) 63 52 = 0) (h2 : qw e.word 2 = 0) (h3 : qw e.word 3 = 0)
    (hpitch : bits (qw e.word 1) 35 18 = 0) (hcount : bits (qw e.word 1) 51 45 = 1) (hfirst : bits (qw e.word 1) 44 39 < 64)
    (hin : 32 * bits (qw e.word 1) 17 0 + 256 ≤ storeSize) (hlay : bit (qw e.word 1) 38 = false)
    (hclean : ((s.engine d i q).banks.look (bits (qw e.word 1) 37 36) {}).poisoned = false) :
    s.accRead d i q e false = (s.wr (storeBase d i + 32 * bits (qw e.word 1) 17 0)
      (((s.engine d i q).banks.look (bits (qw e.word 1) 37 36) {}).rowBytes (bits (qw e.word 1) 44 39))).finish d i q e.id 0 0 := by
  have hlast : ¬ 64 < bits (qw e.word 1) 44 39 + 1 := by omega
  have hvecs (l : List Byte) : s.putVecs d i (32 * bits (qw e.word 1) 17 0) 256 256 [(l, fun _ => false)]
      = (s.wr (storeBase d i + 32 * bits (qw e.word 1) 17 0) l, false) := by
    rw [putVecs_dense hp (fun v hv j => by rw [List.mem_singleton.mp hv]), List.flatMap_singleton]
  rw [State.accRead]
  simp only [hres, h2, h3, hpitch, hcount, hlay, if_true, Nat.sub_self, Nat.zero_mul, Nat.add_zero, inStore_of_le hin, decide_eq_false hlast,
    if_neg Bool.false_ne_true, List.range_one, List.map_singleton]
  refine (issueChecked_ready h rfl rfl _).trans ?_
  simp only [hclean, hvecs]
  rfl

/-! ### STORE_C (R97 to R101) -/

theorem length_convVecs_go (f : Nat) (r : Rnd) (mx : Bool) (i : Nat) (v : List FP) (g : GenBank) : (convVecs.go f r mx i v g).1.length = v.length := by
  induction v generalizing i g with
  | nil => rfl
  | cons x v ih => simp only [convVecs.go, List.length_cons, ih]

/-- A conversion keeps the number of vectors and the length of each. -/
theorem lengths_convVecs (f : Nat) (r : Rnd) (mx : Bool) (l : List (List FP)) (g : GenBank) : (convVecs f r mx l g).1.map List.length = l.map List.length := by
  induction l generalizing g with
  | nil => rfl
  | cons v l ih => simp only [convVecs, List.map_cons, ih, length_convVecs_go]

/-- An engine whose generators have drawn, with a bank of kind `int` that is cleared when `clear` says so. -/
def Engine.stored (g : Engine) (gens : GenBank) (bank : Nat) (int clear : Bool) : Engine :=
  { g with
    gens := g.gens.after gens
    banks := if clear then g.banks.put bank { isInt := int, elems := [], poisoned := false } else g.banks }

theorem look_stored (g : Engine) (gens : GenBank) (bank : Nat) (int clear : Bool) :
    (g.stored gens bank int clear).banks.look bank {} = if clear then { isInt := int, elems := [], poisoned := false } else g.banks.look bank {} := by
  cases clear
  · rfl
  · exact Tab.look_put_same ..

/-- Converted vectors of FP32 without poison are written as one range. -/
theorem putVecs_fp32 (hp : s.poison = []) (d i o : Nat) (ws : List (List Nat)) :
    s.putVecs d i o (vecBytes 0) (vecBytes 0) (ws.zipIdx.map (fun v => (pack 0 v.1, bytePois 0 64 (fun _ => false))))
      = (s.wr (storeBase d i + o) (ws.flatMap (pack 0)), false) := by
  rw [putVecs_dense hp, List.flatMap_map]
  · simp only [← List.flatMap_map (f := Prod.fst), List.zipIdx_map_fst]
  · intro v hv j
    obtain ⟨w, -, rfl⟩ := List.mem_map.mp hv
    exact bytePois_clean (fun _ => rfl) 0 64 j

/-- The bytes of `n` converted vectors of `k` elements of FP32. -/
theorem length_fp32_vectors (r : Rnd) (mx : Bool) (n k : Nat) (a : Nat → Nat → FP) (g : GenBank) :
    ((convVecs 0 r mx ((List.range n).map (fun v => (List.range k).map (a v))) g).1.flatMap (pack 0)).length = n * (4 * k) := by
  have hlens := lengths_convVecs 0 r mx ((List.range n).map (fun v => (List.range k).map (a v))) g
  simp only [List.map_map, Function.comp_def, List.length_map, List.length_range, List.map_const'] at hlens
  have hcount := congrArg List.length hlens
  rw [List.length_map, List.length_replicate] at hcount
  have hvec (w : List Nat) (hw : w ∈ (convVecs 0 r mx ((List.range n).map (fun v => (List.range k).map (a v))) g).1) : (pack 0 w).length = 4 * k := by
    have hmem := List.mem_map_of_mem (f := List.length) hw
    rw [hlens] at hmem
    rw [length_pack, packLen_fp32, List.eq_of_mem_replicate hmem]
  rw [length_flatMap_of_const hvec, hcount]

/-- STORE_C of a bank without poison in FP32, unscaled and dense, writes 64 vectors of 256 bytes to the core store. -/
theorem storeC_plain {op : Nat} (hp : s.poison = []) (h : s.readyCmd d i q op e) (hres : bits (qw e.word 1) 63 54 = 0) (h2 : qw e.word 2 = 0)
    (h3 : bits (qw e.word 3) 63 32 = 0) (hopt : bits (qw e.word 1) 52 43 = 0) (hfmt : bits (qw e.word 1) 42 39 = 0) (hpitch : bits (qw e.word 1) 35 18 = 0)
    (hin : 32 * bits (qw e.word 1) 17 0 + 16384 ≤ storeSize) (hclean : ((s.engine d i q).banks.look (bits (qw e.word 1) 37 36) {}).poisoned = false) :
    ∃ (gens : GenBank) (l : List Byte) (st : Sticky), l.length = 16384 ∧
      s.storeC d i q e false = ((s.modEngine d i q (fun g => g.stored gens (bits (qw e.word 1) 37 36)
        ((s.engine d i q).banks.look (bits (qw e.word 1) 37 36) {}).isInt (bit (qw e.word 1) 53))).wr
          (storeBase d i + 32 * bits (qw e.word 1) 17 0) l).finish d i q e.id 0 st := by
  have hmx : bit (qw e.word 1) 43 = false := bit_of_bits_zero hopt 43
  have hmode : bits (qw e.word 1) 46 45 = 0 := bits_of_bits_zero hopt 46 45
  have hsat : bits (qw e.word 1) 48 47 = 0 := bits_of_bits_zero hopt 48 47
  have halpha : bit (qw e.word 1) 50 = false := bit_of_bits_zero hopt 50
  have hrow : bit (qw e.word 1) 51 = false := bit_of_bits_zero hopt 51
  have hcol : bit (qw e.word 1) 52 = false := bit_of_bits_zero hopt 52
  have hlast : inStore (32 * bits (qw e.word 1) 17 0 + 63 * vecBytes 0) (vecBytes 0) = true := inStore_of_le hin
  have hpois (f : Engine → Engine) : (s.modEngine d i q f).poison = [] := (modCore_poison ..).trans hp
  have hany (n : Nat) : ((List.range n).any fun _ => false) = false := List.any_eq_false.mpr (fun _ _ => Bool.false_ne_true)
  rw [State.storeC]
  simp only [hres, h2, h3, hfmt, hpitch, hmx, hmode, hsat, halpha, hrow, hcol, hlast, show bits (0 : BitVec 64) 63 54 = 0 from rfl,
    show outFmtOk 0 false = true from rfl, show convOk 0 0 0 = true from rfl, bne_self_eq_false, Bool.not_true, if_true, if_neg Bool.false_ne_true,
    Bool.false_and, Bool.or_false, issueChecked_ready h rfl rfl]
  simp only [hclean, putVecs_fp32 (hpois _), hany, Bool.or_false, if_neg Bool.false_ne_true]
  exact ⟨_, _, _, length_fp32_vectors _ _ 64 64 .., rfl⟩

/-! ### The obligation -/

/-- Settles O12: a raw row and a stored bank are one write each to the core store. -/
theorem resultsOfABankReachTheCoreStore : Obligations.ResultsOfABankReachTheCoreStore := by
  unfold Obligations.ResultsOfABankReachTheCoreStore
  intro s d i q e hup hq hp hm hcode
  refine ⟨fun h hres h2 h3 hpitch hcount hfirst hin hlay hclean => ?accRead, fun h hres h2 h3 hopt hfmt hpitch hin hclean => ?storeC⟩
  case accRead =>
    obtain ⟨hd, hi⟩ := readyCmd_tile h
    have run : exec (.accRead d i q false) s = .next (s.accRead d i q e false) := engineDo_ready hup hq h _
    rw [accRead_row hp h hres h2 h3 hpitch hcount hfirst hin hlay hclean] at run
    exact ⟨_, run, worksOn_wr_finish (worksOn_self h) hd hi hp hm hcode (length_rowBytes ..) _ 0⟩
  case storeC =>
    obtain ⟨hd, hi⟩ := readyCmd_tile h
    obtain ⟨gens, l, st, hl, heq⟩ := storeC_plain hp h hres h2 h3 hopt hfmt hpitch hin hclean
    have run : exec (.storeC d i q false) s = .next (s.storeC d i q e false) := engineDo_ready hup hq h _
    rw [heq] at run
    have hworks := worksOn_modCore (worksOn_self h) (f := fun c => { c with eng := c.eng.put q ((c.eng.look q {}).stored gens (bits (qw e.word 1) 37 36)
      ((s.engine d i q).banks.look (bits (qw e.word 1) 37 36) {}).isInt (bit (qw e.word 1) 53)) }) (fun _ => rfl)
    obtain ⟨-, hstore, hdone⟩ := worksOn_wr_finish hworks hd hi hp hm hcode hl (32 * bits (qw e.word 1) 17 0) st
    refine ⟨_, run, hstore, hdone, ?_⟩
    rw [engine_finish, State.engine, wr_core, ← State.engine, engine_modEngine_same hd hi, look_stored]

end Sys2Proof.Machine
end

section
/-! PROOFS. Results of the shaping unit: one contiguous run of elements in the core store (R101, R107, R108). -/

namespace Sys2Proof.Machine

variable {s t : State} {d i f : Nat} {e : QEntry}

/-! ### Conversion of a run -/

theorem length_convertAll (f : Nat) (r : Rnd) (arith : Bool) (lane : Nat → Nat) (k : Nat) (l : List FP) (g : GenBank) :
    (convertAll f r arith lane k l g).1.length = l.length := by
  induction l generalizing k g with
  | nil => rfl
  | cons x l ih => simp only [convertAll, List.length_cons, ih]

/-- Elements of whole bytes leave no byte half filled. -/
theorem keepTail_whole (hf : fmtBits f % 8 = 0) (n : Nat) (l old : List Byte) : keepTail f n l old = l :=
  if_pos (by rw [Nat.mul_mod, hf, Nat.mul_zero, Nat.zero_mod])

/-- The encodings, sticky bits and generators of a run's values, the first of its command's. -/
def State.converted (s : State) (d i f : Nat) (r : Rnd) (conv : Bool) (vals : List FP) : List Nat × Sticky × GenBank :=
  convertAll f (if f = 0 ∧ r.mode = 2 then { r with mode := 0 } else r) (f == 0 && !conv) (fun e => (0 + e) % 512) 0 vals
    ((s.core d i).shpGens.ofUnit s.bootDraw (unitOfCore d i 4))

theorem converted_eq (s : State) (d i f : Nat) (r : Rnd) (conv : Bool) (vals : List FP) :
    convertAll f (if f = 0 ∧ r.mode = 2 then { r with mode := 0 } else r) (f == 0 && !conv) (fun e => (0 + e) % 512) 0 vals
      ((s.core d i).shpGens.ofUnit s.bootDraw (unitOfCore d i 4)) = s.converted d i f r conv vals := rfl

/-- The shaping unit's generators after a run. -/
def State.drawn (s : State) (d i f : Nat) (r : Rnd) (conv : Bool) (vals : List FP) : State :=
  s.modCore d i (fun y => { y with shpGens := y.shpGens.after (s.converted d i f r conv vals).2.2 })

theorem drawn_eq (s : State) (d i f : Nat) (r : Rnd) (conv : Bool) (vals : List FP) :
    s.modCore d i (fun y => { y with shpGens := y.shpGens.after (s.converted d i f r conv vals).2.2 }) = s.drawn d i f r conv vals := rfl

theorem length_converted (s : State) (d i f : Nat) (r : Rnd) (conv : Bool) (vals : List FP) : (s.converted d i f r conv vals).1.length = vals.length :=
  length_convertAll ..

theorem length_freeBytes (s : State) (n : Nat) : (s.freeBytes n).2.length = n := by simp [State.freeBytes]

theorem worksOn_freeBytes {q : Nat} (h : s.worksOn t d i q e) (n : Nat) : s.worksOn (t.freeBytes n).1 d i q e := worksOn_tick h _

/-! ### One run written -/

section
variable {x : ShpRun} (hworks : s.worksOn t d i 4 e) (hp : s.poison = []) (hx : ∀ k, x.pois k = false) (hf : fmtBits f % 8 = 0)
include hworks hp hx hf

/-- One run without poison is one write of its bytes; they are free values where the operands overlap (log 18). -/
theorem putRuns_one (r : Rnd) (conv hazard : Bool) : ∃ (u : State) (l : List Byte), s.worksOn u d i 4 e ∧ l.length = packLen f x.vals.length ∧
    (hazard = false → l = pack f (t.converted d i f r conv x.vals).1) ∧
    t.putRuns d i f r conv hazard 0 [x] = (u.wr (storeBase d i + x.off) l, (t.converted d i f r conv x.vals).2.1 ||| 0, false) := by
  have hany : (List.range x.vals.length).any x.pois = false := List.any_eq_false.mpr (fun k _ => by rw [hx]; exact Bool.false_ne_true)
  have hdrawn : s.worksOn (t.drawn d i f r conv x.vals) d i 4 e := worksOn_modCore hworks (fun _ => rfl)
  have hlen : (pack f (t.converted d i f r conv x.vals).1).length = packLen f x.vals.length := by rw [length_pack, length_converted]
  have hstored {u : State} (hu : s.worksOn u d i 4 e) (l : List Byte) :
      u.csWrite d i x.off l (bytePois f x.vals.length x.pois) = (u.wr (storeBase d i + x.off) l, false) :=
    csWrite_clean (by rw [worksOn_poison hu, hp]) (bytePois_clean hx f _) d i x.off l
  cases hazard
  · refine ⟨_, _, hdrawn, hlen, fun _ => rfl, ?_⟩
    simp only [State.putRuns, keepTail_whole hf, if_neg Bool.false_ne_true, converted_eq, drawn_eq, hstored hdrawn, hany, Bool.or_false]
  · refine ⟨_, _, worksOn_freeBytes hdrawn (pack f (t.converted d i f r conv x.vals).1).length, (length_freeBytes (t.drawn d i f r conv x.vals) _).trans hlen,
      fun h => absurd h (by decide), ?_⟩
    simp only [State.putRuns, keepTail_whole hf, if_true, converted_eq, drawn_eq, hstored (worksOn_freeBytes hdrawn _), hany, Bool.or_false]

/-- A command whose result is one run without poison writes that run's bytes alone, and is done. -/
theorem shpDone_one (hd : isTileDie d = true) (hi : i < 8) (hm : memWf s.mem = true) (hcode : e.code = 0) (r : Rnd) (hazard : Bool) (st : Sticky) (conv : Bool) :
    s.storeOnly (t.shpDone d i f e r hazard st [x] conv) d i x.off (packLen f x.vals.length) ∧ (t.shpDone d i f e r hazard st [x] conv).doneAs d i 4 e.id 0 ∧
      (hazard = false → memGets (t.shpDone d i f e r hazard st [x] conv).mem (storeBase d i + x.off) (packLen f x.vals.length)
        = pack f (t.converted d i f r conv x.vals).1) := by
  obtain ⟨u, l, hu, hlen, hval, hrun⟩ := putRuns_one hworks hp hx hf r conv hazard
  obtain ⟨hmem, hstore, hdone⟩ := worksOn_wr_finish hu hd hi hp hm hcode hlen x.off (st ||| ((t.converted d i f r conv x.vals).2.1 ||| 0))
  rw [State.shpDone, hrun]
  exact ⟨hstore, hdone, fun h => hmem.trans (hval h)⟩

end

end Sys2Proof.Machine
end

section
/-! PROOFS. INT32 elements of the shaping unit: their bytes, their values and their sums under WRAP (R30, R31, R37, R109). -/

namespace Sys2Proof.Machine

/-! ### Bytes of a number -/

theorem ofLe_leBytes (n v : Nat) : ofLe (leBytes n v) = v % 256 ^ n := by
  induction n generalizing v with
  | zero => rw [Nat.pow_zero, Nat.mod_one]; rfl
  | succ n ih =>
    have hpow : 256 ^ (n + 1) = 256 * 256 ^ n := Nat.pow_succ'
    rw [leBytes, ofLe, ih, BitVec.toNat_ofNat, hpow, Nat.mod_mul]

theorem ofLe_lt (l : List Byte) : ofLe l < 256 ^ l.length := by
  induction l with
  | nil => decide
  | cons b l ih =>
    have hb := b.isLt
    rw [ofLe, List.length_cons, Nat.pow_succ']
    omega

/-- The one element of four bytes of INT32. -/
theorem elemOf_int32 {l : List Byte} (h : l.length = 4) : elemOf 11 l 0 = ofLe l := by
  have hall : l.take 4 = l := List.take_of_length_le (Nat.le_of_eq h)
  exact congrArg ofLe hall

theorem packLen_int32_one : packLen 11 1 = 4 := by decide

theorem ofLe_pack_int32 (w : Nat) : ofLe (pack 11 [w]) = w % 2 ^ 32 := by
  have hfold : [w].foldr (fun x acc => x % 2 ^ fmtBits 11 + 2 ^ fmtBits 11 * acc) 0 = w % 2 ^ 32 := rfl
  have hlen : packLen 11 [w].length = 4 := packLen_int32_one
  rw [pack, hfold, hlen, ofLe_leBytes]
  omega

/-! ### Values -/

/-- A value of INT32. -/
def isInt32 (v : Int) : Prop := -2147483648 ≤ v ∧ v ≤ 2147483647

/-- An INT32 encoding holds its value modulo 2^32. -/
theorem decodeInt_int32 (w : Nat) : isInt32 (decodeInt 11 w) ∧ decodeInt 11 w % 4294967296 = (w % 4294967296 : Nat) := by
  have hdec : decodeInt 11 w = if w % 2 ^ 32 < 2 ^ 31 then ((w % 2 ^ 32 : Nat) : Int) else ((w % 2 ^ 32 : Nat) : Int) - 2 ^ 32 := rfl
  rw [hdec, isInt32]
  split <;> omega

/-- An INT32 value under 2^31 is that of its encoding. -/
theorem decodeInt_int32_small {w : Nat} (hw : w < 2 ^ 31) : decodeInt 11 w = w := by
  obtain ⟨hr, hm⟩ := decodeInt_int32 w
  rw [isInt32] at hr
  omega

/-- WRAP keeps a sum modulo 2^32. -/
theorem intAdd_wrap (v : Int) : isInt32 (intAdd 2 0 v).1 ∧ (intAdd 2 0 v).1 % 4294967296 = v % 4294967296 := by
  simp only [intAdd, Int.zero_add, if_true]
  split
  next h => exact ⟨h, rfl⟩
  next =>
    obtain ⟨hr, hm⟩ := decodeInt_int32 (v % 4294967296).toNat
    refine ⟨hr, hm.trans ?_⟩
    omega

/-- An INT32 value is stored exactly. -/
theorem roundToInt_int32 {v : Int} (h : isInt32 v) (r : Rnd) (u : Nat) : (roundToInt 11 r u (FP.ofInt v)).1 = (v % 4294967296).toNat := by
  have hround : roundAt r.mode u v.natAbs 0 0 = (v.natAbs, false) := by simp [roundAt]
  have hsign : (if decide (v < 0) = true then -(v.natAbs : Int) else (v.natAbs : Int)) = v := by
    split
    next hneg => rw [decide_eq_true_eq] at hneg; omega
    next hneg => rw [decide_eq_true_eq] at hneg; omega
  simp only [roundToInt, FP.ofInt, hround, hsign]
  norm_num only [fmtBits]
  exact congrArg Prod.fst (if_pos h)

/-- The encoding of the sum of two INT32 elements under WRAP. -/
theorem roundToInt_sum {A B : Nat} (r : Rnd) (u : Nat) :
    (roundToInt 11 r u (FP.ofInt (intAdd 2 0 (decodeInt 11 A + decodeInt 11 B)).1)).1 = (A + B) % 2 ^ 32 := by
  obtain ⟨hrange, hsum⟩ := intAdd_wrap (decodeInt 11 A + decodeInt 11 B)
  obtain ⟨-, hA⟩ := decodeInt_int32 A
  obtain ⟨-, hB⟩ := decodeInt_int32 B
  rw [roundToInt_int32 hrange, hsum]
  omega

/-- One element of INT32 converted. -/
theorem converted_int32 (s : State) (d i : Nat) (r : Rnd) (conv : Bool) (x : FP) (hmode : r.mode = 0) :
    (s.converted d i 11 r conv [x]).1 = [(roundToInt 11 r 0 x).1] := by
  have hint : isIntFmt 11 = true := rfl
  simp [State.converted, convertAll, writeElem, hmode, hint]

end Sys2Proof.Machine
end

section
/-! PROOFS. O14: ELTWISE on one INT32 element and GATHER of one row (R109, R112). -/

namespace Sys2Proof.Machine

variable {s : State} {d i : Nat} {e : QEntry}

/-- One INT32 element of the core store. -/
theorem elemOf_csRead_int32 (s : State) (d i o : Nat) : elemOf 11 (s.csRead d i o 4) 0 = ofLe (memGets s.mem (storeBase d i + o) 4) :=
  elemOf_int32 (length_memGets ..)

/-! ### ELTWISE (R109) -/

/-- Two elements of four bytes at granules are one or apart, so that no result is free (log 18). -/
theorem clash_granules (a o : Nat) : clash (32 * a) 4 (32 * o) 4 true = false := by
  rw [clash, meets]
  rcases Nat.lt_trichotomy a o with h | h | h
  · simp only [decide_eq_false (show ¬ 32 * o < 32 * a + 4 by omega), Bool.and_false, Bool.false_and]
  · simp only [h, beq_self_eq_true, Bool.and_self, Bool.not_true, Bool.and_false]
  · simp only [decide_eq_false (show ¬ 32 * a < 32 * o + 4 by omega), Bool.and_false, Bool.false_and]

/-- The run of one INT32 sum of the elements at `a` and `b` of the core store. -/
def State.sumRun (s : State) (d i a b o : Nat) : ShpRun :=
  { off := o
    vals := [FP.ofInt (intAdd 2 0 (decodeInt 11 (elemOf 11 (s.csRead d i a 4) 0) + decodeInt 11 (elemOf 11 (s.csRead d i b 4) 0))).1]
    pois := fun _ => false }

/-- ELTWISE ADD of one INT32 element under WRAP. -/
theorem eltwise_add_int32 {a b o : Nat} (hp : s.poison = []) (h : s.readyCmd d i 4 0x40 e) (ha : a < 2 ^ 18) (hb : b < 2 ^ 18) (ho : o < 2 ^ 18)
    (h1 : qw e.word 1 = BitVec.ofNat 64 (a + 2 ^ 18 * b + 2 ^ 57))
    (h2 : qw e.word 2 = BitVec.ofNat 64 (o + 2 ^ 58)) (h3 : qw e.word 3 = BitVec.ofNat 64 (2 ^ 32 + 2 ^ 56 * 0xBB)) :
    ∃ st : Sticky, s.eltwise d i e = { s with tick := s.tick + 1 }.shpDone d i 11 e { mode := 0, sat := 2 } false st [s.sumRun d i (32 * a) (32 * b) (32 * o)] := by
  have hw1 (hi lo : Nat) : bits (qw e.word 1) hi lo = (a + 2 ^ 18 * b + 2 ^ 57) / 2 ^ lo % 2 ^ (hi + 1 - lo) := by rw [h1, bits_ofNat (by omega)]
  have hw2 (hi lo : Nat) : bits (qw e.word 2) hi lo = (o + 2 ^ 58) / 2 ^ lo % 2 ^ (hi + 1 - lo) := by rw [h2, bits_ofNat (by omega)]
  have hA : bits (qw e.word 1) 17 0 = a := by rw [hw1]; omega
  have hB : bits (qw e.word 1) 35 18 = b := by rw [hw1]; omega
  have hC : bits (qw e.word 1) 55 36 = 0 := by rw [hw1]; omega
  have hSat : bits (qw e.word 1) 57 56 = 2 := by rw [hw1]; omega
  have hFlags : bits (qw e.word 1) 63 58 = 0 := by rw [hw1]; omega
  have hO : bits (qw e.word 2) 17 0 = o := by rw [hw2]; omega
  have hPer : bits (qw e.word 2) 57 18 = 0 := by rw [hw2]; omega
  have hOp : bits (qw e.word 2) 63 58 = 1 := by rw [hw2]; omega
  have hn : bits (qw e.word 3) 55 32 = 1 := by rw [h3]; decide
  have hin : bits (qw e.word 3) 59 56 = 11 := by rw [h3]; decide
  have hout : bits (qw e.word 3) 63 60 = 11 := by rw [h3]; decide
  have hlen : packLen 11 1 = 4 := packLen_int32_one
  have hstore {x : Nat} (hx : x < 2 ^ 18) : inStore (32 * x) 4 = true := inStore_of_le (by unfold storeSize; omega)
  have hpois (x k : Nat) : s.shpPois d i x 11 k = false := csPois_of_poison_nil hp d i _ _
  rw [State.eltwise]
  simp only [hA, hB, hO, hOp, hn, hin, hout, hSat, bits_of_bits_zero hC 53 36, bits_of_bits_zero hC 55 54, bits_of_bits_zero hPer 37 18,
    bits_of_bits_zero hPer 57 38, bits_of_bits_zero hFlags 63 61, bit_of_bits_zero hFlags 58, bit_of_bits_zero hFlags 59, bit_of_bits_zero hFlags 60,
    hlen, hstore ha, hstore hb, hstore ho, show opUses 1 = (true, false) from rfl, if_true, Bool.not_true, Bool.not_false, Bool.false_and, Bool.and_false, Bool.and_true, Bool.or_false]
  refine Exists.imp (fun _ => (issueChecked_ready h rfl rfl _).trans) ?_
  simp only [hpois, clash_granules, show isIntFmt 11 = true from rfl, show opInt 1 = true from rfl, beq_self_eq_true, Bool.true_and, Bool.true_or, Bool.or_self, if_neg one_ne_zero, if_true]
  exact ⟨_, rfl⟩

/-! ### GATHER (R112) -/

/-- Ranges that lie apart do not meet. -/
theorem meets_apart {a n b m : Nat} (h : a + n ≤ b ∨ b + m ≤ a) : meets a n b m = false := by
  rw [meets]
  rcases h with h | h
  · rw [decide_eq_false (show ¬ b < a + n by omega), Bool.and_false]
  · rw [decide_eq_false (show ¬ a < b + m by omega), Bool.and_false, Bool.false_and]

/-- The row of a table of `nrows` rows of `rl` bytes that the INT32 index `x` selects: zeros where there is none. -/
def State.tableRow (s : State) (d i tab rl nrows : Nat) (x : Int) : List Byte :=
  if decide (0 ≤ x) && decide (x < nrows) then s.csRead d i (tab + x.toNat * rl) rl else List.replicate rl 0

theorem length_tableRow (s : State) (d i tab rl nrows : Nat) (x : Int) : (s.tableRow d i tab rl nrows x).length = rl := by
  rw [State.tableRow]
  split
  · exact length_memGets ..
  · exact List.length_replicate

/-- An index encoding selects its row when it lies below the number of rows. -/
theorem tableRow_index {w nrows : Nat} (hw : w < 2 ^ 32) (hrows : nrows < 2 ^ 24) (s : State) (d i tab rl : Nat) :
    s.tableRow d i tab rl nrows (decodeInt 11 w) = if w < nrows then memGets s.mem (storeBase d i + tab + w * rl) rl else List.replicate rl 0 := by
  rw [State.tableRow]
  by_cases hlt : w < nrows
  · have hx : decodeInt 11 w = w := decodeInt_int32_small (by omega)
    have hx0 : (0 : Int) ≤ w := by omega
    have hxn : (w : Int) < nrows := by omega
    rw [hx, decide_eq_true hx0, decide_eq_true hxn, Bool.and_self, if_pos rfl, if_pos hlt, Int.toNat_natCast, State.csRead, State.rd, Nat.add_assoc]
  · have hout : ¬ (0 ≤ decodeInt 11 w ∧ decodeInt 11 w < nrows) := by
      have hx := (decodeInt_int32 w).2
      omega
    rw [← Bool.decide_and, decide_eq_false hout, if_neg Bool.false_ne_true, if_neg hlt]

/-- One gathered row is one write. -/
theorem gatherRows_one (hp : s.poison = []) (d i tab dst rl nrows : Nat) (x : Int) : ∃ st : Sticky,
    s.gatherRows d i tab dst rl rl nrows false [(x, false, 0)] = (s.wr (storeBase d i + dst) (s.tableRow d i tab rl nrows x), st, false) := by
  have hpois (a n : Nat) : s.csPois d i a n = false := csPois_of_poison_nil hp d i a n
  simp only [State.gatherRows, hpois, if_neg Bool.false_ne_true, Nat.zero_mul, Nat.add_zero, Bool.and_false, Bool.or_false,
    csWrite_clean hp (fun _ => rfl)]
  exact ⟨_, rfl⟩

/-- GATHER of one row. -/
theorem exec_gather_one_row {tab dst ix nrows l : Nat} (hup : s.isUp = true) (hp : s.poison = []) (h : s.readyCmd d i 4 0x46 e)
    (htab : tab < 2 ^ 18) (hdst : dst < 2 ^ 18) (hix : ix < 2 ^ 18) (hrows1 : 1 ≤ nrows) (hrows : nrows < 2 ^ 24) (hl1 : 1 ≤ l) (hl : l < 2 ^ 16)
    (hintab : 32 * tab + nrows * 32 * l ≤ storeSize) (hindst : 32 * dst + 32 * l ≤ storeSize)
    (htd : 32 * tab + nrows * 32 * l ≤ 32 * dst ∨ 32 * dst + 32 * l ≤ 32 * tab) (hxd : 32 * ix + 4 ≤ 32 * dst ∨ 32 * dst + 32 * l ≤ 32 * ix)
    (h1 : qw e.word 1 = BitVec.ofNat 64 (tab + 2 ^ 18 * dst + 2 ^ 36 * ix)) (h2 : qw e.word 2 = BitVec.ofNat 64 (l + 2 ^ 16))
    (h3 : qw e.word 3 = BitVec.ofNat 64 nrows) : ∃ st : Sticky, exec (.shpGather d i) s
      = .next ((s.wr (storeBase d i + 32 * dst) (s.tableRow d i (32 * tab) (32 * l) nrows (decodeInt 11 (elemOf 11 (s.csRead d i (32 * ix) 4) 0)))).finish
        d i 4 e.id 0 st) := by
  have hw1 (hi lo : Nat) : bits (qw e.word 1) hi lo = (tab + 2 ^ 18 * dst + 2 ^ 36 * ix) / 2 ^ lo % 2 ^ (hi + 1 - lo) := by rw [h1, bits_ofNat (by omega)]
  have hw2 (hi lo : Nat) : bits (qw e.word 2) hi lo = (l + 2 ^ 16) / 2 ^ lo % 2 ^ (hi + 1 - lo) := by rw [h2, bits_ofNat (by omega)]
  have hw3 (hi lo : Nat) : bits (qw e.word 3) hi lo = nrows / 2 ^ lo % 2 ^ (hi + 1 - lo) := by rw [h3, bits_ofNat (by omega)]
  have hT : bits (qw e.word 1) 17 0 = tab := by rw [hw1]; omega
  have hD : bits (qw e.word 1) 35 18 = dst := by rw [hw1]; omega
  have hX : bits (qw e.word 1) 53 36 = ix := by rw [hw1]; omega
  have hres1 : bits (qw e.word 1) 63 54 = 0 := by rw [hw1]; omega
  have hL : bits (qw e.word 2) 15 0 = l := by rw [hw2]; omega
  have hN : bits (qw e.word 2) 35 16 = 1 := by rw [hw2]; omega
  have hP : bits (qw e.word 2) 53 36 = 0 := by rw [hw2]; omega
  have hres2 : bits (qw e.word 2) 63 54 = 0 := by rw [hw2]; omega
  have hR : bits (qw e.word 3) 23 0 = nrows := by rw [hw3]; omega
  have hres3 : bits (qw e.word 3) 63 24 = 0 := by rw [hw3]; omega
  have hlen : (nrows - 1) * (32 * l) + 32 * l = nrows * 32 * l := by
    obtain ⟨k, rfl⟩ := Nat.exists_eq_add_of_le' hrows1
    rw [Nat.add_sub_cancel]
    ring
  have hinix : inStore (32 * ix) 4 = true := inStore_of_le (by unfold storeSize; omega)
  have hne : (32 * l == 0) = false := beq_eq_false_iff_ne.mpr (by omega)
  have hnr : ¬ nrows = 0 := by omega
  obtain ⟨st, hrow⟩ := gatherRows_one hp d i (32 * tab) (32 * dst) (32 * l) nrows (decodeInt 11 (elemOf 11 (s.csRead d i (32 * ix) 4) 0))
  have run : exec (.shpGather d i) s = .next _ := shpDo_ready hup h _
  refine ⟨st, run.trans (congrArg _ ?_)⟩
  simp only [hT, hD, hX, hL, hN, hP, hR, hres1, hres2, hres3, hlen, hne, hinix, if_neg hnr, if_true, Nat.mul_zero, Nat.mul_one, Nat.one_mul, inStore_of_le hintab, inStore_of_le hindst]
  refine (issueChecked_ready h rfl rfl _).trans ?_
  simp only [show (1 == 0) = false from rfl, Bool.or_self, if_neg Bool.false_ne_true, meets_apart htd, meets_apart hxd, List.range_one, List.map_singleton,
    csPois_of_poison_nil hp, hrow]

/-! ### The obligation -/

/-- Settles O14: a sum and a gathered row are one write each to the core store. -/
theorem shapingAddsIntegersAndGathersRows : Obligations.ShapingAddsIntegersAndGathersRows := by
  unfold Obligations.ShapingAddsIntegersAndGathersRows
  intro s d i e hup hp hm hcode
  refine ⟨fun a b o h ha hb ho _ h1 h2 h3 => ?eltwise,
    fun tab dst ix nrows l h htab hdst hix hrows1 hrows hl1 hl hintab hindst htd hxd h1 h2 h3 => ?gather⟩
  case eltwise =>
    obtain ⟨hd, hi⟩ := readyCmd_tile h
    obtain ⟨st, heq⟩ := eltwise_add_int32 hp h ha hb ho h1 h2 h3
    have run : exec (.eltwise d i) s = .next (s.eltwise d i e) := shpDo_ready hup h _
    rw [heq] at run
    obtain ⟨hstore, hdone, hval⟩ := shpDone_one (worksOn_tick (worksOn_self h) (s.tick + 1)) hp (x := s.sumRun d i (32 * a) (32 * b) (32 * o)) (fun _ => rfl)
      (show fmtBits 11 % 8 = 0 from rfl) hd hi hm hcode { mode := 0, sat := 2 } false st false
    have hlen : packLen 11 (s.sumRun d i (32 * a) (32 * b) (32 * o)).vals.length = 4 := packLen_int32_one
    rw [hlen] at hstore hval
    refine ⟨_, run, (congrArg ofLe (hval rfl)).trans ?_, hstore, hdone⟩
    rw [State.sumRun, converted_int32 _ _ _ _ _ _ rfl, roundToInt_sum, ofLe_pack_int32, Nat.mod_mod, elemOf_csRead_int32, elemOf_csRead_int32]
  case gather =>
    obtain ⟨hd, hi⟩ := readyCmd_tile h
    obtain ⟨st, run⟩ := exec_gather_one_row hup hp h htab hdst hix hrows1 hrows hl1 hl hintab hindst htd hxd h1 h2 h3
    obtain ⟨hmem, hstore, hdone⟩ := worksOn_wr_finish (worksOn_self h) hd hi hp hm hcode (length_tableRow s d i (32 * tab) (32 * l) nrows _) (32 * dst) st
    have hindex : ofLe (memGets s.mem (storeBase d i + 32 * ix) 4) < 2 ^ 32 := by
      have hlt := ofLe_lt (memGets s.mem (storeBase d i + 32 * ix) 4)
      rwa [length_memGets] at hlt
    refine ⟨_, run, hmem.trans ?_, hstore, hdone⟩
    rw [elemOf_csRead_int32, tableRow_index hindex hrows]

end Sys2Proof.Machine
end

section
/-! PROOFS. O15: the row commands and CONVERT of one row, commands of no elements, and malformed ones (R80, R85, R107 to R111). -/

namespace Sys2Proof.Machine

variable {s : State} {d i a o n : Nat} {e : QEntry}

/-! ### One row -/

@[simp] theorem length_shpRead (s : State) (d i o f n : Nat) (r : Rnd) : (s.shpRead d i o f n r).length = n := by
  rw [State.shpRead, List.length_map, List.length_range]

/-- One row of `n` FP32 elements from `32 * a` to `32 * o`, rounded to nearest even without saturation. -/
def fp32Row (a o n : Nat) (wide : Bool) : RowOp :=
  { inF := 0, outF := 0, rows := 1, cols := n, pitch := 0, src := 32 * a, dst := 32 * o, rnd := { mode := 0 }, wide := wide }

/-- The number of values that one row gives. -/
def rowVals (n : Nat) (wide : Bool) : Nat := if wide then n else 1

theorem span_fp32Row (a o n : Nat) (wide : Bool) (f : Nat) : (fp32Row a o n wide).span f = packLen f n := by
  rw [RowOp.span, fp32Row, Nat.sub_self, Nat.zero_mul, Nat.zero_mul, Nat.zero_div, Nat.zero_add]

theorem outLen_fp32Row (a o n : Nat) (wide : Bool) : (fp32Row a o n wide).outLen = 4 * rowVals n wide := by
  rw [RowOp.outLen, span_fp32Row]
  cases wide
  · exact packLen_fp32 1
  · exact packLen_fp32 n

theorem row_fp32Row (a o n : Nat) (wide : Bool) (x f : Nat) : (fp32Row a o n wide).row x f 0 = x := by
  rw [RowOp.row, Nat.zero_mul, Nat.zero_mul, Nat.zero_div, Nat.add_zero]

theorem empty_fp32Row (hn : 1 ≤ n) (a o : Nat) (wide : Bool) : (fp32Row a o n wide).empty = false := beq_eq_false_iff_ne.mpr (Nat.ne_of_gt hn)

/-- A row inside the store passes its checks. -/
theorem rest_fp32Row {wide : Bool} (hn : 1 ≤ n) (hsrc : 32 * a + 4 * n ≤ storeSize) (hdst : 32 * o + 4 * rowVals n wide ≤ storeSize) :
    (fp32Row a o n wide).rest true = 0 := by
  have hin : inStore (fp32Row a o n wide).src ((fp32Row a o n wide).span (fp32Row a o n wide).inF) = true := by
    rw [span_fp32Row]
    exact inStore_of_le (by rw [show (fp32Row a o n wide).inF = 0 from rfl, packLen_fp32]; exact hsrc)
  have hout : inStore (fp32Row a o n wide).dst (fp32Row a o n wide).outLen = true := by
    rw [outLen_fp32Row]
    exact inStore_of_le hdst
  rw [RowOp.rest, empty_fp32Row hn, hin, hout]
  rfl

section
variable {op : Nat} (hp : s.poison = []) (h : s.readyCmd d i 4 op e) (hn : 1 ≤ n)
include hp h hn

/-- A command of one row gives one run of values at its destination. -/
theorem rowsDo_fp32Row {wide : Bool} (hsrc : 32 * a + 4 * n ≤ storeSize) (hdst : 32 * o + 4 * rowVals n wide ≤ storeSize) {f : Nat → Nat → List FP → List FP × Sticky}
    (hf : ∀ t l, wide = true → l.length = n → (f 0 t l).1.length = n) (draws : Nat) (st0 : Sticky) :
    ∃ (t : State) (hazard : Bool) (st : Sticky) (x : ShpRun), s.worksOn t d i 4 e ∧ x.off = 32 * o ∧ x.vals.length = rowVals n wide ∧ (∀ k, x.pois k = false) ∧
      s.rowsDo d i e (fp32Row a o n wide) false true draws (fun _ => false) false st0 f = t.shpDone d i 0 e { mode := 0 } hazard st [x] := by
  have hworks : s.worksOn { s with tick := s.tick + 1 * draws } d i 4 e := worksOn_tick (worksOn_self h) _
  have hpois (y n : Nat) : s.csPois d i y n = false := csPois_of_poison_nil hp d i y n
  have hissue := issueChecked_ready (bad := false || (fp32Row a o n wide).bad) h rfl (rest_fp32Row hn hsrc hdst)
  rw [State.rowsDo, hissue, empty_fp32Row hn, if_neg Bool.false_ne_true]
  cases wide
  · refine ⟨_, _, _, _, hworks, ?_, ?_, ?_, rfl⟩
    · rfl
    · rfl
    · rintro (_ | k)
      · simp [fp32Row, hpois]
      · simp [fp32Row]
  · refine ⟨_, _, _, _, hworks, ?_, ?_, ?_, rfl⟩
    · exact row_fp32Row ..
    · exact hf _ _ rfl (by simp [fp32Row])
    · intro k
      simp [hpois]

/-- A command of one row writes that row's values alone, and is done. -/
theorem rowsDo_fp32Row_spec (hm : memWf s.mem = true) (hcode : e.code = 0) {wide : Bool} (hsrc : 32 * a + 4 * n ≤ storeSize)
    (hdst : 32 * o + 4 * rowVals n wide ≤ storeSize) {f : Nat → Nat → List FP → List FP × Sticky} (hf : ∀ t l, wide = true → l.length = n → (f 0 t l).1.length = n)
    (draws : Nat) (st0 : Sticky) :
    s.storeOnly (s.rowsDo d i e (fp32Row a o n wide) false true draws (fun _ => false) false st0 f) d i (32 * o) (4 * rowVals n wide) ∧
      (s.rowsDo d i e (fp32Row a o n wide) false true draws (fun _ => false) false st0 f).doneAs d i 4 e.id 0 := by
  obtain ⟨hd, hi⟩ := readyCmd_tile h
  obtain ⟨t, hazard, st, x, hworks, hoff, hvals, hclean, hrun⟩ := rowsDo_fp32Row hp h hn hsrc hdst hf draws st0
  obtain ⟨hstore, hdone, -⟩ := shpDone_one hworks hp hclean (show fmtBits 0 % 8 = 0 from rfl) hd hi hm hcode { mode := 0 } hazard st false
  rw [hoff, hvals, packLen_fp32] at hstore
  rw [hrun]
  exact ⟨hstore, hdone⟩

end

/-! ### Values of a row -/

theorem length_softmaxRow (r : Rnd) (scale : FP) (incl : Nat → Bool) (t : Nat) (l : List FP) : (softmaxRow r scale incl t l).1.length = l.length := by
  rw [softmaxRow]
  dsimp only
  split
  · rw [List.length_map]
  · split
    · rw [List.length_map]
    · simp

theorem length_normRow (rms : Bool) (r : Rnd) (eps : FP) (g b : Option (List FP)) (t : Nat) (l : List FP) : (normRow rms r eps g b t l).1.length = l.length := by
  cases rms <;> simp [normRow]

theorem length_normL2Row (r : Rnd) (bound : FP) (t : Nat) (l : List FP) : (normL2Row 1 r bound t l).1.length = l.length := by
  simp [normL2Row]

/-- A conversion of FP32 to BF16 gives one run of its elements. -/
theorem convPlain_fp32_bf16 (hp : s.poison = []) (d i n src dst sc : Nat) (e : QEntry) :
    ∃ (hazard : Bool) (st : Sticky) (x : ShpRun), x.off = dst ∧ x.vals.length = n ∧ (∀ k, x.pois k = false) ∧
      s.convPlain d i e 0 1 n false false false false { mode := 0 } src dst sc = s.shpDone d i 1 e { mode := 0 } hazard st [x] true := by
  have hpois (y k : Nat) : s.shpPois d i y 0 k = false := csPois_of_poison_nil hp d i _ _
  refine ⟨_, _, _, ?_, ?_, ?_, rfl⟩
  · rfl
  · exact (List.length_map _).trans List.length_range
  · intro k
    simp [hpois]

/-! ### The fields of the commands -/

/-- Source and destination of a command whose other bits of the word are zero. -/
theorem srcDst_fields {w : BitVec 64} (ha : a < 2 ^ 18) (ho : o < 2 ^ 18) (hw : w = BitVec.ofNat 64 (a + 2 ^ 18 * o)) :
    bits w 17 0 = a ∧ bits w 35 18 = o ∧ bits w 63 36 = 0 := by
  have hfield (hi lo : Nat) : bits w hi lo = (a + 2 ^ 18 * o) / 2 ^ lo % 2 ^ (hi + 1 - lo) := by rw [hw, bits_ofNat (by omega)]
  refine ⟨?_, ?_, ?_⟩ <;> rw [hfield] <;> omega

/-- COLS and one row. -/
theorem rowCols_fields {w : BitVec 64} {m : Nat} (hn : n < 2 ^ 14) (hm : m < 2 ^ 24) (hw : w = BitVec.ofNat 64 (n + 2 ^ 20 + 2 ^ 40 * m)) :
    bits w 19 0 = n ∧ bits w 39 20 = 1 ∧ bits w 63 40 = m := by
  have hfield (hi lo : Nat) : bits w hi lo = (n + 2 ^ 20 + 2 ^ 40 * m) / 2 ^ lo % 2 ^ (hi + 1 - lo) := by rw [hw, bits_ofNat (by omega)]
  refine ⟨?_, ?_, ?_⟩ <;> rw [hfield] <;> omega

/-! ### One row of each command -/

section
variable (hup : s.isUp = true) (hp : s.poison = []) (hm : memWf s.mem = true) (hcode : e.code = 0) (hn : 1 ≤ n) (hn14 : n < 2 ^ 14)
  (hsrc : 32 * a + 4 * n ≤ storeSize) (hdst : 32 * o + 4 * n ≤ storeSize) (h1 : qw e.word 1 = BitVec.ofNat 64 (a + 2 ^ 18 * o))
include hup hp hm hcode hn hn14 hsrc hdst h1

theorem shpReduce_one_row (h : s.readyCmd d i 4 0x41 e) (h2 : qw e.word 2 = BitVec.ofNat 64 (n + 2 ^ 20)) (h3 : qw e.word 3 = 0) :
    Completes (.shpReduce d i) s (fun t => s.storeOnly t d i (32 * o) 4 ∧ t.doneAs d i 4 e.id 0) := by
  obtain ⟨hA, hO, hr1⟩ := srcDst_fields (by unfold storeSize at hsrc; omega) (by unfold storeSize at hdst; omega) h1
  obtain ⟨hC, hR, hr2⟩ := rowCols_fields (m := 0) hn14 (by decide) h2
  have run : exec (.shpReduce d i) s = .next _ := shpDo_ready hup h _
  simp only [hA, hO, hC, hR, h3, bits_of_bits_zero hr1 59 56, bits_of_bits_zero hr1 63 60, bits_of_bits_zero hr1 55 36, bits_of_bits_zero hr2 42 40,
    bits_of_bits_zero hr2 44 43, bits_of_bits_zero hr2 46 45, bits_of_bits_zero hr2 63 48, bit_of_bits_zero hr2 47] at run
  exact ⟨_, run, rowsDo_fp32Row_spec (wide := false) hp h hn hm hcode hsrc (show 32 * o + 4 ≤ storeSize by omega) (fun _ _ h => absurd h (by decide)) _ _⟩

theorem softmax_one_row (h : s.readyCmd d i 4 0x42 e) (h2 : qw e.word 2 = BitVec.ofNat 64 (n + 2 ^ 20)) (h3 : bits (qw e.word 3) 63 56 = 0) :
    Completes (.softmax d i) s (fun t => s.storeOnly t d i (32 * o) (4 * n) ∧ t.doneAs d i 4 e.id 0) := by
  obtain ⟨hA, hO, hr1⟩ := srcDst_fields (by unfold storeSize at hsrc; omega) (by unfold storeSize at hdst; omega) h1
  obtain ⟨hC, hR, hr2⟩ := rowCols_fields (m := 0) hn14 (by decide) h2
  have run : exec (.softmax d i) s = .next _ := shpDo_ready hup h _
  simp only [hA, hO, hC, hR, h3, bits_of_bits_zero hr1 59 56, bits_of_bits_zero hr1 63 60, bits_of_bits_zero hr1 55 36, bits_of_bits_zero hr2 41 40,
    bits_of_bits_zero hr2 43 42, bits_of_bits_zero hr2 46 45, bits_of_bits_zero hr2 63 47, bit_of_bits_zero hr2 44] at run
  exact ⟨_, run, rowsDo_fp32Row_spec (wide := true) hp h hn hm hcode hsrc hdst (fun _ _ _ hl => (length_softmaxRow ..).trans hl) _ _⟩

theorem norm_one_row (h : s.readyCmd d i 4 0x43 e) (h2 : qw e.word 2 = BitVec.ofNat 64 (2 ^ 38 * n)) (h3 : bits (qw e.word 3) 63 32 = 1) :
    Completes (.norm d i) s (fun t => s.storeOnly t d i (32 * o) (4 * n) ∧ t.doneAs d i 4 e.id 0) := by
  obtain ⟨hA, hO, hr1⟩ := srcDst_fields (by unfold storeSize at hsrc; omega) (by unfold storeSize at hdst; omega) h1
  have hw2 (hi lo : Nat) : bits (qw e.word 2) hi lo = 2 ^ 38 * n / 2 ^ lo % 2 ^ (hi + 1 - lo) := by rw [h2, bits_ofNat (by omega)]
  have hC : bits (qw e.word 2) 57 38 = n := by rw [hw2]; omega
  have hlow2 : bits (qw e.word 2) 37 0 = 0 := by rw [hw2]; omega
  have hres2 : bits (qw e.word 2) 63 58 = 0 := by rw [hw2]; omega
  have hR : bits (qw e.word 3) 51 32 = 1 := bits_of_bits h3 51 32
  have hr3 : bits (qw e.word 3) 63 52 = 0 := bits_of_bits h3 63 52
  have run : exec (.norm d i) s = .next _ := shpDo_ready hup h _
  simp only [hA, hO, hC, hR, hres2, bits_of_bits_zero hr1 60 57, bits_of_bits_zero hr1 53 36, bits_of_bits_zero hr1 63 61, bit_of_bits_zero hr1 54,
    bit_of_bits_zero hr1 55, bit_of_bits_zero hr1 56, bits_of_bits_zero hlow2 17 0, bits_of_bits_zero hlow2 37 18, bits_of_bits_zero hr3 55 52,
    bits_of_bits_zero hr3 57 56, bits_of_bits_zero hr3 59 58, bits_of_bits_zero hr3 63 61, bit_of_bits_zero hr3 60, Bool.false_and, Bool.or_self] at run
  exact ⟨_, run, rowsDo_fp32Row_spec (wide := true) hp h hn hm hcode hsrc hdst (fun _ _ _ hl => (length_normRow ..).trans hl) _ _⟩

theorem normL2_one_row (h : s.readyCmd d i 4 0x44 e) (h2 : qw e.word 2 = BitVec.ofNat 64 (n + 2 ^ 20 + 2 ^ 40)) (h3 : bits (qw e.word 3) 63 32 = 0) :
    Completes (.normL2 d i) s (fun t => s.storeOnly t d i (32 * o) (4 * n) ∧ t.doneAs d i 4 e.id 0) := by
  obtain ⟨hA, hO, hr1⟩ := srcDst_fields (by unfold storeSize at hsrc; omega) (by unfold storeSize at hdst; omega) h1
  obtain ⟨hC, hR, hr2⟩ := rowCols_fields (m := 1) hn14 (by decide) h2
  have hM : bits (qw e.word 2) 41 40 = 1 := bits_of_bits hr2 41 40
  have hhigh2 : bits (qw e.word 2) 63 42 = 0 := bits_of_bits hr2 63 42
  have run : exec (.normL2 d i) s = .next _ := shpDo_ready hup h _
  simp only [hA, hO, hC, hR, hM, h3, bits_of_bits_zero hr1 59 56, bits_of_bits_zero hr1 63 60, bits_of_bits_zero hr1 55 36, bits_of_bits_zero hhigh2 43 42,
    bits_of_bits_zero hhigh2 45 44, bits_of_bits_zero hhigh2 63 47, bit_of_bits_zero hhigh2 46] at run
  exact ⟨_, run, rowsDo_fp32Row_spec (wide := true) hp h hn hm hcode hsrc hdst (fun _ _ _ hl => (length_normL2Row ..).trans hl) _ _⟩

/-- CONVERT of FP32 to BF16. -/
theorem convert_fp32_bf16 (h : s.readyCmd d i 4 0x45 e) (h32 : n % 32 = 0) (h2 : qw e.word 2 = BitVec.ofNat 64 (n + 2 ^ 46)) (h3 : qw e.word 3 = 0) :
    Completes (.convert d i) s (fun t => s.storeOnly t d i (32 * o) (2 * n) ∧ t.doneAs d i 4 e.id 0) := by
  obtain ⟨hd, hi⟩ := readyCmd_tile h
  obtain ⟨hA, hO, hr1⟩ := srcDst_fields (by unfold storeSize at hsrc; omega) (by unfold storeSize at hdst; omega) h1
  have hw2 (hi lo : Nat) : bits (qw e.word 2) hi lo = (n + 2 ^ 46) / 2 ^ lo % 2 ^ (hi + 1 - lo) := by rw [h2, bits_ofNat (by omega)]
  have hN : bits (qw e.word 2) 23 0 = n := by rw [hw2]; omega
  have hlow2 : bits (qw e.word 2) 45 24 = 0 := by rw [hw2]; omega
  have hF : bits (qw e.word 2) 49 46 = 1 := by rw [hw2]; omega
  have hhigh2 : bits (qw e.word 2) 63 50 = 0 := by rw [hw2]; omega
  have hne : n ≠ 0 := by omega
  have hlen : packLen 1 n = 2 * n := by
    simp only [packLen, fmtBits]
    omega
  have hinsrc : inStore (32 * a) (packLen 0 n) = true := inStore_of_le (by rw [packLen_fp32]; exact hsrc)
  have hindst : inStore (32 * o) (packLen 1 n) = true := inStore_of_le (by omega)
  have run : exec (.convert d i) s = .next (s.convertCmd d i e) := shpDo_ready hup h _
  rw [State.convertCmd] at run
  simp only [hA, hO, hN, hF, h3, h32, bits_of_bits_zero hr1 53 36, bits_of_bits_zero hr1 63 54, bits_of_bits_zero hlow2 41 24, bits_of_bits_zero hlow2 45 42,
    bits_of_bits_zero hhigh2 51 50, bits_of_bits_zero hhigh2 53 52, bits_of_bits_zero hhigh2 56 55, bits_of_bits_zero hhigh2 63 60, bit_of_bits_zero hhigh2 54,
    bit_of_bits_zero hhigh2 57, bit_of_bits_zero hhigh2 58, bit_of_bits_zero hhigh2 59, hinsrc, hindst, bne_iff_ne.mpr hne, if_neg hne,
    if_neg Bool.false_ne_true, if_neg Nat.zero_ne_one, Bool.and_false, Bool.or_false, show decide (5 ≤ 0) = false from rfl, show decide (5 ≤ 1) = false from rfl,
    Bool.false_and, show (0 == 2) = false from rfl] at run
  obtain ⟨hazard, st, x, hoff, hvals, hclean, hconv⟩ := convPlain_fp32_bf16 hp d i n (32 * a) (32 * o) (32 * 0) e
  obtain ⟨hstore, hdone, -⟩ := shpDone_one (worksOn_self h) hp hclean (show fmtBits 1 % 8 = 0 from rfl) hd hi hm hcode { mode := 0 } hazard st true
  rw [hoff, hvals, hlen] at hstore
  exact ⟨_, run.trans (congrArg Host.Outcome.next ((issueChecked_ready h rfl rfl _).trans hconv)), hstore, hdone⟩

end

/-! ### Commands of no elements, and malformed ones (R80, R85, R107) -/

theorem rowsDo_empty {op : Nat} (h : s.readyCmd d i 4 op e) {x : RowOp} (hx : x.empty = true) {bad : Bool} (hbad : (bad || x.bad) = false) (more : Bool) (draws : Nat)
    (extra : Nat → Bool) (hz : Bool) (st0 : Sticky) (f : Nat → Nat → List FP → List FP × Sticky) :
    s.rowsDo d i e x bad more draws extra hz st0 f = s.finish d i 4 e.id 0 0 := by
  have hrest : x.rest more = 0 := by rw [RowOp.rest, if_pos hx]
  rw [State.rowsDo, issueChecked_ready h hbad hrest, if_pos hx]

section
variable (hup : s.isUp = true) (h1 : qw e.word 1 = 0) (h2 : qw e.word 2 = 0) (h3 : qw e.word 3 = 0)
include hup h1 h2 h3

theorem eltwise_empty (h : s.readyCmd d i 4 0x40 e) : exec (.eltwise d i) s = .next (s.finish d i 4 e.id 0 0) := by
  have run : exec (.eltwise d i) s = .next (s.eltwise d i e) := shpDo_ready hup h _
  simp only [State.eltwise, h1, h2, h3] at run
  exact run.trans (congrArg Host.Outcome.next (issueChecked_ready h rfl rfl _))

theorem shpReduce_empty (h : s.readyCmd d i 4 0x41 e) : exec (.shpReduce d i) s = .next (s.finish d i 4 e.id 0 0) := by
  have run : exec (.shpReduce d i) s = .next _ := shpDo_ready hup h _
  simp only [h1, h2, h3] at run
  exact run.trans (congrArg Host.Outcome.next (rowsDo_empty h rfl rfl ..))

theorem softmax_empty (h : s.readyCmd d i 4 0x42 e) : exec (.softmax d i) s = .next (s.finish d i 4 e.id 0 0) := by
  have run : exec (.softmax d i) s = .next _ := shpDo_ready hup h _
  simp only [h1, h2, h3] at run
  exact run.trans (congrArg Host.Outcome.next (rowsDo_empty h rfl rfl ..))

theorem norm_empty (h : s.readyCmd d i 4 0x43 e) : exec (.norm d i) s = .next (s.finish d i 4 e.id 0 0) := by
  have run : exec (.norm d i) s = .next _ := shpDo_ready hup h _
  simp only [h1, h2, h3] at run
  exact run.trans (congrArg Host.Outcome.next (rowsDo_empty h rfl rfl ..))

theorem normL2_empty (h : s.readyCmd d i 4 0x44 e) : exec (.normL2 d i) s = .next (s.finish d i 4 e.id 0 0) := by
  have run : exec (.normL2 d i) s = .next _ := shpDo_ready hup h _
  simp only [h1, h2, h3] at run
  exact run.trans (congrArg Host.Outcome.next (rowsDo_empty h rfl rfl ..))

theorem convert_empty (h : s.readyCmd d i 4 0x45 e) : exec (.convert d i) s = .next (s.finish d i 4 e.id 0 0) := by
  have run : exec (.convert d i) s = .next (s.convertCmd d i e) := shpDo_ready hup h _
  simp only [State.convertCmd, h1, h2, h3] at run
  exact run.trans (congrArg Host.Outcome.next (issueChecked_ready h rfl rfl _))

theorem shpGather_empty (h : s.readyCmd d i 4 0x46 e) : exec (.shpGather d i) s = .next (s.finish d i 4 e.id 0 0) := by
  have run : exec (.shpGather d i) s = .next _ := shpDo_ready hup h _
  simp only [h1, h2, h3] at run
  exact run.trans (congrArg Host.Outcome.next (issueChecked_ready h rfl rfl _))

end

theorem shpReduce_malformed (hup : s.isUp = true) (h3 : qw e.word 3 ≠ 0) (h : s.readyCmd d i 4 0x41 e) :
    exec (.shpReduce d i) s = .next (s.refuse d i 4 e.id 0x1001) := by
  have run : exec (.shpReduce d i) s = .next _ := shpDo_ready hup h _
  simp only [State.rowsDo, bne_iff_ne.mpr h3, Bool.or_true, Bool.true_or] at run
  exact run.trans (congrArg Host.Outcome.next (issueChecked_malformed rfl _ _))

theorem convert_malformed (hup : s.isUp = true) (h3 : qw e.word 3 ≠ 0) (h : s.readyCmd d i 4 0x45 e) :
    exec (.convert d i) s = .next (s.refuse d i 4 e.id 0x1001) := by
  have run : exec (.convert d i) s = .next (s.convertCmd d i e) := shpDo_ready hup h _
  simp only [State.convertCmd, bne_iff_ne.mpr h3, Bool.or_true, Bool.true_or] at run
  exact run.trans (congrArg Host.Outcome.next (issueChecked_malformed rfl _ _))

/-! ### The obligation -/

/-- Settles O15: each row command of one row writes one run of its values; commands of no elements end, and malformed ones are refused. -/
theorem shapingRowCommandsWriteOnlyTheirResult : Obligations.ShapingRowCommandsWriteOnlyTheirResult := by
  unfold Obligations.ShapingRowCommandsWriteOnlyTheirResult
  refine ⟨fun s d i a o n e hup hp hm hcode hn hn14 hsrc hdst => ?oneRow, fun s d i e hup h1 h2 => ?noElements⟩
  case oneRow =>
    exact ⟨fun h h1 h2 h3 => shpReduce_one_row hup hp hm hcode hn hn14 hsrc hdst h1 h h2 h3,
      fun h h1 h2 h3 => softmax_one_row hup hp hm hcode hn hn14 hsrc hdst h1 h h2 h3,
      fun h h1 h2 h3 => norm_one_row hup hp hm hcode hn hn14 hsrc hdst h1 h h2 h3,
      fun h h1 h2 h3 => normL2_one_row hup hp hm hcode hn hn14 hsrc hdst h1 h h2 h3,
      fun h h32 h1 h2 h3 => convert_fp32_bf16 hup hp hm hcode hn hn14 hsrc hdst h1 h h32 h2 h3⟩
  case noElements =>
    exact ⟨fun h h3 => eltwise_empty hup h1 h2 h3 h, fun h h3 => shpReduce_empty hup h1 h2 h3 h, fun h h3 => softmax_empty hup h1 h2 h3 h,
      fun h h3 => norm_empty hup h1 h2 h3 h, fun h h3 => normL2_empty hup h1 h2 h3 h, fun h h3 => convert_empty hup h1 h2 h3 h,
      fun h h3 => shpGather_empty hup h1 h2 h3 h, fun h h3 => shpReduce_malformed hup h3 h, fun h h3 => convert_malformed hup h3 h⟩

end Sys2Proof.Machine
end

section
/-! PROOFS. SSU commands: the command at work, what its end changes, and the stacks' own updates (R118, R119). -/

namespace Sys2Proof.Machine

variable {s : State} {l c k op : Nat} {e : SsuCmd}

/-! ### A stack's state -/

theorem served_lt (h : s.served l = true) : l < 32 := by
  simp only [State.served, Bool.and_eq_true, decide_eq_true_eq] at h
  exact h.1

theorem ready_lt (h : s.ready l = true) : l < 32 := by
  simp only [State.ready, Bool.and_eq_true] at h
  exact served_lt h.1

/-- Only the last of two writes to one stack stays. -/
@[simp] theorem withStack_withStack (l : Nat) (x y : Stack) : (s.withStack l x).withStack l y = s.withStack l y := by
  simp [State.withStack]

theorem modSsu_head (hl : l < 32) {q : List SsuCmd} (hq : (s.stack l).queue c k = e :: q) (f : SsuCmd → SsuCmd) :
    s.modSsu l c k f = s.withStack l ((s.stack l).setQueue c k (f e :: q)) := by
  rw [State.modSsu, modStack_eq hl, hq]
  rfl

/-- `s` with window `n` of stack `l` holding `w`, and nothing else changed. -/
def State.withWin (s : State) (l n : Nat) (w : Window) : State := s.withStack l { s.stack l with wins := (s.stack l).wins.put n w }

@[simp] theorem stack_withWin (s : State) (l n : Nat) (w : Window) : (s.withWin l n w).stack l = { s.stack l with wins := (s.stack l).wins.put n w } :=
  stack_withStack ..

theorem modWin_eq (hl : l < 32) {n : Nat} (hn : (s.stack l).wins.has n = true) (f : Window → Window) :
    s.modWin l n f = s.withWin l n (f ((s.stack l).wins.look n {})) := by
  rw [State.modWin, modStack_eq hl, if_pos hn, State.withWin]

/-! ### A command at work -/

theorem going_op (h : s.ssuGoing l c k op e) : e.op = op := by
  obtain ⟨-, -, -, hop, -⟩ := h
  exact hop

theorem going_lt (h : s.ssuGoing l c k op e) : l < 32 := ready_lt h.1

/-- A command at work does what its opcode says. -/
theorem ssuRow_going (h : s.ssuGoing l c k op e) (f : State → SsuCmd → State) : s.ssuRow l c k op f = f s e := by
  obtain ⟨hready, ⟨q, hq⟩, hst, hop, hstale, hcheck⟩ := h
  simp [State.ssuRow, hq, hready, hst, hop, hstale, hcheck]

/-- An instruction that is one row of the command at work runs that row. -/
theorem exec_ssuRow (hup : s.isUp = true) (h : s.ssuGoing l c k op e) {i : Instr} {f : State → SsuCmd → State}
    (hi : exec i s = upDo s (fun s => s.ssuRow l c k op f)) : exec i s = .next (f s e) := by
  rw [hi, upDo_up hup, ssuRow_going h]

/-! ### The end of a command (R119) -/

theorem dropSsu_only_stk (s : State) (c k id : Nat) : ∃ x, s.dropSsu c k id = { s with stk := x } := by
  unfold State.dropSsu
  generalize List.range 32 = ls
  induction ls generalizing s with
  | nil => exact ⟨s.stk, rfl⟩
  | cons m ls ih =>
    rw [List.foldl_cons]
    split
    · obtain ⟨x, hx⟩ := ih (s.modStack m fun t => t.setQueue c k ((t.queue c k).filter fun x => !(x.ring == k && x.index == id)))
      refine ⟨x, hx.trans ?_⟩
      unfold State.modStack
      split <;> rfl
    · exact ih s

/-- A stack changed only in its queues. -/
theorem stack_modStack_queues (s : State) (m l : Nat) (f : Stack → Stack) (hf : ∀ t : Stack, ∃ x, f t = { t with queues := x }) :
    ∃ x, (s.modStack m f).stack l = { s.stack l with queues := x } := by
  unfold State.modStack
  split
  · by_cases h : l = m
    · obtain ⟨x, hx⟩ := hf (s.stack m)
      exact ⟨x, by rw [h, ← hx]; exact stack_withStack m _⟩
    · exact ⟨(s.stack l).queues, stack_withStack_ne h _⟩
  · exact ⟨(s.stack l).queues, rfl⟩

/-- Of a stack, a command that leaves its queue changes the queues alone. -/
theorem stack_dropSsu (s : State) (c k id l : Nat) : ∃ x, (s.dropSsu c k id).stack l = { s.stack l with queues := x } := by
  unfold State.dropSsu
  generalize List.range 32 = ls
  induction ls generalizing s with
  | nil => exact ⟨(s.stack l).queues, rfl⟩
  | cons m ls ih =>
    rw [List.foldl_cons]
    split
    · obtain ⟨x, hx⟩ := ih (s.modStack m fun t => t.setQueue c k ((t.queue c k).filter fun x => !(x.ring == k && x.index == id)))
      obtain ⟨y, hy⟩ := stack_modStack_queues s m l (fun t => t.setQueue c k ((t.queue c k).filter fun x => !(x.ring == k && x.index == id))) (fun t => ⟨_, rfl⟩)
      exact ⟨x, by rw [hx, hy]⟩
    · exact ih s

/-- The end of a command changes its ring and the queues of its stack. -/
theorem ssuEnd_only (s : State) (c : Nat) (e : SsuCmd) (code : BitVec 16) (st : Sticky) (detail : Nat) :
    ∃ x y, s.ssuEnd c e code st detail = { s with cmpts := x, stk := y } := by
  obtain ⟨x, hx⟩ := modDesc_only_cmpts s c e.ring e.index (fun d => { d with detail := BitVec.ofNat 64 detail })
  obtain ⟨y, hy⟩ := modDesc_only_cmpts (s.setDetail c e.ring e.index (BitVec.ofNat 64 detail)) c e.ring e.index (fun d => d.settle code st true)
  obtain ⟨z, hz⟩ := dropSsu_only_stk ((s.setDetail c e.ring e.index (BitVec.ofNat 64 detail)).modDesc c e.ring e.index (fun d => d.settle code st true)) c e.ring e.index
  refine ⟨y, z, hz.trans ?_⟩
  rw [hy, State.setDetail, hx]

theorem stack_ssuEnd (s : State) (c : Nat) (e : SsuCmd) (code : BitVec 16) (st : Sticky) (detail l : Nat) :
    ∃ x, (s.ssuEnd c e code st detail).stack l = { s.stack l with queues := x } := by
  obtain ⟨x, hx⟩ := modDesc_only_cmpts s c e.ring e.index (fun d => { d with detail := BitVec.ofNat 64 detail })
  obtain ⟨y, hy⟩ := modDesc_only_cmpts (s.setDetail c e.ring e.index (BitVec.ofNat 64 detail)) c e.ring e.index (fun d => d.settle code st true)
  obtain ⟨z, hz⟩ := stack_dropSsu ((s.setDetail c e.ring e.index (BitVec.ofNat 64 detail)).modDesc c e.ring e.index (fun d => d.settle code st true)) c e.ring e.index l
  refine ⟨z, hz.trans ?_⟩
  rw [hy, State.setDetail, hx]
  rfl

@[simp] theorem ssuEnd_mem (s : State) (c : Nat) (e : SsuCmd) (code : BitVec 16) (st : Sticky) (detail : Nat) :
    (s.ssuEnd c e code st detail).mem = s.mem := by
  obtain ⟨x, y, h⟩ := ssuEnd_only s c e code st detail
  rw [h]

@[simp] theorem wins_ssuEnd (s : State) (c : Nat) (e : SsuCmd) (code : BitVec 16) (st : Sticky) (detail l : Nat) :
    ((s.ssuEnd c e code st detail).stack l).wins = (s.stack l).wins := by
  obtain ⟨x, h⟩ := stack_ssuEnd s c e code st detail l
  rw [h]

end Sys2Proof.Machine
end

section
/-! PROOFS. A plain range of memory: no cache holds a line of it and it lies in no guarded area, so that an SSU reads and writes it as memory itself (R168, R178, R179, R182). -/

namespace Sys2Proof.Machine

variable {s t : State} {a n c va : Nat}

/-! ### Stack and offset of an address (R168) -/

theorem paLs_lsBase {m x : Nat} (hx : x < 0x8_0000_0000) : paLs (lsBase m + x) = m := by
  unfold paLs lsBase
  omega

theorem paOff_lsBase {m x : Nat} (hx : x < 0x8_0000_0000) : paOff (lsBase m + x) = x := by
  unfold paOff lsBase
  omega

theorem lsBase_paLs_add_paOff (a : Nat) : lsBase (paLs a) + paOff a = a := by
  unfold lsBase paLs paOff
  omega

theorem inStacks_of_paLs {a b : Nat} (h : inStacks a = true) (hls : paLs b = paLs a) : inStacks b = true := by
  simp only [inStacks, decide_eq_true_eq, paLs] at *
  omega

/-! ### Ranges outside the guarded areas -/

/-- No byte of a range lies in a guarded area. -/
def State.unguarded (s : State) (a n : Nat) : Prop := ∀ b, a ≤ b → b < a + n → inStacks b = true → s.isGuarded (paLs b) (paOff b) = false

theorem stripeOf_of_not_isGuarded {m o : Nat} (h : s.isGuarded m o = false) : s.stripeOf m o = none := Option.not_isSome_iff_eq_none.mp (Bool.eq_false_iff.mp h)

/-- A part of a range outside the guarded areas. -/
theorem unguarded_mono {b m : Nat} (h : s.unguarded a n) (h1 : a ≤ b) (h2 : b + m ≤ a + n) : s.unguarded b m :=
  fun x hx1 hx2 => h x (by omega) (by omega)

theorem unguarded_of_guarded_nil (h : s.guarded = []) (a n : Nat) : s.unguarded a n := by
  intro b _ _ _
  simp [State.isGuarded, State.stripeOf, h]

/-! ### Reads -/

/-- Pieces outside the guarded areas meet no sector of one. -/
theorem meetsSec_unguarded {ps : List (Nat × Nat)} (h : ∀ p ∈ ps, 1 ≤ p.2 ∧ s.unguarded p.1 p.2) (m o : Nat) : s.meetsSec ps m o = false := by
  by_contra hmeet
  rw [Bool.not_eq_false] at hmeet
  simp only [State.meetsSec, Bool.and_eq_true, decide_eq_true_eq, List.any_eq_true, beq_iff_eq] at hmeet
  obtain ⟨ho, p, hp, ⟨⟨⟨hin, hm⟩, hlo⟩, hhi⟩, hg⟩ := hmeet
  obtain ⟨hpos, hu⟩ := h p hp
  have hoff : paOff p.1 < 0x8_0000_0000 := Nat.mod_lt _ (by decide)
  have hp1 := lsBase_paLs_add_paOff p.1
  have hx : max (paOff p.1) o < 0x8_0000_0000 := max_lt hoff ho
  have hls := paLs_lsBase (m := paLs p.1) hx
  have hfree := hu (lsBase (paLs p.1) + max (paOff p.1) o) (by omega) (by omega) (inStacks_of_paLs hin hls)
  rw [hls, paOff_lsBase hx, hm, hg] at hfree
  cases hfree

/-- A read outside the guarded areas waits for no rebuild and is served by none. -/
theorem readGate_unguarded {ps : List (Nat × Nat)} (h : ∀ p ∈ ps, 1 ≤ p.2 ∧ s.unguarded p.1 p.2) (o : Origin) : s.readGate o ps = (s, false) := by
  have hwait : s.readWaits ps = false := by simp [State.readWaits, meetsSec_unguarded h]
  have hnone : ps.filter (fun p => inStacks p.1 && decide (0 < p.2) && s.isGuarded (paLs p.1) (paOff p.1)) = [] := by
    rw [List.filter_eq_nil_iff]
    intro p hp hp'
    simp only [Bool.and_eq_true, decide_eq_true_eq] at hp'
    obtain ⟨⟨hin, hpos⟩, hg⟩ := hp'
    rw [(h p hp).2 p.1 (Nat.le_refl _) (by omega) hin] at hg
    cases hg
  simp only [State.readGate, hwait, State.readRebuilt, hnone]
  rfl

/-! ### Writes -/

/-- A sector outside the guarded areas has no parity to keep. -/
theorem ssuSec_unguarded (h : inStacks a = true → s.isGuarded (paLs a) (paOff a) = false) (c : Nat) (l : List Byte) : s.ssuSec c a l = s.wrSec a l := by
  unfold State.ssuSec
  cases hin : inStacks a
  · rfl
  · simp only [stripeOf_of_not_isGuarded (h hin), if_true]

theorem unguarded_wrSec (h : s.unguarded a n) (b : Nat) (l : List Byte) : (s.wrSec b l).unguarded a n := by
  obtain ⟨m, p, hw⟩ := wrSec_only_memory s b l
  rw [hw]
  exact h

theorem ssuGo_unguarded (fuel : Nat) {l : List Byte} (h : s.unguarded a l.length) (c : Nat) : State.ssuGo fuel s c a l = State.wrGo fuel s a l := by
  induction fuel generalizing s a l with
  | zero => rfl
  | succ m ih =>
    simp only [State.ssuGo, State.wrGo, List.isEmpty_iff]
    split
    next => rfl
    next hl =>
      have hpos : 0 < l.length := List.length_pos_iff.mpr hl
      rw [ssuSec_unguarded (h a (Nat.le_refl a) (by omega))]
      exact ih (unguarded_wrSec (unguarded_mono h (by omega) (by simp only [List.length_drop]; omega)) _ _)

/-- Bytes without poison written outside the guarded areas are written to memory and nowhere else. -/
theorem ssuWrPois_unguarded {l : List Byte} (h : s.unguarded a l.length) (c : Nat) {bad : Nat → Bool} (hbad : ∀ j, bad j = false) :
    s.ssuWrPois c a l bad = s.wr a l := by
  have hwr : s.ssuWr c a l = s.wr a l := ssuGo_unguarded _ h c
  have hany (m k : Nat) : (List.range m).any (fun i => bad (k + i)) = false := List.any_eq_false.mpr (fun i _ => by rw [hbad]; exact Bool.false_ne_true)
  simp only [State.ssuWrPois, hwr]
  exact List.foldl_fixed' (fun sec => if_neg (by rw [hany]; exact Bool.false_ne_true)) _

theorem uncached_coh (h : s.uncached a n) : s.coh = [] := h.1

theorem refresh_of_coh_nil (h : s.coh = []) (a n : Nat) : s.refresh a n = s := by
  rw [State.refresh, h]
  exact withCoh_self h

theorem uncached_icMark (h : s.uncached a n) (b m : Nat) : (s.icMark b m).uncached a n := by
  unfold State.icMark
  split
  · exact uncached_modCore h ..
  · exact h

theorem wr_coh (s : State) (a : Nat) (l : List Byte) : (s.wr a l).coh = s.coh := by
  obtain ⟨m, p, hw⟩ := wr_only_memory s a l
  rw [hw]

/-- An uncached range outside the guarded areas takes bytes without poison as memory does. -/
theorem writePieces_unguarded (hc : s.uncached a n) (hu : s.unguarded a n) (hp : s.poison = []) (c : Nat) {l : List Byte} (hl : l.length = n) {bad : List Bool}
    (hbad : ∀ j : Nat, bad[j]?.getD false = false) : s.writePieces c [(a, n)] l bad = ((s.icMark a n).wr a l, false) := by
  subst hl
  have hu' : (s.icMark a l.length).unguarded a l.length := by
    obtain ⟨x, hx⟩ := icMark_only_tiles s a l.length
    rw [hx]
    exact hu
  have hcoh : ((s.icMark a l.length).wr a l).coh = [] := (wr_coh ..).trans (uncached_coh (uncached_icMark hc a l.length))
  simp only [State.writePieces, List.take_length, State.ncWrite, settle_uncached (uncached_icMark hc a l.length), ssuWrPois_unguarded hu' c hbad,
    refresh_of_coh_nil hcoh, partPois_of_poison_nil hp, Bool.or_false]

theorem poison_wrSec (hp : s.poison = []) (a : Nat) (l : List Byte) : (s.wrSec a l).poison = [] := by
  unfold State.wrSec
  split
  · simp [hp, setPois]
  · split <;> exact hp

/-- A write adds no poison. -/
theorem poison_wr (hp : s.poison = []) (a : Nat) (l : List Byte) : (s.wr a l).poison = [] := by
  have hgo (fuel : Nat) : ∀ {s : State} (_ : s.poison = []) (a : Nat) (l : List Byte), (State.wrGo fuel s a l).poison = [] := by
    induction fuel with
    | zero => exact fun hp _ _ => hp
    | succ m ih =>
      intro s hp a l
      simp only [State.wrGo]
      split
      · exact hp
      · exact ih (poison_wrSec hp _ _) _ _
  exact hgo _ hp a l

/-! ### Ranges of virtual addresses -/

theorem plainAt_pieces (h : s.plainAt c va n a) : s.vaPieces c va n = [(a, n)] := h.1

theorem plainAt_present (h : s.plainAt c va n a) : s.vaAbsent c va n = none := by
  obtain ⟨-, habs, -⟩ := h
  exact habs

theorem plainAt_uncached (h : s.plainAt c va n a) : s.uncached a n := by
  obtain ⟨-, -, hunc, -⟩ := h
  exact hunc

theorem plainAt_pos (h : s.plainAt c va n a) : 1 ≤ n := by
  obtain ⟨hpieces, -⟩ := h
  by_contra hn
  rw [Nat.lt_one_iff.mp (Nat.not_le.mp hn), vaPieces_zero] at hpieces
  cases hpieces

theorem plainAt_unguarded (h : s.plainAt c va n a) : s.unguarded a n := by
  obtain ⟨-, -, -, hstripe⟩ := h
  intro b h1 h2 hb
  have ha : inStacks a = true := by
    simp only [inStacks, decide_eq_true_eq] at hb ⊢
    omega
  have hj := hstripe ha (b - a) (by omega)
  rw [Nat.add_sub_cancel' h1] at hj
  rw [State.isGuarded, hj]
  rfl

/-- A plain range is read as memory holds it. -/
theorem vaRead_plain (h : s.plainAt c va n a) (hp : s.poison = []) : s.vaRead c va n = (s, memGets s.mem a n, List.replicate n false) := by
  rw [State.vaRead, plainAt_pieces h, readPieces_uncached (plainAt_uncached h) hp]

/-- A read of plain ranges passes the gate. -/
theorem readGate_plain (h : s.plainAt c va n a) (o : Origin) : s.readGate o (s.vaPieces c va n) = (s, false) := by
  refine readGate_unguarded (fun p hp => ?_) o
  rw [plainAt_pieces h, List.mem_singleton] at hp
  subst hp
  exact ⟨plainAt_pos h, plainAt_unguarded h⟩

/-! ### DIRTY of host-backed pages (R214) -/

/-- Marking a slot dirty moves no page: of the entry found, and of one not found, only bit 62 is set. -/
theorem find?_put_of_agree {α : Type} (p : Nat × α → Bool) (f : α → α) (d : α) (hf : ∀ k v, p (k, f v) = p (k, v)) (hd : ∀ k, p (k, d) = false) (t : Tab α) (k : Nat) :
    ((Tab.put t k (f (Tab.look t k d))).find? p).map (·.1) = (t.find? p).map (·.1) := by
  induction t with
  | nil =>
    rw [Tab.look_nil, Tab.put, List.find?_cons_of_neg (by rw [hf, hd]; exact Bool.false_ne_true)]
  | cons x t ih =>
    obtain ⟨k', v⟩ := x
    simp only [Tab.put, Tab.look]
    split
    next hlt =>
      have h1 : ¬ k' = k := by omega
      rw [if_neg h1, List.find?_cons_of_neg (by rw [hf, hd]; exact Bool.false_ne_true)]
    next hge =>
      split
      next heq =>
        subst heq
        simp only [if_true, List.find?_cons, hf]
        split <;> rfl
      next hne =>
        simp only [List.find?_cons, if_neg (Ne.symm hne)]
        split
        · rfl
        · exact ih

/-- A compartment whose landing slot `k` is marked dirty. -/
def Cmpt.dirtied (k : Nat) (m : Cmpt) : Cmpt := { m with resmap := m.resmap.put k (setBit (m.resmap.look k 0) 62 true) }

theorem bit_setBit_ne {n i j : Nat} (h : j ≠ i) (x : BitVec n) : bit (setBit x i true) j = bit x j := by
  simp only [bit, setBit, if_true, BitVec.getLsbD_or, BitVec.getLsbD_ofNat, Nat.testBit_two_pow_of_ne (Ne.symm h), Bool.and_false, Bool.or_false]

theorem bits_setBit_above {n i hi lo : Nat} (h : hi < i) (x : BitVec n) : bits (setBit x i true) hi lo = bits x hi lo := by
  apply Nat.eq_of_testBit_eq
  intro j
  rw [testBit_bits, testBit_bits]
  by_cases hj : j < hi + 1 - lo
  · have hbit := bit_setBit_ne (j := lo + j) (i := i) (by omega) x
    rw [bit, bit] at hbit
    rw [hbit]
  · rw [decide_eq_false hj, Bool.false_and, Bool.false_and]

/-- Whether an entry of the residency map holds a page that no page-out takes out. -/
def holdsPage (i page : Nat) (e : Nat × BitVec 64) : Bool := bit e.2 63 && !bit e.2 61 && bits e.2 51 48 == i && bits e.2 18 0 == page

theorem slotOf_eq (s : State) (c i page : Nat) : s.slotOf c i page = ((s.cmpt c).resmap.find? (holdsPage i page)).map (·.1) := rfl

theorem slot_dirtied (m : Cmpt) (k i page : Nat) :
    ((m.dirtied k).resmap.find? (holdsPage i page)).map (·.1) = (m.resmap.find? (holdsPage i page)).map (·.1) := by
  refine find?_put_of_agree (holdsPage i page) (fun v => setBit v 62 true) 0 (fun k v => ?_) (fun k => by simp [holdsPage, bit]) m.resmap k
  simp only [holdsPage, bit_setBit_ne (show 63 ≠ 62 by decide), bit_setBit_ne (show 61 ≠ 62 by decide), bits_setBit_above (show 51 < 62 by decide),
    bits_setBit_above (show 18 < 62 by decide)]

/-- From `s` to `t` every segment maps as before. -/
def State.mapsAs (s t : State) : Prop := t.guarded = s.guarded ∧ (∀ c i, t.seg c i = s.seg c i) ∧ ∀ c i e x, t.place c i e x = s.place c i e x

theorem cmpt_modCmpt (s : State) (c c' : Nat) (f : Cmpt → Cmpt) : (s.modCmpt c f).cmpt c' = if c' = c ∧ c < 64 then f (s.cmpt c') else s.cmpt c' := by
  unfold State.modCmpt
  split
  next h =>
    by_cases hc : c' = c
    · simp [State.cmpt, hc, h]
    · simp [State.cmpt, hc]
  next h => simp [h]

theorem mapsAs_dirtied (s : State) (c k : Nat) : s.mapsAs (s.modCmpt c (Cmpt.dirtied k)) := by
  have hslot (c' i page : Nat) : (s.modCmpt c (Cmpt.dirtied k)).slotOf c' i page = s.slotOf c' i page := by
    rw [slotOf_eq, slotOf_eq, cmpt_modCmpt]
    split
    · exact slot_dirtied ..
    · rfl
  have hplan (c' : Nat) : ((s.modCmpt c (Cmpt.dirtied k)).cmpt c').plan = (s.cmpt c').plan := by
    rw [cmpt_modCmpt]
    split <;> rfl
  refine ⟨by simp, fun c' i => ?_, fun c' i e x => ?_⟩
  · rw [State.seg, cmpt_modCmpt]
    split <;> rfl
  · simp only [State.place, hslot, hplan, State.area, modCmpt_guarded]

/-- Marking slots dirty changes compartments only, and moves no page. -/
theorem markDirtySlots_only (s : State) (c i : Nat) (e : Seg) (x n : Nat) :
    ∃ y, s.markDirtySlots c i e x n = { s with cmpts := y } ∧ s.mapsAs { s with cmpts := y } := by
  unfold State.markDirtySlots
  split
  · generalize pieces x n = ps
    induction ps generalizing s with
    | nil => exact ⟨s.cmpts, rfl, rfl, fun _ _ => rfl, fun _ _ _ _ => rfl⟩
    | cons p ps ih =>
      rw [List.foldl_cons]
      split
      next k _ =>
        obtain ⟨y, hy, hg, hs, hp⟩ := ih (s.modCmpt c (Cmpt.dirtied k))
        obtain ⟨hg', hs', hp'⟩ := mapsAs_dirtied s c k
        have heq : { s.modCmpt c (Cmpt.dirtied k) with cmpts := y } = { s with cmpts := y } := by
          unfold State.modCmpt
          split <;> rfl
        rw [heq] at hy hs hp
        exact ⟨y, hy, rfl, fun c i => (hs c i).trans (hs' c i), fun c i e x => (hp c i e x).trans (hp' c i e x)⟩
      next => exact ih s
  · exact ⟨s.cmpts, rfl, rfl, fun _ _ => rfl, fun _ _ _ _ => rfl⟩

/-! ### Bytes stored in a plain range -/

/-- A range stays plain where every segment maps as before and no line enters a cache. -/
theorem plainAt_of_mapsAs (hm : s.mapsAs t) (hc : ∀ a n, s.uncached a n → t.uncached a n) (h : s.plainAt c va n a) : t.plainAt c va n a := by
  obtain ⟨hg, hs, hp⟩ := hm
  obtain ⟨hpieces, habs, hunc, hstripe⟩ := h
  refine ⟨?_, ?_, hc a n hunc, fun hin j hj => ?_⟩
  · simpa only [State.vaPieces, State.opPieces, State.physPieces, hs, hp] using hpieces
  · simpa only [State.vaAbsent, State.opAbsent, State.firstAbsent, hs, hp] using habs
  · simpa only [State.stripeOf, hg] using hstripe hin j hj

/-- From `s` to `t` the bytes `l` have been stored at `a`: memory is free of poison, and every plain range stays plain. -/
def State.stored (s t : State) (a : Nat) (l : List Byte) : Prop :=
  t.mem = memPuts s.mem a l ∧ t.poison = [] ∧ ∀ c va n b, s.plainAt c va n b → t.plainAt c va n b

theorem stored_poison {l : List Byte} (h : s.stored t a l) : t.poison = [] := by
  obtain ⟨-, hp, -⟩ := h
  exact hp

theorem stored_plainAt {l : List Byte} {b : Nat} (h : s.stored t a l) (hb : s.plainAt c va n b) : t.plainAt c va n b := by
  obtain ⟨-, -, hplain⟩ := h
  exact hplain c va n b hb

theorem stored_memGets {l : List Byte} (h : s.stored t a l) (hm : memWf s.mem = true) (hl : l.length = n) : memGets t.mem a n = l := by
  rw [h.1, ← hl, memGets_memPuts hm]

theorem stored_ne {l : List Byte} (h : s.stored t a l) (hm : memWf s.mem = true) {b : Nat} (hb : b < a ∨ a + l.length ≤ b) : memGet t.mem b = memGet s.mem b := by
  rw [h.1, memGet_memPuts_ne hm hb]

theorem stored_memWf {l : List Byte} (h : s.stored t a l) (hm : memWf s.mem = true) : memWf t.mem = true := by
  rw [h.1]
  exact memWf_memPuts hm a

theorem stored_markDirtySlots {l : List Byte} (h : s.stored t a l) (c i : Nat) (e : Seg) (x n : Nat) : s.stored (t.markDirtySlots c i e x n) a l := by
  obtain ⟨hmem, hpois, hplain⟩ := h
  obtain ⟨y, hy, hmaps⟩ := markDirtySlots_only t c i e x n
  rw [hy]
  exact ⟨hmem, hpois, fun c va n b hb => plainAt_of_mapsAs hmaps (fun _ _ h => h) (hplain c va n b hb)⟩

/-- A plain range takes bytes without poison as memory does. -/
theorem writePieces_plain (h : s.plainAt c va n a) (hp : s.poison = []) (c' : Nat) {l : List Byte} (hl : l.length = n) {bad : List Bool}
    (hbad : ∀ j : Nat, bad[j]?.getD false = false) : ∃ t, s.writePieces c' [(a, n)] l bad = (t, false) ∧ s.stored t a l := by
  obtain ⟨x, hx⟩ := icMark_only_tiles s a n
  have hp' : (s.icMark a n).poison = [] := by rw [hx]; exact hp
  obtain ⟨m, p, hw⟩ := wr_only_memory (s.icMark a n) a l
  refine ⟨_, writePieces_unguarded (plainAt_uncached h) (plainAt_unguarded h) hp c' hl hbad, ?_, poison_wr hp' a l, fun c va n b hb => ?_⟩
  · rw [wr_mem_of_clean (pois_of_poison_nil hp' _ _), icMark_mem]
  · rw [hw]
    refine plainAt_of_mapsAs (s := s) ?_ (fun b n hu => ?_) hb
    · rw [hx]
      exact ⟨rfl, fun _ _ => rfl, fun _ _ _ _ => rfl⟩
    · exact uncached_icMark hu a _

/-- A write to a plain range of virtual addresses stores its bytes. -/
theorem vaWrite_plain (h : s.plainAt c va n a) (hp : s.poison = []) {l : List Byte} (hl : l.length = n) {bad : List Bool}
    (hbad : ∀ j : Nat, bad[j]?.getD false = false) : ∃ t, s.vaWrite c va l bad = (t, false) ∧ s.stored t a l := by
  obtain ⟨t, ht, hst⟩ := writePieces_plain h hp c hl hbad
  refine ⟨t.markDirtySlots c (vaSeg va) (s.seg c (vaSeg va)) (vaOff va) l.length, ?_, stored_markDirtySlots hst ..⟩
  rw [State.vaWrite, hl, plainAt_pieces h, ht]

end Sys2Proof.Machine
end

section
/-! PROOFS. O16: the start of SSU commands, and windows that open, close and are freed (R118, R119, R121 to R124, R131, R148, R161). -/

namespace Sys2Proof.Machine

variable {s : State} {l c k : Nat} {e : SsuCmd}

/-! ### The start of a queue's head (R118, R161) -/

/-- A refused command is counted and ends with its code. -/
theorem ssuRefuse_eq (hl : l < 32) (c : Nat) (e : SsuCmd) (code : BitVec 16) :
    s.ssuRefuse l c e code = (s.withStack l { s.stack l with refused := satAdd (s.stack l).refused 1 }).ssuEnd c e code 0 0 := by
  rw [State.ssuRefuse, modStack_eq hl]

/-- A catalogue header that refuses ATTEND counts a stop and a refusal (R148). -/
theorem catRefuse_eq (hl : l < 32) (c : Nat) (e : SsuCmd) :
    s.catRefuse l c e = (s.withStack l { s.stack l with attStops := satAdd (s.stack l).attStops 1, refused := satAdd (s.stack l).refused 1 }).ssuEnd c e 0x400D 0 0 := by
  rw [State.catRefuse, modStack_eq hl, ssuRefuse_eq hl, stack_withStack, withStack_withStack]

section
variable {q : List SsuCmd} (hq : (s.stack l).queue c k = e :: q)
include hq

/-- A command whose checks have passed starts with its SRAM. -/
theorem ssuBegin_room (hl : l < 32) {head : List Byte} (hroom : (s.stack l).sramUsed + e.sramNeed (fieldAt head 15 1 % 16) ≤ 1024) :
    s.ssuBegin l c k e head
      = s.withStack l ((s.stack l).setQueue c k ({ e with st := .running, sram := e.sramNeed (fieldAt head 15 1 % 16), head := head } :: q)) := by
  rw [State.ssuBegin, if_neg (Nat.not_lt.mpr hroom), modSsu_head hl hq]

/-- A command whose wait does not hold stays. -/
theorem ssuStart_waits (hwait : s.waitHolds (.ssu l) (dssuWait e.bytes) 7 e.met = false) : s.ssuStart l c k = s := by
  simp [State.ssuStart, hq, hwait]

variable (hready : s.ready l = true) (hst : s.cstate c = .ready) (hepoch : s.epochHolds c = false) (hw : e.st = .waiting)
include hready hst hepoch hw

/-- What the first command of a queue does once nothing holds it back. -/
theorem ssuStart_head (hwait : s.waitHolds (.ssu l) (dssuWait e.bytes) 7 e.met = true) :
    s.ssuStart l c k =
      if s.stale c e.xlats then s.ssuEnd c e 0x2003 0 0
      else if s.startCheck l c e != 0 then s.ssuRefuse l c e (s.startCheck l c e)
      else if e.op = 0x0D ∧ (s.stack l).mig.isSome then s
      else if e.op = 0x10 then s.attBegin l c k e
      else s.ssuBegin l c k e [] := by
  simp [State.ssuStart, hq, hready, hst, hepoch, hw, hwait]

/-- A command whose checks pass and that reads no catalogue starts. -/
theorem ssuStart_begins (hwait : s.waitHolds (.ssu l) (dssuWait e.bytes) 7 e.met = true) (hstale : s.stale c e.xlats = false)
    (hcheck : s.startCheck l c e = 0) (hmig : e.op = 0x0D → (s.stack l).mig = none) (hatt : e.op = 0x10 → (attArgs e.bytes).rows = 0) :
    s.ssuStart l c k = s.ssuBegin l c k e [] := by
  have hgo : ¬ (e.op = 0x0D ∧ (s.stack l).mig.isSome = true) := fun ⟨h, hsome⟩ => by rw [hmig h] at hsome; cases hsome
  rw [ssuStart_head hq hready hst hepoch hw hwait, hstale, hcheck, if_neg Bool.false_ne_true, if_neg (by decide), if_neg hgo]
  split
  next h => rw [State.attBegin, if_pos (hatt h)]
  next => rfl

/-- ATTEND reads its catalogue's header at its start (R148). -/
theorem ssuStart_attend {a : Nat} (hwait : s.waitHolds (.ssu l) (dssuWait e.bytes) 7 e.met = true) (hstale : s.stale c e.xlats = false)
    (hcheck : s.startCheck l c e = 0) (hop : e.op = 0x10) (hrows : (attArgs e.bytes).rows ≠ 0) (hp : s.poison = []) (hcat : s.plainAt c (attArgs e.bytes).cat 64 a) :
    s.ssuStart l c k = if catOk (attArgs e.bytes) (memGets s.mem a 64) then s.ssuBegin l c k e (memGets s.mem a 64) else s.catRefuse l c e := by
  have hmig : ¬ (e.op = 0x0D ∧ (s.stack l).mig.isSome = true) := fun ⟨h, _⟩ => absurd (hop.symm.trans h) (by decide)
  rw [ssuStart_head hq hready hst hepoch hw hwait, hstale, hcheck, if_neg Bool.false_ne_true, if_neg (by decide), if_neg hmig, if_pos hop, State.attBegin, if_neg hrows]
  simp only [plainAt_present hcat, readGate_plain hcat, if_neg Bool.false_ne_true, vaRead_plain hcat hp, any_replicate_false]
  cases catOk (attArgs e.bytes) (memGets s.mem a 64) <;> rfl

end

/-! ### Windows (R121 to R124, R131) -/

/-- A window that a WIN_OPEN or CLIP_NOISE of compartment `c` opens: its fields, and an empty ledger (R121, R131). -/
def State.opened (s : State) (c : Nat) (e : SsuCmd) : Window :=
  { owner := c, dst := s.dstOff c (dfield e.bytes 48 8 % 2 ^ 48), va := dfield e.bytes 48 8 % 2 ^ 48
    paged := (s.seg c (vaSeg (dfield e.bytes 48 8 % 2 ^ 48))).typ == 3, count := dfield e.bytes 56 4
    srcFmt := BitVec.ofNat 4 (dfield e.bytes 60 1 / 16), dstFmt := BitVec.ofNat 4 (dfield e.bytes 60 1)
    op := dfield e.bytes 61 1 % 4, sat := BitVec.ofNat 2 (dfield e.bytes 61 1 / 4), explicit := dfield e.bytes 61 1 / 64 % 2 == 1, clip := e.op == 5
    sigma := BitVec.ofNat 32 (dfield e.bytes 40 4), bound := BitVec.ofNat 32 (dfield e.bytes 44 4), minParts := dfield e.bytes 62 1
    expected := dfield e.bytes 64 4, scale := BitVec.ofNat 32 (dfield e.bytes 68 4), closePost := BitVec.ofNat 32 (dfield e.bytes 72 4)
    slots := winSlots e.bytes, isOpen := true }

/-- An open without ZERO of a window that expects contributions holds the window and ends. -/
theorem winOpen_holds (hl : l < 32) (hzero : dfield e.bytes 61 1 / 128 % 2 = 0) (hexp : dfield e.bytes 64 4 ≠ 0)
    (habs : s.vaAbsent c (dfield e.bytes 48 8 % 2 ^ 48) (max 1 (4 * dfield e.bytes 56 4)) = none) :
    s.winOpen l c e = (s.withWin l e.window (s.opened c e)).ssuEnd c e 0 0 0 := by
  have hz : ¬ dfield e.bytes 61 1 / 128 % 2 = 1 := by omega
  simp only [State.winOpen, habs, if_neg hz, hexp, false_and, if_false, modStack_eq hl]
  rfl

theorem exec_winOpen_going (hup : s.isUp = true) (clip : Bool) (h : s.ssuGoing l c k (if clip then 0x05 else 0x01) e) :
    exec (if clip then .clipNoise l c k else .winOpen l c k) s = .next (s.winOpen l c e) := by
  refine exec_ssuRow hup h (f := fun s e => s.winOpen l c e) ?_
  cases clip <;> rfl

/-- A window that a close names is held (R124). -/
theorem has_window_of_winClose (h : s.ssuGoing l c k 0x02 e) : (s.stack l).wins.has e.window = true := by
  obtain ⟨-, -, -, hop, -, hcheck⟩ := h
  have hcode : s.heldCode l c e false = 0 := by simpa [State.startCheck, State.ssuStartCode, hop] using hcheck
  by_contra hno
  rw [Bool.not_eq_true] at hno
  rw [State.heldCode, hno] at hcode
  cases hcode

/-- A window without clipping closes with CLOSE_POST alone (R123). -/
theorem closeWin_plain {n : Nat} (hclip : ((s.stack l).wins.look n {}).clip = false) :
    (s.closeWin l n).1 = (s.modWin l n fun w => { w with isOpen := false }).ssuPost l ((s.stack l).wins.look n {}).owner ((s.stack l).wins.look n {}).closePost := by
  simp only [State.closeWin, hclip, Bool.false_and, if_neg Bool.false_ne_true]

/-- With no contribution at the intake, WIN_CLOSE of a window without clipping closes it (R123). -/
theorem exec_winClose_open (hup : s.isUp = true) (h : s.ssuGoing l c k 0x02 e) (hin : (s.stack l).intake = [])
    (hopen : ((s.stack l).wins.look e.window {}).isOpen = true) (hclip : ((s.stack l).wins.look e.window {}).clip = false) :
    exec (.winClose l c k) s = .next ((s.closeWin l e.window).1.ssuEnd c e (firstCode (s.closeWin l e.window).2.1 (s.closeWin l e.window).2.2.1)
      (s.closeWin l e.window).2.2.2 (((s.stack l).wins.look e.window {}).accepted % 2 ^ 32 + 2 ^ 32 * (((s.stack l).wins.look e.window {}).dups % 2 ^ 32))) := by
  refine (exec_ssuRow hup h rfl).trans (congrArg Host.Outcome.next ?_)
  simp only [hin, List.any_nil, hopen, hclip, Bool.not_true, if_neg Bool.false_ne_true]

/-- WIN_CLOSE of a closed window ends. -/
theorem exec_winClose_closed (hup : s.isUp = true) (h : s.ssuGoing l c k 0x02 e) (hin : (s.stack l).intake = [])
    (hopen : ((s.stack l).wins.look e.window {}).isOpen = false) : exec (.winClose l c k) s = .next (s.ssuEnd c e 0 0 0) := by
  refine (exec_ssuRow hup h rfl).trans (congrArg Host.Outcome.next ?_)
  simp only [hin, List.any_nil, hopen, Bool.not_false, if_neg Bool.false_ne_true, if_true]

theorem stack_ssuPost (s : State) (l c m : Nat) (w : BitVec 32) : (s.ssuPost l c w).stack m = s.stack m := rfl

/-! ### The obligation -/

/-- Settles O16: a start is the first check that stops it, and an open, a close and a free are each one update of the stack's windows. -/
theorem stackSideCommandsStartAndWindowsOpen : Obligations.StackSideCommandsStartAndWindowsOpen := by
  unfold Obligations.StackSideCommandsStartAndWindowsOpen
  refine ⟨fun s l c k e q hup hready hst hepoch hq hw => ?start, fun s l c k e hup => ⟨fun clip h hzero hexp habs => ?opens, fun h hin hopen hclip => ?closes,
    fun h hin hopen => ?closed, fun h => ?frees⟩⟩
  case start =>
    have hl : l < 32 := ready_lt hready
    have run : exec (.ssuCmdStart l c k) s = .next (s.ssuStart l c k) := upDo_up hup (fun s => s.ssuStart l c k)
    rw [run]
    refine ⟨fun hwait hstale hcheck hroom hmig hatt => ?begins, fun a hwait hstale hcheck hop hrows hp hcat => ?attends, fun hwait hstale => ?stale,
      fun hwait hstale hcheck => ?refused, fun hwait => ?waits⟩
    case begins =>
      have hnil : fieldAt [] 15 1 % 16 = 0 := rfl
      rw [ssuStart_begins hq hready hst hepoch hw hwait hstale hcheck hmig hatt, ssuBegin_room hq hl (by rw [hnil]; exact hroom), hnil]
    case attends =>
      rw [ssuStart_attend hq hready hst hepoch hw hwait hstale hcheck hop hrows hp hcat]
      exact ⟨fun hok hroom => by rw [if_pos hok, ssuBegin_room hq hl hroom], fun hbad => by rw [hbad, if_neg Bool.false_ne_true, catRefuse_eq hl]⟩
    case stale => rw [ssuStart_head hq hready hst hepoch hw hwait, if_pos hstale]
    case refused =>
      rw [ssuStart_head hq hready hst hepoch hw hwait, hstale, if_neg Bool.false_ne_true, if_pos (bne_iff_ne.mpr hcheck), ssuRefuse_eq hl]
    case waits => rw [ssuStart_waits hq hwait]
  case opens =>
    have run := exec_winOpen_going hup clip h
    rw [winOpen_holds (going_lt h) hzero hexp habs] at run
    have hop : (e.op == 5) = clip := by rw [going_op h]; cases clip <;> rfl
    obtain ⟨x, y, hend⟩ := ssuEnd_only (s.withWin l e.window (s.opened c e)) c e 0 0 0
    refine ⟨_, run, ?_⟩
    simp only [wins_ssuEnd, stack_withWin, Tab.look_put_same]
    exact ⟨rfl, rfl, rfl, rfl, hop, rfl, fun n hn => Tab.look_put_ne _ hn _ _, by rw [hend]; rfl⟩
  case closes =>
    have run := exec_winClose_open hup h hin hopen hclip
    rw [closeWin_plain hclip, modWin_eq (going_lt h) (has_window_of_winClose h)] at run
    obtain ⟨x, y, hend⟩ := ssuEnd_only ((s.withWin l e.window { (s.stack l).wins.look e.window {} with isOpen := false }).ssuPost l
      ((s.stack l).wins.look e.window {}).owner ((s.stack l).wins.look e.window {}).closePost) c e _ _ _
    refine ⟨_, run, ?_, by rw [hend]; rfl, by rw [hend]; rfl⟩
    simp only [wins_ssuEnd, stack_ssuPost, stack_withWin, Tab.look_put_same]
  case closed => exact exec_winClose_closed hup h hin hopen
  case frees =>
    refine (exec_ssuRow hup h rfl).trans ?_
    rw [modStack_eq (going_lt h)]

end Sys2Proof.Machine
end

section
/-! PROOFS. O17: REDUCE and contributions (R125 to R129, R141). -/

namespace Sys2Proof.Machine

variable {s : State} {l c k : Nat} {e : SsuCmd}

/-! ### REDUCE (R128) -/

theorem badIdx_clean (n : Nat) : badIdx (List.replicate n false) = [] := by
  rw [badIdx, List.filter_eq_nil_iff.mpr, List.map_nil]
  intro x hx
  have hm := List.mem_map_of_mem (f := Prod.fst) hx
  rw [List.zipIdx_map_fst] at hm
  rw [List.eq_of_mem_replicate hm]
  exact Bool.false_ne_true

/-- The contribution that a REDUCE of the bytes `d` sends to its stack's intake. -/
def SsuCmd.reduction (e : SsuCmd) (c : Nat) (d : List Byte) : Contrib :=
  { win := some e.window, cmpt := c, contributor := dfield e.bytes 64 2 % 4096, seq := dfield e.bytes 66 2, off := dfield e.bytes 60 4
    data := d, pois := [], origin := .desc c e.ring e.index, seg := some (vaSeg (dfield e.bytes 48 8 % 2 ^ 48)) }

/-- REDUCE of a plain source puts its bytes at the intake. -/
theorem exec_ssuReduce_plain (hup : s.isUp = true) (h : s.ssuGoing l c k 0x04 e) (hn : dfield e.bytes 56 4 ≠ 0) (hin : (s.stack l).intake = [])
    (hp : s.poison = []) {a : Nat}
    (hsrc : s.plainAt c (dfield e.bytes 48 8 % 2 ^ 48) (dfield e.bytes 56 4 * (fmtBits ((s.stack l).wins.look e.window {}).srcFmt.toNat / 8)) a) :
    exec (.ssuReduce l c k) s = .next (s.withStack l { s.stack l with intake := [e.reduction c
      (memGets s.mem a (dfield e.bytes 56 4 * (fmtBits ((s.stack l).wins.look e.window {}).srcFmt.toNat / 8)))] }) := by
  refine (exec_ssuRow hup h rfl).trans (congrArg Host.Outcome.next ?_)
  simp only [if_neg hn, hin, List.any_nil, if_neg Bool.false_ne_true, plainAt_present hsrc, readGate_plain hsrc, vaRead_plain hsrc hp, badIdx_clean,
    modStack_eq (going_lt h), List.nil_append]
  rfl

/-- REDUCE of no elements ends. -/
theorem exec_ssuReduce_empty (hup : s.isUp = true) (h : s.ssuGoing l c k 0x04 e) (hn : dfield e.bytes 56 4 = 0) :
    exec (.ssuReduce l c k) s = .next (s.ssuEnd c e 0 0 0) := by
  refine (exec_ssuRow hup h rfl).trans (congrArg Host.Outcome.next ?_)
  simp only [if_pos hn]

/-! ### One INT32 element (R129) -/

theorem pack_fp32_eq_int32 (l : List Nat) : pack 0 l = pack 11 l := rfl

theorem intAdd_eq (sat : Nat) (a b : Int) : intAdd sat a b = intAdd sat 0 (a + b) := by rw [intAdd, intAdd, Int.zero_add]

theorem length_pack_word (v : Nat) : (pack 0 [v]).length = 4 := (length_pack 0 [v]).trans (packLen_fp32 1)

/-- The sum of two INT32 elements under WRAP, as the encoding that is stored. -/
theorem intAdd_wrap_encoding (A B : Nat) : ((intAdd 2 (decodeInt 11 A) (decodeInt 11 B)).1 % 4294967296).toNat = (A + B) % 2 ^ 32 := by
  obtain ⟨-, hsum⟩ := intAdd_wrap (decodeInt 11 A + decodeInt 11 B)
  obtain ⟨-, hA⟩ := decodeInt_int32 A
  obtain ⟨-, hB⟩ := decodeInt_int32 B
  rw [intAdd_eq, hsum]
  omega

/-- A window of compartment memory that sums INT32 elements under WRAP, without noise. -/
structure Window.sumsInt32 (w : Window) : Prop where
  noClip : w.clip = false
  src : w.srcFmt = 11
  dst : w.dstFmt = 11
  sum : w.op = 0
  wrap : w.sat = 2
  fixed : w.paged = false
  aligned : w.dst % 4 = 0

theorem first_of_win {w : Window} {x : Contrib} {n : Nat} (hx : x.win = some n) : w.first x = x.off := by rw [Window.first, hx]

/-- One aligned element lies in one group of destination bytes (R125). -/
theorem groups_int32 {w : Window} {x : Contrib} (hw : w.sumsInt32) {n : Nat} (hx : x.win = some n) (hlen : x.data.length = 4) : w.groups x = 1 := by
  have hal := hw.aligned
  have hz : fmtBits (11 : BitVec 4).toNat / 8 = 4 := rfl
  simp only [Window.groups, hw.src, hz, hlen, first_of_win hx, Nat.div_self (show 0 < 4 by decide), if_neg Nat.one_ne_zero]
  omega

/-- No byte of a stack is scratch. -/
theorem icMark_stack {a : Nat} (ha : a < 0x0200_0000_0000) (s : State) (n : Nat) : s.icMark a n = s := by
  have hcores : inCores a = false := by simp [inCores]; omega
  rw [State.icMark, hcores, Bool.false_and, Bool.false_and, if_neg Bool.false_ne_true]

/-- Bytes without poison written to a destination in the stack itself are written to memory. -/
theorem destWrite_fixed {w : Window} (hfix : w.paged = false) (hl : l < 32) {y : Nat} {d : List Byte} (hfit : w.dst + y + d.length ≤ 0x8_0000_0000) (hp : s.poison = [])
    (hu : s.unguarded (lsBase l + w.dst + y) d.length) (hc : s.uncached (lsBase l + w.dst + y) d.length) (c : Nat) {bad : List Bool}
    (hbad : ∀ j : Nat, bad[j]?.getD false = false) : s.destWrite l c w y d bad = s.wr (lsBase l + w.dst + y) d := by
  have hmark : s.icMark (lsBase l + w.dst + y) d.length = s := icMark_stack (by unfold lsBase; omega) s _
  simp only [State.destWrite, State.winPieces, hfix, if_neg Bool.false_ne_true, writePieces_unguarded hc hu hp c rfl hbad, hmark]

/-- One INT32 element written over its place: what its place holds, and what does not change. -/
theorem wr_int32 (hp : s.poison = []) (hm : memWf s.mem = true) {v : Nat} (hv : v < 2 ^ 32) (a n : Nat) :
    ({ s.wr a (pack 0 [v]) with tick := n } : State).stk = s.stk ∧
    ofLe (memGets ({ s.wr a (pack 0 [v]) with tick := n } : State).mem a 4) = v ∧ SameMemBut s { s.wr a (pack 0 [v]) with tick := n } a 4 := by
  have hgets := memGets_wr (a := a) (l := pack 0 [v]) hm (pois_of_poison_nil hp ..)
  have hbut := sameMemBut_wr hm a (pack 0 [v])
  rw [length_pack_word] at hgets hbut
  obtain ⟨m, p, hwr⟩ := wr_only_memory s a (pack 0 [v])
  rw [hwr] at hgets hbut ⊢
  exact ⟨rfl, by rw [hgets, pack_fp32_eq_int32, ofLe_pack_int32, Nat.mod_eq_of_lt hv], hbut⟩

/-- One INT32 element is added into its place. -/
theorem applyGroups_int32 {w : Window} {x : Contrib} (hw : w.sumsInt32) {n : Nat} (hx : x.win = some n) (hlen : x.data.length = 4) (hpois : x.pois = [])
    (hp : s.poison = []) (hl : l < 32) (hfit : w.dst + 4 * x.off + 4 ≤ 0x8_0000_0000) (hg : s.guarded = [])
    (hc : s.uncached (lsBase l + w.dst + 4 * x.off) 4) :
    ∃ tick st, s.applyGroups l w x 0 1 = ({ s.wr (lsBase l + w.dst + 4 * x.off)
      (pack 0 [(ofLe (memGets s.mem (lsBase l + w.dst + 4 * x.off) 4) + ofLe x.data) % 2 ^ 32]) with tick := tick }, st, false) := by
  have hal := hw.aligned
  have hz : fmtBits 11 / 8 = 4 := rfl
  have hlo : max (w.dst + 4 * x.off) ((w.dst + 4 * x.off) / 2048 * 2048) = w.dst + 4 * x.off := by omega
  have hhi : min (w.dst + 4 * x.off + 4 * 1) (((w.dst + 4 * x.off) / 2048 + 1) * 2048) = w.dst + 4 * x.off + 4 := by omega
  have hoff : w.dst + 4 * x.off - w.dst = 4 * x.off := by omega
  have hcount : (w.dst + 4 * x.off + 4 - (w.dst + 4 * x.off)) / 4 = 1 := by omega
  have h11 : (11 : BitVec 4).toNat = 11 := rfl
  have h2 : (2 : BitVec 2).toNat = 2 := rfl
  have hbad : (List.replicate (4 * 1) false).zipIdx.map (fun y => y.1) = List.replicate 4 false := rfl
  have hdest (v : Nat) : s.destWrite l x.cmpt w (4 * x.off) (pack 0 [v]) (List.replicate 4 false) = s.wr (lsBase l + w.dst + 4 * x.off) (pack 0 [v]) :=
    destWrite_fixed hw.fixed hl (by rw [length_pack_word]; exact hfit) hp (unguarded_of_guarded_nil hg _ _) (by rw [length_pack_word]; exact hc) _ (getD_replicate_false 4)
  simp only [State.applyGroups, hw.src, first_of_win hx, State.winPieces, hw.fixed, hw.dst, hw.noClip, Window.updI, hw.sum, hw.wrap, h11, h2, hz, hlen,
    Nat.div_self (show 0 < 4 by decide), hlo, hhi, hoff, hcount, Nat.sub_self, Nat.zero_div, Nat.add_zero, if_neg Bool.false_ne_true, if_true,
    readPieces_uncached hc hp, hpois, List.isEmpty_nil, Bool.not_true, Bool.false_and, Bool.or_false, List.range_one, List.map_singleton,
    elemOf_int32 (length_memGets ..), elemOf_int32 hlen, intAdd_wrap_encoding, hbad, hdest, any_replicate_false]
  exact ⟨_, _, rfl⟩

/-- The state after one INT32 element: its place holds the sum. -/
theorem applyGroups_adds {w : Window} {x : Contrib} (hw : w.sumsInt32) {n : Nat} (hx : x.win = some n) (hlen : x.data.length = 4) (hpois : x.pois = [])
    (hp : s.poison = []) (hm : memWf s.mem = true) (hl : l < 32) (hfit : w.dst + 4 * x.off + 4 ≤ 0x8_0000_0000) (hg : s.guarded = [])
    (hc : s.uncached (lsBase l + w.dst + 4 * x.off) 4) :
    ∃ x' st, s.applyGroups l w x 0 1 = (x', st, false) ∧ x'.stk = s.stk ∧
      ofLe (memGets x'.mem (lsBase l + w.dst + 4 * x.off) 4) = (ofLe (memGets s.mem (lsBase l + w.dst + 4 * x.off) 4) + ofLe x.data) % 2 ^ 32 ∧
      SameMemBut s x' (lsBase l + w.dst + 4 * x.off) 4 := by
  obtain ⟨tick, st, happ⟩ := applyGroups_int32 hw hx hlen hpois hp hl hfit hg hc
  exact ⟨_, st, happ, wr_int32 hp hm (Nat.mod_lt _ (Nat.two_pow_pos 32)) _ tick⟩

/-- A contribution that neither a mover nor a remote sender made, to a window in which it has contributor number `cn`, without refusal. -/
structure Admitted (s : State) (l : Nat) (x : Contrib) (w cn : Nat) : Prop where
  window : s.winOf l x = some w
  code : s.contribCode l x = 0
  mover : x.mover = false
  peer : x.peer = none
  origin : x.origin = .none
  number : ((s.stack l).wins.look w {}).contributor x = some cn

/-- A window that a contribution is for is held. -/
theorem has_of_winOf {x : Contrib} {w : Nat} (h : s.winOf l x = some w) : (s.stack l).wins.has w = true := by
  unfold State.winOf at h
  split at h
  next =>
    split at h
    next hhas => cases h; exact hhas
    next => cases h
  next =>
    obtain ⟨y, hy, rfl⟩ := Option.map_eq_some_iff.mp h
    exact List.any_eq_true.mpr ⟨y, List.mem_of_find?_eq_some hy, by simp⟩

theorem contribEnd_none (s : State) {x : Contrib} (hx : x.origin = .none) (code : BitVec 16) (st : Sticky) : s.contribEnd x code st = s := by
  rw [State.contribEnd, hx]
  rfl

/-! ### The first contribution at an intake (R125, R141) -/

section
variable {x : Contrib} {q : List Contrib} (hready : s.ready l = true) (hin : (s.stack l).intake = x :: q)
include hready hin

theorem drop_head (t : State) (ht : t.stk = s.stk) : t.modStack l (fun y => { y with intake := y.intake.eraseIdx 0 }) = t.withStack l { s.stack l with intake := q } := by
  have hst : t.stack l = s.stack l := by rw [State.stack, ht, ← State.stack]
  rw [modStack_eq (ready_lt hready), hst, hin, List.eraseIdx_cons_zero]

/-- A contribution that is refused leaves the intake, is counted, and gets its code. -/
theorem contribution_refused (hcode : s.contribCode l x ≠ 0) (up : Nat) :
    s.contribution l 0 up = (s.withStack l { s.stack l with intake := q, refused := satAdd (s.stack l).refused 1 }).contribEnd x (s.contribCode l x) 0 := by
  have hl := ready_lt hready
  simp only [State.contribution, hin, List.getElem?_cons_zero, hready, List.take_zero, List.any_nil, Bool.not_true, Bool.or_false, if_neg Bool.false_ne_true,
    if_pos (bne_iff_ne.mpr hcode), drop_head hready hin s rfl, modStack_eq hl, stack_withStack, withStack_withStack]

section
variable {w cn : Nat} (hadm : Admitted s l x w cn)
include hadm

/-- A contribution whose sequence the ledger holds leaves the intake and is counted, and nothing else changes (R125). -/
theorem contribution_held (hheld : (((s.stack l).wins.look w {}).ledger.look cn {}).holds x.seq = true) (up : Nat) :
    ∃ y, s.contribution l 0 up = s.withStack l { s.stack l with intake := q, wins := y, dups := satAdd (s.stack l).dups 1 } := by
  have hl := ready_lt hready
  obtain ⟨hwin, hcode, hmover, hpeer, horig, hnum⟩ := hadm
  have hhas := has_of_winOf hwin
  simp only [State.contribution, hin, List.getElem?_cons_zero, hready, List.take_zero, List.any_nil, Bool.not_true, Bool.or_false, if_neg Bool.false_ne_true,
    hcode, bne_self_eq_false, hwin, hnum, Option.getD_some, hmover, hpeer, Option.isSome_none, Bool.false_and, hheld, if_true, drop_head hready hin s rfl,
    contribEnd_none _ horig, State.modWin, modStack_eq hl, stack_withStack, withStack_withStack, hhas]
  exact ⟨_, rfl⟩

/-- A contribution with a new sequence to a window that is open and expects more than it is applied whole (R125, R129). -/
theorem contribution_applied {x' : State} (hnew : (((s.stack l).wins.look w {}).ledger.look cn {}).holds x.seq = false) (hpart : (((s.stack l).wins.look w {}).ledger.look cn {}).partSeq ≠ x.seq)
    (hopen : ((s.stack l).wins.look w {}).isOpen = true) (hmore : ((s.stack l).wins.look w {}).accepted + 1 ≠ ((s.stack l).wins.look w {}).expected)
    (hfix : ((s.stack l).wins.look w {}).paged = false) {up : Nat} (hup : ((s.stack l).wins.look w {}).groups x ≤ up) (hpos : 0 < ((s.stack l).wins.look w {}).groups x)
    {st : Sticky} (happ : s.applyGroups l ((s.stack l).wins.look w {}) x 0 (((s.stack l).wins.look w {}).groups x) = (x', st, false)) (hstk : x'.stk = s.stk) :
    ∃ n : Window, n.accepted = ((s.stack l).wins.look w {}).accepted + 1 ∧ s.contribution l 0 up
      = x'.withStack l { s.stack l with intake := q, wins := (s.stack l).wins.put w n, applied := satAdd (s.stack l).applied 1 } := by
  have hl := ready_lt hready
  obtain ⟨hwin, hcode, hmover, hpeer, horig, hnum⟩ := hadm
  have hhas := has_of_winOf hwin
  have hst : x'.stack l = s.stack l := by rw [State.stack, hstk, ← State.stack]
  simp only [State.contribution, hin, List.getElem?_cons_zero, hready, List.take_zero, List.any_nil, Bool.not_true, Bool.or_false, if_neg Bool.false_ne_true,
    hcode, bne_self_eq_false, hwin, hnum, Option.getD_some, hmover, hpeer, Option.isSome_none, Bool.false_and, hnew, hopen, hpart, hmore, false_and, decide_false, Bool.and_false,
    State.winAbsent, hfix, if_false, if_neg (Nat.not_lt.mpr hup), if_pos hpos, happ, drop_head hready hin x' hstk,
    contribEnd_none _ horig, State.modWin, modStack_eq hl, stack_withStack, withStack_withStack, hhas, if_true]
  exact ⟨_, rfl, rfl⟩

end

end

/-! ### The obligation -/

/-- Settles O17: the ledger decides between a duplicate, which is counted, and a contribution that is applied. -/
theorem contributionsAreAppliedOnce : Obligations.ContributionsAreAppliedOnce := by
  unfold Obligations.ContributionsAreAppliedOnce
  intro s l hup hready
  have run (up : Nat) : exec (.contribution l 0 up) s = .next (s.contribution l 0 up) := upDo_up hup (fun s => s.contribution l 0 up)
  refine ⟨fun c k a e h hn hin hp hsrc => exec_ssuReduce_plain hup h hn hin hp hsrc, fun c k e h hn => exec_ssuReduce_empty hup h hn,
    fun x q up hin hno => ?refused, fun x q w up cn hin hwin hcode hmover hpeer horig hnum hheld => ?duplicate,
    fun x q w cn hin hwin hcode hmover hpeer horig hnum hnew hpart hopen hclip hsrc hdst hop hsat hmore hlen hx hpois hp hm hfix hal hfit hg hunc => ?applied⟩
  case refused =>
    have hcode : s.contribCode l x = 0x4004 := by rw [State.contribCode, hno]
    rw [run, contribution_refused hready hin (by rw [hcode]; decide), hcode]
  case duplicate =>
    obtain ⟨y, hy⟩ := contribution_held hready hin ⟨hwin, hcode, hmover, hpeer, horig, hnum⟩ hheld up
    have hrun := run up
    rw [hy] at hrun
    refine ⟨_, hrun, rfl, ?_⟩
    rw [stack_withStack]
    exact ⟨rfl, rfl, rfl⟩
  case applied =>
    have hw : ((s.stack l).wins.look w {}).sumsInt32 := ⟨hclip, hsrc, hdst, hop, hsat, hfix, hal⟩
    have hgroups := groups_int32 hw hx hlen
    obtain ⟨x', st, happ, hstk, hadd, hbut⟩ := applyGroups_adds hw hx hlen hpois hp hm (ready_lt hready) hfit hg hunc
    obtain ⟨n, hn, hdone⟩ := contribution_applied hready hin ⟨hwin, hcode, hmover, hpeer, horig, hnum⟩ hnew hpart hopen hmore hfix
      (up := 1) hgroups.le (hgroups ▸ Nat.one_pos) (hgroups ▸ happ) hstk
    refine ⟨_, (run 1).trans (congrArg _ hdone), hadd, hbut, ?_⟩
    rw [stack_withStack, Tab.look_put_same]
    exact ⟨hn, rfl, rfl⟩

end Sys2Proof.Machine
end

section
/-! PROOFS. O18: one row of GATHER and SCATTER (R135, R136). -/

namespace Sys2Proof.Machine

variable {s t : State} {l c k pt pi pf f v : Nat} {e : SsuCmd} {a : RowArgs} {o : Origin}

/-! ### Operands of a row -/

/-- A mover address below 2^48 is a virtual address (Table 3.5a). -/
theorem movAddr_va {n : Nat} (hn : n < 2 ^ 48) (s : State) (d i c : Nat) : s.movAddr d i c (BitVec.ofNat 64 n) = (0, .va n) := by
  have hn' : n < 2 ^ 64 := by omega
  have h1 : bits (BitVec.ofNat 64 n) 63 62 = 0 := by rw [bits_ofNat hn']; omega
  have h2 : bits (BitVec.ofNat 64 n) 61 54 = 0 := by rw [bits_ofNat hn']; omega
  have h3 : bits (BitVec.ofNat 64 n) 53 48 = 0 := by rw [bits_ofNat hn']; omega
  have h4 : bits (BitVec.ofNat 64 n) 47 0 = n := by rw [bits_ofNat hn']; omega
  simp [State.movAddr, h1, h2, h3, h4]

theorem pageStall_plain {va n b : Nat} (h : s.plainAt c va n b) (w : Bool) : s.pageStall c [(va, n, w)] = none := by
  simp only [State.pageStall, State.absentOf, plainAt_present h, Option.map_none]

theorem farAbsent_plain {n b : Nat} (h : s.plainAt c f n b) (w : Bool) : s.farAbsent c (.va f) 0 n w = none := by
  have habs : s.opAbsent c (.va f) 0 n = none := plainAt_present h
  rw [State.farAbsent, habs, Option.map_none]

theorem farPieces_plain {n b : Nat} (h : s.plainAt c f n b) : s.farPieces c (.va f) 0 n = [(b, n)] := plainAt_pieces h

/-- An access waiting at a regulator changes the masters only. -/
theorem ssuOffer_only (s : State) (a : RowArgs) (c : Nat) (w : Bool) (ps : List (Nat × Nat)) : ∃ x, s.ssuOffer a c w ps = { s with masters := x } := by
  unfold State.ssuOffer State.offer
  split
  · exact ⟨s.masters, rfl⟩
  · unfold State.modMaster
    split
    · exact ⟨_, rfl⟩
    · exact ⟨s.masters, rfl⟩

/-- An index without poison is the number its four bytes hold. -/
theorem idxAt_int32 {l : List Byte} (hl : l.length = 4) (hv : ofLe l = v) (hlt : v < 2 ^ 31) (n t : Nat) : idxAt l (List.replicate n false) t 0 = v := by
  have hclean : poisElem (List.replicate n false) 4 0 = false := by simp [poisElem]
  rw [idxAt, hclean, if_neg Bool.false_ne_true, elemOf_int32 hl, hv, decodeInt_int32_small hlt]

theorem inTable_natCast (h : v < a.nrows) : a.inTable v = true := by simp [RowArgs.inTable, h]

/-- Free values drawn change no range. -/
theorem vaRead_tick {va n b : Nat} (h : s.plainAt c va n b) (hp : s.poison = []) (m : Nat) :
    ({ s with tick := m } : State).vaRead c va n = ({ s with tick := m }, memGets s.mem b n, List.replicate n false) :=
  vaRead_plain (s := { s with tick := m }) h hp

theorem farPieces_tick {n b : Nat} (h : s.plainAt c f n b) (m : Nat) : ({ s with tick := m } : State).farPieces c (.va f) 0 n = [(b, n)] := plainAt_pieces h

theorem getD_map_false (xs : List Nat) (j : Nat) : (xs.map (fun _ => false))[j]?.getD false = false := by
  rw [List.getElem?_map]
  cases xs[j]? <;> rfl

/-- Bytes written to the far end of a row are stored there. -/
theorem farWrite_plain {n b : Nat} (hpf : s.plainAt c f n b) (hp : s.poison = []) (a : RowArgs) (ps : List (Nat × Nat)) {l : List Byte} (hl : l.length = n) {bad : List Bool}
    (hbad : ∀ j : Nat, bad[j]?.getD false = false) :
    s.stored (((s.ssuOffer a c true ps).writePieces c [(b, n)] l bad).1.farDirty c (.va f) 0 n) b l := by
  obtain ⟨x, hx⟩ := ssuOffer_only s a c true ps
  obtain ⟨t, ht, hst⟩ := writePieces_plain (s := { s with masters := x }) hpf hp c hl hbad
  rw [hx, ht]
  exact stored_markDirtySlots hst ..

/-- The far end of a row is read as memory holds it. -/
theorem farRead_plain {n b : Nat} (hpf : s.plainAt c f n b) (hp : s.poison = []) (m : Nat) (a : RowArgs) (w : Bool) (ps : List (Nat × Nat)) :
    ∃ x, (({ s with tick := m } : State).ssuOffer a c w ps).readPieces [(b, n)] = ({ s with tick := m, masters := x }, memGets s.mem b n, List.replicate n false) := by
  obtain ⟨x, hx⟩ := ssuOffer_only { s with tick := m } a c w ps
  refine ⟨x, ?_⟩
  rw [hx]
  exact readPieces_uncached (s := { s with tick := m, masters := x }) (plainAt_uncached hpf) hp

/-- A gate that no row passes holds none. -/
theorem readGate_nil (s : State) (o : Origin) : s.readGate o [] = (s, false) := readGate_unguarded (fun _ h => absurd h List.not_mem_nil) o

/-! ### One row -/

section
variable (hp : s.poison = []) (hmode : a.mode = 0) (hfar : a.far = .va f) (hidx : s.plainAt c a.idx 4 pi) (hv : ofLe (memGets s.mem pi 4) = v) (hlt : v < 2 ^ 31)
  (hrow : v < a.nrows) (htab : s.plainAt c (a.table + v * a.pitch) a.row pt) (hpf : s.plainAt c f a.row pf)
include hp hmode hfar hidx hv hlt hrow htab hpf

/-- GATHER copies the row that the index names to the far end. -/
theorem gatherRow_plain : (gatherRow c o a false { st := s }).stall = none ∧ s.stored (gatherRow c o a false { st := s }).st pf (memGets s.mem pt a.row) := by
  simp only [gatherRow, hmode, if_neg Nat.zero_ne_one, Nat.mul_zero, Nat.zero_mul, Nat.mul_one, Nat.add_zero, hfar, pageStall_plain hidx, farAbsent_plain hpf,
    gatherRow.orElseOpt, readGate_plain hidx, if_neg Bool.false_ne_true, vaRead_plain hidx hp, List.range_one, idxAt_int32 (length_memGets ..) hv hlt,
    List.filter_cons_of_pos (inTable_natCast hrow), List.filter_nil, List.map_cons, List.map_nil, List.flatMap_cons, List.flatMap_nil, List.append_nil, Int.toNat_natCast,
    pageStall_plain htab, readGate_plain htab, List.foldl_cons, List.foldl_nil, inTable_natCast hrow, if_true, vaRead_tick htab hp, List.nil_append,
    List.headD_cons, farPieces_tick hpf, any_replicate_false, List.any_cons, List.any_nil, Bool.false_or, Bool.or_false, getD_replicate_false, true_and]
  exact farWrite_plain (s := { s with tick := s.tick + 1 + 2 * (a.row / max (fmtBits a.fmt / 8) 1) }) hpf hp a _ (length_memGets ..) (getD_map_false _)

/-- SCATTER copies the far end to the row that the index names. -/
theorem scatterRow_plain : (scatterRow c o a { st := s }).stall = none ∧ s.stored (scatterRow c o a { st := s }).st pt (memGets s.mem pf a.row) := by
  have hgate : s.readGate o (s.vaPieces c a.idx 4 ++ [(pf, a.row)]) = (s, false) := by
    refine readGate_unguarded (fun p hmem => ?_) o
    rw [plainAt_pieces hidx, List.singleton_append, List.mem_pair] at hmem
    obtain rfl | rfl := hmem
    · exact ⟨plainAt_pos hidx, plainAt_unguarded hidx⟩
    · exact ⟨plainAt_pos hpf, plainAt_unguarded hpf⟩
  obtain ⟨x, hx⟩ := farRead_plain hpf hp (s.tick + 1) a false [(pf, a.row)]
  simp only [scatterRow, hmode, if_neg Nat.zero_ne_one, Nat.mul_zero, Nat.zero_mul, Nat.add_zero, hfar, pageStall_plain hidx, farAbsent_plain hpf,
    gatherRow.orElseOpt, farPieces_plain hpf, hgate, if_neg Bool.false_ne_true, vaRead_plain hidx hp, idxAt_int32 (length_memGets ..) hv hlt,
    inTable_natCast hrow, Bool.not_true, Int.toNat_natCast, pageStall_plain htab, readGate_nil, farPieces_tick hpf, hx, getD_replicate_false, true_and]
  obtain ⟨t, ht, hst⟩ := vaWrite_plain (s := { s with tick := s.tick + 1 + 4 * (a.row / max (fmtBits a.fmt / 8) 1), masters := x }) (l := memGets s.mem pf a.row)
    htab hp (length_memGets ..) (getD_map_false (List.range a.row))
  rw [ht]
  exact hst

end

/-! ### A command of one row, and of none -/

/-- What GATHER or SCATTER does with each row. -/
def State.rowStep (s : State) (c : Nat) (e : SsuCmd) (scatter : Bool) : RowRun → RowRun :=
  let a := s.rowArgs c e.bytes
  let bag := if a.mode = 1 then a.bag else 1
  let hazard := !scatter && piecesMeet (s.farPieces c a.far 0 (a.count * a.row))
    (s.vaPieces c a.table (tableLen a.nrows a.pitch a.row) ++ s.vaPieces c a.idx (4 * a.count * bag))
  if scatter then scatterRow c (.desc c e.ring e.index) a else gatherRow c (.desc c e.ring e.index) a hazard

/-- A command of one row does that row and ends. -/
theorem rowCmd_one {scatter : Bool} (hcount : dfield e.bytes 72 4 = 1) (hg : e.group = 0) (hn : e.normW = 0) (hstall : (s.rowStep c e scatter { st := s }).stall = none) :
    ∃ code st d, s.rowCmd l c k e scatter = (s.rowStep c e scatter { st := s }).st.ssuEnd c e code st d := by
  have hloop : rowsLoop (s.rowArgs c e.bytes).count (s.rowStep c e scatter) (s.rowArgs c e.bytes).count { st := s, row := e.group, out := e.normW.toNat }
      = s.rowStep c e scatter { st := s } := by
    rw [show (s.rowArgs c e.bytes).count = 1 from hcount, hg, hn]
    rfl
  rw [State.rowStep] at hloop hstall
  rw [State.rowCmd, hloop, State.rowStep]
  simp only [hstall]
  exact ⟨_, _, _, rfl⟩

/-- A command of no rows ends. -/
theorem rowCmd_zero {scatter : Bool} (hcount : dfield e.bytes 72 4 = 0) (hg : e.group = 0) (hn : e.normW = 0) : s.rowCmd l c k e scatter = s.ssuEnd c e 0 0 0 := by
  have hzero : (s.rowArgs c e.bytes).count = 0 := hcount
  simp only [State.rowCmd, hzero, hg, hn, rowsLoop]
  rfl

/-- A command of one row that stores its bytes completes with them. -/
theorem rowCmd_completes {scatter : Bool} {i : Instr} (hi : exec i s = .next (s.rowCmd l c k e scatter)) (hm : memWf s.mem = true) (hcount : dfield e.bytes 72 4 = 1)
    (hg : e.group = 0) (hn : e.normW = 0) (hstall : (s.rowStep c e scatter { st := s }).stall = none) {b n : Nat} {d : List Byte} (hd : d.length = n)
    (hst : s.stored (s.rowStep c e scatter { st := s }).st b d) : Completes i s (fun t => memGets t.mem b n = d ∧ SameMemBut s t b n) := by
  obtain ⟨code, st, detail, hdone⟩ := rowCmd_one (l := l) (k := k) hcount hg hn hstall
  refine ⟨_, hi.trans (congrArg _ hdone), ?_, fun x hx => ?_⟩
  · rw [ssuEnd_mem, stored_memGets hst hm hd]
  · rw [ssuEnd_mem, stored_ne hst hm (by rwa [hd])]

theorem rowArgs_far (hva : dfield e.bytes 64 8 / 2 ^ 48 = 0) : (s.rowArgs c e.bytes).far = .va (dfield e.bytes 64 8) := by
  rw [State.rowArgs, movAddr_va (Nat.lt_of_div_eq_zero (Nat.two_pow_pos 48) hva)]

section
variable (hup : s.isUp = true) (hp : s.poison = []) (hm : memWf s.mem = true) (hcount : dfield e.bytes 72 4 = 1) (hmode : dfield e.bytes 88 1 / 16 % 4 = 0)
  (hg : e.group = 0) (hn : e.normW = 0) (hidx : s.plainAt c (dfield e.bytes 56 8 % 2 ^ 48) 4 pi) (hv : ofLe (memGets s.mem pi 4) = v) (hlt : v < 2 ^ 31)
  (hrow : v < dfield e.bytes 76 4) (htab : s.plainAt c (dfield e.bytes 48 8 % 2 ^ 48 + v * (s.rowArgs c e.bytes).pitch) (dfield e.bytes 80 4) pt)
  (hva : dfield e.bytes 64 8 / 2 ^ 48 = 0) (hpf : s.plainAt c (dfield e.bytes 64 8) (dfield e.bytes 80 4) pf)
include hup hp hm hcount hmode hg hn hidx hv hlt hrow htab hva hpf

/-- A GATHER of one row that is clear of its table and its index copies it from the table (R135). -/
theorem exec_ssuGather_one (h : s.ssuGoing l c k 0x09 e)
    (hmeet : piecesMeet [(pf, dfield e.bytes 80 4)]
      (s.vaPieces c (dfield e.bytes 48 8 % 2 ^ 48) (tableLen (dfield e.bytes 76 4) (s.rowArgs c e.bytes).pitch (dfield e.bytes 80 4)) ++ [(pi, 4)]) = false) :
    Completes (.ssuGather l c k) s (fun t => memGets t.mem pf (dfield e.bytes 80 4) = memGets s.mem pt (dfield e.bytes 80 4) ∧ SameMemBut s t pf (dfield e.bytes 80 4)) := by
  have hfar : (s.rowArgs c e.bytes).far = .va (dfield e.bytes 64 8) := rowArgs_far hva
  have hstep : s.rowStep c e false = gatherRow c (.desc c e.ring e.index) (s.rowArgs c e.bytes) false := by
    have hcount' : (s.rowArgs c e.bytes).count = 1 := hcount
    have hmode' : (s.rowArgs c e.bytes).mode = 0 := hmode
    have hto : s.farPieces c (.va (dfield e.bytes 64 8)) 0 (s.rowArgs c e.bytes).row = [(pf, dfield e.bytes 80 4)] := farPieces_plain hpf
    have hfrom : s.vaPieces c (s.rowArgs c e.bytes).idx 4 = [(pi, 4)] := plainAt_pieces hidx
    have hclear : piecesMeet [(pf, dfield e.bytes 80 4)]
      (s.vaPieces c (s.rowArgs c e.bytes).table (tableLen (s.rowArgs c e.bytes).nrows (s.rowArgs c e.bytes).pitch (s.rowArgs c e.bytes).row) ++ [(pi, 4)]) = false := hmeet
    simp only [State.rowStep, hcount', hmode', hfar, if_neg Nat.zero_ne_one, Nat.mul_one, Nat.one_mul, hto, hfrom, hclear, Bool.and_false, if_neg Bool.false_ne_true]
  obtain ⟨hstall, hst⟩ := gatherRow_plain (o := .desc c e.ring e.index) (a := s.rowArgs c e.bytes) hp hmode hfar hidx hv hlt hrow htab hpf
  rw [← hstep] at hstall hst
  exact rowCmd_completes (exec_ssuRow (f := fun s e => s.rowCmd l c k e false) hup h rfl) hm hcount hg hn hstall (length_memGets ..) hst

/-- A SCATTER of one row copies it to the table (R136). -/
theorem exec_scatter_one (h : s.ssuGoing l c k 0x0A e) :
    Completes (.scatter l c k) s (fun t => memGets t.mem pt (dfield e.bytes 80 4) = memGets s.mem pf (dfield e.bytes 80 4) ∧ SameMemBut s t pt (dfield e.bytes 80 4)) := by
  obtain ⟨hstall, hst⟩ := scatterRow_plain (o := .desc c e.ring e.index) (a := s.rowArgs c e.bytes) hp hmode (rowArgs_far hva) hidx hv hlt hrow htab hpf
  exact rowCmd_completes (exec_ssuRow (f := fun s e => s.rowCmd l c k e true) hup h rfl) hm hcount hg hn hstall (length_memGets ..) hst

end

end Sys2Proof.Machine
end

section
/-! PROOFS. O18: WIPE and OPT_STEP (R134, R138). -/

namespace Sys2Proof.Machine

variable {s : State} {l c k a n : Nat} {e : SsuCmd}

/-! ### WIPE (R138) -/

/-- Memory with the bytes at some addresses left out reads as zero there and as before elsewhere. -/
theorem memGet_filter (q : Nat → Bool) {m : List Host.Cell} (x : Nat) : ∀ {b : Nat}, risingFrom b m = true →
    memGet (m.filter (fun y => q y.1)) x = if q x then memGet m x else 0 := by
  induction m with
  | nil => intro b _; simp [memGet]
  | cons y t ih =>
    obtain ⟨k, v⟩ := y
    intro b hr
    obtain ⟨-, -, ht⟩ := risingFrom_cons.mp hr
    rw [List.filter_cons]
    by_cases hk : q k = true
    · rw [if_pos hk, memGet, memGet, ih ht]
      split
      next heq => rw [← heq, if_pos hk]
      next => split <;> simp
    · rw [if_neg hk, ih ht, memGet]
      split
      next hx =>
        rw [if_neg (fun heq : k = x => hk (heq ▸ hx))]
        split
        next hlt => exact memGet_of_lt ht (by omega)
        next => rfl
      next => rfl

/-- A wiped range reads zero, and no other byte of memory changes. -/
theorem memGet_zeroRange (hm : memWf s.mem = true) (a n x : Nat) : memGet (s.zeroRange a n).mem x = if a ≤ x ∧ x < a + n then 0 else memGet s.mem x := by
  have hmem : (s.zeroRange a n).mem = s.mem.filter (fun y => !(decide (a ≤ y.1) && decide (y.1 < a + n))) := by
    unfold State.zeroRange
    split
    · exact modStack_mem ..
    · rfl
  rw [hmem, memGet_filter (fun y => !(decide (a ≤ y) && decide (y < a + n))) x hm]
  by_cases h : a ≤ x ∧ x < a + n <;> simp [h]

theorem zeroRange_coh (s : State) (a n : Nat) : (s.zeroRange a n).coh = s.coh := by
  unfold State.zeroRange
  split
  · exact modStack_coh ..
  · rfl

/-- A plain range is wiped in memory itself. -/
theorem wipePiece_plain {va : Nat} (h : s.plainAt c va n a) (c' : Nat) : s.wipePiece c' a n = s.zeroRange a n := by
  have hfree : (inStacks a && s.isGuarded (paLs a) (paOff a)) = false := by
    cases hin : inStacks a
    · rfl
    · rw [plainAt_unguarded h a (Nat.le_refl a) (Nat.lt_add_of_pos_right (plainAt_pos h)) hin]
      rfl
  rw [State.wipePiece, hfree, if_neg Bool.false_ne_true, State.wipeRange, settle_uncached (plainAt_uncached h), refresh_of_coh_nil ((zeroRange_coh ..).trans (uncached_coh (plainAt_uncached h)))]

/-- A wiped range reads zero (R138). -/
theorem exec_wipe_plain (hup : s.isUp = true) (hm : memWf s.mem = true) (h : s.ssuGoing l c k 0x0C e)
    (hrange : s.plainAt c (dfield e.bytes 48 8 % 2 ^ 48) (dfield e.bytes 56 8) a) :
    Completes (.wipe l c k) s (fun t => (∀ j, j < dfield e.bytes 56 8 → memGet t.mem (a + j) = 0) ∧ SameMemBut s t a (dfield e.bytes 56 8)) := by
  refine ⟨_, exec_ssuRow hup h rfl, ?_⟩
  obtain ⟨y, hy, -⟩ := markDirtySlots_only (s.zeroRange a (dfield e.bytes 56 8)) c (vaSeg (dfield e.bytes 48 8 % 2 ^ 48)) (s.seg c (vaSeg (dfield e.bytes 48 8 % 2 ^ 48)))
    (vaOff (dfield e.bytes 48 8 % 2 ^ 48)) (dfield e.bytes 56 8)
  simp only [State.wipeCmd, State.absentOf, plainAt_present hrange, plainAt_pieces hrange, List.foldl_cons, List.foldl_nil, wipePiece_plain hrange, hy]
  refine ⟨fun j hj => ?_, fun b hb => ?_⟩
  · rw [ssuEnd_mem, memGet_zeroRange hm, if_pos (by omega)]
  · rw [ssuEnd_mem, memGet_zeroRange hm, if_neg (by omega)]

/-! ### OPT_STEP (R134) -/

theorem poisElem_replicate_false (m z j : Nat) : poisElem (List.replicate m false) z j = false := by simp [poisElem]

theorem poisElem_nil (z j : Nat) : poisElem [] z j = false := by simp [poisElem]

theorem length_packF (xs : List FP) : (packF xs).length = 4 * xs.length := by
  rw [packF, length_pack, packLen_fp32, List.length_map]

/-- Bytes written to a plain range of virtual addresses are stored. -/
theorem stored_vaWrite {va : Nat} (h : s.plainAt c va n a) (hp : s.poison = []) {l : List Byte} (hl : l.length = n) {bad : List Bool}
    (hbad : ∀ j : Nat, bad[j]?.getD false = false) : s.stored (s.vaWrite c va l bad).1 a l := by
  obtain ⟨t, ht, hst⟩ := vaWrite_plain h hp hl hbad
  rwa [ht]

section
variable {b : BitVec 1024} {args : OptArgs} {o : Origin} {trust : FP} {w g m : Nat}

/-- Groups that are done stay done. -/
theorem optGroups_done {x : OptRun} (hx : dfield b 88 4 ≤ 512 * x.group) (pass fuel : Nat) : optGroups c o b args pass trust fuel x = x := by
  cases fuel with
  | zero => rfl
  | succ fuel => rw [optGroups, decide_eq_true hx, Bool.or_true, if_pos rfl]

/-- A step of one group does that group. -/
theorem optGroups_one {x : OptRun} {pass : Nat} (hx : x.stall = none) (hfirst : x.group = 0) (hmore : 0 < dfield b 88 4)
    (hlast : dfield b 88 4 ≤ 512 * (optGroup c o b args pass trust x).group) (fuel : Nat) :
    optGroups c o b args pass trust (fuel + 1) x = optGroup c o b args pass trust x := by
  rw [optGroups, hx, hfirst, decide_eq_false (Nat.not_le.mpr hmore), Option.isSome_none, Bool.false_or, if_neg Bool.false_ne_true, optGroups_done hlast]

/-- The only group of an SGD step writes the moments, then the weights. -/
theorem optGroup_sgd (hp : s.poison = []) (halgo : args.algo = 0) (hn : dfield b 88 4 = n) (hn512 : n ≤ 512) (hzero : dfield b 93 1 = 0) (hshadow : dfield b 80 8 = 0)
    (hw : s.plainAt c (dfield b 48 8 % 2 ^ 48) (4 * n) w) (hg : s.plainAt c (dfield b 56 8 % 2 ^ 48) (4 * n) g) (hm : s.plainAt c (dfield b 64 8 % 2 ^ 48) (4 * n) m) (st : Sticky) :
    ∃ t u v, s.stored t m u ∧ u.length = 4 * n ∧ t.stored (optGroup c o b args 0 trust { st := s, group := 0, sticky := st }).st w v ∧ v.length = 4 * n ∧
      (optGroup c o b args 0 trust { st := s, group := 0, sticky := st }).stall = none ∧ (optGroup c o b args 0 trust { st := s, group := 0, sticky := st }).group = 1 := by
  have hmin : min 512 n = n := Nat.min_eq_right hn512
  have hgate : s.readGate o [(w, 4 * n), (g, 4 * n), (m, 4 * n)] = (s, false) := by
    refine readGate_unguarded (fun p hmem => ?_) o
    simp only [List.mem_cons, List.not_mem_nil, or_false] at hmem
    obtain rfl | rfl | rfl := hmem
    · exact ⟨plainAt_pos hw, plainAt_unguarded hw⟩
    · exact ⟨plainAt_pos hg, plainAt_unguarded hg⟩
    · exact ⟨plainAt_pos hm, plainAt_unguarded hm⟩
  simp only [optGroup, hn, halgo, hzero, hshadow, Nat.mul_zero, Nat.add_zero, Nat.sub_zero, hmin, bne_self_eq_false, if_neg Bool.false_ne_true, List.cons_append, List.nil_append, List.append_nil, List.take_succ_cons, List.take_zero,
    State.pageStall, State.absentOf, plainAt_present hw, plainAt_present hg, plainAt_present hm, Option.map_none, List.flatMap_cons, List.flatMap_nil, plainAt_pieces hw, plainAt_pieces hg, plainAt_pieces hm, hgate, vaRead_plain hw hp, vaRead_plain hg hp, vaRead_plain hm hp,
    poisElem_replicate_false, poisElem_nil, Bool.or_false, if_neg Nat.zero_ne_one, if_neg (show ¬ 0 = 2 by decide), Nat.zero_div, Nat.zero_mod, Bool.not_false, Bool.or_true, if_true]
  have hmom (u : List Byte) (hu : u.length = 4 * n) := stored_vaWrite (s := { s with tick := s.tick + 4 * n }) hm hp hu (getD_map_false (List.range (n * 4)))
  refine ⟨_, _, _, hmom _ ?_, ?_, stored_vaWrite (stored_plainAt (hmom _ ?_) hw) (stored_poison (hmom _ ?_)) ?_ (getD_map_false _), ?_, trivial, trivial⟩
  all_goals rw [length_packF, List.length_map, List.length_map, List.length_range]

end

/-- An SGD step of one group writes its moments and its weights and nothing else in memory (R134). -/
theorem exec_optStep_sgd {w g m : Nat} (hup : s.isUp = true) (hp : s.poison = []) (hwf : memWf s.mem = true) (h : s.ssuGoing l c k 0x08 e) (hn : dfield e.bytes 88 4 = n)
    (hpos : 1 ≤ n) (hn512 : n ≤ 512) (halgo : dfield e.bytes 92 1 = 0) (hzero : dfield e.bytes 93 1 = 0) (hshadow : dfield e.bytes 80 8 = 0) (hgroup : e.group = 0)
    (hw : s.plainAt c (dfield e.bytes 48 8 % 2 ^ 48) (4 * n) w) (hg : s.plainAt c (dfield e.bytes 56 8 % 2 ^ 48) (4 * n) g)
    (hm : s.plainAt c (dfield e.bytes 64 8 % 2 ^ 48) (4 * n) m) :
    Completes (.optStep l c k) s (fun t => ∀ b, (b < w ∨ w + 4 * n ≤ b) → (b < m ∨ m + 4 * n ≤ b) → memGet t.mem b = memGet s.mem b) := by
  have hsgd : (optArgs e.bytes s.tick).1.algo = 0 := by rw [optArgs, halgo]
  obtain ⟨t, u, v, hmom, hu, hwts, hv, hstall, hone⟩ := optGroup_sgd (s := { s with tick := s.tick + 2 }) (o := .desc c e.ring e.index) (trust := FP.zero) hp hsgd hn hn512 hzero hshadow hw hg hm
    (optArgs e.bytes s.tick).2
  have hrun := optGroups_one (c := c) (o := .desc c e.ring e.index) (b := e.bytes) (args := (optArgs e.bytes s.tick).1) (trust := FP.zero) (pass := 0)
    (x := { st := { s with tick := s.tick + 2 }, group := 0, sticky := (optArgs e.bytes s.tick).2 }) rfl rfl (by omega) (by rw [hone]; omega) (n / 512)
  refine ⟨_, exec_ssuRow hup h rfl, fun b hbw hbm => ?_⟩
  have hne : ¬ n = 0 := by omega
  simp only [State.optStep, hn, if_neg hne, hsgd, hgroup, hrun, hstall]
  rw [if_pos (show 0 ≠ 2 by decide), ssuEnd_mem, stored_ne hwts (stored_memWf hmom hwf) (by rwa [hv])]
  exact stored_ne hmom hwf (by rwa [hu])

/-- A step of no elements ends. -/
theorem exec_optStep_empty (hup : s.isUp = true) (h : s.ssuGoing l c k 0x08 e) (hn : dfield e.bytes 88 4 = 0) : exec (.optStep l c k) s = .next (s.ssuEnd c e 0 0 0) := by
  refine (exec_ssuRow hup h rfl).trans (congrArg Host.Outcome.next ?_)
  rw [State.optStep, hn]
  rfl

end Sys2Proof.Machine
end

section
/-! PROOFS. O18: PARITY, MIGRATE and NOISE_REKEY (R132, R137, R139, R181, R182). -/

namespace Sys2Proof.Machine

variable {s : State} {l c k : Nat} {e : SsuCmd}

/-! ### PARITY (R137) -/

/-- A check counts the stripes whose stored parity differs. -/
theorem exec_parity_check (hup : s.isUp = true) (h : s.ssuGoing l c k 0x0B e) (hmode : dfield e.bytes 64 1 % 4 = 1) :
    exec (.parity l c k) s = .next (s.ssuEnd c e 0 0 (((s.parityPlan c e.bytes).2.1.filter (s.parityBad (s.parityPlan c e.bytes).1)).length % 2 ^ 32)) := by
  rw [exec_ssuRow hup h rfl, State.parityCmd, hmode]
  rfl

/-- A recomputation goes through the stripes in order. -/
theorem exec_parity_recompute (hup : s.isUp = true) (h : s.ssuGoing l c k 0x0B e) (hmode : dfield e.bytes 64 1 % 4 = 0) :
    exec (.parity l c k) s
      = .next (((s.parityPlan c e.bytes).2.1.foldl (fun t o => t.recomputeParity (s.parityPlan c e.bytes).1 o) s).ssuEnd c e 0 0 0) := by
  rw [exec_ssuRow hup h rfl, State.parityCmd, hmode]
  rfl

/-- A number of 32 bytes written over a sector is read back. -/
theorem memberSec_wrSec (hp : s.poison = []) (hm : memWf s.mem = true) (p off n : Nat) :
    (s.wrSec (lsBase p + off) (leBytes 32 n)).memberSec p off = n % 2 ^ 256 := by
  have hgets := memGets_memPuts (l := leBytes 32 n) (a := lsBase p + off) hm
  rw [length_leBytes] at hgets
  rw [State.memberSec, State.rd, wrSec_mem_of_clean (secPois_of_poison_nil hp _), hgets, ofLe_leBytes, show 256 ^ 32 = 2 ^ 256 from rfl]

/-- A recomputed parity sector holds the XOR of its stripe, and no other byte of memory changes (R182). -/
theorem recomputeParity_spec {ms : List Nat} {b len p off : Nat} (hp : s.poison = []) (hm : memWf s.mem = true)
    (hms : ms[(off - b) / 2048 % 8]? = some p) :
    (s.recomputeParity (ms, b, len) off).memberSec p off = s.stripeXor ms p 99 off % 2 ^ 256 ∧
    SameMemBut s (s.recomputeParity (ms, b, len) off) (lsBase p + off) 32 := by
  have hguard : State.recomputeParity.guardParity (ms, b, len) off = p := by rw [State.recomputeParity.guardParity, hms, Option.getD_some]
  have hlen : (leBytes 32 (s.stripeXor ms p 99 off)).length = 32 := length_leBytes ..
  rw [State.recomputeParity, hguard]
  refine ⟨memberSec_wrSec (s := s.dropDeltas p off) hp hm _ _ _, fun x hx => ?_⟩
  exact memGet_wrSec_ne (s := s.dropDeltas p off) hm (by rwa [hlen])

/-! ### MIGRATE and NOISE_REKEY (R132, R139) -/

/-- MIGRATE gives the stack to the reserve tile and begins the copy. -/
theorem exec_migrate_begins (hup : s.isUp = true) (h : s.ssuGoing l c k 0x0D e) (hm : (s.stack l).mig = none) :
    exec (.migrate l c k) s = .next (s.withStack l { s.stack l with
      die := dfield e.bytes 48 1 % 64, mig := some { src := (s.stack l).die, dst := dfield e.bytes 48 1 % 64, cursor := 0, planned := true } }) := by
  rw [exec_ssuRow hup h rfl, hm, Option.isSome_none, if_neg Bool.false_ne_true, State.migrate, modStack_eq (going_lt h)]

theorem exec_noiseRekey (hup : s.isUp = true) : exec (.noiseRekey l) s = .next (if 2 ^ 32 ≤ (s.stack l).noise then
    { s.modStack l (fun x => { x with noiseKey := s.tick, noise := x.noise - 2 ^ 32 }) with tick := s.tick + 1 } else s) :=
  upDo_up hup (fun s => if 2 ^ 32 ≤ (s.stack l).noise then
    { s.modStack l (fun x => { x with noiseKey := s.tick, noise := x.noise - 2 ^ 32 }) with tick := s.tick + 1 } else s)

/-! ### The obligation -/

/-- Settles O18: each command of one row, one range or one group is followed to its writes, which the rules for plain ranges describe. -/
theorem stackSideCommandsMoveWipeAndMigrate : Obligations.StackSideCommandsMoveWipeAndMigrate := by
  unfold Obligations.StackSideCommandsMoveWipeAndMigrate
  refine ⟨fun s l c k e hup hp hm => ⟨?gather, ?scatter, ?wipe, ?sgd, exec_optStep_empty hup, ?gatherEmpty, ?scatterEmpty⟩,
    fun s l c k e hup => ⟨exec_parity_check hup, exec_parity_recompute hup, ?stripe, exec_migrate_begins hup, ?fresh, ?kept⟩⟩
  case gather =>
    intro pt pi pf v h hcount hmode hg hn hidx hv hlt hrow htab hva hpf _ hmeet
    exact exec_ssuGather_one hup hp hm hcount hmode hg hn hidx hv hlt hrow htab hva hpf h hmeet
  case scatter =>
    intro pt pi pf v h hcount hmode hg hn hidx hv hlt hrow htab hva hpf _
    exact exec_scatter_one hup hp hm hcount hmode hg hn hidx hv hlt hrow htab hva hpf h
  case wipe =>
    intro a n h hlen _ hrange
    subst hlen
    exact exec_wipe_plain hup hm h hrange
  case sgd =>
    intro w g m n h hn hpos hn512 halgo hzero hshadow hgroup hw hg hmom
    exact exec_optStep_sgd hup hp hm h hn hpos hn512 halgo hzero hshadow hgroup hw hg hmom
  case gatherEmpty =>
    intro h hcount hg hn
    exact (exec_ssuRow (f := fun s e => s.rowCmd l c k e false) hup h rfl).trans (congrArg _ (rowCmd_zero hcount hg hn))
  case scatterEmpty =>
    intro h hcount hg hn
    exact (exec_ssuRow (f := fun s e => s.rowCmd l c k e true) hup h rfl).trans (congrArg _ (rowCmd_zero hcount hg hn))
  case stripe => exact fun ms b len p off hp hm hms _ _ => recomputeParity_spec hp hm hms
  case fresh => exact fun hl hnoise => by rw [exec_noiseRekey hup, if_pos hnoise, modStack_eq hl]
  case kept => exact fun hnoise => by rw [exec_noiseRekey hup, if_neg (Nat.not_le.mpr hnoise)]

end Sys2Proof.Machine
end

section
/-! PROOFS. Attention rows that have seen no position, and the outputs they give (R156 to R158, R160). -/

namespace Sys2Proof.Machine

/-! ### Bytes -/

theorem memGets_add (m : List Host.Cell) (b p q : Nat) : memGets m b (p + q) = memGets m b p ++ memGets m (b + p) q := by
  induction p generalizing b with
  | zero => rw [Nat.zero_add]; rfl
  | succ p ih => rw [Nat.add_right_comm, memGets, memGets, ih, List.cons_append, Nat.add_assoc, Nat.add_comm 1 p]

theorem leBytes_zero (n : Nat) : leBytes n 0 = List.replicate n 0 := by
  induction n with
  | zero => rfl
  | succ n ih =>
    rw [leBytes, Nat.zero_div, ih, List.replicate_succ]
    rfl

theorem pack_zeros (f n : Nat) : pack f (List.replicate n 0) = List.replicate (packLen f n) 0 := by
  have hsum : (List.replicate n 0).foldr (fun x acc => x % 2 ^ fmtBits f + 2 ^ fmtBits f * acc) 0 = 0 := by
    induction n with
    | zero => rfl
    | succ n ih => rw [List.replicate_succ, List.foldr_cons, ih, Nat.zero_mod, Nat.mul_zero]
  rw [pack, hsum, leBytes_zero, List.length_replicate]

theorem ofLe_zeros (n : Nat) : ofLe (List.replicate n 0) = 0 := by
  induction n with
  | zero => rfl
  | succ n ih => rw [List.replicate_succ, ofLe, ih]; rfl

/-! ### Rows that have seen no position -/

/-- A row of dimension `d` that has seen no position: its sum is +0, and it is neither NaN nor poisoned. -/
structure AttRow.Unseen (d : Nat) (x : AttRow) : Prop where
  nan : x.nan = false
  sum : x.l = FP.zero
  dim : x.o.length = d
  clean : x.pois = false

/-- The row that every query starts as. -/
theorem unseen_start {d : Nat} {p : Bool} (hp : p = false) (n : Nat) : AttRow.Unseen d { o := List.replicate d FP.zero, seen := n, pois := p } :=
  ⟨rfl, rfl, List.length_replicate, hp⟩

section
variable {d f : Nat} (hf : f ≤ 1)
include hf

/-- FP32 and BF16 elements fill their bytes. -/
theorem packLen_outFmt (n : Nat) : packLen f n = n * (fmtBits f / 8) := by
  obtain rfl | rfl := Nat.le_one_iff_eq_zero_or_eq_one.mp hf <;> simp only [packLen, fmtBits] <;> omega

theorem writeElem_zero (u : Nat) : writeElem f {} u FP.zero = (0, 0) := by
  obtain rfl | rfl := Nat.le_one_iff_eq_zero_or_eq_one.mp hf <;> rfl

/-- A final row of no position is +0 in every element (R157). -/
theorem finalRow_unseen {x : AttRow} (hx : x.Unseen d) (t : Nat) : (finalRow f t x).1 = List.replicate (d * (fmtBits f / 8)) 0 := by
  have hzero : FP.zero.isZero = true := rfl
  simp only [finalRow, hx.nan, hx.sum, hzero, if_true, if_neg Bool.false_ne_true, writeElem_zero hf, List.map_const',
    List.length_zipIdx, hx.dim, List.map_replicate, pack_zeros, packLen_outFmt hf]

/-- The final output of rows of no position is zeros without poison. -/
theorem outRows_unseen {rows : List AttRow} (hrows : ∀ x ∈ rows, x.Unseen d) (t : Nat) :
    (outRows true f t rows).1 = List.replicate (rows.length * d * (fmtBits f / 8)) 0 ∧ ∀ j : Nat, (outRows true f t rows).2.1[j]?.getD false = false := by
  have hrow {x : AttRow × Nat} (hx : x ∈ rows.zipIdx) : x.1.Unseen d := hrows x.1 (List.fst_mem_of_mem_zipIdx hx)
  simp only [outRows, if_true, List.flatMap_map]
  refine ⟨List.eq_replicate_iff.mpr ⟨?_, fun b hb => ?_⟩, fun j => ?_⟩
  · rw [length_flatMap_of_const (fun x hx => by rw [finalRow_unseen hf (hrow hx), List.length_replicate]), List.length_zipIdx, Nat.mul_assoc]
  · obtain ⟨x, hx, hbx⟩ := List.mem_flatMap.mp hb
    rw [finalRow_unseen hf (hrow hx)] at hbx
    exact List.eq_of_mem_replicate hbx
  · cases hj : (rows.zipIdx.flatMap fun x => (finalRow f (t + 256 * x.2) x.1).1.map fun _ => x.1.pois)[j]? with
    | none => rfl
    | some p =>
      obtain ⟨x, hx, hpx⟩ := List.mem_flatMap.mp (List.mem_of_getElem? hj)
      obtain ⟨-, -, rfl⟩ := List.mem_map.mp hpx
      exact (hrow hx).clean

end

/-! ### One triple that has seen no position (Table 6.5) -/

/-- The record of a triple of dimension `d` that has seen no position: its maximum is −∞, and the rest is zero. -/
def unseenTriple (d : Nat) : List Byte := [0x00, 0x00, 0x80, 0xFF] ++ List.replicate (28 + 4 * d) 0

theorem length_unseenTriple (d : Nat) : (unseenTriple d).length = 32 + 4 * d := by
  simp only [unseenTriple, List.length_append, List.length_cons, List.length_nil, List.length_replicate]
  omega

theorem fieldAt_unseenTriple_zero (d : Nat) : fieldAt (unseenTriple d) 0 4 = 0xFF800000 := by
  have hfour : (unseenTriple d).take 4 = [0x00, 0x00, 0x80, 0xFF] := List.take_left' (l₁ := [0x00, 0x00, 0x80, 0xFF]) rfl
  rw [fieldAt, List.drop_zero, hfour]
  decide

theorem fieldAt_unseenTriple_succ (d i n : Nat) : fieldAt (unseenTriple d) (4 * (i + 1)) n = 0 := by
  have hfour : ([0x00, 0x00, 0x80, 0xFF] : List Byte).length = 4 := rfl
  have hdrop : (unseenTriple d).drop (4 * (i + 1)) = List.replicate (28 + 4 * d - 4 * i) 0 := by
    rw [unseenTriple, List.drop_append, List.drop_eq_nil_of_le (by rw [hfour]; omega), List.nil_append, List.drop_replicate, hfour]
    congr 1
  rw [fieldAt, hdrop, List.take_replicate, ofLe_zeros]

/-- Read, the record gives −∞ as the maximum, and no NaN. -/
theorem readTriple_unseen (d : Nat) : (readTriple d (unseenTriple d) false).m = .inf true ∧ (readTriple d (unseenTriple d) false).nan = false := by
  have hws : (List.range (d + 8)).map (fun i => f32 (fieldAt (unseenTriple d) (4 * i) 4)) = .inf true :: List.replicate (d + 7) (f32 0) := by
    rw [List.range_succ_eq_map, List.map_cons, List.map_map, fieldAt_unseenTriple_zero]
    simp only [Function.comp_def, Nat.succ_eq_add_one, fieldAt_unseenTriple_succ, List.map_const', List.length_range]
    rfl
  have hne : (f32 0 == FP.nan) = false := by decide
  simp only [readTriple, hws]
  simp [List.replicate_succ, hne]

/-- The merge of one triple that has seen no position has seen none (R160). -/
theorem mergeRow_unseen {d : Nat} {x : AttRow} (hnan : x.nan = false) (hm : x.m = .inf true) (hp : x.pois = false) (t : Nat) : (mergeRow d t [x]).1.Unseen d := by
  have hmax : FP.max (.inf true) (.inf true) = .inf true := rfl
  simp only [mergeRow, List.any_cons, List.any_nil, Bool.or_false, hnan, hm, hp, List.foldl_cons, List.foldl_nil, hmax, beq_self_eq_true, if_true, if_neg Bool.false_ne_true]
  exact unseen_start rfl _

end Sys2Proof.Machine
end

section
/-! PROOFS. O19: ATTEND and MERGE where no position is visible (R149, R156 to R160). -/

namespace Sys2Proof.Machine

variable {s t : State} {l c k n a out : Nat} {e : SsuCmd}

/-! ### Plain ranges while a command is counted -/

/-- A stack changed outside its directory leaves every plain range plain. -/
theorem plainAt_withStack {va : Nat} {x : Stack} (hdir : x.dir = (s.stack l).dir) (h : s.plainAt c va n a) : (s.withStack l x).plainAt c va n a := by
  have hhome (m : Nat) : ((s.withStack l x).home m).dir = (s.home m).dir := by
    unfold State.home
    split
    · rfl
    · by_cases hm : m = l
      · rw [hm, stack_withStack, hdir]
      · rw [stack_withStack_ne hm]
  refine plainAt_of_mapsAs (s := s) ⟨rfl, fun _ _ => rfl, fun _ _ _ _ => rfl⟩ (fun b m hu => ?_) h
  obtain ⟨hcoh, hcache, hdirs⟩ := hu
  exact ⟨hcoh, hcache, fun j y hy => hdirs j y (by rwa [hhome] at hy)⟩

/-! ### Zeros written to OUT (R151, R158) -/

/-- Zeros without poison written to a plain OUT in memory: the command completes with them, and nothing else in memory changes. -/
theorem completes_attOut {i : Instr} {data : List Byte} {bad : List Bool} {code : BitVec 16} {st : Sticky} {detail : Nat}
    (hi : exec i s = .next (t.attOut l c k e out data bad code st detail)) (hmem : t.mem = s.mem) (hm : memWf s.mem = true) (hp : t.poison = [])
    (hpeer : t.opPeer c (.va out) = none) (hout : t.plainAt c out n a) (hdata : data = List.replicate n 0) (hbad : ∀ j : Nat, bad[j]?.getD false = false) :
    Completes i s (fun u => (∀ j, j < n → memGet u.mem (a + j) = 0) ∧ SameMemBut s u a n) := by
  have hlen : data.length = n := by rw [hdata, List.length_replicate]
  obtain ⟨u, hu, hst⟩ := vaWrite_plain hout hp hlen hbad
  rw [← hmem] at hm
  refine ⟨_, hi, ?_⟩
  simp only [State.attOut, hpeer, hu, SameMemBut, ssuEnd_mem]
  refine ⟨fun j hj => ?_, fun b hb => by rw [stored_ne hst hm (by rwa [hlen]), hmem]⟩
  have hget := getElem?_memGets u.mem (a := a) hj
  rw [stored_memGets hst hm hlen, hdata, List.getElem?_replicate, if_pos hj] at hget
  exact (Option.some.inj hget).symm

/-! ### ATTEND -/

theorem exec_attend_going (hup : s.isUp = true) (h : s.ssuGoing l c k 0x10 e) : exec (.attend l c k) s = .next (s.attend l c k e) :=
  exec_ssuRow (f := fun s e => s.attend l c k e) hup h rfl

/-- ATTEND of no rows ends. -/
theorem attend_no_rows (hsec : e.second = false) (hrows : (attArgs e.bytes).rows = 0) : s.attend l c k e = s.ssuEnd c e 0 0 0 := by
  rw [State.attend, hsec, if_neg Bool.false_ne_true, if_pos hrows]

/-- ATTEND over a catalogue of no positions goes through no page, and its rows stay as they start. -/
theorem attend_unseen {pq po : Nat} (hl : l < 32) (hsec : e.second = false) (hp : s.poison = []) (hrows : (attArgs e.bytes).rows ≠ 0) (hfinal : (attArgs e.bytes).final = true)
    (hbias : (attArgs e.bytes).biasMode = 0)
    (hq : s.plainAt c (attArgs e.bytes).q ((attArgs e.bytes).rows * (attArgs e.bytes).dim * (fmtBits (attArgs e.bytes).qFmt / 8)) pq)
    (hout : s.plainAt c (attArgs e.bytes).out ((attArgs e.bytes).rows * (attArgs e.bytes).dim * (fmtBits (attArgs e.bytes).outFmt / 8)) po)
    (habs : s.vaAbsent c (attArgs e.bytes).bias 0 = none) (hcount : (catHead e.head).count = 0) :
    ∃ (y : Stack) (m m' : Nat) (rows : List AttRow) (code : BitVec 16) (st : Sticky) (detail : Nat), y.dir = (s.stack l).dir ∧
      rows.length = (attArgs e.bytes).rows ∧ (∀ x ∈ rows, x.Unseen (attArgs e.bytes).dim) ∧
      s.attend l c k e = ({ s.withStack l y with tick := m } : State).attOut l c k e (attArgs e.bytes).out
        (outRows true (attArgs e.bytes).outFmt m' rows).1 (outRows true (attArgs e.bytes).outFmt m' rows).2.1 code st detail := by
  have hpages (m : Nat) : freeOrder m (List.range ((0 + 255) / 256)) = [] := rfl
  simp only [State.attend, hsec, hrows, hfinal, hbias, hcount, hpages, if_true, if_neg Bool.false_ne_true, if_false, State.absentOf, plainAt_present hq, plainAt_present hout, habs,
    vaPieces_zero, List.append_nil, readGate_plain hq, vaRead_plain hq hp, List.foldl_nil, poisElem_replicate_false, Bool.or_false, modStack_eq hl, ne_eq, not_true_eq_false,
    if_neg (show ¬ (0 : BitVec 16) = 0x3001 by decide)]
  refine ⟨_, _, _, _, _, _, _, ?_, ?_, ?_, rfl⟩
  · rfl
  · simp only [List.length_map, List.length_zipIdx, List.length_range]
  · intro x hx
    obtain ⟨y, hy, rfl⟩ := List.mem_map.mp hx
    obtain ⟨r, -, hr⟩ := List.mem_map.mp (List.fst_mem_of_mem_zipIdx hy)
    exact unseen_start (by rw [← hr]) 0

/-! ### MERGE -/

theorem exec_merge_going (hup : s.isUp = true) (h : s.ssuGoing l c k 0x11 e) : exec (.merge l c k) s = .next (s.merge l c k e) :=
  exec_ssuRow (f := fun s e => s.merge l c k e) hup h rfl

/-- MERGE of no rows, or of no triples, ends. -/
theorem merge_no_rows (hsec : e.second = false) (hrows : dfield e.bytes 44 1 % 32 = 0 ∨ dfield e.bytes 45 1 % 128 = 0) : s.merge l c k e = s.ssuEnd c e 0 0 0 := by
  rw [State.merge, hsec, if_neg Bool.false_ne_true, if_pos hrows]

/-- MERGE of one triple of one row that has seen no position into a final output. -/
theorem merge_unseen {d pi po : Nat} (hsec : e.second = false) (hp : s.poison = []) (hrows : dfield e.bytes 44 1 = 1) (hn : dfield e.bytes 45 1 = 1)
    (hd : 32 * (dfield e.bytes 46 1 % 16) = d) (hflags : dfield e.bytes 47 1 = 1) (hin : s.plainAt c (dfield e.bytes 48 8 % 2 ^ 48) (32 + 4 * d) pi)
    (hout : s.plainAt c (dfield e.bytes 56 8 % 2 ^ 48) (4 * d) po) (hrec : memGets s.mem pi (32 + 4 * d) = unseenTriple d) :
    ∃ (m m' : Nat) (row : AttRow) (code : BitVec 16) (st : Sticky), row.Unseen d ∧
      s.merge l c k e = ({ s with tick := m } : State).attOut l c k e (dfield e.bytes 56 8 % 2 ^ 48) (outRows true 0 m' [row]).1 (outRows true 0 m' [row]).2.1 code st 0 := by
  have hlen (p : Nat) : tableLen 1 p (32 + 4 * d) = 32 + 4 * d := by rw [tableLen, if_neg Nat.one_ne_zero, Nat.sub_self, Nat.zero_mul, Nat.zero_add]
  have hout' : s.vaAbsent c (dfield e.bytes 56 8 % 2 ^ 48) (d * 4) = none := by rw [Nat.mul_comm]; exact plainAt_present hout
  have hread : (unseenTriple d).take (32 + 4 * d) = unseenTriple d := List.take_of_length_le (length_unseenTriple d).le
  obtain ⟨hm, hnan⟩ := readTriple_unseen d
  simp only [State.merge, hsec, hrows, hn, hd, hflags, if_neg Bool.false_ne_true, Nat.reduceMod, Nat.reduceDiv, Nat.one_ne_zero, or_self, if_false, if_true, Nat.one_mul, hlen, show fmtBits 0 / 8 = 4 from rfl,
    State.absentOf, plainAt_present hin, hout', readGate_plain hin, vaRead_plain hin hp, List.range_one, List.map_cons, List.map_nil, Nat.zero_mul, Nat.add_zero, List.drop_zero,
    poisElem_replicate_false, hrec, hread, beq_self_eq_true]
  exact ⟨_, _, _, _, _, mergeRow_unseen hnan hm rfl _, rfl⟩

/-! ### The obligation -/

/-- Settles O19: a row that has seen no position keeps the sum +0 it starts with, from which a final output is zeros, and these are all that is written. -/
theorem attentionOutputsOfUnseenRows : Obligations.AttentionOutputsOfUnseenRows := by
  unfold Obligations.AttentionOutputsOfUnseenRows
  intro s l c k e hup hsec
  refine ⟨fun h hrows => ?attendEmpty, fun h hrows => ?mergeEmpty, fun pq po h hp hm hrows hfinal hbias hfmt _ hq hout habs hpeer hcount => ?attend,
    fun pi po d h hp hm hrows hn hd _ hflags hin hout hpeer hmax hrest => ?merge⟩
  case attendEmpty => rw [exec_attend_going hup h, attend_no_rows hsec hrows]
  case mergeEmpty => rw [exec_merge_going hup h, merge_no_rows hsec hrows]
  case attend =>
    obtain ⟨x, m, m', rows, code, st, detail, hdir, hlen, hunseen, hrun⟩ := attend_unseen (k := k) (going_lt h) hsec hp hrows hfinal hbias hq hout habs hcount
    obtain ⟨hzeros, hclean⟩ := outRows_unseen hfmt hunseen m'
    rw [hlen] at hzeros
    exact completes_attOut ((exec_attend_going hup h).trans (congrArg _ hrun)) rfl hm hp hpeer (plainAt_withStack hdir hout) hzeros hclean
  case merge =>
    have hrec : memGets s.mem pi (32 + 4 * d) = unseenTriple d := by
      rw [show 32 + 4 * d = 4 + (28 + 4 * d) by omega, memGets_add, hmax, hrest, unseenTriple]
    obtain ⟨m, m', row, code, st, hunseen, hrun⟩ := merge_unseen (l := l) (k := k) hsec hp hrows hn hd.symm hflags hin hout hrec
    obtain ⟨hzeros, hclean⟩ := outRows_unseen (Nat.zero_le 1) (List.forall_mem_singleton.mpr hunseen) m'
    rw [List.length_singleton, Nat.one_mul, Nat.mul_comm] at hzeros
    exact completes_attOut ((exec_merge_going hup h).trans (congrArg _ hrun)) rfl hm hp hpeer hout hzeros hclean

end Sys2Proof.Machine
end

section
/-! PROOFS. Canonical memory (R171, R177): what it means that a state, or the answer of a command, is canonical, how that passes through branches and folds, and the three operations that write memory or poison. -/

namespace Sys2Proof.Machine

variable {s t : State}

/-- Memory and the list of poisoned sectors are in canonical form. -/
structure State.Canon (s : State) : Prop where
  mem : memWf s.mem = true
  poison : poisonWf s.poison = true

/-- The state a command answers is canonical. -/
structure Res.Canon (r : Res) : Prop where
  canon : ∀ t, r = .next t → t.Canon

/-! ### Branches, folds and updates of other fields -/

theorem State.Canon.ite {c : Prop} [Decidable c] {a b : State} (ha : a.Canon) (hb : b.Canon) :
    (if c then a else b).Canon := by
  split <;> assumption

/-- A branch read through the projection `f` that yields its state. -/
theorem State.Canon.iteOf {α : Type} (f : α → State) {c : Prop} [Decidable c] {a b : α}
    (ha : (f a).Canon) (hb : (f b).Canon) :
    (f (if c then a else b)).Canon := by
  split <;> assumption

theorem State.Canon.foldl {α : Type} {f : State → α → State} {l : List α} (h : s.Canon)
    (hf : ∀ t x, t.Canon → (f t x).Canon) :
    (l.foldl f s).Canon := by
  induction l generalizing s with
  | nil => exact h
  | cons x l ih => exact ih (hf s x h)

/-- A fold over values that the projection `p` takes to their state. -/
theorem State.Canon.foldlOf {α β : Type} (p : β → State) {f : β → α → β} {l : List α} {b : β} (h : (p b).Canon)
    (hf : ∀ b x, (p b).Canon → (p (f b x)).Canon) : (p (l.foldl f b)).Canon := by
  induction l generalizing b with
  | nil => exact h
  | cons x l ih => exact ih (hf b x h)

theorem State.Canon.fst {α : Type} {x : α} (h : s.Canon) : (s, x).1.Canon := h

/-- The state of a pair that a match has taken apart. -/
theorem State.Canon.ofEq {α : Type} {p : State × α} {a : α} (hp : p = (t, a)) (h : p.1.Canon) : t.Canon := by
  subst hp
  exact h

theorem State.Canon.ofMap {α : Type} {x : Option α} {f : α → State} (hf : ∀ a, (f a).Canon)
    (ht : x.map f = some t) : t.Canon := by
  obtain ⟨a, -, rfl⟩ := Option.map_eq_some_iff.mp ht
  exact hf a

theorem State.Canon.ofOrElse {x y : Option State} (hx : x = some t → t.Canon)
    (hy : y = some t → t.Canon) (ht : (x <|> y) = some t) : t.Canon := by
  rcases x with _ | u
  · exact hy ht
  · exact hx ht

/-- The fields other than memory and poison do not matter. -/
theorem State.Canon.upd (h : s.Canon)
    {a0 a1 a2 a3 a4 a5 a8 a9 a10 a11 a12 a13 a14 a15 a16 a17 a18 a19 a20 a21 a22 a23 a24 a25 a26 a27
    a28 a29 a30 a31 a32 a33 a34 a35 a36 a37 a38 a39
    a40 a41 a42} :
    State.Canon
      { s with
        pending := a0, serial := a1, tick := a2, bootDraw := a3, out := a4, inv := a5, tiles := a8
        stk := a9, cmpts := a10, dispCnt := a11
        marks := a12, snaps := a13, stallLimit := a14, posts := a15, unmaps := a16, coh := a17
        sc := a18, graftCaches := a19, hubHome := a20
        stripes := a21, guarded := a22, routers := a23, wires := a24, lost := a25, base := a26
        detours := a27, masters := a28, deadlines := a29
        urgHub := a30, clsCmpts := a31, clsKind := a32, pci := a33, sto := a34, bed := a35
        fab := a36, sites := a37, conf := a38, auth := a39
        upd := a40, flt := a41, pwr := a42 } :=
  ⟨h.mem, h.poison⟩

theorem Res.Canon.next (h : t.Canon) : Res.Canon (.next t) := by
  refine ⟨?_⟩
  rintro _ ⟨⟩
  exact h

theorem Res.Canon.ite {c : Prop} [Decidable c] {a b : Res} (ha : Res.Canon a) (hb : Res.Canon b) :
    Res.Canon (if c then a else b) := by
  split <;> assumption

/-! ### The operations that write memory or poison -/

theorem mem_insNat {l : List Nat} {a b : Nat} : b ∈ insNat l a ↔ b = a ∨ b ∈ l := by
  induction l with
  | nil => simp [insNat]
  | cons k l ih =>
    simp only [insNat]
    split
    · simp
    · split
      · subst_vars; simp
      · simp [ih, or_left_comm]

theorem pairwise_insNat {l : List Nat} (h : l.Pairwise (· < ·)) (a : Nat) : (insNat l a).Pairwise (· < ·) := by
  induction l with
  | nil => simp [insNat]
  | cons k l ih =>
    obtain ⟨hk, hl⟩ := List.pairwise_cons.mp h
    simp only [insNat]
    split
    next hlt => exact List.pairwise_cons.mpr ⟨by
      intro b hb
      rcases List.mem_cons.mp hb with rfl | hb
      · exact hlt
      · exact hlt.trans (hk b hb), h⟩
    next hle =>
      split
      · exact h
      next hne => exact List.pairwise_cons.mpr ⟨by
        intro b hb
        rcases mem_insNat.mp hb with rfl | hb
        · omega
        · exact hk b hb, ih hl⟩

theorem poisonWf_filter {l : List Nat} (h : poisonWf l = true) (p : Nat → Bool) : poisonWf (l.filter p) = true := by
  simp only [poisonWf, decide_eq_true_eq] at h ⊢
  exact h.filter p

theorem poisonWf_setPois {l : List Nat} (h : poisonWf l = true) (n : Nat) (b : Bool) :
    poisonWf (setPois l n b) = true := by
  unfold setPois
  split
  · simp only [poisonWf, decide_eq_true_eq] at h ⊢
    exact pairwise_insNat h n
  · exact poisonWf_filter h _

theorem State.Canon.poisonSec {sec : Nat} (h : s.Canon) : (s.poisonSec sec).Canon :=
  ⟨memWf_poisonSec h.mem sec, poisonWf_setPois h.poison sec true⟩

theorem State.Canon.wrSec {a : Nat} {l : List Byte} (h : s.Canon) : (s.wrSec a l).Canon :=
  .ite ⟨memWf_memPuts h.mem a, poisonWf_setPois h.poison _ false⟩ (.ite h ⟨memWf_memPuts h.mem a, h.poison⟩)

end Sys2Proof.Machine
end

section
/-! PROOFS. Canonical memory: the operations of Machine/Ops.lean keep it. -/

namespace Sys2Proof.Machine

variable {s t : State}

theorem State.Canon.wrGo {fuel : Nat} {a : Nat} {v : List Byte} (h : s.Canon) : (State.wrGo fuel s a v).Canon := by
  induction fuel generalizing s a v with
  | zero => exact h
  | succ fuel ih => exact .ite h (ih h.wrSec)

theorem State.Canon.wr {a : Nat} {l : List Byte} (h : s.Canon) : (s.wr a l).Canon :=
  h.wrGo

theorem State.Canon.poisonRange {a n : Nat} (h : s.Canon) : (s.poisonRange a n).Canon :=
  h.foldl (fun _ _ h => h.poisonSec)

theorem State.Canon.modTile {d : Nat} {f : Tile → Tile} (h : s.Canon) : (s.modTile d f).Canon :=
  .ite h.upd h

theorem State.Canon.modCore {d i : Nat} {f : Core → Core} (h : s.Canon) : (s.modCore d i f).Canon :=
  .ite h.modTile h

theorem State.Canon.modMem {d : Nat} {f : MemCtl → MemCtl} (h : s.Canon) : (s.modMem d f).Canon :=
  h.modTile

theorem State.Canon.modStack {l : Nat} {f : Stack → Stack} (h : s.Canon) : (s.modStack l f).Canon :=
  .ite h.upd h

theorem State.Canon.modCmpt {c : Nat} {f : Cmpt → Cmpt} (h : s.Canon) : (s.modCmpt c f).Canon :=
  .ite h.upd h

theorem State.Canon.modRouter {d : Nat} {f : Router → Router} (h : s.Canon) : (s.modRouter d f).Canon :=
  .ite h.upd h

theorem State.Canon.modMaster {die m : Nat} {f : Master → Master} (h : s.Canon) : (s.modMaster die m f).Canon :=
  .ite h.upd h

theorem State.Canon.modSite {k : Nat} {f : Site → Site} (h : s.Canon) : (s.modSite k f).Canon :=
  .ite h.upd h

theorem State.Canon.modFport {p : Nat} {f : FabPort → FabPort} (h : s.Canon) : (s.modFport p f).Canon :=
  .ite h.upd h

theorem State.Canon.modDrive {d : Nat} {f : Drive → Drive} (h : s.Canon) : (s.modDrive d f).Canon :=
  .ite h.upd h

theorem State.Canon.modRing {c k : Nat} {f : SubRing → SubRing} (h : s.Canon) : (s.modRing c k f).Canon :=
  .ite h.modCmpt h

theorem State.Canon.gateEnd {die line : Nat} (h : s.Canon) : (s.gateEnd die line).Canon := by
  unfold State.gateEnd
  refine .ite h ?_
  dsimp only
  split
  · exact h.modSite.upd
  · exact h

theorem State.Canon.emit {o : Out} (h : s.Canon) : (s.emit o).Canon :=
  h.upd

theorem State.Canon.nextSerial (h : s.Canon) : s.nextSerial.2.Canon :=
  h.upd

theorem State.Canon.draw (h : s.Canon) : s.draw.2.Canon :=
  h.upd

theorem Res.Canon.upDo {f : State → State} (h : s.Canon) (hf : ∀ t, t.Canon → (f t).Canon) : Res.Canon (upDo s f) :=
  .next (.ite (hf _ h) h)

theorem Res.Canon.onDo {f : State → State} (h : s.Canon) (hf : ∀ t, t.Canon → (f t).Canon) : Res.Canon (onDo s f) :=
  .next (.ite (hf _ h) h)

theorem State.Canon.clearWins {c : Nat} (h : s.Canon) : (s.clearWins c).Canon :=
  h.upd

theorem State.Canon.raise {fn v : Nat} (h : s.Canon) : (s.raise fn v).Canon :=
  .ite h (.ite h.modCmpt h.emit)

theorem State.Canon.eventX {fn code src : Nat} {detail : BitVec 64} {extra : Nat} (h : s.Canon) :
    (s.eventX fn code src detail extra).Canon :=
  .ite h (.ite h.modCmpt (.ite h.emit.modCmpt.raise h.emit.modCmpt))

theorem State.Canon.event {fn code src : Nat} {detail : BitVec 64} (h : s.Canon) : (s.event fn code src detail).Canon :=
  h.eventX

theorem State.Canon.report {code reason die unit lstack count off len : Nat} {detail : BitVec 64} (h : s.Canon) :
    (s.report code reason die unit lstack count off len detail).Canon :=
  h.draw.upd

theorem State.Canon.replaceCause {b : Nat} (h : s.Canon) : (s.replaceCause b).Canon :=
  (h.upd.foldl (fun _ _ h' => h'.emit)).event

theorem State.Canon.setInv {i : Inv} (h : s.Canon) : (s.setInv i).Canon :=
  h.upd

theorem State.Canon.aerLog {fn : Nat} {e : AerErr} (h : s.Canon) : (s.aerLog fn e).Canon :=
  h.modCmpt.emit

theorem State.Canon.portDenied {p : Port} {off : Nat} (h : s.Canon) : (s.portDenied p off).Canon := by
  unfold State.portDenied
  dsimp only
  split
  · exact h.upd.event
  · exact h.upd.event
  · exact h.upd.emit
  · exact h.upd.emit
  · exact h.upd.upd

theorem State.Canon.setCounter {u : CtrUnit} {i : Nat} {v : BitVec 16} (h : s.Canon) : (s.setCounter u i v).Canon := by
  unfold State.setCounter
  refine .ite ?_ h
  split
  · exact h.modCore
  · exact h.modStack
  · exact h.upd

theorem State.Canon.addCounter {u : CtrUnit} {i inc : Nat} (h : s.Canon) : (s.addCounter u i inc).Canon :=
  h.setCounter

theorem State.Canon.tally {d c i inc : Nat} (h : s.Canon) : (s.tally d c i inc).Canon :=
  h.upd

theorem State.Canon.setMark {u : CtrUnit} {c r : Nat} {m : Mark} (h : s.Canon) : (s.setMark u c r m).Canon :=
  h.upd

theorem State.Canon.applyPost {p : PostMsg} (h : s.Canon) : (s.applyPost p).Canon := by
  unfold State.applyPost
  split
  · exact h
  · refine .ite ?_
      (.addCounter
      (by split; exacts [.tally (by split; exacts [h, h.setMark]), by split; exacts [h, h.setMark]]))
    split
    · exact h
    · exact h.setMark

theorem State.Canon.sendPost {p : PostMsg} (h : s.Canon) : (s.sendPost p).Canon :=
  h.upd

theorem State.Canon.coreSend {d i n : Nat} {w : BitVec 32} (h : s.Canon) : (s.coreSend d i n w).Canon := by
  unfold State.coreSend
  refine .ite h.addCounter ?_
  split
  · exact h.sendPost
  · exact h.modCore.sendPost

end Sys2Proof.Machine
end

section
/-! PROOFS. Canonical memory: the operations of Machine/Operands.lean keep it. -/

namespace Sys2Proof.Machine

variable {s t : State}

theorem State.Canon.offer {die m cls cmpt : Nat} {write : Bool} {ps : List (Nat × Nat)}
    (h : s.Canon) : (s.offer die m cls cmpt write ps).Canon := by
  unfold State.offer
  split
  · exact h
  · exact h.modMaster

theorem State.Canon.icMark {a n : Nat} (h : s.Canon) : (s.icMark a n).Canon :=
  .ite h.modCore h

theorem State.Canon.ssuSec {c a : Nat} {l : List Byte} (h : s.Canon) : (s.ssuSec c a l).Canon := by
  unfold State.ssuSec
  dsimp only
  split
  · exact h.wrSec
  · exact .ite h.wrSec (.modStack (.ite h.wrSec h.wrSec.modStack))

theorem State.Canon.ssuGo {fuel : Nat} {a a' : Nat} {v : List Byte} (h : s.Canon) :
    (State.ssuGo fuel s a a' v).Canon := by
  induction fuel generalizing s a' v with
  | zero => exact h
  | succ fuel ih => exact .ite h (ih h.ssuSec)

theorem State.Canon.ssuWr {c a : Nat} {l : List Byte} (h : s.Canon) : (s.ssuWr c a l).Canon :=
  h.ssuGo

theorem State.Canon.ssuPoison {c sec : Nat} (h : s.Canon) : (s.ssuPoison c sec).Canon :=
  .ite (.ite h.ssuSec.poisonSec (.ite h.ssuSec.poisonSec.modStack h.ssuSec.poisonSec.replaceCause)) h.ssuSec.poisonSec

theorem State.Canon.ssuWrPois {c a : Nat} {l : List Byte} {bad : Nat → Bool} (h : s.Canon) :
    (s.ssuWrPois c a l bad).Canon :=
  h.ssuWr.foldl (fun _ _ h => .ite h.ssuPoison h)

theorem State.Canon.markDirtySlots {c i : Nat} {e : Seg} {x n : Nat} (h : s.Canon) :
    (s.markDirtySlots c i e x n).Canon :=
  .ite (h.foldl (fun _ _ h => by split; exacts [h.modCmpt, h])) h

theorem State.Canon.poisonEvent {ls off n : Nat} (h : s.Canon) : (s.poisonEvent ls off n).Canon :=
  .ite (h.foldl (fun _ _ h => h.eventX)) ((h.foldl (fun _ _ h => h.eventX)).eventX)

theorem State.Canon.migAdvance (h : s.Canon) : s.migAdvance.Canon :=
  h.foldl (fun _ _ h => h.draw.modStack)

theorem State.Canon.readRebuilt {ps : List (Nat × Nat)} (h : s.Canon) : (s.readRebuilt ps).1.Canon :=
  .iteOf Prod.fst h h.migAdvance

theorem State.Canon.pageFault {c i page va : Nat} {w : Waiter} (h : s.Canon) : (s.pageFault c i page va w).Canon := by
  unfold State.pageFault
  split
  · exact h.modCmpt
  · refine .ite ?_ h
    split
    · exact h.modCmpt.event
    · exact h

end Sys2Proof.Machine
end

section
/-! PROOFS. Canonical memory: the operations of Machine/Coherence.lean keep it. -/

namespace Sys2Proof.Machine

variable {s t : State}

theorem State.Canon.setCache {die u : Nat} {c : Cache} (h : s.Canon) : (s.setCache die u c).Canon :=
  .ite (.ite h.upd h) (.ite h.upd (.ite h.modTile h.modTile))

theorem State.Canon.setLine {die u ln : Nat} {l : CacheLine} (h : s.Canon) : (s.setLine die u ln l).Canon :=
  h.setCache

theorem State.Canon.homeWrite {c ln : Nat} {m : BitVec 4} {d : BitVec 1024} {p : BitVec 4}
    (h : s.Canon) : (s.homeWrite c ln m d p).Canon :=
  h.foldl (fun _ _ h => .ite (.ite h.ssuPoison h.ssuWr) h)

theorem State.Canon.modHome {h : Nat} {f : Stack → Stack} (hs : s.Canon) : (s.modHome h f).Canon :=
  .ite hs.upd hs.modStack

theorem State.Canon.setDir {h ln : Nat} {e : DirEnt} (hs : s.Canon) : (s.setDir h ln e).Canon :=
  hs.modHome

theorem State.Canon.send {m : CohMsg} (h : s.Canon) : (s.send m).Canon :=
  h.upd

theorem State.Canon.take {n : Nat} {k : CohKind} {m : CohMsg} (h : s.Canon)
    (ht : s.take n k = some (m, t)) : t.Canon := by
  unfold State.take at ht
  split at ht
  · split at ht
    · obtain ⟨rfl, rfl⟩ := by simpa using ht
      exact h.upd
    · exact nomatch ht
  · exact nomatch ht

theorem State.Canon.request {k : CohKind} {die u ln c : Nat} {mask : BitVec 4} {d : BitVec 1024}
    {p : BitVec 4} {cls : BitVec 3} (h : s.Canon) :
    (s.request k die u ln c mask d p cls).Canon :=
  .send (.ite h.offer h)

theorem State.Canon.answer {k : CohKind} {h die u ln c : Nat} {mask : BitVec 4} {d : BitVec 1024}
    {p : BitVec 4} {cls : BitVec 3} (hs : s.Canon) :
    (s.answer k h die u ln c mask d p cls).Canon :=
  hs.send

theorem State.Canon.openTxn {h ln : Nat} {k : CohKind} {dies : List Nat} {t : HomeTxn}
    (hs : s.Canon) : (s.openTxn h ln k dies t).Canon :=
  hs.modHome.foldl (fun _ _ h => h.answer)

theorem State.Canon.ncMerge {m : CohMsg} (h : s.Canon) : (s.ncMerge m).Canon :=
  h.foldl (fun _ _ h => .ite (.ite h.ssuPoison (.ite h.ssuWr (h.foldl (fun _ _ h => .ite h.ssuWr h)))) h)

theorem State.Canon.ncReply {m : CohMsg} (h : s.Canon) : (s.ncReply m).Canon :=
  .ite h.gateEnd.emit h

theorem State.Canon.finishLive {m : CohMsg} (h : s.Canon) : (s.finishLive m).Canon := by
  unfold State.finishLive
  dsimp only
  split
  · exact .ite h.setDir.answer.modHome (.ite h.answer.modHome h.setDir.answer.modHome)
  · exact h.setDir.answer.modHome
  · exact .ite h.setDir.answer.modHome h.setDir.answer.modHome
  · exact .modHome (.ncReply (.ite h.setDir h))
  · split
    · exact .answer (.modHome (.setDir (.ite (.emit (.gateEnd (.setDir (.ite h h.ncMerge))))
        (.setDir (.ite h h.ncMerge)))))
    · exact .modHome (.ite (.emit (.gateEnd (.setDir (.ite h h.ncMerge)))) (.setDir (.ite h h.ncMerge)))
  · exact h.modHome

theorem State.Canon.forget {h ln die : Nat} (hs : s.Canon) : (s.forget h ln die).Canon :=
  .ite hs.upd.setDir hs.upd

theorem State.Canon.finishReq {m : CohMsg} (h : s.Canon) : (s.finishReq m).Canon :=
  .ite h.finishLive.forget h.finishLive

theorem State.Canon.startReq {m : CohMsg} (h : s.Canon) : (s.startReq m).1.Canon := by
  unfold State.startReq
  dsimp only
  split
  · exact .iteOf Prod.fst h.setDir.answer h.answer
  · exact .answer (.ite h.homeWrite.setDir (.ite h.homeWrite h))
  · exact .answer (.ite h.setDir h)
  · refine .iteOf Prod.fst (.iteOf Prod.fst h ?_) (.iteOf Prod.fst (.fst h.openTxn.finishReq) (.fst h.openTxn))
    split
    · exact h
    · exact .fst h.modHome.openTxn

theorem State.Canon.drainGo {fuel : Nat} {a : Nat} (h : s.Canon) : (State.drainGo fuel s a).Canon := by
  induction fuel generalizing s with
  | zero => exact h
  | succ fuel ih =>
    unfold State.drainGo
    dsimp only
    split
    · exact h
    · split
      · exact h
      · exact ih (.ite h.startReq.modHome h.startReq)

theorem State.Canon.drain {h : Nat} (hs : s.Canon) : (s.drain h).Canon :=
  hs.drainGo

theorem State.Canon.arrive {m : CohMsg} (h : s.Canon) : (s.arrive m).Canon :=
  h.modHome.drain

theorem State.Canon.snoopDone {h ln die : Nat} (hs : s.Canon) : (s.snoopDone h ln die).Canon := by
  unfold State.snoopDone
  split
  · exact hs
  · refine .ite hs ?_
    refine .ite hs.modHome ?_
    split
    · exact hs.modHome.finishReq.drain
    · exact hs.modHome.setDir.modHome.drain

theorem State.Canon.dieDowngrade {die ln : Nat} {inv : Bool} (h : s.Canon) : (s.dieDowngrade die ln inv).Canon :=
  h.foldl (fun _ _ h => .ite h (.ite h.setLine h.setLine))

theorem State.Canon.fill {m : CohMsg} {st : LineSt} (h : s.Canon) : (s.fill m st).Canon := by
  unfold State.fill
  refine .ite h.setLine ?_
  refine .ite ?_ h.setLine
  split
  · exact h.setLine.setLine
  · exact h.setLine

theorem State.Canon.endKernel {d i : Nat} {code : BitVec 16} {detail : BitVec 64} (h : s.Canon) :
    (s.endKernel d i code detail).Canon :=
  h.modCore

theorem State.Canon.cpTrap {d i cause : Nat} {tval : BitVec 64} (h : s.Canon) : (s.cpTrap d i cause tval).Canon :=
  h.modCore.endKernel

theorem State.Canon.accessFault {d i : Nat} {store : Bool} {va : Nat} (h : s.Canon) :
    (s.accessFault d i store va).Canon :=
  h.cpTrap

theorem State.Canon.tryLoad {d i : Nat} (h : s.Canon) : (s.tryLoad d i).Canon := by
  unfold State.tryLoad
  split
  · exact h
  · dsimp only
    split
    · exact h.modCore
    · exact h.accessFault
    · exact h.pageFault
    · exact .ite h.modCore h.modCore.request

theorem State.Canon.tryStoreGo {fuel : Nat} {a a' : Nat} (h : s.Canon) : (State.tryStoreGo fuel s a a').Canon := by
  induction fuel generalizing s with
  | zero => exact h
  | succ fuel ih =>
    unfold State.tryStoreGo
    split
    · exact h
    · refine .ite h.modCore ?_
      dsimp only
      split
      · exact h.pageFault
      · exact .ite (ih ((((h.foldl (fun _ _ h => .ite h (.ite h
          h.setLine))).setLine).markDirtySlots).modCore))
          (.ite h.modCore (.ite h.modCore.setLine.request
          (.ite h.modCore.request (.ite h.modCore.request h.modCore.request))))
      · exact h.accessFault

theorem State.Canon.tryStore {d i : Nat} (h : s.Canon) : (s.tryStore d i).Canon :=
  h.tryStoreGo

theorem State.Canon.retry {d i : Nat} (h : s.Canon) : (s.retry d i).Canon :=
  .ite h.tryLoad.tryStore h

theorem State.Canon.retryDie {d : Nat} (h : s.Canon) : (s.retryDie d).Canon :=
  .ite (h.foldl (fun _ _ h => h.retry)) h

theorem State.Canon.settle {a n : Nat} {inv : Bool} (h : s.Canon) : (s.settle a n inv).Canon :=
  (((h.foldl (fun _ _ h' => .ite h'.homeWrite h')).upd).foldl
      (fun _ _ h => h.foldl (fun _ _ h => h.homeWrite.dieDowngrade))).foldl
      (fun _ _ h => h.foldl (fun _ _ h => .ite (.ite h.setDir (.ite h h.setDir)) h))

theorem State.Canon.refresh {a n : Nat} (h : s.Canon) : (s.refresh a n).Canon :=
  h.upd

theorem State.Canon.ncSettle {a n : Nat} (h : s.Canon) : (s.ncSettle a n).Canon :=
  h.settle

theorem State.Canon.ncWrite {c a : Nat} {l : List Byte} {bad : Nat → Bool} (h : s.Canon) :
    (s.ncWrite c a l bad).Canon :=
  h.settle.ssuWrPois.refresh

theorem State.Canon.pushHint {c die hint a n : Nat} (h : s.Canon) : (s.pushHint c die hint a n).Canon :=
  .ite h (h.foldl (fun _ _ h => .ite h.arrive h))

theorem State.Canon.refuseLine {m : CohMsg} (h : s.Canon) : (s.refuseLine m).Canon := by
  unfold State.refuseLine
  extract_lets
  split
  · exact h.answer
  · exact .answer (.ite h.setDir h)
  · refine .ite h.gateEnd.emit (h.foldl fun _ _ h => ?_)
    extract_lets
    split
    · exact .ite h.accessFault h
    · exact .ite h.accessFault h
    · exact h

theorem State.Canon.homeArrival {n : Nat} {k : CohKind} (h : s.Canon) : (s.homeArrival n k).Canon := by
  unfold State.homeArrival
  split
  next m s' ht => exact .ite (h.take ht) (.ite h (.ite (h.take ht).refuseLine (h.take ht).arrive))
  next => exact h

theorem Res.Canon.execRdShared {n : Nat} (h : s.Canon) : Res.Canon (execRdShared n s) :=
  .upDo h (fun _ h => h.homeArrival)

theorem Res.Canon.execRdUnique {n : Nat} (h : s.Canon) : Res.Canon (execRdUnique n s) :=
  .upDo h (fun _ h => h.homeArrival)

theorem Res.Canon.execUpgrade {n : Nat} (h : s.Canon) : Res.Canon (execUpgrade n s) :=
  .upDo h (fun _ h => h.homeArrival)

theorem Res.Canon.execMarkDirty {n : Nat} (h : s.Canon) : Res.Canon (execMarkDirty n s) :=
  .upDo h (fun _ h => h.homeArrival)

theorem Res.Canon.execWrBack {n : Nat} (h : s.Canon) : Res.Canon (execWrBack n s) :=
  .upDo h (fun _ h => h.homeArrival)

theorem Res.Canon.execEvictClean {n : Nat} (h : s.Canon) : Res.Canon (execEvictClean n s) :=
  .upDo h (fun _ h => h.homeArrival)

theorem Res.Canon.execRdNc {n : Nat} (h : s.Canon) : Res.Canon (execRdNc n s) :=
  .upDo h (fun _ h => h.homeArrival)

theorem Res.Canon.execWrNc {n : Nat} (h : s.Canon) : Res.Canon (execWrNc n s) :=
  .upDo h (fun _ h => h.homeArrival)

theorem State.Canon.snoopAnswer {m : CohMsg} {inv : Bool} {dirty : BitVec 4} {data : BitVec 1024} (h : s.Canon) :
    (s.snoopAnswer m inv dirty data).Canon :=
  .ite h.dieDowngrade.send.retryDie h.dieDowngrade.send

theorem State.Canon.snoop {m : CohMsg} {inv : Bool} (h : s.Canon) : (s.snoop m inv).Canon :=
  .ite h.modSite.upd.emit.emit h.snoopAnswer

theorem Res.Canon.execSnpShared {n : Nat} (h : s.Canon) : Res.Canon (execSnpShared n s) :=
  .upDo h fun _ h => by
    split
    next m s ht => exact (h.take ht).snoop
    next => exact h

theorem Res.Canon.execSnpInv {n : Nat} (h : s.Canon) : Res.Canon (execSnpInv n s) :=
  .upDo h fun _ h => by
    split
    next m s ht => exact (h.take ht).snoop
    next => exact h

theorem State.Canon.pushTo {m : CohMsg} (h : s.Canon) : (s.pushTo m).Canon := by
  unfold State.pushTo
  dsimp only
  split
  · exact h.setLine.send
  · exact h.send

theorem Res.Canon.execPush {n : Nat} (h : s.Canon) : Res.Canon (execPush n s) :=
  .upDo h fun _ h => by
    split
    next m s ht => exact (h.take ht).pushTo
    next => exact h

theorem State.Canon.granted_ {m : CohMsg} {st : LineSt} (h : s.Canon) : (s.granted_ m st).Canon :=
  .ite h.gateEnd.setLine.emit h.fill.retryDie

theorem Res.Canon.execGrantS {n : Nat} (h : s.Canon) : Res.Canon (execGrantS n s) :=
  .upDo h fun _ h => by
    split
    next m s ht => exact (h.take ht).granted_
    next => exact h

theorem Res.Canon.execGrantE {n : Nat} (h : s.Canon) : Res.Canon (execGrantE n s) :=
  .upDo h fun _ h => by
    split
    next m s ht => exact (h.take ht).granted_
    next => exact h

theorem Res.Canon.execAck {n : Nat} (h : s.Canon) : Res.Canon (execAck n s) :=
  .upDo h fun _ h => by
    split
    next m s ht => exact .ite (h.take ht).gateEnd (h.take ht).snoopDone
    next => exact h

theorem Res.Canon.execAckData {n : Nat} (h : s.Canon) : Res.Canon (execAckData n s) :=
  .upDo h fun _ h => by
    split
    next m s ht => exact (h.take ht).homeWrite.snoopDone
    next => exact h

theorem State.Canon.dirtyAcked {m : CohMsg} (h : s.Canon) : (s.dirtyAcked m).Canon :=
  .ite h.setLine.retryDie h.retryDie

theorem Res.Canon.execDirtyAck {n : Nat} (h : s.Canon) : Res.Canon (execDirtyAck n s) :=
  .upDo h fun _ h => by
    split
    next m s ht => exact (h.take ht).dirtyAcked
    next => exact h

theorem State.Canon.dirtyStaled {m : CohMsg} (h : s.Canon) : (s.dirtyStaled m).Canon :=
  .ite h.setLine.retryDie h.retryDie

theorem Res.Canon.execDirtyStale {n : Nat} (h : s.Canon) : Res.Canon (execDirtyStale n s) :=
  .upDo h fun _ h => by
    split
    next m s ht => exact (h.take ht).dirtyStaled
    next => exact h

theorem Res.Canon.execWbAck {n : Nat} (h : s.Canon) : Res.Canon (execWbAck n s) :=
  .upDo h fun _ h => by
    split
    next m s ht => exact (h.take ht).gateEnd.setLine
    next => exact h

theorem State.Canon.pushEnd {m : CohMsg} {own : Bool} (h : s.Canon) : (s.pushEnd m own).Canon := by
  unfold State.pushEnd
  split
  · exact .ite h.modHome.setDir.drain h
  · exact h

theorem Res.Canon.execPushAck {n : Nat} (h : s.Canon) : Res.Canon (execPushAck n s) :=
  .upDo h fun _ h => by
    split
    next m s ht => exact (h.take ht).pushEnd
    next => exact h

theorem Res.Canon.execPushDecline {n : Nat} (h : s.Canon) : Res.Canon (execPushDecline n s) :=
  .upDo h fun _ h => by
    split
    next m s ht => exact (h.take ht).pushEnd
    next => exact h

theorem State.Canon.evict {die u ln : Nat} (h : s.Canon) : (s.evict die u ln).Canon := by
  unfold State.evict
  dsimp only
  split
  · exact h
  · exact h.setLine
  · exact .ite h.setLine h.setLine.request
  · exact .ite h.setLine.request (((h.foldl (fun _ _ h => .ite h (.ite h h.setLine))).setLine).request)

theorem Res.Canon.execLineEviction {agent line : Nat} (h : s.Canon) : Res.Canon (execLineEviction agent line s) :=
  .upDo h (fun _ h => .ite h h.evict)

theorem State.Canon.flushCache {die u : Nat} {p : CacheLine → Bool} (h : s.Canon) : (s.flushCache die u p).Canon :=
  h.foldl (fun _ _ h => h.settle)

theorem Res.Canon.execTilRlcFlush {port : Port} {die : Nat} {val : BitVec 64} (h : s.Canon) :
    Res.Canon (execTilRlcFlush port die val s) :=
  .upDo h (fun _ h => .ite h.portDenied (.ite h h.flushCache))

theorem Res.Canon.execHubScFlush {port : Port} {val : BitVec 64} (h : s.Canon) :
    Res.Canon (execHubScFlush port val s) :=
  .upDo h (fun _ h => .ite h.portDenied (.ite h h.flushCache))

theorem State.Canon.loseLine {h ln : Nat} {m : BitVec 4} (hs : s.Canon) : (s.loseLine h ln m).Canon :=
  .ite hs (((hs.foldl (fun _ _ h => .ite h.ssuPoison.poisonEvent h)).report).modHome)

theorem State.Canon.reclaimHome {die h : Nat} (hs : s.Canon) : (s.reclaimHome die h).Canon :=
  ((hs.modHome.foldl (fun _ _ h => .ite (.snoopDone (.ite h.loseLine.setDir h))
      (.ite h.modHome.drain h))).drain).foldl fun _ _ h => by
    refine .ite ?_ h
    split
    · exact h.setDir
    · exact h.setDir
    · exact h.loseLine.setDir
    · exact h

theorem State.Canon.reclaim {die : Nat} (h : s.Canon) : (s.reclaim die).Canon :=
  (h.upd.foldl (fun _ _ h => h.reclaimHome)).foldl (fun _ _ h => h.setCache)

theorem Res.Canon.execAgentDeath {die : Nat} (h : s.Canon) : Res.Canon (execAgentDeath die s) :=
  .upDo h (fun _ h => .ite h.reclaim h)

theorem Res.Canon.execRecoverDone {n : Nat} (h : s.Canon) : Res.Canon (execRecoverDone n s) :=
  .upDo h fun _ h => by
    split
    next m s' ht => exact .ite h (h.take ht).modHome.answer.drain
    next => exact h

theorem Res.Canon.execRecoverAck {n : Nat} (h : s.Canon) : Res.Canon (execRecoverAck n s) :=
  .upDo h fun _ h => by
    split
    next fst s ht => exact (h.take ht)
    next => exact h

theorem State.Canon.recoverHome {h : Nat} {live : List Nat} (hs : s.Canon) : (s.recoverHome h live).Canon :=
  hs.upd.modHome.foldl (fun _ _ h => (h.foldl (fun _ _ h => h.foldl
      (fun _ _ h => .ite (.ite h.setLine h.setLine.request) h))).send)

end Sys2Proof.Machine
end

section
/-! PROOFS. Canonical memory: the operations of Machine/Tokens.lean keep it. -/

namespace Sys2Proof.Machine

variable {s t : State}

theorem State.Canon.deliver {n : Nat} (h : s.Canon) : (s.deliver n).Canon := by
  unfold State.deliver
  split
  · exact h
  · exact .ite h h.upd.applyPost

theorem Res.Canon.execTokenPost {n : Nat} (h : s.Canon) : Res.Canon (execTokenPost n s) :=
  .upDo h (fun _ h => h.deliver)

theorem State.Canon.stallReport {c src word value : Nat} (h : s.Canon) : (s.stallReport c src word value).Canon :=
  .ite h.modCmpt.event h.modCmpt.event.event

theorem State.Canon.stall {u : Waiting} {age : Nat} (h : s.Canon) : (s.stall u age).Canon := by
  unfold State.stall
  split
  · split
    · exact .ite h (.ite h.modCore.stallReport h.modCore)
    · exact h
  · split
    · exact .ite h.modCore.stallReport h.modCore
    · exact h
  · split
    · split
      · exact .ite h (.ite h.modRing.stallReport h.modRing)
      · exact h
    · exact h
  · split
    · exact .ite h (.ite h.modStack.stallReport h.modStack)
    · exact h

theorem Res.Canon.execTokenStall {unit : Waiting} {age : Nat} (h : s.Canon) : Res.Canon (execTokenStall unit age s) :=
  .upDo h (fun _ h => h.stall)

theorem Res.Canon.execHubTknStallLimitWrite {port : Port} {val : BitVec 64} (h : s.Canon) :
    Res.Canon (execHubTknStallLimitWrite port val s) :=
  .upDo h (fun _ h => .ite h.portDenied (h.upd.foldl (fun _ _ h => h.stall)))

end Sys2Proof.Machine
end

section
/-! PROOFS. Canonical memory: the operations of Machine/CoreCmds.lean keep it. -/

namespace Sys2Proof.Machine

variable {s t : State}

theorem Res.Canon.cpDo {d i : Nat} {f : State → State} (h : s.Canon)
    (hf : ∀ t, t.Canon → (f t).Canon) : Res.Canon (cpDo s d i f) :=
  .upDo h (fun _ h' => .ite (hf _ h') h')

theorem State.Canon.tknWrite {d i k v : Nat} {posts : List Nat} (h : s.Canon) : (s.tknWrite d i k v posts).Canon :=
  .ite (h.setCounter.foldl (fun _ _ h => by split; exacts [.ite h.deliver h, h])) h

theorem State.Canon.corWaitOn {d i : Nat} {w : BitVec 32} (h : s.Canon) : (s.corWaitOn d i w).Canon :=
  h.modCore

theorem State.Canon.qstatClear {d i q : Nat} {v : BitVec 64} (h : s.Canon) : (s.qstatClear d i q v).Canon :=
  .ite h.modCore h

theorem State.Canon.rptWrite {d i j : Nat} {v : BitVec 64} (h : s.Canon) : (s.rptWrite d i j v).Canon :=
  .ite h.modCore h

theorem State.Canon.enterCmd {d i q : Nat} {w : BitVec 256} (h : s.Canon) : (s.enterCmd d i q w).Canon := by
  unfold State.enterCmd
  exact h.nextSerial.modCore

theorem State.Canon.portStore {d i q o : Nat} {l : List Byte} (h : s.Canon) : (s.portStore d i q o l).Canon :=
  .ite (.ite (.ite h.modCore.enterCmd h.modCore.modCore) h.modCore) h

theorem State.Canon.corStore {d i o : Nat} {l : List Byte} (h : s.Canon) : (s.corStore d i o l).Canon :=
  .ite h.portStore (.ite h (.ite h.tknWrite (.ite h.addCounter
      (.ite h.corWaitOn (.ite h.qstatClear (.ite h.rptWrite h))))))

theorem State.Canon.corStoreGo {fuel : Nat} {a a' a'' : Nat} {v : List Byte} (h : s.Canon) :
    (State.corStoreGo fuel s a a' a'' v).Canon := by
  induction fuel generalizing s a'' v with
  | zero => exact h
  | succ fuel ih => exact .ite h (.ite h.modCore (ih h.corStore))

theorem State.Canon.corStores {d i o : Nat} {l : List Byte} (h : s.Canon) : (s.corStores d i o l).Canon :=
  h.corStoreGo

theorem State.Canon.portFree {d i q : Nat} (h : s.Canon) : (s.portFree d i q).Canon := by
  unfold State.portFree
  split
  · exact h
  · refine .ite ?_ h
    dsimp only
    split
    · exact h.modCore.enterCmd
    · exact h.modCore.enterCmd.modCore.corStores

theorem Res.Canon.execCorTknWrite {die core i : Nat} {val : BitVec 64} {posts : List Nat} (h : s.Canon) :
    Res.Canon (execCorTknWrite die core i val posts s) :=
  .cpDo h (fun _ h => h.tknWrite)

theorem Res.Canon.execCorTknPost {die core i : Nat} {val : BitVec 64} (h : s.Canon) :
    Res.Canon (execCorTknPost die core i val s) :=
  .cpDo h (fun _ h => h.addCounter)

theorem Res.Canon.execCorWait {die core : Nat} {val : BitVec 64} (h : s.Canon) :
    Res.Canon (execCorWait die core val s) :=
  .cpDo h (fun _ h => h.corWaitOn)

theorem Res.Canon.execCorQstatClear {die core q : Nat} {val : BitVec 64} (h : s.Canon) :
    Res.Canon (execCorQstatClear die core q val s) :=
  .cpDo h (fun _ h => h.qstatClear)

theorem Res.Canon.execCorRptWrite {die core j : Nat} {val : BitVec 64} (h : s.Canon) :
    Res.Canon (execCorRptWrite die core j val s) :=
  .cpDo h (fun _ h => h.rptWrite)

theorem Res.Canon.execCmdPortStore {die core q off : Nat} {bytes : List Byte} (h : s.Canon) :
    Res.Canon (execCmdPortStore die core q off bytes s) :=
  .cpDo h (fun _ h => h.portStore)

theorem Res.Canon.execKernelExit {die core : Nat} {a7 a0 : BitVec 64} (h : s.Canon) :
    Res.Canon (execKernelExit die core a7 a0 s) :=
  .cpDo h (fun _ h => .ite (.ite h.endKernel h.endKernel) h.cpTrap)

theorem Res.Canon.execCpTrap {die core : Nat} {cause : BitVec 8} {tval : BitVec 64} (h : s.Canon) :
    Res.Canon (execCpTrap die core cause tval s) :=
  .upDo h (fun _ h => .ite h.cpTrap h)

theorem Res.Canon.execFenceI {die core : Nat} (h : s.Canon) : Res.Canon (execFenceI die core s) :=
  .cpDo h (fun _ h => h.modCore)

theorem State.Canon.cpLoad {d i a n rd : Nat} (h : s.Canon) : (s.cpLoad d i a n rd).Canon := by
  unfold State.cpLoad
  refine .ite h ?_
  split
  · exact .ite h.accessFault h.modCore
  · exact h.modCore
  · exact h.modCore
  · exact h.accessFault
  · exact .ite h.accessFault h.modCore.tryLoad

theorem State.Canon.atomicDo {d i a n : Nat} {store : Bool} {f : State → Nat → State} (h : s.Canon)
    (hf : ∀ t x, t.Canon → (f t x).Canon) :
    (s.atomicDo d i a n store f).Canon := by
  unfold State.atomicDo
  refine .ite h ?_
  refine .ite h.cpTrap ?_
  split
  · exact h.accessFault
  · exact .ite h.accessFault (hf _ _ h)

theorem State.Canon.cpLr {d i a n rd : Nat} (h : s.Canon) : (s.cpLr d i a n rd).Canon :=
  h.atomicDo (fun _ _ h => h.modCore)

theorem Res.Canon.execCpLoad {die core : Nat} {addr : BitVec 64} {size rd : Nat} {lr : Bool} (h : s.Canon) :
    Res.Canon (execCpLoad die core addr size rd s lr) :=
  .cpDo h (fun _ h => .ite h.cpLr h.cpLoad)

theorem State.Canon.cpPut {p : Nat} {l : List Byte} (h : s.Canon) : (s.cpPut p l).Canon :=
  h.icMark.wr

theorem State.Canon.cpStore {d i a : Nat} {l : List Byte} (h : s.Canon) : (s.cpStore d i a l).Canon := by
  unfold State.cpStore
  refine .ite h ?_
  split
  · exact h.cpPut
  · exact h.cpPut
  · exact h.corStores
  · exact h.accessFault
  · exact .ite h.accessFault h.modCore.tryStore

theorem State.Canon.cpSc {d i a : Nat} {l : List Byte} {rd : Nat} (h : s.Canon) : (s.cpSc d i a l rd).Canon :=
  h.atomicDo (fun _ _ h => .modCore (.ite h.cpPut h))

theorem State.Canon.cpAmo {d i a : Nat} {l : List Byte} {op : AmoOp} {rd : Nat} (h : s.Canon) :
    (s.cpAmo d i a l op rd).Canon :=
  h.atomicDo (fun _ _ h => h.cpPut.modCore)

theorem Res.Canon.execCpStore {die core : Nat} {addr : BitVec 64} {bytes : List Byte} {kind : StoreKind} (h : s.Canon) :
    Res.Canon (execCpStore die core addr bytes s kind) :=
  .cpDo h fun _ h => by
    split
    · exact h.cpStore
    · exact h.cpSc
    · exact h.cpAmo

end Sys2Proof.Machine
end

section
/-! PROOFS. Canonical memory: the operations of Machine/Rings.lean keep it. -/

namespace Sys2Proof.Machine

variable {s t : State}

theorem State.Canon.ringEvent {fn code ring v : Nat} (h : s.Canon) : (s.ringEvent fn code ring v).Canon :=
  h.event

theorem State.Canon.hostReadReq {r : HostRead} (h : s.Canon) : (s.hostReadReq r).Canon := by
  unfold State.hostReadReq
  dsimp only
  split
  · exact h.upd.emit
  · exact h

theorem State.Canon.fetchOne {fn : Nat} (h : s.Canon) (ht : s.fetchOne fn = some t) : t.Canon := by
  unfold State.fetchOne at ht
  split at ht
  · dsimp only at ht
    split at ht
    · obtain rfl := by simpa using ht
      exact h.hostReadReq.modRing.modCmpt
    · exact nomatch ht
  · exact nomatch ht

theorem State.Canon.fetchGo {fuel : Nat} {a : Nat} (h : s.Canon) : (State.fetchGo fuel s a).Canon := by
  induction fuel generalizing s with
  | zero => exact h
  | succ fuel ih =>
    unfold State.fetchGo
    split
    next s ht => exact ih (h.fetchOne ht)
    next => exact h

theorem State.Canon.fetch {fn : Nat} (h : s.Canon) : (s.fetch fn).Canon :=
  h.fetchGo

theorem State.Canon.writeCqe {fn : Nat} {e : CEnt} (h : s.Canon) : (s.writeCqe fn e).Canon := by
  unfold State.writeCqe
  refine .ite (.event (.modCmpt (by split; exacts [h.emit.modCmpt.raise, h.emit.modCmpt]))) ?_
  split
  · exact h.emit.modCmpt.raise
  · exact h.emit.modCmpt

theorem State.Canon.complete {fn : Nat} {e : CEnt} (h : s.Canon) : (s.complete fn e).Canon :=
  .ite h (.ite h.modCmpt h.writeCqe)

theorem State.Canon.releaseGo {fuel : Nat} {a : Nat} (h : s.Canon) : (State.releaseGo fuel s a).Canon := by
  induction fuel generalizing s with
  | zero => exact h
  | succ fuel ih =>
    unfold State.releaseGo
    split
    · exact h
    · exact .ite h (ih h.modCmpt.writeCqe)

theorem State.Canon.release {fn : Nat} (h : s.Canon) : (s.release fn).Canon :=
  h.releaseGo.fetch

theorem State.Canon.sqDoorbell {fn k v : Nat} (h : s.Canon) : (s.sqDoorbell fn k v).Canon :=
  .ite h (.ite h.ringEvent h.modRing.fetch)

theorem State.Canon.headDoorbell {fn : Nat} {eq : Bool} {v : Nat} (h : s.Canon) : (s.headDoorbell fn eq v).Canon :=
  .ite h (.ite h.ringEvent (.ite h.modCmpt h.modCmpt.release))

theorem State.Canon.dropFetches {fn k : Nat} (h : s.Canon) : (s.dropFetches fn k).Canon :=
  h.upd

theorem State.Canon.ringWrite {fn k : Nat} {ctrl : Bool} {v : BitVec 64} (h : s.Canon) :
    (s.ringWrite fn k ctrl v).Canon :=
  .ite h (.ite (.ite h (.ite h.modRing (.ite h.modCmpt h.modCmpt)))
      (.ite h (.ite h (.ite (.ite h.dropFetches.modRing (.ite h.modCmpt h.modCmpt))
      (.ite (.ringEvent (.ite h.modRing (.ite h.modCmpt h.modCmpt)))
      (.ite (.release (.ite h.modRing (.ite h.modCmpt h.modCmpt)))
      (.ite h.modRing (.ite h.modCmpt h.modCmpt))))))))

theorem State.Canon.activate {fn : Nat} (h : s.Canon) : (s.activate fn).Canon :=
  .ite (.event (.event (.ite h.modCmpt.upd h.modCmpt))) h

theorem State.Canon.cancel {c : Nat} (h : s.Canon) : (s.cancel c).Canon := by
  unfold State.cancel
  exact ((((h.foldl (fun _ _ h => by split; exacts [h.modCore, h])).foldl (fun _ _ h => h.modStack)).upd).upd).modCmpt

theorem State.Canon.fallowStart {c cause : Nat} (h : s.Canon) : (s.fallowStart c cause).Canon := by
  unfold State.fallowStart
  refine .ite h ?_
  split
  · exact .cancel (.upd (.ite h.modCmpt.event h.modCmpt))
  · exact h

theorem State.Canon.tdiFallow {c : Nat} (h : s.Canon) : (s.tdiFallow c).Canon :=
  h.draw.fallowStart

end Sys2Proof.Machine
end

section
/-! PROOFS. Canonical memory: the operations of Machine/Egress.lean keep it. -/

namespace Sys2Proof.Machine

variable {s t : State}

theorem State.Canon.modConn {peer : Nat} {f : Conn → Conn} (h : s.Canon) : (s.modConn peer f).Canon :=
  .ite h.upd h

theorem State.Canon.egressPut {p : Nat} {k : FabPkt} (h : s.Canon) : (s.egressPut p k).Canon :=
  h.modFport

theorem State.Canon.fabSend {d : Nat} {k : FabPkt} (h : s.Canon) : (s.fabSend d k).Canon := by
  unfold State.fabSend
  split
  · exact h.egressPut
  · split
    · exact h.egressPut
    · exact h

theorem State.Canon.reply {d : Nat} {k : FabPkt} {code : BitVec 16} {l : List Byte} {bad : List Bool} (h : s.Canon) :
    (s.reply d k code l bad).Canon :=
  h.fabSend

theorem State.Canon.replyContrib {peer id : Nat} {code : BitVec 16} (h : s.Canon) :
    (s.replyContrib peer id code).Canon :=
  h.modConn.foldl (fun _ _ h => h.reply)

theorem State.Canon.readPieces {l : List (Nat × Nat)} (h : s.Canon) : (s.readPieces l).1.Canon :=
  h.foldl (fun _ _ h => h.ncSettle)

theorem State.Canon.writePieces {c : Nat} {l : List (Nat × Nat)} {v : List Byte} {v' : List Bool} (h : s.Canon) :
    (s.writePieces c l v v').1.Canon := by
  induction l generalizing s v v' with
  | nil => exact h
  | cons x t ih => exact ih h.icMark.ncWrite

theorem State.Canon.keepReq {k : FabPkt} (h : s.Canon) : (s.keepReq k).Canon :=
  h.modConn

theorem State.Canon.dropReq {k : FabPkt} (h : s.Canon) : (s.dropReq k).Canon :=
  h.modConn

theorem State.Canon.remoteMem {k : FabPkt} (h : s.Canon) : (s.remoteMem k).Canon := by
  unfold State.remoteMem
  dsimp only
  split
  · exact h.keepReq.pageFault
  · exact .ite h.keepReq (.ite h.dropReq.offer.readRebuilt.readPieces.reply
      h.dropReq.offer.writePieces.markDirtySlots.reply)

theorem State.Canon.remotePost1 {peer : Nat} {g x : BitVec 128} (h : s.Canon) : (s.remotePost1 peer g x).1.Canon := by
  unfold State.remotePost1
  refine .iteOf Prod.fst h (.iteOf Prod.fst h ?_)
  split
  · exact h
  · refine .iteOf Prod.fst (.fst h.modConn) (.addCounter ?_)
    split
    · exact h.modConn.tally
    · exact h.modConn

theorem State.Canon.remotePosts {k : FabPkt} (h : s.Canon) : (s.remotePosts k).Canon :=
  .reply (.foldlOf Prod.fst h.dropReq (fun _ _ h' => h'.remotePost1))

theorem State.Canon.connFlushGo {fuel : Nat} {a : Nat} (h : s.Canon) : (State.connFlushGo fuel s a).Canon := by
  induction fuel generalizing s with
  | zero => exact h
  | succ fuel ih =>
    unfold State.connFlushGo
    split
    · exact ih h.remotePosts
    · exact h

theorem State.Canon.connFlush {peer : Nat} (h : s.Canon) : (s.connFlush peer).Canon :=
  h.connFlushGo

theorem State.Canon.remoteRetry {peer seq : Nat} (h : s.Canon) : (s.remoteRetry peer seq).Canon := by
  unfold State.remoteRetry
  split
  · exact h.remoteMem.connFlush
  · exact h

theorem State.Canon.remoteRetryAll (h : s.Canon) : s.remoteRetryAll.Canon :=
  h.foldl (fun _ _ h => h.foldl (fun _ _ h => h.remoteRetry))

theorem State.Canon.remoteOutcome {peer id : Nat} {code : BitVec 16} (h : s.Canon) :
    (s.remoteOutcome peer id code).Canon := by
  unfold State.remoteOutcome
  refine .ite h.replyContrib.connFlush ?_
  split
  · exact h.dropReq.reply.connFlush
  · exact h

end Sys2Proof.Machine
end

section
/-! PROOFS. Canonical memory: the operations of Machine/Paging.lean keep it. -/

namespace Sys2Proof.Machine

variable {s t : State}

theorem State.Canon.modDesc {c k id : Nat} {f : Desc → Desc} (h : s.Canon) : (s.modDesc c k id f).Canon :=
  h.modRing

theorem State.Canon.dropSsu {c k index : Nat} (h : s.Canon) : (s.dropSsu c k index).Canon :=
  h.foldl (fun _ _ h => .ite h.modStack h)

theorem State.Canon.outcome {o : Origin} {code : BitVec 16} {st : Sticky} {ends : Bool}
    (h : s.Canon) : (s.outcome o code st ends).Canon := by
  unfold State.outcome
  split
  · exact h.modCore
  · exact .ite h.modDesc.dropSsu h.modDesc
  · exact h.modDesc
  · exact h.remoteOutcome
  · exact h

theorem State.Canon.noteRecon {o : Origin} (h : s.Canon) : (s.noteRecon o).Canon := by
  unfold State.noteRecon
  split
  · exact h.modCore
  · exact h.modDesc
  · exact h

theorem State.Canon.readGate {o : Origin} {ps : List (Nat × Nat)} (h : s.Canon) : (s.readGate o ps).1.Canon :=
  .iteOf Prod.fst h.noteRecon (.ite h.readRebuilt.noteRecon h.readRebuilt)

theorem State.Canon.zeroRange {a n : Nat} (h : s.Canon) : (s.zeroRange a n).Canon := by
  have hz : State.Canon { s with
      mem := s.mem.filter (fun x => !(decide (a ≤ x.1) && decide (x.1 < a + n)))
      poison := s.poison.filter (fun p => !(decide (a ≤ 32 * p) && decide (32 * p < a + n))) } :=
    ⟨memWf_filter _ h.mem, poisonWf_filter h.poison _⟩
  exact .ite hz.modStack hz

theorem State.Canon.wipeRange {a n : Nat} (h : s.Canon) : (s.wipeRange a n).Canon :=
  h.settle.zeroRange

theorem State.Canon.pageEnd {c code : Nat} (h : s.Canon) : (s.pageEnd c code).Canon :=
  h.modCmpt.event

theorem State.Canon.dropContribs {o : Origin} (h : s.Canon) : (s.dropContribs o).Canon :=
  .ite h.upd h

theorem State.Canon.failWaiter {w : Waiter} {code : BitVec 16} (h : s.Canon) : (s.failWaiter w code).Canon := by
  unfold State.failWaiter
  split
  · exact h.accessFault
  · exact h.dropContribs.outcome

theorem State.Canon.retryAll (h : s.Canon) : s.retryAll.Canon :=
  (h.foldl (fun _ _ h => h.retryDie)).remoteRetryAll

theorem State.Canon.failRecord {c k : Nat} {code : BitVec 16} (h : s.Canon) : (s.failRecord c k code).Canon :=
  (h.modCmpt.foldl (fun _ _ h => h.failWaiter)).retryAll

theorem State.Canon.releaseRecord {c k : Nat} (h : s.Canon) : (s.releaseRecord c k).Canon :=
  (h.modCmpt.foldl (fun _ _ h => by split; exacts [h.retry, by split; exacts [h.remoteRetry, h]])).retryAll

theorem State.Canon.pageInFail {c slot : Nat} {code : BitVec 16} (h : s.Canon) : (s.pageInFail c slot code).Canon := by
  unfold State.pageInFail
  split
  · exact .pageEnd (by split; exacts [h.modCmpt.failRecord, h.modCmpt])
  · exact h

theorem State.Canon.pageAsk {c : Nat} {p : PageCmd} (h : s.Canon) : (s.pageAsk c p).Canon :=
  .ite h.pageInFail (.ite h.hostReadReq h)

theorem State.Canon.pageOutStart {c seg page slot : Nat} {force withdraw : Bool} (h : s.Canon) :
    (s.pageOutStart c seg page slot force withdraw).Canon :=
  h.modCmpt

theorem State.Canon.pageCmd {c : Nat} {v : BitVec 64} (h : s.Canon) : (s.pageCmd c v).Canon := by
  unfold State.pageCmd
  refine .ite h ?_
  refine .ite h.pageEnd ?_
  split
  · exact .ite h.pageEnd h.modCmpt.pageAsk
  · split
    · exact .ite h.pageEnd h.pageOutStart
    · exact h
  · split
    · exact h.failRecord.pageEnd
    · exact h

theorem State.Canon.pageInDone {c slot : Nat} (h : s.Canon) : (s.pageInDone c slot).Canon := by
  unfold State.pageInDone
  split
  · exact .ite h (.pageEnd (by split; exacts [h.modCmpt.releaseRecord, h.modCmpt]))
  · exact h

theorem State.Canon.hostWriteGo {fuel : Nat} {a a' a'' a''' : Nat} {b : Bool} (h : s.Canon) :
    (State.hostWriteGo fuel s a a' a'' a''' b).Canon := by
  induction fuel generalizing s a' a'' a''' b with
  | zero => exact h
  | succ fuel ih => exact .ite h (ih h.emit)

theorem State.Canon.pageOutDone {c slot : Nat} (h : s.Canon) : (s.pageOutDone c slot).Canon := by
  unfold State.pageOutDone
  split
  · exact .ite h (.ite (.modCmpt (.ite (.zeroRange (.ite h.settle.hostWriteGo h.settle))
      (.ite h.settle.hostWriteGo h.settle))) (.pageEnd (.modCmpt
      (.ite (.zeroRange (.ite h.settle.hostWriteGo h.settle)) (.ite h.settle.hostWriteGo h.settle)))))
  · exact h

theorem State.Canon.stopThrough {c seg : Nat} (h : s.Canon) : (s.stopThrough c seg).Canon :=
  (h.foldl (fun _ _ h => .ite h.failRecord h)).foldl (fun _ _ h => .foldl (.ite h h.modStack) (fun _ _ h => h.outcome))

theorem State.Canon.stopPages {c seg : Nat} (h : s.Canon) : (s.stopPages c seg).Canon :=
  h.foldl (fun _ _ h => .ite h (.ite (.ite h.modCmpt h.modCmpt.pageInFail) h.modCmpt.pageEnd))

theorem State.Canon.unmapStart {c seg : Nat} {new : Option Seg} {byReg toCmpt : Bool} (h : s.Canon)
    : (s.unmapStart c seg new byReg toCmpt).Canon :=
  .ite (h.modCmpt.upd.stopThrough.stopPages.foldl (fun _ _ h => .ite h.pageOutStart h))
      h.modCmpt.upd.stopThrough.stopPages

theorem State.Canon.unmapReq {port : Port} {v : BitVec 64} (h : s.Canon) : (s.unmapReq port v).Canon :=
  .ite h.portDenied (.ite h (.unmapStart (.ite h.modCmpt h)))

theorem State.Canon.dropStripes {a n : Nat} (h : s.Canon) : (s.dropStripes a n).Canon :=
  h.upd

theorem State.Canon.fallowWipe {r : Nat × Nat} (h : s.Canon) : (s.fallowWipe r).Canon :=
  h.dropStripes.wipeRange.refresh

theorem State.Canon.withdrawn {c seg : Nat} (h : s.Canon) : (s.withdrawn c seg).Canon := by
  unfold State.withdrawn
  split
  · exact .ite h (.event (.ite (.event (.ite (h.upd.foldl (fun _ _ h => h.fallowWipe)) h.upd))
      (.ite (h.upd.foldl (fun _ _ h => h.fallowWipe)) h.upd)))
  · exact h

theorem Res.Canon.execWithdrawn {fn seg : Nat} (h : s.Canon) : Res.Canon (execWithdrawn fn seg s) :=
  .upDo h (fun _ h => h.withdrawn)

theorem Res.Canon.execHubUnmapReq {port : Port} {val : BitVec 64} (h : s.Canon) :
    Res.Canon (execHubUnmapReq port val s) :=
  .upDo h (fun _ h => h.unmapReq)

theorem Res.Canon.execPageInDone {fn slot : Nat} (h : s.Canon) : Res.Canon (execPageInDone fn slot s) :=
  .upDo h (fun _ h => h.pageInDone)

theorem Res.Canon.execPageOutDone {fn slot : Nat} (h : s.Canon) : Res.Canon (execPageOutDone fn slot s) :=
  .upDo h (fun _ h => h.pageOutDone)

theorem Res.Canon.execFaultTimeout {fn index age : Nat} (h : s.Canon) : Res.Canon (execFaultTimeout fn index age s) :=
  .upDo h (fun _ h => .ite h.failRecord.event h)

end Sys2Proof.Machine
end

section
/-! PROOFS. Canonical memory: the operations of Machine/Bar0.lean keep it. -/

namespace Sys2Proof.Machine

variable {s t : State}

theorem State.Canon.msixFlush {fn : Nat} (h : s.Canon) : (s.msixFlush fn).Canon :=
  .ite h (h.foldl (fun _ _ h => .ite h h.modCmpt.emit))

theorem State.Canon.msixWrite {fn v : Nat} {hi : Bool} {x : BitVec 64} (h : s.Canon) : (s.msixWrite fn v hi x).Canon :=
  .ite h.modCmpt.msixFlush h

theorem State.Canon.eqVectorWrite {fn : Nat} {x : BitVec 64} (h : s.Canon) : (s.eqVectorWrite fn x).Canon := by
  unfold State.eqVectorWrite
  exact h.modCmpt

theorem State.Canon.winWrite {fn w : Nat} {x : BitVec 64} (h : s.Canon) : (s.winWrite fn w x).Canon :=
  .ite h.modCmpt h

theorem State.Canon.bar0Write {fn o : Nat} {x : BitVec 64} (h : s.Canon) : (s.bar0Write fn o x).Canon := by
  unfold State.bar0Write
  refine .ite h ?_
  refine .ite ?_ (.ite h.ringWrite (.ite h.ringWrite (.ite h.headDoorbell
      (.ite h.ringWrite (.ite h.ringWrite (.ite h.headDoorbell
      (.ite h.eqVectorWrite (.ite h.addCounter (.ite h.modCmpt
      (.ite (.ite h h.pageCmd) (.ite h.msixWrite (.ite h.winWrite h))))))))))))
  dsimp only
  split
  · exact h.ringWrite
  · exact h.ringWrite
  · exact h.sqDoorbell
  · exact h

theorem State.Canon.bar0Open {fn o : Nat} {x : BitVec 64} (h : s.Canon) : (s.bar0Open fn o x).Canon :=
  .ite h.modCmpt (.ite (.ite h.event (.ite h.modCmpt h.bar0Write.activate)) h.bar0Write)

theorem State.Canon.bar0 {fn o : Nat} {x : BitVec 64} {t : Bool} (h : s.Canon) : (s.bar0 fn o x t).Canon := by
  unfold State.bar0
  refine .ite h ?_
  refine .ite h ?_
  split
  · exact .ite h.tdiFallow h.bar0Open
  · exact .ite h.bar0Open (.ite h.aerLog.tdiFallow h.aerLog)
  · exact h.bar0Open

theorem State.Canon.bar0T {fn o : Nat} {x : BitVec 64} (h : s.Canon) : (s.bar0T fn o x).Canon :=
  h.bar0

theorem State.Canon.releaseWrites {fn : Nat} (h : s.Canon) : (s.releaseWrites fn).Canon := by
  unfold State.releaseWrites
  split
  · exact h
  · exact .ite h (h.modCmpt.foldl (fun _ _ h => h.bar0T))

theorem State.Canon.wake (h : s.Canon) : s.wake.Canon :=
  .ite h.upd h

theorem Res.Canon.execSqDoorbell {fn k : Nat} {val : BitVec 64} (h : s.Canon) : Res.Canon (execSqDoorbell fn k val s) :=
  .upDo h (fun _ h => .ite h.wake.bar0T h)

theorem Res.Canon.execRingCtrlWrite {fn ring : Nat} {ctrl : Bool} {val : BitVec 64} (h : s.Canon) :
    Res.Canon (execRingCtrlWrite fn ring ctrl val s) :=
  .upDo h (fun _ h => .ite h.bar0T h)

theorem Res.Canon.execCmpCqHeadDoorbell {fn : Nat} {val : BitVec 64} (h : s.Canon) :
    Res.Canon (execCmpCqHeadDoorbell fn val s) :=
  .upDo h (fun _ h => h.bar0T)

theorem Res.Canon.execCmpEqHeadDoorbell {fn : Nat} {val : BitVec 64} (h : s.Canon) :
    Res.Canon (execCmpEqHeadDoorbell fn val s) :=
  .upDo h (fun _ h => h.bar0T)

theorem Res.Canon.execCmpTknPost {fn j : Nat} {val : BitVec 64} (h : s.Canon) : Res.Canon (execCmpTknPost fn j val s) :=
  .upDo h (fun _ h => .ite h.bar0T h)

theorem Res.Canon.execPageIn {fn : Nat} {val : BitVec 64} (h : s.Canon) : Res.Canon (execPageIn fn val s) :=
  .upDo h (fun _ h => h.bar0T)

theorem Res.Canon.execPageOut {fn : Nat} {val : BitVec 64} (h : s.Canon) : Res.Canon (execPageOut fn val s) :=
  .upDo h (fun _ h => h.bar0T)

theorem Res.Canon.execPageFail {fn : Nat} {val : BitVec 64} (h : s.Canon) : Res.Canon (execPageFail fn val s) :=
  .upDo h (fun _ h => h.bar0T)

theorem Res.Canon.execBar2WindowWrite {fn w : Nat} {val : BitVec 64} (h : s.Canon) :
    Res.Canon (execBar2WindowWrite fn w val s) :=
  .upDo h (fun _ h => .ite h.bar0T h)

theorem Res.Canon.execLockedRegisterWrite {fn off : Nat} {val : BitVec 64} {t : Bool} (h : s.Canon) :
    Res.Canon (execLockedRegisterWrite fn off val t s) :=
  .upDo h (fun _ h => .ite h.bar0 h)

theorem Res.Canon.execMsixUnmask {fn kind vector : Nat} (h : s.Canon) : Res.Canon (execMsixUnmask fn kind vector s) :=
  .upDo h (fun _ h => .ite (.msixFlush (by split; exacts [.ite h.modCmpt h, h.modCmpt, h.modCmpt])) h)

end Sys2Proof.Machine
end

section
/-! PROOFS. Canonical memory: the operations of Machine/Remote.lean keep it. -/

namespace Sys2Proof.Machine

variable {s t : State}

theorem State.Canon.remoteOp {d : Nat} {o : OutOp} (h : s.Canon) : (s.remoteOp d o).Canon :=
  h.modConn.fabSend

theorem State.Canon.sendGet {d c seg : Nat} {e : Seg} {x n : Nat} {land : List (Nat × Nat)}
    {hint : Nat} {o : Origin} (h : s.Canon) :
    (s.sendGet d c seg e x n land hint o).Canon :=
  h.remoteOp

theorem State.Canon.sendPut {d c seg : Nat} {e : Seg} {x : Nat} {l : List Byte} {bad : List Bool}
    {o : Origin} (h : s.Canon) :
    (s.sendPut d c seg e x l bad o).Canon :=
  h.remoteOp

theorem State.Canon.sendContrib {fuel : Nat} {a a' a'' : Nat} {b : Seg} {a''' : Nat} {v : List Byte}
    {v' : List Bool} {b' : BitVec 128} {b'' : Origin} (h : s.Canon) :
    (State.sendContrib fuel s a a' a'' b a''' v v' b' b'').Canon := by
  induction fuel generalizing s a''' v v' with
  | zero => exact h
  | succ fuel ih => exact .ite h (ih h.remoteOp)

theorem State.Canon.sendRemotePost {d i c : Nat} {entry : BitVec 64} {o : Origin} (h : s.Canon) :
    (s.sendRemotePost d i c entry o).Canon :=
  h.modCore.remoteOp

end Sys2Proof.Machine
end

section
/-! PROOFS. Canonical memory: the operations of Machine/Mover.lean keep it. -/

namespace Sys2Proof.Machine

variable {s t : State}

theorem State.Canon.issue {d i q op : Nat} {f : State → QEntry → State} (h : s.Canon)
    (hf : ∀ t x, t.Canon → (f t x).Canon) :
    (s.issue d i q op f).Canon := by
  unfold State.issue
  refine .ite ?_ h
  split
  · exact .ite (hf _ _ h) h
  · exact h

theorem State.Canon.modEntry {d i q id : Nat} {f : QEntry → QEntry} (h : s.Canon) : (s.modEntry d i q id f).Canon :=
  h.modCore

theorem State.Canon.finish {d i q id : Nat} {code : BitVec 16} {st : Sticky} (h : s.Canon) :
    (s.finish d i q id code st).Canon :=
  h.modEntry

theorem State.Canon.refuse {d i q id : Nat} {code : BitVec 16} (h : s.Canon) : (s.refuse d i q id code).Canon :=
  h.modEntry

theorem State.Canon.issueChecked {d i q : Nat} {e : QEntry} {bad : Bool} {rest : BitVec 16}
    {f : State → State} (h : s.Canon) (hf : ∀ t, t.Canon → (f t).Canon) :
    (s.issueChecked d i q e bad rest f).Canon :=
  .ite h.refuse (hf _ h)

theorem State.Canon.popHead {d i q : Nat} {e : QEntry} (h : s.Canon) : (s.popHead d i q e).Canon :=
  .portFree (.ite h.modCore.coreSend h.modCore)

theorem State.Canon.applySeed {d i : Nat} (h : s.Canon) : (s.applySeed d i).Canon := by
  unfold State.applySeed
  split
  · exact .ite h.modCore.upd h
  · exact h

theorem State.Canon.cmdComplete {d i q : Nat} (h : s.Canon) : (s.cmdComplete d i q).Canon := by
  unfold State.cmdComplete
  refine .ite ?_ h
  split
  · exact h
  · exact .ite h (.ite h.modEntry.sendRemotePost h.popHead.applySeed)

theorem State.Canon.overlapFree {src dst : List (Nat × Nat)} {l : List Byte} (h : s.Canon) :
    (s.overlapFree src dst l).1.Canon :=
  .iteOf Prod.fst h.upd h

theorem State.Canon.movOffer {o : Origin} {c : Nat} {write : Bool} {ps : List (Nat × Nat)}
    (h : s.Canon) : (s.movOffer o c write ps).Canon := by
  unfold State.movOffer
  split
  · exact h.offer
  · exact h

theorem State.Canon.copyChunk {die c : Nat} {o : Origin} {src dst : MovAddr}
    {all : List (Nat × Nat)} {hint : Nat} {ch : Nat × Nat × Nat} (h : s.Canon) :
    (s.copyChunk die c o src dst all hint ch).2.Canon := by
  unfold State.copyChunk
  dsimp only
  split
  · exact h.pageFault
  · split
    · exact h.pageFault
    · split
      · exact h
      · exact .iteOf Prod.snd h.readGate h.readGate.movOffer.readPieces
      · refine .iteOf Prod.snd h.readGate (.foldl ?_ (fun _ _ h => .ite h.pushHint h))
        split
        · exact h.readGate.movOffer.movOffer.readPieces.overlapFree.writePieces.markDirtySlots
        · exact h.readGate.movOffer.movOffer.readPieces.overlapFree.writePieces

theorem State.Canon.copyChunk_some {die c : Nat} {o : Origin} {src dst : MovAddr}
    {all : List (Nat × Nat)} {hint : Nat} {ch : Nat × Nat × Nat} {b : Bool} {n : Nat} (h : s.Canon)
    (ht : (s.copyChunk die c o src dst all hint ch).1 = some (t, b, n)) :
    t.Canon := by
  unfold State.copyChunk at ht
  dsimp only at ht
  split at ht
  · exact nomatch ht
  · split at ht
    · exact nomatch ht
    · split at ht
      · obtain ⟨rfl, -⟩ := Prod.mk.inj (Option.some.inj ht)
        exact h.sendGet
      · split at ht
        · exact nomatch ht
        · obtain ⟨rfl, -⟩ := Prod.mk.inj (Option.some.inj ht)
          exact h.readGate.movOffer.readPieces.sendPut
      · split at ht
        · exact nomatch ht
        · obtain ⟨rfl, -⟩ := Prod.mk.inj (Option.some.inj ht)
          refine .foldl ?_ fun _ _ h => .ite h.pushHint h
          split
          · exact h.readGate.movOffer.movOffer.readPieces.overlapFree.writePieces.markDirtySlots
          · exact h.readGate.movOffer.movOffer.readPieces.overlapFree.writePieces

theorem State.Canon.copyChunks {die c : Nat} {o : Origin} {src dst : MovAddr}
    {all : List (Nat × Nat)} {hint : Nat} {l : List (Nat × Nat × Nat)} {b : Copying} (h : b.st.Canon) :
    (Machine.copyChunks die c o src dst all hint l b).st.Canon := by
  induction l generalizing b with
  | nil => exact h
  | cons x t ih =>
    unfold Machine.copyChunks
    split
    next u _ _ _ hu => exact ih (h.copyChunk_some (congrArg Prod.fst hu))
    next u hu =>
      obtain rfl : _ = u := congrArg Prod.snd hu
      exact h.copyChunk

theorem State.Canon.copyFrom {die c : Nat} {o : Origin} {src dst : MovAddr}
    {chunks : List (Nat × Nat × Nat)} {prog hint : Nat} (h : s.Canon) :
    (s.copyFrom die c o src dst chunks prog hint).st.Canon :=
  .copyChunks h

theorem State.Canon.entryAfter {d i q id done total ops : Nat} {code : BitVec 16} {st : Sticky} (h : s.Canon) :
    (s.entryAfter d i q id done total ops code st).Canon :=
  h.modEntry

theorem State.Canon.movBegin {d i : Nat} {e : QEntry} {ops : List MovAddr} {bad : Bool}
    {rest clip : BitVec 16} {f : State → State} (h : s.Canon) (hf : ∀ t, t.Canon → (f t).Canon) :
    (s.movBegin d i e ops bad rest clip f).Canon :=
  .ite (.ite h.entryAfter (.ite h.entryAfter (hf _ h))) (h.issueChecked (fun _ h' => hf _ h'.modEntry))

theorem State.Canon.contribute {d i : Nat} {e : QEntry} {src dst : MovAddr} {len : Nat}
    (h : s.Canon) : (s.contribute d i e src dst len).Canon := by
  unfold State.contribute
  dsimp only
  split
  · split
    · exact h.pageFault
    · refine .ite h.readGate ?_
      refine .ite h.readGate.finish ?_
      split
      · exact h.readGate.modCore.movOffer.readPieces.sendContrib.entryAfter
      · split
        · exact h.readGate.modCore.movOffer.readPieces.finish
        · exact .ite h.readGate.modCore.movOffer.readPieces.finish
            h.readGate.modCore.movOffer.readPieces.movOffer.modStack.entryAfter
  · exact h.finish

theorem State.Canon.movRows {d i : Nat} {e : QEntry} {rows rowBytes ss ds hint : Nat}
    {fmtBad red : Bool} (h : s.Canon) :
    (s.movRows d i e rows rowBytes ss ds hint fmtBad red).Canon := by
  unfold State.movRows
  exact h.movBegin fun _ h' => .ite h'.contribute h'.copyFrom.entryAfter

theorem Res.Canon.execMovCopy {die core : Nat} (h : s.Canon) : Res.Canon (execMovCopy die core s) :=
  .upDo h (fun _ h => h.issue (fun _ _ h => h.movRows))

theorem Res.Canon.execMovCopy2d {die core : Nat} (h : s.Canon) : Res.Canon (execMovCopy2d die core s) :=
  .upDo h (fun _ h => h.issue (fun _ _ h => h.movRows))

theorem State.Canon.convFree {sf df n : Nat} {src dst : List (Nat × Nat)} {l : List Byte}
    (h : s.Canon) : (s.convFree sf df n src dst l).1.Canon :=
  .iteOf Prod.fst h h.upd

theorem State.Canon.movConvert {d i : Nat} {e : QEntry} (h : s.Canon) : (s.movConvert d i e).Canon := by
  unfold State.movConvert
  refine h.movBegin fun _ h' => ?_
  dsimp only
  split
  · exact h'.pageFault
  · exact h'.pageFault
  · refine .ite h'.readGate (.finish ?_)
    split
    · exact h'.readGate.movOffer.movOffer.readPieces.convFree.modCore.writePieces.markDirtySlots
    · exact h'.readGate.movOffer.movOffer.readPieces.convFree.modCore.writePieces

theorem Res.Canon.execMovConvert {die core : Nat} (h : s.Canon) : Res.Canon (execMovConvert die core s) :=
  .upDo h (fun _ h => h.issue (fun _ _ h => h.movConvert))

theorem State.Canon.fillChunks {die c : Nat} {o : Origin} {pat : BitVec 64} {dst : MovAddr}
    {l : List (Nat × Nat)} {b : Copying} (h : b.st.Canon) :
    (fillChunks die c o pat dst l b).st.Canon := by
  induction l generalizing b with
  | nil => exact h
  | cons x t ih =>
    unfold Machine.fillChunks
    split
    · exact h.pageFault
    · exact ih (by split; exacts [h.movOffer.writePieces.markDirtySlots, h.movOffer.writePieces])

theorem State.Canon.movFill {d i : Nat} {e : QEntry} (h : s.Canon) : (s.movFill d i e).Canon := by
  unfold State.movFill
  exact h.movBegin fun _ h' => .entryAfter (.fillChunks h')

theorem Res.Canon.execMovFill {die core : Nat} (h : s.Canon) : Res.Canon (execMovFill die core s) :=
  .upDo h (fun _ h => h.issue (fun _ _ h => h.movFill))

theorem Res.Canon.execMoverCmdComplete {die core : Nat} (h : s.Canon) : Res.Canon (execMoverCmdComplete die core s) :=
  .upDo h (fun _ h => h.cmdComplete)

end Sys2Proof.Machine
end

section
/-! PROOFS. Canonical memory: the operations of Machine/Engine.lean keep it. -/

namespace Sys2Proof.Machine

variable {s t : State}

theorem Res.Canon.execWait {die core q : Nat} {fault : Bool} (h : s.Canon) : Res.Canon (execWait die core q s fault) :=
  .upDo h (fun _ h => .ite (h.issue (fun _ _ h => h.issueChecked (fun _ h => h.finish))) h)

theorem Res.Canon.execPost {die core q : Nat} {fault : Bool} (h : s.Canon) : Res.Canon (execPost die core q s fault) :=
  .upDo h (fun _ h => .ite (h.issue (fun _ _ h => h.issueChecked (fun _ h => h.finish))) h)

theorem Res.Canon.execFence {die core q : Nat} {fault : Bool} (h : s.Canon) :
    Res.Canon (execFence die core q s fault) :=
  .upDo h (fun _ h => .ite (h.issue (fun _ _ h => .ite h (h.issueChecked (fun _ h => h.finish)))) h)

theorem State.Canon.seedUnit {d i q : Nat} {v : BitVec 64} {mover : Bool} (h : s.Canon) :
    (s.seedUnit d i q v mover).Canon :=
  .ite (.applySeed (.upd (.ite h.modCore (.ite h.modCore h.modCore))))
      (.upd (.ite h.modCore (.ite h.modCore h.modCore)))

theorem Res.Canon.execRngSeed {die core q : Nat} {fault : Bool} (h : s.Canon) :
    Res.Canon (execRngSeed die core q s fault) :=
  .upDo h (fun _ h => .ite (h.issue (fun _ _ h => h.issueChecked (fun _ h => h.seedUnit.finish))) h)

theorem State.Canon.csWrite {d i o : Nat} {l : List Byte} {bad : Nat → Bool} (h : s.Canon) :
    (s.csWrite d i o l bad).1.Canon :=
  h.ssuWrPois

theorem State.Canon.freeBytes {n : Nat} (h : s.Canon) : (s.freeBytes n).1.Canon :=
  h.upd

theorem State.Canon.modEngine {d i q : Nat} {f : Engine → Engine} (h : s.Canon) : (s.modEngine d i q f).Canon :=
  h.modCore

theorem State.Canon.loadSlot {d i q : Nat} {e : QEntry} {isB fault : Bool} (h : s.Canon) :
    (s.loadSlot d i q e isB fault).Canon :=
  h.issueChecked (fun _ h => .finish (.modEngine (.iteOf Prod.snd h.draw h)))

theorem Res.Canon.engineDo {d i q op : Nat} {f : State → QEntry → State} (h : s.Canon)
    (hf : ∀ t x, t.Canon → (f t x).Canon) :
    Res.Canon (engineDo s d i q op f) :=
  .upDo h (fun _ h' => .ite (h'.issue (fun _ _ h' => hf _ _ h')) h')

theorem Res.Canon.execLoadA {die core q : Nat} {fault : Bool} (h : s.Canon) :
    Res.Canon (execLoadA die core q s fault) :=
  .engineDo h (fun _ _ h => h.loadSlot)

theorem Res.Canon.execLoadB {die core q : Nat} {fault : Bool} (h : s.Canon) :
    Res.Canon (execLoadB die core q s fault) :=
  .engineDo h (fun _ _ h => h.loadSlot)

theorem State.Canon.scaleSet {d i q : Nat} {e : QEntry} {fault : Bool} (h : s.Canon) :
    (s.scaleSet d i q e fault).Canon := by
  unfold State.scaleSet
  extract_lets
  refine h.issueChecked fun t h => ?_
  split
  next t1 l ht =>
    exact (State.Canon.ofEq ht (.iteOf Prod.fst h.freeBytes (.fst h))).modEngine.finish

theorem Res.Canon.execScaleSet {die core q : Nat} {fault : Bool} (h : s.Canon) :
    Res.Canon (execScaleSet die core q fault s) :=
  .engineDo h (fun _ _ h => h.scaleSet)

theorem State.Canon.accClear {d i q : Nat} {e : QEntry} {fault : Bool} (h : s.Canon) :
    (s.accClear d i q e fault).Canon :=
  h.issueChecked (fun _ h => h.modEngine.finish)

theorem Res.Canon.execAccClear {die core q : Nat} {fault : Bool} (h : s.Canon) :
    Res.Canon (execAccClear die core q fault s) :=
  .engineDo h (fun _ _ h => h.accClear)

theorem State.Canon.product {d i q : Nat} {e : QEntry} {oa ob : OpSlot} {passes : List Pass}
    {split : Bool} {k bank : Nat} {ini ftz : Bool} {sat sblk : Nat} {fault : Bool} (h : s.Canon) :
    (s.product d i q e oa ob passes split k bank ini ftz sat sblk fault).Canon :=
  h.modEngine.upd.finish

theorem State.Canon.mma {d i q : Nat} {e : QEntry} {fault : Bool} (h : s.Canon) : (s.mma d i q e fault).Canon :=
  h.issueChecked (fun _ h' => h'.product)

theorem Res.Canon.execMma {die core q : Nat} {fault : Bool} (h : s.Canon) : Res.Canon (execMma die core q fault s) :=
  .engineDo h (fun _ _ h => h.mma)

theorem State.Canon.mmaSplit {d i q : Nat} {e : QEntry} {fault : Bool} (h : s.Canon) :
    (s.mmaSplit d i q e fault).Canon :=
  h.issueChecked (fun _ h' => h'.product)

theorem Res.Canon.execMmaSplit {die core q : Nat} {fault : Bool} (h : s.Canon) :
    Res.Canon (execMmaSplit die core q fault s) :=
  .engineDo h (fun _ _ h => h.mmaSplit)

theorem State.Canon.putEach {d i o p a : Nat} {l : List (List Byte × (Nat → Bool))} (h : s.Canon) :
    (s.putEach d i o p a l).1.Canon := by
  induction l generalizing s a with
  | nil => exact h
  | cons x t ih => exact ih h.csWrite

theorem State.Canon.putVecs {d i o p len : Nat} {l : List (List Byte × (Nat → Bool))} (h : s.Canon)
    : (s.putVecs d i o p len l).1.Canon :=
  .iteOf Prod.fst h.csWrite h.putEach

theorem State.Canon.accRead {d i q : Nat} {e : QEntry} {fault : Bool} (h : s.Canon) :
    (s.accRead d i q e fault).Canon := by
  unfold State.accRead
  refine h.issueChecked fun _ h => ?_
  exact .finish (.putVecs (.iteOf Prod.fst h.freeBytes h))

theorem Res.Canon.execAccRead {die core q : Nat} {fault : Bool} (h : s.Canon) :
    Res.Canon (execAccRead die core q fault s) :=
  .engineDo h (fun _ _ h => h.accRead)

theorem State.Canon.storeC {d i q : Nat} {e : QEntry} {fault : Bool} (h : s.Canon) :
    (s.storeC d i q e fault).Canon := by
  unfold State.storeC
  extract_lets
  refine h.issueChecked fun t h => ?_
  extract_lets
  split
  extract_lets
  split
  next t1 _ ht1 =>
    have h1 : t1.Canon := .ofEq ht1 (.iteOf Prod.fst h.freeBytes (.fst h))
    extract_lets
    split
    next t2 _ ht2 =>
      have h2 : t2.Canon := .ofEq ht2 h1.modEngine.putVecs
      split
      next t3 _ ht3 =>
        exact (State.Canon.ofEq ht3 (.iteOf Prod.fst h2.csWrite (.fst h2))).finish

theorem Res.Canon.execStoreC {die core q : Nat} {fault : Bool} (h : s.Canon) :
    Res.Canon (execStoreC die core q fault s) :=
  .engineDo h (fun _ _ h => h.storeC)

theorem Res.Canon.execEngineCmdComplete {die core q : Nat} (h : s.Canon) :
    Res.Canon (execEngineCmdComplete die core q s) :=
  .upDo h (fun _ h => .ite h.cmdComplete h)

end Sys2Proof.Machine
end

section
/-! PROOFS. Canonical memory: the operations of Machine/Shaping.lean keep it. -/

namespace Sys2Proof.Machine

variable {s t : State}

theorem Res.Canon.shpDo {d i op : Nat} {f : State → QEntry → State} (h : s.Canon)
    (hf : ∀ t x, t.Canon → (f t x).Canon) :
    Res.Canon (shpDo s d i op f) :=
  .upDo h (fun _ h' => h'.issue (fun _ _ h' => hf _ _ h'))

theorem State.Canon.putRuns {d i f : Nat} {r : Rnd} {conv hazard : Bool} {a : Nat} {l : List ShpRun} (h : s.Canon) :
    (s.putRuns d i f r conv hazard a l).1.Canon := by
  induction l generalizing s a with
  | nil => exact h
  | cons x t ih => exact ih (.csWrite (.iteOf Prod.fst h.modCore.freeBytes (.fst h.modCore)))

theorem State.Canon.shpDone {d i f : Nat} {e : QEntry} {r : Rnd} {hazard : Bool} {st : Sticky}
    {runs : List ShpRun} {conv : Bool} (h : s.Canon) :
    (s.shpDone d i f e r hazard st runs conv).Canon :=
  h.putRuns.finish

theorem State.Canon.eltwise {d i : Nat} {e : QEntry} (h : s.Canon) : (s.eltwise d i e).Canon := by
  unfold State.eltwise
  extract_lets
  refine h.issueChecked fun t h => .ite h.finish ?_
  extract_lets
  refine .ite ?_ ?_
  · extract_lets
    exact h.upd.shpDone
  · extract_lets
    exact h.upd.shpDone

theorem Res.Canon.execEltwise {die core : Nat} (h : s.Canon) : Res.Canon (execEltwise die core s) :=
  .shpDo h (fun _ _ h => h.eltwise)

theorem State.Canon.rowsDo {d i : Nat} {e : QEntry} {x : RowOp} {bad more : Bool} {draws : Nat}
    {extra : Nat → Bool} {hz : Bool} {st0 : Sticky} {f : Nat → Nat → List FP → List FP × Sticky}
    (h : s.Canon) :
    (s.rowsDo d i e x bad more draws extra hz st0 f).Canon :=
  h.issueChecked (fun _ h => .ite h.finish (.ite h.upd.shpDone h.upd.shpDone))

theorem Res.Canon.execShpReduce {die core : Nat} (h : s.Canon) : Res.Canon (execShpReduce die core s) :=
  .shpDo h (fun _ _ h => h.rowsDo)

theorem Res.Canon.execSoftmax {die core : Nat} (h : s.Canon) : Res.Canon (execSoftmax die core s) :=
  .shpDo h (fun _ _ h => h.rowsDo)

theorem Res.Canon.execNorm {die core : Nat} (h : s.Canon) : Res.Canon (execNorm die core s) :=
  .shpDo h (fun _ _ h => h.rowsDo)

theorem Res.Canon.execNormL2 {die core : Nat} (h : s.Canon) : Res.Canon (execNormL2 die core s) :=
  .shpDo h (fun _ _ h => h.rowsDo)

theorem State.Canon.convPlain {d i : Nat} {e : QEntry} {inF outF n : Nat} {inMx outMx blk tr : Bool}
    {r : Rnd} {src dst sc : Nat} (h : s.Canon) :
    (s.convPlain d i e inF outF n inMx outMx blk tr r src dst sc).Canon := by
  unfold State.convPlain
  extract_lets
  rename_i b1 w1 _ b2 w2
  have h1 : w1.1.Canon := .csWrite (.iteOf Prod.fst h.modCore.freeBytes (.fst h.modCore))
  have h2 : w2.1.Canon := .csWrite (.iteOf Prod.fst h1.freeBytes (.fst h1))
  exact .ite h2.finish h.shpDone

theorem State.Canon.convSplit {d i : Nat} {e : QEntry} {inF outF n pieces src dst plane : Nat} (h : s.Canon) :
    (s.convSplit d i e inF outF n pieces src dst plane).Canon :=
  .finish (.foldlOf Prod.fst h (fun _ _ h' => .csWrite (.iteOf Prod.fst h'.freeBytes h')))

theorem State.Canon.convertCmd {d i : Nat} {e : QEntry} (h : s.Canon) : (s.convertCmd d i e).Canon :=
  h.issueChecked (fun _ h => .ite h.finish (.ite h.convSplit h.convPlain))

theorem Res.Canon.execConvert {die core : Nat} (h : s.Canon) : Res.Canon (execConvert die core s) :=
  .shpDo h (fun _ _ h => h.convertCmd)

theorem State.Canon.gatherRows {d i tab dst rl p nrows : Nat} {hazard : Bool}
    {l : List (ℤ × Bool × Nat)} (h : s.Canon) :
    (s.gatherRows d i tab dst rl p nrows hazard l).1.Canon := by
  induction l generalizing s with
  | nil => exact h
  | cons x t ih => exact ih (.csWrite (.iteOf Prod.fst h.freeBytes h))

theorem Res.Canon.execShpGather {die core : Nat} (h : s.Canon) : Res.Canon (execShpGather die core s) :=
  .shpDo h (fun _ _ h => h.issueChecked (fun _ h => .ite h.finish h.gatherRows.finish))

end Sys2Proof.Machine
end

section
/-! PROOFS. Canonical memory: the operations of Machine/Ssu.lean keep it. -/

namespace Sys2Proof.Machine

variable {s t : State}

theorem State.Canon.vaRead {c va n : Nat} (h : s.Canon) : (s.vaRead c va n).1.Canon :=
  h.readPieces

theorem State.Canon.vaWrite {c va : Nat} {l : List Byte} {bad : List Bool} (h : s.Canon) :
    (s.vaWrite c va l bad).1.Canon :=
  h.writePieces.markDirtySlots

theorem State.Canon.setDetail {c k index : Nat} {v : BitVec 64} (h : s.Canon) : (s.setDetail c k index v).Canon :=
  h.modDesc

theorem State.Canon.ssuEnd {c : Nat} {e : SsuCmd} {code : BitVec 16} {st : Sticky} {detail : Nat} (h : s.Canon) :
    (s.ssuEnd c e code st detail).Canon :=
  h.setDetail.outcome

theorem State.Canon.ssuRefuse {l c : Nat} {e : SsuCmd} {code : BitVec 16} (h : s.Canon) :
    (s.ssuRefuse l c e code).Canon :=
  h.modStack.ssuEnd

theorem State.Canon.modSsu {l c k : Nat} {f : SsuCmd → SsuCmd} (h : s.Canon) : (s.modSsu l c k f).Canon :=
  h.modStack

theorem State.Canon.ssuStall {c : Nat} {e : SsuCmd} {x : Nat × Nat × Nat × Bool} (h : s.Canon) :
    (s.ssuStall c e x).Canon :=
  h.pageFault

theorem State.Canon.ssuStop {c : Nat} {e : SsuCmd} {x : Stall} (h : s.Canon) : (s.ssuStop c e x).Canon := by
  unfold State.ssuStop
  split
  · exact h.ssuStall
  · exact h

theorem State.Canon.catRefuse {l c : Nat} {e : SsuCmd} (h : s.Canon) : (s.catRefuse l c e).Canon :=
  h.modStack.ssuRefuse

theorem State.Canon.ssuBegin {l c k : Nat} {e : SsuCmd} {head : List Byte} (h : s.Canon) :
    (s.ssuBegin l c k e head).Canon :=
  .ite h h.modSsu

theorem State.Canon.attBegin {l c k : Nat} {e : SsuCmd} (h : s.Canon) : (s.attBegin l c k e).Canon := by
  unfold State.attBegin
  refine .ite h.ssuBegin ?_
  split
  · exact h.ssuStall
  · exact .ite h.readGate (.ite h.readGate.vaRead.ssuEnd (.ite h.readGate.vaRead.catRefuse h.readGate.vaRead.ssuBegin))

theorem State.Canon.ssuStart {l c k : Nat} (h : s.Canon) : (s.ssuStart l c k).Canon := by
  unfold State.ssuStart
  split
  · exact h
  · exact .ite h (.ite h.ssuEnd (.ite h.ssuRefuse (.ite h (.ite h.attBegin h.ssuBegin))))

theorem Res.Canon.execSsuCmdStart {ls fn k : Nat} (h : s.Canon) : Res.Canon (execSsuCmdStart ls fn k s) :=
  .upDo h (fun _ h => h.ssuStart)

theorem State.Canon.ssuRow {l c k op : Nat} {f : State → SsuCmd → State} (h : s.Canon)
    (hf : ∀ t x, t.Canon → (f t x).Canon) :
    (s.ssuRow l c k op f).Canon := by
  unfold State.ssuRow
  split
  · exact h
  · exact .ite h (.ite h.ssuEnd (.ite h.ssuRefuse (hf _ _ h)))

theorem State.Canon.modWin {l n : Nat} {f : Window → Window} (h : s.Canon) : (s.modWin l n f).Canon :=
  h.modStack

theorem State.Canon.ssuPost {l c : Nat} {w : BitVec 32} (h : s.Canon) : (s.ssuPost l c w).Canon :=
  h.sendPost

theorem State.Canon.destWrite {l c : Nat} {w : Window} {x : Nat} {d : List Byte} {bad : List Bool} (h : s.Canon) :
    (s.destWrite l c w x d bad).Canon :=
  .ite h.writePieces.markDirtySlots h.writePieces

theorem State.Canon.noiseSum {l : Nat} {w : Window} (h : s.Canon) : (s.noiseSum l w).1.Canon :=
  h.readPieces.destWrite.modStack.upd

theorem State.Canon.closeWin {l n : Nat} (h : s.Canon) : (s.closeWin l n).1.Canon := by
  unfold State.closeWin
  exact .ssuPost (.iteOf Prod.fst h.modWin.destWrite.event (.iteOf Prod.fst h.modWin.noiseSum (.fst h.modWin)))

theorem State.Canon.winOpen {l c : Nat} {e : SsuCmd} (h : s.Canon) : (s.winOpen l c e).Canon := by
  unfold State.winOpen
  dsimp only
  split
  · exact h.ssuStall
  · exact .ite (.ssuEnd (.closeWin (.modStack (.ite h.destWrite h)))) (.ssuEnd (.modStack (.ite h.destWrite h)))

theorem Res.Canon.execWinOpen {ls fn k : Nat} (h : s.Canon) : Res.Canon (execWinOpen ls fn k s) :=
  .upDo h (fun _ h => h.ssuRow (fun _ _ h => h.winOpen))

theorem Res.Canon.execClipNoise {ls fn k : Nat} (h : s.Canon) : Res.Canon (execClipNoise ls fn k s) :=
  .upDo h (fun _ h => h.ssuRow (fun _ _ h => h.winOpen))

theorem Res.Canon.execWinClose {ls fn k : Nat} (h : s.Canon) : Res.Canon (execWinClose ls fn k s) :=
  .upDo h (fun _ h => h.ssuRow (fun _ _ h => .ite h (.ite h.ssuEnd (by split; exacts [h.ssuStall, h.closeWin.ssuEnd]))))

theorem Res.Canon.execWinFree {ls fn k : Nat} (h : s.Canon) : Res.Canon (execWinFree ls fn k s) :=
  .upDo h (fun _ h => h.ssuRow (fun _ _ h => h.modStack.ssuEnd))

theorem State.Canon.applyGroups {l : Nat} {w : Window} {x : Contrib} {g g' : Nat} (h : s.Canon) :
    (s.applyGroups l w x g g').1.Canon :=
  h.readPieces.destWrite.upd

theorem State.Canon.contribEnd {x : Contrib} {code : BitVec 16} {st : Sticky} (h : s.Canon) :
    (s.contribEnd x code st).Canon := by
  unfold State.contribEnd
  split <;> exact h.outcome

theorem State.Canon.contribution {l n upTo : Nat} (h : s.Canon) : (s.contribution l n upTo).Canon := by
  unfold State.contribution
  split
  · exact h
  · refine .ite h ?_
    refine .ite h.modStack.modStack.contribEnd ?_
    refine .ite h.modStack.modWin.modStack.contribEnd ?_
    refine .ite h.modStack.modStack.contribEnd ?_
    dsimp only
    split
    · exact h.pageFault
    · exact .ite (.ite h (.modWin (.modStack (.ite h.applyGroups h))))
        (.contribEnd (.ite (.closeWin (.modStack (.modWin
        (.modStack (.iteOf Prod.fst h.applyGroups h)))))
        (.modStack (.modWin (.modStack (.iteOf Prod.fst h.applyGroups h))))))

theorem Res.Canon.execContribution {ls n upTo : Nat} (h : s.Canon) : Res.Canon (execContribution ls n upTo s) :=
  .upDo h (fun _ h => h.contribution)

theorem Res.Canon.execSsuReduce {ls fn k : Nat} (h : s.Canon) : Res.Canon (execSsuReduce ls fn k s) :=
  .upDo h (fun _ h => h.ssuRow (fun _ _ h => .ite h.ssuEnd
      (.ite h (by dsimp only; split; exacts [h.ssuStall, .ite h.readGate h.readGate.vaRead.modStack]))))

theorem State.Canon.optGroup {c : Nat} {o : Origin} {b : BitVec 1024} {a : OptArgs} {pass : Nat}
    {trust : FP} {x : OptRun} (h : x.st.Canon) :
    (Machine.optGroup c o b a pass trust x).st.Canon := by
  unfold Machine.optGroup
  extract_lets
  split
  · exact h
  split
  next s0 _ h0 =>
  have h0 : s0.Canon := .ofEq h0 h.readGate
  refine .iteOf OptRun.st h0 ?_
  split
  next s1 _ _ h1 =>
  split
  next s2 _ _ h2 =>
  split
  next s3 _ _ h3 =>
  have h3 : s3.Canon := .ofEq h3 (.vaRead (.ofEq h2 (.vaRead (.ofEq h1 h0.vaRead))))
  split
  next s4 _ _ h4 =>
  have h4 : s4.Canon := .ofEq h4 (.iteOf Prod.fst h3.vaRead (.fst h3))
  extract_lets
  rename_i m m' _ _ _ _ _ _ w _ r
  have hm : m.Canon := .ite h4.upd h4.upd.vaWrite
  have hm' : m'.Canon := .ite hm hm.vaWrite
  have hr : r.Canon := hm'.vaWrite.modStack
  refine .iteOf OptRun.st hm'.upd ?_
  split
  next s5 _ h5 =>
  have h5 : s5.Canon := .ofEq h5 (.iteOf Prod.fst (.fst hr.vaWrite) (.fst hm'.vaWrite))
  exact .ite h5.vaWrite h5

theorem State.Canon.optGroups {c : Nat} {o : Origin} {b : BitVec 1024} {a : OptArgs} {pass : Nat}
    {trust : FP} {fuel : Nat} {b' : OptRun} (h : b'.st.Canon) :
    (optGroups c o b a pass trust fuel b').st.Canon := by
  induction fuel generalizing b' with
  | zero => exact h
  | succ fuel ih => exact .iteOf OptRun.st h (ih h.optGroup)

theorem State.Canon.optStep {l c k : Nat} {e : SsuCmd} (h : s.Canon) : (s.optStep l c k e).Canon := by
  unfold State.optStep
  extract_lets
  refine .ite h.ssuEnd ?_
  split
  extract_lets
  rename_i x1 _ _ _ _ _ _ _ x2
  have h1 : x1.st.Canon := .iteOf OptRun.st h.upd (.optGroups h.upd)
  have h2 : x2.st.Canon := .optGroups h1.upd
  refine .ite ?_ ?_
  · split
    · exact .ssuStop (.modDesc (.modSsu (.optGroups h.upd)))
    · exact .ssuEnd (.optGroups h.upd)
  · split
    · exact h1.modSsu.modDesc.ssuStop
    · split
      · exact h2.modSsu.modDesc.ssuStop
      · exact h2.ssuEnd

theorem Res.Canon.execOptStep {ls fn k : Nat} (h : s.Canon) : Res.Canon (execOptStep ls fn k s) :=
  .upDo h (fun _ h => h.ssuRow (fun _ _ h => h.optStep))

theorem State.Canon.ssuOffer {a : RowArgs} {c : Nat} {write : Bool} {ps : List (Nat × Nat)}
    (h : s.Canon) : (s.ssuOffer a c write ps).Canon :=
  h.offer

theorem State.Canon.farDirty {c : Nat} {m : MovAddr} {x n : Nat} (h : s.Canon) : (s.farDirty c m x n).Canon := by
  unfold State.farDirty
  split
  · exact h.markDirtySlots
  · exact h

theorem State.Canon.gatherRow {c : Nat} {o : Origin} {a : RowArgs} {hazard : Bool} {x : RowRun} (h : x.st.Canon) :
    (Machine.gatherRow c o a hazard x).st.Canon := by
  unfold Machine.gatherRow
  extract_lets
  split
  · exact h
  split
  next s0 _ h0 =>
  have h0 : s0.Canon := .ofEq h0 h.readGate
  refine .iteOf RowRun.st h0 ?_
  split
  next s1 _ _ h1 =>
  have h1 : s1.Canon := .ofEq h1 h0.vaRead
  extract_lets
  split
  · exact h
  split
  next s2 _ h2 =>
  have h2 : s2.Canon := .ofEq h2 h1.readGate
  refine .iteOf RowRun.st h2 ?_
  extract_lets
  rename_i rd _ _ _ _ b w
  have hrd : rd.1.Canon := .foldlOf Prod.fst h2.upd fun _ _ h => .iteOf Prod.fst h.vaRead h
  have hb : b.1.Canon := .iteOf Prod.fst hrd.upd.freeBytes (.fst hrd.upd)
  exact hb.ssuOffer.writePieces.farDirty

theorem State.Canon.scatterRow {c : Nat} {o : Origin} {a : RowArgs} {x : RowRun} (h : x.st.Canon) :
    (Machine.scatterRow c o a x).st.Canon := by
  unfold Machine.scatterRow
  extract_lets
  split
  · exact h
  split
  next s0 _ h0 =>
  have h0 : s0.Canon := .ofEq h0 h.readGate
  refine .iteOf RowRun.st h0 ?_
  split
  next s1 _ _ h1 =>
  have h1 : s1.Canon := .ofEq h1 h0.vaRead
  extract_lets
  refine .iteOf RowRun.st h1.upd ?_
  split
  · exact h
  split
  next s2 _ h2 =>
  have h2 : s2.Canon := .ofEq h2 h1.readGate
  refine .iteOf RowRun.st h2 ?_
  extract_lets
  split
  next s3 _ _ h3 =>
  have h3 : s3.Canon := .ofEq h3 h2.upd.ssuOffer.readPieces
  split
  next s4 _ _ h4 =>
  have h4 : s4.Canon := .ofEq h4 (.iteOf Prod.fst h3.vaRead (.fst h3))
  exact h4.upd.vaWrite

theorem State.Canon.rowsLoop {n : Nat} {f : RowRun → RowRun} {fuel : Nat} {x : RowRun}
    (hf : ∀ x, x.st.Canon → (f x).st.Canon) (h : x.st.Canon) :
    (rowsLoop n f fuel x).st.Canon := by
  induction fuel generalizing x with
  | zero => exact h
  | succ fuel ih => exact .iteOf RowRun.st h (ih (hf x h))

theorem State.Canon.rowCmd {l c k : Nat} {e : SsuCmd} {scatter : Bool} (h : s.Canon) :
    (s.rowCmd l c k e scatter).Canon := by
  unfold State.rowCmd
  extract_lets
  rename_i x _
  have hx : x.st.Canon := .rowsLoop (fun y hy => by
    cases scatter
    · exact hy.gatherRow
    · exact hy.scatterRow) h
  split
  · exact hx.modSsu.modDesc.ssuStop
  · exact hx.ssuEnd

theorem Res.Canon.execSsuGather {ls fn k : Nat} (h : s.Canon) : Res.Canon (execSsuGather ls fn k s) :=
  .upDo h (fun _ h => h.ssuRow (fun _ _ h => h.rowCmd))

theorem Res.Canon.execScatter {ls fn k : Nat} (h : s.Canon) : Res.Canon (execScatter ls fn k s) :=
  .upDo h (fun _ h => h.ssuRow (fun _ _ h => h.rowCmd))

theorem State.Canon.dropDeltas {p off : Nat} (h : s.Canon) : (s.dropDeltas p off).Canon :=
  h.upd

theorem State.Canon.recomputeParity {ar : List Nat × Nat × Nat} {off : Nat} (h : s.Canon) :
    (s.recomputeParity ar off).Canon :=
  h.dropDeltas.wrSec

theorem State.Canon.rebuildSec {c : Nat} {ar : List Nat × Nat × Nat} {m off : Nat} (h : s.Canon) :
    (s.rebuildSec c ar m off).1.Canon :=
  .iteOf Prod.fst (.ite h.ssuPoison.recomputeParity h.ssuPoison.recomputeParity.poisonEvent)
      h.wrSec.modStack.modMem.refresh

theorem State.Canon.parityCmd {c : Nat} {e : SsuCmd} (h : s.Canon) : (s.parityCmd c e).Canon := by
  unfold State.parityCmd
  dsimp only
  split
  · exact (h.foldl (fun _ _ h' => h'.recomputeParity)).ssuEnd
  · exact h.ssuEnd
  · exact .ssuEnd (.foldlOf Prod.fst h (fun _ _ h' => h'.rebuildSec))

theorem Res.Canon.execParity {ls fn k : Nat} (h : s.Canon) : Res.Canon (execParity ls fn k s) :=
  .upDo h (fun _ h => h.ssuRow (fun _ _ h => h.parityCmd))

theorem State.Canon.wipePiece {c a n : Nat} (h : s.Canon) : (s.wipePiece c a n).Canon :=
  .ite h.ncWrite h.wipeRange.refresh

theorem State.Canon.wipeCmd {c : Nat} {e : SsuCmd} (h : s.Canon) : (s.wipeCmd c e).Canon := by
  unfold State.wipeCmd
  dsimp only
  split
  · exact h.ssuStall
  · exact ((h.foldl (fun _ _ h => h.wipePiece)).markDirtySlots).ssuEnd

theorem Res.Canon.execWipe {ls fn k : Nat} (h : s.Canon) : Res.Canon (execWipe ls fn k s) :=
  .upDo h (fun _ h => h.ssuRow (fun _ _ h => h.wipeCmd))

theorem State.Canon.migrate {l : Nat} {e : SsuCmd} (h : s.Canon) : (s.migrate l e).Canon := by
  unfold State.migrate
  exact h.modStack

theorem Res.Canon.execMigrate {ls fn k : Nat} (h : s.Canon) : Res.Canon (execMigrate ls fn k s) :=
  .upDo h (fun _ h => h.ssuRow (fun _ _ h => .ite h h.migrate))

theorem Res.Canon.execNoiseRekey {ls : Nat} (h : s.Canon) : Res.Canon (execNoiseRekey ls s) :=
  .upDo h (fun _ h => .ite h.modStack.upd h)

end Sys2Proof.Machine
end

section
/-! PROOFS. Canonical memory: the operations of Machine/Attention.lean keep it. -/

namespace Sys2Proof.Machine

variable {s t : State}

theorem State.Canon.attOut {l c k : Nat} {e : SsuCmd} {out : Nat} {data : List Byte}
    {bad : List Bool} {code : BitVec 16} {st : Sticky} {detail : Nat} (h : s.Canon) :
    (s.attOut l c k e out data bad code st detail).Canon := by
  unfold State.attOut
  split
  · exact h.modSsu.modDesc.foldl (fun _ _ h => h.sendPut)
  · exact h.vaWrite.ssuEnd

theorem State.Canon.attStop {l c : Nat} {e : SsuCmd} {code : BitVec 16} (h : s.Canon) : (s.attStop l c e code).Canon :=
  h.modStack.ssuEnd

theorem State.Canon.attPage {c : Nat} {o : Origin} {x : AttCtx} {y : AttRun} {p : Nat}
    (h : y.st.Canon) : (Machine.attPage c o x y p).st.Canon := by
  unfold Machine.attPage
  refine .iteOf AttRun.st h ?_
  extract_lets
  split
  · exact h
  split
  next s0 _ h0 =>
  have h0 : s0.Canon := .ofEq h0 h.readGate
  refine .iteOf AttRun.st h0 ?_
  split
  next s1 _ _ h1 =>
  have h1 : s1.Canon := .ofEq h1 h0.vaRead
  extract_lets
  refine .iteOf AttRun.st h1 (.iteOf AttRun.st h1 ?_)
  split
  · exact h1
  split
  next s2 _ h2 =>
  have h2 : s2.Canon := .ofEq h2 h1.readGate
  exact .iteOf AttRun.st h2 h2.vaRead.upd

theorem State.Canon.attend {l c k : Nat} {e : SsuCmd} (h : s.Canon) : (s.attend l c k e).Canon := by
  unfold State.attend
  extract_lets
  refine .ite h (.ite h.ssuEnd ?_)
  split
  · exact h.ssuStall
  split
  next s0 _ h0 =>
  have h0 : s0.Canon := .ofEq h0 h.readGate
  refine .ite h0 ?_
  split
  next s1 _ _ h1 =>
  have h1 : s1.Canon := .ofEq h1 h0.vaRead
  split
  next s2 _ _ h2 =>
  have h2 : s2.Canon := .ofEq h2 (.iteOf Prod.fst (.fst h1) h1.vaRead)
  extract_lets
  rename_i r _ _ _ _
  have hr : r.st.Canon := .foldlOf AttRun.st h2.upd.upd fun _ _ h => h.attPage
  split
  · exact hr.ssuStop
  · exact .ite hr.modStack.ssuEnd (.ite hr.modStack.attStop hr.modStack.upd.attOut)

theorem Res.Canon.execAttend {ls fn k : Nat} (h : s.Canon) : Res.Canon (execAttend ls fn k s) :=
  .upDo h (fun _ h => h.ssuRow (fun _ _ h => h.attend))

theorem State.Canon.merge {l c k : Nat} {e : SsuCmd} (h : s.Canon) : (s.merge l c k e).Canon := by
  unfold State.merge
  refine .ite h ?_
  refine .ite h.ssuEnd ?_
  split
  · exact h.ssuStall
  · exact .ite h.readGate h.readGate.vaRead.upd.upd.attOut

theorem Res.Canon.execMerge {ls fn k : Nat} (h : s.Canon) : Res.Canon (execMerge ls fn k s) :=
  .upDo h (fun _ h => h.ssuRow (fun _ _ h => h.merge))

end Sys2Proof.Machine
end

section
/-! PROOFS. Canonical memory: the operations of Machine/Dispatcher.lean keep it. -/

namespace Sys2Proof.Machine

variable {s t : State}

theorem State.Canon.enqueue {fn k : Nat} (h : s.Canon) : (s.enqueue fn k).Canon := by
  unfold State.enqueue
  refine .ite h ?_
  split
  · exact h
  · exact h.nextSerial.modRing.fetch

theorem Res.Canon.execDescriptorEnqueue {fn k : Nat} (h : s.Canon) : Res.Canon (execDescriptorEnqueue fn k s) :=
  .upDo h (fun _ h => h.enqueue)

theorem State.Canon.descCopy {fn k : Nat} {d : Desc} (h : s.Canon) : (s.descCopy fn k d).Canon :=
  .ite h.modDesc h.copyFrom.modDesc

theorem State.Canon.beginDesc {fn k : Nat} {d : Desc} (h : s.Canon) : (s.beginDesc fn k d).Canon := by
  unfold State.beginDesc
  dsimp only
  split
  · exact .ite h.modDesc (.ite h.modCmpt.modDesc h)
  · exact .ite h.modDesc h.descCopy
  · exact .ite h.modDesc (.ite h.modStack.modDesc h)
  · exact .ite h.modDesc (.ite h.modDesc h.modDesc)
  · exact h.modDesc

theorem State.Canon.startDesc {fn k : Nat} (h : s.Canon) : (s.startDesc fn k).Canon := by
  unfold State.startDesc
  refine .ite h ?_
  dsimp only
  split
  · split
    · exact .ite h.modDesc h.descCopy
    · exact h
  · split
    · split
      · exact .ite h.modDesc h.descCopy
      · exact h
    · refine .ite ?_ (.ite (.modDesc (by split; exacts [.ite h.modDesc h.descCopy, h]))
        (.ite (.modDesc (by split; exacts [.ite h.modDesc h.descCopy, h]))
        (.beginDesc (by split; exacts [.ite h.modDesc h.descCopy, h]))))
      split
      · exact .ite h.modDesc h.descCopy
      · exact h

theorem Res.Canon.execDescriptorStart {fn k : Nat} (h : s.Canon) : Res.Canon (execDescriptorStart fn k s) :=
  .upDo h (fun _ h => h.startDesc)

theorem State.Canon.snapshot {d i : Nat} (h : s.Canon) : (s.snapshot d i).Canon :=
  h.upd

theorem State.Canon.startRank {fn k : Nat} {e : Desc} {rank d i : Nat} (h : s.Canon) :
    (s.startRank fn k e rank d i).Canon := by
  unfold State.startRank
  refine .ite h.modDesc ?_
  refine .ite h.modDesc ?_
  split
  · exact h.pageFault
  · exact .ite h (.ite h.offer.modCore.vaRead.writePieces.vaRead.writePieces.upd.modCore.modDesc
      h.offer.modCore.vaRead.writePieces.vaRead.writePieces.upd.modCore.modDesc.snapshot)

theorem State.Canon.rankStart {fn k index : Nat} (h : s.Canon) : (s.rankStart fn k index).Canon := by
  unfold State.rankStart
  refine .ite h ?_
  split
  · exact h
  · split
    · exact h
    · split
      · exact h.startRank
      · exact h

theorem Res.Canon.execRankStart {fn k index : Nat} (h : s.Canon) : Res.Canon (execRankStart fn k index s) :=
  .upDo h (fun _ h => h.rankStart)

theorem State.Canon.rankFinish {d i : Nat} (h : s.Canon) : (s.rankFinish d i).Canon := by
  unfold State.rankFinish
  split
  · exact h
  · exact .ite h h.snapshot.modCore.modDesc

theorem Res.Canon.execRankFinish {die core : Nat} (h : s.Canon) : Res.Canon (execRankFinish die core s) :=
  .upDo h (fun _ h => .ite h.rankFinish h)

theorem State.Canon.completeDesc {fn k index : Nat} (h : s.Canon) : (s.completeDesc fn k index).Canon := by
  unfold State.completeDesc
  split
  · exact h
  · exact .ite h (.fetch (.ite (h.modRing.dropSsu.foldl (fun _ _ h => h.applyPost))
      ((h.modRing.dropSsu.foldl (fun _ _ h => h.applyPost)).complete)))

theorem Res.Canon.execDescriptorComplete {fn k index : Nat} (h : s.Canon) :
    Res.Canon (execDescriptorComplete fn k index s) :=
  .upDo h (fun _ h => h.completeDesc)

end Sys2Proof.Machine
end

section
/-! PROOFS. Canonical memory: the operations of Machine/Mesh.lean keep it. -/

namespace Sys2Proof.Machine

variable {s t : State}

theorem State.Canon.modLink {d l : Nat} {f : Link → Link} (h : s.Canon) : (s.modLink d l f).Canon :=
  h.modRouter

theorem State.Canon.modLinks {d l : Nat} {f : Link → Link} (h : s.Canon) : (s.modLinks d l f).Canon := by
  unfold State.modLinks
  dsimp only
  split
  · exact .ite h.modLink.modLink h.modLink
  · exact h.modLink

theorem State.Canon.switchAll {set : Nat} (h : s.Canon) : (s.switchAll set).Canon :=
  h.emit

theorem State.Canon.fatal (h : s.Canon) : s.fatal.Canon :=
  h.replaceCause.aerLog

theorem State.Canon.routeFence {elem : Nat} (h : s.Canon) : (s.routeFence elem).Canon :=
  .ite h (.ite h.upd.replaceCause h.upd)

theorem State.Canon.redist (h : s.Canon) : s.redist.Canon :=
  h.foldl (fun _ _ h' => h'.modRouter)

theorem State.Canon.creditBack {d port c : Nat} (h : s.Canon) : (s.creditBack d port c).Canon := by
  unfold State.creditBack
  split
  · exact h.modRouter
  · exact h

theorem State.Canon.inject {d : Nat} {p : Packet} (h : s.Canon) : (s.inject d p).Canon := by
  unfold State.inject
  exact h.nextSerial.modRouter

theorem State.Canon.routerArrival {n flips : Nat} (h : s.Canon) : (s.routerArrival n flips).1.Canon := by
  unfold State.routerArrival
  split
  · exact h
  · extract_lets _ gone gone'
    have hg : gone.Canon := h.upd.modLink
    have hg' : gone'.Canon := .ite hg.modRouter hg
    refine .iteOf Prod.fst (.fst h) (.iteOf Prod.fst (.fst hg.creditBack) (.iteOf Prod.fst (.fst hg'.upd.creditBack)
      (.iteOf Prod.fst (.fst hg'.creditBack) (.iteOf Prod.fst (.fst h) ?_))))
    dsimp only
    exact hg'.nextSerial.modRouter

theorem State.Canon.arbitrate {d out : Nat} (h : s.Canon) : (s.arbitrate d out).Canon := by
  unfold State.arbitrate
  split
  · exact h
  · refine .ite (.upd (.ite h.modRouter h.modRouter.creditBack)) ?_
    split
    · exact .upd (.modRouter (.modLink (.ite h.modRouter h.modRouter.creditBack)))
    · exact .ite h.modRouter h.modRouter.creditBack

theorem Res.Canon.execOutputArbitration {die out : Nat} (h : s.Canon) : Res.Canon (execOutputArbitration die out s) :=
  .upDo h (fun _ h => .ite h.arbitrate h)

theorem Res.Canon.execAgeTick {die vc index : Nat} (h : s.Canon) : Res.Canon (execAgeTick die vc index s) :=
  .upDo h (fun _ h => h.modRouter)

theorem State.Canon.txnEnd {die port cls prio : Nat} (h : s.Canon) : (s.txnEnd die port cls prio).Canon := by
  unfold State.txnEnd
  split
  · exact h.modMaster
  · exact h

theorem State.Canon.answerPacket {d : Nat} {h : BitVec 128} (hs : s.Canon) : (s.answerPacket d h).Canon :=
  .ite hs (.ite hs.inject (.ite hs.inject hs))

theorem State.Canon.failSector {d : Nat} {h : BitVec 128} {k : Nat} (hs : s.Canon) : (s.failSector d h k).Canon :=
  .ite (.ite hs hs.setLine) (.ite hs.ssuPoison.poisonEvent hs)

theorem State.Canon.deliverPkt {d n : Nat} {bad : List Bool} (h : s.Canon) : (s.deliverPkt d n bad).Canon := by
  unfold State.deliverPkt
  dsimp only
  split
  · exact h
  · exact .ite (((h.upd.foldl (fun _ _ h => h.modRouter.report.event)).modRouter).inject)
      (.ite (((h.upd.foldl (fun _ _ h => h.modRouter.report.event)).modRouter).txnEnd)
      ((((h.upd.foldl (fun _ _ h => h.modRouter.report.event)).modRouter).foldl
      (fun _ _ h => h.failSector)).answerPacket))

theorem Res.Canon.execPacketDelivery {die n : Nat} {bad : List Bool} (h : s.Canon) :
    Res.Canon (execPacketDelivery die n bad s) :=
  .upDo h (fun _ h => .ite h.deliverPkt h)

theorem Res.Canon.execSwitch {die set : Nat} (h : s.Canon) : Res.Canon (execSwitch die set s) :=
  .upDo h (fun _ h => .ite h.modRouter h)

theorem State.Canon.resend {d l : Nat} (h : s.Canon) : (s.resend d l).Canon := by
  unfold State.resend
  split
  · exact h
  · exact h.upd.foldl fun _ _ h => by
      split
      · exact h
      · exact .ite h.modRouter (.ite h.modRouter h.modRouter.inject)

theorem State.Canon.quarantine {d l : Nat} (h : s.Canon) : (s.quarantine d l).Canon :=
  h.modLinks.switchAll.resend.report.event

theorem State.Canon.siteEnd {k : Nat} {q : SiteReq} {code : Nat} (h : s.Canon) : (s.siteEnd k q code).Canon :=
  .ite (.ite h h.emit) h.emit

theorem State.Canon.fenceSite {k reason : Nat} (h : s.Canon) : (s.fenceSite k reason).Canon :=
  .ite h (.report (.event (.setInv (.upd (.modSite (.foldl
      (.ite ((h.foldl (fun _ _ h => h.foldl (fun _ _ h => .ite h.modLinks h))).reclaim)
      (h.foldl (fun _ _ h => h.foldl (fun _ _ h => .ite h.modLinks h)))) (fun _ _ h => h.siteEnd)))))))

theorem State.Canon.fenceLink {d l : Nat} (h : s.Canon) : (s.fenceLink d l).Canon := by
  unfold State.fenceLink
  refine .ite h ?_
  dsimp only
  split
  · exact .ite h.modLinks.switchAll.resend.report.event.routeFence.redist.fenceSite
      h.modLinks.switchAll.resend.report.event.routeFence.redist
  · exact h.modLinks.switchAll.resend.report.event.routeFence.redist

theorem State.Canon.fenceLinksOf {d : Nat} (h : s.Canon) : (s.fenceLinksOf d).Canon :=
  h.foldl (fun _ _ h => .ite h h.modLinks.resend.report.event)

theorem State.Canon.switchBack {elem : Nat} (h : s.Canon) : (s.switchBack elem).Canon := by
  unfold State.switchBack
  split <;> exact h.switchAll

theorem State.Canon.linksReturn (h : s.Canon) : s.linksReturn.Canon :=
  h.foldl (fun _ _ h => h.foldl (fun _ _ h => by split; exacts [.ite h.modLinks.upd h, h]))

theorem State.Canon.linkUp {d l w rate : Nat} (h : s.Canon) : (s.linkUp d l w rate).Canon :=
  h.modLinks

theorem State.Canon.degradedNote {d l : Nat} (h : s.Canon) : (s.degradedNote d l).Canon :=
  h.report.event

theorem Res.Canon.execFlitCrcFail {die link : Nat} (h : s.Canon) : Res.Canon (execFlitCrcFail die link s) :=
  .upDo h (fun _ h => .ite (.ite h.modLink.quarantine h.modLink) h)

theorem Res.Canon.execCrcWindow {die link : Nat} (h : s.Canon) : Res.Canon (execCrcWindow die link s) :=
  .upDo h (fun _ h => .ite h.modLink h)

theorem Res.Canon.execLinkResetExit {die link : Nat} (h : s.Canon) : Res.Canon (execLinkResetExit die link s) :=
  .onDo h fun _ h => by
    refine .ite ?_ h
    split
    · exact h.modLinks
    · exact h.modLinks.upd
    · exact h.quarantine
    · exact h.quarantine
    · exact h

theorem State.Canon.trainEnd {d l offered peer : Nat} {lanes : BitVec 32} {rate : Nat} (h : s.Canon) :
    (s.trainEnd d l offered peer lanes rate).Canon := by
  unfold State.trainEnd
  extract_lets k full mine theirs up sent can agree w least spares note
  have hn : (note s).Canon := by
    dsimp only [note]
    split
    · exact .ite (.modLink (.modLink (.ite h.report h))) (.modLink (.ite h.report h))
    · exact .modLink (.ite h.report h)
  refine .ite h ?_
  split
  · exact .ite hn.quarantine (.ite hn.fenceLink (.ite h
      (.ite (.degradedNote (.ite hn.linkUp.switchBack hn.linkUp)) (.ite hn.linkUp.switchBack hn.linkUp))))
  · exact .ite (.ite hn.fenceLink (.ite h hn.linkUp.switchBack.report))
      (.ite hn.modLinks (.ite hn.modLinks.degradedNote.switchBack hn.fenceLink))
  · exact h

theorem Res.Canon.execMshLinkRetrain {port : Port} {die link : Nat} {val : BitVec 64} (h : s.Canon) :
    Res.Canon (execMshLinkRetrain port die link val s) :=
  .upDo h (fun _ h => .ite h.portDenied (.ite h.quarantine h))

theorem State.Canon.regIssue {die m : Nat} (h : s.Canon) : (s.regIssue die m).Canon := by
  unfold State.regIssue
  refine .ite (.ite h h.modMaster) ?_
  split
  · exact .ite h h.modMaster
  · split
    · exact .ite h h.modMaster
    · exact .inject (.modMaster (.ite h h.modMaster))

theorem Res.Canon.execRegulatorIssue {die m : Nat} (h : s.Canon) : Res.Canon (execRegulatorIssue die m s) :=
  .upDo h (fun _ h => h.regIssue)

theorem Res.Canon.execRegulatorWindow {die m : Nat} (h : s.Canon) : Res.Canon (execRegulatorWindow die m s) :=
  .upDo h (fun _ h => .ite h.modMaster h)

end Sys2Proof.Machine
end

section
/-! PROOFS. Canonical memory: the operations of Machine/MemorySys.lean keep it. -/

namespace Sys2Proof.Machine

variable {s t : State}

theorem State.Canon.planMove {d : Nat} {retire : Bool} (h : s.Canon) : (s.planMove d retire).Canon := by
  unfold State.planMove
  split
  · exact .ite h h.modStack
  · exact h

theorem State.Canon.ceCheck {d : Nat} (h : s.Canon) : (s.ceCheck d).Canon :=
  .ite h (.ite h.modMem.report.upd.replaceCause.planMove h.modMem.report.upd.replaceCause)

theorem State.Canon.logErr {ls off kind : Nat} (h : s.Canon) : (s.logErr ls off kind).Canon :=
  h.modMem

theorem State.Canon.ceRead {ls off : Nat} (h : s.Canon) : (s.ceRead ls off).Canon :=
  h.modMem.logErr.ceCheck

theorem State.Canon.uePoison {c ls off : Nat} (h : s.Canon) : (s.uePoison c ls off).Canon :=
  h.ssuPoison.modMem.logErr.report.poisonEvent

theorem State.Canon.stripeReads {p off : Nat} {ms : List Nat} (h : s.Canon) : (s.stripeReads p off ms).Canon :=
  h.upd

theorem State.Canon.parityRebuild {p off : Nat} {ms : List Nat} (h : s.Canon) : (s.parityRebuild p off ms).Canon :=
  h.modStack.stripeReads

theorem State.Canon.ueGuarded {ls off p : Nat} {ms : List Nat} (h : s.Canon) : (s.ueGuarded ls off p ms).Canon :=
  .ite h.logErr.parityRebuild (.ite h.logErr.poisonSec h.logErr.upd)

theorem State.Canon.odeccRead {ls : Nat} (h : s.Canon) : (s.odeccRead ls).Canon := by
  unfold State.odeccRead
  exact h.draw.modMem

theorem State.Canon.secRead {ls off : Nat} {dec : Dec} (h : s.Canon) : (s.secRead ls off dec).Canon := by
  unfold State.secRead
  dsimp only
  split
  · refine .ite ?_ ?_
    · split
      · exact h.odeccRead.uePoison
      · exact h.odeccRead.logErr
    · split
      · exact h.odeccRead
      · exact h.odeccRead.ceRead
      · exact h.odeccRead.uePoison
  · refine .ite ?_ ?_
    · split
      · exact h.odeccRead.ueGuarded
      · exact h.odeccRead.logErr
    · split
      · exact h.odeccRead
      · exact h.odeccRead.ceRead
      · exact h.odeccRead.ueGuarded

theorem State.Canon.modPch {d p : Nat} {f : PseudoCh → PseudoCh} (h : s.Canon) : (s.modPch d p f).Canon :=
  .ite h.modMem h

theorem State.Canon.memEnd {ls off : Nat} {code : BitVec 16} (h : s.Canon) : (s.memEnd ls off code).Canon :=
  h.emit

theorem State.Canon.memReadGo {ls : Nat} {r : MemHold} (h : s.Canon) : (s.memReadGo ls r).1.Canon :=
  .iteOf Prod.fst h.memEnd (.iteOf Prod.fst h (.iteOf Prod.fst h.memEnd
      (.iteOf Prod.fst h (.iteOf Prod.fst (h.foldl (fun _ _ h' => .ite h' h'.modPch.secRead))
      ((h.foldl (fun _ _ h' => .ite h' h'.modPch.secRead)).memEnd)))))

theorem State.Canon.memSecWrite {ls off : Nat} {l : List Byte} {pois : Bool} {dec : Dec}
    (h : s.Canon) : (s.memSecWrite ls off l pois dec).1.Canon :=
  .iteOf Prod.fst h.ssuPoison (.iteOf Prod.fst (.ite h h.secRead) (.ssuWr (.ite h h.secRead)))

theorem State.Canon.memParts {ls : Nat} {r : MemHold} {l : List (Nat × List Byte)} {b : Dec} {b' : Bool} (h : s.Canon) :
    (s.memParts ls r l b b').1.Canon := by
  induction l generalizing s b b' with
  | nil => exact h
  | cons x t ih => exact .iteOf Prod.fst h.memSecWrite (ih h.memSecWrite.modPch)

theorem State.Canon.memWriteGo {ls : Nat} {r : MemHold} (h : s.Canon) : (s.memWriteGo ls r).1.Canon :=
  .iteOf Prod.fst h.memEnd (.iteOf Prod.fst h (.iteOf Prod.fst h
      (by dsimp only; split; exacts [h.memParts, h.memParts.memEnd])))

theorem State.Canon.memTry {ls : Nat} {r : MemHold} (h : s.Canon) : (s.memTry ls r).Canon := by
  unfold State.memTry
  refine .ite h.modStack ?_
  dsimp only
  split
  · exact .modStack (.iteOf Prod.fst h.memWriteGo h.memReadGo)
  · exact .iteOf Prod.fst h.memWriteGo h.memReadGo

theorem State.Canon.memRetry {ls : Nat} (h : s.Canon) : (s.memRetry ls).Canon :=
  .ite h (h.modStack.foldl (fun _ _ h => h.memTry))

theorem Res.Canon.execMemRead {ls off : Nat} {mask : BitVec 4} {decs : List Dec} {cls prio : Nat} (h : s.Canon) :
    Res.Canon (execMemRead ls off mask decs cls prio s) :=
  .upDo h (fun _ h => h.memTry)

theorem Res.Canon.execMemWrite {ls off : Nat} {bytes : List Byte} {pois : BitVec 4} {dec : Dec}
    {cls prio : Nat} (h : s.Canon) :
    Res.Canon (execMemWrite ls off bytes pois dec cls prio s) :=
  .upDo h (fun _ h => .ite h h.memTry)

theorem Res.Canon.execControllerIssue {die pc : Nat} (h : s.Canon) : Res.Canon (execControllerIssue die pc s) :=
  .upDo h fun _ h => by
    refine .ite ?_ h
    dsimp only
    split
    · exact h.modPch.memRetry
    · exact h.modPch

theorem Res.Canon.execFloorWindow {die : Nat} (h : s.Canon) : Res.Canon (execFloorWindow die s) :=
  .upDo h (fun _ h => h.modMem)

theorem Res.Canon.execQueueLevelBroadcast {die : Nat} (h : s.Canon) : Res.Canon (execQueueLevelBroadcast die s) :=
  .upDo h fun _ h => by
    split
    · exact h
    · exact h.modMem.upd

theorem Res.Canon.execRefresh {die pc bank : Nat} (h : s.Canon) : Res.Canon (execRefresh die pc bank s) :=
  .upDo h (fun _ h => .ite h.modPch h)

theorem Res.Canon.execPatrolScrub {ls : Nat} {dec : Dec} (h : s.Canon) : Res.Canon (execPatrolScrub ls dec s) :=
  .upDo h (fun _ h => .ite h h.secRead.modMem)

theorem State.Canon.ceEnd {d : Nat} (h : s.Canon) : (s.ceEnd d).Canon :=
  .ite h.modMem.upd h.modMem

theorem Res.Canon.execCeWindowEnd {die : Nat} (h : s.Canon) : Res.Canon (execCeWindowEnd die s) :=
  .upDo h (fun _ h => .ite h.ceEnd h)

theorem Res.Canon.execMemCeWindowWrite {port : Port} {die : Nat} {val : BitVec 64} (h : s.Canon) :
    Res.Canon (execMemCeWindowWrite port die val s) :=
  .upDo h (fun _ h => .ite h.portDenied (.ite h.modMem.ceEnd h))

theorem Res.Canon.execMemCeThreshWrite {port : Port} {die : Nat} {val : BitVec 64} (h : s.Canon) :
    Res.Canon (execMemCeThreshWrite port die val s) :=
  .upDo h (fun _ h => .ite h.portDenied (.ite h.modMem.ceCheck h))

theorem State.Canon.applyDelta {x : Delta} (h : s.Canon) : (s.applyDelta x).Canon :=
  h.wrSec

theorem State.Canon.deltaArrive {ls n : Nat} {dec : Dec} (h : s.Canon) : (s.deltaArrive ls n dec).Canon := by
  unfold State.deltaArrive
  split
  · exact h
  · refine .ite h ?_
    refine .ite h ?_
    dsimp only
    split
    · exact h.modStack.modStack
    · split
      · exact h.modStack.applyDelta
      · exact h.modStack.ceRead.applyDelta
      · split
        · exact h.modStack.logErr.parityRebuild
        · exact h.modStack

theorem Res.Canon.execParityDelta {ls n : Nat} {dec : Dec} (h : s.Canon) : Res.Canon (execParityDelta ls n s dec) :=
  .upDo h (fun _ h => h.deltaArrive)

theorem Res.Canon.execRebuild {n : Nat} (h : s.Canon) : Res.Canon (execRebuild n s) :=
  .upDo h fun _ h => by
    split
    · exact h
    · split
      · exact h
      · exact .ite h h.upd.modStack.stripeReads

theorem Res.Canon.execStripeRead {n : Nat} {dec : Dec} (h : s.Canon) : Res.Canon (execStripeRead n dec s) :=
  .upDo h fun _ h => by
    split
    · exact h
    · exact .ite h (.upd (by split; exacts [.ite h h.ceRead, h]))

theorem State.Canon.lostData {ls off : Nat} (h : s.Canon) : (s.lostData ls off).Canon :=
  .ite h.ssuPoison h.ssuPoison.modMem.report.poisonEvent

theorem State.Canon.rebuildEnd {p : Nat} {r : RebuildTxn} {dec : Dec} (h : s.Canon) : (s.rebuildEnd p r dec).Canon := by
  unfold State.rebuildEnd
  dsimp only
  split
  · exact .recomputeParity (.foldl (.ite h.ceRead h) (fun _ _ h => h.lostData))
  · exact .ite (.foldl (.report (.modMem (.modStack (.wrSec (.ite h.ceRead h)))))
      (fun _ _ h => h.applyDelta)) (.recomputeParity (.foldl (.ite h.ceRead h) (fun _ _ h => h.lostData)))

end Sys2Proof.Machine
end

section
/-! PROOFS. Canonical memory: the operations of Machine/Compartments.lean keep it. -/

namespace Sys2Proof.Machine

variable {s t : State}

theorem State.Canon.coreReset {d i : Nat} (h : s.Canon) : (s.coreReset d i).Canon :=
  h.modCore.upd

theorem State.Canon.flushCmpt {c : Nat} (h : s.Canon) : (s.flushCmpt c).Canon :=
  h.foldl (fun _ _ h => h.foldl (fun _ _ h => h.flushCache))

theorem Res.Canon.execCmpFallowReq {port : Port} {val : BitVec 64} (h : s.Canon) :
    Res.Canon (execCmpFallowReq port val s) :=
  .upDo h (fun _ h => .ite h.portDenied (.ite h.fallowStart h))

theorem State.Canon.mgmtDo {session : Nat} {f : State → State} (h : s.Canon)
    (hf : ∀ t, t.Canon → (f t).Canon) : (s.mgmtDo session f).Canon := by
  unfold State.mgmtDo
  split
  · exact h
  · exact .ite (hf _ h) h.upd

theorem State.Canon.answerFrame {session op : Nat} {code : BitVec 16} {data : List Byte}
    (h : s.Canon) : (s.answerFrame session op code data).Canon :=
  h.emit

theorem Res.Canon.execFallow {session fn : Nat} (h : s.Canon) : Res.Canon (execFallow session fn s) :=
  .upDo h (fun _ h => h.mgmtDo (fun _ h => .ite h.draw.answerFrame h.fallowStart.answerFrame))

theorem Res.Canon.execPfFlr (h : s.Canon) : Res.Canon (execPfFlr s) :=
  .upDo h (fun _ h => (h.modCmpt.foldl (fun _ _ h => h.modStack)).upd)

theorem Res.Canon.execFallowDrained {fn : Nat} (h : s.Canon) : Res.Canon (execFallowDrained fn s) :=
  .upDo h (fun _ h => .ite h.flushCmpt.modCmpt h)

theorem Res.Canon.execFallowCachesClean {fn : Nat} (h : s.Canon) : Res.Canon (execFallowCachesClean fn s) :=
  .upDo h (fun _ h => .ite (.ite h.modCmpt.upd h.modCmpt) h)

theorem State.Canon.clearSealed (h : s.Canon) : s.clearSealed.Canon :=
  h.upd

theorem State.Canon.deactivate {c : Nat} (h : s.Canon) : (s.deactivate c).Canon :=
  .ite (.ite h.modCmpt h.modCmpt.clearSealed) h

theorem State.Canon.emptyCmpt {c : Nat} (h : s.Canon) : (s.emptyCmpt c).Canon := by
  unfold State.emptyCmpt
  exact ((((h.foldl (fun _ _ h => h.coreReset)).foldl (fun _ _ h => h.modStack)).upd).clearWins).modCmpt

theorem State.Canon.fallowEnd {c : Nat} (h : s.Canon) : (s.fallowEnd c).Canon :=
  (((((h.foldl (fun _ _ h => h.fallowWipe)).foldl (fun _ _ h => h.wipeRange)).emptyCmpt).deactivate).modCmpt).event

theorem Res.Canon.execFallowDone {fn : Nat} (h : s.Canon) : Res.Canon (execFallowDone fn s) :=
  .upDo h (fun _ h => .ite h.fallowEnd h)

end Sys2Proof.Machine
end

section
/-! PROOFS. Canonical memory: the operations of Machine/Spdm.lean keep it. -/

namespace Sys2Proof.Machine

variable {s t : State}

theorem State.Canon.spdmOk {mgmt : Bool} {l : List Byte} (h : s.Canon) : (s.spdmOk mgmt l).Canon :=
  h.upd.emit

theorem State.Canon.spdmErr {mgmt : Bool} {code : Nat} (h : s.Canon) : (s.spdmErr mgmt code).Canon :=
  h.emit

theorem Res.Canon.execGetVersion {mgmt : Bool} (h : s.Canon) : Res.Canon (execGetVersion mgmt s) :=
  .upDo h (fun _ h => h.upd.spdmOk)

theorem Res.Canon.execGetCapabilities {mgmt : Bool} (h : s.Canon) : Res.Canon (execGetCapabilities mgmt s) :=
  .upDo h (fun _ h => .ite h.spdmErr h.draw.upd.spdmOk)

theorem Res.Canon.execNegotiateAlgorithms {mgmt : Bool} {algs : BitVec 32} (h : s.Canon) :
    Res.Canon (execNegotiateAlgorithms mgmt algs s) :=
  .upDo h (fun _ h => .ite h.spdmErr (.ite h.spdmErr h.upd.spdmOk))

theorem State.Canon.negotiated {mgmt : Bool} {f : State → State} (h : s.Canon)
    (hf : ∀ t, t.Canon → (f t).Canon) : (s.negotiated mgmt f).Canon :=
  .ite h.spdmErr (hf _ h)

theorem Res.Canon.execGetDigests {mgmt : Bool} (h : s.Canon) : Res.Canon (execGetDigests mgmt s) :=
  .upDo h (fun _ h => h.negotiated (fun _ h => h.spdmOk))

theorem Res.Canon.execGetCertificate {mgmt : Bool} {slot off len : Nat} (h : s.Canon) :
    Res.Canon (execGetCertificate mgmt slot off len s) :=
  .upDo h (fun _ h => h.negotiated (fun _ h => .ite h.spdmErr h.spdmOk))

theorem Res.Canon.execChallenge {mgmt : Bool} {slot : Nat} {nonce : List Byte} (h : s.Canon) :
    Res.Canon (execChallenge mgmt slot nonce s) :=
  .upDo h (fun _ h => h.negotiated (fun _ h => .ite h.spdmErr h.spdmOk))

theorem State.Canon.lcLatch (h : s.Canon) : s.lcLatch.Canon :=
  h.upd

theorem Res.Canon.execGetMeasurements {mgmt : Bool} {index : Nat} {nonce : List Byte} (h : s.Canon) :
    Res.Canon (execGetMeasurements mgmt index nonce s) :=
  .upDo h (fun _ h => h.negotiated (fun _ h => by split; exacts [h.spdmErr, h.spdmOk]))

theorem Res.Canon.execKeyExchange {mgmt : Bool} {req : List Byte} (h : s.Canon) :
    Res.Canon (execKeyExchange mgmt req s) :=
  .upDo h (fun _ h => h.negotiated (fun _ h => .ite h.spdmErr h.draw.upd.spdmOk))

theorem Res.Canon.execFinish {mgmt : Bool} {session : Nat} {ok : Bool} (h : s.Canon) :
    Res.Canon (execFinish mgmt session ok s) :=
  .upDo h (fun _ h => .ite h.spdmErr (.ite h.upd.spdmErr h.upd.spdmOk))

theorem State.Canon.inSession {session : Nat} {f : State → Session → State} (h : s.Canon)
    (hf : ∀ t x, t.Canon → (f t x).Canon) :
    (s.inSession session f).Canon := by
  unfold State.inSession
  split
  · exact hf _ _ h
  · exact h.spdmErr

theorem Res.Canon.execHeartbeat {session : Nat} (h : s.Canon) : Res.Canon (execHeartbeat session s) :=
  .upDo h (fun _ h => h.inSession (fun _ _ h => h.spdmOk))

theorem Res.Canon.execKeyUpdate {session : Nat} (h : s.Canon) : Res.Canon (execKeyUpdate session s) :=
  .upDo h (fun _ h => h.inSession (fun _ _ h => h.spdmOk))

theorem Res.Canon.execEndSession {session : Nat} (h : s.Canon) : Res.Canon (execEndSession session s) :=
  .upDo h (fun _ h => h.inSession (fun _ _ h => h.upd.spdmOk))

theorem Res.Canon.execChunkSend {mgmt last : Bool} {data : List Byte} (h : s.Canon) :
    Res.Canon (execChunkSend mgmt last data s) :=
  .upDo h (fun _ h => h.upd.emit)

theorem Res.Canon.execChunkGet {mgmt : Bool} {len : Nat} (h : s.Canon) : Res.Canon (execChunkGet mgmt len s) :=
  .upDo h (fun _ h => .ite h.spdmErr h.upd.emit)

theorem Res.Canon.execIdeKm {session stream : Nat} (h : s.Canon) : Res.Canon (execIdeKm session stream s) :=
  .upDo h (fun _ h => h.inSession (fun _ _ h => .ite h.spdmErr h.upd.spdmOk))

theorem State.Canon.vault {x : Session} {code : Nat} {data : List Byte} (h : s.Canon) : (s.vault x code data).Canon :=
  h.spdmOk

theorem State.Canon.keyRelease {session : Nat} {msg : List Byte} (h : s.Canon) : (s.keyRelease session msg).Canon :=
  h.inSession (fun _ _ h => .ite h.upd (.ite h.vault h.modCmpt.activate.event.event.vault))

theorem Res.Canon.execKeyRelease {session : Nat} {msg : List Byte} (h : s.Canon) :
    Res.Canon (execKeyRelease session msg s) :=
  .upDo h (fun _ h => h.keyRelease)

theorem Res.Canon.execKeyErase {session : Nat} {msg : List Byte} (h : s.Canon) :
    Res.Canon (execKeyErase session msg s) :=
  .upDo h (fun _ h => h.inSession (fun _ _ h => .ite h.vault h.modCmpt.vault))

theorem State.Canon.releaseRound {j : Nat} {recipient : BitVec 384} (h : s.Canon) :
    (s.releaseRound j recipient).Canon :=
  h.draw.draw.modCmpt.upd.event.event

theorem Res.Canon.execApprove {session : Nat} {msg : List Byte} (h : s.Canon) : Res.Canon (execApprove session msg s) :=
  .upDo h (fun _ h => h.inSession (fun _ _ h => .ite h.vault (.vault (.ite h.upd.releaseRound h.upd))))

theorem Res.Canon.execApproveWithdraw {session : Nat} {msg : List Byte} (h : s.Canon) :
    Res.Canon (execApproveWithdraw session msg s) :=
  .upDo h (fun _ h => h.inSession (fun _ _ h => .ite h.vault h.upd.vault))

theorem Res.Canon.execReleaseFetch {session : Nat} {msg : List Byte} (h : s.Canon) :
    Res.Canon (execReleaseFetch session msg s) :=
  .upDo h (fun _ h => h.inSession (fun _ _ h => .ite h.vault (.ite h.vault h.draw.vault)))

theorem State.Canon.tdisp {ok : Bool} {l : List Byte} (h : s.Canon) : (s.tdisp ok l).Canon :=
  h.spdmOk

theorem Res.Canon.execGetTdispVersion {session fn : Nat} (h : s.Canon) : Res.Canon (execGetTdispVersion session fn s) :=
  .upDo h (fun _ h => h.inSession (fun _ _ h => .ite h.tdisp h.tdisp))

theorem Res.Canon.execGetTdispCapabilities {session fn : Nat} (h : s.Canon) :
    Res.Canon (execGetTdispCapabilities session fn s) :=
  .upDo h (fun _ h => h.inSession (fun _ _ h => .ite h.draw.tdisp h.tdisp))

theorem State.Canon.lockInterface {session fn stream : Nat} (h : s.Canon) : (s.lockInterface session fn stream).Canon :=
  h.inSession (fun _ _ h => .ite h.tdisp (.ite h.upd h.draw.modCmpt.activate.tdisp))

theorem Res.Canon.execLockInterfaceRequest {session fn stream : Nat} (h : s.Canon) :
    Res.Canon (execLockInterfaceRequest session fn stream s) :=
  .upDo h (fun _ h => h.lockInterface)

theorem Res.Canon.execStartInterfaceRequest {session fn : Nat} {nonce : BitVec 256} (h : s.Canon) :
    Res.Canon (execStartInterfaceRequest session fn nonce s) :=
  .upDo h (fun _ h => h.inSession (fun _ _ h => .ite h.modCmpt.tdisp h.tdisp))

theorem Res.Canon.execStopInterfaceRequest {session fn : Nat} (h : s.Canon) :
    Res.Canon (execStopInterfaceRequest session fn s) :=
  .upDo h (fun _ h => h.inSession (fun _ _ h => .ite h.tdisp
      (.ite h.tdisp (.tdisp (.ite (.modCmpt (.ite h.modCmpt.tdiFallow h.modCmpt))
      (.modCmpt (.ite h.modCmpt.tdiFallow h.modCmpt)))))))

theorem State.Canon.heldMsg {h : Held} (hs : s.Canon) : (s.heldMsg h).Canon := by
  unfold State.heldMsg
  split
  · exact hs.keyRelease
  · exact hs.lockInterface
  · exact hs

theorem State.Canon.releaseHeld (h : s.Canon) : s.releaseHeld.Canon :=
  (h.upd.foldl (fun _ _ h => h.heldMsg)).foldl (fun _ _ h => h.releaseWrites)

end Sys2Proof.Machine
end

section
/-! PROOFS. Canonical memory: the operations of Machine/Bedplan.lean keep it. -/

namespace Sys2Proof.Machine

variable {s t : State}

theorem State.Canon.bedRefuse {e : PlanErr} {j : LoadJob} (h : s.Canon) : (s.bedRefuse e j).Canon :=
  .ite h.upd.event.answerFrame h.upd.event

theorem State.Canon.installCmpt {p : List PlanRec} {only : Option (List Nat)} {c : Nat}
    (h : s.Canon) : (s.installCmpt p only c).Canon :=
  .ite h (.modCmpt (.ite h.clearWins h))

theorem State.Canon.emptyNew {cs : List Nat} (h : s.Canon) : (s.emptyNew cs).Canon :=
  h.foldl (fun _ _ h => .ite h ((h.foldl (fun _ _ h => h.wipeRange)).emptyCmpt))

theorem State.Canon.installQos {p : List PlanRec} {die : Nat} {now : Bool} (h : s.Canon) :
    (s.installQos p die now).Canon :=
  .foldl (.ite h h.modMem) (fun _ _ h => h.modMaster)

theorem State.Canon.installDeadlines {p : List PlanRec} {die : Nat} (h : s.Canon) : (s.installDeadlines p die).Canon :=
  h.upd.foldl (fun _ _ h => h.upd)

theorem State.Canon.installAllot {p : List PlanRec} {die : Nat} (h : s.Canon) : (s.installAllot p die).Canon :=
  h.foldl (fun _ _ h => .ite h h.modStack)

theorem State.Canon.installClasses {p : List PlanRec} (h : s.Canon) : (s.installClasses p).Canon :=
  h.upd

theorem State.Canon.installFixed {p : List PlanRec} (h : s.Canon) : (s.installFixed p).Canon :=
  (((h.foldl (fun _ _ h => by split; exacts [h.modStack, h])).foldl
      (fun _ _ h => by split; exacts [h, h.modRouter])).foldl
      (fun _ _ h => by split; exacts [h.modSite, .ite h.modSite h])).upd

theorem State.Canon.installPlan {p : List PlanRec} (h : s.Canon) : (s.installPlan p).Canon :=
  ((h.installFixed.installClasses.foldl (fun _ _ h => h.installCmpt)).foldl
      (fun _ _ h => h.installQos.installDeadlines.installAllot)).emptyNew

theorem State.Canon.bedStart {j : LoadJob} (h : s.Canon) : (s.bedStart j).Canon :=
  .ite h.bedRefuse h.upd

theorem Res.Canon.execBedLoadCmd {port : Port} {val : BitVec 64} (h : s.Canon) :
    Res.Canon (execBedLoadCmd port val s) :=
  .upDo h (fun _ h => .ite h.portDenied (.ite h h.bedStart))

theorem Res.Canon.execBedLoad {session : Nat} {persist : Bool} {image : List Byte} (h : s.Canon) :
    Res.Canon (execBedLoad session persist image s) :=
  .upDo h (fun _ h => h.mgmtDo (fun _ h => .ite h.bedStart h.upd.bedStart))

theorem Res.Canon.execBedCheckComplete (h : s.Canon) : Res.Canon (execBedCheckComplete s) :=
  .upDo h fun _ h => by
    split
    · exact h
    · refine .ite h ?_
      split
      · exact h.upd.bedRefuse.releaseHeld
      · exact .ite (h.upd.upd.foldl (fun _ _ h => h.fallowStart)) h.upd.upd

theorem State.Canon.fullInForce {l : List Byte} (h : s.Canon) : (s.fullInForce l).Canon :=
  h.installPlan.linksReturn.redist.upd

theorem State.Canon.amendInForce {l : List Byte} (h : s.Canon) : (s.amendInForce l).Canon :=
  h.upd

theorem State.Canon.loadEnds {j : LoadJob} {answer : Bool} (h : s.Canon) : (s.loadEnds j answer).Canon := by
  unfold State.loadEnds
  exact .releaseHeld (.ite h.upd.answerFrame h.upd)

theorem Res.Canon.execBedAccepted (h : s.Canon) : Res.Canon (execBedAccepted s) :=
  .upDo h fun _ h => by
    split
    · exact h
    · exact .ite h (.loadEnds (.event (.ite h.fullInForce.upd h.fullInForce)))

theorem Res.Canon.execEpochQuiesce (h : s.Canon) : Res.Canon (execEpochQuiesce s) :=
  .upDo h fun _ h => by
    split
    · exact h
    · exact .ite h ((h.upd.foldl (fun _ _ h => h.fallowStart)).foldl (fun _ _ h => h.unmapStart))

theorem Res.Canon.execBedEpochTimeout (h : s.Canon) : Res.Canon (execBedEpochTimeout s) :=
  .upDo h fun _ h => by
    split
    · exact h
    · exact .ite h h.upd.bedRefuse.releaseHeld

theorem State.Canon.epochInstall {p : List PlanRec} {j : LoadJob} {die : Nat} (h : s.Canon) :
    (s.epochInstall p j die).Canon :=
  .installAllot (.installDeadlines (.installQos (.ite ((h.installClasses.foldl
      (fun _ _ h => h.installCmpt)).emptyNew) h)))

theorem Res.Canon.execEpoch {die : Nat} (h : s.Canon) : Res.Canon (execEpoch die s) :=
  .upDo h fun _ h => by
    split
    · exact h
    · exact .ite h h.epochInstall.upd

theorem Res.Canon.execEpochDone (h : s.Canon) : Res.Canon (execEpochDone s) :=
  .upDo h fun _ h => by
    split
    · exact h
    · exact .ite h ((h.amendInForce.upd.foldl (fun _ _ h => h.event)).loadEnds)

theorem State.Canon.bedBootImage {l : List Byte} (h : s.Canon) : (s.bedBootImage l).Canon := by
  unfold State.bedBootImage
  split
  · exact h.bedRefuse
  · exact .upd (.ite h.fullInForce h.installPlan.amendInForce)

theorem State.Canon.bedBoot (h : s.Canon) : s.bedBoot.Canon :=
  h.foldl (fun _ _ h => h.bedBootImage)

end Sys2Proof.Machine
end

section
/-! PROOFS. Canonical memory: the operations of Machine/HostLink.lean keep it. -/

namespace Sys2Proof.Machine

variable {s t : State}

theorem State.Canon.measure {b cls size : Nat} {conf : Bool} {c cycles : Nat} (h : s.Canon) :
    (s.measure b cls size conf c cycles).Canon :=
  .ite h (.ite h.upd (.ite h (.ite h.upd.event h.upd.event.event)))

theorem State.Canon.dropRead {r : HostRead} (h : s.Canon) : (s.dropRead r).Canon :=
  h.upd

theorem State.Canon.readFailed {r : HostRead} {code : Nat} (h : s.Canon) : (s.readFailed r code).Canon :=
  .ite h.dropRead.pageInFail h.dropRead.ringWrite.event

theorem State.Canon.pageData {r : HostRead} {data : List Byte} {ep : Bool} (h : s.Canon) :
    (s.pageData r data ep).Canon := by
  unfold State.pageData
  split
  · exact .pageAsk (.modCmpt (.ite (h.foldl (fun _ _ h => h.ssuPoison)) h.ssuWr))
  · exact h

theorem State.Canon.fetchData {r : HostRead} {data : List Byte} {ep : Bool} (h : s.Canon) :
    (s.fetchData r data ep).Canon := by
  unfold State.fetchData
  exact h.modRing

theorem Res.Canon.execHostCompletion {fn tag status : Nat} {data : List Byte} {ep : Bool} (h : s.Canon) :
    Res.Canon (execHostCompletion fn tag status data ep s) :=
  .upDo h fun _ h => by
    split
    · exact .ite h.upd h.aerLog
    · exact .ite h.readFailed (.ite h (.ite (.pageData (.ite h.dropRead.aerLog h.dropRead))
        (.fetchData (.ite h.dropRead.aerLog h.dropRead))))

theorem Res.Canon.execCompletionTimeout {tag age : Nat} (h : s.Canon) : Res.Canon (execCompletionTimeout tag age s) :=
  .upDo h fun _ h => by
    refine .ite h ?_
    split
    · exact h.upd.readFailed.aerLog
    · exact .ite h.upd h

theorem Res.Canon.execSurpriseDown (h : s.Canon) : Res.Canon (execSurpriseDown s) :=
  .upDo h (fun _ h => h.aerLog)

theorem Res.Canon.execIdeCheckFailed {stream : Nat} (h : s.Canon) : Res.Canon (execIdeCheckFailed stream s) :=
  .upDo h (fun _ h => .ite h (h.upd.aerLog.foldl (fun _ _ h => h.tdiFallow)))

end Sys2Proof.Machine
end

section
/-! PROOFS. Canonical memory: the operations of Machine/Storage.lean keep it. -/

namespace Sys2Proof.Machine

variable {s t : State}

theorem State.Canon.dropNvme {fn k index : Nat} (h : s.Canon) : (s.dropNvme fn k index).Canon :=
  h.upd

theorem State.Canon.stoEnd {fn k index : Nat} {code : BitVec 16} {detail : Nat} (h : s.Canon) :
    (s.stoEnd fn k index code detail).Canon :=
  h.dropNvme.modDesc

theorem State.Canon.driveReq {d : Desc} {kind byte n : Nat} {data : List Byte} (h : s.Canon) :
    (s.driveReq d kind byte n data).Canon :=
  h.emit

theorem State.Canon.addNvme {x : NvmeCmd} (h : s.Canon) : (s.addNvme x).Canon :=
  h.upd

theorem State.Canon.readNext {fn k : Nat} {d : Desc} (h : s.Canon) (ht : s.readNext fn k d = some t) : t.Canon := by
  unfold State.readNext at ht
  dsimp only at ht
  split at ht
  · exact nomatch ht
  · obtain rfl := Option.some.inj ht
    exact .addNvme (.driveReq (.ite h h.driveReq))

theorem State.Canon.readIssue {fuel : Nat} {a a' : Nat} {b : Desc} (h : s.Canon) :
    (State.readIssue fuel s a a' b).Canon := by
  induction fuel generalizing s with
  | zero => exact h
  | succ fuel ih =>
    unfold State.readIssue
    split
    next s ht => exact ih (h.readNext ht)
    next => exact h

theorem State.Canon.writeBlock {fn : Nat} {d : Desc} {j : Nat} {l : List Byte} (h : s.Canon) :
    (s.writeBlock fn d j l).1.Canon :=
  h.offer.writePieces

theorem State.Canon.takeBlocks {fuel : Nat} {a a' a'' a''' : Nat} {v v' : List Byte} (h : s.Canon) :
    (State.takeBlocks fuel s a a' a'' a''' v v').Canon := by
  induction fuel generalizing s v v' with
  | zero => exact h
  | succ fuel ih =>
    unfold State.takeBlocks
    split
    · exact h
    · dsimp only
      split
      · exact h.upd.upd.stoEnd
      · exact ih h.upd.writeBlock.modDesc

theorem State.Canon.readGo {fuel : Nat} {a a' a'' : Nat} (h : s.Canon) : (State.readGo fuel s a a' a'').Canon := by
  induction fuel generalizing s with
  | zero => exact h
  | succ fuel ih =>
    unfold State.readGo
    split
    · exact h
    · refine .ite h.stoEnd ?_
      refine .ite h.stoEnd ?_
      split
      · exact h.readIssue
      · exact .ite h.stoEnd (ih h.upd.takeBlocks)

theorem Res.Canon.execStorageRead {fn k index : Nat} (h : s.Canon) : Res.Canon (execStorageRead fn k index s) :=
  .upDo h fun _ h => by
    split
    · exact .ite h.readGo h
    · exact h

theorem State.Canon.sealBlock {fn : Nat} {d : Desc} {b : Nat} {l : List Byte} (h : s.Canon) :
    (s.sealBlock fn d b l).1.Canon := by
  unfold State.sealBlock
  split
  · exact h
  · dsimp only
    exact h.modCmpt

theorem State.Canon.sealBlocks {fuel : Nat} {a : Nat} {b : Desc} {a' : Nat} (h : s.Canon) :
    (State.sealBlocks fuel s a b a').1.Canon := by
  induction fuel generalizing s a' with
  | zero => exact h
  | succ fuel ih => exact ih h.offer.readPieces.sealBlock

theorem State.Canon.writeOut {fn k : Nat} {d : Desc} {e byte first : Nat} {tag : Bool} {l : List Byte} (h : s.Canon) :
    (s.writeOut fn k d e byte first tag l).Canon :=
  h.foldl (fun _ _ h => h.driveReq.addNvme)

theorem State.Canon.storageWrite {fn k : Nat} {d : Desc} (h : s.Canon) : (s.storageWrite fn k d).Canon :=
  .ite h.stoEnd (.ite h.stoEnd (.ite h.readGate h.readGate.sealBlocks.modDesc.upd.writeOut.writeOut))

theorem Res.Canon.execStorageWrite {fn k index : Nat} (h : s.Canon) : Res.Canon (execStorageWrite fn k index s) :=
  .upDo h fun _ h => by
    split
    · exact .ite h.storageWrite h
    · exact h

theorem Res.Canon.execStorageFlush {fn k index : Nat} (h : s.Canon) : Res.Canon (execStorageFlush fn k index s) :=
  .upDo h fun _ h => by
    split
    · exact .ite h.emit.addNvme h
    · exact h

theorem State.Canon.nvmeDone {n : Nat} {x : NvmeCmd} {status : Nat} {data tags : List Byte} (h : s.Canon) :
    (s.nvmeDone n x status data tags).Canon := by
  unfold State.nvmeDone
  split
  · exact h.upd
  · exact .ite h.upd.readGo (.ite h.stoEnd (.ite h.upd h.upd.stoEnd))

theorem Res.Canon.execNvmeCompletion {n status : Nat} {data tags : List Byte} {late : Nat} (h : s.Canon) :
    Res.Canon (execNvmeCompletion n status data tags late s) :=
  .upDo h fun _ h => by
    split
    · exact h
    · exact .ite h h.measure.nvmeDone

theorem Res.Canon.execNvmeTimeout {n age : Nat} (h : s.Canon) : Res.Canon (execNvmeTimeout n age s) :=
  .upDo h fun _ h => by
    split
    · exact h
    · refine .ite h ?_
      split
      · exact h.upd
      · exact h.stoEnd

theorem State.Canon.driveDown {d : Nat} (h : s.Canon) : (s.driveDown d).Canon :=
  h.foldl (fun _ _ h => h.foldl (fun _ _ h => h.foldl (fun _ _ h => .ite h.stoEnd h)))

theorem Res.Canon.execDriveInsertion {d rate width : Nat} {good : Bool} {ns : List NsInfo} (h : s.Canon) :
    Res.Canon (execDriveInsertion d rate width good ns s) :=
  .upDo h fun _ h => by
    split
    · exact h
    · exact .ite h (.ite h.modDrive h.modDrive.event)

theorem Res.Canon.execDriveRemoval {d : Nat} (h : s.Canon) : Res.Canon (execDriveRemoval d s) :=
  .upDo h (fun _ h => .ite h h.driveDown.modDrive.event)

theorem Res.Canon.execDriveDmaRequest {d : Nat} {write : Bool} {addr : Nat} {bytes : List Byte}
    {len : Nat} (h : s.Canon) :
    Res.Canon (execDriveDmaRequest d write addr bytes len s) :=
  .upDo h (fun _ h => .ite h (.ite (.ite h.upd h.emit) (.ite (.ite h.modDrive h.emit)
      h.emit.upd.driveDown.modDrive.event)))

theorem State.Canon.stoNsWrite {k : Nat} {val : BitVec 64} (h : s.Canon) : (s.stoNsWrite k val).Canon :=
  .ite h h.upd

theorem Res.Canon.execStoNsWrite {port : Port} {k : Nat} {val : BitVec 64} (h : s.Canon) :
    Res.Canon (execStoNsWrite port k val s) :=
  .upDo h (fun _ h => .ite h.portDenied h.stoNsWrite)

end Sys2Proof.Machine
end

section
/-! PROOFS. Canonical memory: the operations of Machine/Fabric.lean keep it. -/

namespace Sys2Proof.Machine

variable {s t : State}

theorem State.Canon.reportsNow {l : List Report} (h : s.Canon) : (s.reportsNow l).Canon :=
  .upd (.foldl (.ite h.event h) (fun _ _ h => h.event))

theorem State.Canon.flood (h : s.Canon) : s.flood.Canon :=
  h.upd.reportsNow.foldl (fun _ _ h' => h'.emit)

theorem State.Canon.recompute (h : s.Canon) : s.recompute.Canon :=
  .ite h.upd.event h.upd

theorem State.Canon.forward {k : FabPkt} (h : s.Canon) : (s.forward k).Canon := by
  unfold State.forward
  refine .ite ?_ ?_
  · split
    · exact h.egressPut.modFport
    · exact h
  · split
    · exact h.egressPut.modFport
    · exact h.modFport

theorem State.Canon.forwardAll (h : s.Canon) : s.forwardAll.Canon :=
  h.foldl (fun _ _ h => h.modFport.foldl (fun _ _ h => h.forward))

theorem State.Canon.unroute {p : Nat} (h : s.Canon) : (s.unroute p).Canon :=
  h.upd

theorem State.Canon.portTo {p : Nat} {st : FabSt} {f : FabPort → FabPort} (h : s.Canon) : (s.portTo p st f).Canon :=
  .ite h.modFport h.modFport.flood

theorem State.Canon.portDown {p : Nat} {st : FabSt} (h : s.Canon) : (s.portDown p st).Canon :=
  .ite (((h.modFport.unroute.foldl (fun _ _ h => h.forward)).event).flood) h.portTo

theorem State.Canon.train {p : Nat} (h : s.Canon) : (s.train p).Canon :=
  h.portDown.modFport

theorem State.Canon.sendFlit {p typ : Nat} {l : List Byte} (h : s.Canon) : (s.sendFlit p typ l).Canon :=
  h.modFport.emit

theorem State.Canon.sendFlits {p typ : Nat} {l : List Byte} (h : s.Canon) : (s.sendFlits p typ l).Canon :=
  h.foldl (fun _ _ h => h.sendFlit)

theorem State.Canon.sendEvidence {p : Nat} (h : s.Canon) : (s.sendEvidence p).Canon :=
  h.draw.draw.sendFlits

theorem Res.Canon.execPortEnable {p : Nat} (h : s.Canon) : Res.Canon (execPortEnable p s) :=
  .upDo h (fun _ h => .ite h.train h)

theorem Res.Canon.execPortDisable {p : Nat} (h : s.Canon) : Res.Canon (execPortDisable p s) :=
  .upDo h (fun _ h => .ite h.portDown h)

theorem Res.Canon.execLanesLocked {p rate : Nat} {nbr : BitVec 16} {nbrPort version : Nat} (h : s.Canon) :
    Res.Canon (execLanesLocked p rate nbr nbrPort version s) :=
  .upDo h (fun _ h => .ite h.portTo.sendEvidence h)

theorem Res.Canon.execTrainingLockTimeout {p : Nat} (h : s.Canon) : Res.Canon (execTrainingLockTimeout p s) :=
  .upDo h (fun _ h => .ite h.train h)

theorem State.Canon.keyLink {p : Nat} (h : s.Canon) : (s.keyLink p).Canon := by
  unfold State.keyLink
  exact h.draw.modFport

theorem Res.Canon.execAttestResult {p : Nat} {ok : Bool} {version : Nat} (h : s.Canon) :
    Res.Canon (execAttestResult p ok version s) :=
  .upDo h (fun _ h => .ite h (.ite h.portTo.event (.ite h.portTo.event h.keyLink.portTo)))

theorem Res.Canon.execRefusedRetry {p : Nat} (h : s.Canon) : Res.Canon (execRefusedRetry p s) :=
  .upDo h (fun _ h => .ite h.train h)

theorem Res.Canon.execFabPortRetrain {port : Port} {p : Nat} {val : BitVec 64} (h : s.Canon) :
    Res.Canon (execFabPortRetrain port p val s) :=
  .upDo h (fun _ h => .ite h.portDenied (.ite h.train h))

theorem Res.Canon.execPortLinkLoss {p : Nat} (h : s.Canon) : Res.Canon (execPortLinkLoss p s) :=
  .upDo h (fun _ h => .ite h.portDown h)

theorem State.Canon.linkAck {p : Nat} {ack : BitVec 24} {nak : Bool} (h : s.Canon) : (s.linkAck p ack nak).Canon :=
  .ite (.ite (((h.modFport.foldl (fun _ _ h => h.emit)).modFport).portDown)
      ((h.modFport.foldl (fun _ _ h => h.emit)).modFport)) h.modFport

theorem State.Canon.linkAnswer {p kind : Nat} (h : s.Canon) : (s.linkAnswer p kind).Canon :=
  h.emit

theorem Res.Canon.execLinkFlit {p : Nat} {seq : BitVec 24} {ok tag : Bool} {ack : BitVec 24}
    {nak : Bool} (h : s.Canon) :
    Res.Canon (execLinkFlit p seq ok tag ack nak s) :=
  .upDo h (fun _ h => .ite h (.ite h.modFport.linkAnswer
      (.ite (.ite h.modFport.linkAnswer.portDown h.modFport.linkAnswer)
      (.linkAck (.ite h.modFport.linkAnswer h)))))

theorem Res.Canon.execLinkKeyRollover {p : Nat} (h : s.Canon) : Res.Canon (execLinkKeyRollover p s) :=
  .upDo h (fun _ h => .ite h h.draw.sendFlits.modFport)

theorem Res.Canon.execTagWindow {p : Nat} (h : s.Canon) : Res.Canon (execTagWindow p s) :=
  .upDo h (fun _ h => h.modFport)

theorem Res.Canon.execFabricLinkSend {p : Nat} {waits : List Nat} (h : s.Canon) :
    Res.Canon (execFabricLinkSend p waits s) :=
  .upDo h fun _ h => by
    refine .ite h ?_
    split
    · exact h
    · split
      · exact h
      · exact .ite h h.modFport.sendFlits

theorem Res.Canon.execAdj {p : Nat} {report : AdjReport} (h : s.Canon) : Res.Canon (execAdj p report s) :=
  .upDo h (fun _ h => .ite h (.ite h ((h.reportsNow.foldl (fun _ _ h => h.emit)).foldl (fun _ _ h => h.modFport))))

theorem Res.Canon.execAdjFloodTimer (h : s.Canon) : Res.Canon (execAdjFloodTimer s) :=
  .upDo h (fun _ h => .ite h.flood h)

theorem Res.Canon.execAdjReportExpiry {id : BitVec 16} (h : s.Canon) : Res.Canon (execAdjReportExpiry id s) :=
  .upDo h (fun _ h => h.reportsNow)

theorem Res.Canon.execRouteRecompute (h : s.Canon) : Res.Canon (execRouteRecompute s) :=
  .upDo h (fun _ h => .ite h.recompute.forwardAll h)

theorem Res.Canon.execRouteTransitionEnd (h : s.Canon) : Res.Canon (execRouteTransitionEnd s) :=
  .upDo h (fun _ h => .ite h.upd h)

theorem State.Canon.fabDrop (h : s.Canon) : s.fabDrop.Canon :=
  h.upd

theorem Res.Canon.execFabricTransit {p : Nat} {pkt : FabPkt} (h : s.Canon) : Res.Canon (execFabricTransit p pkt s) :=
  .upDo h (fun _ h => .ite h (.ite h.fabDrop h.forward))

theorem Res.Canon.execTransitWaitExpiry {p n : Nat} (h : s.Canon) : Res.Canon (execTransitWaitExpiry p n s) :=
  .upDo h (fun _ h => .ite h (.ite h.modFport.fabDrop (.ite h.modFport.fabDrop h)))

theorem State.Canon.tackSend {p : Nat} {k : FabPkt} (h : s.Canon) : (s.tackSend p k).Canon :=
  h.fabSend

theorem State.Canon.reopen {peer : Nat} {inc : BitVec 32} (h : s.Canon) : (s.reopen peer inc).Canon :=
  h.modConn.foldl (fun _ _ h => h.outcome)

theorem State.Canon.meetInc {k : FabPkt} (h : s.Canon) : (s.meetInc k).Canon :=
  .ite h (.ite h.modConn h.reopen)

theorem State.Canon.takeReq {p op : Nat} {k : FabPkt} {f : State → FabPkt → State} (h : s.Canon)
    (hf : ∀ t x, t.Canon → (f t x).Canon) :
    (s.takeReq p op k f).Canon :=
  .ite h (.ite h.reply (.ite h.meetInc (.ite h.meetInc.tackSend
      (.connFlush (.ite h.meetInc.modConn.tackSend (.ite
      (.reply (.ite h.meetInc.modConn.tackSend.upd h.meetInc.modConn.tackSend))
      (hf _ _ h.meetInc.modConn.tackSend)))))))

theorem State.Canon.measureReq {p : Nat} {k : FabPkt} {late : Nat} (h : s.Canon) : (s.measureReq p k late).Canon :=
  h.measure

theorem Res.Canon.execGet {p : Nat} {pkt : FabPkt} {late : Nat} (h : s.Canon) : Res.Canon (execGet p pkt late s) :=
  .upDo h (fun _ h => h.takeReq (fun _ _ h => h.measureReq.remoteMem))

theorem Res.Canon.execPut {p : Nat} {pkt : FabPkt} {late : Nat} (h : s.Canon) : Res.Canon (execPut p pkt late s) :=
  .upDo h (fun _ h => h.takeReq (fun _ _ h => h.measureReq.remoteMem))

theorem Res.Canon.execRemotePost {p : Nat} {pkt : FabPkt} (h : s.Canon) : Res.Canon (execRemotePost p pkt s) :=
  .upDo h (fun _ h => h.takeReq (fun _ _ h => h.keepReq))

theorem Res.Canon.execBatch {p : Nat} {pkt : FabPkt} (h : s.Canon) : Res.Canon (execBatch p pkt s) :=
  .upDo h (fun _ h => h.takeReq (fun _ _ h => .ite h.keepReq h.reply))

theorem State.Canon.handOver {peer : Nat} {x : BitVec 128} {l : List FabPkt} (h : s.Canon) :
    (s.handOver peer x l).Canon := by
  unfold State.handOver
  dsimp only
  split
  · exact h
  · split
    · exact h.remoteOutcome
    · exact .ite h.remoteOutcome h.modStack

theorem Res.Canon.execContrib {p : Nat} {pkt : FabPkt} (h : s.Canon) : Res.Canon (execContrib p pkt s) :=
  .upDo h (fun _ h => h.takeReq (fun _ _ h => .ite h.modConn.handOver h.modConn))

theorem Res.Canon.execTack {peer : Nat} {cum seq : BitVec 32} (h : s.Canon) : Res.Canon (execTack peer cum seq s) :=
  .upDo h (fun _ h => h.modConn)

theorem State.Canon.dirtyPhys {c : Nat} {l : List (Nat × Nat)} (h : s.Canon) : (s.dirtyPhys c l).Canon := by
  unfold State.dirtyPhys
  split
  · exact h
  · exact h.modCmpt

theorem Res.Canon.execRemoteResponse {peer : Nat} {pkt : FabPkt} (h : s.Canon) :
    Res.Canon (execRemoteResponse peer pkt s) :=
  .upDo h fun _ h => by
    refine .ite h ?_
    dsimp only
    split
    · exact h.meetInc
    · exact .ite ((h.meetInc.modConn.writePieces.dirtyPhys.foldl
        (fun _ _ h => .ite h.pushHint h)).outcome) h.meetInc.modConn.outcome

theorem Res.Canon.execTransportRetransmit {peer : Nat} {seq : BitVec 32} {age : Nat} (h : s.Canon) :
    Res.Canon (execTransportRetransmit peer seq age s) :=
  .upDo h fun _ h => by
    split
    · exact h
    · exact .ite h h.modConn.upd.fabSend

theorem Res.Canon.execDeliveryTimeout {peer : Nat} {seq : BitVec 32} {age : Nat} (h : s.Canon) :
    Res.Canon (execDeliveryTimeout peer seq age s) :=
  .upDo h fun _ h => by
    refine .ite h ?_
    split
    · exact h.modConn.outcome
    · split
      · exact h.modConn.connFlush
      · exact h

theorem Res.Canon.execRemoteMarkExpiry {peer rank : Nat} (h : s.Canon) : Res.Canon (execRemoteMarkExpiry peer rank s) :=
  .upDo h (fun _ h => h.modConn)

theorem State.Canon.relink (h : s.Canon) : s.relink.Canon :=
  h.foldl (fun _ _ h => h.modFport.sendFlits)

theorem Res.Canon.execVersionDowngrade {version : BitVec 16} (h : s.Canon) :
    Res.Canon (execVersionDowngrade version s) :=
  .upDo h (fun _ h => .ite h (.ite h.upd.flood.relink (.ite h.upd h)))

end Sys2Proof.Machine
end

section
/-! PROOFS. Canonical memory: the operations of Machine/Graft.lean keep it. -/

namespace Sys2Proof.Machine

variable {s t : State}

theorem State.Canon.accFail {k reason : Nat} (h : s.Canon) : (s.accFail k reason).Canon :=
  h.fenceSite

theorem State.Canon.accLinks {k : Nat} {proto : BitVec 4} {rate hub : Nat} {tiles : List (Nat × Nat)} (h : s.Canon) :
    (s.accLinks k proto rate hub tiles).Canon :=
  .foldl (.ite h.modSite (.ite h.modSite.fenceLink h.modSite.modLinks))
      (fun _ _ h => .ite h (.ite h.fenceLink h.modLinks))

theorem State.Canon.accStep {k step : Nat} {i : ChipInfo} (h : s.Canon) : (s.accStep k step i).Canon := by
  unfold State.accStep
  dsimp only
  split
  · exact .ite h.modSite.modSite h.modSite.modSite
  · exact .ite h.modSite h.accFail
  · split
    · exact h.accFail
    · split
      · exact .ite h.accFail h.accLinks
      · exact .ite h.modSite.accFail (.ite h.modSite.accFail (.ite h.modSite.accFail h.modSite.modSite))
      · exact .ite h.modSite (.ite h.modSite.accFail h.modSite.modSite)
      · exact h.modSite.setInv.event

theorem Res.Canon.execAccession {site step : Nat} {info : ChipInfo} (h : s.Canon) :
    Res.Canon (execAccession site step info s) :=
  .next (.ite h (.ite (.ite h.accStep h) (.ite h.accStep h)))

theorem Res.Canon.execAccessionTimeout {site : Nat} (h : s.Canon) : Res.Canon (execAccessionTimeout site s) :=
  .next (.ite h.fenceSite h)

theorem Res.Canon.execGateOffer {site cls urg gap : Nat} (h : s.Canon) : Res.Canon (execGateOffer site cls urg gap s) :=
  .upDo h fun _ h => by
    dsimp only
    split
    · exact h
    · exact .ite h.modMaster.modMaster.modSite.emit h.modMaster

theorem State.Canon.slotEnd {k cls : Nat} (h : s.Canon) : (s.slotEnd k cls).Canon :=
  h.modMaster

theorem Res.Canon.execSlotReturn {site n : Nat} (h : s.Canon) : Res.Canon (execSlotReturn site n s) :=
  .upDo h fun _ h => by
    split
    · exact h.modSite.slotEnd
    · exact h

theorem State.Canon.gateRefuse {k : Nat} {p : ChipPkt} {code : BitVec 16} (h : s.Canon) :
    (s.gateRefuse k p code).Canon := by
  unfold State.gateRefuse
  dsimp only
  split <;> exact .emit (.slotEnd (.ite h.modSite.upd h.modSite))

theorem State.Canon.chipRequest {k c ln : Nat} {kind : CohKind} {p : ChipPkt} (h : s.Canon) :
    (s.chipRequest k c ln kind p).Canon :=
  h.modSite.send

theorem State.Canon.chipEvict {k ln : Nat} {dirty : Bool} {p : ChipPkt} (h : s.Canon) :
    (s.chipEvict k ln dirty p).Canon :=
  .ite (.ite h.setLine.evict.modSite h.setLine.evict.slotEnd) h.setLine.slotEnd

theorem State.Canon.chipDo {k c a : Nat} {p : ChipPkt} (h : s.Canon) : (s.chipDo k c a p).Canon := by
  unfold State.chipDo
  dsimp only
  split
  · exact h.chipRequest
  · exact h.chipRequest
  · exact h.chipRequest
  · exact h.chipRequest
  · exact h.chipRequest
  · exact h.chipEvict
  · exact h.chipEvict
  · exact h.settle.slotEnd.emit
  · exact h.slotEnd

theorem State.Canon.chipPost {k : Nat} {w : BitVec 128} {p : ChipPkt} (h : s.Canon) : (s.chipPost k w p).Canon :=
  .ite h.gateRefuse (.ite h.gateRefuse (.ite h.gateRefuse (.ite h.gateRefuse h.slotEnd.sendPost)))

theorem Res.Canon.execGatePacket {site : Nat} {pkt : ChipPkt} {late : Nat} (h : s.Canon) :
    Res.Canon (execGatePacket site pkt late s) :=
  .upDo h fun _ h => by
    refine .ite h ?_
    refine .ite h.emit ?_
    refine .ite h.fenceSite ?_
    split
    · exact h.fenceSite
    · exact .ite h.modSite.gateRefuse.fenceSite (.ite h.modSite.chipPost
        (.ite ((h.modSite.foldl (fun _ _ h => h.evict)).slotEnd)
        (.ite h.modSite.gateRefuse h.modSite.measure.chipDo)))

theorem State.Canon.siteRequest {k : Nat} {write : Bool} {addr len : Nat} {data : List Byte}
    {host : Bool} (h : s.Canon) :
    (s.siteRequest k write addr len data host).Canon :=
  .ite h.nextSerial.siteEnd (.ite h.nextSerial.siteEnd (.ite h.nextSerial.siteEnd h.nextSerial.modSite.emit))

theorem Res.Canon.execSiteWindowRequest {site : Nat} {write : Bool} {addr len : Nat}
    {data : List Byte} {host : Bool} (h : s.Canon) :
    Res.Canon (execSiteWindowRequest site write addr len data host s) :=
  .upDo h (fun _ h => .ite h.siteRequest h)

theorem State.Canon.snpAnswer {k : Nat} {q : SiteSnoop} {h : Nat} {data : List Byte} {ok : Bool}
    (hs : s.Canon) : (s.snpAnswer k q h data ok).Canon :=
  .ite hs.modSite.snoopAnswer hs.modSite

theorem Res.Canon.execChipletAnswer {site id : Nat} {data : List Byte} {ok : Bool} (h : s.Canon) :
    Res.Canon (execChipletAnswer site id data ok s) :=
  .upDo h fun _ h => by
    split
    · exact h.snpAnswer
    · exact h
    · exact .ite (.ite h.modSite h.modSite.emit) h.modSite.emit

theorem Res.Canon.execGraftTimeout {site id age : Nat} (h : s.Canon) : Res.Canon (execGraftTimeout site id age s) :=
  .upDo h fun _ h => by
    split
    · exact h
    · exact .ite h h.modSite.siteEnd

theorem Res.Canon.execSinkLimitMiss {site : Nat} (h : s.Canon) : Res.Canon (execSinkLimitMiss site s) :=
  .upDo h (fun _ h => .ite h.fenceSite h)

theorem Res.Canon.execGraftPowerWindow {site power : Nat} (h : s.Canon) :
    Res.Canon (execGraftPowerWindow site power s) :=
  .upDo h fun _ h => by
    split
    · exact h.modSite
    · exact .ite h.modSite.fenceSite h.modSite

theorem Res.Canon.execGraftThermal {site temp : Nat} (h : s.Canon) : Res.Canon (execGraftThermal site temp s) :=
  .upDo h (fun _ h => .ite h.modSite.fenceSite h.modSite)

theorem Res.Canon.execGftSiteReset {port : Port} {site : Nat} {val : BitVec 64} (h : s.Canon) :
    Res.Canon (execGftSiteReset port site val s) :=
  .upDo h (fun _ h => .ite h.portDenied (.ite h (.modSite (.setInv (.ite h.emit h)))))

theorem Res.Canon.execSiteResetTimer {site : Nat} (h : s.Canon) : Res.Canon (execSiteResetTimer site s) :=
  .upDo h (fun _ h => .ite h (.modSite (.upd (.foldl (.ite h.reclaim h) (fun _ _ h => h.siteEnd)))))

theorem Res.Canon.execGftWinWrite {port : Port} {site w : Nat} {hi : Bool} {val : BitVec 64} (h : s.Canon) :
    Res.Canon (execGftWinWrite port site w hi val s) :=
  .upDo h (fun _ h => .ite h.portDenied (.ite h h.modSite))

end Sys2Proof.Machine
end

section
/-! PROOFS. Canonical memory: the operations of Machine/Mgmt.lean keep it. -/

namespace Sys2Proof.Machine

variable {s t : State}

theorem State.Canon.wiped : s.wiped.Canon :=
  ⟨rfl, rfl⟩

theorem State.Canon.eraseOwner (h : s.Canon) : s.eraseOwner.Canon :=
  h.upd

theorem State.Canon.dropStaged (h : s.Canon) : s.dropStaged.Canon :=
  .ite h.upd h

theorem State.Canon.lcAnswer {port : Port} {session : Option Nat} {code : BitVec 16} (h : s.Canon) :
    (s.lcAnswer port session code).Canon := by
  unfold State.lcAnswer
  split
  · split
    · exact h.answerFrame
    · exact h
  · exact h.upd.emit
  · exact h

theorem State.Canon.lcRequest {port : Port} {session : Option Nat} {val : BitVec 32} {supply : Bool} (h : s.Canon) :
    (s.lcRequest port session val supply).Canon :=
  .ite (.lcAnswer (.upd (.ite h.upd h.portDenied))) (.ite h.upd.lcAnswer h.upd.lcAnswer.dropStaged.upd)

theorem Res.Canon.execLcRequest {port : Port} {session : Nat} {val : BitVec 32} {supply : Bool} (h : s.Canon) :
    Res.Canon (execLcRequest port session val supply s) :=
  .onDo h (fun _ h => .ite h (.ite (h.mgmtDo (fun _ h => h.lcRequest)) h.lcRequest))

theorem State.Canon.lcErase (h : s.Canon) : s.lcErase.Canon :=
  .ite (.upd (.ite h.eraseOwner h)) (.ite h.eraseOwner h)

theorem State.Canon.lcStepDone (h : s.Canon) : s.lcStepDone.Canon := by
  unfold State.lcStepDone
  dsimp only
  split
  · exact h.upd
  · exact h.upd
  · exact (State.Canon.wiped).upd
  · exact h.lcErase.upd
  · split <;> exact h.upd
  · exact .ite h.upd.lcLatch h.upd.lcLatch.upd
  · exact h

theorem Res.Canon.execLcStepDone (h : s.Canon) : Res.Canon (execLcStepDone s) :=
  .onDo h (fun _ h => .ite h h.lcStepDone)

theorem State.Canon.lcResume (h : s.Canon) : s.lcResume.Canon := by
  unfold State.lcResume
  split
  · exact h.lcLatch
  · exact h.upd
  · exact h.upd

theorem Res.Canon.execTlsHandshake {ok : Bool} {root : BitVec 384} (h : s.Canon) :
    Res.Canon (execTlsHandshake ok root s) :=
  .next (.ite h h.upd.emit)

theorem State.Canon.endMgmt {session : Nat} (h : s.Canon) : (s.endMgmt session).Canon :=
  h.upd

theorem Res.Canon.execBind {session : Nat} {ok : Bool} (h : s.Canon) : Res.Canon (execBind session ok s) :=
  .next (.ite h (.ite h.endMgmt h.upd.answerFrame))

theorem Res.Canon.execSessionIdleTimeout {session : Nat} (h : s.Canon) : Res.Canon (execSessionIdleTimeout session s) :=
  .next (.ite h.endMgmt h)

theorem Res.Canon.execOwnerClaim {port : Port} {val : BitVec 64} (h : s.Canon) :
    Res.Canon (execOwnerClaim port val s) :=
  .upDo h (fun _ h => .ite h.portDenied (.ite h (.ite h.event h.upd)))

theorem Res.Canon.ownerSet {session : Nat} {f : State → State} (h : s.Canon)
    (hf : ∀ t, t.Canon → (f t).Canon) : Res.Canon (s.ownerSet session f) :=
  .upDo h (fun _ h' => h'.mgmtDo (fun _ h' => hf _ h'.answerFrame))

theorem Res.Canon.ownerBad {session : Nat} (h : s.Canon) : Res.Canon (s.ownerBad session) :=
  .upDo h (fun _ h => h.mgmtDo (fun _ h => h.draw.answerFrame))

theorem Res.Canon.execOwnerSetAnchor {session : Nat} {anchor : BitVec 384} (h : s.Canon) :
    Res.Canon (execOwnerSetAnchor session anchor s) :=
  .ownerSet h (fun _ h => h.upd)

theorem Res.Canon.execOwnerSetOperatorKey {session slot : Nat} {keys : List Byte} (h : s.Canon) :
    Res.Canon (execOwnerSetOperatorKey session slot keys s) :=
  .ite (.ownerBad h) (.ownerSet h (fun _ h => h.upd))

theorem Res.Canon.execOwnerSetUpdateLock {session val : Nat} (h : s.Canon) :
    Res.Canon (execOwnerSetUpdateLock session val s) :=
  .ite (.ownerBad h) (.ownerSet h (fun _ h => h.upd))

theorem Res.Canon.execOwnerSetEh1608Path {session val : Nat} (h : s.Canon) :
    Res.Canon (execOwnerSetEh1608Path session val s) :=
  .ite (.ownerBad h) (.ownerSet h (fun _ h => h.upd))

theorem Res.Canon.execDebugChallenge {session : Nat} {scope : BitVec 8} (h : s.Canon) :
    Res.Canon (execDebugChallenge session scope s) :=
  .upDo h (fun _ h => h.mgmtDo (fun _ h => .ite h.answerFrame h.draw.upd.answerFrame))

theorem Res.Canon.execDebugNonceExpiry (h : s.Canon) : Res.Canon (execDebugNonceExpiry s) :=
  .upDo h (fun _ h => h.upd)

theorem State.Canon.fallowAll (h : s.Canon) : s.fallowAll.Canon :=
  h.foldl (fun _ _ h => h.fallowStart)

theorem Res.Canon.execDebugGrant {session : Nat} {grant : List Byte} (h : s.Canon) :
    Res.Canon (execDebugGrant session grant s) := by
  refine .upDo h fun _ h => h.mgmtDo fun _ h => ?_
  dsimp only
  split
  · exact h.upd.answerFrame
  · exact .ite
      (.ite h.upd.dropStaged.answerFrame.upd.fallowAll h.upd.dropStaged.answerFrame.upd)
      h.upd.answerFrame

theorem Res.Canon.execEh1608Unlock (h : s.Canon) : Res.Canon (execEh1608Unlock s) :=
  .onDo h (fun _ h => .ite h (.ite h.upd.emit (.ite h h.dropStaged.upd.fallowAll.emit)))

theorem State.Canon.ehErase (h : s.Canon) : s.ehErase.Canon :=
  h.eraseOwner.upd

theorem Res.Canon.execDebugGranted (h : s.Canon) : Res.Canon (execDebugGranted s) :=
  .upDo h (fun _ h => .ite h (.event (.upd (.ite h.ehErase h))))

theorem Res.Canon.execJtagInstruction {op : JtagOp} {data : List Byte} (h : s.Canon) :
    Res.Canon (execJtagInstruction op data s) :=
  .onDo h fun _ h => by
    refine .ite h ?_
    refine .ite h.portDenied.emit ?_
    refine .ite h.upd.emit ?_
    split
    · exact h.upd.emit
    · exact h.upd.emit
    · exact h.upd.emit
    · exact h.upd.upd.emit
    · exact h.upd.emit
    · exact h.upd.draw.emit

end Sys2Proof.Machine
end

section
/-! PROOFS. Canonical memory: the operations of Machine/Update.lean keep it. -/

namespace Sys2Proof.Machine

variable {s t : State}

theorem State.Canon.updAnswer {session : Nat} {code : BitVec 16} {data : List Byte} (h : s.Canon) :
    (s.updAnswer session code data).Canon :=
  h.upd.answerFrame

theorem State.Canon.updRefuse {session reason : Nat} (h : s.Canon) : (s.updRefuse session reason).Canon :=
  h.updAnswer

theorem Res.Canon.updDo {session : Nat} {f : State → State} (h : s.Canon)
    (hf : ∀ t, t.Canon → (f t).Canon) : Res.Canon (s.updDo session f) :=
  .next (.ite (h.mgmtDo (fun _ h' => hf _ h')) h)

theorem State.Canon.stageFails {session : Nat} {code : BitVec 16} (h : s.Canon) : (s.stageFails session code).Canon :=
  h.upd.updAnswer

theorem Res.Canon.execUpdBegin {session total : Nat} {supply : Bool} (h : s.Canon) :
    Res.Canon (execUpdBegin session total supply s) :=
  .updDo h (fun _ h => .ite h.updRefuse h.upd.updAnswer)

theorem State.Canon.updIdle {session : Nat} (h : s.Canon) : (s.updIdle session).Canon :=
  h.draw.answerFrame

theorem Res.Canon.execUpdData {session off : Nat} {data : List Byte} (h : s.Canon) :
    Res.Canon (execUpdData session off data s) :=
  .updDo h (fun _ h => .ite h.updIdle (.ite h.stageFails (.ite h.stageFails h.upd.updAnswer)))

theorem State.Canon.recovered {l : List Byte} : (s.recovered l).Canon :=
  State.Canon.wiped

theorem Res.Canon.execUpdEnd {session : Nat} (h : s.Canon) : Res.Canon (execUpdEnd session s) :=
  .updDo h (fun _ h => .ite h.updIdle (.ite h.stageFails (.ite (State.Canon.recovered) h.upd.updAnswer)))

theorem State.Canon.endSessions (h : s.Canon) : s.endSessions.Canon :=
  h.upd

theorem State.Canon.takeover (h : s.Canon) : s.takeover.Canon :=
  h.endSessions.report.event.upd.replaceCause

theorem State.Canon.flipBanks {types : List Nat} {ucode : Nat} (h : s.Canon) : (s.flipBanks types ucode).Canon :=
  .ite (.foldl (.ite (h.foldl (fun _ _ h => h.modStack)) h) (fun _ _ h => h.modTile))
      (.ite (h.foldl (fun _ _ h => h.modStack)) h)

theorem State.Canon.freeBanks (h : s.Canon) : s.freeBanks.Canon :=
  h.upd

theorem State.Canon.setFabVersion {v : BitVec 16} (h : s.Canon) : (s.setFabVersion v).Canon :=
  .ite h (.ite h.upd.flood.relink h.upd)

theorem Res.Canon.execActivate {session : Nat} {supply : Bool} (h : s.Canon) :
    Res.Canon (execActivate session supply s) :=
  .updDo h (fun _ h => .ite h.updRefuse h.upd.updAnswer)

theorem Res.Canon.execStandbyBootDone (h : s.Canon) : Res.Canon (execStandbyBootDone s) :=
  .upDo h (fun _ h => .ite h (.ite h.upd.releaseHeld h.upd.endSessions.flipBanks.setFabVersion.event))

theorem Res.Canon.execHealthOk (h : s.Canon) : Res.Canon (execHealthOk s) :=
  .upDo h (fun _ h => .ite h.upd h)

theorem State.Canon.fallBack {cause : Nat} (h : s.Canon) : (s.fallBack cause).Canon :=
  .ite h h.setFabVersion.flipBanks.freeBanks.upd.endSessions.event.releaseHeld

theorem Res.Canon.execHealthCheckFail (h : s.Canon) : Res.Canon (execHealthCheckFail s) :=
  .upDo h (fun _ h => h.fallBack)

theorem Res.Canon.execConfirmWindowExpiry (h : s.Canon) : Res.Canon (execConfirmWindowExpiry s) :=
  .upDo h (fun _ h => h.fallBack)

theorem Res.Canon.execConfirm {session : Nat} (h : s.Canon) : Res.Canon (execConfirm session s) :=
  .updDo h (fun _ h => .ite h.updRefuse h.upd.updAnswer.freeBanks.event.releaseHeld)

theorem Res.Canon.execAbort {session : Nat} (h : s.Canon) : Res.Canon (execAbort session s) :=
  .updDo h (fun _ h => .ite h.updAnswer.fallBack (.ite h.dropStaged.updAnswer.upd h.updIdle))

theorem Res.Canon.execStatus {session : Nat} (h : s.Canon) : Res.Canon (execStatus session s) :=
  .updDo h (fun _ h => h.answerFrame)

theorem Res.Canon.execUpdMboxCmd {port : Port} {val : BitVec 64} (h : s.Canon) :
    Res.Canon (execUpdMboxCmd port val s) :=
  .onDo h (fun _ h => .ite h.portDenied (.ite h (.ite h.upd (.ite h.upd (.ite h.upd (State.Canon.recovered))))))

end Sys2Proof.Machine
end

section
/-! PROOFS. Canonical memory: the operations of Machine/Faults.lean keep it. -/

namespace Sys2Proof.Machine

variable {s t : State}

theorem State.Canon.reserveCheck (h : s.Canon) : s.reserveCheck.Canon :=
  .ite h h.replaceCause

theorem Res.Canon.execCurReplaceClear {port : Port} {val : BitVec 64} (h : s.Canon) :
    Res.Canon (execCurReplaceClear port val s) :=
  .upDo h (fun _ h => .ite h.portDenied h.upd)

theorem State.Canon.freshCore {d i : Nat} (h : s.Canon) : (s.freshCore d i).Canon :=
  h.coreReset.zeroRange.zeroRange

theorem State.Canon.handCounters {d i d' : Nat} (h : s.Canon) : (s.handCounters d i d').Canon :=
  h.modCore.upd

theorem State.Canon.requeue {p : Nat → Nat → Bool} (h : s.Canon) : (s.requeue p).Canon :=
  h.upd

theorem State.Canon.startReplays (h : s.Canon) : s.startReplays.Canon :=
  h.foldl (fun _ _ h => h.foldl (fun _ _ h => h.foldl (fun _ _ h => h.foldl
      (fun _ _ h => by split; exacts [.ite h.startRank h, h]))))

theorem State.Canon.coreFault {d i unit : Nat} (h : s.Canon) : (s.coreFault d i unit).Canon :=
  h.requeue.freshCore.handCounters.report.startReplays

theorem State.Canon.losePlain {ls lo : Nat} (h : s.Canon) : (s.losePlain ls lo).Canon :=
  (h.foldl (fun _ _ h => h.poisonRange)).foldl (fun _ _ h => h.report.poisonEvent)

theorem State.Canon.loseStore {ls lo : Nat} (h : s.Canon) : (s.loseStore ls lo).Canon :=
  (((h.modStack.foldl (fun _ _ h' => ((h'.foldl (fun _ _ h => h.ssuPoison)).report).foldl
      (fun _ _ h => h.poisonEvent))).foldl (fun _ _ h => h.ssuEnd)).modStack).upd

theorem State.Canon.loseIsland {d ls lo : Nat} (h : s.Canon) : (s.loseIsland d ls lo).Canon :=
  h.upd.modRouter.loseStore.losePlain

theorem State.Canon.rebuildAll {ls lo : Nat} (h : s.Canon) : (s.rebuildAll ls lo).Canon := by
  refine h.foldl fun _ _ h => .ite h (h.foldl fun _ _ h => .ite h ?_)
  split
  · exact h
  · exact .ite h.recomputeParity (.ite h.recomputeParity
      (.ite (.modMem (.ite h.wrSec h)) ((h.foldl (fun _ _ h => h.lostData)).recomputeParity)))

theorem State.Canon.stopBist (h : s.Canon) : s.stopBist.Canon :=
  .ite h.upd h

theorem State.Canon.closeCaches {d : Nat} {lost : Bool} {bad : List Nat} (h : s.Canon) :
    (s.closeCaches d lost bad).Canon :=
  .reclaim (.ite h (h.foldl (fun _ _ h => h.settle)))

theorem State.Canon.fenceOne {d : Nat} {reason : BitVec 8} {bad : List Nat} (h : s.Canon) :
    (s.fenceOne d reason bad).Canon :=
  ((((((h.modTile.setInv.closeCaches.foldl (fun _ _ h =>
      h.freshCore)).switchAll).routeFence).fenceLinksOf).redist).portDown).upd

theorem State.Canon.tileReport {d : Nat} (h : s.Canon) : (s.tileReport d).Canon :=
  h.report

theorem State.Canon.noPromotion {d : Nat} (h : s.Canon) : (s.noPromotion d).Canon := by
  unfold State.noPromotion
  dsimp only
  split
  · exact h.upd
  · exact .ite h.upd (.upd (.modStack (.foldl (.foldl (.ite h.upd h.upd.loseIsland)
      (fun _ _ h => h.ssuEnd)) (fun _ _ h => h.outcome))))

theorem State.Canon.pairRoutes (h : s.Canon) : s.pairRoutes.Canon := by
  unfold State.pairRoutes
  split
  · extract_lets
    split
    next t ht =>
      obtain ⟨es, -, ht⟩ := Option.bind_eq_some_iff.mp ht
      obtain ⟨-, ht⟩ := (Option.ite_none_right_eq_some ..).mp ht
      obtain rfl := Option.some.inj ht
      exact h.upd.switchAll
    next => exact h.foldl fun _ _ h => h.fenceOne.tileReport.noPromotion
  · exact h

theorem State.Canon.afterFence {old s : State} (h1 : s.Canon) : (old.afterFence s).Canon :=
  .ite h1.pairRoutes h1

theorem State.Canon.fenceTile {d : Nat} {reason : BitVec 8} {bad : List Nat} (h : s.Canon) :
    (s.fenceTile d reason bad).Canon :=
  h.fenceOne.afterFence

theorem Res.Canon.execLinkTrainingEnd {die link offered peer : Nat} {spares : BitVec 32} {rate : Nat} (h : s.Canon) :
    Res.Canon (execLinkTrainingEnd die link offered peer spares rate s) :=
  .onDo h (fun _ h => .ite h.trainEnd.afterFence h)

theorem State.Canon.wakeReserve {r : Nat} (h : s.Canon) : (s.wakeReserve r).Canon :=
  h.modTile

theorem State.Canon.promote {d : Nat} (h : s.Canon) : (s.promote d).Canon := by
  unfold State.promote
  split
  · exact h.tileReport
  · split
    · exact h.tileReport.noPromotion
    · exact .reserveCheck (.wakeReserve (.upd (.modStack (.ite h.loseIsland h))))

theorem State.Canon.copyFault {d ls : Nat} {m : Migration} {reason : BitVec 8} {bad : List Nat} (h : s.Canon) :
    (s.copyFault d ls m reason bad).Canon :=
  .ite h.modStack.fenceTile.stopBist.tileReport.reserveCheck
      (.ite (.upd (.modStack (.ite (.loseIsland (.ite h.fenceTile.stopBist.migAdvance
      h.fenceTile.stopBist)) (.ite h.fenceTile.stopBist.migAdvance h.fenceTile.stopBist))))
      (.ite (.ite h.migAdvance.modTile.loseIsland.modStack.rebuildAll
      h.migAdvance.modTile.loseIsland.modStack) h))

theorem State.Canon.tileFault {d : Nat} {reason : BitVec 8} {bad : List Nat} (h : s.Canon) :
    (s.tileFault d reason bad).Canon := by
  unfold State.tileFault
  refine .ite h ?_
  split
  · split
    · exact h.copyFault
    · exact h
  · exact .ite h (.ite h.fenceTile.stopBist.tileReport.reserveCheck h.fenceTile.stopBist.promote)

theorem Res.Canon.execTileFault {die : Nat} {reason : BitVec 8} {bad : List Nat} (h : s.Canon) :
    Res.Canon (execTileFault die reason bad s) :=
  .upDo h (fun _ h => h.tileFault)

theorem State.Canon.dieFault {d : Nat} (h : s.Canon) : (s.dieFault d).Canon :=
  .ite h.fatal (.ite h.draw.tileFault (.ite h.fenceSite h))

theorem Res.Canon.execRouterArrival {n flips : Nat} (h : s.Canon) : Res.Canon (execRouterArrival n flips s) :=
  .upDo h fun _ h => by
    split
    next s ht => exact (State.Canon.ofEq ht h.routerArrival)
    next s d ht1 => exact .ite (State.Canon.ofEq ht1 h.routerArrival).report.dieFault.fatal (State.Canon.ofEq ht1 h.routerArrival).dieFault

theorem Res.Canon.execCoreError {die core unit : Nat} {again : Bool} (h : s.Canon) :
    Res.Canon (execCoreError die core unit again s) :=
  .upDo h (fun _ h => .ite h (.ite h.modCore.modTile.coreFault h.modCore.modTile.tileFault))

theorem Res.Canon.execSnoopLimitMiss {die : Nat} (h : s.Canon) : Res.Canon (execSnoopLimitMiss die s) :=
  .upDo h (fun _ h => .ite h.fatal (.ite h.tileFault (.ite h.fenceSite h)))

theorem State.Canon.installFor {d : Nat} (h : s.Canon) : (s.installFor d).Canon :=
  .ite h.installQos.installDeadlines h

theorem State.Canon.standIn {d r : Nat} {fenced : Bool} (h : s.Canon) : (s.standIn d r fenced).Canon :=
  h.upd.setInv.installFor

theorem State.Canon.promoted {d r ls : Nat} (h : s.Canon) : (s.promoted d r ls).Canon :=
  h.upd.event.report

theorem Res.Canon.execHandoverDone {ls : Nat} (h : s.Canon) : Res.Canon (execHandoverDone ls s) :=
  .upDo h fun _ h => by
    split
    · exact h
    · exact .ite h (.ite (.ite (.recoverHome (.ite h.modStack.rebuildAll h.modStack))
        (.ite h.modStack.rebuildAll h.modStack)) (.upd (.startReplays
        (.promoted (.standIn (.foldl (.requeue (.ite (.recoverHome
        (.ite h.modStack.rebuildAll h.modStack)) (.ite h.modStack.rebuildAll h.modStack)))
        (fun _ _ h => h.freshCore.handCounters)))))))

theorem Res.Canon.execRecoveryDone {ls : Nat} (h : s.Canon) : Res.Canon (execRecoveryDone ls s) :=
  .upDo h fun _ h => by
    split
    · exact h
    · exact .ite h (.event (.ite h.modStack.modTile.upd h.modStack.modTile))

theorem State.Canon.moveRange {a b n : Nat} (h : s.Canon) : (s.moveRange a b n).Canon :=
  (h.foldl (fun _ _ h => .ite h.poisonSec h.wrSec)).zeroRange

theorem State.Canon.moveCores {d r : Nat} (h : s.Canon) : (s.moveCores d r).Canon :=
  h.foldl (fun _ _ h => .freshCore (.ite h.modCore.moveRange.moveRange.upd h.modCore.moveRange.moveRange))

theorem State.Canon.intoReserve {d : Nat} (h : s.Canon) : (s.intoReserve d).Canon :=
  h.closeCaches.modMem

theorem State.Canon.migrateEnds {ls : Nat} (h : s.Canon) : (s.migrateEnds ls).Canon :=
  h.foldl (fun _ _ h => h.ssuEnd)

theorem Res.Canon.execMigrateCopyDone {ls : Nat} (h : s.Canon) : Res.Canon (execMigrateCopyDone ls s) :=
  .upDo h fun _ h => by
    split
    · exact h
    · exact .ite h
        (.ite (.reserveCheck
        (.event (.ite h.moveCores.modStack.wakeReserve.fenceTile.standIn.promoted.modTile.upd
        h.moveCores.modStack.wakeReserve.fenceTile.standIn.promoted.modTile)))
        (.ite h.moveCores.modStack.wakeReserve.intoReserve.standIn.upd.reserveCheck
        (.ite h.moveCores.modStack.wakeReserve.intoReserve.standIn.upd
        h.moveCores.modStack.wakeReserve.intoReserve.standIn.migrateEnds.reserveCheck)))

theorem Res.Canon.execTxnTimeout {die : Nat} (h : s.Canon) : Res.Canon (Machine.execTxnTimeout die s) := by
  refine .upDo h fun _ h => .ite h ?_
  extract_lets
  refine (h.upd.foldl fun _ _ h => h.txnEnd).foldl fun _ _ h => h.foldl fun _ _ h => ?_
  extract_lets
  split
  · exact .ite h.endKernel h
  · exact .ite h.endKernel h
  · exact h

theorem State.Canon.curatorFail (h : s.Canon) : s.curatorFail.Canon := by
  unfold State.curatorFail
  refine .ite h.fatal ?_
  dsimp only
  split
  · exact h.takeover.upd.releaseHeld
  · exact h.takeover.fallBack
  · exact h.takeover

theorem Res.Canon.execHeartbeatMiss (h : s.Canon) : Res.Canon (execHeartbeatMiss s) :=
  .upDo h (fun _ h => h.curatorFail)

theorem Res.Canon.execLockstepError (h : s.Canon) : Res.Canon (execLockstepError s) :=
  .upDo h (fun _ h => h.curatorFail)

theorem Res.Canon.execStandbyRestored (h : s.Canon) : Res.Canon (execStandbyRestored s) :=
  .upDo h (fun _ h => h.upd)

theorem State.Canon.bistCode {code : BitVec 16} (h : s.Canon) : (s.bistCode code).Canon :=
  h.upd

theorem Res.Canon.execCurBistCmd {port : Port} {val : BitVec 64} (h : s.Canon) :
    Res.Canon (execCurBistCmd port val s) :=
  .upDo h (fun _ h => .ite h.portDenied (.ite h (.ite h.bistCode (.ite h.bistCode h.upd))))

theorem State.Canon.rotateBack {d : Nat} (h : s.Canon) : (s.rotateBack d).Canon := by
  unfold State.rotateBack
  split
  · exact h.modStack
  · exact h

theorem State.Canon.bistFailed {d : Nat} (h : s.Canon) : (s.bistFailed d).Canon := by
  unfold State.bistFailed
  refine .ite ?_ (.ite h.modTile h.fenceTile.tileReport)
  split
  · exact .ite (.promoted (.upd (.setInv (.ite h.modTile h.fenceTile.tileReport))))
      (.upd (.setInv (.ite h.modTile h.fenceTile.tileReport)))
  · exact .ite h.modTile h.fenceTile.tileReport

theorem Res.Canon.execBistDone {results : List Nat} (h : s.Canon) : Res.Canon (execBistDone results s) :=
  .upDo h (fun _ h => .ite h (.ite (((h.upd.event.foldl (fun _ _ h' =>
      h'.freshCore)).bistFailed).reserveCheck) (.ite ((h.upd.event.foldl
      (fun _ _ h' => h'.freshCore)).rotateBack) (h.upd.event.foldl (fun _ _ h' => h'.freshCore)))))

theorem Res.Canon.execCurRotate {port : Port} {val : BitVec 64} (h : s.Canon) : Res.Canon (execCurRotate port val s) :=
  .upDo h (fun _ h => .ite h.portDenied (.ite h (.ite h.bistCode (.ite h.bistCode h.draw.planMove.upd))))

end Sys2Proof.Machine
end

section
/-! PROOFS. Canonical memory: the operations of Machine/Power.lean keep it. -/

namespace Sys2Proof.Machine

variable {s t : State}

theorem State.Canon.resetBegin {kind : Nat} {a b : Bool} : (s.resetBegin kind a b).Canon :=
  ((State.Canon.wiped).upd).lcResume

theorem Res.Canon.execPwrOkRise {a b : Bool} {strap : BitVec 2} (h : s.Canon) : Res.Canon (execPwrOkRise a b strap s) :=
  .next (.ite h (State.Canon.resetBegin))

theorem Res.Canon.execPerstN {a b : Bool} (h : s.Canon) : Res.Canon (execPerstN a b s) :=
  .onDo h (fun _ h => .ite (State.Canon.resetBegin) h)

theorem Res.Canon.execPerstNRise (h : s.Canon) : Res.Canon (execPerstNRise s) :=
  .onDo h (fun _ h => h.upd)

theorem Res.Canon.execHotReset {a b : Bool} (h : s.Canon) : Res.Canon (execHotReset a b s) :=
  .onDo h (fun _ h => .ite (State.Canon.resetBegin) h)

theorem Res.Canon.execPwrOkFall (h : s.Canon) : Res.Canon (execPwrOkFall s) :=
  .next h.upd

theorem Res.Canon.execPowerLoss : Res.Canon (execPowerLoss s) :=
  .next ((State.Canon.wiped).upd)

theorem State.Canon.bootSlot (h : s.Canon) : s.bootSlot.Canon := by
  unfold State.bootSlot
  dsimp only
  split <;> exact h.upd

theorem State.Canon.matchDie {d : Nat} (h : s.Canon) : (s.matchDie d).Canon := by
  unfold State.matchDie
  split
  · exact h.modRouter
  · exact h.modTile.setInv.upd.report.event.replaceCause

theorem State.Canon.hubErrata (h : s.Canon) : s.hubErrata.Canon := by
  unfold State.hubErrata
  split
  · exact h.modRouter
  · exact h

theorem State.Canon.trainMesh (h : s.Canon) : s.trainMesh.Canon :=
  h.foldl (fun _ _ h' => h'.foldl (fun _ _ h' => by split; exacts [.ite h'.linkUp h', h']))

theorem State.Canon.bootMesh (h : s.Canon) : s.bootMesh.Canon :=
  ((((h.hubErrata.foldl (fun _ _ h => h.matchDie)).modRouter).trainMesh).redist).upd

theorem State.Canon.setVdd {d : Nat} (h : s.Canon) : (s.setVdd d).Canon := by
  unfold State.setVdd
  exact h.draw.modTile

theorem State.Canon.bootStacks (h : s.Canon) : s.bootStacks.Canon :=
  (h.foldl (fun _ _ h => h.modTile.setVdd)).upd

theorem State.Canon.bootFences (h : s.Canon) : s.bootFences.Canon :=
  ((h.foldl (fun _ _ h => h.switchAll.routeFence.foldl (fun _ _ h => .ite h.modLinks h))).redist).afterFence

theorem State.Canon.bootPlan (h : s.Canon) : s.bootPlan.Canon :=
  .upd (.bootFences (.bedBoot (.ite h.ehErase h)))

theorem State.Canon.bootSites (h : s.Canon) : s.bootSites.Canon :=
  .ite h ((h.foldl (fun _ _ h => .ite h.modSite h)).upd)

theorem State.Canon.bootEnd {ms : Nat} (h : s.Canon) : (s.bootEnd ms).Canon :=
  (h.draw.upd.foldl (fun _ _ h => h.event)).upd

theorem Res.Canon.execBootStepDone {ms : Nat} (h : s.Canon) : Res.Canon (execBootStepDone ms s) :=
  .onDo h fun _ h => by
    refine .ite h ?_
    split
    · exact .ite h h.upd
    · exact h.upd
    · exact h.bootSlot
    · exact h.bootMesh
    · exact h.bootStacks
    · exact h.bootPlan
    · exact h.bootSites
    · exact h.bootEnd
    · exact h

theorem Res.Canon.execRefclkLoss {b : Bool} (h : s.Canon) : Res.Canon (execRefclkLoss b s) :=
  .onDo h (fun _ h => .ite h.upd.upd (.ite h.upd.upd.replaceCause h.upd.upd.report.replaceCause.event))

theorem Res.Canon.execRefclkGoodTimer {b : Bool} (h : s.Canon) : Res.Canon (execRefclkGoodTimer b s) :=
  .onDo h (fun _ h => .ite h.upd.upd h.upd)

theorem Res.Canon.execRestEntry {die : Nat} (h : s.Canon) : Res.Canon (execRestEntry die s) :=
  .upDo h (fun _ h => .ite h.modTile h)

theorem Res.Canon.execRestExit {die : Nat} (h : s.Canon) : Res.Canon (execRestExit die s) :=
  .upDo h (fun _ h => h.modTile)

theorem State.Canon.restEnter (h : s.Canon) : s.restEnter.Canon :=
  .ite h h.upd

theorem State.Canon.pwrStateReq {port : Port} {val : BitVec 64} (h : s.Canon) : (s.pwrStateReq port val).Canon := by
  unfold State.pwrStateReq
  refine .ite h.portDenied ?_
  split
  · exact h.wake
  · exact h.restEnter
  · exact h

theorem Res.Canon.execPwrStateReqEnter {port : Port} {val : BitVec 64} (h : s.Canon) :
    Res.Canon (execPwrStateReqEnter port val s) :=
  .upDo h (fun _ h => h.pwrStateReq)

theorem Res.Canon.execPwrStateReqExit {port : Port} {val : BitVec 64} (h : s.Canon) :
    Res.Canon (execPwrStateReqExit port val s) :=
  .upDo h (fun _ h => h.pwrStateReq)

theorem Res.Canon.execPmcsrWrite {d3 : Bool} (h : s.Canon) : Res.Canon (execPmcsrWrite d3 s) :=
  .upDo h (fun _ h => .ite h.upd.wake (.ite h.upd.restEnter (h.upd.restEnter.foldl (fun _ _ h => .ite h.modTile h))))

theorem State.Canon.selfRefresh {b : Bool} (h : s.Canon) : (s.selfRefresh b).Canon :=
  h.foldl (fun _ _ h => .ite h.modTile h)

theorem Res.Canon.execDeepRestEntered (h : s.Canon) : Res.Canon (execDeepRestEntered s) :=
  .upDo h (fun _ h => .ite h h.selfRefresh.upd)

theorem State.Canon.tileWindow {d temp dram : Nat} {above : Bool} (h : s.Canon) :
    (s.tileWindow d temp dram above).Canon :=
  .ite h (.ite h.modTile h.modTile.setVdd)

theorem State.Canon.throttleFlags {above : Bool} (h : s.Canon) : (s.throttleFlags above).Canon :=
  .ite h.upd h.upd.event

theorem State.Canon.limitStatus {above : Bool} (h : s.Canon) : (s.limitStatus above).Canon :=
  h.upd

theorem Res.Canon.execThrottleWindow {power hot : Nat} {temps drams : List Nat} (h : s.Canon) :
    Res.Canon (execThrottleWindow power hot temps drams s) :=
  .upDo h (fun _ h => (((h.foldl (fun _ _ h' => h'.tileWindow)).upd).limitStatus).throttleFlags)

theorem Res.Canon.execThermalTrip (h : s.Canon) : Res.Canon (execThermalTrip s) :=
  .onDo h (fun _ h => h.upd)

end Sys2Proof.Machine
end

section
/-! PROOFS. Canonical memory: the operations of Machine/Registers.lean keep it. -/

namespace Sys2Proof.Machine

variable {s t : State}

theorem State.Canon.leaves {r : Res} (hr : Res.Canon r) (h : s.Canon) : (leaves r s).Canon := by
  unfold Machine.leaves
  split
  next t => exact hr.canon t rfl
  next => exact h
  next => exact h

theorem State.Canon.hubAct {port : Port} {off : Nat} {v : BitVec 64} (h : s.Canon)
    (ht : s.hubAct port off v = some t) : t.Canon := by
  unfold State.hubAct at ht
  split at ht
  · obtain rfl := Option.some.inj ht
    exact .leaves (.execHubTknStallLimitWrite h) h
  · obtain rfl := Option.some.inj ht
    exact .leaves (.execHubScFlush h) h
  · obtain rfl := Option.some.inj ht
    exact .leaves (.execHubUnmapReq h) h
  · obtain rfl := Option.some.inj ht
    exact .leaves (.execBedLoadCmd h) h
  · obtain rfl := Option.some.inj ht
    exact .leaves (.execCmpFallowReq h) h
  · obtain rfl := Option.some.inj ht
    exact .leaves (.execCurReplaceClear h) h
  · obtain rfl := Option.some.inj ht
    exact .leaves (.execCurBistCmd h) h
  · obtain rfl := Option.some.inj ht
    exact .leaves (.execCurRotate h) h
  · obtain rfl := Option.some.inj ht
    exact h.pwrStateReq
  · obtain rfl := Option.some.inj ht
    exact h.draw.lcRequest
  · obtain rfl := Option.some.inj ht
    exact .leaves (.execOwnerClaim h) h
  · refine .ofOrElse (.ofMap fun k => .leaves (.execStoNsWrite h) h)
      (.ofOrElse (.ofMap fun k => .leaves (.execMshLinkRetrain h) h)
      (.ofOrElse (.ofMap fun k => .leaves (.execGftSiteReset h) h) fun ht => ?_)) ht
    obtain ⟨-, ht⟩ := (Option.ite_none_right_eq_some ..).mp ht
    exact .ofMap (fun k => .leaves (.execGftWinWrite h) h) ht

theorem State.Canon.hubStore {off : Nat} {v : BitVec 64} (h : s.Canon) : (s.hubStore off v).Canon := by
  unfold State.hubStore
  dsimp only
  split
  · exact h.modRouter
  · exact h.upd
  · exact .ite h.upd h
  · exact .ite h.upd h
  · exact h.upd
  · exact .ite h.upd h
  · exact h.upd
  · exact .ite h.upd h
  · exact h.upd
  · exact h.upd
  · exact .ite h.upd h
  · exact .ite h.upd h
  · split
    · exact h.modCmpt
    · exact .ite h.modSite h
    · exact h.upd
    · exact h

theorem State.Canon.tileWrite {port : Port} {d off : Nat} {v : BitVec 64} (h : s.Canon) :
    (s.tileWrite port d off v).Canon := by
  unfold State.tileWrite
  dsimp only
  split
  · exact h.modRouter
  · exact h.modMem
  · exact .leaves (.execMemCeWindowWrite h) h
  · exact .leaves (.execMemCeThreshWrite h) h
  · exact .ite h.modMem h
  · exact .leaves (.execTilRlcFlush h) h
  · exact h.modTile
  · exact .leaves (.execFabPortRetrain h) h
  · split
    · exact .leaves (.execMshLinkRetrain h) h
    · exact h

theorem State.Canon.regStore {port : Port} {die off : Nat} {v : BitVec 64} (h : s.Canon) :
    (s.regStore port die off v).Canon := by
  unfold State.regStore
  refine .ite h.portDenied ?_
  refine .ite ?_ (.ite h.tileWrite h)
  split
  next t ht => exact (h.hubAct ht)
  next => exact h.hubStore

theorem State.Canon.pfBar0 {off : Nat} {v : BitVec 64} (h : s.Canon) : (s.pfBar0 off v).Canon :=
  .ite (.ite h.upd h) (.ite (.leaves (.execUpdMboxCmd h) h) (.ite h (.ite h.upd (.ite h.regStore h.bar0T))))

theorem Res.Canon.execRegisterWrite {port : Port} {bar0 : Bool} {die off : Nat} {val : BitVec 64} (h : s.Canon) :
    Res.Canon (execRegisterWrite port bar0 die off val s) :=
  .onDo h fun _ h => by
    refine .ite ?_ (.ite h.regStore h)
    split
    · exact .ite h.pfBar0 h
    · exact .ite h.bar0T h
    · exact .ite h.portDenied h

theorem Res.Canon.execRegRead {session die off count : Nat} (h : s.Canon) :
    Res.Canon (execRegRead session die off count s) :=
  .upDo h (fun _ h => h.mgmtDo (fun _ h => .ite h.draw.answerFrame
      (.ite h.upd.answerFrame h.migAdvance.upd.answerFrame)))

theorem Res.Canon.execRegWrite {session die off : Nat} {val : BitVec 64} (h : s.Canon) :
    Res.Canon (execRegWrite session die off val s) :=
  .upDo h (fun _ h => h.mgmtDo (fun _ h => .ite h.upd.answerFrame h.regStore.answerFrame))

end Sys2Proof.Machine
end

section
/-! PROOFS. Canonical memory: the operations of Machine/HostMem.lean keep it. -/

namespace Sys2Proof.Machine

variable {s t : State}

theorem State.Canon.pfDenied {w : Nat} (h : s.Canon) : (s.pfDenied w).Canon :=
  h.upd.event

theorem State.Canon.hostPlace {fn off len : Nat} {w t : Bool} (h : s.Canon) : (s.hostPlace fn off len w t).1.Canon :=
  .iteOf Prod.fst h (.iteOf Prod.fst h (by split; exacts [.iteOf Prod.fst h.pfDenied h, h]))

theorem State.Canon.hostRefuse {fn : Nat} {w : Bool} (h : s.Canon) : (s.hostRefuse fn w).Canon :=
  .aerLog (.ite h h.emit)

theorem State.Canon.regPut {die off : Nat} {l : List Byte} (h : s.Canon) : (s.regPut die off l).Canon :=
  h.foldl (fun _ _ h => h.regStore)

theorem State.Canon.hostRead {fn : Nat} {p : HostPlace} {len : Nat} (h : s.Canon) : (s.hostRead fn p len).Canon := by
  unfold State.hostRead
  split
  · exact h.migAdvance.upd.emit
  · exact h.siteRequest
  · exact h.hostRefuse
  · exact h.readPieces.emit

theorem State.Canon.hostWrite {fn : Nat} {p : HostPlace} {l : List Byte} {ep : Bool} (h : s.Canon) :
    (s.hostWrite fn p l ep).Canon := by
  unfold State.hostWrite
  dsimp only
  split
  · exact .ite (.ite h.aerLog h) (.regPut (.ite h.aerLog h))
  · exact .siteRequest (.ite h.aerLog h)
  · exact .hostRefuse (.ite h.aerLog h)
  · split
    · exact .markDirtySlots (.writePieces (.ite h.aerLog h))
    · exact .writePieces (.ite h.aerLog h)

theorem State.Canon.hostFallow {fn len : Nat} {w : Bool} (h : s.Canon) : (s.hostFallow fn len w).Canon :=
  .ite h h.emit

theorem State.Canon.hostHold {i : Instr} (h : s.Canon) : (s.hostHold i).Canon :=
  h.upd

theorem State.Canon.serveRead {fn off len : Nat} {t : Bool} {late : Nat} (h : s.Canon) :
    (s.serveRead fn off len t late).Canon :=
  .ite h.hostFallow (.ite h.hostPlace.hostRefuse (.ite h.hostPlace.hostHold h.hostPlace.measure.offer.hostRead))

theorem State.Canon.serveWrite {fn off : Nat} {l : List Byte} {ep t : Bool} {late : Nat}
    (h : s.Canon) : (s.serveWrite fn off l ep t late).Canon :=
  .ite h.hostFallow (.ite h.hostPlace.hostRefuse (.ite h.hostPlace.hostHold h.hostPlace.measure.offer.hostWrite))

theorem State.Canon.waitAwake {i : Instr} (h : s.Canon) : (s.waitAwake i).Canon :=
  h.upd.wake

theorem Res.Canon.execHostMemRead {fn off len : Nat} {t : Bool} {late : Nat} (h : s.Canon) :
    Res.Canon (execHostMemRead fn off len t late s) :=
  .upDo h (fun _ h => .ite h (.ite h.waitAwake h.serveRead))

theorem Res.Canon.execHostMemWrite {fn off : Nat} {bytes : List Byte} {ep t : Bool} {late : Nat} (h : s.Canon) :
    Res.Canon (execHostMemWrite fn off bytes ep t late s) :=
  .upDo h (fun _ h => .ite h (.ite h.waitAwake h.serveWrite))

theorem State.Canon.serveWaiting {i : Instr} (h : s.Canon) : (s.serveWaiting i).Canon := by
  unfold State.serveWaiting
  split
  · exact h.serveRead
  · exact h.serveWrite
  · exact h

theorem State.Canon.afterRebuild {ls : Nat} (h : s.Canon) : (s.afterRebuild ls).Canon :=
  h.drain.drain.memRetry.remoteRetryAll.upd.foldl (fun _ _ h => h.serveWaiting)

theorem Res.Canon.execStripeReply {n : Nat} {dec : Dec} (h : s.Canon) : Res.Canon (execStripeReply n dec s) :=
  .upDo h fun _ h => by
    split
    · exact h
    · split
      · exact h
      · refine .ite h ?_
        dsimp only
        split
        · exact h.upd.modStack
        · exact .ite h.upd.modStack.modStack.rebuildEnd.afterRebuild h.upd.modStack

theorem State.Canon.servePosted {fn : Nat} (h : s.Canon) : (s.servePosted fn).Canon :=
  h.upd.foldl (fun _ _ h => h.serveWaiting)

theorem Res.Canon.execFlr {fn : Nat} (h : s.Canon) : Res.Canon (execFlr fn s) :=
  .upDo h (fun _ h => .ite h h.servePosted.modCmpt.fallowStart)

theorem Res.Canon.execVfEnableClear (h : s.Canon) : Res.Canon (execVfEnableClear s) :=
  .upDo h (fun _ h => h.upd.foldl (fun _ _ h => h.servePosted.fallowStart))

theorem Res.Canon.execDeepRestExitDone (h : s.Canon) : Res.Canon (execDeepRestExitDone s) :=
  .upDo h (fun _ h => .ite h (h.selfRefresh.upd.foldl (fun _ _ h => h.serveWaiting)))

end Sys2Proof.Machine
end

section
/-! PROOFS. Canonical memory: the operations of Machine/Dispatch.lean keep it. -/

namespace Sys2Proof.Machine

variable {s t : State}



end Sys2Proof.Machine
end

section
/-! PROOFS. Canonical memory: every command keeps it, and so does every step (R171, R177). -/

namespace Sys2Proof.Machine

variable {s t : State}

theorem Res.Canon.exec {i : Instr} (h : s.Canon) : Res.Canon (exec i s) := by
  cases i with
  | registerWrite => exact .execRegisterWrite h
  | corTknWrite => exact .execCorTknWrite h
  | corTknPost => exact .execCorTknPost h
  | corWait => exact .execCorWait h
  | corQstatClear => exact .execCorQstatClear h
  | corRptWrite => exact .execCorRptWrite h
  | cmdPortStore => exact .execCmdPortStore h
  | kernelExit => exact .execKernelExit h
  | cpTrap => exact .execCpTrap h
  | fenceI => exact .execFenceI h
  | cpLoad => exact .execCpLoad h
  | cpStore => exact .execCpStore h
  | lineEviction => exact .execLineEviction h
  | tokenPost => exact .execTokenPost h
  | tokenStall => exact .execTokenStall h
  | hubTknStallLimitWrite => exact .execHubTknStallLimitWrite h
  | sqDoorbell => exact .execSqDoorbell h
  | ringCtrlWrite => exact .execRingCtrlWrite h
  | cmpCqHeadDoorbell => exact .execCmpCqHeadDoorbell h
  | cmpEqHeadDoorbell => exact .execCmpEqHeadDoorbell h
  | cmpTknPost => exact .execCmpTknPost h
  | descriptorEnqueue => exact .execDescriptorEnqueue h
  | descriptorStart => exact .execDescriptorStart h
  | descriptorComplete => exact .execDescriptorComplete h
  | rankStart => exact .execRankStart h
  | rankFinish => exact .execRankFinish h
  | movCopy => exact .execMovCopy h
  | movCopy2d => exact .execMovCopy2d h
  | movConvert => exact .execMovConvert h
  | movFill => exact .execMovFill h
  | moverCmdComplete => exact .execMoverCmdComplete h
  | wait => exact .execWait h
  | post => exact .execPost h
  | fence => exact .execFence h
  | rngSeed => exact .execRngSeed h
  | loadA => exact .execLoadA h
  | loadB => exact .execLoadB h
  | scaleSet => exact .execScaleSet h
  | mma => exact .execMma h
  | mmaSplit => exact .execMmaSplit h
  | accClear => exact .execAccClear h
  | accRead => exact .execAccRead h
  | storeC => exact .execStoreC h
  | engineCmdComplete => exact .execEngineCmdComplete h
  | eltwise => exact .execEltwise h
  | shpReduce => exact .execShpReduce h
  | softmax => exact .execSoftmax h
  | norm => exact .execNorm h
  | normL2 => exact .execNormL2 h
  | convert => exact .execConvert h
  | shpGather => exact .execShpGather h
  | ssuCmdStart => exact .execSsuCmdStart h
  | winOpen => exact .execWinOpen h
  | winClose => exact .execWinClose h
  | winFree => exact .execWinFree h
  | ssuReduce => exact .execSsuReduce h
  | clipNoise => exact .execClipNoise h
  | contribution => exact .execContribution h
  | optStep => exact .execOptStep h
  | ssuGather => exact .execSsuGather h
  | scatter => exact .execScatter h
  | parity => exact .execParity h
  | wipe => exact .execWipe h
  | migrate => exact .execMigrate h
  | migrateCopyDone => exact .execMigrateCopyDone h
  | noiseRekey => exact .execNoiseRekey h
  | attend => exact .execAttend h
  | merge => exact .execMerge h
  | memRead => exact .execMemRead h
  | memWrite => exact .execMemWrite h
  | controllerIssue => exact .execControllerIssue h
  | floorWindow => exact .execFloorWindow h
  | queueLevelBroadcast => exact .execQueueLevelBroadcast h
  | refresh => exact .execRefresh h
  | patrolScrub => exact .execPatrolScrub h
  | ceWindowEnd => exact .execCeWindowEnd h
  | memCeWindowWrite => exact .execMemCeWindowWrite h
  | parityDelta => exact .execParityDelta h
  | rebuild => exact .execRebuild h
  | stripeRead => exact .execStripeRead h
  | stripeReply => exact .execStripeReply h
  | rdShared => exact .execRdShared h
  | rdUnique => exact .execRdUnique h
  | upgrade => exact .execUpgrade h
  | markDirty => exact .execMarkDirty h
  | wrBack => exact .execWrBack h
  | evictClean => exact .execEvictClean h
  | rdNc => exact .execRdNc h
  | wrNc => exact .execWrNc h
  | snpShared => exact .execSnpShared h
  | snpInv => exact .execSnpInv h
  | push => exact .execPush h
  | grantS => exact .execGrantS h
  | grantE => exact .execGrantE h
  | ack => exact .execAck h
  | ackData => exact .execAckData h
  | dirtyAck => exact .execDirtyAck h
  | dirtyStale => exact .execDirtyStale h
  | wbAck => exact .execWbAck h
  | pushAck => exact .execPushAck h
  | pushDecline => exact .execPushDecline h
  | recoverDone => exact .execRecoverDone h
  | recoverAck => exact .execRecoverAck h
  | snoopLimitMiss => exact .execSnoopLimitMiss h
  | agentDeath => exact .execAgentDeath h
  | tilRlcFlush => exact .execTilRlcFlush h
  | hubScFlush => exact .execHubScFlush h
  | pageIn => exact .execPageIn h
  | pageInDone => exact .execPageInDone h
  | pageOut => exact .execPageOut h
  | pageOutDone => exact .execPageOutDone h
  | pageFail => exact .execPageFail h
  | faultTimeout => exact .execFaultTimeout h
  | hubUnmapReq => exact .execHubUnmapReq h
  | withdrawn => exact .execWithdrawn h
  | routerArrival => exact .execRouterArrival h
  | outputArbitration => exact .execOutputArbitration h
  | ageTick => exact .execAgeTick h
  | packetDelivery => exact .execPacketDelivery h
  | switch => exact .execSwitch h
  | flitCrcFail => exact .execFlitCrcFail h
  | crcWindow => exact .execCrcWindow h
  | linkResetExit => exact .execLinkResetExit h
  | linkTrainingEnd => exact .execLinkTrainingEnd h
  | mshLinkRetrain => exact .execMshLinkRetrain h
  | regulatorIssue => exact .execRegulatorIssue h
  | regulatorWindow => exact .execRegulatorWindow h
  | bedLoadCmd => exact .execBedLoadCmd h
  | bedLoad => exact .execBedLoad h
  | bedCheckComplete => exact .execBedCheckComplete h
  | bedAccepted => exact .execBedAccepted h
  | epochQuiesce => exact .execEpochQuiesce h
  | bedEpochTimeout => exact .execBedEpochTimeout h
  | epoch => exact .execEpoch h
  | epochDone => exact .execEpochDone h
  | cmpFallowReq => exact .execCmpFallowReq h
  | fallow => exact .execFallow h
  | fallowDrained => exact .execFallowDrained h
  | fallowCachesClean => exact .execFallowCachesClean h
  | fallowDone => exact .execFallowDone h
  | flr => exact .execFlr h
  | pfFlr => exact .execPfFlr h
  | vfEnableClear => exact .execVfEnableClear h
  | msixUnmask => exact .execMsixUnmask h
  | hostMemRead => exact .execHostMemRead h
  | hostMemWrite => exact .execHostMemWrite h
  | bar2WindowWrite => exact .execBar2WindowWrite h
  | hostCompletion => exact .execHostCompletion h
  | completionTimeout => exact .execCompletionTimeout h
  | surpriseDown => exact .execSurpriseDown h
  | ideCheckFailed => exact .execIdeCheckFailed h
  | driveInsertion => exact .execDriveInsertion h
  | driveDmaRequest => exact .execDriveDmaRequest h
  | driveRemoval => exact .execDriveRemoval h
  | stoNsWrite => exact .execStoNsWrite h
  | storageRead => exact .execStorageRead h
  | storageWrite => exact .execStorageWrite h
  | storageFlush => exact .execStorageFlush h
  | nvmeCompletion => exact .execNvmeCompletion h
  | nvmeTimeout => exact .execNvmeTimeout h
  | portEnable => exact .execPortEnable h
  | portDisable => exact .execPortDisable h
  | lanesLocked => exact .execLanesLocked h
  | trainingLockTimeout => exact .execTrainingLockTimeout h
  | attestResult => exact .execAttestResult h
  | refusedRetry => exact .execRefusedRetry h
  | fabPortRetrain => exact .execFabPortRetrain h
  | portLinkLoss => exact .execPortLinkLoss h
  | linkFlit => exact .execLinkFlit h
  | linkKeyRollover => exact .execLinkKeyRollover h
  | tagWindow => exact .execTagWindow h
  | adj => exact .execAdj h
  | adjFloodTimer => exact .execAdjFloodTimer h
  | adjReportExpiry => exact .execAdjReportExpiry h
  | routeRecompute => exact .execRouteRecompute h
  | routeTransitionEnd => exact .execRouteTransitionEnd h
  | fabricTransit => exact .execFabricTransit h
  | transitWaitExpiry => exact .execTransitWaitExpiry h
  | get => exact .execGet h
  | put => exact .execPut h
  | remotePost => exact .execRemotePost h
  | contrib => exact .execContrib h
  | batch => exact .execBatch h
  | tack => exact .execTack h
  | remoteResponse => exact .execRemoteResponse h
  | transportRetransmit => exact .execTransportRetransmit h
  | deliveryTimeout => exact .execDeliveryTimeout h
  | remoteMarkExpiry => exact .execRemoteMarkExpiry h
  | versionDowngrade => exact .execVersionDowngrade h
  | accession => exact .execAccession h
  | accessionTimeout => exact .execAccessionTimeout h
  | gateOffer => exact .execGateOffer h
  | slotReturn => exact .execSlotReturn h
  | gatePacket => exact .execGatePacket h
  | siteWindowRequest => exact .execSiteWindowRequest h
  | chipletAnswer => exact .execChipletAnswer h
  | graftTimeout => exact .execGraftTimeout h
  | sinkLimitMiss => exact .execSinkLimitMiss h
  | gftSiteReset => exact .execGftSiteReset h
  | siteResetTimer => exact .execSiteResetTimer h
  | gftWinWrite => exact .execGftWinWrite h
  | graftPowerWindow => exact .execGraftPowerWindow h
  | graftThermal => exact .execGraftThermal h
  | getVersion => exact .execGetVersion h
  | getCapabilities => exact .execGetCapabilities h
  | negotiateAlgorithms => exact .execNegotiateAlgorithms h
  | getDigests => exact .execGetDigests h
  | getCertificate => exact .execGetCertificate h
  | challenge => exact .execChallenge h
  | getMeasurements => exact .execGetMeasurements h
  | keyExchange => exact .execKeyExchange h
  | finish => exact .execFinish h
  | heartbeat => exact .execHeartbeat h
  | keyUpdate => exact .execKeyUpdate h
  | endSession => exact .execEndSession h
  | chunkSend => exact .execChunkSend h
  | chunkGet => exact .execChunkGet h
  | ideKm => exact .execIdeKm h
  | keyRelease => exact .execKeyRelease h
  | keyErase => exact .execKeyErase h
  | approve => exact .execApprove h
  | approveWithdraw => exact .execApproveWithdraw h
  | releaseFetch => exact .execReleaseFetch h
  | getTdispVersion => exact .execGetTdispVersion h
  | getTdispCapabilities => exact .execGetTdispCapabilities h
  | lockInterfaceRequest => exact .execLockInterfaceRequest h
  | startInterfaceRequest => exact .execStartInterfaceRequest h
  | stopInterfaceRequest => exact .execStopInterfaceRequest h
  | lockedRegisterWrite => exact .execLockedRegisterWrite h
  | tlsHandshake => exact .execTlsHandshake h
  | bind => exact .execBind h
  | sessionIdleTimeout => exact .execSessionIdleTimeout h
  | regRead => exact .execRegRead h
  | regWrite => exact .execRegWrite h
  | ownerClaim => exact .execOwnerClaim h
  | ownerSetAnchor => exact .execOwnerSetAnchor h
  | ownerSetOperatorKey => exact .execOwnerSetOperatorKey h
  | ownerSetUpdateLock => exact .execOwnerSetUpdateLock h
  | ownerSetEh1608Path => exact .execOwnerSetEh1608Path h
  | lcRequest => exact .execLcRequest h
  | lcStepDone => exact .execLcStepDone h
  | debugChallenge => exact .execDebugChallenge h
  | debugNonceExpiry => exact .execDebugNonceExpiry h
  | debugGrant => exact .execDebugGrant h
  | debugGranted => exact .execDebugGranted h
  | jtagInstruction => exact .execJtagInstruction h
  | eh1608Unlock => exact .execEh1608Unlock h
  | updBegin => exact .execUpdBegin h
  | updData => exact .execUpdData h
  | updEnd => exact .execUpdEnd h
  | activate => exact .execActivate h
  | standbyBootDone => exact .execStandbyBootDone h
  | healthOk => exact .execHealthOk h
  | healthCheckFail => exact .execHealthCheckFail h
  | confirm => exact .execConfirm h
  | abort => exact .execAbort h
  | status => exact .execStatus h
  | confirmWindowExpiry => exact .execConfirmWindowExpiry h
  | updMboxCmd => exact .execUpdMboxCmd h
  | coreError => exact .execCoreError h
  | tileFault => exact .execTileFault h
  | handoverDone => exact .execHandoverDone h
  | recoveryDone => exact .execRecoveryDone h
  | txnTimeout => exact .execTxnTimeout h
  | heartbeatMiss => exact .execHeartbeatMiss h
  | lockstepError => exact .execLockstepError h
  | standbyRestored => exact .execStandbyRestored h
  | curReplaceClear => exact .execCurReplaceClear h
  | curBistCmd => exact .execCurBistCmd h
  | bistDone => exact .execBistDone h
  | curRotate => exact .execCurRotate h
  | pwrOkRise => exact .execPwrOkRise h
  | perstN => exact .execPerstN h
  | hotReset => exact .execHotReset h
  | bootStepDone => exact .execBootStepDone h
  | powerLoss => exact .execPowerLoss
  | refclkLoss => exact .execRefclkLoss h
  | refclkGoodTimer => exact .execRefclkGoodTimer h
  | restEntry => exact .execRestEntry h
  | restExit => exact .execRestExit h
  | pwrStateReqEnter => exact .execPwrStateReqEnter h
  | pwrStateReqExit => exact .execPwrStateReqExit h
  | pmcsrWrite => exact .execPmcsrWrite h
  | deepRestExitDone => exact .execDeepRestExitDone h
  | throttleWindow => exact .execThrottleWindow h
  | thermalTrip => exact .execThermalTrip h
  | pwrOkFall => exact .execPwrOkFall h
  | perstNRise => exact .execPerstNRise h
  | fabricLinkSend => exact .execFabricLinkSend h
  | deepRestEntered => exact .execDeepRestEntered h
  | memCeThreshWrite => exact .execMemCeThreshWrite h

theorem step_cons {c : Instr} {rest : List Instr} (h : s.pending = c :: rest) :
    step s = Machine.exec c { s with pending := rest } := by
  rw [step, h]

theorem step_nil (h : s.pending = []) : step s = .next s := by
  rw [step, h]

theorem Res.Canon.step (h : s.Canon) : Res.Canon (step s) := by
  cases hs : s.pending with
  | nil => exact step_nil hs ▸ .next h
  | cons c rest => exact step_cons hs ▸ .exec h.upd

/-- Settles O60: a step is the command at the head of the queue, and no command writes memory or poison but through the operations that keep them canonical. -/
theorem everyStepKeepsMemoryCanonical : Obligations.EveryStepKeepsMemoryCanonical := by
  unfold Obligations.EveryStepKeepsMemoryCanonical
  intro s t hm hp ht
  obtain ⟨hm', hp'⟩ := (Res.Canon.step ⟨hm, hp⟩).canon t ht
  exact ⟨hm', hp'⟩

end Sys2Proof.Machine
end

section
/-! PROOFS. The memory controller of a tile: what an update of it leaves alone, its queues' occupancy and the queue level of R175. -/

namespace Sys2Proof

/-- What a value read through `g` keeps when a change of each entry keeps it. -/
theorem Tab.look_each_of {α β : Type} (t : Tab α) {f : Nat → α → α} (g : α → β) (k : Nat)
    (hg : ∀ e, g (f k e) = g e) (e : α) :
    g (Tab.look (Tab.each t f) k e) = g (Tab.look t k e) := by
  induction t with
  | nil => rfl
  | cons x t ih =>
    simp only [Tab.each, List.map_cons, Tab.look]
    split
    next h => exact h ▸ hg x.2
    next =>
      split
      · rfl
      · exact ih

end Sys2Proof

namespace Sys2Proof.Machine

variable {s : State} {d l : Nat} {m m' : MemCtl}

/-- `s` with the memory controller of tile `d` holding `m`, and nothing else changed. -/
def State.withCtl (s : State) (d : Nat) (m : MemCtl) : State :=
    { s with tiles := s.tiles.put d { s.tile d with mem := m } }

theorem modMem_eq (hd : isTileDie d = true) (f : MemCtl → MemCtl) : s.modMem d f = s.withCtl d (f (s.tile d).mem) := by
  rw [State.modMem, State.modTile, if_pos hd, State.withCtl]

@[simp] theorem tile_withCtl : (s.withCtl d m).tile d = { s.tile d with mem := m } := Tab.look_put_same ..

theorem tile_withCtl_ne {e : Nat} (h : e ≠ d) : (s.withCtl d m).tile e = s.tile e := Tab.look_put_ne _ h ..

@[simp] theorem withCtl_withCtl : (s.withCtl d m).withCtl d m' = s.withCtl d m' := by simp [State.withCtl, State.tile]

@[simp] theorem stack_withCtl : (s.withCtl d m).stack l = s.stack l := rfl

@[simp] theorem isGuarded_withCtl (off : Nat) : (s.withCtl d m).isGuarded l off = s.isGuarded l off := rfl

@[simp] theorem secPois_withCtl (k : Nat) : (s.withCtl d m).secPois k = s.secPois k := rfl

@[simp] theorem stripeOf_withCtl (off : Nat) : (s.withCtl d m).stripeOf l off = s.stripeOf l off := rfl

@[simp] theorem rebuilding_withCtl (off : Nat) : (s.withCtl d m).rebuilding l off = s.rebuilding l off := rfl

/-- The entries that the controller counts are the sum of its queues' lengths. -/
theorem used_eq_sum (m : MemCtl) : m.used = (m.pcs.map (fun c => c.2.rq.length + c.2.wq.length)).sum := by
  have hfold (l : Tab PseudoCh) (n : Nat) : l.foldl (fun n c => n + c.2.rq.length + c.2.wq.length) n
      = n + (l.map (fun c => c.2.rq.length + c.2.wq.length)).sum := by
    induction l generalizing n with
    | nil => rfl
    | cons c l ih => rw [List.foldl_cons, ih, List.map_cons, List.sum_cons, Nat.add_assoc, Nat.add_assoc, Nat.add_assoc]
  rw [MemCtl.used, hfold, Nat.zero_add]

/-- The queue level of a controller (R175). -/
def MemCtl.level (m : MemCtl) : Nat := min 7 (8 * m.used / 2560)

/-- `s` with every regulator holding level `v` of stack `l`. -/
def State.withLevels (s : State) (l v : Nat) : State :=
    { s with masters := s.masters.each (fun _ x => { x with levels := x.levels.put l v }) }

@[simp] theorem tile_withLevels (l v e : Nat) : (s.withLevels l v).tile e = s.tile e := rfl

theorem levels_withLevels_same {v : Nat} {e : Nat × Master} (h : e ∈ (s.withLevels l v).masters) :
    e.2.levels.look l 0 = v := by
  obtain ⟨x, -, rfl⟩ := List.mem_map.mp h
  exact Tab.look_put_same ..

theorem levels_withLevels_ne {k : Nat} (h : k ≠ l) (v i : Nat) :
    ((s.withLevels l v).masters.look i {}).levels.look k 0 = (s.masters.look i {}).levels.look k 0 :=
  Tab.look_each_of s.masters (f := fun _ x => { x with levels := x.levels.put l v }) (fun x => x.levels.look k 0) i
    (fun x => Tab.look_put_ne x.levels h v 0) {}

/-- A broadcast shows the level in its register and hands it to every regulator. -/
theorem exec_queueLevelBroadcast (hup : s.isUp = true) (hd : isTileDie d = true) (hl : s.lsOf d = some l) :
    exec (.queueLevelBroadcast d) s = .next ((s.withCtl d
        { (s.tile d).mem with qlevel := BitVec.ofNat 64 (s.tile d).mem.level }).withLevels l
        (s.tile d).mem.level) := by
  have heq : exec (.queueLevelBroadcast d) s = execQueueLevelBroadcast d s := rfl
  simp only [heq, execQueueLevelBroadcast, upDo_up hup, hl, modMem_eq hd]
  rfl

/-- Settles O47: the occupancy that the controller adds up is the sum of its queues' lengths, and a broadcast writes one register and one level of each regulator. -/
theorem queueLevelIsEightTimesOccupancyOver2560 : Obligations.QueueLevelIsEightTimesOccupancyOver2560 := by
  unfold Obligations.QueueLevelIsEightTimesOccupancyOver2560
  intro s d l q hup hd hl hq
  have hlevel : (s.tile d).mem.level = min 7 (8 * q / 2560) := by rw [MemCtl.level, used_eq_sum, hq]
  rw [← hlevel]
  exact ⟨_, exec_queueLevelBroadcast hup hd hl, by simp, fun _ => levels_withLevels_same,
    fun k hk => levels_withLevels_ne hk _, fun e he => by simp [tile_withCtl_ne he],
    by simp, rfl⟩

end Sys2Proof.Machine
end

section
/-! PROOFS. What passes with time at a controller: floor windows, refresh, the scrub and the windows of corrected errors (R174, R175, R184, R185, R186). -/

namespace Sys2Proof.Machine

variable {s : State} {d p ls off : Nat} {m : MemCtl} {c : PseudoCh}

/-! ### Pseudo-channels -/

/-- `s` with pseudo-channel `p` of tile `d` holding `c`, and nothing else changed. -/
def State.withPch (s : State) (d p : Nat) (c : PseudoCh) : State :=
    s.withCtl d { (s.tile d).mem with pcs := (s.tile d).mem.pcs.put p c }

theorem modPch_eq (hd : isTileDie d = true) (hp : p < 32) (f : PseudoCh → PseudoCh) :
    s.modPch d p f = s.withPch d p (f (s.pch d p)) := by
  rw [State.modPch, if_pos hp, modMem_eq hd, State.withPch, State.pch]

theorem pch_withCtl : (s.withCtl d m).pch d p = m.pcs.look p {} := by rw [State.pch, tile_withCtl]

@[simp] theorem pch_withPch : (s.withPch d p c).pch d p = c := by rw [State.withPch, pch_withCtl, Tab.look_put_same]

theorem pch_withPch_ne {q : Nat} (h : q ≠ p) : (s.withPch d p c).pch d q = s.pch d q :=
    by rw [State.withPch, pch_withCtl, Tab.look_put_ne _ h, State.pch]

theorem exec_floorWindow (hup : s.isUp = true) (hd : isTileDie d = true) :
    exec (.floorWindow d) s = .next
        (s.withCtl d
        { (s.tile d).mem with pcs := (s.tile d).mem.pcs.each (fun _ c => { c with served := [] }) }) := by
  have heq : exec (.floorWindow d) s = execFloorWindow d s := rfl
  rw [heq, execFloorWindow, upDo_up hup, modMem_eq hd]

theorem exec_refresh {b : Nat} (hup : s.isUp = true) (hd : isTileDie d = true) (hp : p < 32)
    (hb : b < 64) (hself : bit (s.tile d).mem.status 1 = false) :
    exec (.refresh d p b) s = .next
        (s.withPch d p
        { s.pch d p with postponed := (s.pch d p).postponed.put b (min 8 ((s.pch d p).postponed.look b 0 + 1)) }) :=
        by
  have heq : exec (.refresh d p b) s = execRefresh d p b s := rfl
  simp only [heq, execRefresh, upDo_up hup, hd, hself, hb, decide_true, Bool.not_false,
      Bool.and_self, if_true, modPch_eq hd hp]

/-! ### Sector reads -/

/-- A read of a sector counts the severity output of its on-die ECC. -/
theorem odeccRead_eq (hdie : (s.stack ls).die = d) (hd : isTileDie d = true) : s.odeccRead ls =
    ({ s with tick := s.tick + 1 } : State).withCtl d
        { (s.tile d).mem with odecc := satAdd (s.tile d).mem.odecc (Config.free s.tick % 2) } := by
  subst hdie
  unfold State.odeccRead State.draw
  exact modMem_eq (s := { s with tick := s.tick + 1 }) hd _

@[simp] theorem odeccRead_poison : (s.odeccRead ls).poison = s.poison := modMem_poison ..

@[simp] theorem secPois_odeccRead (k : Nat) : (s.odeccRead ls).secPois k = s.secPois k :=
    by simp only [State.secPois, odeccRead_poison]

/-- A clean sector without poison is read with no other effect. -/
theorem secRead_clean (h : s.secPois ((lsBase ls + off) / 32) = false) : s.secRead ls off .clean = s.odeccRead ls := by
  have hclean : ¬ (s.odeccRead ls).secPois ((lsBase ls + off) / 32) = true := by simp [h]
  unfold State.secRead
  dsimp only
  rcases (s.odeccRead ls).stripeOf ls off with _ | ⟨p, ms⟩
  · exact if_neg hclean
  · exact if_neg hclean

theorem exec_patrolScrub {o : Nat} (hup : s.isUp = true) (hserved : s.served ls = true)
    (hdie : (s.stack ls).die = d) (hd : isTileDie d = true)
    (hcur : (s.tile d).mem.scrub = BitVec.ofNat 64 (32 * o)) (ho : 32 * o < 0x8_0000_0000)
    (hre : s.rebuilding ls (32 * o) = false) (hpois : s.secPois ((lsBase ls + 32 * o) / 32) = false) :
    exec (.patrolScrub ls .clean) s = .next (({ s with tick := s.tick + 1 } : State).withCtl d { (s.tile d).mem with
      odecc := satAdd (s.tile d).mem.odecc (Config.free s.tick % 2), scrub :=
          BitVec.ofNat 64 ((32 * o + 32) % 0x8_0000_0000) }) := by
  have hoff : bits (BitVec.ofNat 64 (32 * o)) 34 5 * 32 = 32 * o := by rw [bits_ofNat (by omega)]; omega
  have heq : exec (.patrolScrub ls .clean) s = execPatrolScrub ls .clean s := rfl
  simp only [heq, execPatrolScrub, upDo_up hup, hdie, hcur, hoff, hserved, hre, Bool.not_true,
      Bool.or_self, if_neg Bool.false_ne_true, secRead_clean hpois,
    odeccRead_eq hdie hd, modMem_eq hd, tile_withCtl, withCtl_withCtl]

/-! ### Windows of corrected errors -/

/-- The end of a window that holds no cause. -/
theorem ceEnd_unheld (h : s.flt.ceHolds ≠ d) : s.ceEnd d = s.modMem d
    (fun m => { m with ceCount := 0, reported := false }) := by
  simp only [State.ceEnd, modMem_flt, if_neg h]

/-- The threshold is not crossed: it is 0, or the count lies under it. -/
theorem ceCheck_under (h : bits (s.tile d).mem.ceThresh 31 0 = 0 ∨ (s.tile d).mem.ceCount.toNat <
    bits (s.tile d).mem.ceThresh 31 0) : s.ceCheck d = s := by
  rw [State.ceCheck]
  refine if_pos ?_
  simp only [Bool.or_eq_true, beq_iff_eq, decide_eq_true_eq]
  omega

theorem exec_ceWindowEnd (hup : s.isUp = true) (hd : isTileDie d = true) :
    exec (.ceWindowEnd d) s = .next (s.ceEnd d) := by
  have heq : exec (.ceWindowEnd d) s = execCeWindowEnd d s := rfl
  rw [heq, execCeWindowEnd, upDo_up hup, if_pos hd]

theorem exec_memCeWindowWrite_valid (hup : s.isUp = true) (hd : isTileDie d = true) {q : Port}
    (hq : q = .pf ∨ q = .mgmt) {v : BitVec 64}
    (h1 : 1 ≤ bits v 31 0) (h2 : bits v 31 0 ≤ 86400000) :
    exec (.memCeWindowWrite q d v) s = .next ((s.modMem d
        (fun m => { m with ceWindow := BitVec.ofNat 64 (bits v 31 0) })).ceEnd d) := by
  have heq : exec (.memCeWindowWrite q d v) s = execMemCeWindowWrite q d v s := rfl
  rw [heq, execMemCeWindowWrite, upDo_up hup]
  rcases hq with rfl | rfl <;> simp [hd, h1, h2]

theorem exec_memCeWindowWrite_invalid (hup : s.isUp = true) {v : BitVec 64}
    (h : bits v 31 0 = 0 ∨ 86400000 < bits v 31 0) :
    exec (.memCeWindowWrite .pf d v) s = .next s := by
  have heq : exec (.memCeWindowWrite .pf d v) s = execMemCeWindowWrite .pf d v s := rfl
  rw [heq, execMemCeWindowWrite, upDo_up hup]
  have hout : ¬ (1 ≤ bits v 31 0 ∧ bits v 31 0 ≤ 86400000) := by omega
  simp [and_assoc, hout]

theorem exec_memCeThreshWrite_pf (hup : s.isUp = true) (hd : isTileDie d = true) (v : BitVec 64) :
    exec (.memCeThreshWrite .pf d v) s = .next ((s.modMem d
        (fun m => { m with ceThresh := BitVec.ofNat 64 (bits v 31 0) })).ceCheck d) := by
  have heq : exec (.memCeThreshWrite .pf d v) s = execMemCeThreshWrite .pf d v s := rfl
  rw [heq, execMemCeThreshWrite, upDo_up hup]
  simp [hd]

/-- No compartment's port reaches the error registers. -/
theorem exec_memCeWrite_vf (hup : s.isUp = true) (f : Nat) (v : BitVec 64) :
    exec (.memCeWindowWrite (.vf f) d v) s = .next (s.portDenied (.vf f) 0x500040) ∧
    exec (.memCeThreshWrite (.vf f) d v) s = .next (s.portDenied (.vf f) 0x500048) := by
  have hwin : exec (.memCeWindowWrite (.vf f) d v) s = execMemCeWindowWrite (.vf f) d v s := rfl
  have hthresh : exec (.memCeThreshWrite (.vf f) d v) s = execMemCeThreshWrite (.vf f) d v s := rfl
  rw [hwin, hthresh, execMemCeWindowWrite, execMemCeThreshWrite, upDo_up hup, upDo_up hup]
  exact ⟨rfl, rfl⟩

/-! ### The obligation -/

/-- Settles O21: each command is one update of the controller, and a sector without poison that reads clean changes only the count of its on-die ECC. -/
theorem controllersCountRefreshAndScrub : Obligations.ControllersCountRefreshAndScrub := by
  unfold Obligations.ControllersCountRefreshAndScrub
  intro s d hup hd
  refine ⟨fun p => ⟨_, exec_floorWindow hup hd, ?floor⟩, fun l hl =>
      ⟨_, exec_queueLevelBroadcast hup hd hl, by simp [MemCtl.level], fun _ => levels_withLevels_same, rfl⟩,
    fun p b hp hb hself => ⟨_, exec_refresh hup hd hp hb hself, by simp, fun k hk => by simp [hk], rfl⟩,
    fun ls o hserved hdie hcur ho hre hpois => ?scrub, fun hheld =>
        ⟨?window, fun v h1 h2 => ?windowWrite⟩, fun v h => exec_memCeWindowWrite_invalid hup h,
    fun v h => ?thresh, fun f v => exec_memCeWrite_vf hup f v⟩
  case floor =>
    have hlook : (s.withCtl d
        { (s.tile d).mem with pcs := (s.tile d).mem.pcs.each (fun _ c => { c with served := [] }) }).pch
        d p = { s.pch d p with served := [] } :=
      pch_withCtl.trans (Tab.look_each _ (fun _ (c : PseudoCh) => { c with served := [] }) p rfl)
    exact ⟨by rw [hlook], by rw [hlook], by rw [hlook], rfl⟩
  case scrub => exact ⟨_, exec_patrolScrub hup hserved hdie hd hcur ho hre hpois, rfl, by simp⟩
  case window => rw [exec_ceWindowEnd hup hd, ceEnd_unheld hheld]
  case windowWrite =>
    have hend : (s.modMem d (fun m => { m with ceWindow := BitVec.ofNat 64 (bits v 31 0) })).ceEnd d
        = s.modMem d (fun m =>
            { m with ceWindow := BitVec.ofNat 64 (bits v 31 0), ceCount := 0, reported := false }) := by
      rw [ceEnd_unheld (by simpa using hheld)]
      simp only [modMem_eq hd, tile_withCtl, withCtl_withCtl]
    exact ⟨hend ▸ exec_memCeWindowWrite_valid hup hd (.inl rfl) h1 h2, hend ▸
        exec_memCeWindowWrite_valid hup hd (.inr rfl) h1 h2⟩
  case thresh =>
    have hbits : bits (BitVec.ofNat 64 (bits v 31 0)) 31 0 = bits v 31 0 := by
      have hlt := bits_lt v 31 0
      rw [bits_ofNat (by omega)]
      omega
    rw [exec_memCeThreshWrite_pf hup hd, ceCheck_under]
    simpa only [modMem_eq hd, tile_withCtl, hbits] using h

end Sys2Proof.Machine
end

section
/-! PROOFS. Events and reports leave memory, tiles and stacks alone; a poisoned or corrected sector is written in the controller's registers (R178 to R180, R186). -/

namespace Sys2Proof.Machine

variable {s t u : State} {d p ls off : Nat}

/-! ### Events and reports -/

/-- From `s` to `t` only compartments, faults, outputs and the count of free values have changed. -/
def State.tells (s t : State) : Prop := ∃ k o c f, t = { s with tick := k, out := o, cmpts := c, flt := f }

theorem tells_refl (s : State) : s.tells s := ⟨s.tick, s.out, s.cmpts, s.flt, rfl⟩

theorem tells_trans (h : s.tells t) (h' : t.tells u) : s.tells u := by
  obtain ⟨_, _, _, _, rfl⟩ := h
  obtain ⟨_, _, _, _, rfl⟩ := h'
  exact ⟨_, _, _, _, rfl⟩

theorem tells_foldl {α : Type} {f : State → α → State} (hf : ∀ (t : State) x, t.tells (f t x))
    (l : List α) (s : State) : s.tells (l.foldl f s) := by
  induction l generalizing s with
  | nil => exact tells_refl s
  | cons x l ih => exact tells_trans (hf s x) (ih _)

theorem tells_emit (s : State) (o : Out) : s.tells (s.emit o) := ⟨s.tick, s.out ++ [o], s.cmpts, s.flt, rfl⟩

theorem tells_modCmpt (s : State) (c : Nat) (f : Cmpt → Cmpt) : s.tells (s.modCmpt c f) := by
  unfold State.modCmpt
  split
  · exact ⟨s.tick, s.out, _, s.flt, rfl⟩
  · exact tells_refl s

theorem tells_raise (s : State) (fn v : Nat) : s.tells (s.raise fn v) := by
  unfold State.raise
  dsimp only
  split
  · exact tells_refl s
  · split
    · exact tells_modCmpt ..
    · exact tells_emit ..

theorem tells_eventX (s : State) (fn code src : Nat) (detail : BitVec 64) (extra : Nat) :
    s.tells (s.eventX fn code src detail extra) := by
  unfold State.eventX
  dsimp only
  split
  · exact tells_refl s
  · split
    · exact tells_modCmpt ..
    · split
      · exact tells_trans (tells_trans (tells_emit ..) (tells_modCmpt ..)) (tells_raise ..)
      · exact tells_trans (tells_emit ..) (tells_modCmpt ..)

theorem tells_report (s : State) (code reason die unit lstack count off len : Nat) (detail : BitVec 64) :
    s.tells (s.report code reason die unit lstack count off len detail) :=
  ⟨s.tick + 1, s.out, s.cmpts, _, rfl⟩

theorem tells_replaceCause (s : State) (b : Nat) : s.tells (s.replaceCause b) := by
  unfold State.replaceCause
  refine tells_trans (tells_trans ⟨s.tick, s.out, s.cmpts, _, rfl⟩ (tells_foldl ?_ _ _)) (tells_eventX ..)
  exact fun _ _ => tells_emit ..

theorem tells_poisonEvent (s : State) (ls off n : Nat) : s.tells (s.poisonEvent ls off n) := by
  have h := tells_foldl (f := fun t (p : Nat × Nat) => t.eventX p.1 0x3001 ls (BitVec.ofNat 64 p.2)
      n) (fun t p => tells_eventX ..)
  unfold State.poisonEvent
  dsimp only
  split
  · exact h _ s
  · exact tells_trans (h _ s) (tells_eventX ..)

theorem tells_tiles (h : s.tells t) : t.tiles = s.tiles := by
  obtain ⟨_, _, _, _, rfl⟩ := h
  rfl

/-! ### What a claim reads of a state -/

theorem pch_congr (h : t.tiles = s.tiles) (d p : Nat) : t.pch d p = s.pch d p := by simp only [State.pch, State.tile, h]

theorem rebuilding_congr (hstripes : t.stripes = s.stripes) (hstk : t.stk = s.stk) (ls off : Nat) :
    t.rebuilding ls off = s.rebuilding ls off := by
  simp only [State.rebuilding, hstripes, hstk]

theorem stripeOf_congr (h : t.guarded = s.guarded) (ls off : Nat) :
    t.stripeOf ls off = s.stripeOf ls off := by simp only [State.stripeOf, h]

/-- An update of a controller that keeps its queues. -/
theorem pch_modMem {f : MemCtl → MemCtl} (hf : ∀ m, (f m).pcs = m.pcs) (s : State) (e d p : Nat) :
    (s.modMem e f).pch d p = s.pch d p := by
  by_cases he : isTileDie e = true
  · by_cases hde : d = e
    · rw [modMem_eq he, hde, pch_withCtl, hf, State.pch]
    · rw [modMem_eq he, State.pch, tile_withCtl_ne hde, State.pch]
  · rw [State.modMem, State.modTile, if_neg he]

/-! ### The latest event -/

theorem logErr_eq (hdie : (s.stack ls).die = d) (hd : isTileDie d = true) (kind : Nat) :
    s.logErr ls off kind = s.withCtl d
        { (s.tile d).mem with errLog := errLogWord kind (offPc off) (s.isGuarded ls off) off } := by
  subst hdie
  exact modMem_eq hd _

/-- An update of a controller and the log of an event there. -/
theorem logErr_modMem (hdie : (s.stack ls).die = d) (hd : isTileDie d = true) (f : MemCtl → MemCtl) (kind : Nat) :
    (s.modMem d f).logErr ls off kind = s.withCtl d
        { f (s.tile d).mem with errLog := errLogWord kind (offPc off) (s.isGuarded ls off) off } := by
  have hdie' : ((s.withCtl d (f (s.tile d).mem)).stack ls).die = d := hdie
  rw [modMem_eq hd, logErr_eq hdie' hd, tile_withCtl, isGuarded_withCtl, withCtl_withCtl]

theorem bits_errLogWord {kind : Nat} (h : kind < 4) (pc off : Nat) (g : Bool) :
    bits (errLogWord kind pc g off) 63 62 = kind := by
  have hg : b2n g ≤ 1 := by cases g <;> decide
  rw [errLogWord, bits_ofNat (by omega)]
  omega

/-! ### Corrected and uncorrectable reads -/

theorem tiles_planMove (s : State) (d : Nat) (b : Bool) : (s.planMove d b).tiles = s.tiles := by
  unfold State.planMove
  split
  · split
    · rfl
    · exact modStack_tiles ..
  · rfl

theorem pch_logErr (s : State) (ls off kind d p : Nat) :
    (s.logErr ls off kind).pch d p = s.pch d p := pch_modMem (by intro; rfl) ..

theorem pch_odeccRead (s : State) (ls d p : Nat) : (s.odeccRead ls).pch d p = s.pch d p := pch_modMem (by intro; rfl) ..

theorem pch_ceCheck (s : State) (e d p : Nat) : (s.ceCheck e).pch d p = s.pch d p := by
  unfold State.ceCheck
  extract_lets _ a b _ _ u
  split
  · rfl
  · have hu : u.pch d p = s.pch d p :=
      calc u.pch d p = b.pch d p := pch_congr (tells_tiles (tells_replaceCause ..)) d p
        _ = a.pch d p := pch_congr (tells_tiles (tells_report ..)) d p
        _ = s.pch d p := pch_modMem (by intro; rfl) ..
    split
    · exact (pch_congr (tiles_planMove ..) d p).trans hu
    · exact hu

theorem pch_ceRead (s : State) (ls off d p : Nat) : (s.ceRead ls off).pch d p = s.pch d p :=
  (pch_ceCheck ..).trans ((pch_logErr ..).trans (pch_modMem (by intro; rfl) ..))

end Sys2Proof.Machine
end

section
/-! PROOFS. One sector read and one sector written: queue, decoder, memory and completion (R171, R172, R176 to R178). -/

namespace Sys2Proof.Machine

variable {s : State} {ls o k off cls prio : Nat} {l : List Byte}

/-! ### The sector and its queue -/

theorem maskedOffs_one (ho : o % 128 = 0) (hk : k < 4) : maskedOffs o (BitVec.ofNat 4 (2 ^ k)) = [o + 32 * k] := by
  have hline : o / 128 * 128 = o := by omega
  have hrange : List.range 4 = [0, 1, 2, 3] := rfl
  rw [maskedOffs, hline, hrange]
  obtain rfl | rfl | rfl | rfl : k = 0 ∨ k = 1 ∨ k = 2 ∨ k = 3 := by omega
  all_goals rfl

theorem mask_one_ne_zero (hk : k < 4) : (BitVec.ofNat 4 (2 ^ k) != 0) = true := by
  obtain rfl | rfl | rfl | rfl : k = 0 ∨ k = 1 ∨ k = 2 ∨ k = 3 := by omega
  all_goals rfl

/-- The sectors of a line lie in one pseudo-channel. -/
theorem offPc_sector (ho : o % 128 = 0) (hk : k < 4) : offPc (o + 32 * k) = offPc o := by
  have hlow : (o + 32 * k) / 2 ^ 8 = o / 2 ^ 8 := by omega
  have hhigh : (o + 32 * k) / 2 ^ 21 = o / 2 ^ 21 := by omega
  simp only [offPc, nbits, Nat.shiftRight_eq_div_pow, hlow, hhigh]

theorem offPc_lt (off : Nat) : offPc off < 32 :=
  Nat.xor_lt_two_pow (n := 5) (Nat.mod_lt _ (by decide)) (Nat.mod_lt _ (by decide))

/-- `s` with a read of sector `sec` in the queue of a pseudo-channel. -/
def State.readQueued (s : State) (d p sec cls prio : Nat) : State :=
  s.withPch d p { s.pch d p with rq := (s.pch d p).rq ++ [{ sector := sec, cls := cls % 8, prio := prio % 4 }] }

/-- `s` with a write of sector `sec` in the queue of a pseudo-channel. -/
def State.writeQueued (s : State) (d p sec cls prio : Nat) : State :=
  s.withPch d p
      { s.pch d p with wq := (s.pch d p).wq ++ [{ write := true, sector := sec, cls := cls % 8, prio := prio % 4 }] }

/-- The part of a write to one whole sector is the write. -/
theorem secParts_sector (hoff : off % 32 = 0) (hl : l.length = 32) : secParts 5 off l = [(off, l)] := by
  have hne : l.isEmpty = false := by
    cases l
    · cases hl
    · rfl
  have hmin : min l.length (32 - off % 32) = 32 := by omega
  have hrest : secParts 4 (off + 32) [] = [] := rfl
  rw [secParts, hne, if_neg Bool.false_ne_true, hmin]
  change (off, l.take 32) :: secParts 4 (off + 32) (l.drop 32) = [(off, l)]
  rw [List.take_of_length_le hl.le, List.drop_of_length_le hl.le, hrest]

/-! ### Requests tried -/

/-- The state that a try answers: what is left of the request waits. -/
def keepLeft (ls : Nat) (x : State × Option MemHold) : State :=
  match x.2 with
  | some r => x.1.modStack ls (fun t => { t with held := t.held ++ [r] })
  | none => x.1

/-- A request that finds none waiting is tried at once. -/
theorem memTry_first (h : (s.stack ls).held = []) (r : MemHold) :
    s.memTry ls r = keepLeft ls (if r.write then s.memWriteGo ls r else s.memReadGo ls r) := by
  rw [State.memTry, h]
  rfl

theorem memRefuse_unserved (h : s.served ls = false) (n : Nat) (w : Bool) : s.memRefuse ls off n w = 0x3002 := by
  simp [State.memRefuse, h]

theorem memRefuse_read {n : Nat} (h : s.served ls = true) (hn : off + n ≤ 0x8_0000_0000)
    (hclip : s.clipHit (lsBase ls + off) n = false) : s.memRefuse ls off n false = 0 := by
  simp [State.memRefuse, h, hn, hclip]

/-- A whole sector outside the guarded areas meets no parity. -/
theorem meetsParity_sector (hoff : off % 32 = 0) (hs : s.stripeOf ls off = none) : s.meetsParity ls off 32 = false := by
  have hone : (off + 32 - 1) / 2048 - off / 2048 + 1 = 1 := by omega
  have hmax : max off ((off / 2048 + 0) * 2048) = off := by omega
  have hdata : s.isParity ls off = false := by rw [State.isParity, hs]
  rw [State.meetsParity, hone, List.range_one, List.any_cons, List.any_nil, hmax, hdata]
  rfl

theorem memRefuse_write (h : s.served ls = true) (hoff : off % 32 = 0) (hlt : off < 0x8_0000_0000)
    (hs : s.stripeOf ls off = none)
    (hclip : s.clipHit (lsBase ls + off) 32 = false) : s.memRefuse ls off 32 true = 0 := by
  simp [State.memRefuse, h, meetsParity_sector hoff hs, hclip, show off + 32 ≤ 0x8_0000_0000 by omega]

end Sys2Proof.Machine
end

section
/-! PROOFS. Reads of one sector (R171, R172, R176 to R178). -/

namespace Sys2Proof.Machine

variable {s : State} {ls d off : Nat}

/-! ### The sector read -/

theorem stripeOf_odeccRead (ls' off : Nat) : (s.odeccRead ls).stripeOf ls' off = s.stripeOf ls'
    off := stripeOf_congr (modMem_guarded ..) ..

/-- A poisoned sector outside the guarded areas that decodes as poison is logged. -/
theorem secRead_poisoned (hs : s.stripeOf ls off = none)
    (h : s.secPois ((lsBase ls + off) / 32) = true) {dec : Dec} (hdec : dec ≠ .uncorrectable) :
    s.secRead ls off dec = (s.odeccRead ls).logErr ls off 3 := by
  unfold State.secRead
  simp only [stripeOf_odeccRead, hs, secPois_odeccRead, h, if_true]

theorem secRead_corrected (hs : s.stripeOf ls off = none) (h : s.secPois ((lsBase ls + off) / 32) = false) :
    s.secRead ls off .corrected = (s.odeccRead ls).ceRead ls off := by
  unfold State.secRead
  simp only [stripeOf_odeccRead, hs, secPois_odeccRead, h, if_neg Bool.false_ne_true]

/-- An uncorrectable sector outside the guarded areas is poisoned, whether it held poison or not. -/
theorem secRead_uncorrectable (hs : s.stripeOf ls off = none) :
    s.secRead ls off .uncorrectable = (s.odeccRead ls).uePoison 0 ls off := by
  unfold State.secRead
  simp only [stripeOf_odeccRead, hs, ite_self]

/-- A corrected read whose threshold is 0 is counted and logged, and no more. -/
theorem ceRead_eq (hdie : (s.stack ls).die = d) (hd : isTileDie d = true)
    (hth : bits (s.tile d).mem.ceThresh 31 0 = 0) :
    s.ceRead ls off = s.withCtl d { (s.tile d).mem with
      ceCount := satAdd (s.tile d).mem.ceCount 1, ceTotal :=
          satAdd (s.tile d).mem.ceTotal 1, errLog := errLogWord 1 (offPc off) (s.isGuarded ls off) off } := by
  rw [State.ceRead, hdie, logErr_modMem hdie hd]
  exact ceCheck_under (.inl (by rw [tile_withCtl]; exact hth))

/-- `s` with memory `m` and poison `q`, and nothing else changed. -/
def State.withMemory (s : State) (m : List Host.Cell) (q : List Nat) : State := { s with mem := m, poison := q }

/-- A sector written poisoned changes memory and poison only. -/
theorem poisonSec_wrSec_only_memory (s : State) (sec : Nat) (l : List Byte) :
    ∃ m p, (s.wrSec (32 * sec) l).poisonSec sec = s.withMemory m p ∧ p.contains sec = true := by
  obtain ⟨m, p, hw⟩ := wrSec_only_memory s (32 * sec) l
  rw [hw]
  exact ⟨_, _, rfl, by simp [setPois, mem_insNat]⟩

/-- A sector outside the guarded areas is poisoned in memory alone (R177). -/
theorem ssuPoison_unguarded {sec : Nat} (h : s.isGuarded (paLs (32 * sec)) (paOff (32 * sec)) = false) (c : Nat) :
    s.ssuPoison c sec = (s.wrSec (32 * sec) (List.replicate 32 0)).poisonSec sec := by
  have hguard : ((s.wrSec (32 * sec) (List.replicate 32 0)).poisonSec sec).isGuarded
      (paLs (32 * sec)) (paOff (32 * sec)) = false := by
    obtain ⟨m, p, hw, -⟩ := poisonSec_wrSec_only_memory s sec (List.replicate 32 0)
    exact hw ▸ h
  simp only [State.ssuPoison, ssuSec_unguarded fun _ => h, hguard, Bool.and_false, Bool.false_and,
      if_neg Bool.false_ne_true]

/-- An uncorrectable sector outside the guarded areas is written poisoned, counted, logged and reported (R179, R180). -/
theorem uePoison_tells (hdie : (s.stack ls).die = d) (hd : isTileDie d = true)
    (hguard : s.isGuarded (paLs (32 * ((lsBase ls + off) / 32)))
        (paOff (32 * ((lsBase ls + off) / 32))) = false) (c : Nat) :
    ∃ m q e, q.contains ((lsBase ls + off) / 32) = true ∧
      ((s.withMemory m q).withCtl d
          { (s.tile d).mem with ueCount := satAdd (s.tile d).mem.ueCount 1, errLog := e }).tells
          (s.uePoison c ls off) := by
  obtain ⟨m, q, hw, hq⟩ := poisonSec_wrSec_only_memory s ((lsBase ls + off) / 32) (List.replicate 32 0)
  refine ⟨m, q, errLogWord 2 (offPc off) (s.isGuarded ls off) off, hq, ?_⟩
  have hdie' : ((s.withMemory m q).stack ls).die = d := hdie
  rw [State.uePoison, ssuPoison_unguarded hguard, hw, hdie, logErr_modMem hdie' hd]
  exact tells_trans (tells_report ..) (tells_poisonEvent ..)

end Sys2Proof.Machine
end

section
/-! PROOFS. A read of one sector joins its queue, is decoded and completes (R171, R172, R176 to R178). -/

namespace Sys2Proof.Machine

variable {s : State} {ls d o k cls prio : Nat} {dec : Dec}

/-- The end of a read of the sector at `off`: it waits for a rebuild that it started, or completes with the sector's poison. -/
def State.readEnd (u : State) (ls off : Nat) (r : MemHold) : State :=
  keepLeft ls (if u.rebuilding ls off then (u, some { r with decs := [], recon := true })
    else (u.memEnd ls r.off (if u.secPois ((lsBase ls + off) / 32) then 0x3001 else 0), none))

theorem readEnd_done {u : State} {off : Nat} {r : MemHold} (h : u.rebuilding ls off = false) :
    u.readEnd ls off r = u.memEnd ls r.off (if u.secPois ((lsBase ls + off) / 32) then 0x3001 else 0) := by
  rw [State.readEnd, h, if_neg Bool.false_ne_true, keepLeft]

theorem tiles_keepLeft (ls : Nat) (x : State × Option MemHold) : (keepLeft ls x).tiles = x.1.tiles := by
  unfold keepLeft
  split
  · exact modStack_tiles ..
  · rfl

theorem pch_readEnd (u : State) (ls off : Nat) (r : MemHold) (d p : Nat) :
    (u.readEnd ls off r).pch d p = u.pch d p := by
  refine pch_congr ((tiles_keepLeft ..).trans ?_) d p
  split <;> rfl

section
variable (hup : s.isUp = true) (ho : o % 128 = 0) (hlt : o < 0x8_0000_0000) (hk : k < 4)
    (hserved : s.served ls = true) (hdie : (s.stack ls).die = d)
  (hd : isTileDie d = true) (hheld : (s.stack ls).held = []) (hclip : s.clipHit (lsBase ls + o) 128 = false)
  (hre : s.rebuilding ls (o + 32 * k) = false) (hq : (s.pch d (offPc o)).hasWrite ((o + 32 * k) / 32) = false)
include hup ho hlt hk hserved hdie hheld hclip hre hq

/-- A read with room in its queue. -/
theorem exec_memRead_room (hd : isTileDie d = true) (hroom : (s.pch d (offPc o)).rq.length < 48) :
    exec (.memRead ls o (BitVec.ofNat 4 (2 ^ k)) [dec] cls prio) s = .next
        (((s.readQueued d (offPc o) ((o + 32 * k) / 32) cls prio).secRead ls (o + 32 * k)
        dec).readEnd ls (o + 32 * k)
      { off := o, mask := BitVec.ofNat 4 (2 ^ k), decs := [dec], cls := cls, prio := prio }) := by
  have heq : exec (.memRead ls o (BitVec.ofNat 4 (2 ^ k)) [dec] cls prio) s = execMemRead ls o
      (BitVec.ofNat 4 (2 ^ k)) [dec] cls prio s := rfl
  have hline : o / 128 * 128 = o := by omega
  have hfree := memRefuse_read (off := o) (n := 128) hserved (by omega) hclip
  have hfit : ¬ 48 < (s.pch d (offPc o)).rq.length + 1 := by omega
  rw [heq, execMemRead, upDo_up hup, memTry_first hheld]
  simp only [State.memReadGo, maskedOffs_one ho hk, mask_one_ne_zero hk, hline, b2n, if_true,
      Nat.one_mul, hfree, List.any_cons, List.any_nil, Bool.or_false, hre,
    if_neg Bool.false_ne_true, ne_eq, not_true_eq_false, if_false, hdie, hq, List.filter_cons,
        List.filter_nil, Bool.not_false, List.length_singleton, hfit,
    List.zipIdx_singleton, List.foldl_cons, List.foldl_nil, modPch_eq hd (offPc_lt o)]
  rfl

/-- A read that finds its queue full waits. -/
theorem exec_memRead_full (hfull : (s.pch d (offPc o)).rq.length = 48) (decs : List Dec) :
    exec (.memRead ls o (BitVec.ofNat 4 (2 ^ k)) decs cls prio) s
      = .next (s.withStack ls
          { s.stack ls with held := [{ off := o, mask := BitVec.ofNat 4 (2 ^ k), decs := decs, cls := cls, prio := prio }] }) :=
          by
  have heq : exec (.memRead ls o (BitVec.ofNat 4 (2 ^ k)) decs cls prio) s = execMemRead ls o
      (BitVec.ofNat 4 (2 ^ k)) decs cls prio s := rfl
  have hline : o / 128 * 128 = o := by omega
  have hfree := memRefuse_read (off := o) (n := 128) hserved (by omega) hclip
  rw [heq, execMemRead, upDo_up hup, memTry_first hheld]
  simp only [State.memReadGo, maskedOffs_one ho hk, mask_one_ne_zero hk, hline, b2n, if_true,
      Nat.one_mul, hfree, List.any_cons, List.any_nil, Bool.or_false, hre,
    if_neg Bool.false_ne_true, ne_eq, not_true_eq_false, if_false, hdie, hq, List.filter_cons,
        List.filter_nil, Bool.not_false, List.length_singleton, hfull,
    Nat.lt_succ_self, keepLeft, modStack_eq (served_lt hserved), hheld, List.nil_append]

end

/-! ### What the sector read leaves alone -/

/-- From `s` to `t` only tiles and the count of free values have changed. -/
def State.tilesOnly (s t : State) : Prop := ∃ x n, t = { s with tiles := x, tick := n }

theorem tilesOnly_trans {t u : State} (h : s.tilesOnly t) (h' : t.tilesOnly u) : s.tilesOnly u := by
  obtain ⟨_, _, rfl⟩ := h
  obtain ⟨_, _, rfl⟩ := h'
  exact ⟨_, _, rfl⟩

theorem rebuilding_tilesOnly {t : State} (h : s.tilesOnly t) {ls off : Nat} :
    t.rebuilding ls off = s.rebuilding ls off := by
  obtain ⟨_, _, rfl⟩ := h
  rfl

theorem die_tilesOnly {t : State} (h : s.tilesOnly t) (ls : Nat) : (t.stack ls).die = (s.stack ls).die := by
  obtain ⟨_, _, rfl⟩ := h
  rfl

theorem tilesOnly_withCtl (s : State) (d : Nat) (m : MemCtl) : s.tilesOnly (s.withCtl d m) := ⟨_, _, rfl⟩

theorem tilesOnly_modMem (s : State) (d : Nat) (f : MemCtl → MemCtl) : s.tilesOnly (s.modMem d f) := by
  unfold State.modMem State.modTile
  split
  · exact ⟨_, _, rfl⟩
  · exact ⟨s.tiles, s.tick, rfl⟩

theorem tilesOnly_odeccRead (s : State) (ls : Nat) : s.tilesOnly (s.odeccRead ls) :=
  tilesOnly_trans ⟨s.tiles, s.tick + 1, rfl⟩ (tilesOnly_modMem _ (s.stack ls).die
      (fun m => { m with odecc := satAdd m.odecc (Config.free s.tick % 2) }))

/-- A read that changed only tiles completes with the poison its sector had. -/
theorem readEnd_tilesOnly {u : State} (h : s.tilesOnly u) {off : Nat}
    (hre : s.rebuilding ls off = false) (r : MemHold) {code : BitVec 16}
    (hcode : (if s.secPois ((lsBase ls + off) / 32) then 0x3001 else 0) = code) :
    u.readEnd ls off r =
        { s with tiles := (u.readEnd ls off r).tiles, tick := (u.readEnd ls off r).tick, out := s.out ++ [.memEnd ls r.off code] }
        ∧
    ∀ d, (u.readEnd ls off r).tile d = u.tile d := by
  have hre' : u.rebuilding ls off = false := (rebuilding_tilesOnly h).trans hre
  obtain ⟨x, n, hu⟩ := h
  have hpois : u.secPois ((lsBase ls + off) / 32) = s.secPois ((lsBase ls + off) / 32) := hu ▸ rfl
  rw [readEnd_done hre', hpois, hcode]
  subst hu
  exact ⟨rfl, fun _ => rfl⟩

/-! ### The controller of a sector read -/

variable {p sec : Nat}

theorem tilesOnly_queued : s.tilesOnly ((s.readQueued d p sec cls prio).odeccRead ls) :=
    tilesOnly_trans (tilesOnly_withCtl ..) (tilesOnly_odeccRead ..)

theorem die_queued (hdie : (s.stack ls).die = d) : (((s.readQueued d p sec cls prio).odeccRead ls).stack ls).die = d :=
  (die_tilesOnly tilesOnly_queued ls).trans hdie

/-- The controller after a read was queued and its sector's on-die ECC counted. -/
theorem mem_odeccRead_readQueued (hdie : (s.stack ls).die = d) (hd : isTileDie d = true) :
    ∃ x, (((s.readQueued d p sec cls prio).odeccRead ls).tile d).mem =
        { (s.tile d).mem with odecc := x, pcs := ((s.readQueued d p sec cls prio).tile d).mem.pcs } := by
  have hdie' : ((s.readQueued d p sec cls prio).stack ls).die = d := hdie
  rw [odeccRead_eq hdie' hd, tile_withCtl]
  simp only [State.readQueued, State.withPch, tile_withCtl]
  exact ⟨_, rfl⟩

/-! ### Reads by outcome -/

/-- The read of a clean sector changes only tiles. -/
theorem tilesOnly_secRead_clean {off : Nat} (hp : s.secPois ((lsBase ls + off) / 32) = false) :
    s.tilesOnly ((s.readQueued d p sec cls prio).secRead ls off .clean) := by
  have hp' : (s.readQueued d p sec cls prio).secPois ((lsBase ls + off) / 32) = false := hp
  rw [secRead_clean hp']
  exact tilesOnly_trans (tilesOnly_withCtl ..) (tilesOnly_odeccRead ..)

section
variable {off : Nat} (hdie : (s.stack ls).die = d) (hd : isTileDie d = true) (hs : s.stripeOf ls off = none)
include hdie hd hs

/-- The read of a sector that decodes as poison changes only tiles, and logs it. -/
theorem secRead_queued_poisoned (hp : s.secPois ((lsBase ls + off) / 32) = true) :
    s.tilesOnly ((s.readQueued d p sec cls prio).secRead ls off .clean) ∧
    bits (((s.readQueued d p sec cls prio).secRead ls off .clean).tile d).mem.errLog 63 62 = 3 := by
  have hs' : (s.readQueued d p sec cls prio).stripeOf ls off = none := hs
  have hp' : (s.readQueued d p sec cls prio).secPois ((lsBase ls + off) / 32) = true := hp
  have hdie' := die_queued (p := p) (sec := sec) (cls := cls) (prio := prio) hdie
  rw [secRead_poisoned (dec := .clean) hs' hp' nofun, logErr_eq hdie' hd]
  exact ⟨tilesOnly_trans tilesOnly_queued (tilesOnly_withCtl ..),
      by rw [tile_withCtl]; exact bits_errLogWord (by decide) ..⟩

/-- The read of a sector that decodes as corrected changes only tiles where the threshold is 0, and is counted and logged. -/
theorem secRead_queued_corrected (hp : s.secPois ((lsBase ls + off) / 32) = false)
    (hth : bits (s.tile d).mem.ceThresh 31 0 = 0) :
    s.tilesOnly ((s.readQueued d p sec cls prio).secRead ls off .corrected) ∧
    ∃ m, (((s.readQueued d p sec cls prio).secRead ls off .corrected).tile d).mem = m ∧
        m.ceCount = satAdd (s.tile d).mem.ceCount 1 ∧
      m.ceTotal = satAdd (s.tile d).mem.ceTotal 1 ∧ bits m.errLog 63 62 = 1 := by
  have hs' : (s.readQueued d p sec cls prio).stripeOf ls off = none := hs
  have hp' : (s.readQueued d p sec cls prio).secPois ((lsBase ls + off) / 32) = false := hp
  have hdie' := die_queued (p := p) (sec := sec) (cls := cls) (prio := prio) hdie
  obtain ⟨x, hmem⟩ := mem_odeccRead_readQueued (p := p) (sec := sec) (cls := cls) (prio := prio) hdie hd
  have hth' : bits (((s.readQueued d p sec cls prio).odeccRead ls).tile d).mem.ceThresh 31 0 = 0 :=
      by rw [hmem]; exact hth
  rw [secRead_corrected hs' hp', ceRead_eq hdie' hd hth']
  exact ⟨tilesOnly_trans tilesOnly_queued (tilesOnly_withCtl ..), _, congrArg Tile.mem tile_withCtl,
      by rw [hmem], by rw [hmem], bits_errLogWord (by decide) ..⟩

/-- The read of an uncorrectable sector poisons, counts and reports it. -/
theorem secRead_queued_uncorrectable (hoff : off % 32 = 0) (hlt : off < 0x8_0000_0000) :
    ∃ m q c, q.contains ((lsBase ls + off) / 32) = true ∧
    c.ueCount = satAdd (s.tile d).mem.ueCount 1 ∧ c.pcs = ((s.readQueued d p sec cls prio).tile d).mem.pcs ∧
    ((((s.readQueued d p sec cls prio).odeccRead ls).withMemory m q).withCtl d c).tells
        ((s.readQueued d p sec cls prio).secRead ls off .uncorrectable) := by
  have hs' : (s.readQueued d p sec cls prio).stripeOf ls off = none := hs
  have hdie' := die_queued (p := p) (sec := sec) (cls := cls) (prio := prio) hdie
  have haddr : 32 * ((lsBase ls + off) / 32) = lsBase ls + off := by unfold lsBase; omega
  have hguard : ((s.readQueued d p sec cls prio).odeccRead ls).isGuarded
      (paLs (32 * ((lsBase ls + off) / 32))) (paOff (32 * ((lsBase ls + off) / 32))) = false := by
    rw [haddr, paLs_lsBase hlt, paOff_lsBase hlt, State.isGuarded, stripeOf_odeccRead, hs']
    rfl
  obtain ⟨x, hmem⟩ := mem_odeccRead_readQueued (p := p) (sec := sec) (cls := cls) (prio := prio) hdie hd
  obtain ⟨m, q, e, hq, htells⟩ := uePoison_tells hdie' hd hguard 0
  rw [secRead_uncorrectable hs']
  exact ⟨m, q, _, hq, by rw [hmem], by rw [hmem], htells⟩

/-- Whatever the decoder says, the read only joins its queue. -/
theorem pch_secRead_queued (hoff : off % 32 = 0) (hlt : off < 0x8_0000_0000) (e n : Nat) :
    ((s.readQueued d p sec cls prio).secRead ls off dec).pch e n = (s.readQueued d p sec cls prio).pch e n := by
  have hs' : (s.readQueued d p sec cls prio).stripeOf ls off = none := hs
  cases dec with
  | clean =>
    cases hp : (s.readQueued d p sec cls prio).secPois ((lsBase ls + off) / 32)
    · rw [secRead_clean hp, pch_odeccRead]
    · rw [secRead_poisoned (dec := .clean) hs' hp nofun, pch_logErr, pch_odeccRead]
  | corrected =>
    cases hp : (s.readQueued d p sec cls prio).secPois ((lsBase ls + off) / 32)
    · rw [secRead_corrected hs' hp, pch_ceRead, pch_odeccRead]
    · rw [secRead_poisoned (dec := .corrected) hs' hp nofun, pch_logErr, pch_odeccRead]
  | uncorrectable =>
    obtain ⟨m, q, c, -, -, hpcs, htells⟩ := secRead_queued_uncorrectable (p := p) (sec := sec)
        (cls := cls) (prio := prio) hdie hd hs hoff hlt
    rw [pch_congr (tells_tiles htells)]
    by_cases he : e = d
    · rw [he, pch_withCtl, hpcs, State.pch]
    · rw [State.pch, tile_withCtl_ne he]
      exact pch_odeccRead ..

end

/-- A read that poisoned its sector completes with POISON. -/
theorem readEnd_tells {v u : State} {off : Nat} {m : List Host.Cell} {q : List Nat} {c : MemCtl}
    {x : BitVec 32} (h : ((v.withMemory m q).withCtl d c).tells u)
    (hre : v.rebuilding ls off = false) (hq : q.contains ((lsBase ls + off) / 32) = true)
        (hc : c.ueCount = x) (r : MemHold) :
    (u.readEnd ls off r).secPois ((lsBase ls + off) / 32) = true ∧ ((u.readEnd ls off r).tile d).mem.ueCount = x ∧
      (u.readEnd ls off r).out.getLast? = some (.memEnd ls r.off 0x3001) := by
  have htile : (u.tile d).mem = c := by rw [State.tile, tells_tiles h]; exact congrArg Tile.mem tile_withCtl
  obtain ⟨_, _, _, _, hu⟩ := h
  have hre' : u.rebuilding ls off = false := hu ▸ hre
  have hq' : u.secPois ((lsBase ls + off) / 32) = true := hu ▸ hq
  rw [readEnd_done hre', hq', if_pos rfl]
  exact ⟨hq', (congrArg MemCtl.ueCount htile).trans hc, List.getLast?_concat ..⟩

end Sys2Proof.Machine
end

section
/-! PROOFS. A write of one sector stores its bytes and joins its queue (R171, R172, R177). -/

namespace Sys2Proof.Machine

variable {s : State} {ls d o k cls prio off : Nat} {l : List Byte}

theorem lsBase_add_mod (hoff : off % 32 = 0) : (lsBase ls + off) % 32 = 0 := by
  unfold lsBase
  omega

theorem isEmpty_of_sector (hl : l.length = 32) : l.isEmpty = false := by
  cases l
  · cases hl
  · rfl

theorem ssuGo_nil (fuel : Nat) (s : State) (c a : Nat) : State.ssuGo fuel s c a [] = s := by
  cases fuel
  · rfl
  · rfl

/-- A whole sector outside the guarded areas is written to memory alone. -/
theorem ssuWr_sector (hoff : off % 32 = 0) (hlt : off < 0x8_0000_0000)
    (hs : s.stripeOf ls off = none) (hl : l.length = 32) (c : Nat) :
    s.ssuWr c (lsBase ls + off) l = s.wrSec (lsBase ls + off) l := by
  have hmin : min l.length (32 - (lsBase ls + off) % 32) = 32 := by rw [lsBase_add_mod hoff, hl]; rfl
  have hguard : s.isGuarded (paLs (lsBase ls + off)) (paOff (lsBase ls + off)) = false := by
    rw [paLs_lsBase hlt, paOff_lsBase hlt, State.isGuarded, hs]
    rfl
  simp only [State.ssuWr, State.ssuGo, isEmpty_of_sector hl, if_neg Bool.false_ne_true, hmin,
      List.take_of_length_le hl.le, List.drop_of_length_le hl.le, ssuGo_nil,
    ssuSec_unguarded fun _ => hguard]

theorem wrSec_sector (hl : l.length = 32) (a : Nat) : s.wrSec a l = s.withMemory (memPuts s.mem a l)
    (setPois s.poison (a / 32) false) := by
  rw [State.wrSec, if_pos hl, State.withMemory]

theorem secPois_setPois_false (q : List Nat) (sec : Nat) : (setPois q sec false).contains sec = false := by
  simp [setPois]

/-- A sector of a line lies in its line. -/
theorem memWrite_shape (ho : o % 128 = 0) (hl : l.length = 32) :
    (l.isEmpty || decide (128 < (o + 32 * k) % 128 + l.length)) = false := by
  rw [isEmpty_of_sector hl, Bool.false_or, decide_eq_false_iff_not]
  omega

section
variable (hup : s.isUp = true) (ho : o % 128 = 0) (hlt : o < 0x8_0000_0000) (hk : k < 4)
    (hl : l.length = 32) (hserved : s.served ls = true) (hdie : (s.stack ls).die = d)
  (hheld : (s.stack ls).held = []) (hclip : s.clipHit (lsBase ls + (o + 32 * k)) 32 = false)
  (hre : s.rebuilding ls (o + 32 * k) = false) (hs : s.stripeOf ls (o + 32 * k) = none)
include hup ho hlt hk hl hserved hdie hheld hclip hre hs

/-- A write with room in its queue. -/
theorem exec_memWrite_room (hd : isTileDie d = true) (hroom : (s.pch d (offPc o)).wq.length < 32) :
    exec (.memWrite ls (o + 32 * k) l 0 .clean cls prio) s
      = .next (((s.withMemory (memPuts s.mem (lsBase ls + (o + 32 * k)) l)
          (setPois s.poison ((lsBase ls + (o + 32 * k)) / 32) false)).writeQueued d (offPc o)
          ((o + 32 * k) / 32) cls prio).memEnd ls (o + 32 * k) 0) := by
  have heq : exec (.memWrite ls (o + 32 * k) l 0 .clean cls prio) s = execMemWrite ls (o + 32 * k) l
      0 .clean cls prio s := rfl
  have hoff : (o + 32 * k) % 32 = 0 := by omega
  have hsec : (o + 32 * k) / 32 * 32 = o + 32 * k := by omega
  have hfree := memRefuse_write hserved hoff (by omega) hs hclip
  have hfit : ¬ 32 < (s.pch d (offPc o)).wq.length + 1 := by omega
  have hguard : s.isGuarded ls (o + 32 * k) = false := by rw [State.isGuarded, hs]; rfl
  have hwrite : s.memSecWrite ls (o + 32 * k) l false .clean
      = (s.withMemory (memPuts s.mem (lsBase ls + (o + 32 * k)) l)
          (setPois s.poison ((lsBase ls + (o + 32 * k)) / 32) false), false) := by
    simp only [State.memSecWrite, if_neg Bool.false_ne_true, hl, hguard, Bool.not_false, and_self,
        if_true, hsec, hre, ssuWr_sector hoff (by omega) hs hl, wrSec_sector hl]
  have hclean (j : Nat) : (0 : BitVec 4).getLsbD j = false := BitVec.getLsbD_zero
  have hdie' (m : List Host.Cell) (q : List Nat) : ((s.withMemory m q).stack ls).die = d := hdie
  rw [heq, execMemWrite, upDo_up hup, memWrite_shape ho hl, if_neg Bool.false_ne_true, memTry_first hheld]
  simp only [State.memWriteGo, secParts_sector hoff hl, hl, hfree, List.any_cons, List.any_nil,
      Bool.or_false, hsec, hre, offPc_sector ho hk, hdie, hfit,
    if_neg Bool.false_ne_true, ne_eq, not_true_eq_false, if_false, if_true, List.length_singleton,
        State.memParts, hclean, hwrite, hdie', modPch_eq hd (offPc_lt o),
    lt_self_iff_false, decide_false, Bool.false_and, keepLeft]
  rfl

/-- A write that finds its queue full waits. -/
theorem exec_memWrite_full (hfull : (s.pch d (offPc o)).wq.length = 32) :
    exec (.memWrite ls (o + 32 * k) l 0 .clean cls prio) s
      = .next (s.withStack ls
          { s.stack ls with held := [{ write := true, off := o + 32 * k, bytes := l, pois := 0, dec := .clean, cls := cls, prio := prio }] }) :=
          by
  have heq : exec (.memWrite ls (o + 32 * k) l 0 .clean cls prio) s = execMemWrite ls (o + 32 * k) l
      0 .clean cls prio s := rfl
  have hoff : (o + 32 * k) % 32 = 0 := by omega
  have hsec : (o + 32 * k) / 32 * 32 = o + 32 * k := by omega
  have hfree := memRefuse_write hserved hoff (by omega) hs hclip
  rw [heq, execMemWrite, upDo_up hup, memWrite_shape ho hl, if_neg Bool.false_ne_true, memTry_first hheld]
  simp only [State.memWriteGo, secParts_sector hoff hl, hl, hfree, List.any_cons, List.any_nil,
      Bool.or_false, hsec, hre, offPc_sector ho hk, hdie, hfull,
    if_neg Bool.false_ne_true, ne_eq, not_true_eq_false, if_false, if_true, List.length_singleton,
        Nat.lt_succ_self, keepLeft, modStack_eq (served_lt hserved), hheld, List.nil_append]

end

end Sys2Proof.Machine
end

section
/-! PROOFS. A controller cycle issues the only request there is; and the requests of the memory system, each by its case (R171 to R173, R176 to R178). -/

namespace Sys2Proof.Machine

variable {s : State} {d p ls o off cls prio : Nat} {c : PseudoCh} {r : PcReq} {m : MemCtl}

/-! ### The cycle -/

theorem oldest_singleton (f : PcReq → Bool) (r : PcReq) : oldest f [r] = if f r then some r else none := by
  unfold oldest
  rw [List.filter_singleton]
  cases f r
  · rfl
  · rfl

/-- A read alone in its pseudo-channel is picked, by whichever rule. -/
theorem pick_only (hrq : c.rq = [r]) (hr : r.write = false) (hwq : c.wq = []) : c.pick m = some r := by
  have hfree : c.free r = true := by rw [PseudoCh.free, hr, if_neg Bool.false_ne_true]
  have hreads : [r].filter c.free = [r] := by rw [List.filter_singleton, hfree, cond_true]
  have hnone (f : PcReq → Bool) : oldest f [] = none := rfl
  have hrow : (if c.draining then (none : Option PcReq).orElse (fun _ => if c.rowOpen r then some r else none)
      else (if c.rowOpen r then some r else none).orElse (fun _ => none)) = if c.rowOpen r then some r else none := by
    cases c.draining
    · cases c.rowOpen r
      · rfl
      · rfl
    · rfl
  have hor (b : Bool) : (if b then some r else none).orElse (fun _ => some r) = some r := by
    cases b
    · rfl
    · rfl
  simp only [PseudoCh.pick, hrq, hwq, List.append_nil, hreads, List.filter_nil, oldest_singleton,
      hnone, hrow, if_true, hor]

theorem dropReq_self (r : PcReq) : dropReq [r] r = [] := by simp [dropReq, findPos]

/-- A cycle with one read and nothing postponed issues the read. -/
theorem cycle_only (hrq : c.rq = [r]) (hr : r.write = false) (hwq : c.wq = []) (hpost : c.postponed = []) :
    c.cycle m false = { c with
      draining := false, half := false, rq := [], wq := []
      openRow := c.openRow.put (offBank (32 * r.sector)) (some (offRow (32 * r.sector))), served :=
          c.served.put r.cls (c.served.look r.cls 0 + 1) } := by
  have hpick : PseudoCh.pick
      { c with draining := false, half := false, rq := [r], wq := [], postponed := [] } m =
      some r := pick_only rfl hr rfl
  simp only [PseudoCh.cycle, hwq, List.length_nil, hpost, List.find?_nil, Bool.false_and, if_neg
      Bool.false_ne_true, show ¬ 24 ≤ 0 by decide, Nat.zero_le, if_true, if_false,
    hpick, hr, hrq, dropReq_self, List.map_nil]

theorem memRetry_none (h : (s.stack ls).held = []) : s.memRetry ls = s := by
  rw [State.memRetry, h]
  rfl

theorem exec_controllerIssue_only (hup : s.isUp = true) (hp : p < 32) (hd : isTileDie d = true)
    (hself : bit (s.tile d).mem.status 1 = false) (hhot : (s.tile d).hotD ≤ 95)
    (hheld : ∀ l, s.lsOf d = some l → (s.stack l).held = []) :
        exec (.controllerIssue d p) s = .next (s.withPch d p ((s.pch d p).cycle (s.tile d).mem false)) := by
  have heq : exec (.controllerIssue d p) s = execControllerIssue d p s := rfl
  have hcold : decide (95 < (s.tile d).hotD) = false := decide_eq_false (by omega)
  have hls (x : PseudoCh) : (s.withPch d p x).lsOf d = s.lsOf d := rfl
  rw [heq, execControllerIssue, upDo_up hup]
  simp only [hd, hself, Bool.not_false, Bool.and_self, if_true, modPch_eq hd hp, hcold, hls]
  split
  next l hl => exact congrArg _ (memRetry_none (s := s.withPch d p _) (hheld l hl))
  next => rfl

/-! ### A stack that no tile serves -/

theorem exec_memRead_unserved (hup : s.isUp = true) (hserved : s.served ls = false)
    (hheld : (s.stack ls).held = []) (m : BitVec 4) (decs : List Dec) :
    exec (.memRead ls o m decs cls prio) s = .next (s.memEnd ls o 0x3002) := by
  have heq : exec (.memRead ls o m decs cls prio) s = execMemRead ls o m decs cls prio s := rfl
  rw [heq, execMemRead, upDo_up hup, memTry_first hheld, if_neg Bool.false_ne_true, State.memReadGo]
  simp only [memRefuse_unserved hserved]
  rfl

theorem exec_memWrite_unserved (hup : s.isUp = true) (hserved : s.served ls = false)
    (hheld : (s.stack ls).held = []) (ho : o % 128 = 0) {l : List Byte} (hne : l ≠ [])
    (hl : l.length ≤ 128) (q : BitVec 4) (dec : Dec) :
    exec (.memWrite ls o l q dec cls prio) s = .next (s.memEnd ls o 0x3002) := by
  have heq : exec (.memWrite ls o l q dec cls prio) s = execMemWrite ls o l q dec cls prio s := rfl
  have hshape : (l.isEmpty || decide (128 < o % 128 + l.length)) = false := by
    rw [List.isEmpty_eq_false_iff.mpr hne, Bool.false_or, decide_eq_false_iff_not]
    omega
  rw [heq, execMemWrite, upDo_up hup, hshape, if_neg Bool.false_ne_true, memTry_first hheld,
    if_pos rfl, State.memWriteGo]
  simp only [memRefuse_unserved hserved]
  rfl

/-! ### The obligation -/

/-- Settles O20: a request that nothing delays or refuses is one update of its queue and its sector, by what the decoder says; a cycle with one request picks it by whichever rule. -/
theorem memoryRequestsQueueAccessAndIssue : Obligations.MemoryRequestsQueueAccessAndIssue := by
  unfold Obligations.MemoryRequestsQueueAccessAndIssue
  intro s ls o k cls prio hup ho hlt hk
  refine ⟨fun hserved hd hheld hclip hre hs hq => ⟨fun hroom dec => ?read, fun hfull decs => ?readFull⟩,
    fun l hl hserved hd hheld hclip hre hs => ⟨fun hroom hm => ?write, fun hfull => ?writeFull⟩,
    fun hserved hheld => ⟨exec_memRead_unserved hup hserved hheld, fun l q dec hne hl =>
        exec_memWrite_unserved hup hserved hheld ho hne hl q dec⟩,
    fun d p r hp hd hself hhot hrq hr hwq hpost hheld => ?issue⟩
  case read =>
    have hoff : (o + 32 * k) % 32 = 0 := by omega
    refine ⟨_, exec_memRead_room hup ho hlt hk hserved rfl hheld hclip hre hq hd hroom, ?queue,
        ?clean, ?poisoned, ?corrected, ?uncorrectable⟩
    case queue => rw [pch_readEnd, pch_secRead_queued rfl hd hs hoff (by omega), State.readQueued, pch_withPch]
    case clean =>
      rintro rfl hp
      exact (readEnd_tilesOnly (tilesOnly_secRead_clean hp) hre _ (by rw [hp, if_neg Bool.false_ne_true])).1
    case poisoned =>
      rintro rfl hp
      obtain ⟨htiles, hlog⟩ := secRead_queued_poisoned rfl hd hs hp
      obtain ⟨heq, htile⟩ := readEnd_tilesOnly htiles hre _ (if_pos hp)
      exact ⟨by rw [htile]; exact hlog, heq⟩
    case corrected =>
      rintro rfl hp hth
      obtain ⟨htiles, m, hmem, hcount, htotal, hlog⟩ := secRead_queued_corrected rfl hd hs hp hth
      obtain ⟨heq, htile⟩ := readEnd_tilesOnly htiles hre _ (by rw [hp, if_neg Bool.false_ne_true])
      rw [htile, hmem]
      exact ⟨hcount, htotal, hlog, heq⟩
    case uncorrectable =>
      rintro rfl -
      obtain ⟨m, q, c, hpois, hcount, -, htells⟩ := secRead_queued_uncorrectable rfl hd hs hoff (by omega)
      exact readEnd_tells htells ((rebuilding_tilesOnly tilesOnly_queued).trans hre) hpois hcount _
  case readFull => exact exec_memRead_full hup ho hlt hk hserved rfl hheld hclip hre hq hfull decs
  case write =>
    refine ⟨_, exec_memWrite_room hup ho hlt hk hl hserved rfl hheld hclip hre hs hd hroom, hl ▸ memGets_memPuts hm,
      fun b hb => memGet_memPuts_ne hm (hl.symm ▸ hb), secPois_setPois_false ..,
      congrArg PseudoCh.wq (pch_withPch ..), rfl⟩
  case writeFull => exact exec_memWrite_full hup ho hlt hk hl hserved rfl hheld hclip hre hs hfull
  case issue =>
    refine ⟨_, exec_controllerIssue_only hup hp hd hself hhot hheld, ?_⟩
    simp only [cycle_only hrq hr hwq hpost, pch_withPch]
    exact ⟨trivial, trivial, Tab.look_put_same .., by simp [PseudoCh.rowOpen], fun q hne => pch_withPch_ne hne, rfl⟩

end Sys2Proof.Machine
end

section
/-! PROOFS. Parity deltas and the rebuild of a guarded sector (R182). -/

namespace Sys2Proof.Machine

variable {s : State} {ls g : Nat} {x : Delta} {l : List Delta} {m : StripeMsg} {r : RebuildTxn}
    {ms : List Nat} {dec : Dec}

/-! ### Deltas -/

/-- A delta that follows no other and meets no rebuild is met with the parity sector that the decoder reads. -/
theorem exec_parityDelta (hup : s.isUp = true) (hls : ls < 32) (hx : (s.stack ls).deltas = x :: l)
    (hre : (s.stack x.pls).rebuilds = []) (hst : s.stripes = []) :
    exec (.parityDelta ls 0 dec) s = .next (match dec with
      | .clean => (s.withStack ls { s.stack ls with deltas := l }).applyDelta x
      | .corrected => ((s.withStack ls { s.stack ls with deltas := l }).ceRead x.pls x.off).applyDelta x
      | .uncorrectable => match s.stripeOf x.pls x.off with
        | some (p, ms) => ((s.withStack ls { s.stack ls with deltas := l }).logErr p x.off 2).parityRebuild p x.off ms
        | none => s.withStack ls { s.stack ls with deltas := l }) := by
  have heq : exec (.parityDelta ls 0 dec) s = execParityDelta ls 0 s dec := rfl
  have hre' : ((s.withStack ls { s.stack ls with deltas := l }).stack x.pls).rebuilds = [] := by
    by_cases h : x.pls = ls
    · rw [h, stack_withStack]
      exact h ▸ hre
    · rw [stack_withStack_ne h]
      exact hre
  rw [heq, execParityDelta, upDo_up hup]
  simp only [State.deltaArrive, hx, hst, List.getElem?_cons_zero, List.take_zero, List.any_nil,
      if_neg Bool.false_ne_true, modStack_eq hls, List.eraseIdx_cons_zero, hre', findPos]
  rfl

theorem withMemory_mem (s : State) (m : List Host.Cell) (q : List Nat) : (s.withMemory m q).mem = m := rfl

/-- A sector written over in memory. -/
theorem memGets_wrSec {a v : Nat} (hm : memWf s.mem = true) :
    memGets (s.wrSec a (leBytes 32 v)).mem a 32 = leBytes 32 v := by
  have hgets := memGets_memPuts (l := leBytes 32 v) (a := a) hm
  rw [length_leBytes] at hgets
  rw [wrSec_sector (length_leBytes 32 v), withMemory_mem, hgets]

theorem sameMemBut_wrSec {a v : Nat} (hm : memWf s.mem = true) : SameMemBut s (s.wrSec a (leBytes 32 v)) a 32 := by
  intro b hb
  exact memGet_wrSec_ne hm (by rwa [length_leBytes])

theorem ofLe_sector_lt (m : List Host.Cell) (a : Nat) : ofLe (memGets m a 32) < 2 ^ 256 := by
  have h := ofLe_lt (memGets m a 32)
  rwa [length_memGets] at h

/-- A delta applied is the XOR of its parity sector. -/
theorem ofLe_applyDelta (hm : memWf s.mem = true) : ofLe
    ((s.applyDelta x).rd (lsBase x.pls + x.off) 32) = ofLe (s.rd (lsBase x.pls + x.off) 32) ^^^
    x.data.toNat := by
  have hlt : ofLe (s.rd (lsBase x.pls + x.off) 32) ^^^ x.data.toNat < 2 ^ 256 :=
      Nat.xor_lt_two_pow (ofLe_sector_lt ..) x.data.isLt
  rw [State.applyDelta, State.rd, memGets_wrSec hm, ofLe_leBytes]
  exact Nat.mod_eq_of_lt hlt

theorem applyDelta_only_memory (s : State) (x : Delta) :
    ∃ m p, s.applyDelta x = { s with mem := m, poison := p } := wrSec_only_memory ..

/-! ### Rebuilds -/

/-- `s` with the stripe messages `l`, and nothing else changed. -/
def State.withStripes (s : State) (l : List StripeMsg) : State := { s with stripes := l }


/-- A rebuild begun at a stack that runs none. -/
theorem modStack_push_rebuild {p : Nat} (hp : p < 32) (h : (s.stack p).rebuilds = []) (r : RebuildTxn) :
    s.modStack p (fun t => { t with rebuilds := t.rebuilds ++ [r] }) = s.withStack p
        { s.stack p with rebuilds := [r] } := by
  rw [modStack_eq hp, h]
  rfl

/-- The parity member begins a rebuild: it asks each other data member. -/
theorem exec_rebuild (hup : s.isUp = true) (hst : s.stripes = [m]) (hkind : m.kind = 0)
    (hdst : m.dst < 32) (hs : s.stripeOf m.dst m.off = some (m.dst, ms))
    (hre : (s.stack m.dst).rebuilds = []) :
    exec (.rebuild 0) s = .next { s.withStack m.dst { s.stack m.dst with
        rebuilds := [{ area := s.areaOf m.dst m.off, off := m.off, target := some m.src,
                       await := ms.filter (fun x => x != m.dst && x != m.src) }] } with
      stripes := (ms.filter (fun x => x != m.dst && x != m.src)).map
        (fun x => { kind := 1, src := m.dst, dst := x, off := m.off }) } := by
  have heq : exec (.rebuild 0) s = execRebuild 0 s := rfl
  rw [heq, execRebuild, upDo_up hup]
  simp only [hst, List.getElem?_cons_zero, hs, hkind, hre, List.any_nil, bne_self_eq_false,
      Bool.or_self, if_neg Bool.false_ne_true, List.eraseIdx_cons_zero]
  exact congrArg (fun t : State => Host.Outcome.next (t.stripeReads m.dst m.off
      (ms.filter (fun x => x != m.dst && x != m.src))))
    (modStack_push_rebuild (s := s.withStripes []) hdst hre _)

/-- A member answers with its sector, or says that it has none. -/
theorem exec_stripeRead (hup : s.isUp = true) (hst : s.stripes = [m]) (hkind : m.kind = 1)
    (hx : (s.stack m.dst).deltas = []) (hp : s.secPois ((lsBase m.dst + m.off) / 32) = false)
    (hdec : dec ≠ .corrected) : exec (.stripeRead 0 dec) s = .next
        { s with stripes := [{ kind := 2, src := m.dst, dst := m.src, off := m.off,
                               data := if dec == .uncorrectable then 0 else BitVec.ofNat 256 (ofLe (s.rd (lsBase m.dst + m.off) 32)),
                               bad := dec == .uncorrectable }] } := by
  have heq : exec (.stripeRead 0 dec) s = execStripeRead 0 dec s := rfl
  rw [heq, execStripeRead, upDo_up hup]
  simp only [hst, List.getElem?_cons_zero, hkind, hx, List.any_nil, bne_self_eq_false, Bool.or_self,
      if_neg Bool.false_ne_true, hp, Bool.false_or, List.eraseIdx_cons_zero,
    List.nil_append]

/-- A rebuild with a reply taken in. -/
def RebuildTxn.reply (r : RebuildTxn) (m : StripeMsg) : RebuildTxn :=
  { r with await := r.await.filter (· != m.src), acc := r.acc ^^^ m.data, bad := if m.bad then r.bad ++ [m.src] else r.bad }

/-- A reply is taken in; the last one ends the rebuild. -/
theorem exec_stripeReply (hup : s.isUp = true) (hst : s.stripes = [m]) (hkind : m.kind = 2)
    (hdst : m.dst < 32) (hre : (s.stack m.dst).rebuilds = [r]) (hoff : r.off = m.off)
    (hsrc : m.src ∈ r.await) : exec (.stripeReply 0 dec) s = .next (
      if (r.reply m).await.isEmpty then
        (((s.withStripes []).withStack m.dst { s.stack m.dst with rebuilds := [] }).rebuildEnd m.dst
            (r.reply m) dec).afterRebuild (r.target.getD m.dst)
      else (s.withStripes []).withStack m.dst { s.stack m.dst with rebuilds := [r.reply m] }) := by
  have heq : exec (.stripeReply 0 dec) s = execStripeReply 0 dec s := rfl
  rw [heq, execStripeReply, upDo_up hup]
  have hfind : findPos (fun x => x.off == m.off && x.await.contains m.src) [r] = some 0 := by simp [findPos, hoff, hsrc]
  have hreply : ({ s with stripes := [] } : State).modStack m.dst
      (fun t => { t with rebuilds := modNth t.rebuilds 0 (fun x => x.reply m) })
      = ({ s with stripes := [] } : State).withStack m.dst { s.stack m.dst with rebuilds := [r.reply m] } := by
    rw [modStack_eq hdst]
    change _ = ({ s with stripes := [] } : State).withStack m.dst
        { s.stack m.dst with rebuilds := modNth [r] 0 (fun x => x.reply m) }
    rw [← hre]
    rfl
  simp only [hst, List.getElem?_cons_zero, hkind, hre, hfind, bne_self_eq_false, if_neg
      Bool.false_ne_true, List.eraseIdx_cons_zero]
  simp only [RebuildTxn.reply] at hreply
  simp only [hreply, stack_withStack, List.getElem?_cons_zero, modStack_eq hdst,
      List.eraseIdx_cons_zero, withStack_withStack]
  rfl

/-- `s` with a rebuilt sector of stack `g` stored, its place in the poison list cleared and the rebuild counted. -/
def State.formed (s : State) (g off v : Nat) : State :=
  let t := (s.wrSec (lsBase g + off) (leBytes 32 v)).modStack g
      (fun y => { y with pois := y.pois.filter (· != off / 32) })
  t.modMem (t.stack g).die (fun m => { m with recon := satAdd m.recon 1 })

theorem formed_mem (s : State) (g off v : Nat) : (s.formed g off v).mem =
    (s.wrSec (lsBase g + off) (leBytes 32 v)).mem := by
  rw [State.formed, modMem_mem, modStack_mem]

theorem formed_stripes (s : State) (g off v : Nat) : (s.formed g off v).stripes = s.stripes := by
  obtain ⟨m, p, hw⟩ := wrSec_only_memory s (lsBase g + off) (leBytes 32 v)
  rw [State.formed, modMem_stripes, modStack_stripes, hw]

theorem formed_stack {p : Nat} (hg : g < 32) (h : p ≠ g) (off v : Nat) : (s.formed g off v).stack p = s.stack p := by
  obtain ⟨m, q, hw⟩ := wrSec_only_memory s (lsBase g + off) (leBytes 32 v)
  have hmem (t : State) (e : Nat) (f : MemCtl → MemCtl) : (t.modMem e f).stack p = t.stack p :=
      by rw [State.stack, modMem_stk, State.stack]
  rw [State.formed, hmem, modStack_eq hg, stack_withStack_ne h, hw, State.stack, State.stack]

/-- The end of a rebuild whose replies were all good: the sector of the target is the XOR of parity and replies. -/
theorem rebuildEnd_good {p : Nat} (htarget : r.target = some g) (hbad : r.bad = [])
    (hheld : r.held = []) (hx : (s.stack g).deltas = []) :
    (s.formed g r.off (s.memberSec p r.off ^^^ r.acc.toNat)).tells (s.rebuildEnd p r .clean) := by
  have hcorrected : (Dec.clean == Dec.corrected) = false := rfl
  have hgood : (Dec.clean != Dec.uncorrectable) = true := rfl
  unfold State.rebuildEnd
  simp only [htarget, Option.isSome_some, Bool.true_and, hcorrected, if_neg Bool.false_ne_true,
      hbad, List.isEmpty_nil, hgood, if_true, hx, List.foldl_nil, Nat.xor_zero, hheld]
  exact tells_report ..

/-- The last of a rebuild's replies, all good, writes the target's sector and nothing else of memory; no rebuild and no message is left. -/
theorem lastReply {p : Nat} (hbad : r.bad = []) (htarget : r.target = some g) (hheld : r.held = [])
    (hg : g < 32) (hne : g ≠ p) (hx : (s.stack g).deltas = []) :
    (((s.withStripes []).withStack p { s.stack p with rebuilds := [] }).rebuildEnd p r .clean).mem
      = (s.wrSec (lsBase g + r.off) (leBytes 32 (s.memberSec p r.off ^^^ r.acc.toNat))).mem ∧
    ((((s.withStripes []).withStack p { s.stack p with rebuilds := [] }).rebuildEnd p r .clean).stack p).rebuilds = [] ∧
    (((s.withStripes []).withStack p { s.stack p with rebuilds := [] }).rebuildEnd p r .clean).stripes = [] := by
  have hx' : (((s.withStripes []).withStack p { s.stack p with rebuilds := [] }).stack g).deltas =
      [] := by rw [stack_withStack_ne hne]; exact hx
  have hwr : (((s.withStripes []).withStack p { s.stack p with rebuilds := [] }).wrSec
      (lsBase g + r.off) (leBytes 32 (s.memberSec p r.off ^^^ r.acc.toNat))).mem
      = (s.wrSec (lsBase g + r.off) (leBytes 32 (s.memberSec p r.off ^^^ r.acc.toNat))).mem := by
    rw [wrSec_sector (length_leBytes ..), wrSec_sector (length_leBytes ..), withMemory_mem, withMemory_mem]
    rfl
  have hstack := formed_stack (s := (s.withStripes []).withStack p
      { s.stack p with rebuilds := [] }) hg hne.symm r.off (s.memberSec p r.off ^^^ r.acc.toNat)
  have hmem := formed_mem ((s.withStripes []).withStack p { s.stack p with rebuilds := [] }) g r.off
      (s.memberSec p r.off ^^^ r.acc.toNat)
  have hstripes := formed_stripes ((s.withStripes []).withStack p { s.stack p with rebuilds := [] })
      g r.off (s.memberSec p r.off ^^^ r.acc.toNat)
  obtain ⟨_, _, _, _, hu⟩ := rebuildEnd_good (p := p) htarget hbad hheld hx'
  rw [hu]
  exact ⟨hmem.trans hwr, (congrArg Stack.rebuilds (hstack.trans (stack_withStack ..))), hstripes⟩

/-! ### The obligation -/

/-- Settles O22: a delta is one sector write, each message of a rebuild is one change of the messages and of the parity member's rebuild, and the last reply writes the target's sector. -/
theorem parityAndRebuildFollowTheXor : Obligations.ParityAndRebuildFollowTheXor := by
  unfold Obligations.ParityAndRebuildFollowTheXor
  intro s hup hm
  refine ⟨fun ls x l hls hpls hx hre hst hoff => ⟨?delta, exec_parityDelta hup hls hx hre hst,
      fun ms hs => ?uncorrectable⟩,
    fun m ms hst hkind hdst hs hre => ⟨_, exec_rebuild hup hst hkind hdst hs hre, rfl, ?rebuild, rfl⟩,
    fun m hst hkind hx hp => ⟨exec_stripeRead hup hst hkind hx hp nofun, exec_stripeRead hup hst hkind hx hp nofun⟩,
    fun m r d hst hkind hdst hsrc hre hoff hmem hmore => ?reply,
    fun m r g hst hkind hgood hdst hg hne hre hoff hmod hlt hawait hbad hheld htarget hx => ?last⟩
  case delta =>
    obtain ⟨m, p, hmem⟩ := applyDelta_only_memory (s.withStack ls { s.stack ls with deltas := l }) x
    have hxor := ofLe_applyDelta (s := s.withStack ls { s.stack ls with deltas := l }) (x := x) hm
    have hother := sameMemBut_wrSec (s := s.withStack ls { s.stack ls with deltas := l }) (a := lsBase x.pls + x.off)
      (v := ofLe (s.rd (lsBase x.pls + x.off) 32) ^^^ x.data.toNat) hm
    refine ⟨_, exec_parityDelta hup hls hx hre hst, ?_, hxor, hother, ?_⟩
    · rw [hmem]
      exact congrArg Stack.deltas (stack_withStack ..)
    · rw [hmem]
      rfl
  case uncorrectable => rw [exec_parityDelta hup hls hx hre hst, hs]
  case rebuild => exact congrArg Stack.rebuilds (stack_withStack (s := s) ..)
  case reply =>
    obtain ⟨y, hy, hother⟩ := hmore
    have hwait : (r.reply m).await.isEmpty = false := List.isEmpty_eq_false_iff.mpr
        (List.ne_nil_of_mem (List.mem_filter.mpr ⟨hy, bne_iff_ne.mpr hother⟩))
    refine ⟨_, (exec_stripeReply hup hst hkind hdst hre hoff hmem).trans
        (by rw [hwait, if_neg Bool.false_ne_true]), rfl, ?_, rfl⟩
    exact congrArg Stack.rebuilds (stack_withStack (s := s.withStripes []) ..)
  case last =>
    have hdone : (r.reply m).await.isEmpty = true := by simp [RebuildTxn.reply, hawait]
    have hbad' : (r.reply m).bad = [] := by simp [RebuildTxn.reply, hgood, hbad]
    obtain ⟨hmem, hstk, hstripes⟩ := lastReply (s := s) hbad' htarget hheld hg hne hx
    have hacc : (r.reply m).acc.toNat = r.acc.toNat ^^^ m.data.toNat := BitVec.toNat_xor ..
    have hoff' : (r.reply m).off = m.off := hoff
    rw [hoff', hacc, ← Nat.xor_assoc] at hmem
    refine ⟨_, (exec_stripeReply hup hst hkind hdst hre hoff (by simp [hawait])).trans
        (by rw [hdone, if_pos rfl, htarget, Option.getD_some]), hstk, hstripes, ?_, ?_⟩
    · rw [State.rd, hmem, memGets_wrSec hm]
    · intro b hb
      rw [hmem]
      exact sameMemBut_wrSec hm b hb

end Sys2Proof.Machine
end

section
/-! PROOFS. A home and the messages on the mesh: what a change of one home leaves alone, and what its directory, its transactions and its queue then read (R188, R190, R195, R197). -/

namespace Sys2Proof

variable {α : Type}

/-- A table keeps what holds of any of its entries when one entry is replaced by one that meets the same. -/
theorem Tab.any_put {p : Nat × α → Bool} {k : Nat} {v d : α} (t : Tab α) (hv : p (k, v) = p (k, Tab.look t k d))
    (hd : p (k, d) = false) : (Tab.put t k v).any p = t.any p := by
  induction t with
  | nil => simpa [Tab.put] using hv.trans hd
  | cons e t ih =>
    obtain ⟨k', v'⟩ := e
    simp only [Tab.look] at hv
    simp only [Tab.put]
    split
    · rename_i hlt
      rw [if_neg (by omega), if_pos hlt] at hv
      rw [List.any_cons, hv, hd, Bool.false_or]
    · split
      · rename_i heq
        subst heq
        rw [if_pos rfl] at hv
        rw [List.any_cons, List.any_cons, hv]
      · rw [if_neg (by omega), if_neg (by omega)] at hv
        rw [List.any_cons, List.any_cons, ih hv]

/-- What was removed is not read. -/
@[simp] theorem Tab.look_del_same (t : Tab α) (k : Nat) (d : α) : Tab.look (Tab.del t k) k d = d := by
  induction t with
  | nil => rfl
  | cons e t ih =>
    obtain ⟨k', v⟩ := e
    by_cases h : k' = k
    · simpa [Tab.del, h] using ih
    · simp only [Tab.del] at ih
      simp [Tab.del, h, Tab.look, ih]

@[simp] theorem Tab.has_del_same (t : Tab α) (k : Nat) : Tab.has (Tab.del t k) k = false := by simp [Tab.has, Tab.del]

namespace Machine

variable {s : State} {h ln : Nat} {x y : Stack} {l l' : List CohMsg} {m : CohMsg}

/-! ### One home replaced -/

/-- `s` with home `h` holding `x` and the messages `l` on the mesh, and nothing else changed. -/
def State.homeTo (s : State) (h : Nat) (x : Stack) (l : List CohMsg) : State :=
  if h = 32 then { s with hubHome := x, coh := l } else { s with stk := s.stk.put h x, coh := l }

theorem modHome_eq (hh : h ≤ 32) (f : Stack → Stack) : s.modHome h f = s.homeTo h (f (s.home h)) s.coh := by
  unfold State.modHome State.homeTo State.home
  split
  · rfl
  · rw [modStack_eq (by omega)]
    rfl

@[simp] theorem homeTo_coh : (s.homeTo h x l).coh = l := by
  unfold State.homeTo
  split <;> rfl

@[simp] theorem home_homeTo : (s.homeTo h x l).home h = x := by
  unfold State.homeTo State.home
  split
  · rfl
  · exact Tab.look_put_same ..

@[simp] theorem homeTo_homeTo : (s.homeTo h x l).homeTo h y l' = s.homeTo h y l' := by
  unfold State.homeTo
  split
  · rfl
  · simp

theorem homeTo_withCoh : (s.withCoh l').homeTo h x l = s.homeTo h x l := rfl

theorem home_withCoh (k : Nat) : (s.withCoh l).home k = s.home k := rfl

theorem home_homeTo_ne {k : Nat} (hk : k ≠ h) : (s.homeTo h x l).home k = s.home k := by
  unfold State.homeTo State.home
  split
  · rw [if_neg (by omega)]
  · split
    · rfl
    · exact Tab.look_put_ne _ hk ..

theorem onlyHome_homeTo (s : State) (h : Nat) (x : Stack) (l : List CohMsg) : s.onlyHome (s.homeTo h x l) h := by
  refine ⟨?_, fun k hk => home_homeTo_ne hk⟩
  unfold State.homeTo
  split <;> rfl

@[simp] theorem modHome_homeTo (hh : h ≤ 32) (f : Stack → Stack) : (s.homeTo h x l).modHome h f = s.homeTo h (f x) l := by
  rw [modHome_eq hh, homeTo_coh, home_homeTo, homeTo_homeTo]

@[simp] theorem send_homeTo : (s.homeTo h x l).send m = s.homeTo h x (l ++ [m]) := by
  unfold State.homeTo State.send
  split <;> rfl

/-- A home keeps its die. -/
theorem homeDie_homeTo (hd : x.die = (s.home h).die) : (s.homeTo h x l).homeDie h = s.homeDie h := by
  have hx : ((s.homeTo h x l).home h).die = (s.home h).die := by rw [home_homeTo, hd]
  unfold State.homeDie
  split
  · rfl
  next hne => simpa only [State.home, if_neg hne] using hx

theorem homeTo_withMemory (s : State) (h : Nat) (x : Stack) (l : List CohMsg) (b : List Host.Cell) (q : List Nat) :
    (s.homeTo h x l).withMemory b q = (s.withMemory b q).homeTo h x l := by
  unfold State.homeTo
  split <;> rfl

@[simp] theorem homeTo_mem : (s.homeTo h x l).mem = s.mem := by
  unfold State.homeTo
  split <;> rfl

@[simp] theorem homeTo_poison : (s.homeTo h x l).poison = s.poison := by
  unfold State.homeTo
  split <;> rfl

@[simp] theorem homeTo_guarded : (s.homeTo h x l).guarded = s.guarded := by
  unfold State.homeTo
  split <;> rfl

@[simp] theorem homeTo_stripes : (s.homeTo h x l).stripes = s.stripes := by
  unfold State.homeTo
  split <;> rfl

@[simp] theorem memLine_homeTo : (s.homeTo h x l).memLine ln = s.memLine ln := by
  rw [State.memLine, State.rd, homeTo_mem]
  rfl

@[simp] theorem memPois_homeTo : (s.homeTo h x l).memPois ln = s.memPois ln := by
  have hsec (k : Nat) : (s.homeTo h x l).secPois k = s.secPois k := by rw [State.secPois, homeTo_poison, State.secPois]
  simp only [State.memPois, hsec]

theorem modHome_mem (s : State) (h : Nat) (f : Stack → Stack) : (s.modHome h f).mem = s.mem := by
  unfold State.modHome
  split
  · rfl
  · exact modStack_mem ..

theorem modHome_poison (s : State) (h : Nat) (f : Stack → Stack) : (s.modHome h f).poison = s.poison := by
  unfold State.modHome
  split
  · rfl
  · exact modStack_poison ..

theorem memLine_setDir (s : State) (h k : Nat) (e : DirEnt) : (s.setDir h k e).memLine ln = s.memLine ln := by
  rw [State.memLine, State.rd, State.setDir, modHome_mem]
  rfl

theorem memPois_setDir (s : State) (h k : Nat) (e : DirEnt) : (s.setDir h k e).memPois ln = s.memPois ln := by
  have hsec (j : Nat) : (s.setDir h k e).secPois j = s.secPois j := by rw [State.secPois, State.setDir, modHome_poison, State.secPois]
  simp only [State.memPois, hsec]

theorem meetsSec_congr {s t : State} (hg : t.guarded = s.guarded) (ps : List (Nat × Nat)) (k o : Nat) :
    t.meetsSec ps k o = s.meetsSec ps k o := by
  simp only [State.meetsSec, State.isGuarded, stripeOf_congr hg]

/-- A home keeps the rebuilds that a read waits for. -/
theorem readWaits_homeTo (hr : x.rebuilds = (s.home h).rebuilds) (ps : List (Nat × Nat)) : (s.homeTo h x l).readWaits ps = s.readWaits ps := by
  simp only [State.readWaits, homeTo_stripes, meetsSec_congr homeTo_guarded]
  congr 1
  unfold State.homeTo
  split
  · rfl
  next hne =>
    refine Tab.any_put (d := {}) s.stk ?_ rfl
    rw [hr, State.home, if_neg hne]
    rfl

@[simp] theorem dirEnt_homeTo : (s.homeTo h x l).dirEnt h ln = x.dir.look ln {} := by rw [State.dirEnt, home_homeTo]

@[simp] theorem busy_homeTo : (s.homeTo h x l).busy h ln = x.txns.has ln := by rw [State.busy, home_homeTo]

/-- What a home sends to a unit of a die about a line. -/
def State.homeMsg (s : State) (k : CohKind) (h die u ln c : Nat) (mask : BitVec 4) (d : BitVec 1024) (p : BitVec 4) (cls : BitVec 3) : CohMsg :=
  { kind := k, src := s.homeDie h, unit := u, dst := die, home := h, line := ln, mask := mask, data := d, pois := p, cmpt := c, toAgent := true, cls := cls }

/-- An answer of a home goes behind the messages on the mesh. -/
theorem answer_homeTo (hd : x.die = (s.home h).die) (k : CohKind) (die u c : Nat) (mask : BitVec 4) (d : BitVec 1024) (p : BitVec 4) (cls : BitVec 3) :
    (s.homeTo h x l).answer k h die u ln c mask d p cls = s.homeTo h x (l ++ [s.homeMsg k h die u ln c mask d p cls]) := by
  rw [State.answer, send_homeTo, homeDie_homeTo hd, State.homeMsg]

/-- A home without requests starts none. -/
theorem drainGo_empty (hq : (s.home h).hq = []) (fuel : Nat) : State.drainGo fuel s h = s := by
  cases fuel with
  | zero => rfl
  | succ fuel =>
    rw [State.drainGo, hq]
    rfl

theorem drain_empty (hq : (s.home h).hq = []) : s.drain h = s := drainGo_empty hq _

theorem drain_homeTo (hq : x.hq = []) : (s.homeTo h x l).drain h = s.homeTo h x l := drain_empty (by rw [home_homeTo, hq])

/-- The only message on the mesh is taken by a command for its kind. -/
theorem take_only (hc : s.coh = [m]) {k : CohKind} (hk : m.kind = k) : s.take 0 k = some (m, s.withCoh []) := by
  simp [State.take, hc, hk, State.withCoh]

/-- What a command for the earliest message of kind `k` does: the message leaves the mesh and `f` meets it. -/
def State.onTake (s : State) (k : CohKind) (f : CohMsg → State → State) : State :=
  match s.take 0 k with
  | some (m, t) => f m t
  | none => s

/-- What such a command answers when its message is the only one. -/
theorem exec_taken {i : Instr} {k : CohKind} {f : CohMsg → State → State} (hi : exec i s = upDo s (fun s => s.onTake k f)) (hup : s.isUp = true) (hc : s.coh = [m])
    (hk : m.kind = k) : exec i s = .next (f m (s.withCoh [])) := by
  rw [hi, upDo_up hup, State.onTake, take_only hc hk]

/-! ### Directory, transactions and queue -/

/-- A home with directory `d`, recency stamp `c`, transactions `x` and queue `q`, and nothing else changed. -/
def Stack.withHome (t : Stack) (d : Tab DirEnt) (c : Nat) (x : Tab HomeTxn) (q : List CohMsg) : Stack := { t with dir := d, clock := c, txns := x, hq := q }

/-- `s` with that of home `h`, the messages `l` on the mesh, and nothing else changed. -/
def State.homeAs (s : State) (h : Nat) (d : Tab DirEnt) (c : Nat) (x : Tab HomeTxn) (q l : List CohMsg) : State :=
  s.homeTo h ((s.home h).withHome d c x q) l

section

variable {d : Tab DirEnt} {c : Nat} {x : Tab HomeTxn} {q : List CohMsg}

theorem home_homeAs : (s.homeAs h d c x q l).home h = (s.home h).withHome d c x q := home_homeTo

@[simp] theorem homeAs_coh : (s.homeAs h d c x q l).coh = l := homeTo_coh

@[simp] theorem homeAs_mem : (s.homeAs h d c x q l).mem = s.mem := homeTo_mem

@[simp] theorem memLine_homeAs : (s.homeAs h d c x q l).memLine ln = s.memLine ln := memLine_homeTo

@[simp] theorem memPois_homeAs : (s.homeAs h d c x q l).memPois ln = s.memPois ln := memPois_homeTo

@[simp] theorem dirEnt_homeAs : (s.homeAs h d c x q l).dirEnt h ln = d.look ln {} := dirEnt_homeTo

@[simp] theorem busy_homeAs : (s.homeAs h d c x q l).busy h ln = x.has ln := busy_homeTo

theorem onlyHome_homeAs : s.onlyHome (s.homeAs h d c x q l) h := onlyHome_homeTo ..

@[simp] theorem readWaits_homeAs (ps : List (Nat × Nat)) : (s.homeAs h d c x q l).readWaits ps = s.readWaits ps := readWaits_homeTo (by rfl) ps

/-- A change of the queue. -/
theorem modHome_hq (hh : h ≤ 32) (f : List CohMsg → List CohMsg) :
    (s.homeAs h d c x q l).modHome h (fun t => { t with hq := f t.hq }) = s.homeAs h d c x (f q) l := modHome_homeTo hh _

/-- A change of the transactions. -/
theorem modHome_txns (hh : h ≤ 32) (f : Tab HomeTxn → Tab HomeTxn) :
    (s.homeAs h d c x q l).modHome h (fun t => { t with txns := f t.txns }) = s.homeAs h d c (f x) q l := modHome_homeTo hh _

/-- An entry other than I takes the next recency stamp (R190). -/
theorem setDir_owned (hh : h ≤ 32) {e : DirEnt} (he : e.st ≠ .i) :
    (s.homeAs h d c x q l).setDir h ln e = s.homeAs h (d.put ln { e with used := c + 1 }) (c + 1) x q l := by
  simp only [State.setDir, if_neg he]
  exact modHome_homeTo hh _

theorem setDir_idle (hh : h ≤ 32) : (s.homeAs h d c x q l).setDir h ln { st := .i } = s.homeAs h (d.del ln) c x q l := by
  simp only [State.setDir, if_true]
  exact modHome_homeTo hh _

theorem answer_homeAs (k : CohKind) (die u c' : Nat) (mask : BitVec 4) (b : BitVec 1024) (p : BitVec 4) (cls : BitVec 3) :
    (s.homeAs h d c x q l).answer k h die u ln c' mask b p cls = s.homeAs h d c x q (l ++ [s.homeMsg k h die u ln c' mask b p cls]) :=
  answer_homeTo (by rfl) ..

theorem drain_homeAs : (s.homeAs h d c x [] l).drain h = s.homeAs h d c x [] l := drain_homeTo rfl

end

end Machine
end Sys2Proof
end

section
/-! PROOFS. O23: coherent reads at a home that serves no other request (Table 8.4, R191, R192, R195, R197). -/

namespace Sys2Proof.Machine

variable {s t : State} {m : CohMsg} {k : CohKind} {d : Tab DirEnt} {c : Nat} {l : List CohMsg}

/-! ### The only request on the mesh arrives (R197) -/

/-- `s` with message `m` taken from the mesh into its home's queue, the transactions `x`, and the messages `l` on the mesh. -/
def State.serving (s : State) (m : CohMsg) (x : Tab HomeTxn) (l : List CohMsg) : State :=
  s.homeAs m.home (s.home m.home).dir (s.home m.home).clock x [m] l

theorem soleMsg_home (h : s.soleMsg m) : m.home ≤ 32 := by
  obtain ⟨-, hh, -⟩ := h
  exact hh

theorem arrive_sole (h : s.soleMsg m) : (s.withCoh []).arrive m = (s.serving m [] []).drain m.home := by
  obtain ⟨-, hh, hhq, htx, -⟩ := h
  rw [State.arrive, modHome_eq hh, home_withCoh, homeTo_withCoh, hhq, State.serving, State.homeAs, Stack.withHome, ← htx]
  rfl

/-- The queue's only request starts, and leaves it. -/
theorem drain_serving (h : s.soleMsg m) {x : Tab HomeTxn} (hstart : (s.serving m [] []).startReq m = (t.homeAs m.home d c x [m] l, true)) :
    (s.serving m [] []).drain m.home = t.homeAs m.home d c x [] l := by
  obtain ⟨-, hh, -, -, hrec, hroom, -, -, hwait, -⟩ := h
  have hhome : (s.serving m [] []).home m.home = (s.home m.home).withHome (s.home m.home).dir (s.home m.home).clock [] [m] := home_homeAs
  have hwait' : (s.serving m [] []).readWaits [(128 * m.line, 128)] = false := (readWaits_homeAs _).trans hwait
  have hroom' : decide (((s.serving m [] []).setEntries m.home m.line).length ≥ 16) = false := by
    rw [State.setEntries, hhome]
    exact decide_eq_false (Nat.not_le.mpr hroom)
  have hbusy : (s.serving m [] []).busy m.home m.line = false := busy_homeAs
  have hq : ((s.serving m [] []).home m.home).hq = [m] := by rw [hhome]; rfl
  have hrec' : ((s.serving m [] []).home m.home).recover = [] := by rw [hhome]; exact hrec
  have hempty : (t.homeAs m.home d c x [m] l).modHome m.home (fun u => { u with hq := u.hq.eraseIdx 0 }) = t.homeAs m.home d c x [] l := modHome_hq hh (·.eraseIdx 0)
  rw [State.drain, hq, State.drainGo, hq]
  simp only [List.zipIdx_cons, List.zipIdx_nil, findPos, hbusy, hwait', hroom', hrec', List.take_zero, List.any_nil, Bool.not_false, List.isEmpty_nil, Bool.true_or,
    Bool.and_false, Bool.false_and, Bool.and_self, if_true, List.getElem?_cons_zero, hstart, hempty]
  exact drainGo_empty (by rw [home_homeAs]; rfl) _

/-- A request starts on its arrival, and leaves its home's queue. -/
theorem homeArrival_sole (h : s.soleMsg m) (hto : m.toAgent = false) (hk : m.kind = k) {x : Tab HomeTxn}
    (hstart : (s.serving m [] []).startReq m = (t.homeAs m.home d c x [m] l, true)) : s.homeArrival 0 k = t.homeAs m.home d c x [] l := by
  have harrive := (arrive_sole h).trans (drain_serving h hstart)
  obtain ⟨hcoh, -, hhq, -, -, -, -, -, -, hclip⟩ := h
  rw [State.homeArrival, take_only hcoh hk]
  simp only [hto, hhq, hclip, harrive, Bool.and_false, if_neg Bool.false_ne_true]
  rfl

/-- A request's command answers what its arrival leaves. -/
theorem exec_arrival {i : Instr} (hi : exec i s = upDo s (fun s => s.homeArrival 0 k)) (hup : s.isUp = true) (hend : s.homeArrival 0 k = t) : exec i s = .next t := by
  rw [hi, upDo_up hup, hend]

/-- A request that reads or writes its line, and finds room in the directory, opens its transaction (Table 8.4, R191). -/
theorem startReq_opens (h : s.soleMsg m) (hk : readsLine m.kind = true) {q : CohKind} {dies : List Nat}
    (hs : snoopsFor m (s.dirEnt m.home m.line) = (q, dies)) :
    (s.serving m [] []).startReq m = (if dies.isEmpty then ((s.serving m [] []).openTxn m.home m.line q dies { req := some m }).finishReq m
      else (s.serving m [] []).openTxn m.home m.line q dies { req := some m }, true) := by
  obtain ⟨-, -, -, -, -, hroom, -⟩ := h
  have hent : (s.serving m [] []).dirEnt m.home m.line = s.dirEnt m.home m.line := dirEnt_homeAs
  have hroom' : decide (((s.serving m [] []).setEntries m.home m.line).length ≥ 16) = false := by
    rw [State.setEntries, State.serving, home_homeAs]
    exact decide_eq_false (Nat.not_le.mpr hroom)
  unfold State.startReq
  split
  next hkind => exact absurd hk (by rw [hkind]; decide)
  next hkind => exact absurd hk (by rw [hkind]; decide)
  next hkind => exact absurd hk (by rw [hkind]; decide)
  next =>
    simp only [hent, hroom', Bool.and_false, hs, if_neg Bool.false_ne_true]
    split <;> rfl

/-- The transaction opened for a request, before any snoop. -/
theorem modHome_txn_serving (hh : m.home ≤ 32) (x : HomeTxn) :
    (s.serving m [] []).modHome m.home (fun t => { t with txns := t.txns.put m.line x }) = s.serving m [(m.line, x)] [] := modHome_txns hh (·.put m.line x)

/-- A request that has no die to snoop ends at once. -/
theorem startReq_served (h : s.soleMsg m) (hk : readsLine m.kind = true) (hs : (snoopsFor m (s.dirEnt m.home m.line)).2 = []) :
    (s.serving m [] []).startReq m = ((s.serving m [(m.line, { req := some m })] []).finishLive m, true) := by
  have hopens := startReq_opens h hk (q := (snoopsFor m (s.dirEnt m.home m.line)).1) (dies := []) (by rw [← hs])
  obtain ⟨-, hh, -, -, -, -, hdead, -⟩ := h
  rw [hopens, List.isEmpty_nil, if_pos rfl, State.finishReq, hdead, if_neg Bool.false_ne_true, State.openTxn, List.foldl_nil, List.foldl_nil, modHome_txn_serving hh]

/-- A request that has one die to snoop waits for its answer. -/
theorem startReq_snoops (h : s.soleMsg m) (hk : readsLine m.kind = true) {q : CohKind} {o : Nat} (hs : snoopsFor m (s.dirEnt m.home m.line) = (q, [o])) :
    (s.serving m [] []).startReq m
      = (s.serving m [(m.line, { req := some m, await := dieBit o })] [s.homeMsg q m.home o 8 m.line m.cmpt 0 0 0 m.cls], true) := by
  have hopens := startReq_opens h hk hs
  have hzero : (0 : BitVec 33) ||| dieBit o = dieBit o := BitVec.zero_or
  obtain ⟨-, hh, -⟩ := h
  rw [hopens, List.isEmpty_cons, if_neg Bool.false_ne_true, State.openTxn, List.foldl_cons, List.foldl_nil, List.foldl_cons, List.foldl_nil, modHome_txn_serving hh,
    State.serving, answer_homeAs, hzero]
  rfl

/-! ### Grants (Table 8.4, R192) -/

/-- A read of memory's line granted with kind `k`. -/
def State.grantMsg (s : State) (m : CohMsg) (k : CohKind) : CohMsg :=
  s.homeMsg k m.home m.src m.unit m.line m.cmpt m.mask (s.memLine m.line) (s.memPois m.line) m.cls

theorem ownedBy_st (die : Nat) : (ownedBy die).st = if 29 ≤ die then .m else .e := by
  unfold ownedBy
  split <;> rfl

theorem ownedBy_dirty (die : Nat) : (ownedBy die).dirty = if 29 ≤ die then 0xF else 0 := by
  unfold ownedBy
  split <;> rfl

theorem ownedBy_sharers (die : Nat) : (ownedBy die).sharers = dieBit die := by
  unfold ownedBy
  split <;> rfl

theorem ownedBy_not_idle (die : Nat) : (ownedBy die).st ≠ .i := by
  rw [ownedBy_st]
  split <;> decide

/-- `s` with the line's entry at its home set, no transaction there, and one message on the mesh. -/
def State.ended (s : State) (m : CohMsg) (e : DirEnt) (q : List CohMsg) (g : CohMsg) : State :=
  s.homeAs m.home ((s.home m.home).dir.put m.line { e with used := (s.home m.home).clock + 1 }) ((s.home m.home).clock + 1) [] q [g]

section

variable {e : DirEnt} {q : List CohMsg} {g : CohMsg}

@[simp] theorem ended_coh : (s.ended m e q g).coh = [g] := homeAs_coh

@[simp] theorem dirEnt_ended : (s.ended m e q g).dirEnt m.home m.line = { e with used := (s.home m.home).clock + 1 } := by
  rw [State.ended, dirEnt_homeAs, Tab.look_put_same]

theorem dirEnt_ended_ne {ln : Nat} (hne : ln ≠ m.line) : (s.ended m e q g).dirEnt m.home ln = s.dirEnt m.home ln := by
  rw [State.ended, dirEnt_homeAs, Tab.look_put_ne _ hne, State.dirEnt]

theorem onlyHome_ended : s.onlyHome (s.ended m e q g) m.home := onlyHome_homeAs

/-- The end of a request: the entry is set, the answer goes out, and the transaction is over. -/
theorem close_setDir_answer (hh : m.home ≤ 32) (he : e.st ≠ .i) (x : HomeTxn) (k : CohKind) (mask : BitVec 4) (b : BitVec 1024) (p : BitVec 4) :
    (((s.serving m [(m.line, x)] []).setDir m.home m.line e).answer k m.home m.src m.unit m.line m.cmpt mask b p m.cls).modHome m.home (fun t => { t with txns := t.txns.del m.line })
      = s.ended m e [m] (s.homeMsg k m.home m.src m.unit m.line m.cmpt mask b p m.cls) := by
  have hdel : Tab.del [(m.line, x)] m.line = [] := by simp [Tab.del]
  rw [State.serving, setDir_owned hh he, answer_homeAs, modHome_txns hh (·.del m.line), hdel]
  rfl

/-- A request that needs no snoop, once its end is known. -/
theorem homeArrival_ended (h : s.soleMsg m) (hto : m.toAgent = false) (hk : m.kind = k) (hr : readsLine m.kind = true)
    (hs : (snoopsFor m (s.dirEnt m.home m.line)).2 = []) (hfin : (s.serving m [(m.line, { req := some m })] []).finishLive m = s.ended m e [m] g) :
    s.homeArrival 0 k = s.ended m e [] g :=
  homeArrival_sole h hto hk (by rw [startReq_served h hr hs, hfin]; rfl)

end

theorem diesOf_zero : diesOf 0#33 = [] := by decide

theorem dieBit_ne_zero {o : Nat} (ho : o < 33) : dieBit o ≠ 0 := by
  intro hzero
  have hbit := congrArg BitVec.toNat hzero
  rw [dieBit, BitVec.toNat_ofNat, Nat.mod_eq_of_lt (Nat.pow_lt_pow_right (by decide) ho)] at hbit
  exact absurd hbit (Nat.two_pow_pos o).ne'

theorem dirEnt_serving (x : Tab HomeTxn) : (s.serving m x l).dirEnt m.home m.line = s.dirEnt m.home m.line := dirEnt_homeAs

section

variable (hh : m.home ≤ 32) (x : HomeTxn)
include hh

/-- A grant that makes the entry `e`. -/
theorem close_setDir_grant {e : DirEnt} (he : e.st ≠ .i) :
    let u := (s.serving m [(m.line, x)] []).setDir m.home m.line e
    (u.answer k m.home m.src m.unit m.line m.cmpt m.mask (u.memLine m.line) (u.memPois m.line) m.cls).modHome m.home (fun t => { t with txns := t.txns.del m.line })
      = s.ended m e [m] (s.grantMsg m k) := by
  dsimp only
  have hline : (s.serving m [(m.line, x)] []).memLine m.line = s.memLine m.line := memLine_homeAs
  have hpois : (s.serving m [(m.line, x)] []).memPois m.line = s.memPois m.line := memPois_homeAs
  rw [memLine_setDir, memPois_setDir, hline, hpois, close_setDir_answer hh he]
  rfl

theorem finishLive_rdShared_idle (hk : m.kind = .rdShared) (hi : (s.dirEnt m.home m.line).st = .i) :
    (s.serving m [(m.line, x)] []).finishLive m = s.ended m (ownedBy m.src) [m] (s.grantMsg m .grantE) := by
  unfold State.finishLive
  simp only [hk, dirEnt_serving, hi, if_true]
  exact close_setDir_grant hh x (ownedBy_not_idle _)

theorem finishLive_rdShared_shared (hk : m.kind = .rdShared) (hm : m.mask = 0xF) (hs : (s.dirEnt m.home m.line).st = .s) :
    (s.serving m [(m.line, x)] []).finishLive m
      = s.ended m { st := .s, sharers := (s.dirEnt m.home m.line).sharers ||| dieBit m.src } [m] (s.grantMsg m .grantS) := by
  unfold State.finishLive
  simp only [hk, dirEnt_serving, hs, hm, reduceCtorEq, if_false, bne_self_eq_false, Bool.false_and]
  rw [← hm]
  exact close_setDir_grant hh x nofun

theorem finishLive_rdUnique (hk : m.kind = .rdUnique) :
    (s.serving m [(m.line, x)] []).finishLive m = s.ended m (ownedBy m.src) [m] (s.grantMsg m .grantE) := by
  unfold State.finishLive
  simp only [hk]
  exact close_setDir_grant hh x (ownedBy_not_idle _)

/-- A sharer that asks for ownership needs no data. -/
theorem finishLive_upgrade_sharer (hk : m.kind = .upgrade) (hs : (s.dirEnt m.home m.line).st = .s) (hq : ((s.dirEnt m.home m.line).sharers &&& dieBit m.src) ≠ 0) :
    (s.serving m [(m.line, x)] []).finishLive m = s.ended m (ownedBy m.src) [m] (s.homeMsg .grantE m.home m.src m.unit m.line m.cmpt 0 0 0 m.cls) := by
  unfold State.finishLive
  simp only [hk, dirEnt_serving, hs, bne_iff_ne.mpr hq, and_self, if_true]
  exact close_setDir_answer hh (ownedBy_not_idle _) x ..

end

/-! ### The obligation -/

/-- What a request leaves that makes its sender the owner (R192). -/
theorem ended_owned (g : CohMsg) : let t := s.ended m (ownedBy m.src) [] g
    t.coh = [g] ∧ (t.dirEnt m.home m.line).st = (if 29 ≤ m.src then .m else .e) ∧ (t.dirEnt m.home m.line).dirty = (if 29 ≤ m.src then 0xF else 0) ∧
      (t.dirEnt m.home m.line).sharers = dieBit m.src ∧ s.onlyHome t m.home := by
  dsimp only
  rw [dirEnt_ended]
  exact ⟨ended_coh, ownedBy_st _, ownedBy_dirty _, ownedBy_sharers _, onlyHome_ended⟩

/-- Settles O23: each kind of request starts on its arrival at an idle line, and its end is one change of the home's entry with one answer. -/
theorem coherentReadsGrantByDirectoryState : Obligations.CoherentReadsGrantByDirectoryState := by
  unfold Obligations.CoherentReadsGrantByDirectoryState
  intro s m hup hsole hto
  have hh := soleMsg_home hsole
  refine ⟨fun hk hi => ?idle, fun hk hm hs => ?shared, fun o ho hk hm hown hdies => ?owned, fun hk hi hdies => ?unique, fun hk hsrc hs hq => ?upgrade⟩
  case idle =>
    have hend := homeArrival_ended hsole hto hk (by rw [hk]; rfl) (by simp [snoopsFor, hk, hi]) (finishLive_rdShared_idle hh _ hk hi)
    obtain ⟨hcoh, hst, hdirty, hsharers, honly⟩ := ended_owned (s := s) (m := m) (s.grantMsg m .grantE)
    exact ⟨_, exec_arrival rfl hup hend, hcoh, hst, hdirty, hsharers, honly, fun ln hln => dirEnt_ended_ne hln⟩
  case shared =>
    have hend := homeArrival_ended hsole hto hk (by rw [hk]; rfl) (by simp [snoopsFor, hk, hs]) (finishLive_rdShared_shared hh _ hk hm hs)
    refine ⟨_, exec_arrival rfl hup hend, ?_, ?_, ?_, onlyHome_ended⟩
    · rw [ended_coh, State.grantMsg, hm]
      rfl
    all_goals rw [dirEnt_ended]
  case owned =>
    have hsnoop : snoopsFor m (s.dirEnt m.home m.line) = (.snpShared, [o]) := by simp [snoopsFor, hk, hm, hown, hdies]
    have hend := homeArrival_sole hsole hto hk (startReq_snoops hsole (by rw [hk]; rfl) hsnoop)
    refine ⟨_, exec_arrival rfl hup hend, homeAs_coh, ?_, dirEnt_homeAs, onlyHome_homeAs⟩
    rw [busy_homeAs]
    simp [Tab.has]
  case unique =>
    have hend := homeArrival_ended hsole hto hk (by rw [hk]; rfl) (by simp [snoopsFor, hk, hi, hdies]) (finishLive_rdUnique hh _ hk)
    exact ⟨_, exec_arrival rfl hup hend, ended_owned _⟩
  case upgrade =>
    have hsharer : ((s.dirEnt m.home m.line).sharers &&& dieBit m.src) ≠ 0 := by
      rw [hq, BitVec.and_self]
      exact dieBit_ne_zero hsrc
    have hend := homeArrival_ended hsole hto hk (by rw [hk]; rfl) (by simp [snoopsFor, hk, hs, hq, diesOf_zero]) (finishLive_upgrade_sharer hh _ hk hs hsharer)
    exact ⟨_, exec_arrival rfl hup hend, ended_owned _⟩

end Sys2Proof.Machine
end

section
/-! PROOFS. One sector of a line written by the line's home (R171, R177, R195, R196). -/

namespace Sys2Proof.Machine

variable {s : State} {m : CohMsg} {ln k : Nat}

/-- Sector `k` of a line's data. -/
def sectorOf (d : BitVec 1024) (k : Nat) : List Byte := ((lineBytes d).drop (32 * k)).take 32

theorem length_sectorOf (d : BitVec 1024) (hk : k < 4) : (sectorOf d k).length = 32 := by
  rw [sectorOf, List.length_take, List.length_drop, lineBytes, length_leBytes]
  omega

/-- `s` with sector `k` of line `ln` written from a line's data, and nothing else changed. -/
def State.withSector (s : State) (ln k : Nat) (d : BitVec 1024) : State :=
  s.withMemory (memPuts s.mem (128 * ln + 32 * k) (sectorOf d k)) (setPois s.poison ((128 * ln + 32 * k) / 32) false)

/-- Of the four sectors of a line, a mask of one bit names one. -/
theorem foldl_one_sector {α : Type} {f : α → Nat → α} (hk : k < 4) (a : α) :
    (List.range 4).foldl (fun a j => if bit (BitVec.ofNat 4 (2 ^ k)) j then f a j else a) a = f a k := by
  obtain rfl | rfl | rfl | rfl : k = 0 ∨ k = 1 ∨ k = 2 ∨ k = 3 := by omega
  all_goals rfl

theorem ssuWr_withSector (hk : k < 4) (h : s.plainSec (128 * ln + 32 * k)) (c : Nat) (d : BitVec 1024) :
    s.ssuWr c (128 * ln + 32 * k) (sectorOf d k) = s.withSector ln k d := by
  obtain ⟨-, hmod, hplain⟩ := h
  have hoff : paOff (128 * ln + 32 * k) % 32 = 0 := by
    unfold paOff
    omega
  have hwr := ssuWr_sector hoff (Nat.mod_lt _ (by decide)) hplain (length_sectorOf d hk) c
  rw [lsBase_paLs_add_paOff] at hwr
  rw [hwr, wrSec_sector (length_sectorOf d hk), State.withSector]

/-- A sector without poison that its home writes. -/
theorem homeWrite_sector (hk : k < 4) (h : s.plainSec (128 * ln + 32 * k)) (c : Nat) (d : BitVec 1024) :
    s.homeWrite c ln (BitVec.ofNat 4 (2 ^ k)) d 0 = s.withSector ln k d := by
  have hclean : bit (0 : BitVec 4) k = false := BitVec.getLsbD_zero
  rw [State.homeWrite, foldl_one_sector hk, hclean, if_neg Bool.false_ne_true]
  exact ssuWr_withSector hk h c d

/-- A whole sector without poison that a cacheless agent writes. -/
theorem ncMerge_sector (hk : k < 4) (h : s.plainSec (128 * m.line + 32 * k)) (hm : m.mask = BitVec.ofNat 4 (2 ^ k)) (hb : m.bytes = 0) (hp : m.pois = 0) :
    s.ncMerge m = s.withSector m.line k m.data := by
  have hclean : bit m.pois k = false := by rw [hp]; exact BitVec.getLsbD_zero
  have hwhole : bits m.bytes (32 * k + 31) (32 * k) = 0 := by
    rw [hb, bits]
    simp
  rw [State.ncMerge, hm, foldl_one_sector hk, hclean, if_neg Bool.false_ne_true, if_pos (.inl hwhole)]
  exact ssuWr_withSector hk h m.cmpt m.data

theorem memGets_withSector (hk : k < 4) (hm : memWf s.mem = true) (d : BitVec 1024) :
    memGets (s.withSector ln k d).mem (128 * ln + 32 * k) 32 = ((lineBytes d).drop (32 * k)).take 32 := by
  have hgets := memGets_memPuts (l := sectorOf d k) (a := 128 * ln + 32 * k) hm
  rwa [length_sectorOf d hk] at hgets

theorem sameMemBut_withSector (hk : k < 4) (hm : memWf s.mem = true) (d : BitVec 1024) : SameMemBut s (s.withSector ln k d) (128 * ln + 32 * k) 32 := by
  intro b hb
  exact memGet_memPuts_ne hm (by rwa [length_sectorOf d hk])

/-- Home and memory are different parts of the state. -/
theorem homeAs_withSector (h : Nat) (d : Tab DirEnt) (c : Nat) (x : Tab HomeTxn) (q l : List CohMsg) (b : BitVec 1024) :
    (s.homeAs h d c x q l).withSector ln k b = (s.withSector ln k b).homeAs h d c x q l := by
  rw [State.withSector, State.homeAs, homeTo_withMemory, homeTo_mem, homeTo_poison]
  rfl

/-- A change of a home leaves the place of a sector as it is. -/
theorem plainSec_homeAs (h : Nat) (d : Tab DirEnt) (c : Nat) (x : Tab HomeTxn) (q l : List CohMsg) {a : Nat} (hp : s.plainSec a) :
    (s.homeAs h d c x q l).plainSec a := by
  obtain ⟨hlt, hmod, hplain⟩ := hp
  exact ⟨hlt, hmod, (stripeOf_congr homeTo_guarded ..).trans hplain⟩

end Sys2Proof.Machine
end

section
/-! PROOFS. O24: dirtiness, write-backs, evictions and accesses of cacheless agents at a home that serves no other request (Table 8.4, R192, R195). -/

namespace Sys2Proof.Machine

variable {s : State} {m : CohMsg} {k : Nat}

/-- `s` with the line's entry removed at its home, no transaction there, and the messages `l` on the mesh. -/
def State.freed (s : State) (m : CohMsg) (q l : List CohMsg) : State := s.homeAs m.home ((s.home m.home).dir.del m.line) (s.home m.home).clock [] q l

/-- `s` with the home's entries as they are, no transaction there, and the messages `l` on the mesh. -/
def State.kept (s : State) (m : CohMsg) (q l : List CohMsg) : State := s.homeAs m.home (s.home m.home).dir (s.home m.home).clock [] q l

/-- The home's answer to a request about the line, without data. -/
def State.replyMsg (s : State) (m : CohMsg) (k : CohKind) (mask : BitVec 4) : CohMsg := s.homeMsg k m.home m.src m.unit m.line m.cmpt mask 0 0 m.cls

section

variable {q l : List CohMsg}

theorem freed_coh : (s.freed m q l).coh = l := homeAs_coh

theorem dirEnt_freed : ((s.freed m q l).dirEnt m.home m.line).st = .i := by rw [State.freed, dirEnt_homeAs, Tab.look_del_same]

theorem busy_freed : (s.freed m q l).busy m.home m.line = false := busy_homeAs

theorem onlyHome_freed : s.onlyHome (s.freed m q l) m.home := onlyHome_homeAs

theorem kept_coh : (s.kept m q l).coh = l := homeAs_coh

theorem dirEnt_kept : (s.kept m q l).dirEnt m.home m.line = s.dirEnt m.home m.line := dirEnt_homeAs

theorem busy_kept : (s.kept m q l).busy m.home m.line = false := busy_homeAs

theorem onlyHome_kept : s.onlyHome (s.kept m q l) m.home := onlyHome_homeAs

end

/-! ### Dirtiness, write-backs and evictions -/

theorem startReq_markDirty_owner (hh : m.home ≤ 32) (hk : m.kind = .markDirty) (hst : (s.dirEnt m.home m.line).st = .e ∨ (s.dirEnt m.home m.line).st = .m)
    (hq : (s.dirEnt m.home m.line).sharers = dieBit m.src) :
    (s.serving m [] []).startReq m
      = (s.ended m { s.dirEnt m.home m.line with st := .m, dirty := (s.dirEnt m.home m.line).dirty ||| m.mask } [m] (s.replyMsg m .dirtyAck m.mask), true) := by
  unfold State.startReq
  simp only [hk, dirEnt_serving, hst, hq, and_self, if_true]
  rw [State.serving, setDir_owned hh, answer_homeAs]
  · rfl
  · exact nofun

theorem startReq_markDirty_stale (hk : m.kind = .markDirty) (hq : (s.dirEnt m.home m.line).sharers ≠ dieBit m.src) :
    (s.serving m [] []).startReq m = (s.kept m [m] [s.replyMsg m .dirtyStale m.mask], true) := by
  unfold State.startReq
  simp only [hk, dirEnt_serving, hq, and_false, if_false]
  rw [State.serving, answer_homeAs]
  rfl

theorem startReq_wrBack_owner (hh : m.home ≤ 32) (hsec : k < 4) (hk : m.kind = .wrBack) (hm : m.mask = BitVec.ofNat 4 (2 ^ k)) (hp : m.pois = 0) (hplain : s.plainSec (128 * m.line + 32 * k))
    (hst : (s.dirEnt m.home m.line).st = .e ∨ (s.dirEnt m.home m.line).st = .m) (hq : (s.dirEnt m.home m.line).sharers = dieBit m.src) :
    (s.serving m [] []).startReq m = ((s.withSector m.line k m.data).freed m [m] [s.replyMsg m .wbAck m.mask], true) := by
  unfold State.startReq
  simp only [hk, dirEnt_serving, hst, hq, and_self, if_true]
  rw [State.serving, hp, hm, homeWrite_sector hsec (plainSec_homeAs _ _ _ _ _ _ hplain), homeAs_withSector, setDir_idle hh, answer_homeAs]
  rfl

theorem startReq_wrBack_other (hk : m.kind = .wrBack) (hrec : (s.home m.home).recover = []) (hq : (s.dirEnt m.home m.line).sharers ≠ dieBit m.src) :
    (s.serving m [] []).startReq m = (s.kept m [m] [s.replyMsg m .wbAck m.mask], true) := by
  have hrec' : ((s.serving m [] []).home m.home).recover = [] := by
    rw [State.serving, home_homeAs]
    exact hrec
  unfold State.startReq
  simp only [hk, dirEnt_serving, hq, hrec', List.contains_nil, and_false, if_false, Bool.false_eq_true]
  rw [State.serving, answer_homeAs]
  rfl

theorem startReq_evictClean (hh : m.home ≤ 32) (hk : m.kind = .evictClean) (hst : (s.dirEnt m.home m.line).st = .e ∨ ((s.dirEnt m.home m.line).st = .m ∧ 29 ≤ m.src))
    (hq : (s.dirEnt m.home m.line).sharers = dieBit m.src) :
    (s.serving m [] []).startReq m = (s.freed m [m] [s.replyMsg m .ack 0], true) := by
  unfold State.startReq
  simp only [hk, dirEnt_serving, hst, hq, and_self, if_true]
  rw [State.serving, setDir_idle hh, answer_homeAs]
  rfl

/-! ### Accesses of cacheless agents -/

theorem finishLive_rdNc_idle (hh : m.home ≤ 32) (x : HomeTxn) (hk : m.kind = .rdNc) (hsrc : m.src < 29) (hi : (s.dirEnt m.home m.line).st = .i) :
    (s.serving m [(m.line, x)] []).finishLive m = s.kept m [m] [] := by
  have hdel : Tab.del [(m.line, x)] m.line = [] := by simp [Tab.del]
  unfold State.finishLive
  simp only [hk, dirEnt_serving, hi, reduceCtorEq, or_self, if_false, State.ncReply, if_neg (Nat.not_le.mpr hsrc)]
  rw [State.serving, modHome_txns hh (·.del m.line), hdel]
  rfl

/-- A write without a hint pushes to no die. -/
theorem hintDie_none (hw : m.hint = 0) : s.hintDie m = none := by
  simp [State.hintDie, hw]

theorem finishLive_wrNc (hh : m.home ≤ 32) (x : HomeTxn) (hsec : k < 4) (hk : m.kind = .wrNc) (hsrc : m.src < 29) (hm : m.mask = BitVec.ofNat 4 (2 ^ k)) (hb : m.bytes = 0) (hp : m.pois = 0)
    (hw : m.hint = 0) (hdone : m.done = false) (hplain : s.plainSec (128 * m.line + 32 * k)) :
    (s.serving m [(m.line, x)] []).finishLive m = (s.withSector m.line k m.data).freed m [m] [] := by
  have hdel : Tab.del [(m.line, x)] m.line = [] := by simp [Tab.del]
  have hmerge : (s.serving m [(m.line, x)] []).ncMerge m = (s.withSector m.line k m.data).serving m [(m.line, x)] [] := by
    rw [State.serving, ncMerge_sector hsec (plainSec_homeAs _ _ _ _ _ _ hplain) hm hb hp, homeAs_withSector]
    rfl
  unfold State.finishLive
  simp only [hk, hdone, if_neg Bool.false_ne_true, if_neg (Nat.not_le.mpr hsrc), hintDie_none hw, hmerge]
  rw [State.serving, setDir_idle hh, modHome_txns hh (·.del m.line), hdel]
  rfl

/-! ### The obligation -/

/-- Settles O24: an owner's request is one change of the line's entry with one answer, another die's is answered and changes nothing, and an access of a cacheless agent leaves the line idle. -/
theorem ownersMarkWriteBackAndEvict : Obligations.OwnersMarkWriteBackAndEvict := by
  unfold Obligations.OwnersMarkWriteBackAndEvict
  intro s m hup hsole hto
  have hh := soleMsg_home hsole
  have hrec : (s.home m.home).recover = [] := by
    obtain ⟨-, -, -, -, hrec, -⟩ := hsole
    exact hrec
  have hdone : m.done = false := by
    obtain ⟨-, -, -, -, -, -, -, hdone, -⟩ := hsole
    exact hdone
  refine ⟨fun hk hst hq => ?mark, fun hk hq => ?stale, fun k hsec hk hm hp hwf hplain hst hq => ?writeBack, fun hk hq => ?otherWriteBack, fun hk hst hq => ?evict,
    fun hk hsrc hi => ?read, fun k hsec hk hsrc hm hb hp hw hwf hplain hi hdies => ?write⟩
  case mark =>
    have hend := homeArrival_sole hsole hto hk (startReq_markDirty_owner hh hk hst hq)
    refine ⟨_, exec_arrival rfl hup hend, ended_coh (q := []), ?_, ?_, ?_, onlyHome_ended (q := [])⟩
    all_goals rw [dirEnt_homeAs, Tab.look_put_same]
    exact hq
  case stale =>
    have hend := homeArrival_sole hsole hto hk (startReq_markDirty_stale hk hq)
    exact ⟨_, exec_arrival rfl hup hend, kept_coh (q := []), dirEnt_kept (q := []), onlyHome_kept (q := [])⟩
  case writeBack =>
    have hend := homeArrival_sole hsole hto hk (startReq_wrBack_owner hh hsec hk hm hp hplain hst hq)
    refine ⟨_, exec_arrival rfl hup hend, freed_coh (q := []), ?_, ?_, dirEnt_freed (q := [])⟩
    · rw [homeAs_mem]
      exact memGets_withSector hsec hwf m.data
    · intro b hb
      rw [homeAs_mem]
      exact sameMemBut_withSector hsec hwf m.data b hb
  case otherWriteBack =>
    have hend := homeArrival_sole hsole hto hk (startReq_wrBack_other hk hrec hq)
    exact ⟨_, exec_arrival rfl hup hend, kept_coh (q := []), dirEnt_kept (q := []), onlyHome_kept (q := [])⟩
  case evict =>
    have hend := homeArrival_sole hsole hto hk (startReq_evictClean hh hk hst hq)
    exact ⟨_, exec_arrival rfl hup hend, freed_coh (q := []), dirEnt_freed (q := []), onlyHome_freed (q := [])⟩
  case read =>
    have hstart := startReq_served hsole (by rw [hk]; rfl) (by simp [snoopsFor, hk, hi])
    rw [finishLive_rdNc_idle hh _ hk hsrc hi] at hstart
    have hend := homeArrival_sole hsole hto hk hstart
    exact ⟨_, exec_arrival rfl hup hend, kept_coh (q := []), dirEnt_kept (q := []), busy_kept (q := []), onlyHome_kept (q := [])⟩
  case write =>
    have hstart := startReq_served hsole (by rw [hk]; rfl) (by simp [snoopsFor, hk, hdies])
    rw [finishLive_wrNc hh _ hsec hk hsrc hm hb hp hw hdone hplain] at hstart
    have hend := homeArrival_sole hsole hto hk hstart
    refine ⟨_, exec_arrival rfl hup hend, freed_coh (q := []), dirEnt_freed (q := []), busy_freed (q := []), ?_, ?_⟩
    · rw [homeAs_mem]
      exact memGets_withSector hsec hwf m.data
    · intro b hb'
      rw [homeAs_mem]
      exact sameMemBut_withSector hsec hwf m.data b hb'

end Sys2Proof.Machine
end

section
/-! PROOFS. The hub's cache and its answers: one line replaced, and what leaves the hub about it (R194, Table 8.3). -/

namespace Sys2Proof.Machine

variable {s : State} {m : CohMsg} {ln u : Nat} {e : CacheLine}

/-! ### One line of the hub's cache -/

/-- `s` with line `ln` of the hub's cache holding `e`, and nothing else changed; a line in I with nothing buffered leaves it. -/
def State.withHubLine (s : State) (ln : Nat) (e : CacheLine) : State :=
  { s with sc := { s.sc with lines := if e.st = .i ∧ e.wb = 0 then s.sc.lines.del ln else s.sc.lines.put ln e } }

theorem setLine_hub (s : State) (u ln : Nat) (e : CacheLine) : s.setLine 0 u ln e = s.withHubLine ln e := rfl

theorem line_withHubLine : (s.withHubLine ln e).line 0 u ln = if e.st = .i ∧ e.wb = 0 then {} else e := by
  have hline : (s.withHubLine ln e).line 0 u ln = Tab.look (if e.st = .i ∧ e.wb = 0 then s.sc.lines.del ln else s.sc.lines.put ln e) ln {} := rfl
  rw [hline]
  split
  · exact Tab.look_del_same ..
  · exact Tab.look_put_same ..

theorem line_withHubLine_held (h : e.st ≠ .i) : (s.withHubLine ln e).line 0 u ln = e := by
  rw [line_withHubLine, if_neg (fun hi => h hi.1)]

/-- A line in I reads so, whether it left the cache or its sectors are buffered. -/
theorem line_withHubLine_st : ((s.withHubLine ln e).line 0 u ln).st = e.st := by
  rw [line_withHubLine]
  split
  next h => exact h.1.symm
  next => rfl

theorem line_withHubLine_wb : ((s.withHubLine ln e).line 0 u ln).wb = e.wb := by
  rw [line_withHubLine]
  split
  next h => exact h.2.symm
  next => rfl

/-- The hub has no core whose access waits. -/
theorem retryDie_hub (s : State) : s.retryDie 0 = s := rfl

theorem gateEnd_die {d : Nat} (hd : d < 29) (s : State) (ln : Nat) : s.gateEnd d ln = s := if_pos hd

/-! ### Snoops (Table 8.3) -/

/-- A line after a snoop: dropped, or shared and clean. -/
def CacheLine.snooped (e : CacheLine) (inv : Bool) : CacheLine :=
  if inv then { e with st := .i, valid := 0, dirty := 0, marking := false } else { e with st := .s, dirty := 0 }

theorem mergeLine_none (old new : BitVec 1024) : mergeLine old new 0 = old := by
  have hbit (k : Nat) : bit (0 : BitVec 4) k = false := BitVec.getLsbD_zero
  have hmask : secMask 0 = 0#1024 := by
    rw [secMask]
    simp only [hbit, if_neg Bool.false_ne_true]
    rfl
  rw [mergeLine, hmask, BitVec.and_zero, BitVec.or_zero, BitVec.not_zero, BitVec.and_allOnes]

/-- What the hub answers to a snoop of a line. -/
def snoopReply (m : CohMsg) (e : CacheLine) : CohMsg :=
  { kind := if e.dirty = 0 then .ack else .ackData, src := 0, unit := 8, dst := m.src, home := m.home, line := m.line, mask := e.dirty
    data := mergeLine 0 e.data e.dirty, pois := e.pois &&& e.dirty, cmpt := m.cmpt, cls := m.cls }

theorem dieDirty_hub (hwb : (s.line 0 8 ln).wb = 0) :
    s.dieDirty 0 ln = ((s.line 0 8 ln).dirty, mergeLine 0 (s.line 0 8 ln).data (s.line 0 8 ln).dirty, (s.line 0 8 ln).pois &&& (s.line 0 8 ln).dirty) := by
  simp [State.dieDirty, unitsOf, hwb]

theorem dieDowngrade_hub (hst : (s.line 0 8 ln).st ≠ .i) (inv : Bool) : s.dieDowngrade 0 ln inv = s.withHubLine ln ((s.line 0 8 ln).snooped inv) := by
  simp only [State.dieDowngrade, unitsOf, true_or, if_true, List.foldl_cons, List.foldl_nil, if_neg hst, setLine_hub]
  cases inv <;> rfl

theorem snoop_hub (hd : m.dst = 0) (hst : (s.line 0 8 m.line).st ≠ .i) (hwb : (s.line 0 8 m.line).wb = 0) (inv : Bool) :
    s.snoop m inv = (s.withHubLine m.line ((s.line 0 8 m.line).snooped inv)).send (snoopReply m (s.line 0 8 m.line)) := by
  have hall : ~~~(0 : BitVec 4) = BitVec.allOnes 4 := rfl
  have hor (b : BitVec 4) : b ||| 0 = b := BitVec.or_zero
  have hdie : ¬ 29 ≤ 0 := by decide
  simp only [State.snoop, State.snoopAnswer, hd, if_neg hdie, dieDirty_hub hwb, dieDowngrade_hub hst, retryDie_hub, ite_self, mergeLine_none, hor, hall,
    BitVec.and_allOnes]
  rfl

/-- A snoop of a graft site waits there for its chiplet, which is asked for each half of the line (R202, Table 8.6). -/
theorem snoop_site {k : Nat} (hk : k < 4) (hd : m.dst = 29 + k) (inv : Bool) :
    s.snoop m inv = { s with
      sites := s.sites.put k { s.site k with snps := (s.site k).snps ++ [{ id := s.serial, msg := m, inv := inv }] }, serial := s.serial + 2
      out := s.out ++ [.gate k (if inv then 8 else 7) s.serial (leBytes 8 (128 * m.line)), .gate k (if inv then 8 else 7) (s.serial + 1) (leBytes 8 (128 * m.line + 64))] } := by
  have hout (o o' : Out) : s.out ++ [o, o'] = s.out ++ [o] ++ [o'] := by simp
  have hdie : 29 ≤ 29 + k := Nat.le_add_right ..
  simp only [State.snoop, hd, hdie, if_true, Nat.add_sub_cancel_left, modSite_eq hk, hout]
  rfl

/-! ### Evictions (R194) -/

/-- What the hub asks a line's home about it. -/
def State.hubRequest (s : State) (k : CohKind) (ln c : Nat) (mask : BitVec 4) (d : BitVec 1024) (p : BitVec 4) : CohMsg :=
  { kind := k, src := 0, unit := 8, dst := s.homeDie (s.homeOf ln), home := s.homeOf ln, line := ln, mask := mask, data := d, pois := p, cmpt := c }

theorem evict_hub_shared (hs : (s.line 0 8 ln).st = .s) : s.evict 0 8 ln = s.withHubLine ln { s.line 0 8 ln with st := .i, valid := 0 } := by
  simp only [State.evict, hs]
  rfl

/-- No other cache of the hub holds a line. -/
theorem hub_no_others (s : State) (ln : Nat) : (unitsOf 0).any (fun v => v != 8 && (s.line 0 v ln).st != .i) = false := rfl

theorem evict_hub_exclusive (he : (s.line 0 8 ln).st = .e) :
    s.evict 0 8 ln = (s.withHubLine ln { s.line 0 8 ln with st := .i, valid := 0 }).send (s.hubRequest .evictClean ln (s.line 0 8 ln).cmpt 0 0 0) := by
  simp only [State.evict, he, hub_no_others]
  rfl

theorem evict_hub_clean (hm : (s.line 0 8 ln).st = .m) (hd : (s.line 0 8 ln).dirty = 0) :
    s.evict 0 8 ln = (s.withHubLine ln { s.line 0 8 ln with st := .i, valid := 0 }).send (s.hubRequest .evictClean ln (s.line 0 8 ln).cmpt 0 0 0) := by
  simp only [State.evict, hm, if_pos hd]
  rfl

theorem evict_hub_dirty (hm : (s.line 0 8 ln).st = .m) (hd : (s.line 0 8 ln).dirty ≠ 0) :
    s.evict 0 8 ln = (s.withHubLine ln { s.line 0 8 ln with st := .i, valid := 0, dirty := 0, wb := (s.line 0 8 ln).dirty }).send
      (s.hubRequest .wrBack ln (s.line 0 8 ln).cmpt (s.line 0 8 ln).dirty (s.line 0 8 ln).data (s.line 0 8 ln).pois) := by
  simp only [State.evict, hm, if_neg hd]
  rfl

theorem exec_lineEviction_hub (hup : s.isUp = true) (hmark : (s.line 0 8 ln).marking = false) : exec (.lineEviction 8 ln) s = .next (s.evict 0 8 ln) := by
  have heq : exec (.lineEviction 8 ln) s = upDo s (fun s => if (s.line 0 8 ln).marking then s else s.evict 0 8 ln) := rfl
  rw [heq, upDo_up hup, hmark, if_neg Bool.false_ne_true]

/-! ### Messages to the hub -/

section

variable (hup : s.isUp = true) (hc : s.coh = [m])
include hup hc

theorem exec_snpShared (hk : m.kind = .snpShared) : exec (.snpShared 0) s = .next ((s.withCoh []).snoop m false) :=
  exec_taken (f := fun m s => s.snoop m false) rfl hup hc hk

theorem exec_snpInv (hk : m.kind = .snpInv) : exec (.snpInv 0) s = .next ((s.withCoh []).snoop m true) :=
  exec_taken (f := fun m s => s.snoop m true) rfl hup hc hk

theorem exec_grantS (hk : m.kind = .grantS) : exec (.grantS 0) s = .next ((s.withCoh []).granted_ m .s) :=
  exec_taken (f := fun m s => s.granted_ m .s) rfl hup hc hk

theorem exec_grantE (hk : m.kind = .grantE) : exec (.grantE 0) s = .next ((s.withCoh []).granted_ m .e) :=
  exec_taken (f := fun m s => s.granted_ m .e) rfl hup hc hk

theorem exec_push (hk : m.kind = .pushLine) : exec (.push 0) s = .next ((s.withCoh []).pushTo m) :=
  exec_taken (f := fun m s => s.pushTo m) rfl hup hc hk

end

/-- A line after a grant of state `g`, as `State.fill` has it (R194, R196). -/
def CacheLine.filled (e : CacheLine) (m : CohMsg) (g : LineSt) : CacheLine :=
  { e with
    st := if e.st = .m ∧ g = .e then .m else g
    valid := (if e.st = .i then 0 else e.valid) ||| m.mask
    pois := (e.pois &&& ~~~(m.mask &&& ~~~e.dirty)) ||| (m.pois &&& (m.mask &&& ~~~e.dirty))
    data := mergeLine e.data m.data (m.mask &&& ~~~e.dirty)
    cmpt := m.cmpt }

theorem filled_st (he : e.st = .i) (g : LineSt) : (e.filled m g).st = g := by simp [CacheLine.filled, he]

theorem filled_valid (he : e.st = .i) (g : LineSt) : (e.filled m g).valid = m.mask := by simp [CacheLine.filled, he]

theorem granted_hub (hd : m.dst = 0) (g : LineSt) : s.granted_ m g = s.withHubLine m.line ((s.line 0 8 m.line).filled m g) := by
  have hdie : ¬ 29 ≤ 0 := by decide
  simp only [State.granted_, hd, if_neg hdie, State.fill, true_or, if_true, retryDie_hub, setLine_hub]
  rfl

/-- A push of a line held in S is taken in its way (R200, R201). -/
theorem pushTo_hub (hd : m.dst = 0) (hst : (s.line 0 8 m.line).st = .s) :
    s.pushTo m = (s.withHubLine m.line { s.line 0 8 m.line with st := .e, valid := m.mask, dirty := 0, pois := m.pois &&& m.mask, data := m.data, cmpt := m.cmpt }).send
      { kind := .pushAck, src := 0, unit := 8, dst := m.src, home := m.home, line := m.line, cmpt := m.cmpt, cls := m.cls } := by
  have hne : ¬ LineSt.s = LineSt.i := nofun
  simp only [State.pushTo, hd, hst, if_neg hne, if_true]
  rfl

end Sys2Proof.Machine
end

section
/-! PROOFS. O25: the hub's agent answers snoops, takes grants and pushes, and evicts lines; a graft site passes snoops on (R194, R202, Table 8.3). -/

namespace Sys2Proof.Machine

variable {s : State} {m : CohMsg}

/-- Settles O25: each command replaces one line of the hub's cache and sends at most one message; a snoop of a site asks its chiplet. -/
theorem agentsAnswerSnoopsAndTakeGrants : Obligations.AgentsAnswerSnoopsAndTakeGrants := by
  unfold Obligations.AgentsAnswerSnoopsAndTakeGrants
  intro s m hup
  refine ⟨fun hc hd hst hwb => ?snoops, fun k hk hc hd inv hkind => ?sites, fun hc hd hst hdirty => ?grants, fun hc hd hst hk => ?push, fun ln hmark hst => ?evictions⟩
  case snoops =>
    rw [hd] at hst hwb ⊢
    refine ⟨fun hk => ⟨_, (exec_snpShared hup hc hk).trans (congrArg _ (snoop_hub (s := s.withCoh []) hd hst hwb false)), ?_, ?_, rfl, rfl⟩,
      fun hk => ⟨_, (exec_snpInv hup hc hk).trans (congrArg _ (snoop_hub (s := s.withCoh []) hd hst hwb true)), line_withHubLine_st, rfl, rfl⟩⟩
    · exact line_withHubLine_st
    · exact congrArg CacheLine.dirty (line_withHubLine_held (by exact nofun))
  case sites =>
    have hsnoop := snoop_site (s := s.withCoh []) hk hd inv
    have hsite := Tab.look_put_same s.sites k { s.site k with snps := (s.site k).snps ++ [{ id := s.serial, msg := m, inv := inv }] } {}
    cases inv with
    | false => exact ⟨_, (exec_snpShared hup hc hkind).trans (congrArg _ hsnoop), congrArg Site.snps hsite, rfl⟩
    | true => exact ⟨_, (exec_snpInv hup hc hkind).trans (congrArg _ hsnoop), congrArg Site.snps hsite, rfl⟩
  case grants =>
    have hgrant (g : LineSt) := granted_hub (s := s.withCoh []) hd g
    have hvalid {g : LineSt} (hg : g ≠ .i) :=
      (congrArg CacheLine.valid (line_withHubLine_held (s := s.withCoh []) (ln := m.line) (u := 8) ((filled_st (m := m) hst g).trans_ne hg))).trans (filled_valid hst g)
    exact ⟨fun hk => ⟨_, (exec_grantS hup hc hk).trans (congrArg _ (hgrant .s)), line_withHubLine_st.trans (filled_st hst .s), hvalid nofun, rfl, rfl⟩,
      fun hk => ⟨_, (exec_grantE hup hc hk).trans (congrArg _ (hgrant .e)), line_withHubLine_st.trans (filled_st hst .e), hvalid nofun, rfl, rfl⟩⟩
  case push =>
    exact ⟨_, (exec_push hup hc hk).trans (congrArg _ (pushTo_hub hd hst)), line_withHubLine_st, congrArg CacheLine.data (line_withHubLine_held (by exact nofun)), rfl, rfl⟩
  case evictions =>
    have hexec := exec_lineEviction_hub hup hmark
    cases hcase : (s.line 0 8 ln).st with
    | i => exact absurd hcase hst
    | s => exact ⟨_, hexec.trans (congrArg _ (evict_hub_shared hcase)), line_withHubLine_st, rfl, fun _ => rfl, nofun, nofun⟩
    | e => exact ⟨_, hexec.trans (congrArg _ (evict_hub_exclusive hcase)), line_withHubLine_st, rfl, nofun, fun _ => rfl, nofun⟩
    | m =>
      by_cases hd : (s.line 0 8 ln).dirty = 0
      · exact ⟨_, hexec.trans (congrArg _ (evict_hub_clean hcase hd)), line_withHubLine_st, rfl, nofun, nofun, fun _ h => absurd hd h⟩
      · exact ⟨_, hexec.trans (congrArg _ (evict_hub_dirty hcase hd)), line_withHubLine_st, rfl, nofun, nofun, fun _ _ => ⟨line_withHubLine_wb, rfl⟩⟩

end Sys2Proof.Machine
end

section
/-! PROOFS. Answers that end a transaction at a home or a store at the hub (Table 8.3, Table 8.4, R192, R195, R200, R207). -/

namespace Sys2Proof.Machine

variable {s : State} {m : CohMsg} {h ln k : Nat} {r : HomeTxn}

/-! ### The end of a home's only transaction -/

/-- A change of the transactions of a home without requests. -/
theorem modHome_quiet (hh : h ≤ 32) (hq : (s.home h).hq = []) (f : Tab HomeTxn → Tab HomeTxn) :
    s.modHome h (fun t => { t with txns := f t.txns }) = s.homeAs h (s.home h).dir (s.home h).clock (f (s.home h).txns) [] s.coh := by
  rw [modHome_eq hh, State.homeAs, Stack.withHome, ← hq]

theorem find_only (ln : Nat) (r : HomeTxn) : List.find? (fun t : Nat × HomeTxn => t.1 == ln) [(ln, r)] = some (ln, r) := by simp

theorem bit_dieBit {d : Nat} (hd : d < 33) : bit (dieBit d) d = true := by
  rw [bit, dieBit, BitVec.getLsbD_ofNat, Nat.testBit_two_pow_self, decide_eq_true hd]
  rfl

theorem del_only (ln : Nat) (r : HomeTxn) : Tab.del [(ln, r)] ln = [] := by simp [Tab.del]

/-- The last answer to a recall frees its line (R191, R195). -/
theorem snoopDone_recall {d : Nat} (hh : h ≤ 32) (hd : d < 33) (hq : (s.home h).hq = []) (htx : (s.home h).txns = [(ln, r)]) (haw : r.await = dieBit d)
    (hreq : r.req = none) : s.snoopDone h ln d = s.homeAs h ((s.home h).dir.del ln) (s.home h).clock [] [] s.coh := by
  have hlast : dieBit d &&& ~~~dieBit d = (0 : BitVec 33) := BitVec.and_not_self _
  have hput (x : HomeTxn) : s.modHome h (fun t => { t with txns := t.txns.put ln x }) = s.homeAs h (s.home h).dir (s.home h).clock [(ln, x)] [] s.coh := by
    rw [modHome_quiet hh hq (·.put ln x), htx]
    simp [Tab.put]
  simp only [State.snoopDone, htx, find_only, haw, bit_dieBit hd, Bool.not_true, if_neg Bool.false_ne_true, hlast, bne_self_eq_false, hreq, hput]
  rw [setDir_idle hh, modHome_txns hh (·.del ln), del_only, drain_homeAs]

/-- The answer to a push records the target as owner, or leaves the line idle (R195, R200). -/
theorem pushEnd_only (hh : m.home ≤ 32) (hq : (s.home m.home).hq = []) (htx : (s.home m.home).txns = [(m.line, r)]) (hpush : r.pushing = true) (own : Bool) :
    s.pushEnd m own = if own then s.homeAs m.home ((s.home m.home).dir.put m.line { st := .e, sharers := dieBit m.src, used := (s.home m.home).clock + 1 })
        ((s.home m.home).clock + 1) [] [] s.coh
      else s.homeAs m.home ((s.home m.home).dir.del m.line) (s.home m.home).clock [] [] s.coh := by
  have hdel : s.modHome m.home (fun t => { t with txns := t.txns.del m.line }) = s.homeAs m.home (s.home m.home).dir (s.home m.home).clock [] [] s.coh := by
    rw [modHome_quiet hh hq (·.del m.line), htx, del_only]
  simp only [State.pushEnd, htx, find_only, hpush, if_true, hdel]
  cases own with
  | true =>
    simp only [if_true]
    rw [setDir_owned hh (by exact nofun), drain_homeAs]
  | false =>
    simp only [if_neg Bool.false_ne_true]
    rw [setDir_idle hh, drain_homeAs]

/-! ### Pending stores and write-backs of the hub -/

theorem dirtyAcked_hub (hd : m.dst = 0) (hu : m.unit = 8) (hmark : (s.line 0 8 m.line).marking = true) (hst : (s.line 0 8 m.line).st = .e ∨ (s.line 0 8 m.line).st = .m) :
    s.dirtyAcked m = s.withHubLine m.line { s.line 0 8 m.line with st := .m, dirty := (s.line 0 8 m.line).dirty ||| m.mask, marking := false } := by
  have hown : ((s.line 0 8 m.line).marking && ((s.line 0 8 m.line).st == .e || (s.line 0 8 m.line).st == .m)) = true := by
    rw [hmark, Bool.true_and, Bool.or_eq_true, beq_iff_eq, beq_iff_eq]
    exact hst
  simp only [State.dirtyAcked, hd, hu, hown, if_true, retryDie_hub, setLine_hub]

theorem dirtyStaled_hub (hd : m.dst = 0) (hu : m.unit = 8) (hmark : (s.line 0 8 m.line).marking = true) :
    s.dirtyStaled m = s.withHubLine m.line { s.line 0 8 m.line with st := .i, valid := 0, dirty := 0, marking := false } := by
  simp only [State.dirtyStaled, hd, hu, hmark, if_true, retryDie_hub, setLine_hub]

/-! ### The commands -/

section

variable (hup : s.isUp = true) (hc : s.coh = [m])
include hup hc

/-- An acknowledgement to an agent ends a transaction of its gate, one to a home answers its snoop. -/
theorem exec_ack (hk : m.kind = .ack) :
    exec (.ack 0) s = .next (if m.toAgent then (s.withCoh []).gateEnd m.dst m.line else (s.withCoh []).snoopDone m.home m.line m.src) :=
  exec_taken (f := fun m s => if m.toAgent then s.gateEnd m.dst m.line else s.snoopDone m.home m.line m.src) rfl hup hc hk

theorem exec_ackData (hk : m.kind = .ackData) :
    exec (.ackData 0) s = .next (((s.withCoh []).homeWrite m.cmpt m.line m.mask m.data m.pois).snoopDone m.home m.line m.src) :=
  exec_taken (f := fun m s => (s.homeWrite m.cmpt m.line m.mask m.data m.pois).snoopDone m.home m.line m.src) rfl hup hc hk

theorem exec_pushAck (hk : m.kind = .pushAck) : exec (.pushAck 0) s = .next ((s.withCoh []).pushEnd m true) :=
  exec_taken (f := fun m s => s.pushEnd m true) rfl hup hc hk

theorem exec_pushDecline (hk : m.kind = .pushDecline) : exec (.pushDecline 0) s = .next ((s.withCoh []).pushEnd m false) :=
  exec_taken (f := fun m s => s.pushEnd m false) rfl hup hc hk

theorem exec_dirtyAck (hk : m.kind = .dirtyAck) : exec (.dirtyAck 0) s = .next ((s.withCoh []).dirtyAcked m) :=
  exec_taken (f := fun m s => s.dirtyAcked m) rfl hup hc hk

theorem exec_dirtyStale (hk : m.kind = .dirtyStale) : exec (.dirtyStale 0) s = .next ((s.withCoh []).dirtyStaled m) :=
  exec_taken (f := fun m s => s.dirtyStaled m) rfl hup hc hk

theorem exec_wbAck_hub (hk : m.kind = .wbAck) (hd : m.dst = 0) :
    exec (.wbAck 0) s = .next ((s.withCoh []).withHubLine m.line { s.line 0 m.unit m.line with wb := 0 }) := by
  have heq : exec (.wbAck 0) s = execWbAck 0 s := rfl
  rw [heq, execWbAck, upDo_up hup, take_only hc hk]
  simp only [hd, gateEnd_die (show 0 < 29 by decide), setLine_hub]
  rfl

theorem exec_recoverAck (hk : m.kind = .recoverAck) : exec (.recoverAck 0) s = .next (s.withCoh []) :=
  exec_taken (f := fun _ s => s) rfl hup hc hk

/-- The home takes the die off its list and answers it (R207). -/
theorem exec_recoverDone (hh : m.home ≤ 32) (hq : (s.home m.home).hq = []) (hk : m.kind = .recoverDone) :
    exec (.recoverDone 0) s = .next (s.homeTo m.home { s.home m.home with recover := (s.home m.home).recover.filter (· != m.src) }
      [s.homeMsg .recoverAck m.home m.src 8 m.line 0 0 0 0 0]) := by
  have heq : exec (.recoverDone 0) s = execRecoverDone 0 s := rfl
  have hnone (p : CohMsg → Bool) : (s.withCoh []).coh.any p = false := rfl
  rw [heq, execRecoverDone, upDo_up hup, take_only hc hk]
  simp only [hnone, if_neg Bool.false_ne_true]
  rw [modHome_eq hh, answer_homeTo (by rfl), drain_homeTo (by exact hq)]
  rfl

end

/-! ### The obligation -/

/-- Settles O26: an answer is one change of the home's transactions and of the line's entry, or of one line of the hub's cache. -/
theorem answersEndTransactions : Obligations.AnswersEndTransactions := by
  unfold Obligations.AnswersEndTransactions
  intro s m hup hc
  refine ⟨fun hto hh hsrc hq _ => ⟨fun r htx haw hreq => ⟨fun hk => ?ack, fun k hsec hk hm hp hwf hplain => ?ackData⟩,
      fun r htx hpush => ⟨fun hk => ?pushAck, fun hk => ?pushDecline⟩⟩,
    fun hto hd hu hmark => ⟨fun hk hst => ?dirtyAck, fun hk => ?dirtyStale⟩, fun hto hd hk => ?wbAck, fun hto hd hk => ?agentAck, fun hk hh hq => ?recoverDone,
    fun hk => exec_recoverAck hup hc hk⟩
  case ack =>
    have hdone := snoopDone_recall (s := s.withCoh []) hh hsrc hq htx haw hreq
    have hexec := exec_ack hup hc hk
    rw [hto, if_neg Bool.false_ne_true, hdone] at hexec
    exact ⟨_, hexec, homeAs_coh, dirEnt_freed (s := s) (q := []), busy_homeAs, onlyHome_homeAs (s := s)⟩
  case ackData =>
    have hwrite := homeWrite_sector (s := s.withCoh []) hsec hplain m.cmpt m.data
    have hdone := snoopDone_recall (s := (s.withCoh []).withSector m.line k m.data) hh hsrc hq htx haw hreq
    have hexec := exec_ackData hup hc hk
    rw [hm, hp, hwrite, hdone] at hexec
    refine ⟨_, hexec, homeAs_coh, dirEnt_freed (s := (s.withCoh []).withSector m.line k m.data) (q := []), busy_homeAs, ?_, ?_⟩
    · rw [homeAs_mem]
      exact memGets_withSector hsec hwf m.data
    · intro b hb
      rw [homeAs_mem]
      exact sameMemBut_withSector (s := s.withCoh []) hsec hwf m.data b hb
  case pushAck =>
    have hexec := exec_pushAck hup hc hk
    rw [pushEnd_only (s := s.withCoh []) hh hq htx hpush, if_pos rfl] at hexec
    refine ⟨_, hexec, homeAs_coh, ?_, ?_, busy_homeAs, onlyHome_homeAs (s := s)⟩
    all_goals rw [dirEnt_homeAs, Tab.look_put_same]
  case pushDecline =>
    have hexec := exec_pushDecline hup hc hk
    rw [pushEnd_only (s := s.withCoh []) hh hq htx hpush, if_neg Bool.false_ne_true] at hexec
    exact ⟨_, hexec, homeAs_coh, dirEnt_freed (s := s) (q := []), busy_homeAs, onlyHome_homeAs (s := s)⟩
  case dirtyAck =>
    exact ⟨_, (exec_dirtyAck hup hc hk).trans (congrArg _ (dirtyAcked_hub (s := s.withCoh []) hd hu hmark hst)), line_withHubLine_st,
      congrArg CacheLine.dirty (line_withHubLine_held (by exact nofun)), congrArg CacheLine.marking (line_withHubLine_held (by exact nofun)), rfl⟩
  case dirtyStale =>
    exact ⟨_, (exec_dirtyStale hup hc hk).trans (congrArg _ (dirtyStaled_hub (s := s.withCoh []) hd hu hmark)), line_withHubLine_st, rfl⟩
  case wbAck => exact ⟨_, exec_wbAck_hub hup hc hk hd, line_withHubLine_wb, line_withHubLine_st, rfl⟩
  case agentAck =>
    have hexec := exec_ack hup hc hk
    rwa [hto, if_pos rfl, gateEnd_die hd] at hexec
  case recoverDone => exact ⟨_, exec_recoverDone hup hc hh hq hk, congrArg Stack.recover home_homeTo, homeTo_coh, onlyHome_homeTo ..⟩

end Sys2Proof.Machine
end

section
/-! PROOFS. Tables whose keys may be in any order: the entry that a table shows, and what a fold reaches. -/

namespace Sys2Proof

variable {α β : Type}

/-- A fold whose steps keep `P` or reach `Q`, which every step keeps, ends in `Q` when one of its steps must reach it. -/
theorem foldl_reaches {f : α → β → α} {P Q : α → Prop} {l : List β} {b : β} (hb : b ∈ l) (hkeep : ∀ a, ∀ c ∈ l, P a → P (f a c) ∨ Q (f a c))
    (hstay : ∀ a, ∀ c ∈ l, Q a → Q (f a c)) (hhit : ∀ a, P a → Q (f a b)) {a : α} (ha : P a ∨ Q a) : Q (l.foldl f a) := by
  induction l generalizing a with
  | nil => cases hb
  | cons c l ih =>
    rw [List.foldl_cons]
    have hrest (a : α) (ha : Q a) : Q (l.foldl f a) := List.foldlRecOn l f ha (fun a ha x hx => hstay a x (.tail _ hx) ha)
    rcases ha with hP | hQ
    · cases hb with
      | head => exact hrest _ (hhit a hP)
      | tail _ hb => exact ih hb (fun a x hx => hkeep a x (.tail _ hx)) (fun a x hx => hstay a x (.tail _ hx)) (hkeep a c (.head _) hP)
    · exact hrest _ (hstay a c (.head _) hQ)

/-- The table reads `v` at `k`, whatever its default. -/
def Tab.Holds : Tab α → Nat → α → Prop
  | [], _, _ => False
  | (k', v') :: t, k, v => (k' = k ∧ v' = v) ∨ (k' < k ∧ Tab.Holds t k v)

theorem Tab.look_of_holds {t : Tab α} {k : Nat} {v : α} (h : Tab.Holds t k v) (d : α) : Tab.look t k d = v := by
  induction t with
  | nil => exact h.elim
  | cons e t ih =>
    obtain ⟨k', v'⟩ := e
    rcases h with ⟨rfl, rfl⟩ | ⟨hlt, h⟩
    · simp [Tab.look]
    · rw [Tab.look, if_neg (by omega), if_neg (by omega), ih h]

/-- A table that does not read its default holds what it reads. -/
theorem Tab.holds_of_look_ne {t : Tab α} {k : Nat} {d : α} (h : Tab.look t k d ≠ d) : Tab.Holds t k (Tab.look t k d) := by
  induction t with
  | nil => exact (h rfl).elim
  | cons e t ih =>
    obtain ⟨k', v'⟩ := e
    simp only [Tab.look] at h ⊢
    by_cases heq : k' = k
    · rw [if_pos heq]
      exact .inl ⟨heq, rfl⟩
    · by_cases hlt : k < k'
      · rw [if_neg heq, if_pos hlt] at h
        exact (h rfl).elim
      · rw [if_neg heq, if_neg hlt] at h ⊢
        exact .inr ⟨by omega, ih h⟩

theorem Tab.mem_of_holds {t : Tab α} {k : Nat} {v : α} (h : Tab.Holds t k v) : (k, v) ∈ t := by
  induction t with
  | nil => exact h.elim
  | cons e t ih =>
    obtain ⟨k', v'⟩ := e
    rcases h with ⟨rfl, rfl⟩ | ⟨-, h⟩
    · exact .head _
    · exact .tail _ (ih h)

theorem Tab.mem_keys_of_look_ne {t : Tab α} {k : Nat} {d : α} (h : Tab.look t k d ≠ d) : k ∈ t.keys :=
  List.mem_map.mpr ⟨_, Tab.mem_of_holds (Tab.holds_of_look_ne h), rfl⟩

theorem Tab.holds_put_same (t : Tab α) (k : Nat) (v : α) : Tab.Holds (Tab.put t k v) k v := by
  induction t with
  | nil => exact .inl ⟨rfl, rfl⟩
  | cons e t ih =>
    obtain ⟨k', v'⟩ := e
    simp only [Tab.put]
    split
    · exact .inl ⟨rfl, rfl⟩
    · split
      · exact .inl ⟨rfl, rfl⟩
      · exact .inr ⟨by omega, ih⟩

theorem Tab.holds_put_ne {t : Tab α} {j k : Nat} {v : α} (hne : j ≠ k) (w : α) (h : Tab.Holds t k v) : Tab.Holds (Tab.put t j w) k v := by
  induction t with
  | nil => exact h.elim
  | cons e t ih =>
    obtain ⟨k', v'⟩ := e
    simp only [Tab.put]
    split
    next hlt =>
      refine .inr ⟨?_, h⟩
      rcases h with ⟨hk, -⟩ | ⟨hk, -⟩ <;> omega
    next =>
      split
      next heq =>
        rcases h with ⟨hk, -⟩ | ⟨hk, h⟩
        · omega
        · exact .inr ⟨by omega, h⟩
      next =>
        rcases h with h | ⟨hk, h⟩
        · exact .inl h
        · exact .inr ⟨hk, ih h⟩

theorem Tab.holds_del_ne {t : Tab α} {j k : Nat} {v : α} (hne : j ≠ k) (h : Tab.Holds t k v) : Tab.Holds (Tab.del t j) k v := by
  induction t with
  | nil => exact h.elim
  | cons e t ih =>
    obtain ⟨k', v'⟩ := e
    by_cases heq : k' = j
    · rcases h with ⟨hk, -⟩ | ⟨-, h⟩
      · omega
      · simpa [Tab.del, heq] using ih h
    · have hcons : Tab.del ((k', v') :: t) j = (k', v') :: Tab.del t j := by simp [Tab.del, heq]
      rw [hcons]
      rcases h with h | ⟨hk, h⟩
      · exact .inl h
      · exact .inr ⟨hk, ih h⟩

theorem Tab.has_put_ne {t : Tab α} {j k : Nat} (hne : j ≠ k) (v : α) : Tab.has (Tab.put t j v) k = Tab.has t k := by
  have hj : (j == k) = false := beq_eq_false_iff_ne.mpr hne
  exact Tab.any_put (d := v) t rfl hj

theorem Tab.has_del {t : Tab α} {k : Nat} (h : Tab.has t k = false) (j : Nat) : Tab.has (Tab.del t j) k = false := by
  simp only [Tab.has, List.any_eq_false] at h ⊢
  exact fun e he => h e (List.mem_filter.mp he).1

theorem Tab.look_of_has_false {t : Tab α} {k : Nat} (h : Tab.has t k = false) (d : α) : Tab.look t k d = d := by
  induction t with
  | nil => rfl
  | cons e t ih =>
    obtain ⟨k', v'⟩ := e
    obtain ⟨hk, ht⟩ : k' ≠ k ∧ Tab.has t k = false := by simpa [Tab.has] using h
    simp only [Tab.look, if_neg hk, ih ht, ite_self]

end Sys2Proof
end

section
/-! PROOFS. What writes to memory and reports leave alone: the caches, and each home's directory, transactions and queue (R177, R180, R182, R206). -/

namespace Sys2Proof.Machine

variable {s t u : State} {h k : Nat}

/-- From `s` to `t` no cache and no message has changed, nor a home's directory, transactions or queue. -/
def State.sameLines (s t : State) : Prop :=
  t.tiles = s.tiles ∧ t.sc = s.sc ∧ t.graftCaches = s.graftCaches ∧ t.coh = s.coh ∧
    ∀ h, (t.home h).dir = (s.home h).dir ∧ (t.home h).txns = (s.home h).txns ∧ (t.home h).hq = (s.home h).hq

theorem sameLines_refl (s : State) : s.sameLines s := ⟨rfl, rfl, rfl, rfl, fun _ => ⟨rfl, rfl, rfl⟩⟩

theorem sameLines_trans (h₁ : s.sameLines t) (h₂ : t.sameLines u) : s.sameLines u := by
  obtain ⟨htiles, hsc, hgraft, hcoh, hhome⟩ := h₁
  obtain ⟨htiles', hsc', hgraft', hcoh', hhome'⟩ := h₂
  refine ⟨htiles'.trans htiles, hsc'.trans hsc, hgraft'.trans hgraft, hcoh'.trans hcoh, fun h => ?_⟩
  obtain ⟨hdir, htx, hq⟩ := hhome h
  obtain ⟨hdir', htx', hq'⟩ := hhome' h
  exact ⟨hdir'.trans hdir, htx'.trans htx, hq'.trans hq⟩

theorem sameLines_foldl {α : Type} {f : State → α → State} (hf : ∀ (t : State) x, t.sameLines (f t x)) (l : List α) (s : State) : s.sameLines (l.foldl f s) :=
  List.foldlRecOn l f (sameLines_refl s) (fun _ ht x _ => sameLines_trans ht (hf _ x))

theorem sameLines_tells (h : s.tells t) : s.sameLines t := by
  obtain ⟨_, _, _, _, rfl⟩ := h
  exact sameLines_refl s

theorem sameLines_wrSec (s : State) (a : Nat) (l : List Byte) : s.sameLines (s.wrSec a l) := by
  obtain ⟨m, p, hw⟩ := wrSec_only_memory s a l
  rw [hw]
  exact sameLines_refl s

theorem sameLines_poisonSec (s : State) (sec : Nat) : s.sameLines (s.poisonSec sec) := by
  obtain ⟨m, p, hw⟩ : ∃ m p, s.poisonSec sec = { s with mem := m, poison := p } := ⟨_, _, rfl⟩
  rw [hw]
  exact sameLines_refl s

theorem home_modHome_ne (hk : k ≠ h) (f : Stack → Stack) : (s.modHome h f).home k = s.home k := by
  by_cases hh : h ≤ 32
  · rw [modHome_eq hh, home_homeTo_ne hk]
  · rw [State.modHome, if_neg (by omega), State.modStack, if_neg (by omega)]

theorem home_modHome (hh : h ≤ 32) (f : Stack → Stack) : (s.modHome h f).home h = f (s.home h) := by rw [modHome_eq hh, home_homeTo]

theorem modHome_sc (s : State) (h : Nat) (f : Stack → Stack) : (s.modHome h f).sc = s.sc := by
  unfold State.modHome
  split
  · rfl
  · exact modStack_sc ..

theorem modHome_tiles (s : State) (h : Nat) (f : Stack → Stack) : (s.modHome h f).tiles = s.tiles := by
  unfold State.modHome
  split
  · rfl
  · exact modStack_tiles ..

theorem modHome_graftCaches (s : State) (h : Nat) (f : Stack → Stack) : (s.modHome h f).graftCaches = s.graftCaches := by
  unfold State.modHome
  split
  · rfl
  · exact modStack_graftCaches ..

theorem modHome_coh (s : State) (h : Nat) (f : Stack → Stack) : (s.modHome h f).coh = s.coh := by
  unfold State.modHome
  split
  · rfl
  · exact modStack_coh ..

theorem sameLines_modHome {f : Stack → Stack} (hf : (f (s.home h)).dir = (s.home h).dir ∧ (f (s.home h)).txns = (s.home h).txns ∧ (f (s.home h)).hq = (s.home h).hq) :
    s.sameLines (s.modHome h f) := by
  refine ⟨modHome_tiles .., modHome_sc .., modHome_graftCaches .., modHome_coh .., fun k => ?_⟩
  by_cases hk : k = h
  · subst hk
    by_cases hh : k ≤ 32
    · rw [home_modHome hh]
      exact hf
    · rw [State.modHome, if_neg (by omega), State.modStack, if_neg (by omega)]
      exact ⟨rfl, rfl, rfl⟩
  · rw [home_modHome_ne hk]
    exact ⟨rfl, rfl, rfl⟩

theorem sameLines_modStack {f : Stack → Stack} (hf : ∀ x : Stack, (f x).dir = x.dir ∧ (f x).txns = x.txns ∧ (f x).hq = x.hq) (l : Nat) : s.sameLines (s.modStack l f) := by
  by_cases hl : l = 32
  · rw [State.modStack, if_neg (by omega)]
    exact sameLines_refl s
  · have hhome := sameLines_modHome (s := s) (h := l) (hf _)
    rwa [State.modHome, if_neg hl] at hhome

/-- Parity upkeep concerns memory and the lists of a stack's SSU. -/
theorem sameLines_ssuSec (s : State) (c a : Nat) (l : List Byte) : s.sameLines (s.ssuSec c a l) := by
  unfold State.ssuSec
  dsimp only
  split
  · exact sameLines_wrSec ..
  · split
    · exact sameLines_wrSec ..
    · refine sameLines_trans ?_ (sameLines_modStack (by exact fun _ => ⟨rfl, rfl, rfl⟩) _)
      split
      · exact sameLines_wrSec ..
      · exact sameLines_trans (sameLines_wrSec ..) (sameLines_modStack (by exact fun _ => ⟨rfl, rfl, rfl⟩) _)

theorem sameLines_ssuGo (fuel : Nat) (s : State) (c a : Nat) (l : List Byte) : s.sameLines (State.ssuGo fuel s c a l) := by
  induction fuel generalizing s a l with
  | zero => exact sameLines_refl s
  | succ fuel ih =>
    unfold State.ssuGo
    split
    · exact sameLines_refl s
    · exact sameLines_trans (sameLines_ssuSec ..) (ih ..)

theorem sameLines_ssuPoison (s : State) (c sec : Nat) : s.sameLines (s.ssuPoison c sec) := by
  have hsec : s.sameLines ((s.ssuSec c (32 * sec) (List.replicate 32 0)).poisonSec sec) := sameLines_trans (sameLines_ssuSec ..) (sameLines_poisonSec ..)
  unfold State.ssuPoison
  dsimp only
  split
  · split
    · exact hsec
    · split
      · exact sameLines_trans hsec (sameLines_modStack (by exact fun _ => ⟨rfl, rfl, rfl⟩) _)
      · exact sameLines_trans hsec (sameLines_tells (tells_replaceCause ..))
  · exact hsec

theorem sameLines_homeWrite (s : State) (c ln : Nat) (m : BitVec 4) (d : BitVec 1024) (p : BitVec 4) : s.sameLines (s.homeWrite c ln m d p) := by
  refine sameLines_foldl (fun t j => ?_) _ s
  split
  · split
    · exact sameLines_ssuPoison ..
    · exact sameLines_ssuGo ..
  · exact sameLines_refl t

/-- The loss of a line's dirty sectors is poison, events and a report (R206). -/
theorem sameLines_loseLine (s : State) (h ln : Nat) (m : BitVec 4) : s.sameLines (s.loseLine h ln m) := by
  unfold State.loseLine
  split
  · exact sameLines_refl s
  · refine sameLines_trans (sameLines_trans (sameLines_foldl (fun t j => ?_) _ s) (sameLines_tells (tells_report ..))) (sameLines_modHome ⟨rfl, rfl, rfl⟩)
    split
    · exact sameLines_trans (sameLines_ssuPoison ..) (sameLines_tells (tells_poisonEvent ..))
    · exact sameLines_refl t

end Sys2Proof.Machine
end

section
/-! PROOFS. A cache flushed of the one line it holds (R205). -/

namespace Sys2Proof.Machine

variable {s t : State} {d d' u v ln : Nat} {c : Cache} {e : CacheLine}

/-! ### Caches -/

theorem cache_congr (htiles : t.tiles = s.tiles) (hsc : t.sc = s.sc) (hgraft : t.graftCaches = s.graftCaches) (d u : Nat) : t.cache d u = s.cache d u := by
  simp only [State.cache, State.tile, htiles, hsc, hgraft]

theorem cache_sameLines (h : s.sameLines t) (d u : Nat) : t.cache d u = s.cache d u := by
  obtain ⟨htiles, hsc, hgraft, -⟩ := h
  exact cache_congr htiles hsc hgraft d u

theorem cache_setDir (s : State) (h ln : Nat) (e : DirEnt) (d u : Nat) : (s.setDir h ln e).cache d u = s.cache d u :=
  cache_congr (modHome_tiles ..) (modHome_sc ..) (modHome_graftCaches ..) d u

theorem tile_modTile_ne (hne : d ≠ d') (f : Tile → Tile) : (s.modTile d' f).tile d = s.tile d := by
  unfold State.modTile
  split
  · exact Tab.look_put_ne _ hne ..
  · rfl

theorem tile_modTile (hd : isTileDie d = true) (f : Tile → Tile) : (s.modTile d f).tile d = f (s.tile d) := by
  rw [State.modTile, if_pos hd]
  exact Tab.look_put_same ..

/-- The cache of another die is as it was. -/
theorem cache_setCache_ne (hne : d ≠ d') (v : Nat) (c : Cache) (u : Nat) : (s.setCache d' v c).cache d u = s.cache d u := by
  have htile (f : Tile → Tile) : (s.modTile d' f).cache d u = s.cache d u := by
    simp only [State.cache, tile_modTile_ne hne, modTile_sc, modTile_graftCaches]
  unfold State.setCache
  split
  · split
    · unfold State.cache
      split
      · exact Tab.look_put_ne _ (by omega) ..
      · rfl
    · rfl
  · split
    · unfold State.cache
      rw [if_neg (by omega : d ≠ 0), if_neg (by omega : d ≠ 0)]
      rfl
    · split <;> exact htile _

theorem isTileDie_iff : isTileDie d = true ↔ 1 ≤ d ∧ d ≤ 28 := by simp [isTileDie]

/-- Of a tile's caches, one is replaced. -/
theorem cache_setCache_tile (hd : isTileDie d = true) (hu : u ≤ 8) (hv : v ≤ 8) : (s.setCache d v c).cache d u = if u = v then c else s.cache d u := by
  obtain ⟨hlo, hhi⟩ := isTileDie_iff.mp hd
  have hgraft : ¬ 29 ≤ d := by omega
  have hhub : d ≠ 0 := by omega
  simp only [State.setCache, State.cache, if_neg hgraft, if_neg hhub]
  by_cases hv8 : v < 8
  · rw [if_pos hv8, tile_modTile hd]
    by_cases huv : u = v
    · subst huv
      rw [if_pos hv8, if_pos rfl]
      exact Tab.look_put_same ..
    · rw [if_neg huv]
      by_cases hu8 : u < 8
      · rw [if_pos hu8, if_pos hu8]
        exact Tab.look_put_ne _ huv ..
      · rw [if_neg hu8, if_neg hu8]
  · rw [if_neg hv8, tile_modTile hd]
    by_cases hu8 : u < 8
    · rw [if_pos hu8, if_pos hu8, if_neg (by omega)]
    · rw [if_neg hu8, if_pos (by omega)]

/-! ### The shared cache of a die: the system cache of the hub, the remote-line cache of a tile -/

theorem mem_unitsOf (d : Nat) : 8 ∈ unitsOf d := by
  unfold unitsOf
  split <;> decide

theorem unit_le_eight (hu : u ∈ unitsOf d) : u ≤ 8 := by
  unfold unitsOf at hu
  split at hu
  · exact (List.mem_singleton.mp hu).le
  · exact Nat.le_of_lt_succ (List.mem_range.mp hu)

/-- The lines of the cache that the units of a die share. -/
def State.shared (s : State) (d : Nat) : Tab CacheLine := (s.cache d 8).lines

theorem shared_sameLines (h : s.sameLines t) (d : Nat) : t.shared d = s.shared d := congrArg Cache.lines (cache_sameLines h d 8)

/-- A line of one cache replaced, as the shared cache of a die sees it. -/
theorem shared_setLine (hd : d = 0 ∨ isTileDie d = true) (hu : u ∈ unitsOf d') (ln : Nat) (e : CacheLine) :
    (s.setLine d' u ln e).shared d
      = if d' = d ∧ u = 8 then (if e.st = .i ∧ e.wb = 0 then (s.shared d).del ln else (s.shared d).put ln e) else s.shared d := by
  unfold State.setLine State.shared
  by_cases hdd : d' = d
  · subst hdd
    rcases hd with rfl | hd
    · have hu8 : u = 8 := List.mem_singleton.mp hu
      subst hu8
      rfl
    · rw [cache_setCache_tile hd (Nat.le_refl 8) (unit_le_eight hu)]
      by_cases hu8 : u = 8
      · subst hu8
        simp
      · simp [hu8, Ne.symm hu8]
  · rw [cache_setCache_ne (Ne.symm hdd), if_neg (fun h => hdd h.1)]

/-- One step of a snoop's end at a die: what it does to a line of one cache. -/
def State.downUnit (s : State) (die ln : Nat) (inv : Bool) (u : Nat) : State :=
  if (s.line die u ln).st = .i then s else s.setLine die u ln ((s.line die u ln).snooped inv)

theorem dieDowngrade_eq_foldl (s : State) (die ln : Nat) (inv : Bool) : s.dieDowngrade die ln inv = (unitsOf die).foldl (fun s u => s.downUnit die ln inv u) s := by
  unfold State.dieDowngrade State.downUnit CacheLine.snooped
  cases inv <;> rfl

theorem line_shared (h : s.shared d = []) (ln : Nat) : (s.line d 8 ln).st = .i := by
  have hline : s.line d 8 ln = (s.shared d).look ln {} := rfl
  rw [hline, h]
  rfl

theorem line_shared_only (h : s.shared d = [(ln, e)]) : s.line d 8 ln = e := by
  have hline : s.line d 8 ln = (s.shared d).look ln {} := rfl
  rw [hline, h]
  exact if_pos rfl

section

variable (hd : d = 0 ∨ isTileDie d = true)
include hd

/-- An empty shared cache takes no line. -/
theorem downUnit_empty (hu : u ∈ unitsOf d') (inv : Bool) (h : s.shared d = []) : (s.downUnit d' ln inv u).shared d = [] := by
  unfold State.downUnit
  split
  · exact h
  next hst =>
    rw [shared_setLine hd hu, if_neg]
    · exact h
    · rintro ⟨rfl, rfl⟩
      exact hst (line_shared h ln)

theorem dieDowngrade_empty (inv : Bool) (h : s.shared d = []) : (s.dieDowngrade d' ln inv).shared d = [] := by
  rw [dieDowngrade_eq_foldl]
  exact List.foldlRecOn (motive := fun t : State => t.shared d = []) _ _ h (fun t ht u hu => downUnit_empty hd hu inv ht)

/-- What happens at another die leaves the shared cache as it is. -/
theorem dieDowngrade_other (hne : d' ≠ d) (inv : Bool) : (s.dieDowngrade d' ln inv).shared d = s.shared d := by
  rw [dieDowngrade_eq_foldl]
  refine List.foldlRecOn (motive := fun t : State => t.shared d = s.shared d) _ _ rfl (fun t ht u hu => ?_)
  unfold State.downUnit
  split
  · exact ht
  · rw [shared_setLine hd hu, if_neg (fun h => hne h.1), ht]

section

variable (hst : e.st ≠ .i) (hwb : e.wb = 0)
include hst hwb

/-- The only line of a shared cache, nothing of it buffered, leaves the cache. -/
theorem dieDowngrade_holder (h : s.shared d = [(ln, e)]) : (s.dieDowngrade d ln true).shared d = [] := by
  have hhit (t : State) (ht : t.shared d = [(ln, e)]) : (t.downUnit d ln true 8).shared d = [] := by
    rw [State.downUnit, line_shared_only ht, if_neg hst, shared_setLine hd (mem_unitsOf d), if_pos ⟨rfl, rfl⟩, if_pos ⟨rfl, hwb⟩, ht]
    simp [Tab.del]
  rw [dieDowngrade_eq_foldl]
  refine foldl_reaches (P := fun t : State => t.shared d = [(ln, e)]) (Q := fun t : State => t.shared d = []) (mem_unitsOf d) (fun t u hu ht => ?_)
    (fun t u hu ht => downUnit_empty hd hu true ht) hhit (.inl h)
  by_cases hu8 : u = 8
  · subst hu8
    exact .inr (hhit t ht)
  · refine .inl ?_
    unfold State.downUnit
    split
    · exact ht
    · rw [shared_setLine hd hu, if_neg (fun h => hu8 h.2), ht]

/-! ### One line settled (R195, R205) -/

/-- A die gives one line of a range up: its dirty sectors reach memory first. -/
def State.giveUp (s : State) (die ln : Nat) (inv : Bool) : State :=
  (s.homeWrite (s.line die 8 ln).cmpt ln (s.dieDirty die ln).1 (s.dieDirty die ln).2.1 (s.dieDirty die ln).2.2).dieDowngrade die ln inv

end

theorem giveUp_empty (inv : Bool) (h : s.shared d = []) : (s.giveUp d' ln inv).shared d = [] :=
  dieDowngrade_empty hd inv ((shared_sameLines (sameLines_homeWrite ..) d).trans h)

theorem giveUp_other (hne : d' ≠ d) (inv : Bool) : (s.giveUp d' ln inv).shared d = s.shared d :=
  (dieDowngrade_other hd hne inv).trans (shared_sameLines (sameLines_homeWrite ..) d)

theorem giveUp_holder (hst : e.st ≠ .i) (hwb : e.wb = 0) (h : s.shared d = [(ln, e)]) : (s.giveUp d ln true).shared d = [] :=
  dieDowngrade_holder hd hst hwb ((shared_sameLines (sameLines_homeWrite ..) d).trans h)

end

/-- The lines of a range that the caches of a die hold. -/
def State.linesIn (s : State) (a n die : Nat) : List Nat :=
  ((unitsOf die).flatMap (fun u => ((s.cache die u).lines.filter (fun e => lineIn a n e.1)).map (·.1))).dedup

theorem lineIn_line {x : Nat} : lineIn (128 * ln) 128 x = true ↔ x = ln := by
  simp only [lineIn, Bool.and_eq_true, decide_eq_true_eq]
  omega

theorem eq_of_mem_linesIn {x : Nat} (hx : x ∈ s.linesIn (128 * ln) 128 d) : x = ln := by
  simp only [State.linesIn, List.mem_dedup, List.mem_flatMap, List.mem_map, List.mem_filter] at hx
  obtain ⟨_, _, y, ⟨_, hy⟩, rfl⟩ := hx
  exact lineIn_line.mp hy

theorem mem_linesIn_holder (h : s.shared d = [(ln, e)]) : ln ∈ s.linesIn (128 * ln) 128 d := by
  simp only [State.linesIn, List.mem_dedup, List.mem_flatMap, List.mem_map, List.mem_filter]
  have hmem : (ln, e) ∈ s.shared d := by
    rw [h]
    exact .head _
  exact ⟨8, mem_unitsOf d, (ln, e), ⟨hmem, lineIn_line.mpr rfl⟩, rfl⟩

/-- One die's part of settling a range. -/
def State.settleDie (s : State) (a n : Nat) (inv : Bool) (die : Nat) : State := (s.linesIn a n die).foldl (fun s ln => s.giveUp die ln inv) s

section

variable (hd : d = 0 ∨ isTileDie d = true)
include hd

theorem settleDie_empty (a n : Nat) (inv : Bool) (h : s.shared d = []) : (s.settleDie a n inv d').shared d = [] := by
  unfold State.settleDie
  exact List.foldlRecOn (motive := fun t : State => t.shared d = []) _ _ h (fun t ht x _ => giveUp_empty hd inv ht)

theorem settleDie_other (hne : d' ≠ d) (a n : Nat) (inv : Bool) : (s.settleDie a n inv d').shared d = s.shared d := by
  unfold State.settleDie
  exact List.foldlRecOn (motive := fun t : State => t.shared d = s.shared d) _ _ rfl (fun t ht x _ => (giveUp_other hd hne inv).trans ht)

theorem settleDie_holder (hst : e.st ≠ .i) (hwb : e.wb = 0) (h : s.shared d = [(ln, e)]) : (s.settleDie (128 * ln) 128 true d).shared d = [] := by
  unfold State.settleDie
  refine foldl_reaches (f := fun t x => t.giveUp d x true) (P := fun t : State => t.shared d = [(ln, e)]) (Q := fun t : State => t.shared d = []) (mem_linesIn_holder h)
    ?_ ?_ ?_ (.inl h)
  · intro t x hx ht
    rw [eq_of_mem_linesIn hx]
    exact .inr (giveUp_holder hd hst hwb ht)
  · exact fun t x _ ht => giveUp_empty hd true ht
  · exact fun t ht => giveUp_holder hd hst hwb ht

end

/-- One home's part of settling a range. -/
def State.settleHome (s : State) (a n : Nat) (inv : Bool) (h : Nat) : State :=
  (s.home h).dir.foldl (fun s e =>
    if lineIn a n e.1 && !s.busy h e.1 && !(s.coh.any (fun m => m.toAgent && m.line == e.1)) then
      (if inv then s.setDir h e.1 { st := .i } else if e.2.st = .s then s else s.setDir h e.1 { e.2 with st := .s, dirty := 0 })
    else s) s

/-- With no message on its way, a range settles die by die and then home by home. -/
theorem settle_eq (hc : s.coh = []) (a n : Nat) (inv : Bool) :
    s.settle a n inv = (32 :: ((0 :: (s.tiles.keys ++ s.graftCaches.keys.map (· + 29))).foldl (fun t d => t.settleDie a n inv d) s).stk.keys).foldl
      (fun t h => t.settleHome a n inv h) ((0 :: (s.tiles.keys ++ s.graftCaches.keys.map (· + 29))).foldl (fun t d => t.settleDie a n inv d) s) := by
  simp only [State.settle, hc, List.foldl_nil, List.map_nil, withCoh_self hc]
  rfl

theorem cache_settleHome (s : State) (a n : Nat) (inv : Bool) (h d u : Nat) : (s.settleHome a n inv h).cache d u = s.cache d u := by
  refine List.foldlRecOn (motive := fun t => State.cache t d u = s.cache d u) _ _ rfl (fun t ht e _ => ?_)
  split
  · split
    · exact (cache_setDir ..).trans ht
    · split
      · exact ht
      · exact (cache_setDir ..).trans ht
  · exact ht

/-- A die that holds lines is among those that settle. -/
theorem mem_settling (hd : d = 0 ∨ isTileDie d = true) (h : s.shared d ≠ []) : d ∈ 0 :: (s.tiles.keys ++ s.graftCaches.keys.map (· + 29)) := by
  rcases hd with rfl | hd
  · exact .head _
  · refine .tail _ (List.mem_append_left _ (Tab.mem_keys_of_look_ne (d := {}) (fun hempty => h ?_)))
    obtain ⟨hlo, hhi⟩ := isTileDie_iff.mp hd
    have htile : s.tile d = {} := hempty
    rw [State.shared, State.cache, if_neg (by omega), if_neg (by omega), if_neg (by omega), htile]

/-- The only line of a shared cache, settled, leaves the cache empty. -/
theorem settle_holder (hd : d = 0 ∨ isTileDie d = true) (hc : s.coh = []) (hst : e.st ≠ .i) (hwb : e.wb = 0) (h : s.shared d = [(ln, e)]) :
    (s.settle (128 * ln) 128 true).shared d = [] := by
  rw [settle_eq hc]
  refine List.foldlRecOn (motive := fun t : State => t.shared d = []) _ _ ?_ (fun t ht k _ => (congrArg Cache.lines (cache_settleHome t _ _ _ k d 8)).trans ht)
  refine foldl_reaches (f := fun t x => t.settleDie (128 * ln) 128 true x) (P := fun t : State => t.shared d = [(ln, e)]) (Q := fun t : State => t.shared d = [])
    (mem_settling hd (by rw [h]; exact List.cons_ne_nil _ _)) ?_ ?_ ?_ (.inl h)
  · intro t x _ ht
    by_cases hne : x = d
    · rw [hne]
      exact .inr (settleDie_holder hd hst hwb ht)
    · exact .inl ((settleDie_other hd hne ..).trans ht)
  · exact fun t x _ ht => settleDie_empty hd _ _ _ ht
  · exact fun t ht => settleDie_holder hd hst hwb ht

theorem flushCache_holder (hd : d = 0 ∨ isTileDie d = true) (hc : s.coh = []) (hst : e.st ≠ .i) (hwb : e.wb = 0) (h : s.shared d = [(ln, e)]) :
    (s.flushCache d 8 (fun _ => true)).shared d = [] := by
  have hlines : (s.cache d 8).lines = [(ln, e)] := h
  simp only [State.flushCache, hlines, List.filter_cons, List.filter_nil, if_true, List.foldl_cons, List.foldl_nil]
  exact settle_holder hd hc hst hwb h

/-! ### The flush registers (Tables 8.8 and 8.9) -/

section

variable {p : Port} {w : BitVec 64} (hup : s.isUp = true)
include hup

theorem exec_flush_denied (hp : p ≠ .pf) (hp' : p ≠ .mgmt) (d : Nat) (w : BitVec 64) :
    exec (.tilRlcFlush p d w) s = .next (s.portDenied p 0x600020) ∧ exec (.hubScFlush p w) s = .next (s.portDenied p 0x600008) := by
  have htil : exec (.tilRlcFlush p d w) s = execTilRlcFlush p d w s := rfl
  have hhub : exec (.hubScFlush p w) s = execHubScFlush p w s := rfl
  have hport : (p != .pf && p != .mgmt) = true := by rw [bne_iff_ne.mpr hp, bne_iff_ne.mpr hp']; rfl
  rw [htil, hhub, execTilRlcFlush, execHubScFlush, upDo_up hup, upDo_up hup, if_pos hport, if_pos hport]
  exact ⟨rfl, rfl⟩

theorem exec_tilRlcFlush_open (hp : p = .pf ∨ p = .mgmt) (d : Nat) (w : BitVec 64) :
    exec (.tilRlcFlush p d w) s = .next (if !bit w 0 || s.anyActive || !isTileDie d then s else s.flushCache d 8 (fun _ => true)) := by
  have heq : exec (.tilRlcFlush p d w) s = execTilRlcFlush p d w s := rfl
  have hport : (p != .pf && p != .mgmt) = false := by rcases hp with rfl | rfl <;> rfl
  rw [heq, execTilRlcFlush, upDo_up hup, hport, if_neg Bool.false_ne_true]

theorem exec_hubScFlush_open (hp : p = .pf ∨ p = .mgmt) (w : BitVec 64) :
    exec (.hubScFlush p w) s = .next (if !bit w 0 || s.anyActive then s else s.flushCache 0 8 (fun _ => true)) := by
  have heq : exec (.hubScFlush p w) s = execHubScFlush p w s := rfl
  have hport : (p != .pf && p != .mgmt) = false := by rcases hp with rfl | rfl <;> rfl
  rw [heq, execHubScFlush, upDo_up hup, hport, if_neg Bool.false_ne_true]

/-- A flush that is not asked for, or that an active vitrine forbids, is ignored. -/
theorem exec_flush_ignored (hp : p = .pf ∨ p = .mgmt) (hw : w.getLsbD 0 = false ∨ s.anyActive = true) (d : Nat) :
    exec (.tilRlcFlush p d w) s = .next s ∧ exec (.hubScFlush p w) s = .next s := by
  have hno : (!bit w 0 || s.anyActive) = true := by
    rcases hw with hw | hw
    · rw [bit, hw]
      rfl
    · rw [hw, Bool.or_true]
  rw [exec_tilRlcFlush_open hup hp, exec_hubScFlush_open hup hp, hno, Bool.true_or, if_pos rfl, if_pos rfl]
  exact ⟨rfl, rfl⟩

end

end Sys2Proof.Machine
end

section
/-! PROOFS. The reclaim of a dead die: no entry of a home names it any more, and its caches are empty (R206). -/

namespace Sys2Proof.Machine

variable {s t : State} {d h k ln x : Nat} {e v : DirEnt}

/-! ### Entries that no longer name a die -/

/-- An entry that does not name a die, or names no holder at all. -/
def DirEnt.without (e : DirEnt) (d : Nat) : Prop := e.st = .i ∨ bit e.sharers d = false

/-- The home's entry of a line is settled and does not name the die, or there is none. -/
def State.lineFree (s : State) (d h ln : Nat) : Prop :=
  (∃ v, Tab.Holds (s.home h).dir ln v ∧ bit v.sharers d = false) ∨ (s.home h).dir.has ln = false

/-- No home holds a request or a transaction. -/
def State.homesIdle (s : State) : Prop := ∀ h, (s.home h).hq = [] ∧ (s.home h).txns = []

theorem bit_dirEnt_of_lineFree (hf : s.lineFree d h ln) : bit (s.dirEnt h ln).sharers d = false := by
  rcases hf with ⟨v, hv, hbit⟩ | hnone
  · rwa [State.dirEnt, Tab.look_of_holds hv]
  · rw [State.dirEnt, Tab.look_of_has_false hnone]
    exact BitVec.getLsbD_zero

theorem home_sameLines (hs : s.sameLines t) (h : Nat) :
    (t.home h).dir = (s.home h).dir ∧ (t.home h).txns = (s.home h).txns ∧ (t.home h).hq = (s.home h).hq := by
  obtain ⟨-, -, -, -, hhome⟩ := hs
  exact hhome h

theorem dir_sameLines (hs : s.sameLines t) (h : Nat) : (t.home h).dir = (s.home h).dir := by
  obtain ⟨hdir, -⟩ := home_sameLines hs h
  exact hdir

theorem homesIdle_sameLines (hs : s.sameLines t) (hq : s.homesIdle) : t.homesIdle := by
  intro h
  obtain ⟨-, htx, hhq⟩ := home_sameLines hs h
  obtain ⟨hq, hx⟩ := hq h
  exact ⟨hhq.trans hq, htx.trans hx⟩

theorem lineFree_of_dir (hdir : (t.home h).dir = (s.home h).dir) (hf : s.lineFree d h ln) : t.lineFree d h ln := by
  rwa [State.lineFree, hdir]

/-! ### One entry set -/

theorem home_setDir_ne (hk : k ≠ h) (ln : Nat) (e : DirEnt) : (s.setDir h ln e).home k = s.home k := home_modHome_ne hk _

theorem dir_setDir (hh : h ≤ 32) (ln : Nat) (e : DirEnt) :
    ((s.setDir h ln e).home h).dir = if e.st = .i then (s.home h).dir.del ln else (s.home h).dir.put ln { e with used := (s.home h).clock + 1 } := by
  rw [State.setDir, home_modHome hh]
  split <;> rfl

theorem homesIdle_setDir (hq : s.homesIdle) (h ln : Nat) (e : DirEnt) : (s.setDir h ln e).homesIdle := by
  intro k
  by_cases hk : k = h
  · subst hk
    by_cases hh : k ≤ 32
    · rw [State.setDir, home_modHome hh]
      split <;> exact hq k
    · rw [State.setDir, State.modHome, if_neg (by omega), State.modStack, if_neg (by omega)]
      exact hq k
  · rw [home_setDir_ne hk]
    exact hq k

/-- An entry set without the die frees its line. -/
theorem lineFree_setDir_same (hh : h ≤ 32) (he : e.without d) : (s.setDir h ln e).lineFree d h ln := by
  rw [State.lineFree, dir_setDir hh]
  by_cases hi : e.st = .i
  · rw [if_pos hi]
    exact .inr (Tab.has_del_same ..)
  · rw [if_neg hi]
    exact .inl ⟨_, Tab.holds_put_same .., he.resolve_left hi⟩

theorem lineFree_setDir_ne (hh : h ≤ 32) (hx : x ≠ ln) (e : DirEnt) (hf : s.lineFree d h ln) : (s.setDir h x e).lineFree d h ln := by
  rw [State.lineFree, dir_setDir hh]
  rcases hf with ⟨v, hv, hbit⟩ | hnone
  · refine .inl ⟨v, ?_, hbit⟩
    split
    · exact Tab.holds_del_ne hx hv
    · exact Tab.holds_put_ne hx _ hv
  · refine .inr ?_
    split
    · exact Tab.has_del hnone x
    · rwa [Tab.has_put_ne hx]

theorem holds_setDir_ne (hh : h ≤ 32) (hx : x ≠ ln) (e : DirEnt) (hv : Tab.Holds (s.home h).dir ln v) : Tab.Holds ((s.setDir h x e).home h).dir ln v := by
  rw [dir_setDir hh]
  split
  · exact Tab.holds_del_ne hx hv
  · exact Tab.holds_put_ne hx _ hv

/-- Setting entries without the die keeps a free line free. -/
theorem lineFree_setDir (hh : h ≤ 32) (he : e.without d) (hf : s.lineFree d h ln) : (s.setDir k x e).lineFree d h ln := by
  by_cases hk : h = k
  · subst hk
    by_cases hx : x = ln
    · rw [hx]
      exact lineFree_setDir_same hh he
    · exact lineFree_setDir_ne hh hx e hf
  · exact lineFree_of_dir (congrArg Stack.dir (home_setDir_ne hk x e)) hf

/-! ### The directory walk (R206, step 4) -/

/-- One entry of the walk: the die leaves it, and what it held dirty is lost. -/
def State.dropSharer (s : State) (die h : Nat) (e : Nat × DirEnt) : State :=
  if bit e.2.sharers die then
    match e.2.st with
    | .s => s.setDir h e.1 (if e.2.sharers &&& ~~~dieBit die = 0 then { st := .i } else { e.2 with sharers := e.2.sharers &&& ~~~dieBit die })
    | .e => s.setDir h e.1 { st := .i }
    | .m => (s.loseLine h e.1 e.2.dirty).setDir h e.1 { st := .i }
    | .i => s
  else s

theorem bit_without_dieBit (hd : d < 33) (w : BitVec 33) : bit (w &&& ~~~dieBit d) d = false := by
  have hbit : (dieBit d).getLsbD d = true := bit_dieBit hd
  rw [bit, BitVec.getLsbD_and, BitVec.getLsbD_not, hbit, Bool.not_true, Bool.and_false, Bool.and_false]

/-- A step of the walk changes nothing, or sets the entry to one without the die. -/
theorem dropSharer_cases (hd : d < 33) (s : State) (h : Nat) (e : Nat × DirEnt) :
    (s.dropSharer d h e = s ∧ e.2.without d) ∨ ∃ u f, s.sameLines u ∧ s.dropSharer d h e = u.setDir h e.1 f ∧ f.without d := by
  unfold State.dropSharer
  split
  next hbit =>
    split
    · refine .inr ⟨s, _, sameLines_refl s, rfl, ?_⟩
      split
      · exact .inl rfl
      · exact .inr (bit_without_dieBit hd _)
    · exact .inr ⟨s, _, sameLines_refl s, rfl, .inl rfl⟩
    · exact .inr ⟨_, _, sameLines_loseLine .., rfl, .inl rfl⟩
    next hi => exact .inl ⟨rfl, .inl hi⟩
  next hbit => exact .inl ⟨rfl, .inr (Bool.eq_false_iff.mpr hbit)⟩

section

variable (hd : d < 33)
include hd

theorem homesIdle_dropSharer (hq : s.homesIdle) (h : Nat) (e : Nat × DirEnt) : (s.dropSharer d h e).homesIdle := by
  rcases dropSharer_cases hd s h e with ⟨heq, -⟩ | ⟨u, f, hu, heq, -⟩
  · rwa [heq]
  · rw [heq]
    exact homesIdle_setDir (homesIdle_sameLines hu hq) h e.1 f

theorem lineFree_dropSharer (hh : h ≤ 32) (hf : s.lineFree d h ln) (k : Nat) (e : Nat × DirEnt) : (s.dropSharer d k e).lineFree d h ln := by
  rcases dropSharer_cases hd s k e with ⟨heq, -⟩ | ⟨u, f, hu, heq, hwithout⟩
  · rwa [heq]
  · rw [heq]
    exact lineFree_setDir hh hwithout (lineFree_of_dir (dir_sameLines hu h) hf)

theorem holds_dropSharer_ne (hh : h ≤ 32) (hv : Tab.Holds (s.home h).dir ln v) {e : Nat × DirEnt} (hne : k ≠ h ∨ e.1 ≠ ln) :
    Tab.Holds ((s.dropSharer d k e).home h).dir ln v := by
  rcases dropSharer_cases hd s k e with ⟨heq, -⟩ | ⟨u, f, hu, heq, -⟩
  · rwa [heq]
  · rw [heq]
    have hv' : Tab.Holds (u.home h).dir ln v := by rwa [dir_sameLines hu h]
    by_cases hk : h = k
    · subst hk
      exact holds_setDir_ne hh (hne.resolve_left (fun hn => hn rfl)) f hv'
    · rwa [home_setDir_ne hk]

/-- The walk's step at an entry that names the die frees its line. -/
theorem lineFree_dropSharer_hit (hh : h ≤ 32) (hv : ¬ v.without d) : (s.dropSharer d h (ln, v)).lineFree d h ln := by
  rcases dropSharer_cases hd s h (ln, v) with ⟨-, hwithout⟩ | ⟨u, f, -, heq, hwithout⟩
  · exact absurd hwithout hv
  · rw [heq]
    exact lineFree_setDir_same hh hwithout

/-! ### One home, and all of them -/

/-- A home whose queue and transactions the die has left (R206, steps 2 and 3). -/
def Stack.unqueued (t : Stack) (die : Nat) : Stack :=
  { t with
    hq := t.hq.filter (fun m => m.src != die)
    recover := t.recover.filter (· != die)
    txns := t.txns.each (fun _ x => { x with req := x.req.map (fun m => if m.src = die then { m with dead := true } else m) }) }

omit hd in
theorem sameLines_unqueued (hq : s.homesIdle) (d h : Nat) : s.sameLines (s.modHome h (·.unqueued d)) := by
  obtain ⟨hhq, htx⟩ := hq h
  refine sameLines_modHome ⟨rfl, ?_, ?_⟩
  · rw [Stack.unqueued, htx]
    rfl
  · rw [Stack.unqueued, hhq]
    rfl

omit hd in
/-- Where no home holds a request or a transaction, a home's reclaim is its directory walk. -/
theorem reclaimHome_idle (hq : s.homesIdle) (d h : Nat) :
    s.reclaimHome d h = ((s.modHome h (·.unqueued d)).home h).dir.foldl (fun t e => t.dropSharer d h e) (s.modHome h (·.unqueued d)) := by
  obtain ⟨hhq, htx⟩ := homesIdle_sameLines (sameLines_unqueued hq d h) hq h
  have hnone : ((s.modHome h (·.unqueued d)).home h).txns = [] := htx
  have hdrain : (s.modHome h (·.unqueued d)).drain h = s.modHome h (·.unqueued d) := drain_empty hhq
  unfold Stack.unqueued at hnone hdrain ⊢
  simp only [State.reclaimHome, hnone, List.foldl_nil, hdrain]
  rfl

theorem homesIdle_reclaimHome (hq : s.homesIdle) (h : Nat) : (s.reclaimHome d h).homesIdle := by
  rw [reclaimHome_idle hq]
  exact List.foldlRecOn (motive := State.homesIdle) _ _ (homesIdle_sameLines (sameLines_unqueued hq d h) hq) (fun t ht e _ => homesIdle_dropSharer hd ht h e)

theorem lineFree_reclaimHome (hh : h ≤ 32) (hq : s.homesIdle) (hf : s.lineFree d h ln) (k : Nat) : (s.reclaimHome d k).lineFree d h ln := by
  rw [reclaimHome_idle hq]
  exact List.foldlRecOn (motive := fun t : State => t.lineFree d h ln) _ _ (lineFree_of_dir (dir_sameLines (sameLines_unqueued hq d k) h) hf)
    (fun t ht e _ => lineFree_dropSharer hd hh ht k e)

theorem holds_reclaimHome_ne (hh : h ≤ 32) (hq : s.homesIdle) (hv : Tab.Holds (s.home h).dir ln v) (hk : k ≠ h) : Tab.Holds ((s.reclaimHome d k).home h).dir ln v := by
  rw [reclaimHome_idle hq]
  refine List.foldlRecOn (motive := fun t : State => Tab.Holds (t.home h).dir ln v) _ _ ?_ (fun t ht e _ => holds_dropSharer_ne hd hh ht (.inl hk))
  rwa [dir_sameLines (sameLines_unqueued hq d k) h]

/-- The reclaim of a home frees a line that names the die. -/
theorem lineFree_reclaimHome_hit (hh : h ≤ 32) (hq : s.homesIdle) (hv : Tab.Holds (s.home h).dir ln v) (hnamed : ¬ v.without d) :
    (s.reclaimHome d h).lineFree d h ln := by
  have hdir := dir_sameLines (sameLines_unqueued hq d h) h
  rw [reclaimHome_idle hq]
  refine foldl_reaches (f := fun t e => t.dropSharer d h e) (P := fun t : State => Tab.Holds (t.home h).dir ln v) (Q := fun t : State => t.lineFree d h ln)
    (b := (ln, v)) ?_ ?_ ?_ ?_ (.inl (by rwa [hdir]))
  · rw [hdir]
    exact Tab.mem_of_holds hv
  · intro t e _ ht
    by_cases hx : e = (ln, v)
    · rw [hx]
      exact .inr (lineFree_dropSharer_hit hd hh hnamed)
    · by_cases hln : e.1 = ln
      · rcases dropSharer_cases hd t h e with ⟨heq, -⟩ | ⟨u, f, -, heq, hwithout⟩
        · exact .inl (by rwa [heq])
        · rw [heq, hln]
          exact .inr (lineFree_setDir_same hh hwithout)
      · exact .inl (holds_dropSharer_ne hd hh ht (.inr hln))
  · exact fun t e _ ht => lineFree_dropSharer hd hh ht h e
  · exact fun t _ => lineFree_dropSharer_hit hd hh hnamed

/-- Once every home has reclaimed, no entry that was there names the die. -/
theorem lineFree_reclaimHomes {l : List Nat} (hh : h ≤ 32) (hl : h ∈ l) (hq : s.homesIdle) (hv : Tab.Holds (s.home h).dir ln v) (hst : v.st ≠ .i) :
    (l.foldl (fun t k => t.reclaimHome d k) s).lineFree d h ln := by
  by_cases hbit : bit v.sharers d = false
  · have hfree := List.foldlRecOn (motive := fun t : State => t.homesIdle ∧ t.lineFree d h ln) l (fun t k => t.reclaimHome d k) ⟨hq, .inl ⟨v, hv, hbit⟩⟩
      (fun t ⟨htq, htf⟩ k _ => ⟨homesIdle_reclaimHome hd htq k, lineFree_reclaimHome hd hh htq htf k⟩)
    exact hfree.2
  · have hnamed : ¬ v.without d := fun hw => hbit (hw.resolve_left hst)
    have hreach : let t := l.foldl (fun t k => t.reclaimHome d k) s
        t.homesIdle ∧ t.lineFree d h ln := by
      refine foldl_reaches (f := fun t k => t.reclaimHome d k) (P := fun t : State => t.homesIdle ∧ Tab.Holds (t.home h).dir ln v)
        (Q := fun t : State => t.homesIdle ∧ t.lineFree d h ln) hl ?_ ?_ ?_ (.inl ⟨hq, hv⟩)
      · intro t k _ ⟨htq, htv⟩
        by_cases hk : k = h
        · rw [hk]
          exact .inr ⟨homesIdle_reclaimHome hd htq h, lineFree_reclaimHome_hit hd hh htq htv hnamed⟩
        · exact .inl ⟨homesIdle_reclaimHome hd htq k, holds_reclaimHome_ne hd hh htq htv hk⟩
      · exact fun t k _ ⟨htq, htf⟩ => ⟨homesIdle_reclaimHome hd htq k, lineFree_reclaimHome hd hh htq htf k⟩
      · exact fun t ⟨htq, htv⟩ => ⟨homesIdle_reclaimHome hd htq h, lineFree_reclaimHome_hit hd hh htq htv hnamed⟩
    exact hreach.2

end

/-! ### The die's caches -/

/-- `s` with the caches of a die lost. -/
def State.lostCaches (s : State) (d : Nat) : State := (unitsOf d).foldl (fun t u => t.setCache d u {}) s

theorem home_setCache (s : State) (d u : Nat) (c : Cache) (h : Nat) : (s.setCache d u c).home h = s.home h := by
  have htile (f : Tile → Tile) : (s.modTile d f).home h = s.home h := by simp only [State.home, State.stack, modTile_hubHome, modTile_stk]
  unfold State.setCache
  split
  · split <;> rfl
  · split
    · rfl
    · split <;> exact htile _

theorem home_lostCaches (s : State) (d h : Nat) : (s.lostCaches d).home h = s.home h :=
  List.foldlRecOn (motive := fun t : State => t.home h = s.home h) _ _ rfl (fun _ ht _ _ => (home_setCache ..).trans ht)

/-- A cache that is empty stays so, and one that is lost becomes so. -/
theorem lines_setCache_empty {u v : Nat} (hlo : 1 ≤ d) (hhi : d ≤ 32) (hu : u ≤ 8) (hv : v ≤ 8) (hempty : (s.cache d u).lines = [] ∨ u = v ∨ 29 ≤ d) :
    ((s.setCache d v {}).cache d u).lines = [] := by
  by_cases hg : 29 ≤ d
  · rw [State.setCache, if_pos hg, if_pos hhi, State.cache, if_pos hg]
    exact congrArg Cache.lines (Tab.look_put_same ..)
  · rw [cache_setCache_tile (isTileDie_iff.mpr ⟨hlo, by omega⟩) hu hv]
    split
    · rfl
    next huv => exact hempty.resolve_right (fun hor => hor.elim huv hg)

theorem lines_lostCaches {u : Nat} (hlo : 1 ≤ d) (hhi : d ≤ 32) (hu : u ≤ 8) : ((s.lostCaches d).cache d u).lines = [] := by
  have hstep (t : State) {v : Nat} (hv : v ∈ unitsOf d) (hor : (t.cache d u).lines = [] ∨ u = v ∨ 29 ≤ d) : ((t.setCache d v {}).cache d u).lines = [] :=
    lines_setCache_empty hlo hhi hu (unit_le_eight hv) hor
  by_cases hg : 29 ≤ d
  · exact foldl_reaches (f := fun t v => t.setCache d v {}) (P := fun _ => True) (Q := fun t : State => (t.cache d u).lines = []) (mem_unitsOf d)
      (fun _ _ _ _ => .inl trivial) (fun t v hv ht => hstep t hv (.inl ht)) (fun t _ => hstep t (mem_unitsOf d) (.inr (.inr hg))) (.inl trivial)
  · have hmem : u ∈ unitsOf d := by
      rw [unitsOf, if_neg (by omega)]
      exact List.mem_range.mpr (Nat.lt_succ_of_le hu)
    exact foldl_reaches (f := fun t v => t.setCache d v {}) (P := fun _ => True) (Q := fun t : State => (t.cache d u).lines = []) hmem
      (fun _ _ _ _ => .inl trivial) (fun t v hv ht => hstep t hv (.inl ht)) (fun t _ => hstep t hmem (.inr (.inl rfl))) (.inl trivial)

theorem reclaim_no_messages (hc : s.coh = []) (d : Nat) : s.reclaim d = ((32 :: s.stk.keys).foldl (fun t h => t.reclaimHome d h) s).lostCaches d := by
  rw [State.reclaim, hc, List.filter_nil, withCoh_self hc]
  rfl

/-- A home with an entry is among those that reclaim. -/
theorem mem_reclaiming (hst : (s.dirEnt h ln).st ≠ .i) : h ∈ 32 :: s.stk.keys := by
  by_cases hh : h = 32
  · rw [hh]
    exact .head _
  · refine .tail _ (Tab.mem_keys_of_look_ne (d := {}) (fun hempty => hst ?_))
    have hstack : s.stack h = {} := hempty
    rw [State.dirEnt, State.home, if_neg hh, hstack]
    rfl

theorem holds_dirEnt (hst : (s.dirEnt h ln).st ≠ .i) : Tab.Holds (s.home h).dir ln (s.dirEnt h ln) :=
  Tab.holds_of_look_ne (fun hempty => hst (congrArg DirEnt.st hempty))

/-- After its reclaim a die's caches are empty and no entry that was there names it. -/
theorem reclaim_leaves (hlo : 1 ≤ d) (hhi : d ≤ 32) (hc : s.coh = []) (hq : s.homesIdle) :
    (∀ u, u ≤ 8 → ((s.reclaim d).cache d u).lines = []) ∧ ∀ h ln, h ≤ 32 → (s.dirEnt h ln).st ≠ .i → bit ((s.reclaim d).dirEnt h ln).sharers d = false := by
  rw [reclaim_no_messages hc]
  refine ⟨fun u hu => lines_lostCaches hlo hhi hu, fun h ln hh hst => bit_dirEnt_of_lineFree (lineFree_of_dir (congrArg Stack.dir (home_lostCaches ..)) ?_)⟩
  exact lineFree_reclaimHomes (Nat.lt_succ_of_le hhi) hh (mem_reclaiming hst) hq (holds_dirEnt hst) hst

end Sys2Proof.Machine
end

section
/-! PROOFS. O46: flushes of the caches, missed snoop limits, and the death of a die's agents (Tables 8.8 and 8.9, R198, R205, R206). -/

namespace Sys2Proof.Machine

variable {s : State} {d : Nat}

/-! ### Snoop limits (R198) -/

theorem exec_snoopLimitMiss (hup : s.isUp = true) (d : Nat) :
    exec (.snoopLimitMiss d) s = .next (if d = 0 then s.fatal else if isTileDie d then s.tileFault d 4 [] else if isGraft d then s.fenceSite (d - 29) 0x13 else s) := by
  have heq : exec (.snoopLimitMiss d) s = execSnoopLimitMiss d s := rfl
  rw [heq, execSnoopLimitMiss, upDo_up hup]

theorem exec_snoopLimitMiss_tile (hup : s.isUp = true) (hd : isTileDie d = true) : exec (.snoopLimitMiss d) s = .next (s.tileFault d 4 []) := by
  rw [exec_snoopLimitMiss hup, if_neg (ne_zero_of_isTileDie hd), if_pos hd]

theorem not_isTileDie (hd : 29 ≤ d) : ¬ isTileDie d = true := fun ht => by
  obtain ⟨-, hhi⟩ := isTileDie_iff.mp ht
  omega

theorem exec_snoopLimitMiss_site {k : Nat} (hup : s.isUp = true) (hk : k < 4) : exec (.snoopLimitMiss (29 + k)) s = .next (s.fenceSite k 0x13) := by
  have hgraft : isGraft (29 + k) = true := by
    simp only [isGraft, Bool.and_eq_true, decide_eq_true_eq]
    omega
  rw [exec_snoopLimitMiss hup, if_neg (by omega), if_neg (not_isTileDie (by omega)), if_pos hgraft, Nat.add_sub_cancel_left]

theorem exec_snoopLimitMiss_none (hup : s.isUp = true) (hd : 33 ≤ d) : exec (.snoopLimitMiss d) s = .next s := by
  have hgraft : ¬ isGraft d = true := by
    simp only [isGraft, Bool.and_eq_true, decide_eq_true_eq]
    omega
  rw [exec_snoopLimitMiss hup, if_neg (by omega), if_neg (not_isTileDie (by omega)), if_neg hgraft]

/-! ### A fault outside the promise (R302, R413) -/

theorem raise_flt (s : State) (fn v : Nat) : (s.raise fn v).flt = s.flt := by
  unfold State.raise
  dsimp only
  split
  · rfl
  · split
    · exact modCmpt_flt ..
    · rfl

theorem eventX_flt (s : State) (fn code src : Nat) (detail : BitVec 64) (extra : Nat) : (s.eventX fn code src detail extra).flt = s.flt := by
  unfold State.eventX
  dsimp only
  split
  · rfl
  · split
    · exact modCmpt_flt ..
    · split
      · exact (raise_flt ..).trans (modCmpt_flt ..)
      · exact modCmpt_flt ..

theorem replaceCause_sets (s : State) (b : Nat) : (s.replaceCause b).flt.replace = setBit s.flt.replace b true := by
  have hemit (t : State) (l : List MgmtSession) (f : MgmtSession → Out) : (l.foldl (fun t m => t.emit (f m)) t).flt = t.flt :=
    List.foldlRecOn (motive := fun u : State => u.flt = t.flt) _ _ rfl (fun _ hu _ _ => hu)
  rw [State.replaceCause, State.event, eventX_flt, hemit]

theorem bit_setBit_same {n i : Nat} (hi : i < n) (x : BitVec n) : bit (setBit x i true) i = true := by
  rw [setBit, if_pos rfl, bit, BitVec.getLsbD_or, BitVec.getLsbD_ofNat, Nat.testBit_two_pow_self, decide_eq_true hi, Bool.true_and, Bool.or_true]

theorem fatal_replace (s : State) : bit s.fatal.flt.replace 6 = true := by
  have hflt : s.fatal.flt = (s.replaceCause 6).flt := modCmpt_flt ..
  rw [hflt, replaceCause_sets, bit_setBit_same (by decide)]

/-! ### The death of a die's agents (R206) -/

theorem exec_agentDeath (hup : s.isUp = true) (d : Nat) : exec (.agentDeath d) s = .next (if d ≤ 32 ∧ d ≠ 0 then s.reclaim d else s) := by
  have heq : exec (.agentDeath d) s = execAgentDeath d s := rfl
  rw [heq, execAgentDeath, upDo_up hup]

/-! ### The obligation -/

/-- Settles O46: a flush settles the cache's only line, a missed limit ends in one fault of its agent, and a reclaim walks every directory. -/
theorem cachesFlushAndDeadAgentsLeave : Obligations.CachesFlushAndDeadAgentsLeave := by
  unfold Obligations.CachesFlushAndDeadAgentsLeave
  intro s hup
  refine ⟨fun p d v hp hp' => exec_flush_denied hup hp hp' d v, fun p d v hp hv => exec_flush_ignored hup hp hv d,
    fun p d ln v e hp hv hact hd hc hl hst hwb => ?tile, fun p ln v e hp hv hact hc hl hst hwb => ?hub,
    fun d hd => exec_snoopLimitMiss_tile hup hd, fun k hk => exec_snoopLimitMiss_site hup hk, exec_snoopLimitMiss hup 0, fatal_replace s,
    fun d hd => ⟨exec_snoopLimitMiss_none hup hd, ?none⟩, exec_agentDeath hup 0, fun d hlo hhi hc hq => ?death⟩
  case tile =>
    have hexec := exec_tilRlcFlush_open hup hp d v
    rw [bit, hv, hact, hd] at hexec
    exact ⟨_, hexec, flushCache_holder (.inr hd) hc hst hwb hl⟩
  case hub =>
    have hexec := exec_hubScFlush_open hup hp v
    rw [bit, hv, hact] at hexec
    exact ⟨_, hexec, flushCache_holder (.inl rfl) hc hst hwb hl⟩
  case none => rw [exec_agentDeath hup, if_neg (by omega)]
  case death =>
    have hexec := exec_agentDeath hup d
    rw [if_pos (by omega)] at hexec
    exact ⟨_, hexec, reclaim_leaves hlo hhi hc hq⟩

end Sys2Proof.Machine
end

section
/-! PROOFS. Page commands: the word written to CMP_PAGE_CMD, and what each command takes, blocks and ends (R216, R217, Table 9.4). -/

namespace Sys2Proof.Machine

variable {s : State} {fn op k : Nat} {v : BitVec 64}

/-! ### The command word (Tables 9.4 and 9.6) -/

/-- OP takes the top four bits of the word; every other bit is the host's. -/
theorem getLsbD_withOp {i : Nat} (hi : i < 60) (op : Nat) (v : BitVec 64) : (withOp op v).getLsbD i = v.getLsbD i := by
  have hlow : (op * 2 ^ 60 + bits v 59 0).testBit i = (bits v 59 0).testBit i := by
    rw [Nat.mul_comm, Nat.testBit_two_pow_mul_add op (bits_lt v 59 0), if_pos hi]
  rw [withOp, BitVec.getLsbD_ofNat, hlow, testBit_bits, Nat.zero_add, decide_eq_true (show i < 64 by omega), decide_eq_true hi, Bool.true_and, Bool.true_and]

theorem bits_withOp {hi : Nat} (h : hi < 60) (op : Nat) (v : BitVec 64) (lo : Nat) : bits (withOp op v) hi lo = bits v hi lo := by
  apply Nat.eq_of_testBit_eq
  intro j
  rw [testBit_bits, testBit_bits]
  by_cases hj : j < hi + 1 - lo
  · rw [getLsbD_withOp (by omega)]
  · rw [decide_eq_false hj, Bool.false_and, Bool.false_and]

@[simp] theorem slot_withOp (op : Nat) (v : BitVec 64) : bits (withOp op v) 47 36 = bits v 47 36 := bits_withOp (by decide) op v 36
@[simp] theorem seg_withOp (op : Nat) (v : BitVec 64) : bits (withOp op v) 35 32 = bits v 35 32 := bits_withOp (by decide) op v 32
@[simp] theorem page_withOp (op : Nat) (v : BitVec 64) : bits (withOp op v) 18 0 = bits v 18 0 := bits_withOp (by decide) op v 0
@[simp] theorem force_withOp (op : Nat) (v : BitVec 64) : bit (withOp op v) 59 = bit v 59 := getLsbD_withOp (by decide) op v

theorem op_withOp (hop : op ≤ 3) (v : BitVec 64) : bits (withOp op v) 63 60 = op := by
  have hlow : bits v 59 0 < 2 ^ 60 := bits_lt v 59 0
  rw [withOp, bits_ofNat (by omega)]
  omega

/-! ### Reads of the host (R298) -/

/-- A read put on the link changes the endpoint and leaves by the link. -/
theorem hostReadReq_only (s : State) (r : HostRead) : ∃ x y, s.hostReadReq r = { s with pci := x, out := y } := by
  unfold State.hostReadReq
  dsimp only
  split
  · exact ⟨_, _, rfl⟩
  · exact ⟨s.pci, s.out, rfl⟩

theorem find?_tag_unused (n : Nat) : (List.range 1024).find? (fun k => !([] : List Nat).contains ((n + k) % 1024)) = some 0 := by
  have hrange : List.range 1024 = 0 :: (List.range 1023).map Nat.succ := List.range_succ_eq_map
  rw [hrange, List.find?_cons_of_pos rfl]

/-- With every tag free, a read takes the next one. -/
theorem reads_hostReadReq (hreads : s.pci.reads = []) (hdead : s.pci.dead = []) (r : HostRead) :
    (s.hostReadReq r).pci.reads = [{ r with tag := s.pci.nextTag % 1024 }] := by
  unfold State.hostReadReq
  dsimp only
  rw [hreads, hdead, List.map_nil, List.append_nil, find?_tag_unused]
  rfl

/-- The read that asks for the first part of a page (R298). -/
def State.firstRead (s : State) (c : Nat) (p : PageCmd) : HostRead :=
  { fn := c, kind := 1, slot := p.slot, addr := (s.seg c p.seg).iova + p.page * 0x20_0000, len := s.readSize }

theorem firstRead_withCmpt (s : State) {c : Nat} {m : Cmpt} (h : m.segs = (s.cmpt c).segs) (p : PageCmd) : (s.withCmpt c m).firstRead c p = s.firstRead c p := by
  have hseg : (s.withCmpt c m).seg c p.seg = s.seg c p.seg := by
    rw [State.seg, cmpt_withCmpt, h]
    rfl
  rw [State.firstRead, hseg]
  rfl

theorem pageAsk_first {c : Nat} {p : PageCmd} (hstale : p.stale = false) (hgot : p.got = 0) : s.pageAsk c p = s.hostReadReq (s.firstRead c p) := by
  rw [State.pageAsk, if_neg (ne_true_of_eq_false hstale), hgot, if_pos (by decide), Nat.add_zero]
  rfl

/-! ### A command that a READY compartment takes -/

/-- The PAGE_IN that a command word asks for. -/
def pageInOf (v : BitVec 64) : PageCmd := { op := 1, seg := bits v 35 32, page := bits v 18 0, slot := bits v 47 36 }

/-- A compartment that has taken a PAGE_IN: it runs, and its slot is moving. -/
def Cmpt.startIn (m : Cmpt) (p : PageCmd) : Cmpt :=
  { m with pcmds := m.pcmds ++ [p], resmap := m.resmap.put p.slot (resEntry false false true p.seg p.page) }

/-- A compartment that has taken a PAGE_OUT: it runs, and its slot is moving. -/
def Cmpt.startOut (m : Cmpt) (p : PageCmd) : Cmpt :=
  { m with pcmds := m.pcmds ++ [p], resmap := m.resmap.put p.slot (setBit (m.resmap.look p.slot 0) 61 true) }

/-- CMP_PAGE_CMD is a register of every function but the PF. -/
theorem bar0Write_pageCmd (hfn : 1 ≤ fn) (x : BitVec 64) : s.bar0Write fn 0x2200 x = s.pageCmd fn x := if_neg (show ¬ fn = 0 by omega)

theorem exec_pageIn_free (hup : s.isUp = true) (hfree : s.bar0Free fn) (hfn : 1 ≤ fn) : exec (.pageIn fn v) s = .next (s.pageCmd fn (withOp 1 v)) := by
  have heq : exec (.pageIn fn v) s = execPageIn fn v s := rfl
  rw [heq, execPageIn, upDo_up hup, bar0T_free hfree, bar0Write_pageCmd hfn]

theorem exec_pageOut_free (hup : s.isUp = true) (hfree : s.bar0Free fn) (hfn : 1 ≤ fn) : exec (.pageOut fn v) s = .next (s.pageCmd fn (withOp 2 v)) := by
  have heq : exec (.pageOut fn v) s = execPageOut fn v s := rfl
  rw [heq, execPageOut, upDo_up hup, bar0T_free hfree, bar0Write_pageCmd hfn]

theorem exec_pageFail_free (hup : s.isUp = true) (hfree : s.bar0Free fn) (hfn : 1 ≤ fn) : exec (.pageFail fn v) s = .next (s.pageCmd fn (withOp 3 v)) := by
  have heq : exec (.pageFail fn v) s = execPageFail fn v s := rfl
  rw [heq, execPageFail, upDo_up hup, bar0T_free hfree, bar0Write_pageCmd hfn]

section
variable (hst : s.cstate fn = .ready) (hrun : (s.cmpt fn).pcmdsRunning < 4)
include hst hrun

/-- One of the three operations, from a READY compartment with fewer than four running, is not ignored. -/
theorem pageCmd_taken (hlo : 1 ≤ op) (hhi : op ≤ 3) : ¬ (op = 0 ∨ 3 < op ∨ 4 ≤ (s.cmpt fn).pcmdsRunning ∨ s.cstate fn ≠ .ready) := by
  rintro (h | h | h | h)
  · omega
  · omega
  · omega
  · exact h hst

/-- A command is refused first for what R217 lists. -/
theorem pageCmd_invalid (hlo : 1 ≤ op) (hhi : op ≤ 3) (hinv : s.pageInvalid fn op (bits v 35 32) (bits v 18 0) (bits v 47 36) = true) :
    s.pageCmd fn (withOp op v) = s.pageEnd fn 0x2007 := by
  simp only [State.pageCmd, op_withOp hhi, slot_withOp, seg_withOp, page_withOp]
  rw [if_neg (pageCmd_taken hst hrun hlo hhi), if_pos hinv]

theorem pageCmd_pageIn_denied (hinv : s.pageInvalid fn 1 (bits v 35 32) (bits v 18 0) (bits v 47 36) = false) (hdeny : s.pageDenied fn false = true) :
    s.pageCmd fn (withOp 1 v) = s.pageEnd fn 0x7002 := by
  simp only [State.pageCmd, op_withOp (show 1 ≤ 3 by decide), slot_withOp, seg_withOp, page_withOp]
  rw [if_neg (pageCmd_taken hst hrun (by decide) (by decide)), if_neg (ne_true_of_eq_false hinv), if_pos hdeny]

theorem pageCmd_pageIn (hfn : fn < 64) (hinv : s.pageInvalid fn 1 (bits v 35 32) (bits v 18 0) (bits v 47 36) = false) (hdeny : s.pageDenied fn false = false) :
    s.pageCmd fn (withOp 1 v) = (s.withCmpt fn ((s.cmpt fn).startIn (pageInOf v))).hostReadReq (s.firstRead fn (pageInOf v)) := by
  simp only [State.pageCmd, op_withOp (show 1 ≤ 3 by decide), slot_withOp, seg_withOp, page_withOp]
  rw [if_neg (pageCmd_taken hst hrun (by decide) (by decide)), if_neg (ne_true_of_eq_false hinv), if_neg (ne_true_of_eq_false hdeny),
    modCmpt_eq hfn, pageAsk_first rfl rfl]
  exact congrArg _ (firstRead_withCmpt s (m := (s.cmpt fn).startIn (pageInOf v)) rfl (pageInOf v))

theorem pageCmd_pageOut (hfn : fn < 64) (hinv : s.pageInvalid fn 2 (bits v 35 32) (bits v 18 0) (bits v 47 36) = false) (hdeny : s.pageDenied fn true = false)
    (hk : (s.cmpt fn).slotHolding (bits v 35 32) (bits v 18 0) = some k) (hclip : s.slotClip fn k = false) :
    s.pageCmd fn (withOp 2 v)
      = s.withCmpt fn ((s.cmpt fn).startOut { op := 2, seg := bits v 35 32, page := bits v 18 0, slot := k, force := bit v 59 }) := by
  simp only [State.pageCmd, op_withOp (show 2 ≤ 3 by decide), slot_withOp, seg_withOp, page_withOp]
  rw [if_neg (pageCmd_taken hst hrun (by decide) (by decide)), if_neg (ne_true_of_eq_false hinv)]
  simp only [hk, hdeny, hclip, force_withOp, Bool.or_self, Bool.false_eq_true, if_false]
  exact modCmpt_eq hfn _

theorem pageCmd_pageFail (hinv : s.pageInvalid fn 3 (bits v 35 32) (bits v 18 0) (bits v 47 36) = false)
    (hk : s.recordOf fn (bits v 35 32) (bits v 18 0) = some k) : s.pageCmd fn (withOp 3 v) = (s.failRecord fn k 0x2005).pageEnd fn 0x2005 := by
  simp only [State.pageCmd, op_withOp (show 3 ≤ 3 by decide), slot_withOp, seg_withOp, page_withOp]
  rw [if_neg (pageCmd_taken hst hrun (by decide) (by decide)), if_neg (ne_true_of_eq_false hinv)]
  simp only [hk]

end

/-- What an accepted PAGE_IN leaves: itself running, its slot moving, and its first read on the link. -/
theorem startIn_reads (s : State) (fn : Nat) (p : PageCmd) : ∃ x y,
    (s.withCmpt fn ((s.cmpt fn).startIn p)).hostReadReq (s.firstRead fn p) = { s.withCmpt fn ((s.cmpt fn).startIn p) with pci := x, out := y } ∧
      (s.pci.reads = [] → s.pci.dead = [] → x.reads = [{ s.firstRead fn p with tag := s.pci.nextTag % 1024 }]) := by
  obtain ⟨x, y, hxy⟩ := hostReadReq_only (s.withCmpt fn ((s.cmpt fn).startIn p)) (s.firstRead fn p)
  refine ⟨x, y, hxy, fun hreads hdead => ?_⟩
  have hpci := reads_hostReadReq (s := s.withCmpt fn ((s.cmpt fn).startIn p)) hreads hdead (s.firstRead fn p)
  rw [hxy] at hpci
  exact hpci

/-! ### The end of a page-in and of a page-out (R216, Table 9.4) -/

theorem exec_pageInDone (hup : s.isUp = true) (slot : Nat) : exec (.pageInDone fn slot) s = .next (s.pageInDone fn slot) := by
  have heq : exec (.pageInDone fn slot) s = execPageInDone fn slot s := rfl
  rw [heq, execPageInDone, upDo_up hup]

theorem exec_pageOutDone (hup : s.isUp = true) (slot : Nat) : exec (.pageOutDone fn slot) s = .next (s.pageOutDone fn slot) := by
  have heq : exec (.pageOutDone fn slot) s = execPageOutDone fn slot s := rfl
  rw [heq, execPageOutDone, upDo_up hup]

/-- A page that has arrived whole, and that no access waits for, is resident and clean. -/
theorem pageInDone_whole {p : PageCmd} {slot : Nat} (hfn : fn < 64) (hp : (s.cmpt fn).pcmds.find? (fun p => p.op == 1 && p.slot == slot) = some p)
    (hgot : 0x20_0000 ≤ p.got) (hrec : s.recordOf fn p.seg p.page = none) :
    s.pageInDone fn slot = State.pageEnd (s.withCmpt fn { s.cmpt fn with
      pcmds := (s.cmpt fn).pcmds.filter (fun x => !(x.op == 1 && x.slot == slot))
      resmap := (s.cmpt fn).resmap.put slot (resEntry true false false p.seg p.page) }) fn (if p.pois then 0x3001 else 0x0020) := by
  have hrec' (t : Tab (BitVec 64)) (l : List PageCmd) : (s.withCmpt fn { s.cmpt fn with pcmds := l, resmap := t }).recordOf fn p.seg p.page = none := by
    rw [State.recordOf, cmpt_withCmpt]
    exact hrec
  simp only [State.pageInDone, hp, if_neg (Nat.not_lt.mpr hgot), modCmpt_eq hfn, hrec']

/-- A clean page that nothing uses and no cache holds leaves its slot without a write to the host. -/
theorem pageOutDone_clean {p : PageCmd} {r : CmptRec} {slot : Nat} (hfn : fn < 64) (hp : (s.cmpt fn).pcmds.find? (fun p => p.op == 2 && p.slot == slot) = some p)
    (hr : (s.cmpt fn).plan = some r) (hbusy : s.slotBusy fn p.seg p.page (landingBase r + slot * 0x20_0000) = false)
    (hunc : s.uncached (landingBase r + slot * 0x20_0000) 0x20_0000) (hclean : bit ((s.cmpt fn).resmap.look slot 0) 62 = false)
    (hforce : p.force = false) (hwd : p.withdraw = false) :
    s.pageOutDone fn slot = State.pageEnd (s.withCmpt fn { s.cmpt fn with
      pcmds := (s.cmpt fn).pcmds.filter (fun x => !(x.op == 2 && x.slot == slot))
      resmap := (s.cmpt fn).resmap.del slot }) fn 0x0021 := by
  simp only [State.pageOutDone, hp, hr, hbusy, settle_uncached hunc, hclean, hforce, hwd, Bool.or_self, Bool.false_and, Bool.false_eq_true, if_false, modCmpt_eq hfn]

end Sys2Proof.Machine
end

section
/-! PROOFS. Withdrawals and fault limits: what a withdrawal of an unused segment changes, and how it ends (R218, R221, R222). -/

namespace Sys2Proof.Machine

variable {s : State} {c i : Nat} {v : BitVec 64}

/-! ### The withdrawn entry (R221 step 1) -/

/-- The entry that a withdrawal leaves: VALID clear, the generation raised by one. -/
def Seg.withdrawn (e : Seg) : Seg := { w0 := setBit e.raised.w0 63 false, w1 := e.w1, w2 := e.w2 }

theorem getLsbD_setBit_false {n j k : Nat} (x : BitVec n) : (setBit x k false).getLsbD j = (x.getLsbD j && !decide (k = j)) := by
  by_cases hj : j < n
  · rw [setBit, if_neg Bool.false_ne_true, BitVec.getLsbD_and, BitVec.getLsbD_not, BitVec.getLsbD_ofNat, Nat.testBit_two_pow, decide_eq_true hj, Bool.true_and, Bool.true_and]
  · rw [BitVec.getLsbD_of_ge _ _ (Nat.le_of_not_lt hj), BitVec.getLsbD_of_ge _ _ (Nat.le_of_not_lt hj), Bool.false_and]

theorem bits_setBit_false_above {n k hi lo : Nat} (h : hi < k) (x : BitVec n) : bits (setBit x k false) hi lo = bits x hi lo := by
  apply Nat.eq_of_testBit_eq
  intro j
  rw [testBit_bits, testBit_bits, getLsbD_setBit_false]
  by_cases hj : j < hi + 1 - lo
  · rw [decide_eq_false (show k ≠ lo + j by omega), Bool.not_false, Bool.and_true]
  · rw [decide_eq_false hj, Bool.false_and, Bool.false_and]

theorem gen_raised (e : Seg) : e.raised.gen = (e.gen + 1) % 256 := by
  have hw := e.w0.isLt
  have hgen : e.gen = e.w0.toNat / 2 ^ 55 % 256 := congrArg (· % 256) (Nat.shiftRight_eq_div_pow ..)
  have hlt : e.w0.toNat - e.gen * 2 ^ 55 + (e.gen + 1) % 256 * 2 ^ 55 < 2 ^ 64 := by omega
  have heq : e.raised.gen = (e.w0.toNat - e.gen * 2 ^ 55 + (e.gen + 1) % 256 * 2 ^ 55) / 2 ^ 55 % 256 := bits_ofNat hlt 62 55
  omega

theorem valid_withdrawn (e : Seg) : e.withdrawn.valid = false := by
  rw [Seg.valid, Seg.withdrawn, bit, getLsbD_setBit_false, decide_eq_true rfl, Bool.not_true, Bool.and_false]

theorem gen_withdrawn (e : Seg) : e.withdrawn.gen = (e.gen + 1) % 256 := by
  rw [← gen_raised]
  exact bits_setBit_false_above (by decide) e.raised.w0

/-! ### Work through the segment (R221 steps 3 and 4) -/

theorem stopThrough_idle (hrec : (s.cmpt c).frecs = []) (hint : ∀ l, l < 32 → (s.stack l).intake = []) : s.stopThrough c i = s := by
  unfold State.stopThrough
  dsimp only
  rw [hrec, List.foldl_nil]
  exact foldl_eq_self (fun l hl => by rw [hint l (List.mem_range.mp hl)]; rfl)

theorem stopPages_idle (hcmd : (s.cmpt c).pcmds = []) : s.stopPages c i = s := by
  rw [State.stopPages, hcmd, List.foldl_nil]

/-- The withdrawal that HUB_UNMAP_REQ starts for an entry. -/
def unmapByReg (c i : Nat) (e : Seg) : Unmap := { cmpt := c, seg := i, old := e, step := 5, byReg := true, toCmpt := true }

/-- The state in which the entry is withdrawn and its withdrawal listed, before any work is stopped. -/
def State.withUnmap (s : State) (c i : Nat) : State :=
  let t := s.modCmpt c (fun m => { m with segs := m.segs.put i (s.seg c i).withdrawn })
  { t with unmaps := t.unmaps ++ [unmapByReg c i (s.seg c i)] }

theorem withUnmap_only (s : State) (c i : Nat) : ∃ y, s.withUnmap c i = { s with cmpts := y, unmaps := s.unmaps ++ [unmapByReg c i (s.seg c i)] } := by
  unfold State.withUnmap State.modCmpt
  dsimp only
  split <;> exact ⟨_, rfl⟩

theorem cmpt_withUnmap (hc : c < 64) (i : Nat) : (s.withUnmap c i).cmpt c = { s.cmpt c with segs := (s.cmpt c).segs.put i (s.seg c i).withdrawn } := by
  have heq : (s.withUnmap c i).cmpt c = (s.modCmpt c (fun m => { m with segs := m.segs.put i (s.seg c i).withdrawn })).cmpt c := rfl
  rw [heq, modCmpt_eq hc, cmpt_withCmpt]

/-- Nothing is stopped where no access is pending, no page command runs and no contribution waits at an intake, and only a host-backed segment has pages. -/
theorem unmapStart_idle (hc : c < 64) (hrec : (s.cmpt c).frecs = []) (hcmd : (s.cmpt c).pcmds = []) (hint : ∀ l, l < 32 → (s.stack l).intake = [])
    (htyp : (s.seg c i).typ ≠ 3) : s.unmapStart c i none true true = s.withUnmap c i := by
  have hpages : ¬ ((s.seg c i).valid && (s.seg c i).typ == 3) = true := by
    rw [beq_false_of_ne htyp, Bool.and_false]
    exact Bool.false_ne_true
  have hstart : s.unmapStart c i none true true = ((s.withUnmap c i).stopThrough c i).stopPages c i := if_neg hpages
  have hint' : ∀ l, l < 32 → ((s.withUnmap c i).stack l).intake = [] := by
    obtain ⟨y, hy⟩ := withUnmap_only s c i
    rw [hy]
    exact hint
  rw [hstart, stopThrough_idle (by rw [cmpt_withUnmap hc]; exact hrec) hint', stopPages_idle (by rw [cmpt_withUnmap hc]; exact hcmd)]

/-! ### HUB_UNMAP_REQ (R221, Table 9.7) -/

theorem exec_hubUnmapReq (hup : s.isUp = true) (p : Port) (v : BitVec 64) : exec (.hubUnmapReq p v) s = .next (s.unmapReq p v) := by
  have heq : exec (.hubUnmapReq p v) s = execHubUnmapReq p v s := rfl
  rw [heq, execHubUnmapReq, upDo_up hup]

theorem unmapReq_vf (f : Nat) (v : BitVec 64) : s.unmapReq (.vf f) v = s.portDenied (.vf f) 0x708000 := rfl

/-- A withdrawal is ignored while one runs, and for a compartment that is not READY. -/
theorem unmapReq_ignored {p : Port} (hp : p = .pf ∨ p = .mgmt) (h : s.unmaps.any (·.byReg) = true ∨ s.cstate (bits v 13 8) ≠ .ready) :
    s.unmapReq p v = s := by
  have hport : ¬ (p != .pf && p != .mgmt) = true := by rcases hp with rfl | rfl <;> decide
  have hno : (s.unmaps.any (·.byReg) || bits v 13 8 == 0 || s.cstate (bits v 13 8) != .ready) = true := by
    rcases h with h | h <;> simp [h]
  rw [State.unmapReq, if_neg hport, if_pos hno]

/-- The segments withdrawn through the register are noted while their entry is valid. -/
def State.noteLifted (s : State) (c i : Nat) : State := if (s.seg c i).valid then s.modCmpt c (fun m => { m with lifted := insNat m.lifted i }) else s

theorem unmapReq_starts {p : Port} (hp : p = .pf ∨ p = .mgmt) (hnone : s.unmaps = []) (hc : 1 ≤ bits v 13 8) (hst : s.cstate (bits v 13 8) = .ready) :
    s.unmapReq p v = (s.noteLifted (bits v 13 8) (bits v 3 0)).unmapStart (bits v 13 8) (bits v 3 0) none true true := by
  have hport : ¬ (p != .pf && p != .mgmt) = true := by rcases hp with rfl | rfl <;> decide
  have hgo : ¬ (s.unmaps.any (·.byReg) || bits v 13 8 == 0 || s.cstate (bits v 13 8) != .ready) = true := by
    rw [hnone, hst, beq_false_of_ne (by omega)]
    decide
  rw [State.unmapReq, if_neg hport, if_neg hgo]
  rfl

theorem noteLifted_only (s : State) (c i : Nat) : ∃ y, s.noteLifted c i = { s with cmpts := y } := by
  unfold State.noteLifted State.modCmpt
  split
  · split <;> exact ⟨_, rfl⟩
  · exact ⟨s.cmpts, rfl⟩

/-- The note changes the list of withdrawn segments only. -/
theorem cmpt_noteLifted (s : State) (c i : Nat) : ∃ l, (s.noteLifted c i).cmpt c = { s.cmpt c with lifted := l } := by
  unfold State.noteLifted
  split
  · rw [cmpt_modCmpt]
    split <;> exact ⟨_, rfl⟩
  · exact ⟨_, rfl⟩

/-- HUB_UNMAP_REQ for a segment without pages, that nothing uses: the entry is withdrawn and the withdrawal is listed. -/
theorem unmapReq_idle {p : Port} (hp : p = .pf ∨ p = .mgmt) (hnone : s.unmaps = []) (hlo : 1 ≤ bits v 13 8) (hst : s.cstate (bits v 13 8) = .ready)
    (hrec : (s.cmpt (bits v 13 8)).frecs = []) (hcmd : (s.cmpt (bits v 13 8)).pcmds = []) (hint : ∀ l, l < 32 → (s.stack l).intake = [])
    (htyp : (s.seg (bits v 13 8) (bits v 3 0)).typ ≠ 3) :
    s.unmapReq p v = (s.noteLifted (bits v 13 8) (bits v 3 0)).withUnmap (bits v 13 8) (bits v 3 0) := by
  obtain ⟨y, hy⟩ := noteLifted_only s (bits v 13 8) (bits v 3 0)
  obtain ⟨l, hl⟩ := cmpt_noteLifted s (bits v 13 8) (bits v 3 0)
  rw [unmapReq_starts hp hnone hlo hst]
  refine unmapStart_idle (bits_lt v 13 8) ?_ ?_ ?_ ?_
  · rw [hl]; exact hrec
  · rw [hl]; exact hcmd
  · rw [hy]; exact hint
  · rw [State.seg, hl]; exact htyp

/-- What the withdrawal leaves: the entry of one segment replaced, and itself the only one listed. -/
theorem withUnmap_noteLifted (hc : c < 64) (hnone : s.unmaps = []) (i : Nat) :
    (∃ y, (s.noteLifted c i).withUnmap c i = { s with cmpts := y, unmaps := [unmapByReg c i (s.seg c i)] }) ∧
      ∀ k, ((s.noteLifted c i).withUnmap c i).seg c k = ((s.cmpt c).segs.put i (s.seg c i).withdrawn).look k {} := by
  obtain ⟨y, hy⟩ := noteLifted_only s c i
  obtain ⟨l, hl⟩ := cmpt_noteLifted s c i
  have hseg : (s.noteLifted c i).seg c i = s.seg c i := by
    rw [State.seg, hl]
    rfl
  obtain ⟨z, hz⟩ := withUnmap_only (s.noteLifted c i) c i
  refine ⟨⟨z, ?_⟩, fun k => ?_⟩
  · rw [hz, hseg, hy, hnone]
    rfl
  · rw [State.seg, cmpt_withUnmap hc, hseg, hl]

/-! ### The end of a withdrawal (R221 steps 5 to 7) -/

theorem exec_withdrawn (hup : s.isUp = true) (c i : Nat) : exec (.withdrawn c i) s = .next (s.withdrawn c i) := by
  have heq : exec (.withdrawn c i) s = execWithdrawn c i s := rfl
  rw [heq, execWithdrawn, upDo_up hup]

/-- While anything goes on through the segment, the withdrawal waits. -/
theorem withdrawn_of_not_quiet (h : s.unmapQuiet c i = false) : s.withdrawn c i = s := by
  unfold State.withdrawn
  split
  · exact if_pos (by rw [h]; rfl)
  · rfl

/-- Once quiet, the withdrawal of a compartment that is no vitrine tells the compartment and the PF. -/
theorem withdrawn_quiet {u : Unmap} (hu : s.unmaps.find? (fun u => u.cmpt == c && u.seg == i) = some u) (hq : s.unmapQuiet c i = true)
    (hv : (s.cmpt c).vitrine = false) (hto : u.toCmpt = true) :
    s.withdrawn c i = (State.event { s with unmaps := s.unmaps.filter (fun x => !(x.cmpt == c && x.seg == i)) } c 0x0023 0
      (BitVec.ofNat 64 (i + 256 * (s.seg c i).gen))).event 0 0x0023 c (BitVec.ofNat 64 (i + 256 * (s.seg c i).gen)) := by
  have hv' (l : List Unmap) : (State.cmpt { s with unmaps := l } c).vitrine = false := hv
  simp only [State.withdrawn, hu, hq, hv', hto, Bool.not_true, Bool.false_and, Bool.false_eq_true, if_false, if_true]
  rfl

/-! ### Fault limits (R218, Table 9.7) -/

theorem exec_faultTimeout (hup : s.isUp = true) (c i age : Nat) :
    exec (.faultTimeout c i age) s = .next (if ((s.cmpt c).faultLimit != 0 && decide ((s.cmpt c).faultLimit.toNat ≤ age) && (s.cmpt c).frecs.has i) = true
      then (s.failRecord c i 0x2006).event c 0x2006 i 0 else s) := by
  have heq : exec (.faultTimeout c i age) s = execFaultTimeout c i age s := rfl
  rw [heq, execFaultTimeout, upDo_up hup]

theorem exec_faultTimeout_reached (hup : s.isUp = true) {i age : Nat} (hon : (s.cmpt c).faultLimit ≠ 0) (hage : (s.cmpt c).faultLimit.toNat ≤ age)
    (hrec : (s.cmpt c).frecs.has i = true) : exec (.faultTimeout c i age) s = .next ((s.failRecord c i 0x2006).event c 0x2006 i 0) := by
  rw [exec_faultTimeout hup, if_pos]
  rw [bne_iff_ne.mpr hon, decide_eq_true hage, hrec]
  rfl

/-- Without a limit, and below it, the record stays. -/
theorem exec_faultTimeout_below (hup : s.isUp = true) (i : Nat) {age : Nat} (h : (s.cmpt c).faultLimit = 0 ∨ age < (s.cmpt c).faultLimit.toNat) :
    exec (.faultTimeout c i age) s = .next s := by
  rw [exec_faultTimeout hup, if_neg]
  rcases h with hoff | hlt
  · rw [hoff]
    exact Bool.false_ne_true
  · rw [decide_eq_false (Nat.not_le.mpr hlt), Bool.and_false]
    exact Bool.false_ne_true

end Sys2Proof.Machine
end

section
/-! PROOFS. O27: page commands, fault limits and withdrawals (R216, R217, R218, R221, R222, Table 9.4). -/

namespace Sys2Proof.Machine

/-- Settles O27: a page command is one change of its compartment's slots and commands, and a withdrawal is one change of its entry, told of once it is quiet. -/
theorem pageCommandsFaultLimitsAndWithdrawals : Obligations.PageCommandsFaultLimitsAndWithdrawals := by
  unfold Obligations.PageCommandsFaultLimitsAndWithdrawals
  constructor
  case left =>
    intro s fn slot sg page v hup hfree hlo hst hrun hslot hsg hpage
    subst hslot hsg hpage
    have hfn : fn < 64 := hfree.1
    refine ⟨fun hinv hdeny => ?pageIn, fun hinv => ?inInvalid, fun hinv => ?outInvalid, fun hinv => ?failInvalid, fun hinv hdeny => ?denied,
      fun k hinv hdeny hk hclip => ?pageOut, fun k hk hinv => ?pageFail, fun p hp hgot hrec => ?inDone, fun p r hp hr hbusy hunc hclean hforce hwd => ?outDone⟩
    case pageIn =>
      obtain ⟨x, y, hxy, hreads⟩ := startIn_reads s fn (pageInOf v)
      refine ⟨_, by rw [exec_pageIn_free hup hfree hlo, pageCmd_pageIn hst hrun hfn hinv hdeny, hxy], ?_, ?_, hreads, rfl⟩
      · exact congrArg Cmpt.pcmds (cmpt_withCmpt fn _)
      · exact (congrArg (fun m : Cmpt => m.resmap.look _ 0) (cmpt_withCmpt fn _)).trans (Tab.look_put_same ..)
    case inInvalid => rw [exec_pageIn_free hup hfree hlo, pageCmd_invalid hst hrun (by decide) (by decide) hinv]
    case outInvalid => rw [exec_pageOut_free hup hfree hlo, pageCmd_invalid hst hrun (by decide) (by decide) hinv]
    case failInvalid => rw [exec_pageFail_free hup hfree hlo, pageCmd_invalid hst hrun (by decide) (by decide) hinv]
    case denied => rw [exec_pageIn_free hup hfree hlo, pageCmd_pageIn_denied hst hrun hinv hdeny]
    case pageOut =>
      refine ⟨_, by rw [exec_pageOut_free hup hfree hlo, pageCmd_pageOut hst hrun hfn hinv hdeny hk hclip], ?_, ?_, rfl⟩
      · rw [cmpt_withCmpt, Cmpt.startOut, Tab.look_put_same]
        exact bit_setBit_same (by decide) _
      · rw [cmpt_withCmpt]
        rfl
    case pageFail => rw [exec_pageFail_free hup hfree hlo, pageCmd_pageFail hst hrun hinv hk]
    case inDone => rw [exec_pageInDone hup, pageInDone_whole hfn hp hgot hrec]
    case outDone => rw [exec_pageOutDone hup, pageOutDone_clean hfn hp hr hbusy hunc hclean hforce hwd]
  case right =>
    intro s fn sg hup hlo hfn hsg
    refine ⟨fun index age => exec_faultTimeout_reached hup, fun index age => exec_faultTimeout_below hup index,
      fun p v hp hc hi hnone hst hrec hcmd hint htyp => ?withdraw, fun p v hp hc hno => ?ignored, fun f v => ?port,
      fun u hu hquiet hv hto => ?quiet, fun hbusy => ?waits⟩
    case withdraw =>
      subst hc hi
      obtain ⟨⟨y, hy⟩, hseg⟩ := withUnmap_noteLifted hfn hnone (bits v 3 0)
      refine ⟨_, by rw [exec_hubUnmapReq hup, unmapReq_idle hp hnone hlo hst hrec hcmd hint htyp], ?_, ?_, ?_, fun k hk => ?_, ?_⟩
      · rw [hseg, Tab.look_put_same, valid_withdrawn]
      · rw [hseg, Tab.look_put_same, gen_withdrawn]
      · rw [hy]
        rfl
      · rw [hseg, Tab.look_put_ne _ hk]
        rfl
      · rw [hy]
    case ignored => rw [exec_hubUnmapReq hup, unmapReq_ignored hp (by rw [hc]; exact hno)]
    case port => rw [exec_hubUnmapReq hup, unmapReq_vf]
    case quiet => rw [exec_withdrawn hup, withdrawn_quiet hu hquiet hv hto]
    case waits => rw [exec_withdrawn hup, withdrawn_of_not_quiet hbusy]

end Sys2Proof.Machine
end

section
/-! PROOFS. The package mesh: the ends of its links, and what an update of a router or of a link leaves alone (R223, R224, R235, Tables 0.3 and 10.1). -/

namespace Sys2Proof.Machine

variable {s t u : State} {d e l k n : Nat}

/-! ### The ends of a link (Tables 0.3 and 10.1) -/

theorem neighbour_beyond (hl : 8 ≤ l) (d : Nat) : neighbour d l = none := by
  obtain ⟨m, rfl⟩ : ∃ m, l = m + 8 := ⟨l - 8, by omega⟩
  unfold neighbour
  split
  · rfl
  · split <;> rfl

/-- No link leads back to its own die. -/
theorem neighbour_ne_self (hd : d ≤ 28) (l : Nat) : neighbour d l ≠ some d := by
  have hlinks : ∀ d < 29, ∀ l < 8, neighbour d l ≠ some d := by decide
  by_cases hl : l < 8
  · exact hlinks d (by omega) l hl
  · rw [neighbour_beyond (by omega)]
    nofun

theorem neighbour_of_farEnd (h : farEnd d l = some (n, k)) : neighbour d l = some n := by
  unfold farEnd at h
  split at h
  · nomatch h
  · rename_i m hm
    obtain ⟨_, _, heq⟩ := Option.map_eq_some_iff.mp h
    rw [hm, (Prod.mk.inj heq).1]

theorem farEnd_ne_self (hd : d ≤ 28) (h : farEnd d l = some (n, k)) : n ≠ d := by
  rintro rfl
  exact neighbour_ne_self hd l (neighbour_of_farEnd h)

theorem linkAt_die (h : linkAt d l = true) : d ≤ 28 := by
  simp only [linkAt, Bool.and_eq_true, decide_eq_true_eq] at h
  exact h.1

theorem linkAt_neighbour (h : linkAt d l = true) : ∃ n, neighbour d l = some n := by
  simp only [linkAt, Bool.and_eq_true] at h
  exact Option.isSome_iff_exists.mp h.2

/-! ### Routers alone -/

/-- From `s` to `t` only routers have changed. -/
def State.reroutes (s t : State) : Prop := t = { s with routers := t.routers }

theorem reroutes_refl (s : State) : s.reroutes s := rfl

theorem reroutes_trans (h : s.reroutes t) (h' : t.reroutes u) : s.reroutes u := by
  rw [State.reroutes] at h
  rw [h] at h'
  exact h'

theorem reroutes_modRouter (s : State) (d : Nat) (f : Router → Router) : s.reroutes (s.modRouter d f) := by
  unfold State.modRouter
  split <;> rfl

theorem reroutes_modLink (s : State) (d l : Nat) (f : Link → Link) : s.reroutes (s.modLink d l f) := reroutes_modRouter ..

theorem reroutes_modLinks (s : State) (d l : Nat) (f : Link → Link) : s.reroutes (s.modLinks d l f) := by
  unfold State.modLinks
  dsimp only
  split
  · split
    · exact reroutes_trans (reroutes_modLink ..) (reroutes_modLink ..)
    · exact reroutes_modLink ..
  · exact reroutes_modLink ..

theorem reroutes_creditBack (s : State) (d port c : Nat) : s.reroutes (s.creditBack d port c) := by
  unfold State.creditBack
  split
  · exact reroutes_modRouter ..
  · exact reroutes_refl s

theorem reroutes_wires (h : s.reroutes t) : t.wires = s.wires := by rw [h]

theorem reroutes_flt (h : s.reroutes t) : t.flt = s.flt := by rw [h]

/-! ### One router changed -/

theorem router_withRouter_ne (h : e ≠ d) (r : Router) : (s.withRouter d r).router e = s.router e := Tab.look_put_ne _ h ..

@[simp] theorem withRouter_withRouter (d : Nat) (r q : Router) : (s.withRouter d r).withRouter d q = s.withRouter d q := by
  simp only [State.withRouter, Tab.put_put]

theorem modRouter_withRouter (hd : d ≤ 28) (s : State) (r : Router) (f : Router → Router) : (s.withRouter d r).modRouter d f = s.withRouter d (f r) := by
  rw [modRouter_eq hd, router_withRouter, withRouter_withRouter]

theorem router_modRouter (hd : d ≤ 28) (f : Router → Router) : (s.modRouter d f).router d = f (s.router d) := by
  rw [modRouter_eq hd, router_withRouter]

theorem router_modRouter_ne (h : e ≠ d) (f : Router → Router) : (s.modRouter d f).router e = s.router e := by
  by_cases hd : d ≤ 28
  · rw [modRouter_eq hd, router_withRouter_ne h]
  · rw [State.modRouter, if_neg hd]

/-- A property that an update keeps of every router holds of the updated mesh as before. -/
theorem router_modRouter_congr {α : Type} {f : Router → Router} (g : Router → α) (hf : ∀ r, g (f r) = g r) (s : State) (d e : Nat) :
    g ((s.modRouter d f).router e) = g (s.router e) := by
  by_cases he : e = d
  · subst he
    by_cases hd : e ≤ 28
    · rw [router_modRouter hd, hf]
    · rw [State.modRouter, if_neg hd]
  · rw [router_modRouter_ne he]

/-- The credit of a packet that came over a link returns to another router. -/
theorem router_creditBack (hd : d ≤ 28) (s : State) (port c : Nat) : (s.creditBack d port c).router d = s.router d := by
  unfold State.creditBack
  split
  · rename_i u l h
    exact router_modRouter_ne (farEnd_ne_self hd h).symm _
  · rfl

/-! ### One link changed -/

/-- A router with one of its links changed. -/
def Router.withLink (r : Router) (l : Nat) (x : Link) : Router := { r with links := r.links.put l x }

@[simp] theorem withLink_withLink (r : Router) (l : Nat) (x y : Link) : (r.withLink l x).withLink l y = r.withLink l y := by
  simp only [Router.withLink, Tab.put_put]

theorem modLink_eq (hd : d ≤ 28) (l : Nat) (f : Link → Link) : s.modLink d l f = s.withRouter d ((s.router d).withLink l (f (s.link d l))) := modRouter_eq hd _

theorem router_modLink (hd : d ≤ 28) (l : Nat) (f : Link → Link) : (s.modLink d l f).router d = (s.router d).withLink l (f (s.link d l)) := router_modRouter hd _

/-- A change of both ends of a link changes one link of its router. -/
theorem router_modLinks (hd : d ≤ 28) (l : Nat) (f : Link → Link) : (s.modLinks d l f).router d = (s.router d).withLink l (f (s.link d l)) := by
  unfold State.modLinks
  dsimp only
  split
  · rename_i n k h
    split
    · exact (router_modRouter_ne (farEnd_ne_self hd h).symm _).trans (router_modLink hd l f)
    · exact router_modLink hd l f
  · exact router_modLink hd l f

theorem link_of_router {r : Router} {x : Link} (h : t.router d = r.withLink l x) : t.link d l = x := by
  rw [State.link, h, Router.withLink, Tab.look_put_same]

theorem link_modLink (hd : d ≤ 28) (l : Nat) (f : Link → Link) : (s.modLink d l f).link d l = f (s.link d l) := link_of_router (router_modLink hd l f)

theorem link_modLinks (hd : d ≤ 28) (l : Nat) (f : Link → Link) : (s.modLinks d l f).link d l = f (s.link d l) := link_of_router (router_modLinks hd l f)

end Sys2Proof.Machine
end

section
/-! PROOFS. Links that leave service: what a quarantine and a fence change, and what they leave of every link (R206, R233, R237, R239, Table 10.5). -/

namespace Sys2Proof.Machine

variable {s t u : State} {d l k n : Nat}

/-! ### Links, flits and fenced elements as before -/

/-- From `s` to `t` every link, the packets on their way and the list of fenced elements are as before. -/
def State.keepsLinks (s t : State) : Prop := (∀ d l, t.link d l = s.link d l) ∧ t.wires = s.wires ∧ t.flt.routeFenced = s.flt.routeFenced

theorem keepsLinks_refl (s : State) : s.keepsLinks s := ⟨fun _ _ => rfl, rfl, rfl⟩

theorem keepsLinks_trans (h : s.keepsLinks t) (h' : t.keepsLinks u) : s.keepsLinks u := by
  obtain ⟨hlink, hwires, hflt⟩ := h
  obtain ⟨hlink', hwires', hflt'⟩ := h'
  exact ⟨fun d l => (hlink' d l).trans (hlink d l), hwires'.trans hwires, hflt'.trans hflt⟩

theorem keepsLinks_foldl {α : Type} {f : State → α → State} (hf : ∀ (t : State) x, t.keepsLinks (f t x)) (x : List α) (s : State) : s.keepsLinks (x.foldl f s) :=
  List.foldlRecOn x f (keepsLinks_refl s) (fun _ ht y _ => keepsLinks_trans ht (hf _ y))

theorem keepsLinks_modRouter {f : Router → Router} (hf : ∀ r, (f r).links = r.links) (s : State) (d : Nat) : s.keepsLinks (s.modRouter d f) :=
  ⟨fun e l => congrArg (·.look l {}) (router_modRouter_congr (·.links) hf s d e), modRouter_wires ..,
    congrArg (·.routeFenced) (reroutes_flt (reroutes_modRouter s d f))⟩

/-- A packet of the die's own units joins a channel or waits for one. -/
theorem keepsLinks_inject (s : State) (d : Nat) (p : Packet) : s.keepsLinks (s.inject d p) := by
  unfold State.inject
  refine keepsLinks_trans ⟨fun _ _ => rfl, rfl, rfl⟩ (keepsLinks_modRouter (fun r => ?_) _ d)
  split <;> rfl

theorem keepsLinks_report (s : State) (code reason die unit lstack count off len : Nat) (detail : BitVec 64) :
    s.keepsLinks (s.report code reason die unit lstack count off len detail) := ⟨fun _ _ => rfl, rfl, rfl⟩

theorem keepsLinks_event (s : State) (fn code src : Nat) (detail : BitVec 64) : s.keepsLinks (s.event fn code src detail) := by
  have hflt : (s.event fn code src detail).flt = s.flt := eventX_flt ..
  obtain ⟨_, _, _, _, h⟩ : s.tells (s.event fn code src detail) := tells_eventX ..
  rw [h] at hflt ⊢
  exact ⟨fun _ _ => rfl, rfl, congrArg (·.routeFenced) hflt⟩

/-- Distances computed anew are registers of the routers. -/
theorem keepsLinks_redist (s : State) : s.keepsLinks s.redist := by
  unfold State.redist
  exact keepsLinks_foldl (fun t d => keepsLinks_modRouter (by exact fun _ => rfl) t d) _ s

/-! ### A link that leaves service (R206, R237) -/

/-- The packets of a link out of service go back to their senders' routers, so that none is left on the link. -/
theorem resend_keepsLinks (s : State) (d l : Nat) : ∃ w, State.keepsLinks { s with wires := w } (s.resend d l) ∧
    ∀ n k, farEnd d l = some (n, k) → w.any (fun x => x.1 == n && x.2.1 == k) = false := by
  unfold State.resend
  split
  · rename_i h
    exact ⟨s.wires, keepsLinks_refl s, fun n k hk => nomatch h.symm.trans hk⟩
  · rename_i n k h
    refine ⟨_, keepsLinks_foldl (fun t x => ?_) _ _, fun n' k' hk => ?_⟩
    · split
      · exact keepsLinks_refl t
      · rename_i u o _
        have hcredit (f : Router → Tab Nat) : t.keepsLinks (t.modRouter u (fun r => { r with credits := f r })) :=
          keepsLinks_modRouter (by exact fun _ => rfl) t u
        dsimp only
        split
        · exact hcredit _
        · split
          · exact hcredit _
          · exact keepsLinks_trans (hcredit _) (keepsLinks_inject ..)
    · obtain ⟨rfl, rfl⟩ := Prod.mk.inj (Option.some.inj (h.symm.trans hk))
      simp only [List.any_eq_false, List.mem_filter, Bool.and_eq_true, beq_iff_eq]
      rintro x ⟨_, hsender⟩ hx
      rw [if_pos hx] at hsender
      nomatch hsender

/-- The detour, the packets sent again and the two records of a link that leaves service. -/
def State.leavesService (s : State) (d l code : Nat) : State :=
  (((s.switchAll (s.setFor (linkElem d l))).resend d l).report code 0 d (128 + l) 0 0 0 0 0).event 0 code 0 (BitVec.ofNat 64 (linkElem d l))

theorem leavesService_keepsLinks (s : State) (d l code : Nat) : ∃ w, State.keepsLinks { s with wires := w } (s.leavesService d l code) ∧
    ∀ n k, farEnd d l = some (n, k) → w.any (fun x => x.1 == n && x.2.1 == k) = false := by
  obtain ⟨w, hkeep, hfar⟩ := resend_keepsLinks (s.switchAll (s.setFor (linkElem d l))) d l
  have hrecords : State.keepsLinks _ (s.leavesService d l code) := keepsLinks_trans (keepsLinks_report ..) (keepsLinks_event ..)
  exact ⟨w, keepsLinks_trans ⟨fun _ _ => rfl, rfl, rfl⟩ (keepsLinks_trans hkeep hrecords), hfar⟩

theorem link_leavesService (s : State) (d l code e k : Nat) : (s.leavesService d l code).link e k = s.link e k := by
  obtain ⟨_, ⟨hlink, _⟩, _⟩ := leavesService_keepsLinks s d l code
  exact hlink e k

theorem routeFenced_leavesService (s : State) (d l code : Nat) : (s.leavesService d l code).flt.routeFenced = s.flt.routeFenced := by
  obtain ⟨_, ⟨_, _, hflt⟩, _⟩ := leavesService_keepsLinks s d l code
  exact hflt

/-! ### Quarantine (R235, R239) -/

theorem quarantine_eq (s : State) (d l : Nat) : s.quarantine d l = (s.modLinks d l (fun k => { k with st := .quarantined, retry := 0 })).leavesService d l 0x5102 := rfl

theorem link_quarantine (hd : d ≤ 28) (s : State) (l : Nat) : (s.quarantine d l).link d l = { s.link d l with st := .quarantined, retry := 0 } := by
  rw [quarantine_eq, link_leavesService, link_modLinks hd]

/-- A quarantined link carries no flit. -/
theorem wires_quarantine (s : State) (h : farEnd d l = some (n, k)) : (s.quarantine d l).wires.any (fun x => x.1 == n && x.2.1 == k) = false := by
  obtain ⟨w, ⟨_, hwires, _⟩, hfar⟩ := leavesService_keepsLinks (s.modLinks d l (fun k => { k with st := .quarantined, retry := 0 })) d l 0x5102
  rw [quarantine_eq, hwires]
  exact hfar n k h

/-! ### Fence (R233, R239) -/

theorem routeFence_first (h : s.flt.routeFenced = []) (elem : Nat) : s.routeFence elem = { s with flt := { s.flt with routeFenced := [elem] } } := by
  simp [State.routeFence, h]

/-- A link between routers leaves service, and distances are computed anew. -/
theorem fenceLink_eq (hst : (s.link d l).st ≠ .fenced) (hdies : ∀ n, neighbour d l = some n → n ≤ 28) :
    s.fenceLink d l = (((s.modLinks d l (fun k => { k with st := .fenced })).leavesService d l 0x5104).routeFence (linkElem d l)).redist := by
  rw [State.fenceLink, if_neg hst]
  split
  · rename_i n hn
    have hdie := hdies n hn
    have hsite : ¬ (d = 0 ∧ isGraft n = true) := by
      simp only [isGraft, Bool.and_eq_true, decide_eq_true_eq]
      omega
    exact if_neg hsite
  · rfl

/-- The first link to be fenced is the only fenced element. -/
theorem fenceLink_first (hd : d ≤ 28) (hst : (s.link d l).st ≠ .fenced) (hdies : ∀ n, neighbour d l = some n → n ≤ 28) (hnone : s.flt.routeFenced = []) :
    ((s.fenceLink d l).link d l).st = .fenced ∧ (s.fenceLink d l).flt.routeFenced = [linkElem d l] := by
  have hflt : ((s.modLinks d l (fun k => { k with st := .fenced })).leavesService d l 0x5104).flt.routeFenced = [] := by
    rw [routeFenced_leavesService, reroutes_flt (reroutes_modLinks ..), hnone]
  obtain ⟨hlinks, _, hfenced⟩ := keepsLinks_redist (((s.modLinks d l (fun k => { k with st := .fenced })).leavesService d l 0x5104).routeFence (linkElem d l))
  rw [fenceLink_eq hst hdies, hlinks, hfenced, routeFence_first hflt]
  refine ⟨?_, rfl⟩
  exact (congrArg (·.st) (link_leavesService ..)).trans (congrArg (·.st) (link_modLinks hd ..))

theorem afterFence_few (h : t.flt.routeFenced.length ≤ 1) (s : State) : s.afterFence t = t := if_neg (by omega)

theorem afterFence_same (h : t.flt.routeFenced = s.flt.routeFenced) : s.afterFence t = t := if_neg (by rw [h]; omega)

end Sys2Proof.Machine
end

section
/-! PROOFS. Training of a link whose lanes all work: what its ends note, and how an attempt ends (R232, R236, R239, Table 10.5). -/

namespace Sys2Proof.Machine

variable {s t : State} {d l a b r : Nat}

/-! ### What the ends note -/

/-- Each end notes the width that the other one sent or took. -/
def State.offersNoted (s : State) (d l mine theirs : Nat) : State :=
  let t := s.modLink d l (fun k => { k with offered := theirs, repair := 0 })
  match farEnd d l with
  | some (n, k) => if n ≤ 28 then t.modLink n k (fun k => { k with offered := mine, repair := 0 }) else t
  | none => t

theorem reroutes_offersNoted (s : State) (d l mine theirs : Nat) : s.reroutes (s.offersNoted d l mine theirs) := by
  unfold State.offersNoted
  dsimp only
  split
  · split
    · exact reroutes_trans (reroutes_modLink ..) (reroutes_modLink ..)
    · exact reroutes_modLink ..
  · exact reroutes_modLink ..

theorem router_offersNoted (hd : d ≤ 28) (s : State) (l mine theirs : Nat) :
    (s.offersNoted d l mine theirs).router d = (s.router d).withLink l { s.link d l with offered := theirs, repair := 0 } := by
  unfold State.offersNoted
  dsimp only
  split
  · rename_i n k h
    split
    · exact (router_modRouter_ne (farEnd_ne_self hd h).symm _).trans (router_modLink hd ..)
    · exact router_modLink hd ..
  · exact router_modLink hd ..

theorem link_offersNoted (hd : d ≤ 28) (s : State) (l mine theirs : Nat) :
    (s.offersNoted d l mine theirs).link d l = { s.link d l with offered := theirs, repair := 0 } := link_of_router (router_offersNoted hd ..)

theorem fullWidth_congr (h : (t.link d l).nego = (s.link d l).nego) : t.fullWidth d l = s.fullWidth d l := by
  simp only [State.fullWidth, h]

/-! ### The end of an attempt -/

theorem trainEnd_beyond (h : s.fullWidth d l < a ∨ s.fullWidth d l < b ∨ s.rateCap < r) (lanes : BitVec 32) : s.trainEnd d l a b lanes r = s := if_pos h

/-- A link in training whose ends offer one width: below the least width it is fenced, and otherwise it carries traffic at that width. -/
theorem trainEnd_agreed (hst : (s.link d l).st = .training) (ha : a ≤ s.fullWidth d l) (hr : r ≤ s.rateCap) :
    s.trainEnd d l a a 0 r =
      if a < s.leastWidth d l then (s.offersNoted d l a a).fenceLink d l
      else if r = 0 then s
      else
        let t := (s.offersNoted d l a a).linkUp d l a r
        let t := if (t.router d).set ≠ 0 ∧ (t.router d).set = t.setFor (linkElem d l) then t.switchBack (linkElem d l) else t
        if a < s.fullWidth d l then t.degradedNote d l else t := by
  unfold State.trainEnd
  extract_lets k full mine theirs up sent can agree w least spares note t t' v v'
  have hmine : mine = a := Nat.min_eq_left ha
  have htheirs : theirs = a := Nat.min_eq_left ha
  have hsent : sent = a := by rw [show sent = if up = true then mine else theirs from rfl, hmine, htheirs, ite_self]
  have hcan : can = a := by rw [show can = if up = true then theirs else mine from rfl, hmine, htheirs, ite_self]
  have hw : w = a := by rw [show w = min sent can from rfl, hsent, hcan, Nat.min_self]
  have hagree : agree = true := by rw [show agree = decide (sent ≤ can) from rfl, hsent, hcan, decide_eq_true (le_refl a)]
  have hspares : spares = 0 := by decide
  have hnote : note s = s.offersNoted d l a a := by
    simp only [note, hw, hsent, ite_self, hspares, ne_eq, not_true_eq_false, false_and, if_false]
    rfl
  have hcarries : t = v := by rw [show t = (note s).linkUp d l w r from rfl, hnote, hw]
  have hback : t' = v' := by simp only [t', v', hcarries]
  have hin : ¬ (full < a ∨ full < a ∨ s.rateCap < r) := by omega
  have hk : k.st = .training := hst
  rw [if_neg hin, hk]
  simp only [hagree, hw, hnote, hback]
  rfl

/-- A quarantined link whose upstream end sends more than the other can run: the failure is counted, and the third one, without a width to fall back on, fences the link. -/
theorem trainEnd_disagreed (hst : (s.link d l).st = .quarantined) (ha : a ≤ s.fullWidth d l) (hb : b ≤ s.fullWidth d l) (hr : r ≤ s.rateCap)
    (hl : linkAt d l = true) (hoff : ∀ n, neighbour d l = some n → if s.upstream d n = true then b < a else a < b) (hlast : (s.link d l).retry < 2 ∨ r = 0) :
    s.trainEnd d l a b 0 r =
      if (s.link d l).retry < 2 then (s.offersNoted d l a b).modLinks d l (fun k => { k with retry := k.retry + 1 }) else (s.offersNoted d l a b).fenceLink d l := by
  obtain ⟨n, hn⟩ := linkAt_neighbour hl
  have hoffers := hoff n hn
  unfold State.trainEnd
  extract_lets k full mine theirs up sent can agree w least spares note
  have hmine : mine = a := Nat.min_eq_left ha
  have htheirs : theirs = b := Nat.min_eq_left hb
  have hspares : spares = 0 := by decide
  have hcase : up = true ∧ b < a ∨ up = false ∧ a < b := by
    rw [show up = s.upstream d n by simp only [up, hn]]
    split at hoffers
    · exact .inl ⟨‹_›, hoffers⟩
    · exact .inr ⟨Bool.eq_false_of_not_eq_true ‹_›, hoffers⟩
  have hagree : agree = false := by
    rcases hcase with ⟨hup, hlt⟩ | ⟨hup, hlt⟩ <;> simp [agree, sent, can, hmine, htheirs, hup, hlt]
  have hown : (if up = true then w else sent) = b := by
    rcases hcase with ⟨hup, hlt⟩ | ⟨hup, hlt⟩ <;> simp [w, sent, can, hmine, htheirs, hup, hlt.le]
  have hpeer : (if up = true then sent else w) = a := by
    rcases hcase with ⟨hup, hlt⟩ | ⟨hup, hlt⟩ <;> simp [w, sent, can, hmine, htheirs, hup, hlt.le]
  have hnote : note s = s.offersNoted d l a b := by
    simp only [note, hown, hpeer, hspares, ne_eq, not_true_eq_false, false_and, if_false]
    rfl
  have hin : ¬ (full < a ∨ full < b ∨ s.rateCap < r) := by omega
  have hk : k.st = .quarantined := hst
  rw [if_neg hin, hk]
  simp only [hagree, hnote]
  by_cases hfirst : k.retry < 2
  · rw [if_pos hfirst, if_pos hfirst]
    rfl
  · have hrate : ¬ (r ≠ 0 ∧ least ≤ w) := fun h => h.1 (hlast.resolve_left hfirst)
    rw [if_neg hfirst, if_neg hfirst, if_neg hrate]
    rfl

/-! ### A link that comes up at full width -/

/-- The state once a link has trained to its full width. -/
def State.trainedUp (s : State) (d l r : Nat) : State := (s.offersNoted d l (s.fullWidth d l) (s.fullWidth d l)).linkUp d l (s.fullWidth d l) r

theorem reroutes_trainedUp (s : State) (d l r : Nat) : s.reroutes (s.trainedUp d l r) := reroutes_trans (reroutes_offersNoted ..) (reroutes_modLinks ..)

theorem router_trainedUp (hd : d ≤ 28) (s : State) (l r : Nat) :
    (s.trainedUp d l r).router d = (s.router d).withLink l { s.link d l with st := .up, width := s.fullWidth d l, offered := s.fullWidth d l, rate := r, retry := 0, repair := 0 } := by
  have hnoted := router_offersNoted hd s l (s.fullWidth d l) (s.fullWidth d l)
  have hfull : (s.offersNoted d l (s.fullWidth d l) (s.fullWidth d l)).fullWidth d l = s.fullWidth d l := fullWidth_congr (by rw [link_of_router hnoted])
  rw [State.trainedUp, State.linkUp, router_modLinks hd, hnoted, withLink_withLink, link_of_router hnoted, hfull, if_pos rfl]

/-- The detour of a link that comes up ends where its router holds that link's route set. -/
theorem trainEnd_full (hd : d ≤ 28) (hst : (s.link d l).st = .training) (hleast : s.leastWidth d l ≤ s.fullWidth d l) (hr : 1 ≤ r) (hcap : r ≤ s.rateCap) :
    s.trainEnd d l (s.fullWidth d l) (s.fullWidth d l) 0 r =
      if (s.router d).set ≠ 0 ∧ (s.router d).set = s.setFor (linkElem d l) then (s.trainedUp d l r).switchBack (linkElem d l) else s.trainedUp d l r := by
  have hset : ((s.trainedUp d l r).router d).set = (s.router d).set := by rw [router_trainedUp hd, Router.withLink]
  have hfor : (s.trainedUp d l r).setFor (linkElem d l) = s.setFor (linkElem d l) := by rw [reroutes_trainedUp s d l r, State.setFor, State.setFor]
  rw [trainEnd_agreed hst (le_refl _) hcap, if_neg (by omega), if_neg (by omega), if_neg (by omega), ← State.trainedUp, hset, hfor]

/-- With no other element out of service the routers go back to the base set. -/
theorem switchBack_base {elem : Nat} (h : s.outElems.filter (fun e => !sameElem e elem) = []) : s.switchBack elem = s.switchAll 0 := by
  rw [State.switchBack, h]
  rfl

theorem switchBack_switches (s : State) (elem : Nat) : ∃ set, s.switchBack elem = s.switchAll set := by
  unfold State.switchBack
  split <;> exact ⟨_, rfl⟩

/-- A SWITCH on its way has changed no link and no fenced element. -/
theorem switchBack_keepsLinks (s : State) (elem : Nat) : s.keepsLinks (s.switchBack elem) := by
  obtain ⟨set, h⟩ := switchBack_switches s elem
  rw [h]
  exact ⟨fun _ _ => rfl, rfl, rfl⟩

theorem outElems_switchBack (s : State) (elem : Nat) : (s.switchBack elem).outElems = s.outElems := by
  obtain ⟨set, h⟩ := switchBack_switches s elem
  rw [h]
  rfl

/-! ### The command -/

theorem exec_linkTrainingEnd (hup : s.isUp = true) (hl : linkAt d l = true) (a b : Nat) (lanes : BitVec 32) (r : Nat) :
    exec (.linkTrainingEnd d l a b lanes r) s = .next (s.afterFence (s.trainEnd d l a b lanes r)) := by
  have heq : exec (.linkTrainingEnd d l a b lanes r) s = execLinkTrainingEnd d l a b lanes r s := rfl
  rw [heq, execLinkTrainingEnd, onDo_on (isOn_of_isUp hup), if_pos hl]

/-- An attempt that fences nothing. -/
theorem exec_linkTrainingEnd_unfenced (hup : s.isUp = true) (hl : linkAt d l = true) {lanes : BitVec 32} (h : s.trainEnd d l a b lanes r = t)
    (hflt : t.flt.routeFenced = s.flt.routeFenced) : exec (.linkTrainingEnd d l a b lanes r) s = .next t := by
  rw [exec_linkTrainingEnd hup hl, h, afterFence_same hflt]

/-- An attempt that fences the link, the first element to be fenced. -/
theorem exec_linkTrainingEnd_fenced (hup : s.isUp = true) (hl : linkAt d l = true) {lanes : BitVec 32} (h : s.trainEnd d l a b lanes r = t.fenceLink d l)
    (hst : (t.link d l).st ≠ .fenced) (hdies : ∀ n, neighbour d l = some n → n ≤ 28) (hflt : t.flt.routeFenced = []) :
    Completes (.linkTrainingEnd d l a b lanes r) s (fun t => (t.link d l).st = .fenced ∧ t.flt.routeFenced = [linkElem d l]) := by
  have hfence := fenceLink_first (linkAt_die hl) hst hdies hflt
  have hfew : (t.fenceLink d l).flt.routeFenced.length ≤ 1 := by
    rw [hfence.2]
    rfl
  exact ⟨_, by rw [exec_linkTrainingEnd hup hl, h, afterFence_few hfew], hfence⟩

end Sys2Proof.Machine
end

section
/-! PROOFS. The commands of a die-to-die link: failed flits, their window, an end that leaves reset, and the register that retrains (R235, R239, R250, Table 10.6). -/

namespace Sys2Proof.Machine

variable {s : State} {d l : Nat}

/-! ### Failed flits (R235) -/

/-- A failed flit counted at a link's end. -/
def State.flitFailed (s : State) (d l : Nat) : State := s.modLink d l (fun k => { k with crc := satAdd k.crc 1, crcWin := k.crcWin + 1 })

/-- A failed flit quarantines a link that carries traffic at the threshold, where one is set. -/
theorem exec_flitCrcFail (hup : s.isUp = true) (hl : linkAt d l = true) :
    exec (.flitCrcFail d l) s = .next (
      if bits (s.router d).crcThresh 15 0 ≠ 0 ∧ bits (s.router d).crcThresh 15 0 ≤ (s.link d l).crcWin + 1 ∧ ((s.link d l).st = .up ∨ (s.link d l).st = .degraded) then
        (s.flitFailed d l).quarantine d l
      else s.flitFailed d l) := by
  have heq : exec (.flitCrcFail d l) s = execFlitCrcFail d l s := rfl
  have hlink : (s.flitFailed d l).link d l = { s.link d l with crc := satAdd (s.link d l).crc 1, crcWin := (s.link d l).crcWin + 1 } := link_modLink (linkAt_die hl) ..
  have hthresh : ((s.flitFailed d l).router d).crcThresh = (s.router d).crcThresh := congrArg (·.crcThresh) (router_modLink (linkAt_die hl) ..)
  rw [heq, execFlitCrcFail, upDo_up hup, if_pos hl, ← State.flitFailed]
  simp only [hlink, hthresh, Bool.and_eq_true, Bool.or_eq_true, bne_iff_ne, beq_iff_eq, decide_eq_true_eq, and_assoc]

theorem exec_crcWindow (hup : s.isUp = true) (hl : linkAt d l = true) : exec (.crcWindow d l) s = .next (s.modLink d l (fun k => { k with crcWin := 0 })) := by
  have heq : exec (.crcWindow d l) s = execCrcWindow d l s := rfl
  rw [heq, execCrcWindow, upDo_up hup, if_pos hl]

/-! ### An end that leaves reset (Table 10.5) -/

theorem exec_linkResetExit_down (hup : s.isUp = true) (hl : linkAt d l = true) (hst : (s.link d l).st = .down) :
    exec (.linkResetExit d l) s = .next (s.modLinks d l (fun k => { k with st := .training })) := by
  have heq : exec (.linkResetExit d l) s = execLinkResetExit d l s := rfl
  rw [heq, execLinkResetExit, onDo_on (isOn_of_isUp hup), if_pos hl, hst]

theorem exec_linkResetExit_carrying (hup : s.isUp = true) (hl : linkAt d l = true) (hst : (s.link d l).st = .up ∨ (s.link d l).st = .degraded) :
    exec (.linkResetExit d l) s = .next (s.quarantine d l) := by
  have heq : exec (.linkResetExit d l) s = execLinkResetExit d l s := rfl
  rw [heq, execLinkResetExit, onDo_on (isOn_of_isUp hup), if_pos hl]
  rcases hst with hst | hst <;> rw [hst]

/-! ### MSH_LINK_RETRAIN (Table 10.6) -/

theorem exec_mshLinkRetrain {q : Port} (hup : s.isUp = true) (hl : linkAt d l = true) (hq : q = .pf ∨ q = .mgmt) {v : BitVec 64} (hv : v.getLsbD 0 = true) :
    exec (.mshLinkRetrain q d l v) s = .next (if (s.link d l).st = .up ∨ (s.link d l).st = .degraded then s.quarantine d l else s) := by
  have heq : exec (.mshLinkRetrain q d l v) s = execMshLinkRetrain q d l v s := rfl
  have hport : (q != .pf && q != .mgmt) = false := by rcases hq with rfl | rfl <;> rfl
  rw [heq, execMshLinkRetrain, upDo_up hup, hport, if_neg Bool.false_ne_true]
  simp only [bit, hl, hv, Bool.true_and, Bool.or_eq_true, beq_iff_eq]

theorem exec_mshLinkRetrain_vf (hup : s.isUp = true) (f : Nat) (v : BitVec 64) :
    exec (.mshLinkRetrain (.vf f) d l v) s = .next (s.portDenied (.vf f) (0x100118 + 64 * l)) := by
  have heq : exec (.mshLinkRetrain (.vf f) d l v) s = execMshLinkRetrain (.vf f) d l v s := rfl
  rw [heq, execMshLinkRetrain, upDo_up hup]
  rfl

end Sys2Proof.Machine
end

section
/-! PROOFS. Regulators: how the first transaction of a class may issue, the issue of one, responses and windows (R245, R247, R249, R250). -/

namespace Sys2Proof.Machine

variable {s : State} {d m : Nat}

/-! ### One master changed -/

/-- `s` with a master's regulator holding `x`, and nothing else changed. -/
def State.withMaster (s : State) (d m : Nat) (x : Master) : State := { s with masters := s.masters.put (32 * d + m) x }

theorem modMaster_eq (hd : d ≤ 28) (hm : m < 18) (f : Master → Master) : s.modMaster d m f = s.withMaster d m (f (s.master d m)) := if_pos ⟨hd, hm⟩

@[simp] theorem master_withMaster (x : Master) : (s.withMaster d m x).master d m = x := Tab.look_put_same ..

@[simp] theorem withMaster_withMaster (x y : Master) : (s.withMaster d m x).withMaster d m y = s.withMaster d m y := by
  simp only [State.withMaster, Tab.put_put]

/-! ### The right to issue (R247) -/

theorem mayIssue_floor {y : Master} {rt : Bool} {c : RegClass} {x : Txn} {rest : List Txn} (hq : c.q = x :: rest) (hout : c.out < rcOt c.cls) (hbud : 0 < c.budget)
    (hkind : rcKind c.cls = 2 ∨ rcKind c.cls = 3) : y.mayIssue rt c = 2 := by
  rcases hkind with hkind | hkind <;> simp [Master.mayIssue, hq, hkind, hout, hbud]

theorem mayIssue_none {y : Master} {rt : Bool} {c : RegClass} (h : rcKind c.cls = 0 ∨ c.q = []) : y.mayIssue rt c = 0 := by
  rcases h with hkind | hq
  · unfold Master.mayIssue
    split
    · rfl
    · simp [hkind]
  · rw [Master.mayIssue, hq]

/-! ### REGULATOR_ISSUE (R245, R247, R249) -/

theorem exec_regulatorIssue (hup : s.isUp = true) : exec (.regulatorIssue d m) s = .next (s.regIssue d m) := by
  have heq : exec (.regulatorIssue d m) s = execRegulatorIssue d m s := rfl
  rw [heq, execRegulatorIssue, upDo_up hup]

theorem regIssue_full (hfull : s.maxOt d m ≤ (s.master d m).outAll) (hurg : (s.master d m).urg = s.urgency d m) : s.regIssue d m = s := by
  rw [State.regIssue, if_pos hurg]
  exact if_pos hfull

/-- The urgency follows the fill of the master's buffer. -/
theorem urgency_follows (hd : d ≤ 28) (hm : m < 18) (s : State) :
    ∃ t, (if (s.master d m).urg = s.urgency d m then s else s.modMaster d m (fun x => { x with urg := s.urgency d m })) = t ∧
      t.master d m = { s.master d m with urg := s.urgency d m } ∧ (∀ x, t.withMaster d m x = s.withMaster d m x) ∧ t.maxOt d m = s.maxOt d m ∧
      ∀ cls prio tag x, t.txnPacket d m cls prio tag x = s.txnPacket d m cls prio tag x := by
  refine ⟨_, rfl, ?_⟩
  split
  · rename_i h
    exact ⟨by rw [← h], fun _ => rfl, rfl, fun _ _ _ _ => rfl⟩
  · rw [modMaster_eq hd hm]
    exact ⟨master_withMaster _, fun _ => withMaster_withMaster _ _, rfl, fun _ _ _ _ => rfl⟩

/-- The priority that a transaction of a class carries: a real-time master's urgency while it may raise one more packet, and otherwise the kind's own (R249). -/
def Master.raises (x : Master) (rt : Bool) (c : RegClass) : Bool := rt && decide (kindPrio (rcKind c.cls) < x.urg) && decide (x.urgOut < bits x.cfg 63 52)

/-- The only class's first transaction, where it may issue, goes to the die's router. -/
theorem regIssue_only {cls : Nat} {c : RegClass} {x : Txn} {rest : List Txn} {y : Master} (hd : d ≤ 28) (hm : m < 18) (hy : y = { s.master d m with urg := s.urgency d m })
    (hcls : (s.master d m).classes = [(cls, c)]) (hq : c.q = x :: rest) (hmay : y.mayIssue (realTime d m) c ≠ 0) (hroom : c.out < s.maxOt d m) :
    s.regIssue d m = (s.withMaster d m { y with
      urgOut := if y.raises (realTime d m) c then y.urgOut + 1 else y.urgOut
      tag := (y.tag + 1) % 4096
      classes := [(cls, { c with q := rest, out := c.out + 1, budget := if rcBudget c.cls = 0 then c.budget else c.budget - 1 })] }).inject d
        (s.txnPacket d m cls (if y.raises (realTime d m) c then y.urg else kindPrio (rcKind c.cls)) y.tag x) := by
  obtain ⟨t, ht, hmaster, hwith, hmax, hpacket⟩ := urgency_follows hd hm s
  have hclasses : y.classes = [(cls, c)] := by rw [hy, hcls]
  have hout : ¬ t.maxOt d m ≤ y.outAll := by
    rw [hmax, Master.outAll, hclasses]
    simp only [List.foldl_cons, List.foldl_nil]
    omega
  rw [State.regIssue]
  simp only [ht, hmaster, ← hy, hclasses, List.filterMap_cons, List.filterMap_nil, if_neg hmay, bestOf, if_neg hout, hq, hpacket]
  rw [modMaster_eq hd hm, hmaster, hwith, ← hy]
  simp only [hclasses, Tab.put, lt_irrefl, if_false, if_true]
  rfl

/-! ### Responses and windows (R245, R250) -/

/-- A response to a port that serves one master ends a transaction of its class. -/
theorem txnEnd_single {port cls prio : Nat} (hd : d ≤ 28) (hm : m < 18) (hport : masterOf d port = [m]) (hout : 0 < ((s.master d m).classes.look cls {}).out) :
    ((s.txnEnd d port cls prio).master d m).classes.look cls {} = { (s.master d m).classes.look cls {} with out := ((s.master d m).classes.look cls {}).out - 1 } := by
  have hfind : [m].find? (fun m => decide (0 < ((s.master d m).classes.look cls {}).out)) = some m := by rw [List.find?_cons_of_pos (by simpa using hout)]
  rw [State.txnEnd, hport, hfind]
  simp only [modMaster_eq hd hm, master_withMaster, Tab.look_put_same]

/-- A class at the boundary of a window: changed settings apply and its budget is full. -/
def RegClass.renewed (c : RegClass) : RegClass := { c with cls := c.newCls.getD c.cls, newCls := none, budget := rcBudget (c.newCls.getD c.cls) }

theorem exec_regulatorWindow (hup : s.isUp = true) : exec (.regulatorWindow d m) s = .next (
    if s.masters.has (32 * d + m) = true then s.modMaster d m (fun x => { x with classes := x.classes.each (fun _ c => c.renewed) }) else s) := by
  have heq : exec (.regulatorWindow d m) s = execRegulatorWindow d m s := rfl
  rw [heq, execRegulatorWindow, upDo_up hup]
  rfl

theorem renewed_full {l : Tab RegClass} : ∀ e ∈ l.each (fun _ c => c.renewed), e.2.newCls = none ∧ e.2.budget = rcBudget e.2.cls := by
  intro e he
  obtain ⟨_, _, rfl⟩ := List.mem_map.mp he
  exact ⟨rfl, rfl⟩

theorem renewed_settings (l : Tab RegClass) :
    (l.each (fun _ c => c.renewed)).map (fun e => (e.1, e.2.cls, e.2.out)) = l.map (fun e => (e.1, e.2.newCls.getD e.2.cls, e.2.out)) := by
  rw [Tab.each, List.map_map]
  rfl

end Sys2Proof.Machine
end

section
/-! PROOFS. A packet that reaches a router's input: held, taken, or dropped as a fault (R224, R225, R228). -/

namespace Sys2Proof.Machine

variable {s t : State} {d e n f port : Nat} {p : Packet}

/-! ### The command -/

theorem exec_routerArrival_quiet (hup : s.isUp = true) (h : s.routerArrival n f = (t, none)) : exec (.routerArrival n f) s = .next t := by
  have heq : exec (.routerArrival n f) s = execRouterArrival n f s := rfl
  rw [heq, execRouterArrival, upDo_up hup, h]

theorem exec_routerArrival_source (hup : s.isUp = true) (hf : f < 2) (h : s.routerArrival n f = (t, some e)) : exec (.routerArrival n f) s = .next (t.dieFault e) := by
  have heq : exec (.routerArrival n f) s = execRouterArrival n f s := rfl
  rw [heq, execRouterArrival, upDo_up hup, h]
  exact congrArg _ (if_neg (by omega))

theorem exec_routerArrival_double (hup : s.isUp = true) (hf : 2 ≤ f) (h : s.routerArrival n f = (t, some e)) :
    exec (.routerArrival n f) s = .next ((t.report 0x4015 0 e 0 0 0 0 0 0).dieFault e).fatal := by
  have heq : exec (.routerArrival n f) s = execRouterArrival n f s := rfl
  rw [heq, execRouterArrival, upDo_up hup, h]
  exact congrArg _ (if_pos hf)

/-! ### The packet at the head of its link -/

/-- Packet `p` is the oldest on its way over the link at input `port` of die `d`. -/
def State.headsLink (s : State) (n d port : Nat) (p : Packet) : Prop :=
  s.wires[n]? = some (d, port, p) ∧ port ≠ localPort d ∧ (s.wires.take n).any (fun x => x.1 == d && x.2.1 == port) = false

/-- The state once the receiver has accepted the flit of packet `p`. -/
def State.accepted (s : State) (n d port : Nat) (p : Packet) : State := State.modLink { s with wires := s.wires.eraseIdx n } d port (fun k => { k with got := p.seq })

theorem routerArrival_outOfService (h : s.headsLink n d port p) (hc : s.carries d port = false) : s.routerArrival n f = (s, none) := by
  obtain ⟨hw, hport, hfirst⟩ := h
  rw [State.routerArrival, hw]
  exact if_pos (.inr (.inr (by rw [hc]; rfl)))

/-- A router's input in service. -/
theorem arrival_open (h : s.headsLink n d port p) (hc : s.carries d port = true) :
    ¬ ((d ≤ 28 ∧ port = localPort d) ∨ (s.wires.take n).any (fun x => x.1 == d && x.2.1 == port) = true ∨ (!s.carries d port) = true) := by
  obtain ⟨_, hport, hfirst⟩ := h
  rw [hfirst, hc]
  rintro (⟨_, h⟩ | h | h)
  · exact hport h
  · nomatch h
  · nomatch h

/-- Two bits of a header changed on the way. -/
theorem routerArrival_double (h : s.headsLink n d port p) (hc : s.carries d port = true) (hf : 2 ≤ f) :
    s.routerArrival n f = ((s.accepted n d port p).creditBack d port (pkVc p.header), some d) := by
  rw [State.routerArrival, h.1]
  dsimp only
  rw [if_neg (arrival_open h hc), if_pos hf]
  rfl

/-- A destination that does not exist. -/
theorem routerArrival_unrouted (h : s.headsLink n d port p) (hc : s.carries d port = true) (hd : d ≤ 28) (hr : pkRouted p.header = false) :
    s.routerArrival n 0 = ((State.accepted { s with lost := s.lost ++ [p] } n d port p).creditBack d port (pkVc p.header), some (pkSrc p.header)) := by
  rw [State.routerArrival, h.1]
  dsimp only
  rw [if_neg (arrival_open h hc), if_neg (by omega), if_pos (by rw [hr]; rfl), if_neg (by omega)]
  simp only [State.accepted, modLink_eq hd]
  rfl

/-- The channel that a packet joins at an input. -/
def arrivalKey (port : Nat) (h : BitVec 128) : Nat := vcKey port (pkMClass h) (pkEsc h)

theorem arrivalKey_eq {h : BitVec 128} (hr : pkRouted h = true) (port : Nat) : vcKey port 0 false + pkVc h = arrivalKey port h := by
  have hclass : pkMClass h ≤ 4 := by
    simp only [pkRouted, Bool.and_eq_true, decide_eq_true_eq] at hr
    exact hr.1.2
  have hfalse : b2n false = 0 := rfl
  simp only [arrivalKey, pkVc, vcKey, Nat.mod_eq_of_lt (show pkMClass h < 5 by omega), hfalse]
  omega

theorem isGraft_router (hd : d ≤ 28) : isGraft d = false := by simp [isGraft]; omega

theorem routerArrival_full (h : s.headsLink n d port p) (hc : s.carries d port = true) (hd : d ≤ 28) (hf : f ≤ 1) (hr : pkRouted p.header = true)
    (hroom : 8 ≤ ((s.router d).vcs.look (arrivalKey port p.header) []).length) : s.routerArrival n f = (s, none) := by
  rw [State.routerArrival, h.1]
  dsimp only
  rw [if_neg (arrival_open h hc), if_neg (by omega), if_neg (by rw [hr]; nofun), if_neg (by rw [isGraft_router hd]; nofun), arrivalKey_eq hr, if_pos hroom]

/-- A packet joins its channel, with a corrected header counted. -/
theorem routerArrival_joins (h : s.headsLink n d port p) (hc : s.carries d port = true) (hd : d ≤ 28) (hf : f ≤ 1) (hr : pkRouted p.header = true)
    (hroom : ((s.router d).vcs.look (arrivalKey port p.header) []).length < 8) :
    s.routerArrival n f = (State.withRouter { s with wires := s.wires.eraseIdx n, serial := s.serial + 1 } d { s.router d with
      links := (s.router d).links.put port { s.link d port with got := p.seq }
      hdrCe := if f = 1 then satAdd (s.router d).hdrCe 1 else (s.router d).hdrCe
      vcs := (s.router d).vcs.put (arrivalKey port p.header) ((s.router d).vcs.look (arrivalKey port p.header) [] ++ [{ p with stamp := s.serial, wait := 0 }]) }, none) := by
  rw [State.routerArrival, h.1]
  dsimp only
  rw [if_neg (arrival_open h hc), if_neg (by omega), if_neg (by rw [hr]; nofun), if_neg (by rw [isGraft_router hd]; nofun), arrivalKey_eq hr, if_neg (by omega)]
  rw [modLink_eq hd]
  obtain rfl | rfl : f = 0 ∨ f = 1 := by omega
  · exact congrArg (·, none) (modRouter_withRouter hd { s with wires := s.wires.eraseIdx n, serial := s.serial + 1 } _ _)
  · rw [if_pos rfl, modRouter_withRouter hd]
    exact congrArg (·, none) (modRouter_withRouter hd { s with wires := s.wires.eraseIdx n, serial := s.serial + 1 } _ _)

end Sys2Proof.Machine
end

section
/-! PROOFS. The grant of an output: the order of waiting packets, and the packet that leaves (R224, R229, R230). -/

namespace Sys2Proof.Machine

variable {s : State} {d out key r n l : Nat} {p : Packet}

/-! ### The order of R229 -/

/-- The order of R229 in words: packets at AGE 31 first, by arrival; then PRIO, AGE and the round-robin distance. -/
theorem goesFirst_iff (ka ra kb rb : Nat) (p q : Packet) :
    goesFirst (ka, ra, p) (kb, rb, q) = true ↔
      (pkAge p.header = 31 ∧ (pkAge q.header ≠ 31 ∨ p.stamp < q.stamp)) ∨
      (pkAge p.header ≠ 31 ∧ pkAge q.header ≠ 31 ∧
        (pkPrio q.header < pkPrio p.header ∨ pkPrio p.header = pkPrio q.header ∧ (pkAge q.header < pkAge p.header ∨ pkAge p.header = pkAge q.header ∧ ra < rb))) := by
  unfold goesFirst
  dsimp only
  split_ifs <;> simp only [decide_eq_true_eq, true_iff, false_iff] <;> omega

theorem goesFirst_asymm (a b : Nat × Nat × Packet) (h : goesFirst a b = true) : goesFirst b a = false := by
  obtain ⟨ka, ra, p⟩ := a
  obtain ⟨kb, rb, q⟩ := b
  rw [Bool.eq_false_iff, ne_eq, goesFirst_iff]
  rw [goesFirst_iff] at h
  omega

/-- A packet that goes before another goes before any third, or the third before the other. -/
theorem goesFirst_split (a b c : Nat × Nat × Packet) (h : goesFirst a b = true) : goesFirst a c = true ∨ goesFirst c b = true := by
  obtain ⟨ka, ra, p⟩ := a
  obtain ⟨kb, rb, q⟩ := b
  obtain ⟨kc, rc, x⟩ := c
  rw [goesFirst_iff] at h ⊢
  rw [goesFirst_iff]
  omega

/-- Nothing in a list goes before its best. -/
theorem bestOf_least {α : Type} {lt : α → α → Bool} (hasymm : ∀ a b, lt a b = true → lt b a = false) (hsplit : ∀ a b c, lt a b = true → lt a c = true ∨ lt c b = true)
    {x : List α} {m : α} (h : bestOf lt x = some m) : ∀ y ∈ x, lt y m = false := by
  have hself (a : α) : lt a a = false := by
    cases ha : lt a a with
    | false => rfl
    | true => exact ha.symm.trans (hasymm a a ha)
  induction x generalizing m with
  | nil => nomatch h
  | cons a x ih =>
    rw [bestOf] at h
    split at h
    · rename_i hnone
      obtain rfl := Option.some.inj h
      have hx : x = [] := by
        cases x with
        | nil => rfl
        | cons b x =>
          rw [bestOf] at hnone
          split at hnone
          · nomatch hnone
          · split at hnone <;> nomatch hnone
      intro y hy
      rw [hx, List.mem_singleton] at hy
      rw [hy, hself]
    · rename_i z hz
      have hleast := ih hz
      split at h
      · rename_i hza
        obtain rfl := Option.some.inj h
        intro y hy
        rcases List.mem_cons.mp hy with rfl | hy
        · exact hasymm _ _ hza
        · exact hleast y hy
      · rename_i hza
        obtain rfl := Option.some.inj h
        intro y hy
        rcases List.mem_cons.mp hy with rfl | hy
        · exact hself _
        · by_contra hya
          rcases hsplit y a z (Bool.eq_true_of_not_eq_false hya) with h1 | h1
          · rw [hleast y hy] at h1
            nomatch h1
          · exact hza h1

/-! ### OUTPUT_ARBITRATION (R224, R229, R230) -/

theorem exec_outputArbitration (hup : s.isUp = true) (hd : d ≤ 28) (hout : out ≤ linkCount d) : exec (.outputArbitration d out) s = .next (s.arbitrate d out) := by
  have heq : exec (.outputArbitration d out) s = execOutputArbitration d out s := rfl
  rw [heq, execOutputArbitration, upDo_up hup, if_pos ⟨hd, hout⟩]

theorem arbitrate_none (h : s.candidates d out = []) : s.arbitrate d out = s := by
  rw [State.arbitrate, h]
  rfl

/-- The state once the head packet of a channel has left it for an output. -/
def State.headLeaves (s : State) (d out key : Nat) : State :=
  (s.withRouter d { s.router d with vcs := (s.router d).vcs.put key ((s.router d).vcs.look key []).tail, rr := (s.router d).rr.put out (key / 10) }).creditBack d (key / 10) (key % 10)

theorem router_headLeaves (hd : d ≤ 28) (s : State) (out key : Nat) :
    (s.headLeaves d out key).router d = { s.router d with vcs := (s.router d).vcs.put key ((s.router d).vcs.look key []).tail, rr := (s.router d).rr.put out (key / 10) } := by
  rw [State.headLeaves, router_creditBack hd, router_withRouter]

theorem reroutes_headLeaves (s : State) (d out key : Nat) : s.reroutes (s.headLeaves d out key) :=
  reroutes_trans (t := s.withRouter d _) rfl (reroutes_creditBack ..)

/-- Packet `p` sent over a link: it takes a credit of its channel, and its flit the link's next number. -/
def State.sentOver (s : State) (d out n l : Nat) (p : Packet) : State :=
  let m := (s.link d out).sent + 1
  let t := (s.modLink d out (fun k => { k with sent := m })).modRouter d (fun x =>
    { x with credits := x.credits.put (vcKey out 0 false + pkVc p.header) (x.credits.look (vcKey out 0 false + pkVc p.header) 0 + 1) })
  { t with wires := t.wires ++ [(n, l, { p with seq := m })] }

/-- The best packet leaves its channel, on the channel kind that it has, for its die's units or over a link. -/
theorem arbitrate_best (hd : d ≤ 28) (hbest : bestOf goesFirst (s.candidates d out) = some (key, r, p)) (hkey : key / 10 ≠ localPort d)
    (hwant : s.wantsOut d out p = some (pkEsc p.header)) :
    s.arbitrate d out = if out = localPort d then { s.headLeaves d out key with wires := s.wires ++ [(d, localPort d, { p with wait := 0 })] } else
      match farEnd d out with
      | some (n, l) => (s.headLeaves d out key).sentOver d out n l { p with wait := 0 }
      | none => s.headLeaves d out key := by
  rw [State.arbitrate, hbest]
  dsimp -zeta only
  extract_lets +onlyGivenNames esc a b q
  have ha : a = s.withRouter d { s.router d with vcs := (s.router d).vcs.put key ((s.router d).vcs.look key []).tail, rr := (s.router d).rr.put out (key / 10) } :=
    (modRouter_eq hd _).trans (congrArg _ (if_neg hkey))
  have hb : b = s.headLeaves d out key := (if_neg hkey).trans (by rw [ha, State.headLeaves])
  have hq : q = { p with wait := 0 } := by simp only [q, esc, hwant, Option.getD_some, beq_self_eq_true, if_true]
  rw [hb, hq, reroutes_wires (reroutes_headLeaves ..)]
  rfl

/-- A packet for the die's own units leaves by the local port. -/
theorem arbitrate_local (hd : d ≤ 28) (hbest : bestOf goesFirst (s.candidates d out) = some (key, r, p)) (hout : out = localPort d) (hdst : pkDst p.header = d)
    (hkey : key / 10 ≠ localPort d) : s.arbitrate d out = { s.headLeaves d out key with wires := s.wires ++ [(d, out, { p with wait := 0 })] } := by
  have hwant : s.wantsOut d out p = some (pkEsc p.header) := by simp [State.wantsOut, hdst, hout]
  rw [arbitrate_best hd hbest hkey hwant, if_pos hout, ← hout]

/-- A packet for another die leaves over a link. -/
theorem arbitrate_link (hd : d ≤ 28) (hbest : bestOf goesFirst (s.candidates d out) = some (key, r, p)) (hout : out ≠ localPort d) (hkey : key / 10 ≠ localPort d)
    (hwant : s.wantsOut d out p = some (pkEsc p.header)) (hfar : farEnd d out = some (n, l)) :
    s.arbitrate d out = (s.headLeaves d out key).sentOver d out n l { p with wait := 0 } := by
  rw [arbitrate_best hd hbest hkey hwant, if_neg hout, hfar]

theorem router_sentOver (hd : d ≤ 28) (s : State) (out n l : Nat) (p : Packet) :
    (s.sentOver d out n l p).router d = { (s.router d).withLink out { s.link d out with sent := (s.link d out).sent + 1 } with
      credits := (s.router d).credits.put (vcKey out 0 false + pkVc p.header) ((s.router d).credits.look (vcKey out 0 false + pkVc p.header) 0 + 1) } := by
  rw [State.sentOver, modLink_eq hd]
  dsimp only
  rw [modRouter_withRouter hd]
  exact router_withRouter ..

theorem sentOver_only (s : State) (d out n l : Nat) (p : Packet) : s.sentOver d out n l p =
    { s with wires := s.wires ++ [(n, l, { p with seq := (s.link d out).sent + 1 })], routers := (s.sentOver d out n l p).routers } := by
  have hroute := reroutes_trans (reroutes_modLink s d out (fun k => { k with sent := (s.link d out).sent + 1 })) (reroutes_modRouter _ d (fun x =>
    { x with credits := x.credits.put (vcKey out 0 false + pkVc p.header) (x.credits.look (vcKey out 0 false + pkVc p.header) 0 + 1) }))
  rw [State.sentOver]
  dsimp only
  rw [hroute]

/-- A packet that leaves over a link is on its way to the far end, and only its router and its upstream neighbour's change. -/
theorem leaves_over_link (hd : d ≤ 28) (s : State) (out key n l : Nat) (p : Packet) {t : State} (ht : (s.headLeaves d out key).sentOver d out n l p = t) :
    t.wires = s.wires ++ [(n, l, { p with seq := (s.link d out).sent + 1 })] ∧ (t.router d).vcs = (s.router d).vcs.put key ((s.router d).vcs.look key []).tail ∧
      (t.link d out).sent = (s.link d out).sent + 1 ∧
      (t.router d).credits.look (vcKey out 0 false + pkVc p.header) 0 = (s.router d).credits.look (vcKey out 0 false + pkVc p.header) 0 + 1 ∧
      t = { s with wires := t.wires, routers := t.routers } := by
  have hlink : (s.headLeaves d out key).link d out = s.link d out := by
    rw [State.link, router_headLeaves hd]
    rfl
  have hrouter := router_sentOver hd (s.headLeaves d out key) out n l p
  have honly := sentOver_only (s.headLeaves d out key) d out n l p
  rw [ht, hlink, router_headLeaves hd] at hrouter
  rw [ht, hlink, reroutes_headLeaves s d out key] at honly
  refine ⟨by rw [honly], by rw [hrouter, Router.withLink], ?_, by rw [hrouter, Tab.look_put_same], by rw [honly]⟩
  rw [State.link, hrouter, Router.withLink, Tab.look_put_same]

end Sys2Proof.Machine
end

section
/-! PROOFS. Packets that wait: their AGE, and the header that a router writes again (R228, R229). -/

namespace Sys2Proof.Machine

variable {s : State} {d v : Nat} {p : Packet} {a b : List Packet}

/-! ### The header's fields (R225, R228) -/

/-- The header without its check, as a number. -/
theorem pkSet_toNat (h : BitVec 128) (a : Nat) (e : Bool) : ∃ c < 2 ^ 8,
    (pkSet h a e).toNat = h.toNat % 2 ^ 111 + 2 ^ 111 * b2n e + 2 ^ 112 * (a % 32) + 2 ^ 117 * bits h 119 117 + 2 ^ 120 * c := by
  have he : b2n e ≤ 1 := by cases e <;> decide
  have hbits : bits h 119 117 < 2 ^ 3 := bits_lt h 119 117
  obtain ⟨low, hlow⟩ : ∃ low, low = h.toNat % 2 ^ 111 + 2 ^ 111 * b2n e + 2 ^ 112 * (a % 32) + 2 ^ 117 * bits h 119 117 := ⟨_, rfl⟩
  have hcheck := (Config.headerCheck (BitVec.ofNat 120 low)).isLt
  refine ⟨(Config.headerCheck (BitVec.ofNat 120 low)).toNat, hcheck, ?_⟩
  rw [pkSet, ← hlow, BitVec.toNat_ofNat, Nat.mod_eq_of_lt (by omega)]

theorem pkSet_fields (h : BitVec 128) (a : Nat) (e : Bool) :
    pkAge (pkSet h a e) = a % 32 ∧ pkDst (pkSet h a e) = pkDst h ∧ pkEsc (pkSet h a e) = e ∧ pkClass (pkSet h a e) = pkClass h := by
  have he : b2n e ≤ 1 := by cases e <;> decide
  obtain ⟨c, hc, hset⟩ := pkSet_toNat h a e
  refine ⟨?age, ?dst, ?esc, ?cls⟩
  case age =>
    simp only [pkAge, bits, hset, Nat.shiftRight_eq_div_pow]
    omega
  case dst =>
    simp only [pkDst, bits, hset, Nat.shiftRight_eq_div_pow]
    omega
  case esc =>
    have hodd : (pkSet h a e).toNat / 2 ^ 111 % 2 = b2n e := by
      rw [hset]
      omega
    rw [pkEsc, bit, BitVec.getLsbD, Nat.testBit_eq_decide_div_mod_eq, hodd]
    cases e <;> rfl
  case cls =>
    simp only [pkClass, bits, hset, Nat.shiftRight_eq_div_pow]
    omega

/-! ### AGE_TICK (R229) -/

/-- A packet that has waited 64 cycles more. -/
def Packet.aged (p : Packet) : Packet := { p with header := pkSet p.header (min 31 (pkAge p.header + 1)) (pkEsc p.header), wait := 0 }

theorem modNth_append {α : Type} (f : α → α) (a : List α) (x : α) (b : List α) : modNth (a ++ x :: b) a.length f = a ++ f x :: b := by
  induction a with
  | nil => rfl
  | cons y a ih => simp only [List.cons_append, List.length_cons, modNth, ih]

theorem exec_ageTick (hup : s.isUp = true) (hd : d ≤ 28) (hv : (s.router d).vcs.look v [] = a ++ p :: b) :
    exec (.ageTick d v a.length) s = .next (s.withRouter d { s.router d with vcs := (s.router d).vcs.put v (a ++ p.aged :: b) }) := by
  have heq : exec (.ageTick d v a.length) s = execAgeTick d v a.length s := rfl
  have hhas : (s.router d).vcs.has v = true := by
    by_contra h
    rw [Tab.look_of_has_false (Bool.eq_false_of_not_eq_true h)] at hv
    simp at hv
  rw [heq, execAgeTick, upDo_up hup, modRouter_eq hd, if_pos hhas, hv, modNth_append]
  rfl

end Sys2Proof.Machine
end

section
/-! PROOFS. Delivery of packets to a die's units, and the route set that a router installs (R226, R227, R232, R245). -/

namespace Sys2Proof.Machine

variable {s t u : State} {d n : Nat} {p : Packet} {a b : List (Nat × Nat × Packet)} {bad : List Bool}

/-! ### What the records of failed sectors leave alone -/

/-- From `s` to `t` the packets on their way, the packets delivered and the reads repeated are as before. -/
def State.keepsTraffic (s t : State) : Prop := t.wires = s.wires ∧ ∀ e, (t.router e).inbox = (s.router e).inbox ∧ (t.router e).retries = (s.router e).retries

theorem keepsTraffic_refl (s : State) : s.keepsTraffic s := ⟨rfl, fun _ => ⟨rfl, rfl⟩⟩

theorem keepsTraffic_trans (h : s.keepsTraffic t) (h' : t.keepsTraffic u) : s.keepsTraffic u := by
  obtain ⟨hwires, hrouter⟩ := h
  obtain ⟨hwires', hrouter'⟩ := h'
  exact ⟨hwires'.trans hwires, fun e => ⟨(hrouter' e).1.trans (hrouter e).1, (hrouter' e).2.trans (hrouter e).2⟩⟩

theorem keepsTraffic_foldl {α : Type} {f : State → α → State} (hf : ∀ (t : State) x, t.keepsTraffic (f t x)) (x : List α) (s : State) : s.keepsTraffic (x.foldl f s) :=
  List.foldlRecOn x f (keepsTraffic_refl s) (fun _ ht y _ => keepsTraffic_trans ht (hf _ y))

theorem keepsTraffic_tells (h : s.tells t) : s.keepsTraffic t := by
  obtain ⟨_, _, _, _, rfl⟩ := h
  exact keepsTraffic_refl s

theorem keepsTraffic_modRouter {f : Router → Router} (hin : ∀ r, (f r).inbox = r.inbox) (hre : ∀ r, (f r).retries = r.retries) (s : State) (d : Nat) :
    s.keepsTraffic (s.modRouter d f) :=
  ⟨modRouter_wires .., fun e => ⟨router_modRouter_congr (·.inbox) hin s d e, router_modRouter_congr (·.retries) hre s d e⟩⟩

theorem keepsTraffic_inject (s : State) (d : Nat) (p : Packet) : s.keepsTraffic (s.inject d p) := by
  unfold State.inject
  refine keepsTraffic_trans (t := s.nextSerial.2) (keepsTraffic_refl s) (keepsTraffic_modRouter (fun r => ?_) (fun r => ?_) _ d) <;> split <;> rfl

/-! ### The packets at a local port -/

theorem filter_zipIdx_first {α : Type} {q : α → Bool} {a b : List α} {x : α} (ha : a.any q = false) (hx : q x = true) :
    ((a ++ x :: b).zipIdx.filter (fun y => q y.1))[0]? = some (x, a.length) := by
  have hnone : a.zipIdx.filter (fun y => q y.1) = [] := by
    rw [List.filter_eq_nil_iff]
    intro y hy
    exact List.any_eq_false.mp ha _ (List.fst_mem_of_mem_zipIdx hy)
  simp [List.zipIdx_append, List.filter_append, hnone, hx]

theorem exec_packetDelivery (hup : s.isUp = true) (hd : d ≤ 28) : exec (.packetDelivery d n bad) s = .next (s.deliverPkt d n bad) := by
  have heq : exec (.packetDelivery d n bad) s = execPacketDelivery d n bad s := rfl
  rw [heq, execPacketDelivery, upDo_up hup, if_pos hd]

/-- The first packet at a die's local port. -/
def State.headsPort (s : State) (d : Nat) (a : List (Nat × Nat × Packet)) (p : Packet) (b : List (Nat × Nat × Packet)) : Prop :=
  s.wires = a ++ (d, localPort d, p) :: b ∧ a.any (fun x => x.1 == d && x.2.1 == localPort d) = false

theorem first_at_port (h : s.headsPort d a p b) :
    (s.wires.zipIdx.filter (fun x => x.1.1 == d && x.1.2.1 == localPort d))[0]? = some ((d, localPort d, p), a.length) := by
  obtain ⟨hwires, hfirst⟩ := h
  rw [hwires]
  exact filter_zipIdx_first (q := fun x : Nat × Nat × Packet => x.1 == d && x.2.1 == localPort d) hfirst (by simp)

theorem eraseIdx_at_port (h : s.headsPort d a p b) : s.wires.eraseIdx a.length = a ++ b := by
  rw [h.1]
  simp [List.eraseIdx_append_of_length_le]

/-! ### The checks of R226 and R227 -/

/-- The sectors of a packet whose checks fail. -/
def failedSectors (p : Packet) (bad : List Bool) : List Nat :=
  (sectorFates p bad).zipIdx.filterMap (fun x => if x.1 = 2 then some ((maskSectors (pkMask p.header))[x.2]?.getD 0) else none)

theorem failedSectors_of_clean (h : (sectorFates p bad).contains 2 = false) : failedSectors p bad = [] := by
  rw [failedSectors, List.filterMap_eq_nil_iff]
  intro x hx
  have hfate : x.1 ≠ 2 := by
    rintro heq
    have hmem := List.fst_mem_of_mem_zipIdx hx
    rw [heq, ← List.contains_iff_mem, h] at hmem
    nomatch hmem
  exact if_neg hfate

theorem failedSectors_of_failed (h : (sectorFates p bad).contains 2 = true) : failedSectors p bad ≠ [] := by
  rw [List.contains_iff_mem, List.mem_iff_getElem] at h
  obtain ⟨i, hi, hfate⟩ := h
  rw [failedSectors, ne_eq, List.filterMap_eq_nil_iff]
  intro hnone
  have hmem : (2, i) ∈ (sectorFates p bad).zipIdx := by
    rw [List.mem_zipIdx_iff_getElem?, List.getElem?_eq_getElem hi, hfate]
  nomatch hnone _ hmem

/-- A response, whose transaction ends when it arrives (R245). -/
def isResponse (h : BitVec 128) : Bool := pkMClass h == 2 || (pkMClass h == 3 && pkOp h != opPush)

/-- The mark of a read that has been repeated. -/
def retryMark (h : BitVec 128) : Nat := 4096 * pkSrc h + pkTag h

/-- The state once a packet without a failed sector has been handed to its unit. -/
def State.handed (s : State) (d : Nat) (p : Packet) (bad : List Bool) (w : List (Nat × Nat × Packet)) : State :=
  State.withRouter { s with wires := w } d { s.router d with
    retries := (s.router d).retries.filter (fun x => x != retryMark p.header)
    inbox := (s.router d).inbox ++ [(p, (sectorFates p bad).map (fun x => x != 0))] }

theorem deliverPkt_clean (hd : d ≤ 28) (h : s.headsPort d a p b) (hclean : (sectorFates p bad).contains 2 = false) :
    s.deliverPkt d 0 bad = if isResponse p.header then (s.handed d p bad (a ++ b)).txnEnd d (pkDstPort p.header) (pkClass p.header) (pkPrio p.header)
      else (s.handed d p bad (a ++ b)).answerPacket d p.header := by
  unfold State.deliverPkt
  extract_lets +onlyGivenNames mine
  rw [show mine[0]? = some ((d, localPort d, p), a.length) from first_at_port h]
  dsimp -zeta only
  extract_lets +onlyGivenNames h' fates secs failed resp taken recorded tag
  have hfailed : failed = [] := failedSectors_of_clean hclean
  have htaken : taken = { s with wires := a ++ b } := by rw [← eraseIdx_at_port h]
  have hrecorded : recorded = { s with wires := a ++ b } := by
    rw [← htaken]
    simp only [recorded, hfailed, List.foldl_nil]
  rw [hrecorded, hfailed, if_neg (by simp), modRouter_eq hd]
  rfl

/-- A failed sector counted and reported. -/
def State.recordFailed (p : Packet) (d : Nat) (s : State) (k : Nat) : State :=
  ((s.modRouter d (fun r => { r with e2e := satAdd r.e2e 1 })).report 0x5101 0 d (pkDstPort p.header) 0 1 (pkAddr p.header - pkAddr p.header % 128 + 32 * k) 32
    (BitVec.ofNat 64 (pkSrc p.header))).event 0 0x5101 0 (BitVec.ofNat 64 (d + 256 * pkSrc p.header))

theorem keepsTraffic_recordFailed (p : Packet) (d : Nat) (s : State) (k : Nat) : s.keepsTraffic (s.recordFailed p d k) := by
  have hcount : s.keepsTraffic (s.modRouter d (fun r => { r with e2e := satAdd r.e2e 1 })) := keepsTraffic_modRouter (by exact fun _ => rfl) (by exact fun _ => rfl) s d
  unfold State.recordFailed
  exact keepsTraffic_trans (keepsTraffic_trans hcount (keepsTraffic_tells (tells_report ..))) (keepsTraffic_tells (tells_eventX ..))

/-- A read response with a failed sector is dropped, and its read goes out again once. -/
theorem deliverPkt_failed (hd : d ≤ 28) (h : s.headsPort d a p b) (hbad : (sectorFates p bad).contains 2 = true) (hresp : isResponse p.header = true)
    (hord : pkOrd p.header = false) (hnew : (s.router d).retries.contains (retryMark p.header) = false) :
    ((s.deliverPkt d 0 bad).router d).inbox = (s.router d).inbox ∧ (s.deliverPkt d 0 bad).wires = a ++ b ∧
      ((s.deliverPkt d 0 bad).router d).retries = (s.router d).retries ++ [retryMark p.header] := by
  unfold State.deliverPkt
  extract_lets +onlyGivenNames mine
  rw [show mine[0]? = some ((d, localPort d, p), a.length) from first_at_port h]
  dsimp -zeta only
  extract_lets +onlyGivenNames h' fates secs failed resp taken recorded tag
  have hrecorded : State.keepsTraffic { s with wires := a ++ b } recorded := by
    have htaken : taken = { s with wires := a ++ b } := by rw [← eraseIdx_at_port h]
    rw [← htaken]
    exact keepsTraffic_foldl (f := State.recordFailed p d) (keepsTraffic_recordFailed p d) failed taken
  obtain ⟨hwires, hrouter⟩ := hrecorded
  obtain ⟨hinbox, hretries⟩ := hrouter d
  have hagain : (!failed.isEmpty) = true ∧ resp = true ∧ (!pkOrd h') = true ∧ (!(recorded.router d).retries.contains tag) = true := by
    have hsome : failed.isEmpty = false := List.isEmpty_eq_false_iff.mpr (failedSectors_of_failed hbad)
    refine ⟨by rw [hsome]; rfl, hresp, by rw [hord]; rfl, ?_⟩
    rw [hretries]
    exact congrArg (!·) hnew
  rw [if_pos hagain]
  obtain ⟨hwires', hrouter'⟩ := keepsTraffic_inject (recorded.modRouter d (fun r => { r with retries := r.retries ++ [tag] })) d
    { header := mkHeader (pkSrc h') (pkSrcPort h') d (pkDstPort h') (pkCmpt h') (pkClass h') 0 (pkPrio h') opRdNc (pkTag h') (pkAddr h') (pkMask h') false false }
  obtain ⟨hinbox', hretries'⟩ := hrouter' d
  refine ⟨hinbox'.trans ?_, hwires'.trans ((modRouter_wires ..).trans hwires), hretries'.trans ?_⟩
  · rw [router_modRouter hd]
    exact hinbox
  · rw [router_modRouter hd]
    exact congrArg (· ++ [tag]) hretries

/-! ### SWITCH (R232) -/

theorem exec_switch (hup : s.isUp = true) (hd : d ≤ 28) (n : Nat) : exec (.switch d n) s = .next (if n = 0 ∨ s.detours.has n = true then s.withRouter d { s.router d with set := n } else s) := by
  have heq : exec (.switch d n) s = execSwitch d n s := rfl
  rw [heq, execSwitch, upDo_up hup, modRouter_eq hd]

end Sys2Proof.Machine
end

section
/-! PROOFS. O33: routers, die-to-die links and regulators (R224 to R229, R232, R235, R236, R239, R245, R247, R249, R250). -/

namespace Sys2Proof.Machine

/-- Settles O33: a router's packet, a link's attempt and a regulator's transaction each change their own unit (log 49 for the packet of an issue), with the packets' order and layouts of log 48; a link's new state is kept by the detour, the packets sent again and the records that follow it. -/
theorem routersLinksAndRegulators : Obligations.RoutersLinksAndRegulators := by
  unfold Obligations.RoutersLinksAndRegulators
  refine ⟨fun s d p hup hd => ⟨?arrival, ?output, ?age, fun h a e => pkSet_fields h a e, ?delivery, ?install⟩,
    fun s d l hup hl => ⟨?counted, ?met, exec_crcWindow hup hl, exec_linkResetExit_down hup hl, exec_linkResetExit_carrying hup hl, ?full, ?narrow, ?retry,
      ?beyond, ?retrain, fun f v => exec_mshLinkRetrain_vf hup f v, ?quarantined, ?cleared, fun n k h => wires_quarantine s h⟩,
    fun s d m hup hd hm => ⟨?issue, fun y rt c x rest hq hout hbud hkind => mayIssue_floor hq hout hbud hkind, fun y rt c h => mayIssue_none h, ?busy,
      ?response, ?window, ?noWindow⟩⟩
  case arrival =>
    intro n port hw hport hfirst
    have hhead : s.headsLink n d port p := ⟨hw, hport, hfirst⟩
    refine ⟨fun hc f => exec_routerArrival_quiet hup (routerArrival_outOfService hhead hc), fun hc => ⟨fun f hf hr => ⟨fun hroom => ?_, fun hroom => ?_⟩, fun hr => ?_, fun f hf => ?_⟩⟩
    · exact exec_routerArrival_quiet hup (routerArrival_joins hhead hc hd hf hr hroom)
    · exact exec_routerArrival_quiet hup (routerArrival_full hhead hc hd hf hr hroom)
    · exact exec_routerArrival_source hup (by decide) (routerArrival_unrouted hhead hc hd hr)
    · exact exec_routerArrival_double hup hf (routerArrival_double hhead hc hf)
  case output =>
    intro out hout
    refine ⟨fun hnone => by rw [exec_outputArbitration hup hd hout, arbitrate_none hnone], fun key r hbest => ⟨bestOf_least goesFirst_asymm goesFirst_split hbest,
      fun hlocal hdst hkey => ?_, fun hlocal hkey hwant n l hfar => ⟨_, exec_outputArbitration hup hd hout, ?_⟩⟩⟩
    · rw [exec_outputArbitration hup hd hout, arbitrate_local hd hbest hlocal hdst hkey]
      rfl
    · exact leaves_over_link hd s out key n l { p with wait := 0 } (arbitrate_link hd hbest hlocal hkey hwant hfar).symm
  case age =>
    intro v a b hv
    refine ⟨_, exec_ageTick hup hd hv, ?_, fun w hw => ?_, rfl⟩
    · rw [router_withRouter]
      exact Tab.look_put_same ..
    · rw [router_withRouter]
      exact Tab.look_put_ne _ hw ..
  case delivery =>
    intro a b bad hwires hfirst
    have hhead : s.headsPort d a p b := ⟨hwires, hfirst⟩
    refine ⟨fun hclean hclass => ?_, fun hclean hclass => ?_, fun hbad hclass hord hnew => ⟨_, exec_packetDelivery hup hd, ?_⟩⟩
    · rw [exec_packetDelivery hup hd, deliverPkt_clean hd hhead hclean, if_pos (by simp [isResponse, hclass])]
      rfl
    · rw [exec_packetDelivery hup hd, deliverPkt_clean hd hhead hclean, if_neg (by simp [isResponse, hclass])]
      rfl
    · exact deliverPkt_failed hd hhead hbad (by simp [isResponse, hclass]) hord hnew
  case install =>
    intro n
    exact ⟨fun hset => by rw [exec_switch hup hd, if_pos hset], fun hbase hnone => by rw [exec_switch hup hd, if_neg (by simp [hbase, hnone])]⟩
  case counted =>
    intro h
    rw [exec_flitCrcFail hup hl, if_neg]
    · rfl
    · rintro ⟨hset, hmet, hst⟩
      rcases h with h | h | ⟨h1, h2⟩
      · exact hset h
      · omega
      · exact hst.elim h1 h2
  case met =>
    intro hset hmet hst
    rw [exec_flitCrcFail hup hl, if_pos ⟨by omega, hmet, hst⟩]
    rfl
  case full =>
    intro hst hleast r hr hcap
    have hroute := reroutes_trainedUp s d l r
    have hlink := link_of_router (router_trainedUp (linkAt_die hl) s l r)
    have htrain := trainEnd_full (linkAt_die hl) hst hleast hr hcap
    by_cases hback : (s.router d).set ≠ 0 ∧ (s.router d).set = s.setFor (linkElem d l)
    · rw [if_pos hback] at htrain
      obtain ⟨hlinks, _, hflt⟩ := switchBack_keepsLinks (s.trainedUp d l r) (linkElem d l)
      refine ⟨_, exec_linkTrainingEnd_unfenced hup hl htrain (by rw [hflt, reroutes_flt hroute]), ?_⟩
      dsimp only
      rw [hlinks, hlink, outElems_switchBack]
      refine ⟨rfl, rfl, rfl, rfl, fun hkeep => hkeep.elim (absurd · hback.1) (absurd hback.2), fun _ _ hnone => ?_⟩
      rw [switchBack_base hnone, hroute]
      rfl
    · rw [if_neg hback] at htrain
      refine ⟨_, exec_linkTrainingEnd_unfenced hup hl htrain (by rw [reroutes_flt hroute]), ?_⟩
      dsimp only
      rw [hlink]
      exact ⟨rfl, rfl, rfl, rfl, fun _ => hroute, fun hset hfor => absurd ⟨hset, hfor⟩ hback⟩
  case narrow =>
    intro hst hdies hnone a r ha hleast hr
    have hst' : ((s.offersNoted d l a a).link d l).st = .training := by rw [link_offersNoted (linkAt_die hl), hst]
    exact exec_linkTrainingEnd_fenced hup hl (by rw [trainEnd_agreed hst ha hr, if_pos hleast]) (by rw [hst']; nofun) hdies (by rw [reroutes_flt (reroutes_offersNoted ..), hnone])
  case retry =>
    intro hst a b r ha hb hr hoff
    have hst' : ((s.offersNoted d l a b).link d l).st = .quarantined := by rw [link_offersNoted (linkAt_die hl), hst]
    refine ⟨fun hfirst => ?_, fun hthird hrate hdies hnone => ?_⟩
    · have hroute : s.reroutes ((s.offersNoted d l a b).modLinks d l (fun k => { k with retry := k.retry + 1 })) := reroutes_trans (reroutes_offersNoted ..) (reroutes_modLinks ..)
      have htrain := (trainEnd_disagreed hst ha hb hr hl hoff (.inl hfirst)).trans (if_pos hfirst)
      refine ⟨_, exec_linkTrainingEnd_unfenced hup hl htrain (by rw [reroutes_flt hroute]), ?_, ?_, hroute⟩
      · rw [link_modLinks (linkAt_die hl)]
        exact hst'
      · rw [link_modLinks (linkAt_die hl), link_offersNoted (linkAt_die hl)]
    · exact exec_linkTrainingEnd_fenced hup hl ((trainEnd_disagreed hst ha hb hr hl hoff (.inr hrate)).trans (if_neg (by omega))) (by rw [hst']; nofun) hdies
        (by rw [reroutes_flt (reroutes_offersNoted ..), hnone])
  case beyond =>
    intro a b lanes r h
    exact exec_linkTrainingEnd_unfenced hup hl (trainEnd_beyond h lanes) rfl
  case retrain =>
    intro q v hq hv
    exact ⟨fun hst => by rw [exec_mshLinkRetrain hup hl hq hv, if_pos hst], fun hst hst' => by rw [exec_mshLinkRetrain hup hl hq hv, if_neg (by simp [hst, hst'])]⟩
  case quarantined => rw [link_quarantine (linkAt_die hl)]
  case cleared => rw [link_quarantine (linkAt_die hl)]
  case issue =>
    intro cls c x rest hcls hq hmay hroom
    rw [exec_regulatorIssue hup, regIssue_only hd hm rfl hcls hq hmay hroom]
    rfl
  case busy =>
    intro hfull hurg
    rw [exec_regulatorIssue hup, regIssue_full hfull hurg]
  case response =>
    intro port cls prio c hport hc hout
    subst hc
    exact txnEnd_single hd hm hport hout
  case window =>
    intro hhas
    refine ⟨_, (exec_regulatorWindow hup).trans (by rw [if_pos hhas, modMaster_eq hd hm]), ?_, ?_, rfl⟩
    · rw [master_withMaster]
      exact renewed_full
    · rw [master_withMaster]
      exact renewed_settings _
  case noWindow =>
    intro hhas
    rw [exec_regulatorWindow hup, if_neg (by simp [hhas])]

end Sys2Proof.Machine
end

section
/-! PROOFS. What settling and wiping memory, events and the start of a fallow leave alone: the bed plan's registers and the states of the compartments (R205, R275, R283). -/

namespace Sys2Proof

/-- A fold whose steps keep what `p` reads keeps it. -/
theorem foldl_keeps {α β γ : Type} (p : α → γ) {f : α → β → α} (hf : ∀ a b, p (f a b) = p a) (l : List β) (a : α) : p (l.foldl f a) = p a :=
  List.foldlRecOn (motive := fun b => p b = p a) l f rfl (fun _ hb x _ => (hf _ x).trans hb)

/-- Of two values that `p` reads alike, either. -/
theorem ite_keeps {α γ : Type} (p : α → γ) {c : Prop} [Decidable c] {a b : α} {x : γ} (ha : p a = x) (hb : p b = x) : p (if c then a else b) = x := by
  split
  · exact ha
  · exact hb

namespace Machine

variable {s t : State} {c k : Nat}

/-! ### The plan's registers -/

/-- The bed plan's registers and the load in progress (Table 12.9). A definition of its own: two states' values are compared by comparing the states, where a projection would evaluate them. -/
def State.planRegs (s : State) : Bed := s.bed

theorem planRegs_eq (s : State) : s.planRegs = s.bed := rfl

theorem modStack_planRegs (s : State) (l : Nat) (f : Stack → Stack) : (s.modStack l f).planRegs = s.planRegs := modStack_bed ..

theorem modTile_planRegs (s : State) (d : Nat) (f : Tile → Tile) : (s.modTile d f).planRegs = s.planRegs := modTile_bed ..

theorem modCore_planRegs (s : State) (d i : Nat) (f : Core → Core) : (s.modCore d i f).planRegs = s.planRegs := modCore_bed ..

theorem modCmpt_planRegs (s : State) (c : Nat) (f : Cmpt → Cmpt) : (s.modCmpt c f).planRegs = s.planRegs := modCmpt_bed ..

theorem poisonSec_planRegs (s : State) (n : Nat) : (s.poisonSec n).planRegs = s.planRegs := poisonSec_bed ..

/-! ### Events -/

theorem tells_planRegs (h : s.tells t) : t.planRegs = s.planRegs := by
  obtain ⟨_, _, _, _, rfl⟩ := h
  rfl

theorem tells_conf (h : s.tells t) : t.conf = s.conf := by
  obtain ⟨_, _, _, _, rfl⟩ := h
  rfl

theorem event_planRegs (s : State) (fn code src : Nat) (detail : BitVec 64) : (s.event fn code src detail).planRegs = s.planRegs := tells_planRegs (tells_eventX ..)

/-- What an update of one compartment keeps of it, it keeps of all. -/
theorem modCmpt_keeps {γ : Type} (p : Cmpt → γ) {f : Cmpt → Cmpt} (hf : ∀ m, p (f m) = p m) (s : State) (c k : Nat) : p ((s.modCmpt c f).cmpt k) = p (s.cmpt k) := by
  rw [cmpt_modCmpt]
  exact ite_keeps p (hf _) rfl

/-- A compartment's state and the BAR0 writes held for it (R283, R354). -/
def Cmpt.standing (m : Cmpt) : CState × List (Nat × BitVec 64) := (m.state, m.heldWr)

theorem standing_raise (s : State) (fn v k : Nat) : ((s.raise fn v).cmpt k).standing = (s.cmpt k).standing := by
  unfold State.raise
  dsimp only
  split
  · rfl
  · split
    · exact modCmpt_keeps Cmpt.standing (by exact fun _ => rfl) s fn k
    · rfl

theorem standing_eventX (s : State) (fn code src : Nat) (detail : BitVec 64) (extra k : Nat) : ((s.eventX fn code src detail extra).cmpt k).standing = (s.cmpt k).standing := by
  unfold State.eventX
  dsimp only
  split
  · rfl
  · split
    · exact modCmpt_keeps Cmpt.standing (by exact fun _ => rfl) s fn k
    · split
      · exact (standing_raise ..).trans (modCmpt_keeps Cmpt.standing (by exact fun _ => rfl) _ fn k)
      · exact modCmpt_keeps Cmpt.standing (by exact fun _ => rfl) _ fn k

theorem standing_event (s : State) (fn code src : Nat) (detail : BitVec 64) (k : Nat) : ((s.event fn code src detail).cmpt k).standing = (s.cmpt k).standing := standing_eventX ..

theorem cstate_of_standing (h : (t.cmpt k).standing = (s.cmpt k).standing) : t.cstate k = s.cstate k := by
  rw [State.cstate, State.cstate, show (t.cmpt k).state = (s.cmpt k).state from congrArg Prod.fst h]

/-! ### Memory settled and wiped (R205, R427) -/

theorem ssuSec_planRegs (s : State) (c a : Nat) (l : List Byte) : (s.ssuSec c a l).planRegs = s.planRegs := by
  have hwr : (s.wrSec a l).planRegs = s.planRegs := by
    obtain ⟨m, p, hw⟩ := wrSec_only_memory s a l
    rw [hw]
    rfl
  unfold State.ssuSec
  dsimp only
  split
  · exact hwr
  · split
    · exact hwr
    · rw [modStack_planRegs]
      exact ite_keeps State.planRegs hwr ((modStack_planRegs ..).trans hwr)

theorem ssuGo_planRegs (fuel : Nat) (s : State) (c a : Nat) (l : List Byte) : (State.ssuGo fuel s c a l).planRegs = s.planRegs := by
  induction fuel generalizing s a l with
  | zero => rfl
  | succ fuel ih =>
    unfold State.ssuGo
    exact ite_keeps State.planRegs rfl ((ih ..).trans (ssuSec_planRegs ..))

theorem ssuPoison_planRegs (s : State) (c sec : Nat) : (s.ssuPoison c sec).planRegs = s.planRegs := by
  have hsec : ((s.ssuSec c (32 * sec) (List.replicate 32 0)).poisonSec sec).planRegs = s.planRegs := (poisonSec_planRegs ..).trans (ssuSec_planRegs ..)
  unfold State.ssuPoison
  dsimp only
  refine ite_keeps State.planRegs (ite_keeps State.planRegs hsec (ite_keeps State.planRegs ?_ ?_)) hsec
  · exact (modStack_planRegs ..).trans hsec
  · exact (tells_planRegs (tells_replaceCause ..)).trans hsec

theorem homeWrite_planRegs (s : State) (c ln : Nat) (m : BitVec 4) (d : BitVec 1024) (p : BitVec 4) : (s.homeWrite c ln m d p).planRegs = s.planRegs :=
  foldl_keeps State.planRegs (fun _ _ => ite_keeps State.planRegs (ite_keeps State.planRegs (ssuPoison_planRegs ..) (ssuGo_planRegs ..)) rfl) _ s

theorem setLine_planRegs (s : State) (die u ln : Nat) (l : CacheLine) : (s.setLine die u ln l).planRegs = s.planRegs :=
  ite_keeps State.planRegs (ite_keeps State.planRegs rfl rfl) (ite_keeps State.planRegs rfl (ite_keeps State.planRegs (modTile_planRegs ..) (modTile_planRegs ..)))

theorem dieDowngrade_planRegs (s : State) (die ln : Nat) (inv : Bool) : (s.dieDowngrade die ln inv).planRegs = s.planRegs :=
  foldl_keeps State.planRegs (fun _ _ => ite_keeps State.planRegs rfl (ite_keeps State.planRegs (setLine_planRegs ..) (setLine_planRegs ..))) _ s

theorem setDir_planRegs (s : State) (h ln : Nat) (e : DirEnt) : (s.setDir h ln e).planRegs = s.planRegs :=
  ite_keeps State.planRegs rfl (modStack_planRegs ..)

theorem giveUp_planRegs (s : State) (die ln : Nat) (inv : Bool) : (s.giveUp die ln inv).planRegs = s.planRegs := (dieDowngrade_planRegs ..).trans (homeWrite_planRegs ..)

theorem settleHome_planRegs (s : State) (a n : Nat) (inv : Bool) (h : Nat) : (s.settleHome a n inv h).planRegs = s.planRegs :=
  foldl_keeps State.planRegs (fun _ _ => ite_keeps State.planRegs (ite_keeps State.planRegs (setDir_planRegs ..) (ite_keeps State.planRegs rfl (setDir_planRegs ..))) rfl) _ s

/-- Settling gives messages' data up, then each die's lines, then each home's entries. -/
theorem settle_planRegs (s : State) (a n : Nat) (inv : Bool) : (s.settle a n inv).planRegs = s.planRegs := by
  unfold State.settle
  extract_lets gives s₁ s₂ dies s₃ homes
  have h₂ : s₂.planRegs = s.planRegs := foldl_keeps State.planRegs (fun _ _ => ite_keeps State.planRegs (homeWrite_planRegs ..) rfl) _ s
  have h₃ : s₃.planRegs = s₂.planRegs := foldl_keeps State.planRegs (fun t d => foldl_keeps State.planRegs (fun u ln => giveUp_planRegs u d ln inv) _ t) _ s₂
  refine (foldl_keeps State.planRegs (fun t h => ?_) _ s₃).trans (h₃.trans h₂)
  exact settleHome_planRegs t a n inv h

theorem wipeRange_planRegs (s : State) (a n : Nat) : (s.wipeRange a n).planRegs = s.planRegs := by
  have hsettle := settle_planRegs s a n true
  exact ite_keeps State.planRegs ((modStack_planRegs ..).trans hsettle) hsettle

theorem coreReset_planRegs (s : State) (d i : Nat) : (s.coreReset d i).planRegs = s.planRegs := modCore_planRegs ..

/-- Counters, marks, posts, snapshots and site windows are no registers of the plan. -/
theorem clearWins_planRegs (s : State) (cnt : Tab (BitVec 16)) (m : List MarkEnt) (p : List PostMsg) (n : Tab Snap) (c : Nat) :
    (State.clearWins { s with dispCnt := cnt, marks := m, posts := p, snaps := n } c).planRegs = s.planRegs := rfl

theorem emptyCmpt_planRegs (s : State) (c : Nat) : (s.emptyCmpt c).planRegs = s.planRegs := by
  unfold State.emptyCmpt
  extract_lets cores s₁ s₂ s₃
  have h₁ : s₁.planRegs = s.planRegs := foldl_keeps State.planRegs (fun _ _ => coreReset_planRegs ..) _ s
  have h₂ : s₂.planRegs = s₁.planRegs := by
    refine foldl_keeps State.planRegs (fun _ _ => ?_) _ s₁
    exact modStack_planRegs ..
  rw [modCmpt_planRegs]
  exact (clearWins_planRegs s₂ ..).trans (h₂.trans h₁)

/-! ### The start of a fallow (R283) -/

/-- Cancelling work changes no compartment but its own, and of that not its state. -/
theorem cancel_keeps (s : State) (c : Nat) : (s.cancel c).planRegs = s.planRegs ∧ ∀ k, ((s.cancel c).cmpt k).state = (s.cmpt k).state := by
  unfold State.cancel
  extract_lets s₁ s₂ gone s₃ s₄
  have hcore {γ : Type} (p : State → γ) (hp : ∀ (t : State) d i f, p (t.modCore d i f) = p t) : p s₁ = p s := by
    refine foldl_keeps p (fun t r => ?_) _ s
    split
    · exact hp ..
    · rfl
  have hstack {γ : Type} (p : State → γ) (hp : ∀ (t : State) l f, p (t.modStack l f) = p t) : p s₂ = p s₁ := foldl_keeps p (fun _ _ => hp ..) _ s₁
  have hbed : s₂.planRegs = s.planRegs := (hstack _ modStack_planRegs).trans (hcore _ modCore_planRegs)
  have hcmpts : s₂.cmpts = s.cmpts := (hstack _ modStack_cmpts).trans (hcore _ modCore_cmpts)
  clear_value s₂
  refine ⟨by rw [modCmpt_planRegs]; exact hbed, fun k => ?_⟩
  rw [modCmpt_keeps Cmpt.state (by exact fun _ => rfl), State.cmpt, State.cmpt, ← hcmpts]

theorem fallowStart_of_not_ready (h : s.cstate c ≠ .ready) (cause : Nat) : s.fallowStart c cause = s := by
  unfold State.fallowStart
  split
  · rfl
  · split
    · exact absurd ‹_› h
    · rfl

/-- The start of a fallow keeps the plan's registers and every other compartment's state; its own compartment is then FALLOW. -/
theorem fallowStart_of_ready (hc : 1 ≤ c) (hlt : c < 64) (h : s.cstate c = .ready) (cause : Nat) :
    (s.fallowStart c cause).planRegs = s.planRegs ∧ ∀ k, (s.fallowStart c cause).cstate k = if k = c then .fallow else s.cstate k := by
  unfold State.fallowStart
  rw [if_neg (by omega), h]
  extract_lets tdi s₁ s₂
  have htold (γ : Type) (p : State → γ) (hp : ∀ fn code src detail, p (s₁.event fn code src detail) = p s₁) : p s₂ = p s₁ := ite_keeps p (hp ..) rfl
  have hcancel (x : List Unmap) : (State.cancel { s₂ with unmaps := x } c).planRegs = s₂.planRegs ∧ ∀ k, ((State.cancel { s₂ with unmaps := x } c).cmpt k).state = (s₂.cmpt k).state :=
    cancel_keeps { s₂ with unmaps := x } c
  generalize hu : State.cancel _ c = u
  obtain ⟨hbed, hstate⟩ := hu ▸ hcancel _
  refine ⟨hbed.trans ((htold _ State.planRegs (event_planRegs s₁)).trans (modCmpt_planRegs ..)), fun k => ?_⟩
  have hk : (u.cmpt k).state = if k = c then .fallow else (s.cmpt k).state := by
    rw [hstate, show (s₂.cmpt k).state = (s₁.cmpt k).state from
      htold _ (fun t => (t.cmpt k).state) (fun fn code src detail => congrArg Prod.fst (standing_event s₁ fn code src detail k)), cmpt_modCmpt]
    by_cases hkc : k = c
    · rw [if_pos ⟨hkc, hlt⟩, if_pos hkc]
    · rw [if_neg (fun h => hkc h.1), if_neg hkc]
  simp only [State.cstate, hk]
  by_cases hk0 : k = 0
  · rw [if_pos hk0, if_neg (by omega), if_pos hk0]
  · rw [if_neg hk0, if_neg hk0]

theorem fallowStart_planRegs (hc : 1 ≤ c) (hlt : c < 64) (cause : Nat) : (s.fallowStart c cause).planRegs = s.planRegs := by
  by_cases h : s.cstate c = .ready
  · exact (fallowStart_of_ready hc hlt h cause).1
  · rw [fallowStart_of_not_ready h]

theorem cstate_fallowStart (hc : 1 ≤ c) (hlt : c < 64) (cause : Nat) : (s.fallowStart c cause).cstate c ≠ .ready := by
  by_cases h : s.cstate c = .ready
  · rw [(fallowStart_of_ready hc hlt h cause).2, if_pos rfl]
    nofun
  · rwa [fallowStart_of_not_ready h]

theorem cstate_fallowStart_ne_ready (hc : 1 ≤ c) (hlt : c < 64) (cause : Nat) (hk : s.cstate k ≠ .ready) : (s.fallowStart c cause).cstate k ≠ .ready := by
  by_cases h : s.cstate c = .ready
  · rw [(fallowStart_of_ready hc hlt h cause).2]
    split
    · nofun
    · exact hk
  · rwa [fallowStart_of_not_ready h]

theorem mem_compartments : c ∈ (List.range 64).drop 1 ↔ 1 ≤ c ∧ c < 64 := by
  rw [show (List.range 64).drop 1 = List.range' 1 63 from rfl, List.mem_range'_1]

/-- Every compartment put fallow: none is left READY, and the plan's registers are as they were. -/
theorem fallowEvery_keeps (s : State) (cause : Nat) :
    (((List.range 64).drop 1).foldl (fun t c => t.fallowStart c cause) s).planRegs = s.planRegs ∧
      ∀ k, 1 ≤ k → k < 64 → (((List.range 64).drop 1).foldl (fun t c => t.fallowStart c cause) s).cstate k ≠ .ready := by
  refine ⟨List.foldlRecOn (motive := fun t : State => t.planRegs = s.planRegs) _ _ rfl (fun t ht c hc => ?_), fun k hk hlt => ?_⟩
  · obtain ⟨hlo, hhi⟩ := mem_compartments.mp hc
    exact (fallowStart_planRegs hlo hhi cause).trans ht
  · refine foldl_reaches (P := fun _ : State => True) (Q := fun t : State => t.cstate k ≠ .ready) (mem_compartments.mpr ⟨hk, hlt⟩) (fun _ _ _ _ => .inl trivial) ?_
      (fun t _ => cstate_fallowStart hk hlt cause) (.inl trivial)
    intro t c hc ht
    obtain ⟨hlo, hhi⟩ := mem_compartments.mp hc
    exact cstate_fallowStart_ne_ready hlo hhi cause ht

end Machine
end Sys2Proof
end

section
/-! PROOFS. O30: a bed plan's load, the check's outcome and the epoch of an amendment (R268, R270, R274, R275, R276). -/

namespace Sys2Proof.Machine

variable {s t : State} {j : LoadJob} {d : Nat}

/-! ### What a unit's new values leave alone (R276 step 4) -/

/-- The plan's registers and memory. -/
def State.bedMem (s : State) : Bed × List Host.Cell := (s.bed, s.mem)

theorem planRegs_of_bedMem (h : t.bedMem = s.bedMem) : t.planRegs = s.planRegs := congrArg Prod.fst h

theorem mem_of_bedMem (h : t.bedMem = s.bedMem) : t.mem = s.mem := congrArg Prod.snd h

theorem modCmpt_bedMem (s : State) (c : Nat) (f : Cmpt → Cmpt) : (s.modCmpt c f).bedMem = s.bedMem := congrArg₂ Prod.mk (modCmpt_bed ..) (modCmpt_mem ..)

theorem modStack_bedMem (s : State) (l : Nat) (f : Stack → Stack) : (s.modStack l f).bedMem = s.bedMem := congrArg₂ Prod.mk (modStack_bed ..) (modStack_mem ..)

theorem modMem_bedMem (s : State) (e : Nat) (f : MemCtl → MemCtl) : (s.modMem e f).bedMem = s.bedMem := congrArg₂ Prod.mk (modMem_bed ..) (modMem_mem ..)

theorem modMaster_bedMem (s : State) (e m : Nat) (f : Master → Master) : (s.modMaster e m f).bedMem = s.bedMem := ite_keeps State.bedMem rfl rfl

theorem installCmpt_bedMem (s : State) (p : List PlanRec) (only : Option (List Nat)) (c : Nat) : (s.installCmpt p only c).bedMem = s.bedMem := by
  unfold State.installCmpt
  refine ite_keeps State.bedMem rfl ?_
  dsimp only
  rw [modCmpt_bedMem]
  exact ite_keeps State.bedMem rfl rfl

theorem installQos_bedMem (s : State) (p : List PlanRec) (die : Nat) (now : Bool) : (s.installQos p die now).bedMem = s.bedMem := by
  unfold State.installQos
  extract_lets u
  have hu : u.bedMem = s.bedMem := ite_keeps State.bedMem rfl (modMem_bedMem ..)
  refine (foldl_keeps State.bedMem (fun _ _ => ?_) _ u).trans hu
  exact modMaster_bedMem ..

theorem installDeadlines_bedMem (s : State) (p : List PlanRec) (die : Nat) : (s.installDeadlines p die).bedMem = s.bedMem := by
  refine foldl_keeps State.bedMem (fun _ _ => ?_) _ _
  rfl

theorem installAllot_bedMem (s : State) (p : List PlanRec) (die : Nat) : (s.installAllot p die).bedMem = s.bedMem := by
  unfold State.installAllot
  refine foldl_keeps State.bedMem (fun _ _ => ?_) _ s
  refine ite_keeps State.bedMem rfl ?_
  exact modStack_bedMem ..

/-- The registers of a die that a plan's CLASS, MASTER, DEADLINE and SSU_ALLOT values set. -/
theorem installDie_bedMem (s : State) (p : List PlanRec) (die : Nat) (now : Bool) :
    (((s.installQos p die now).installDeadlines p die).installAllot p die).bedMem = s.bedMem :=
  (installAllot_bedMem ..).trans ((installDeadlines_bedMem ..).trans (installQos_bedMem ..))

theorem emptyNew_planRegs (s : State) (cs : List Nat) : (s.emptyNew cs).planRegs = s.planRegs := by
  refine foldl_keeps State.planRegs (fun t c => ite_keeps State.planRegs rfl ?_) cs s
  rw [emptyCmpt_planRegs]
  refine foldl_keeps State.planRegs (fun _ _ => ?_) _ t
  exact wipeRange_planRegs ..

/-- The affected compartments' records and segments at the hub. -/
theorem installAffected_bedMem (s : State) (p : List PlanRec) (only : Option (List Nat)) (cs : List Nat) :
    (cs.foldl (fun t c => t.installCmpt p only c) (s.installClasses p)).bedMem = s.bedMem :=
  foldl_keeps State.bedMem (fun _ _ => installCmpt_bedMem ..) cs (s.installClasses p)

theorem epochInstall_planRegs (s : State) (p : List PlanRec) (j : LoadJob) (die : Nat) : (s.epochInstall p j die).planRegs = s.planRegs := by
  unfold State.epochInstall
  refine (planRegs_of_bedMem (installDie_bedMem ..)).trans (ite_keeps State.planRegs ?_ rfl)
  exact (emptyNew_planRegs ..).trans (planRegs_of_bedMem (installAffected_bedMem ..))

/-- Only a compartment that was undefined has its stores wiped (Table 13.2). -/
theorem epochInstall_mem {die : Nat} (h : die = 0 → ∀ c ∈ j.affected, (s.cmpt c).plan.isSome = true) (p : List PlanRec) : (s.epochInstall p j die).mem = s.mem := by
  unfold State.epochInstall
  refine (mem_of_bedMem (installDie_bedMem ..)).trans ?_
  split
  next hdie =>
    have hfresh : j.affected.filter (fun c => (s.cmpt c).plan.isNone) = [] :=
      List.filter_eq_nil_iff.mpr (fun c hc => by rw [Option.isNone_eq_false_iff.mpr (h hdie c hc)]; exact Bool.false_ne_true)
    dsimp only
    rw [hfresh]
    exact mem_of_bedMem (installAffected_bedMem ..)
  next => rfl

/-! ### Refusals and the end of a load (R270, R274, R354) -/

theorem bedRefuse_pf (h : j.mgmt = false) (s : State) (e : PlanErr) :
    s.bedRefuse e j = State.event { s with bed := { s.bed with code := BitVec.ofNat 16 e.code, stepNo := e.step, detail := BitVec.ofNat 64 e.detail } } 0 e.code 0 (BitVec.ofNat 64 e.detail) := by
  rw [State.bedRefuse, h]
  rfl

theorem releaseWrites_none {c : Nat} (h : (s.cmpt c).heldWr = []) : s.releaseWrites c = s := by
  unfold State.releaseWrites
  rw [h]

/-- With no message and no write held, the end of a load releases nothing. -/
theorem releaseHeld_none (hheld : s.conf.held = []) (hwr : ∀ c, (s.cmpt c).heldWr = []) : s.releaseHeld = { s with conf := { s.conf with held := [] } } := by
  unfold State.releaseHeld
  rw [hheld, List.foldl_nil]
  exact foldl_eq_self (fun c _ => releaseWrites_none (hwr c))

theorem loadEnds_bed (hheld : s.conf.held = []) (hwr : ∀ c, (s.cmpt c).heldWr = []) (j : LoadJob) (answer : Bool) : (s.loadEnds j answer).bed = { s.bed with job := none } := by
  unfold State.loadEnds
  dsimp only
  split
  · rw [releaseHeld_none (by exact hheld) (by exact hwr)]
    rfl
  · rw [releaseHeld_none (by exact hheld) (by exact hwr)]

/-! ### Loading (R268, R270) -/

section

variable (hup : s.isUp = true)
include hup

theorem exec_bedLoadCmd_go {p : Port} {v : BitVec 64} (hp : p = .pf ∨ p = .mgmt) (hgo : v.getLsbD 63 = true) :
    exec (.bedLoadCmd p v) s = .next (s.bedStart { image := if 4194304 < bits v 22 0 then [] else tabBytes (bits v 22 0) 0 s.bed.staged, persist := bit v 62 }) := by
  have heq : exec (.bedLoadCmd p v) s = execBedLoadCmd p v s := rfl
  have hport : (p != .pf && p != .mgmt) = false := by rcases hp with rfl | rfl <;> rfl
  rw [heq, execBedLoadCmd, upDo_up hup, hport, if_neg Bool.false_ne_true, bit, hgo, Bool.not_true, if_neg Bool.false_ne_true]

theorem exec_bedLoad_bound {m : MgmtSession} (hm : s.auth.sessions.find? (fun x => x.id == m.id) = some m) (hb : m.clientBound = true) (hnone : s.bed.job = none) (persist : Bool)
    (image : List Byte) :
    exec (.bedLoad m.id persist image) s = .next (State.bedStart { s with bed := { s.bed with staged := (image.take 4194304).zipIdx.map (fun x => (x.2, x.1)) } }
      { image := image, persist := persist, mgmt := true, session := m.id }) := by
  have heq : exec (.bedLoad m.id persist image) s = execBedLoad m.id persist image s := rfl
  simp only [heq, execBedLoad, upDo_up hup, State.mgmtDo, hm, hb, if_true, hnone, Option.isSome_none, Bool.false_eq_true, if_false]

/-! ### The end of the check (R270, R274) -/

variable (hjob : s.bed.job = some j)
include hjob

theorem exec_bedCheckComplete_refused {e : PlanErr} (hst : j.stage = .checking) (hcheck : s.planCheck j.image false j.persist = .error e) :
    exec .bedCheckComplete s = .next (State.bedRefuse { s with bed := { s.bed with job := none } } e j).releaseHeld := by
  have heq : exec .bedCheckComplete s = execBedCheckComplete s := rfl
  simp only [heq, execBedCheckComplete, upDo_up hup, hjob, hst, bne_self_eq_false, Bool.false_eq_true, if_false, hcheck]

theorem exec_bedCheckComplete_full {p r : List PlanRec} (hst : j.stage = .checking) (hcheck : s.planCheck j.image false j.persist = .ok (p, r)) (hkind : imgKind j.image = 0) :
    exec .bedCheckComplete s = .next (((List.range 64).drop 1).foldl (fun t c => t.fallowStart c 4)
      { s with bed := { s.bed with code := 0, stepNo := 14, detail := 0, job := some { j with stage := .fallowing } } }) := by
  have heq : exec .bedCheckComplete s = execBedCheckComplete s := rfl
  simp only [heq, execBedCheckComplete, upDo_up hup, hjob, hst, bne_self_eq_false, Bool.false_eq_true, if_false, hcheck, hkind, if_true]

theorem exec_bedCheckComplete_amendment {p r : List PlanRec} (hst : j.stage = .checking) (hcheck : s.planCheck j.image false j.persist = .ok (p, r)) (hkind : imgKind j.image ≠ 0) :
    exec .bedCheckComplete s = .next { s with bed := { s.bed with
      code := 0, stepNo := 14, detail := 0, job := some { j with stage := .quiescing, affected := affectedOf r, deleted := deletedOf r } } } := by
  have heq : exec .bedCheckComplete s = execBedCheckComplete s := rfl
  simp only [heq, execBedCheckComplete, upDo_up hup, hjob, hst, bne_self_eq_false, Bool.false_eq_true, if_false, hcheck, hkind]

/-! ### A full plan takes effect (R275) -/

theorem exec_bedAccepted_waits (hst : j.stage = .fallowing) (hfallow : ∃ c ∈ s.cmpts, c.1 ≠ 0 ∧ c.2.state = .fallow) : exec .bedAccepted s = .next s := by
  have heq : exec .bedAccepted s = execBedAccepted s := rfl
  have hany : s.cmpts.any (fun c => c.1 != 0 && c.2.state == .fallow) = true := by simpa using hfallow
  simp only [heq, execBedAccepted, upDo_up hup, hjob, hst, bne_self_eq_false, hany, Bool.or_true, if_true]

theorem exec_bedAccepted_installs (hst : j.stage = .fallowing) (hpersist : j.persist = false) (hfallow : ∀ c ∈ s.cmpts, c.1 ≠ 0 → c.2.state ≠ .fallow) :
    exec .bedAccepted s = .next (((s.fullInForce j.image).event 0 0x0040 0 0).loadEnds j true) := by
  have heq : exec .bedAccepted s = execBedAccepted s := rfl
  have hany : s.cmpts.any (fun c => c.1 != 0 && c.2.state == .fallow) = false := by simpa using hfallow
  simp only [heq, execBedAccepted, upDo_up hup, hjob, hst, bne_self_eq_false, hany, Bool.or_false, Bool.false_eq_true, if_false, hpersist]

/-! ### The epoch of an amendment (R276, R277) -/

theorem exec_epochQuiesce_waits (hst : j.stage = .quiescing) (hquiet : j.affected.all s.quiet = false) : exec .epochQuiesce s = .next s := by
  have heq : exec .epochQuiesce s = execEpochQuiesce s := rfl
  simp only [heq, execEpochQuiesce, upDo_up hup, hjob, hst, bne_self_eq_false, hquiet, Bool.not_false, Bool.or_true, if_true]

theorem exec_epochQuiesce_passes (hst : j.stage = .quiescing) (hquiet : j.affected.all s.quiet = true) (hdel : j.deleted = []) (hsegs : s.changedSegs (imageRecs j.image) = []) :
    exec .epochQuiesce s = .next { s with bed := { s.bed with job := some { j with
      stage := .withdrawing, await := 0 :: ((List.range 29).drop 1).filter (fun e => invBit s.inv.active e && !invBit s.inv.fenced e) } } } := by
  have heq : exec .epochQuiesce s = execEpochQuiesce s := rfl
  simp only [heq, execEpochQuiesce, upDo_up hup, hjob, hst, bne_self_eq_false, hquiet, Bool.not_true, Bool.or_false, Bool.false_eq_true, if_false, hdel, hsegs, List.foldl_nil]

theorem exec_bedEpochTimeout_abandons (hst : j.stage = .quiescing) :
    exec .bedEpochTimeout s = .next (State.bedRefuse { s with bed := { s.bed with job := none } } { step := 14, code := 0x6010, detail := 0 } j).releaseHeld := by
  have heq : exec .bedEpochTimeout s = execBedEpochTimeout s := rfl
  simp only [heq, execBedEpochTimeout, upDo_up hup, hjob, hst, bne_self_eq_false, Bool.false_eq_true, if_false]

/-- A unit that the epoch awaits installs its values and answers. -/
theorem exec_epoch_answers (hst : j.stage = .withdrawing) (hd : d ∈ j.await) (hun : s.unmaps = []) (hdel : j.deleted = []) {u : State}
    (hu : s.epochInstall (amend s.bed.plan (imageRecs j.image)) j d = u) :
    exec (.epoch d) s = .next { u with bed := { u.bed with job := some { j with stage := .installing, await := j.await.filter (· != d) } } } := by
  have heq : exec (.epoch d) s = execEpoch d s := rfl
  have hawait : j.await.contains d = true := List.contains_iff_mem.mpr hd
  simp only [heq, execEpoch, upDo_up hup, hjob, hst, bne_self_eq_false, hawait, hun, hdel, List.any_nil, Bool.false_and, Bool.not_true, Bool.or_false, Bool.false_eq_true, if_false, hu]

theorem exec_epochDone_waits (hst : j.stage = .installing) (hawait : j.await ≠ []) : exec .epochDone s = .next s := by
  have heq : exec .epochDone s = execEpochDone s := rfl
  simp only [heq, execEpochDone, upDo_up hup, hjob, hst, bne_self_eq_false, List.isEmpty_eq_false_iff.mpr hawait, Bool.not_false, Bool.or_true, if_true]

theorem exec_epochDone_ends (hst : j.stage = .installing) (hpersist : j.persist = false) (hawait : j.await = []) {u : State}
    (hu : { s.amendInForce j.image with bed := { (s.amendInForce j.image).bed with epochs := s.bed.epochs + 1 } } = u) :
    exec .epochDone s = .next (((0 :: j.affected.filter (fun c => u.cstate c != .undef)).foldl (fun t c => t.event c 0x0041 0 0) u).loadEnds j true) := by
  subst hu
  have heq : exec .epochDone s = execEpochDone s := rfl
  simp only [heq, execEpochDone, upDo_up hup, hjob, hst, bne_self_eq_false, hawait, List.isEmpty_nil, Bool.not_true, Bool.or_false, Bool.false_eq_true, if_false, hpersist]
  rfl

end

/-! ### The obligation -/

/-- Settles O30: each command of a load by its own rule; no install, wipe, event or fallow writes the plan's registers. The stages of an epoch, the answers die by die and the timeout while quiescing are the readings of log 21. -/
theorem bedPlansLoadAndTakeEffect : Obligations.BedPlansLoadAndTakeEffect := by
  unfold Obligations.BedPlansLoadAndTakeEffect
  intro s hup
  refine ⟨?go, ?busy, ?managed, ?refused, ?checked, ?full, ?quiesce, ?answer, ?done⟩
  case go =>
    intro p v hp hgo hlen hnone
    rw [exec_bedLoadCmd_go hup hp hgo, if_neg (by omega), State.bedStart, hnone]
    rfl
  case busy =>
    intro j v hjob hgo
    rw [exec_bedLoadCmd_go hup (.inl rfl) hgo, State.bedStart, hjob, Option.isSome_some, if_pos rfl, bedRefuse_pf rfl]
    rfl
  case managed =>
    intro m persist image hm hb hnone
    rw [exec_bedLoad_bound hup hm hb hnone, State.bedStart]
    dsimp only
    rw [hnone]
    rfl
  case refused =>
    intro j e hjob hst hpf hcheck
    rw [exec_bedCheckComplete_refused hup hjob hst hcheck, bedRefuse_pf hpf]
  case checked =>
    intro j p r hjob hst hcheck
    refine ⟨fun hkind => ⟨_, exec_bedCheckComplete_full hup hjob hst hcheck hkind, ?_⟩, exec_bedCheckComplete_amendment hup hjob hst hcheck⟩
    obtain ⟨hbed, hready⟩ := fallowEvery_keeps { s with bed := { s.bed with code := 0, stepNo := 14, detail := 0, job := some { j with stage := .fallowing } } } 4
    rw [planRegs_eq] at hbed
    rw [hbed]
    exact ⟨rfl, rfl, rfl, hready⟩
  case full =>
    intro j hjob hst hpersist
    exact ⟨exec_bedAccepted_waits hup hjob hst, fun hready => ⟨exec_bedAccepted_installs hup hjob hst hpersist hready, rfl, rfl, rfl⟩⟩
  case quiesce =>
    intro j hjob hst
    refine ⟨exec_epochQuiesce_waits hup hjob hst, exec_epochQuiesce_passes hup hjob hst, fun hpf => ?_⟩
    rw [exec_bedEpochTimeout_abandons hup hjob hst, bedRefuse_pf hpf]
    rfl
  case answer =>
    intro j d hjob hst hd hun hdel
    have hregs := epochInstall_planRegs s (amend s.bed.plan (imageRecs j.image)) j d
    have hmem := epochInstall_mem (s := s) (j := j) (die := d) (p := amend s.bed.plan (imageRecs j.image))
    generalize hu : s.epochInstall (amend s.bed.plan (imageRecs j.image)) j d = u at hregs hmem
    have hplan : u.bed.plan = s.bed.plan := congrArg Bed.plan hregs
    exact ⟨_, exec_epoch_answers hup hjob hst hd hun hdel hu, rfl, hplan, hmem⟩
  case done =>
    intro j hjob hst hpersist
    refine ⟨exec_epochDone_waits hup hjob hst, fun hawait hheld hwr => ⟨_, exec_epochDone_ends hup hjob hst hpersist hawait rfl, ?_⟩⟩
    generalize hu : ({ s.amendInForce j.image with bed := { (s.amendInForce j.image).bed with epochs := s.bed.epochs + 1 } } : State) = u
    generalize hcs : 0 :: j.affected.filter (fun c => u.cstate c != .undef) = cs
    have htells : u.tells (cs.foldl (fun t c => t.event c 0x0041 0 0) u) := tells_foldl (fun _ _ => tells_eventX ..) cs u
    have hstanding (k : Nat) : ((cs.foldl (fun t c => t.event c 0x0041 0 0) u).cmpt k).heldWr = (u.cmpt k).heldWr :=
      congrArg Prod.snd (foldl_keeps (fun t : State => (t.cmpt k).standing) (fun _ _ => standing_event ..) cs u)
    rw [loadEnds_bed (by rw [tells_conf htells, ← hu]; exact hheld) (fun k => by rw [hstanding, ← hu]; exact hwr k), ← planRegs_eq, tells_planRegs htells, planRegs_eq, ← hu]
    exact ⟨rfl, rfl, rfl⟩

end Sys2Proof.Machine
end
